-- ==== Sys2Proof/Word.lean ====
section
/-!
DEFINITION. The words of the module: a byte, a 64-bit register word, a 64-byte queue item, a 32-byte command, and the plainest
reading of a bit range of a number (bit 0 the least significant, R7).
-/

namespace Sys2Proof

/-- One byte of memory or of a frame. -/
abbrev Byte := BitVec 8

/-- A set-up register word, a scalar register g0–g31, a word of a table entry. -/
abbrev Word := BitVec 64

/-- A 64-byte hardware-queue item (R179); bit 511 is the valid tag. -/
abbrev Item := BitVec 512

/-- A 32-byte command (R171): byte n lies in bits 8n+7 to 8n. -/
abbrev Cmd := BitVec 256

/-- Bits `[lo + len - 1 : lo]` of a number (R7). -/
def bitsOf (n lo len : Nat) : Nat := (n >>> lo) % 2 ^ len

/-- A number with its bits `[lo + len - 1 : lo]` replaced by `v`. -/
def setBits (n lo len v : Nat) : Nat :=
  n - (bitsOf n lo len) <<< lo + (v % 2 ^ len) <<< lo

end Sys2Proof
end

