-- ==== Sys2Proof/Syntax.lean ====
section
/-!
DEFINITION. The commands and events of the MQN-9400: one constructor of Instr per row of spec/opcode_table.json, with the operands
that the rule of the row names. The table gives no row any bits, so no command has an encoding of its own; a core command
carries the 32 bytes of R171 as `w`.
-/

namespace Sys2Proof

/-- The path a register access arrives by (R335, R337): PF BAR0, I3C, management channel, or the window of one VF. -/
inductive Path where
  | host
  | bmc
  | fabric
  | vf (n : Fin 64)
  deriving DecidableEq, Repr

/-- Which bytes of an 8-byte register word an access covers (R402). -/
inductive Half where
  | all
  | low
  | high
  deriving DecidableEq, Repr

/-- A register write: its path, the bytes it covers, and the 8 bytes of data (a half write uses its own half of them). -/
structure Wr where
  path : Path
  half : Half
  val : Word
  deriving DecidableEq, Repr

/-- A thread context: TCtc of global core `core`, used by partition `part` (R166, R293). -/
structure Thr where
  part : Fin 64
  core : Fin 2048
  tc : Fin 16
  deriving DecidableEq, Repr

/-- The management and the power-and-clock pair (R16). -/
inductive Pair where
  | mg
  | pc
  deriving DecidableEq, Repr

/-- The time sources of R32. -/
inductive TimeSource where
  | ptp
  | pps
  deriving DecidableEq, Repr

/-- The SecTAG of a received frame (R139): association number, packet number, and the outcome of the integrity check of its ICV. -/
structure SecTag where
  an : Fin 4 := 0
  pn : BitVec 64 := 1
  icvOk : Bool := true
  deriving DecidableEq, Repr

/-- What a received frame brings beside its own fields: the codewords corrected and found uncorrectable since the port's frame before it
(R143); whether its FCS is good and no uncorrectable codeword touched it (R128); its 802.1Q tag (R123) and SecTAG (R139), where it has
them; its IPv6 destination and UDP destination port, and whether it has extension headers (R126); an ECN mark (R141); and how many bytes of each virtual channel have left the port's receive buffer since the frame before it,
since the spec gives that buffer no drain rate (R137). -/
structure Wire where
  corr : BitVec 16 := 0
  uncorr : BitVec 16 := 0
  fcsOk : Bool := true
  vid : Option (BitVec 12) := some 1
  pcp : Fin 8 := 0
  sec : Option SecTag := some {}
  dst : BitVec 128 := 0
  udp : BitVec 16 := 51870
  ext : Bool := false
  ecn : Bool := false
  drained : List Nat := []
  deriving DecidableEq, Repr

/-- Where a received frame comes, and what it brings. -/
structure Arrival where
  port : Fin 64
  wire : Wire
  deriving DecidableEq, Repr

/-- An OXT frame: the port it comes by, what it brings, and its UDP payload (the OXT header of R104 or R108, then the payload). -/
structure Frame where
  port : Fin 64
  wire : Wire
  bytes : List Byte
  deriving DecidableEq, Repr

/-- A PTP event message (R140): a Sync with the measured offset of FT from the source, in 2^-16 ns, before the correction for asymmetry;
or a request of the delay measurement. -/
inductive PtpKind where
  | sync (offset : Int)
  | delayReq
  | pdelayReq
  deriving DecidableEq, Repr

/-- A PTP event message: its domain, and whether it comes over UDP (R140). -/
structure PtpMsg where
  arrival : Arrival
  domain : BitVec 8
  udp : Bool
  deriving DecidableEq, Repr

/-- A Neighbor Solicitation: the source and the target address (R124). -/
structure Solicit where
  src : BitVec 128
  target : BitVec 128
  deriving DecidableEq, Repr

/-- A measurement of a port: the receive power of its eight lanes, in 0.1 dBm (R133). -/
structure LaneReading where
  port : Fin 64
  rx : List (BitVec 16)
  deriving DecidableEq, Repr

/-- A port, and its uncorrectable codewords since its last frame (R143). -/
structure FecReport where
  port : Fin 64
  uncorr : BitVec 16
  deriving DecidableEq, Repr

/-- A port, and what has left its receive buffer, as in Wire (R137). -/
structure Drain where
  port : Fin 64
  drained : List Nat
  deriving DecidableEq, Repr

/-- What loses its laser light (R121, R133): all eight fibres of a laser input, or the one fibre of a port. -/
inductive LaserPath where
  | input (m : Fin 8)
  | fibre (port : Fin 64)
  deriving DecidableEq, Repr

/-- A fault of the residue-checked adder (R112): the element it meets (its number in the whole reduced vector), the contribution whose add it
meets, what it adds to the sum, and what it adds to that of the recomputation. -/
structure Upset where
  elem : Nat
  add : Nat
  err : Int
  again : Int := 0
  deriving DecidableEq, Repr

/-- An OXT frame of a share, and the faults of the adder where it completes the contributions of a reduction (R112). -/
structure ShareFrame where
  frame : Frame
  upsets : List Upset
  deriving DecidableEq, Repr

/-- The start of the collective of a group handle, and the faults of the adder where nothing has to come (R112). -/
structure CollStart where
  h : Fin 256
  upsets : List Upset
  deriving DecidableEq, Repr

/-- The partial outputs of a split expert for one pick (R74): Sedge die, token and rank of the pick, the elements of each part in RET_FMT, and
the faults of the adder. No rule names the message that carries a part (log entry 55). -/
structure SplitSum where
  se : Fin 4
  tok : Nat
  rank : Nat
  parts : List (List Byte)
  upsets : List Upset := []
  deriving DecidableEq, Repr

/-- The outputs that a combine of a partition meets: their set, and the partial outputs of split experts (R74). -/
structure RouteSet where
  setId : BitVec 8
  sums : List SplitSum
  deriving DecidableEq, Repr

/-- An incoming RoCEv2 packet (R141, R329). A message may span packets: `first` and `last` name its ends; a WRITE carries its R_KEY,
address and length in its first packet. -/
inductive RocePkt where
  | send (psn : BitVec 24) (first last : Bool) (imm : Option (BitVec 32)) (data : List Byte)
  | write (psn : BitVec 24) (reth : Option (BitVec 32 × Nat × Nat)) (last : Bool) (imm : Option (BitVec 32)) (data : List Byte)
  | read (psn : BitVec 24) (rkey : BitVec 32) (addr len : Nat)
  | readResp (psn : BitVec 24) (last : Bool) (data : List Byte)
  | ack (psn : BitVec 24)
  | nak (psn : BitVec 24) (syndrome : BitVec 8)
  | cnp
  deriving DecidableEq, Repr

/-- An envelope of the management channel (R399): the port and what its frame brings; for the IPv4 management class its IPv4 destination
(R127); the sender's address and UDP port; the OXT header, and the 24 bytes of the envelope ahead of its body, in network byte order;
`sigOk` is the outcome of its two signature checks. The body is the row's operands. -/
structure Envelope where
  port : Fin 64
  wire : Wire
  v4 : Option (BitVec 32) := none
  sender : BitVec 128
  senderUdp : BitVec 16
  oxt : List Byte
  hdr : List Byte
  sigOk : Bool
  deriving DecidableEq, Repr

/-- The body of a KEY_INSTALL envelope (R398): a wrapped CAK for a key-store index, or a management key pair for a slot. -/
inductive KeyBody where
  | cak (index : BitVec 8) (key : BitVec 256)
  | mgmtPair (slot : Fin 16) (pair : BitVec 256)
  deriving DecidableEq, Repr

/-- The three paths of the SPDM responder (R396). -/
inductive SpdmPath where
  | doe
  | mctp
  | mgmt
  deriving DecidableEq, Repr

/-- An SPDM request as it meets the responder: its path, whether it is well formed, and whether the path is still busy with an earlier
request (R396). -/
structure SpdmReq where
  path : SpdmPath
  wellFormed : Bool
  busy : Bool := false
  deriving DecidableEq, Repr

/-- A firmware image as MG0 finds it (R387): the outcome of the header and digest check, of both signatures, of the key hashes
for the life-cycle state, its SVN and its digest. -/
structure FwImage where
  headerOk : Bool
  digestOk : Bool
  sigsOk : Bool
  keysOk : Bool
  svn : BitVec 6
  digest : BitVec 384
  deriving DecidableEq, Repr

/-- The result of one read of a memory word by the patrol scrub (R372, R373). -/
inductive ScrubResult where
  | clean
  | corrected
  | uncorrectable
  deriving DecidableEq, Repr

/-- A sensor that is found open, shorted or stuck (R358). `last` says that the die has no other working sensor. -/
inductive Sensor where
  | dieJunction (die : Fin 100) (last : Bool)
  | inlet
  | outlet
  | flow
  | inputSense
  deriving DecidableEq, Repr

/-- One command or event of the module, one constructor per row of the opcode table. -/
inductive Instr where
  -- reset alignment, mirrors (R16, R48)
  | mirrorTakeover (pair : Pair)
  | mirrorLost (pair : Pair)
  | dieReadyReport (die : Fin 100)
  | alignTick
  | alignLatencyRecord (crossings : List (Fin 100 × Fin 100 × BitVec 16))
  | alignReadyTimeout
  -- fabric time (R30–R34, R140)
  | ptpEventRx (msg : PtpMsg) (kind : PtpKind)
  -- `offset` is the measured FT minus source, in 2^-16 ns
  | ppsInEdge (offset : Int)
  | ftbSourceLost (src : TimeSource)
  | ftUnlocked
  | ftbSetTimeWrite (w : Wr)
  | ftbNowNsRead (path : Path)
  -- scheduled events (R35–R46); `e` is an SET entry
  | setEntryWrite (e : Fin 1024) (word : Fin 4) (w : Wr)
  | exchWindowOpen (e : Fin 1024)
  | stepBoundary (e : Fin 1024)
  | statLatch (e : Fin 1024)
  | pguPrepare (e : Fin 1024)
  | queueKick (e : Fin 1024)
  | userPip (e : Fin 1024)
  | stepDecisionPoint (p : Fin 64)
  | heldBoundaryTake (p : Fin 64)
  -- Sedge routing (R53–R86)
  | eptStaleReload (se : Fin 4) (p : Fin 64)
  | routeContextWrite (se : Fin 4) (c : Fin 256) (word : Fin 8) (w : Wr)
  | sreStepWrite (p : Fin 64) (word : Fin 8) (w : Wr)
  | eptCommitGo (p : Fin 64) (w : Wr)
  | eptPrepareDone (se : Fin 4) (p : Fin 64)
  | eptLayerLoad (se : Fin 4) (p : Fin 64) (layer : BitVec 16)
  | routeSubmit (th : Thr) (w : Cmd)
  | submitItemLand (q : Fin 4096)
  | sreSubmitItemRead (se : Fin 4) (q : Fin 4096)
  | sreLogitPacket (se : Fin 4) (q : Fin 4096)
  | sendListHandoff (p : Fin 64) (setId : BitVec 8) (tag : BitVec 32)
  | combine (p : Fin 64) (set : RouteSet) (tag : BitVec 32)
  | combineWait (th : Thr) (w : Cmd)
  | sampleSubmit (th : Thr) (w : Cmd)
  | sampleDone (th : Thr)
  | scRequestTake (p : Fin 64)
  | scCancel (p : Fin 64)
  | sreLiveClrWrite (w : Wr)
  -- exchange and collectives (R88–R119); `h` is a group handle
  | xgCommitGo (w : Wr)
  | xgCheckDone (h : Fin 256)
  | exchLaunch (p : Fin 64) (setId : BitVec 8) (tag : BitVec 32)
  | exchAllocation (h : Fin 256)
  | exchLaunchDone (h : Fin 256)
  | xgCountRound (h : Fin 256) (round : BitVec 16)
  | xgAllocEnd (h : Fin 256)
  | xgRoundStart (h : Fin 256) (round : BitVec 16)
  | xgSlotEnd (h : Fin 256) (round : BitVec 16)
  | xgWindowEnd (h : Fin 256)
  | oxtTailRetxTimer (h : Fin 256)
  | xgDeliveryDeadline (h : Fin 256)
  | oxtDataRx (x : ShareFrame)
  | oxtAckRx (f : Frame)
  | oxtSackRx (f : Frame)
  | oxtCountRx (f : Frame)
  | oxtReduceRx (f : Frame) (upsets : List Upset)
  | returnLaunch (h : Fin 256)
  | collectiveStart (x : CollStart)
  | collectiveComplete (h : Fin 256)
  | collTimeout (h : Fin 256)
  -- ports (R120–R143)
  | portFrameChoice (port : Fin 64)
  | netPortCtrlWrite (port : Fin 64) (w : Wr)
  | portCntClr (port : Fin 64) (w : Wr)
  | laserLoss (path : LaserPath)
  | laserRestored (port : Fin 64)
  | signalDetected (x : LaneReading)
  | linkTrained (port : Fin 64)
  | linkLocked (port : Fin 64)
  | linkSecured (port : Fin 64)
  | linkAttemptExpiry (port : Fin 64)
  | trainingTimeout (port : Fin 64)
  | lockingTimeout (port : Fin 64)
  | securingTimeout (port : Fin 64)
  -- `rx` as in LaneReading
  | linkLos (port : Fin 64) (rx : List (BitVec 16))
  | linkLockLoss (port : Fin 64)
  | fecUcwExceeded (x : FecReport)
  | remoteFault (port : Fin 64)
  | optMeasure (port : Fin 64) (laser rxmin : BitVec 16)
  | pfcRx (at_ : Arrival) (vc : Fin 8) (xoff : Bool)
  | pfcXoffRepeat (x : Drain) (vc : Fin 6)
  | pfcXon (x : Drain) (vc : Fin 6)
  | neighborSolicitRx (at_ : Arrival) (ns : Solicit)
  | arpRx (at_ : Arrival) (target : BitVec 32)
  -- `icrcOk` is the outcome of the ICRC check (R141)
  | roceRx (port : Fin 64) (wire : Wire) (qpn : Fin 1024) (icrcOk : Bool) (pkt : RocePkt)
  -- a frame of `len` bytes from destination address to FCS that no row of R126 names
  | unclassifiedFrameRx (at_ : Arrival) (len : BitVec 16)
  | mkaRx (at_ : Arrival) (peer : BitVec 32) (reportsNewSa : Bool)
  | sakRekey (port : Fin 64)
  | oldSaExpiry (port : Fin 64)
  | mkaPeerTimeout (port : Fin 64) (peer : BitVec 32)
  -- command fetch and the control commands (R170–R184)
  | cmdFetch (th : Thr)
  | nop (th : Thr) (w : Cmd)
  | br (th : Thr) (w : Cmd)
  | loop (th : Thr) (w : Cmd)
  | waitPip (th : Thr) (w : Cmd)
  | waitPipTimeout (th : Thr)
  | sigPip (th : Thr) (w : Cmd)
  | credGet (th : Thr) (w : Cmd)
  | credPut (th : Thr) (w : Cmd)
  | yield (th : Thr) (w : Cmd)
  | halt (th : Thr) (w : Cmd)
  | pset (th : Thr) (w : Cmd)
  | threadWake (th : Thr)
  | asyncCommandDone (th : Thr) (slot : Fin 16)
  -- data movement (R186–R188)
  | loadTile (th : Thr) (w : Cmd)
  | storeTile (th : Thr) (w : Cmd)
  | dma (th : Thr) (w : Cmd)
  | fabLd (th : Thr) (w : Cmd)
  | fabSt (th : Thr) (w : Cmd)
  | fabAtom (th : Thr) (w : Cmd)
  | poolAlloc (th : Thr) (w : Cmd)
  | poolFree (th : Thr) (w : Cmd)
  | qPush (th : Thr) (w : Cmd)
  | qPop (th : Thr) (w : Cmd)
  | qDroppkt (th : Thr) (w : Cmd)
  | qFlush (th : Thr) (w : Cmd)
  | qStaleTimeout (q : Fin 4096)
  | hqDescWrite (q : Fin 4096) (word : Fin 4) (w : Wr)
  -- matrix, sparse, Sheller, Hummock (R191–R235)
  | mm (th : Thr) (w : Cmd)
  | conv (th : Thr) (w : Cmd)
  | mv (th : Thr) (w : Cmd)
  | gmm (th : Thr) (w : Cmd)
  | smm (th : Thr) (w : Cmd)
  | shell (th : Thr) (w : Cmd)
  | merge (th : Thr) (w : Cmd)
  | shellerGather (h : Fin 256) (rank : BitVec 14)
  | gatherClose (h : Fin 256)
  -- vector engine (R236–R247)
  | vld (th : Thr) (w : Cmd)
  | vst (th : Thr) (w : Cmd)
  | vbin (th : Thr) (w : Cmd)
  | vun (th : Thr) (w : Cmd)
  | vfma (th : Thr) (w : Cmd)
  | vred (th : Thr) (w : Cmd)
  | vcvt (th : Thr) (w : Cmd)
  | vperm (th : Thr) (w : Cmd)
  | vpack (th : Thr) (w : Cmd)
  | vunpack (th : Thr) (w : Cmd)
  -- memory tiers and pools (R248–R268)
  | poolInit (p : Fin 64) (c : Fin 12) (w : Wr)
  | poolRefill (p : Fin 64) (c : Fin 12)
  | cxlLinkDown (port : Fin 4)
  | t3WipeChunk
  | tierRecalibration (tier2 : Bool) (unit : BitVec 10)
  | patrolScrub (addr : BitVec 52) (result : ScrubResult)
  -- memory-semantic fabric (R269–R288)
  | fabReqLoad (f : Frame)
  | fabReqStore (f : Frame)
  | fabReqAtomic (f : Frame)
  | fabReqInval (f : Frame)
  | fabReqPing (f : Frame)
  | fabRspRx (f : Frame)
  | fabRetxTimer (id : BitVec 32)
  | fabTimeout (id : BitVec 32)
  | fabPingTimer
  | fabLeaseExpiry (member : Fin 8)
  | fabInvalTimeout (id : BitVec 32)
  | fabRspCacheExpiry
  | fabDomainGo (w : Wr)
  | fabDomainCommit
  -- partitions, contexts, jobs, serving (R289–R313)
  | partMapCommit (p : Fin 64) (w : Wr)
  | ctxSliceEnd (p : Fin 64)
  | ctxEarlySwitch (p : Fin 64)
  | ctxSwitchSaved (p : Fin 64)
  | ctxSwitchRestored (p : Fin 64)
  | ctxFault (p : Fin 64) (c : Fin 16)
  | ctxResume (p : Fin 64) (c : Fin 16) (w : Wr)
  | ctxReset (p : Fin 64) (c : Fin 16) (w : Wr)
  | ctxStop (p : Fin 64) (c : Fin 16) (w : Wr)
  | partTeardown (p : Fin 64) (w : Wr)
  | teardownDrainDone (p : Fin 64)
  | teardownDrainTimeout (p : Fin 64)
  | teardownWipeDone (p : Fin 64)
  | partJobStart (p : Fin 64) (w : Wr)
  | jobStartFire (p : Fin 64)
  | oxtRequestRx (f : Frame)
  | tokenOutItem (q : Fin 4096)
  | tokenOutRetxTimer (p : Fin 64) (node : BitVec 16) (psn : BitVec 32)
  | oxtDoorbellRx (f : Frame)
  -- host interface (R314–R343)
  | sqTailDoorbell (path : Path) (r : Fin 1024) (full : Bool) (val : Word)
  | cqHeadDoorbell (path : Path) (r : Fin 1024) (full : Bool) (val : Word)
  | ringDescWrite (r : Fin 1024) (word : Fin 8) (w : Wr)
  | ringFetch (r : Fin 1024) (hostBytes : List Byte)
  | entryNop (r : Fin 1024)
  | launch (r : Fin 1024)
  | copy (r : Fin 1024) (hostBytes : Option (List Byte))
  | qpush (r : Fin 1024) (hostBytes : List Byte)
  | pipsig (r : Fin 1024)
  | qpCtl (r : Fin 1024)
  | mrCtl (r : Fin 1024)
  | rdmaWr (r : Fin 1024)
  | rdmaRecv (r : Fin 1024)
  | cqeWrite (r : Fin 1024)
  | ringIrqHoldoff (r : Fin 1024)
  | vfFlr (n : Fin 64)
  | pfFlr
  | vfEnableClear
  | pcieLinkDown
  -- ownership (R335–R340)
  | ownClaim (w : Wr)
  | ownElectionSettle
  | ownClaimExpiry (cand : Fin 4)
  | ownHeartbeat (w : Wr)
  | ownLapse
  | ownRelease (w : Wr)
  | ownHandover (w : Wr)
  -- I3C sideband (R341, R342): the raw bytes of a transfer after its first address byte
  | i3cEntdaa (addr : BitVec 7)
  | i3cWrite (addr : BitVec 7) (bytes : List Byte)
  | i3cRead (addr : BitVec 7) (bytes : List Byte) (stop : Bool)
  -- attestation (R396)
  | getVersion (q : SpdmReq)
  | getCapabilities (q : SpdmReq)
  | negotiateAlgorithms (q : SpdmReq)
  | getDigests (q : SpdmReq)
  | getCertificate (q : SpdmReq)
  | challenge (q : SpdmReq)
  | getMeasurements (q : SpdmReq)
  | spdmVendorDefined (q : SpdmReq)
  -- management channel (R398, R399)
  | mgmtRegWrite (v : Envelope) (off : BitVec 24) (val : Word)
  | mgmtRegRead (v : Envelope) (off : BitVec 24)
  | mgmtOwnClaim (v : Envelope) (val : Word)
  | keyInstall (v : Envelope) (body : KeyBody)
  | mgmtLcsReq (v : Envelope) (val : Word) (authOk : Bool)
  | mgmtSpdm (v : Envelope) (q : SpdmReq)
  -- power, thermal, ageing (R344–R368); `mv10` is the sampled input voltage in units of 10 mV
  | inputPowerUp (mv10 : BitVec 16)
  | inputOv (mv10 : BitVec 16)
  | inputOvRelease (mv10 : BitVec 16)
  | sagWarn (mv10 : BitVec 16)
  | sagWarnClear (mv10 : BitVec 16)
  | sagReset (mv10 : BitVec 16)
  | sagResetRelease (mv10 : BitVec 16)
  | pwrSagWrite (w : Wr)
  | pguGrant
  | pguBaseUpdate (measuredW avgGr : BitVec 16)
  | pwrPeak (measuredW : BitVec 16)
  | pguResume
  | pguReservationExpiry (p : Fin 64)
  | coreWake (core : Fin 2048)
  | railFault (rail : BitVec 8)
  | railLatchClear
  | sensorFault (s : Sensor)
  | coolantLow (inlet flow : BitVec 12)
  | coolantLowClear (inlet flow : BitVec 12)
  | thermSample (die : Fin 100) (temp : BitVec 8)
  | thermStep (die : Fin 100)
  | thermTrip (die : Fin 100)
  | pwrTripClr (w : Wr)
  | regionCheck (a b : Fin 100) (dTemp dMv : BitVec 8) (ratioPct : BitVec 10)
  | ageMonitorReport (die : Fin 100) (monitor : BitVec 6) (slack : BitVec 7)
  | marginPlannerPass (die : Fin 100) (slacks : List (BitVec 6))
  | planNow (w : Wr)
  | opHoursTick
  -- errors (R369–R383)
  | errorReport
  | errRecordClose
  | erqIrqHoldoffEnd
  | errCtrlErqEn (w : Wr)
  | errFirstClr (w : Wr)
  | errDeviceClr (w : Wr)
  | errErqHeadWrite (w : Wr)
  -- resets, boot, life cycle, firmware (R384–R393)
  | coldReset
  | warmReset
  | lcsResetCold (w : Wr)
  | lcsResetWarm (w : Wr)
  | fwImageCheck (img : FwImage)
  | memTraining (ok : Bool) (site : Fin 100)
  | bootReady (wiped : Bool)
  | fwWrite (w : Wr) (img : FwImage)
  | fwWriteDone (ok : Bool)
  | fwActivate (w : Wr)
  | svnCommit (w : Wr)
  | lcsReq (w : Wr) (authOk : Bool)
  -- any other register, link and supply events
  | registerWrite (off : BitVec 24) (w : Wr)
  | pcieLinkUp (rate : BitVec 3) (width : BitVec 5)
  | cxlLinkUp (port : Fin 4) (width : BitVec 5) (capGib : BitVec 16)
  | inputPowerLoss (mv10 : BitVec 16)
  | ppsOutEdge
  | msixVectorUnmask (pf : Bool) (fn : Fin 64) (vec : BitVec 10)
  | roceRetryTimeout (qpn : Fin 1024)
  deriving DecidableEq, Repr

end Sys2Proof
end

