-- ==== Sys2Proof/Decode.lean ====
section
/-!
DEFINITION. The command that a word spells by the table's bits. spec/opcode_table.json gives no row any bits, so no word spells a
command.
-/

namespace Sys2Proof

/-- No row of the table gives bits: a word of any length spells no command. -/
def decodeTableWord (_nbits _w : Nat) : Option Instr := none

end Sys2Proof
end

