-- ==== Sys2Proof/Config.lean ====
section
/-!
DEFINITION. What the spec leaves to the implementation. Every opaque constant is a free value: nothing in Lean can evaluate it, so a
claim about it holds whatever it is. The log entry of each is named beside it.
-/

namespace Sys2Proof.Config

/-- A value the spec does not state, drawn fresh: the n-th draw (log entry 2). -/
opaque freeWord : Nat → Word

/-- A byte the spec does not state: draw number and place (log entry 2). -/
opaque freeByte : Nat → Nat → Byte

/-- What the vector engine gives for a function (by its OP in R242) of an FP32 operand; taken where it lies within 2 ulp (log entry 3). -/
opaque vecFun : Nat → BitVec 32 → BitVec 32

/-- What the Sedge scorer gives for exp of an FP32 operand; taken where it lies within 1 ulp (R159, log entry 3). -/
opaque sedgeExp : BitVec 32 → BitVec 32

/-- What the Sedge scorer gives for sigmoid of an FP32 operand; taken where it lies within 1 ulp (R159, log entry 3). -/
opaque sedgeSigmoid : BitVec 32 → BitVec 32

/-- A member node of a version 2 group is a Moquin device (R108); nothing says which are (log entry 23). -/
opaque isMoquin : Nat → Bool

/-- The set of the remote line cache that a line of a node falls into (R280, log entry 17). -/
opaque rlcSet : Nat → Nat → Nat

end Sys2Proof.Config
end

