-- ==== Sys2Proof/Machine/RegMap.lean ====
section
/-!
DEFINITION. The set-up register map of BAR0 (R401, R407): one row per register word with its reset value and the masks of its RW,
RW1C and WO bits, read from the defining tables. Bits in no mask are RO or reserved (R9, R10).
-/

namespace Sys2Proof.Machine

/-- A row of the register map: `n1` copies at stride `s1`, each of `n2` words at stride `s2`, from `base`. -/
structure RegRow where
  name : String
  base : Nat
  s1 : Nat := 8
  n1 : Nat := 1
  s2 : Nat := 8
  n2 : Nat := 1
  reset : Nat := 0
  rw : Nat := 0
  w1c : Nat := 0
  wo : Nat := 0
  deriving DecidableEq, Repr

/-- The mask of bits `[lo + len - 1 : lo]`. -/
def fm (lo len : Nat) : Nat := (2 ^ len - 1) <<< lo

/-- GLB, OWN and LCS (R6, R340, R400). -/
def rowsOwn : List RegRow :=
  [ ⟨"GLB_ID", 0x000000, 8, 1, 8, 1, 0x0800_0110_9400, 0, 0, 0⟩,
    ⟨"GLB_CORE_ENABLE_n", 0x000100, 8, 32, 8, 1, 0xFFFF_FFFF_FFFF_FFFF, 0, 0, 0⟩,
    ⟨"OWN_CLAIM", 0x010000, 8, 1, 8, 1, 0, 0, 0, fm 0 64⟩,
    ⟨"OWN_HEARTBEAT", 0x010008, 8, 1, 8, 1, 0, 0, 0, fm 0 64⟩,
    ⟨"OWN_CTRL", 0x010010, 8, 1, 8, 1, 0, 0, 0, fm 0 64⟩,
    ⟨"OWN_CFG", 0x010018, 8, 1, 8, 1, 0x7D0, fm 0 32, 0, 0⟩,
    ⟨"OWN_STATUS", 0x010020, 8, 1, 8, 1, 0, 0, fm 8 1, 0⟩,
    ⟨"OWN_CAND_c", 0x010030, 8, 3, 8, 1, 0xFFFF_FFFF_0000, 0, 0, 0⟩,
    ⟨"OWN_DENIED", 0x010060, 8, 1, 8, 1, 0, 0, 0, 0⟩,
    ⟨"OWN_ELECTIONS", 0x010068, 8, 1, 8, 1, 0, 0, 0, 0⟩,
    ⟨"LCS_STATUS", 0x020000, 8, 1, 8, 1, 2 ||| (64 <<< 24), 0, fm 31 1, 0⟩,
    ⟨"LCS_REQ", 0x020008, 8, 1, 8, 1, 0, 0, 0, fm 0 64⟩,
    ⟨"LCS_NONCE", 0x020010, 8, 1, 8, 1, 0, 0, 0, 0⟩,
    ⟨"LCS_RESET", 0x020018, 8, 1, 8, 1, 0, 0, 0, fm 0 64⟩,
    ⟨"LCS_CTRL", 0x020020, 8, 1, 8, 1, 0xE10 <<< 16, fm 16 32, 0, fm 0 3⟩,
    ⟨"LCS_FW_ADDR", 0x020028, 8, 1, 8, 1, 0, fm 0 52, 0, 0⟩,
    ⟨"LCS_PORT_CKN_n", 0x020100, 8, 64, 8, 1, 0, fm 0 8, 0, 0⟩ ]

/-- PWR (R346, R367, R368). -/
def rowsPwr : List RegRow :=
  [ ⟨"PWR_CAP", 0x040000, 8, 1, 8, 1, 0x157C, fm 0 13, 0, 0⟩,
    ⟨"PWR_GRANT_CFG", 0x040008, 8, 1, 8, 1, 0x190 ||| (6 <<< 16) ||| (0xFA <<< 24) ||| (0x320 <<< 40),
      fm 0 10 ||| fm 16 3 ||| fm 24 32, 0, 0⟩,
    ⟨"PWR_SAG", 0x040010, 8, 1, 8, 1, 0xA410 ||| (0x9470 <<< 16) ||| (0xABE0 <<< 32) ||| (0x3C <<< 48), fm 0 55, 0, 0⟩,
    ⟨"PWR_STATUS", 0x040018, 8, 1, 8, 1, 0, 0, 0, 0⟩,
    ⟨"PWR_EVENT", 0x040020, 8, 1, 8, 1, 0x157C <<< 32, 0, fm 1 6, 0⟩,
    ⟨"PWR_THERM_CFG", 0x040028, 8, 1, 8, 1, 0x64 ||| (0x3C <<< 8) ||| (0x32 <<< 16), fm 0 23, 0, 0⟩,
    ⟨"PWR_COOLANT", 0x040030, 8, 1, 8, 1, 0, 0, 0, 0⟩,
    ⟨"PWR_RESET_CAUSE", 0x040038, 8, 1, 8, 1, 0, 0, 0, 0⟩,
    ⟨"PWR_TRIP_CLR", 0x040040, 8, 1, 8, 1, 0, 0, 0, fm 0 64⟩,
    ⟨"PWR_AGE_CFG", 0x040048, 8, 1, 8, 1, 0x28 ||| (8 <<< 8) ||| (4 <<< 16) ||| (0x5DC <<< 32),
      fm 0 6 ||| fm 8 6 ||| fm 16 6 ||| fm 32 12, 0, fm 48 1⟩,
    ⟨"PWR_AGE_STATUS", 0x040050, 8, 1, 8, 1, 0, 0, fm 62 1, 0⟩,
    ⟨"PWR_CLASS_W_0", 0x040100, 8, 1, 8, 1, 0, 0, 0, 0⟩,
    ⟨"PWR_CLASS_W_1", 0x040108, 8, 1, 8, 1, 1, fm 0 10, 0, 0⟩,
    ⟨"PWR_CLASS_W_2", 0x040110, 8, 1, 8, 1, 2, fm 0 10, 0, 0⟩,
    ⟨"PWR_CLASS_W_3", 0x040118, 8, 1, 8, 1, 4, fm 0 10, 0, 0⟩,
    ⟨"PWR_CLASS_W_4", 0x040120, 8, 1, 8, 1, 16, fm 0 10, 0, 0⟩,
    ⟨"PWR_CLASS_W_5", 0x040128, 8, 1, 8, 1, 64, fm 0 10, 0, 0⟩,
    ⟨"PWR_CLASS_W_6", 0x040130, 8, 1, 8, 1, 200, fm 0 10, 0, 0⟩,
    ⟨"PWR_CLASS_W_7", 0x040138, 8, 1, 8, 1, 400, fm 0 10, 0, 0⟩,
    ⟨"power counters", 0x040200, 8, 1, 8, 6, 0, 0, 0, 0⟩,
    ⟨"PWR_DIE_n, compute dies", 0x040800, 8, 32, 8, 1, 0x708 <<< 14, 0, 0, 0⟩,
    ⟨"PWR_DIE_n, other dies", 0x040900, 8, 68, 8, 1, 0, 0, 0, 0⟩ ]

/-- FTB with the SET (R34, R35, R408). -/
def rowsFtb : List RegRow :=
  [ ⟨"FTB_CTRL", 0x060000, 8, 1, 8, 1, (1 <<< 17) ||| (0x64 <<< 32) ||| (0x1F4 <<< 48),
      fm 0 3 ||| fm 8 6 ||| fm 16 2 ||| fm 32 26, 0, 0⟩,
    ⟨"FTB_STATUS", 0x060008, 8, 1, 8, 1, (3 <<< 4) ||| (0xFFFF <<< 16), 0, fm 32 2, 0⟩,
    ⟨"FTB_NOW_NS", 0x060010, 8, 1, 8, 1, 0, 0, 0, 0⟩,
    ⟨"FTB_NOW_FRAC", 0x060018, 8, 1, 8, 1, 0, 0, 0, 0⟩,
    ⟨"FTB_SET_TIME", 0x060020, 8, 1, 8, 1, 0, 0, 0, fm 0 64⟩,
    ⟨"FTB_SNAP_BASE", 0x060040, 8, 1, 8, 1, 0, fm 0 52, 0, 0⟩,
    ⟨"FTB_SET_MISSED", 0x060048, 8, 1, 8, 1, 0, 0, 0, 0⟩,
    ⟨"FTB_ALIGN_STATUS_n", 0x061000, 8, 512, 8, 1, 0, 0, 0, 0⟩,
    ⟨"SET entry word 0", 0x068000, 0x20, 1024, 8, 1, 0, fm 0 64, 0, 0⟩,
    ⟨"SET entry word 1", 0x068008, 0x20, 1024, 8, 1, 0, fm 0 64, 0, 0⟩,
    ⟨"SET entry word 2", 0x068010, 0x20, 1024, 8, 1, 0, fm 0 5 ||| fm 8 6 ||| fm 16 48, 0, 0⟩,
    ⟨"SET entry word 3", 0x068018, 0x20, 1024, 8, 1, 0, 0, 0, 0⟩ ]

/-- ERR (R383). -/
def rowsErr : List RegRow :=
  [ ⟨"ERR_ERQ_BASE", 0x080000, 8, 1, 8, 1, 0, fm 0 52, 0, 0⟩,
    ⟨"ERR_CTRL", 0x080008, 8, 1, 8, 1, (2 <<< 8) ||| (0x64 <<< 32), fm 0 1 ||| fm 4 3 ||| fm 8 3 ||| fm 32 20, 0, fm 1 2⟩,
    ⟨"ERR_ERQ_TAIL", 0x080010, 8, 1, 8, 1, 0, 0, 0, 0⟩,
    ⟨"ERR_ERQ_HEAD", 0x080018, 8, 1, 8, 1, 0, fm 0 64, 0, 0⟩,
    ⟨"ERR_ERQ_LOST", 0x080020, 8, 1, 8, 1, 0, 0, 0, 0⟩,
    ⟨"ERR_STATUS", 0x080028, 8, 1, 8, 1, 0, 0, fm 1 1, 0⟩,
    ⟨"ERR_SRC_n word 0", 0x081000, 0x10, 100, 8, 1, 0, 0, fm 32 5, 0⟩,
    ⟨"ERR_SRC_n word 1", 0x081008, 0x10, 100, 8, 1, 0, 0, 0, 0⟩,
    ⟨"fatal log", 0x082000, 0x40, 16, 8, 8, 0, 0, 0, 0⟩ ]

/-- HIF (R319, R343). -/
def rowsHif : List RegRow :=
  [ ⟨"ring descriptor words 0 and 1", 0x100000, 0x40, 1024, 8, 2, 0, fm 0 64, 0, 0⟩,
    ⟨"ring descriptor word 2", 0x100010, 0x40, 1024, 8, 1, 0x44 ||| (1 <<< 12) ||| (1 <<< 32), fm 0 14 ||| fm 16 48, 0, 0⟩,
    ⟨"ring descriptor word 3", 0x100018, 0x40, 1024, 8, 1, 0, fm 0 3 ||| fm 4 6, 0, 0⟩,
    ⟨"ring descriptor word 4", 0x100020, 0x40, 1024, 8, 1, 0, 0, fm 16 1, 0⟩,
    ⟨"ring descriptor words 5 to 7", 0x100028, 0x40, 1024, 8, 3, 0, 0, 0, 0⟩,
    ⟨"HIF_LINK_STATUS", 0x110000, 8, 1, 8, 1, 0, 0, fm 32 1, 0⟩,
    ⟨"ring counters", 0x140000, 0x20, 1024, 8, 4, 0, 0, 0, 0⟩,
    ⟨"host-interface device counters", 0x148000, 8, 1, 8, 3, 0, 0, 0, 0⟩ ]

/-- MEM with the hardware queues (R178, R185, R258). -/
def rowsMem : List RegRow :=
  [ ⟨"MEM_T1_STATUS", 0x200000, 8, 1, 8, 1, 0x0400_FFFF, 0, 0, 0⟩,
    ⟨"MEM_T2_STATUS", 0x200008, 8, 1, 8, 1, 0x0800_FFFF_FFFF, 0, 0, 0⟩,
    ⟨"MEM_T3_CFG", 0x200010, 8, 1, 8, 1, 1, fm 0 1, 0, 0⟩,
    ⟨"MEM_T3_MAP", 0x200018, 8, 1, 8, 1, 0, 0, 0, 0⟩,
    ⟨"MEM_T3_STATUS_n", 0x200020, 8, 4, 8, 1, 0, 0, 0, 0⟩,
    ⟨"queue descriptor word 0", 0x280000, 0x20, 4096, 8, 1, 1 <<< 56, fm 0 52 ||| fm 56 6, 0, 0⟩,
    ⟨"queue descriptor word 1", 0x280008, 0x20, 4096, 8, 1, 0, fm 0 6 ||| fm 8 14 ||| fm 32 7 ||| fm 40 11, 0, 0⟩,
    ⟨"queue descriptor word 2", 0x280010, 0x20, 4096, 8, 1, 0, fm 0 6 ||| fm 8 11 ||| fm 32 32, 0, 0⟩,
    ⟨"queue descriptor word 3", 0x280018, 0x20, 4096, 8, 1, 0, 0, 0, 0⟩,
    ⟨"Q_STATUS", 0x2A0000, 0x10, 4096, 8, 1, 0, 0, 0, 0⟩,
    ⟨"queue counters", 0x2C0000, 0x20, 4096, 8, 4, 0, 0, 0, 0⟩ ]

/-- FAB (R272, R274, R287, R288). -/
def rowsFab : List RegRow :=
  [ ⟨"FAB_CTRL", 0x300000, 8, 1, 8, 1, 0x40 ||| (8 <<< 16), fm 0 14 ||| fm 16 8, 0, 0⟩,
    ⟨"FAB_PORT_MASK", 0x300008, 8, 1, 8, 1, 0xFFFF_FFFF_FFFF_FFFF, fm 0 64, 0, 0⟩,
    ⟨"FAB_DOMAIN", 0x300010, 8, 1, 8, 1, 0, fm 0 7, 0, fm 7 1⟩,
    ⟨"FAB_DOMAIN_NODES_LO", 0x300018, 8, 1, 8, 1, 0xFFFF_FFFF_FFFF_FFFF, fm 0 64, 0, 0⟩,
    ⟨"FAB_DOMAIN_NODES_HI", 0x300020, 8, 1, 8, 1, 0xFFFF_FFFF_FFFF_FFFF, fm 0 64, 0, 0⟩,
    ⟨"FAB_DOMAIN_LIVE", 0x300028, 8, 1, 8, 1, 0, 0, 0, 0⟩,
    ⟨"FAB_RLC_BASE", 0x300030, 8, 1, 8, 1, 0, fm 0 53, 0, 0⟩,
    ⟨"FAB_RSP_BASE", 0x300038, 8, 1, 8, 1, 0, fm 0 52, 0, 0⟩,
    ⟨"RWT entry", 0x308000, 8, 1024, 8, 1, 0xFFFF, fm 0 29, 0, 0⟩,
    ⟨"FAT entry word 0", 0x310000, 0x10, 4096, 8, 1, 0, fm 0 10 ||| fm 16 32, 0, 0⟩,
    ⟨"FAT entry word 1", 0x310008, 0x10, 4096, 8, 1, 0, fm 0 64, 0, 0⟩,
    ⟨"requester counters", 0x320000, 0x40, 64, 8, 6, 0, 0, 0, 0⟩,
    ⟨"target counters", 0x321000, 8, 1, 8, 4, 0, 0, 0, 0⟩ ]

/-- NET (R90, R119, R142, R143). -/
def rowsNet : List RegRow :=
  [ ⟨"NET_PORT_CTRL", 0x400000, 0x1000, 64, 8, 1, (0x3E8 <<< 16) ||| (0x10 <<< 32), fm 0 4 ||| fm 16 32, 0, fm 4 1⟩,
    ⟨"NET_PORT_STATUS", 0x400008, 0x1000, 64, 8, 1, 0xFF <<< 8, 0, fm 32 3, 0⟩,
    ⟨"NET_LINK_TRAIN_TIMEOUT", 0x400010, 0x1000, 64, 8, 1, 0x1F4, fm 0 16, 0, 0⟩,
    ⟨"NET_PORT_ADDR", 0x400018, 0x1000, 64, 8, 1, 0, 0, 0, 0⟩,
    ⟨"NET_PORT_NH", 0x400020, 0x1000, 64, 8, 1, 1 <<< 48, fm 0 60, 0, 0⟩,
    ⟨"NET_VC_CFG", 0x400028, 0x1000, 64, 8, 1, 0x0804_0101_0101 ||| (0x0A <<< 48), fm 0 56, 0, 0⟩,
    ⟨"NET_PFC_CFG", 0x400030, 0x1000, 64, 8, 1, 0x200 <<< 8, fm 0 6 ||| fm 8 11, 0, 0⟩,
    ⟨"NET_SEC_CFG", 0x400038, 0x1000, 64, 8, 1, 1 ||| (0x400 <<< 16) ||| (0x7D0 <<< 48), fm 0 1 ||| fm 16 48, 0, 0⟩,
    ⟨"NET_PTP_CFG", 0x400040, 0x1000, 64, 8, 1, 0, fm 0 4 ||| fm 8 24, 0, 0⟩,
    ⟨"NET_OPT_CFG", 0x400048, 0x1000, 64, 8, 1, 0x8C ||| (0xFF88 <<< 16), fm 0 32, 0, 0⟩,
    ⟨"NET_OPT_STATUS", 0x400050, 0x1000, 64, 8, 1, 0x8000_8000, 0, 0, 0⟩,
    ⟨"port counters", 0x400100, 0x1000, 64, 8, 11, 0, 0, 0, 0⟩,
    ⟨"virtual-channel counters", 0x400200, 0x1000, 64, 8, 32, 0, 0, 0, 0⟩,
    ⟨"NET_OXT_CFG", 0x440000, 8, 1, 8, 1, 0xCA9E ||| (0x0FA0 <<< 16) ||| (7 <<< 32), fm 0 36, 0, 0⟩,
    ⟨"NET_XG_BASE", 0x440008, 8, 1, 8, 1, 0, fm 0 52, 0, 0⟩,
    ⟨"NET_XG_COMMIT", 0x440010, 8, 1, 8, 1, 0, fm 0 8 ||| fm 32 32, 0, fm 8 1⟩,
    ⟨"NET_IP_PREFIX_HI", 0x440018, 8, 1, 8, 1, 0, fm 0 64, 0, 0⟩,
    ⟨"NET_IP_PREFIX_LO", 0x440020, 8, 1, 8, 1, 0, fm 0 32, 0, 0⟩,
    ⟨"NET_NODE", 0x440028, 8, 1, 8, 1, 0xFFFF, fm 0 16, 0, 0⟩,
    ⟨"NET_MGMT_V4", 0x440030, 8, 1, 8, 1, 0, fm 0 32, 0, 0⟩,
    ⟨"exchange-group counters", 0x450000, 0x80, 256, 8, 7, 0, 0, 0, 0⟩ ]

/-- SRE (R57, R65, R66, R77, R84, R408). -/
def rowsSre : List RegRow :=
  [ ⟨"SRE_BT_BASE", 0x600000, 0x10000, 4, 8, 1, 0, fm 0 52, 0, 0⟩,
    ⟨"SRE_LIVE_CLR", 0x600008, 0x10000, 4, 8, 1, 0, 0, 0, fm 0 64⟩,
    ⟨"SRE_EPT_BASE_p", 0x600100, 0x10000, 4, 0x10, 64, 0, fm 0 52, 0, 0⟩,
    ⟨"SRE_EPT_COMMIT_p", 0x600108, 0x10000, 4, 0x10, 64, 0, fm 0 32, 0, fm 36 1⟩,
    ⟨"SRE_PART_BASE_p", 0x600600, 0x10000, 4, 8, 64, 0, fm 0 52, 0, 0⟩,
    ⟨"SRE_STEP_p word 0", 0x600800, 0x10000, 4, 0x40, 64, 0, fm 0 33, 0, 0⟩,
    ⟨"SRE_STEP_p word 1", 0x600808, 0x10000, 4, 0x40, 64, 0, fm 0 17 ||| fm 32 32, 0, 0⟩,
    ⟨"SRE_STEP_p word 2", 0x600810, 0x10000, 4, 0x40, 64, 2, fm 0 40, 0, 0⟩,
    ⟨"join and request counters", 0x601800, 0x10000, 4, 8, 128, 0, 0, 0, 0⟩,
    ⟨"SRE_EPT_REC_p", 0x602000, 0x10000, 4, 8, 128, 0, 0, 0, 0⟩,
    ⟨"route context word 0", 0x604000, 0x10000, 4, 0x40, 256, (1 <<< 12) ||| (1 <<< 24), fm 0 52, 0, 0⟩,
    ⟨"route context word 1", 0x604008, 0x10000, 4, 0x40, 256, 1, fm 0 44 ||| fm 48 8, 0, 0⟩,
    ⟨"route context word 2", 0x604010, 0x10000, 4, 0x40, 256, 0x3F80_0000, fm 0 52, 0, 0⟩,
    ⟨"route counters", 0x608000, 0x10000, 4, 8, 2048, 0, 0, 0, 0⟩ ]

/-- CMP (R211, R235, R247, R408). -/
def rowsCmp : List RegRow :=
  [ ⟨"core counters", 0x802000, 0x8000, 32, 8, 512, 0, 0, 0, 0⟩,
    ⟨"Sheller counters", 0x803000, 0x8000, 32, 8, 16, 0, 0, 0, 0⟩,
    ⟨"Hummock counters", 0x803080, 0x8000, 32, 8, 3, 0, 0, 0, 0⟩,
    ⟨"sparse-unit counters", 0x804000, 0x8000, 32, 8, 256, 0, 0, 0, 0⟩,
    ⟨"vector counters", 0x805000, 0x8000, 32, 8, 256, 0, 0, 0, 0⟩ ]

/-- PART (R44, R162, R202, R219, R234, R267, R268, R312, R313, R408). -/
def rowsPart : List RegRow :=
  [ ⟨"PART_MAP_CG", 0xC00000, 0x4000, 64, 8, 1, 0, fm 0 64, 0, 0⟩,
    ⟨"PART_MAP_COMMIT", 0xC00008, 0x4000, 64, 8, 1, 0, fm 0 32, 0, fm 35 1⟩,
    ⟨"PART_JOB", 0xC00010, 0x4000, 64, 8, 1, 0x3E8 <<< 48, fm 34 1 ||| fm 48 16, fm 36 1, fm 35 1⟩,
    ⟨"PART_JOB_START", 0xC00018, 0x4000, 64, 8, 1, 0, 0, 0, fm 0 64⟩,
    ⟨"PART_JOB_START_GEN", 0xC00020, 0x4000, 64, 8, 1, 0, fm 0 32, 0, 0⟩,
    ⟨"PART_CTX_CTRL", 0xC00028, 0x4000, 64, 8, 1, 0, fm 0 4, 0, 0⟩,
    ⟨"PART_SERVE_CFG", 0xC00030, 0x4000, 64, 8, 1, (8 <<< 8) ||| (0x40 <<< 12), fm 0 2 ||| fm 4 20 ||| fm 32 32, 0, 0⟩,
    ⟨"PART_EXEC_MODE", 0xC00100, 0x4000, 64, 8, 1, 4, fm 0 3 ||| fm 16 24, 0, 0⟩,
    ⟨"PART_NUM_FLAGS", 0xC00108, 0x4000, 64, 8, 1, 0, 0, fm 0 6, 0⟩,
    ⟨"PART_BUCKET_BASE", 0xC00110, 0x4000, 64, 8, 1, 0, fm 0 52, 0, 0⟩,
    ⟨"PART_RPLAN_BASE", 0xC00118, 0x4000, 64, 8, 1, 0, fm 0 52, 0, 0⟩,
    ⟨"PART_SPARSE_CFG", 0xC00120, 0x4000, 64, 8, 1, 0x80, fm 0 9, 0, 0⟩,
    ⟨"PART_SHELL_BASE", 0xC00128, 0x4000, 64, 8, 1, 0, fm 0 52, 0, 0⟩,
    ⟨"PART_POOL_CFG", 0xC00130, 0x4000, 64, 8, 1, 0, fm 0 4, 0, 0⟩,
    ⟨"PART_POOL_STACK_BASE", 0xC00138, 0x4000, 64, 8, 1, 0, fm 0 52, 0, 0⟩,
    ⟨"PART_POOL_BASE_c", 0xC00200, 0x4000, 64, 0x20, 12, 0, fm 0 52, 0, 0⟩,
    ⟨"PART_POOL_COUNT_c", 0xC00208, 0x4000, 64, 0x20, 12, 0, fm 0 33, 0, 0⟩,
    ⟨"PART_POOL_STATE_c", 0xC00210, 0x4000, 64, 0x20, 12, 0, 0, 0, fm 63 1⟩,
    ⟨"PART_POOL_OUT_c", 0xC00218, 0x4000, 64, 0x20, 12, 0, 0, 0, 0⟩,
    ⟨"pool counters", 0xC00400, 0x4000, 64, 8, 50, 0, 0, 0, 0⟩,
    ⟨"PART_MEM_i BASE", 0xC00600, 0x4000, 64, 0x10, 16, 0, fm 0 52, 0, 0⟩,
    ⟨"PART_MEM_i LEN", 0xC00608, 0x4000, 64, 0x10, 16, 0, fm 0 32, 0, 0⟩,
    ⟨"partition counters", 0xC00900, 0x4000, 64, 8, 8, 0, 0, 0, 0⟩,
    ⟨"PART_STEP_OVERRUN", 0xC00940, 0x4000, 64, 8, 1, 0, 0, 0, 0⟩,
    ⟨"PART_CTX_c word 0", 0xC00A00, 0x4000, 64, 0x20, 16, 0, fm 0 54, 0, fm 61 3⟩,
    ⟨"PART_CTX_c word 1", 0xC00A08, 0x4000, 64, 0x20, 16, 0, fm 0 52, 0, 0⟩,
    ⟨"PART_CTX_c word 2", 0xC00A10, 0x4000, 64, 0x20, 16, 0x3E8, fm 0 16, 0, 0⟩ ]

/-- The block of an offset picks its rows (R401). -/
def rowsAt (off : Nat) : List RegRow :=
  match off / 0x100000 with
  | 0 =>
    match off / 0x20000 with
    | 0 => rowsOwn
    | 1 => rowsOwn
    | 2 => rowsPwr
    | 3 => rowsFtb
    | 4 => rowsErr
    | _ => []
  | 1 => rowsHif
  | 2 => rowsMem
  | 3 => rowsFab
  | 4 => rowsNet
  | 5 => rowsNet
  | 6 => rowsSre
  | 8 => rowsCmp
  | 12 => rowsPart
  | _ => []

/-- The row covers the 8-byte word at an offset. -/
def RegRow.covers (r : RegRow) (off : Nat) : Bool :=
  r.base ≤ off && (off - r.base) / r.s1 < r.n1 &&
    (off - r.base) % r.s1 / r.s2 < r.n2 && (off - r.base) % r.s1 % r.s2 == 0

/-- The row of the 8-byte word at an offset, where a register occupies it. -/
def regRow (off : Nat) : Option RegRow := (rowsAt off).find? (·.covers off)

/-- The reset value of the word at an offset; 0 where no register lies (R401, R409). -/
def resetWord (off : Nat) : Word :=
  match regRow off with
  | some r => BitVec.ofNat 64 r.reset
  | none => 0

end Sys2Proof.Machine
end

