-- ==== Sys2Proof/Machine/State.lean ====
section
/-!
DEFINITION. The state of the MQN-9400 as plain data, the fault and refusal reasons, and State.reset. The set-up registers, table
entries and counters of BAR0 (R401, R407) are one sparse register file keyed by byte offset; device memory (R248) is one sparse
byte list; everything the spec gives the module besides (threads, pips, queues, pools, launches, rings, grants, records …) has a
named field. A sparse table lists keys in rising order and no entry equal to what an unlisted key reads as.
-/

namespace Sys2Proof.Machine

/-- A sparse table: keys strictly rising; an unlisted key reads as the default its accessor names. -/
abbrev Tbl (α : Type) := List (Nat × α)

/-- Why the model stops. Raised by a meaning whose operands break Sys2Proof.Instr.wellFormed, that is, which name a
command that no path of the module can carry; safe: the hardware never sees such a command. -/
inductive Fault where
  | illFormed
  deriving DecidableEq, Repr

/-- Why the model gives no meaning. -/
inductive Refusal where
  /-- Raised by an arm of Dispatch for a row that has no meaning yet; safe. -/
  | notModelled (mnemonic : String)
  deriving DecidableEq, Repr

/-! ## What leaves the module (R1) -/

/-- An OXT frame this device sends (R104): header and payload; `udpSrc` is the UDP source port where a rule gives it. -/
structure Oxt where
  ver2 : Bool := false
  typ : Nat
  dst : Nat
  xgroup : Nat := 0
  jobGen : Nat
  part : Nat
  round : Nat := 0
  window : Nat := 0
  psn : Nat := 0
  offset : Nat := 0
  flags : Nat := 0
  udpSrc : Option Nat := none
  payload : List Byte
  deriving DecidableEq, Repr

/-- Where a management reply goes (R127): over IPv4 or IPv6, to the sender's address and UDP port. -/
structure ReplyTo where
  v4 : Bool
  addr : Nat
  udp : Nat
  deriving DecidableEq, Repr

/-- A frame a port sends, by class. -/
inductive Msg where
  | oxt (x : Oxt)
  /-- A reply on the management channel (R399): its OXT header (TYPE MGMT), the sequence number it answers, a value. -/
  | mgmt (peer : ReplyTo) (hdr : List Byte) (seq : Nat) (val : Word)
  | pfc (vc : Nat) (xoff : Bool)
  /-- A Neighbor Advertisement for `addr`, to the node that solicited it. -/
  | neighborAdv (peer addr : BitVec 128)
  | arpReply (addr : BitVec 32)
  /-- A PTP answer (R140): 0 Delay_Resp, 1 Pdelay_Resp, 2 Pdelay_Resp_Follow_Up; its domain, its transport, the FT of its timestamp in
  2^-16 ns. -/
  | ptp (kind domain : Nat) (udp : Bool) (ft : Nat)
  | mka (newSa : Bool)
  /-- A RoCEv2 packet: IP address of the peer, queue pair, kind (0 SEND, 1 SEND_IMM, 2 WRITE, 3 WRITE_IMM, 4 READ, 5 ACK, 6 NAK, 7 RNR NAK,
  8 CNP, 9 READ response), the ends of its message it holds (bit 0 first, bit 1 last), PSN, then extension headers and data. -/
  | roce (ip qpn kind ends psn : Nat) (payload : List Byte)
  deriving DecidableEq, Repr

/-- The IP and UDP headers of a frame that leaves (R124): addresses, hop limit, DSCP, and the UDP ports where it is UDP (no source port where no
rule gives it). -/
structure IpHdr where
  v4 : Bool := false
  src : Nat
  dst : Nat
  hop : Nat := 64
  dscp : Nat
  udp : Option (Option Nat × Nat) := none
  deriving DecidableEq, Repr

/-- The headers of a frame that leaves (R104, R123, R124, R139): MAC addresses; VID and PCP of its 802.1Q tag; association and packet number
of its SecTAG, whose SCI is that of the port's MAC; the IP header; and the bytes of its OXT header in network order. -/
structure TxHdr where
  dstMac : Nat
  srcMac : Nat
  vlan : Option (Nat × Nat) := none
  sec : Option (Nat × Nat) := none
  ip : Option IpHdr := none
  oxt : List Byte := []
  deriving DecidableEq, Repr

/-- What the module does at a connector, in order. -/
inductive Emit where
  | frame (port : Nat) (hdr : TxHdr) (m : Msg)
  | msix (pf : Bool) (fn vec : Nat)
  | ibi (b : Nat)
  /-- A management-channel notice: 0 owner change (R336), 1 error record (R379). -/
  | notice (what whom : Nat)
  | spdm (path kind : Nat) (busy : Bool)
  /-- What the measurement report of R396 says: the running firmware's digest and slot, STATE, SVN_FUSED, LC_LEFT, GLB_ID and the core
  enables; the digests of indexes 1 and 2 never change. -/
  | measured (fw : BitVec 384) (slotB : Bool) (lc svn left : Nat) (id : Word) (cores : List Word)
  | hostWrite (addr : Nat) (data : List Byte)
  | regData (path : Path) (val : Word)
  | i3c (data : List Byte)
  | ppsOut (ft : Nat)
  | sagPin (low : Bool)
  deriving DecidableEq, Repr

/-! ## Threads, pips, vector buffers (R166–R175, R236) -/

/-- STATE of a thread context (R166). -/
inductive ThreadState where
  | free
  | ready
  | waiting
  | faulted
  deriving DecidableEq, Repr

/-- What a WAITING thread waits for (R168); `met` once the condition has come, until THREAD_WAKE. -/
inductive Wait where
  | none
  | met
  /-- Header wait on a pip (R172 step 1). -/
  | header (pip : Nat)
  | pip (pip count rpred : Nat) (deadline : Option Nat)
  | cred (q count rpred : Nat)
  /-- A Q_PUSH behind a submit item that has not landed (R86). -/
  | submitItem (q : Nat)
  /-- A fabric response for request `id` (R277). -/
  | fab (id : Nat)
  /-- Room for a fabric request (R277). -/
  | fabRoom
  | combine (rctx tag g : Nat)
  /-- A seventeenth asynchronous command (R169). -/
  | asyncRoom
  /-- HALT, until the outstanding commands complete (R175). -/
  | drain (status : Nat)
  /-- HALT, until the ring's holding buffer has room (R332). -/
  | cqRoom (status : Nat)
  /-- A synchronous command with LEAVE, until its grant (R172). -/
  | grant
  /-- A tier-3 GiB that the life-cycle wipe has not reached (R258). -/
  | t3 (gib : Nat)
  deriving DecidableEq, Repr

/-- Where an outstanding asynchronous command stands. -/
inductive AsyncPhase where
  | waitGrant
  /-- Behind earlier commands to the same engine (R169, R197, R225, R232, R238). -/
  | queued
  | running
  | done
  /-- Stopped by an error of its operands (R298), or by a context switch (R209): it goes on when its context does. -/
  | stopped
  deriving DecidableEq, Repr

/-- What a command read as it issued and has not used yet (R161, R176, R202, R219): its thread's registers, PART_SPARSE_CFG, and the 64
bytes at each address from which it takes an MDESC or a bucket entry. -/
structure Issued where
  g : Tbl Word
  numCtrl : Word
  numSeed : Word
  thresh : Nat
  items : List (Nat × Nat)
  deriving DecidableEq, Repr

/-- Where a command stands in its work list (R205, R206): the item it computes, the item it has claimed ahead, NITEMS as it read it, the items
it has completed, and which A half of its staging region it uses. -/
structure ListPlace where
  item : Nat
  ahead : Option Nat := none
  nitems : Nat
  done : Nat := 0
  half : Nat := 0
  deriving DecidableEq, Repr

/-- The tile cursor of a matrix command (R209): the output block (panel column and row of blocks), the tile in it, the committed
accumulators of that block row by row (none before its first tile), and its place in a work list; `fin` says that every tile is done. -/
structure Cursor where
  nb : Nat := 0
  mb : Nat := 0
  kt : Nat := 0
  acc : Option (List (List (BitVec 32))) := none
  list : Option ListPlace := none
  fin : Bool := false
  deriving DecidableEq, Repr

/-- An outstanding asynchronous command (R169): its word, its phase and the flags it will OR into its thread as it completes (R161); for one
that has not started, its place among those that wait for its engine, whether it takes a grant, and what it read as it issued; for a matrix
command that has stopped, its tile cursor (R209). -/
structure AsyncCmd where
  w : Cmd
  phase : AsyncPhase
  flags : BitVec 6 := 0
  seq : Nat := 0
  grant : Bool := false
  held : Option Issued := none
  cur : Option Cursor := none
  deriving DecidableEq, Repr

/-- The ring entry that started a thread (R326): ring, the entry's number, TAG, FLAGS bit 1, SRC. -/
structure LaunchRef where
  ring : Nat
  idx : Nat := 0
  tag : Nat
  noCqe : Bool
  src : Nat
  deriving DecidableEq, Repr

/-- A thread context (R166). -/
structure Thread where
  st : ThreadState := .free
  /-- g0–g31; an unlisted register reads 0. -/
  g : Tbl Word := []
  /-- p0–p7; bit 0 is never read, since p0 reads 1. -/
  p : BitVec 8 := 0
  cp : BitVec 52 := 0
  prio : BitVec 4 := 0
  flags : BitVec 6 := 0
  numCtrl : Word := 0
  numSeed : Word := 0
  faultCause : BitVec 8 := 0
  wait : Wait := .none
  /-- The header of the command being issued again has done its wait (R172). -/
  hdrDone : Bool := false
  /-- The command that waits, while the thread is WAITING, and the module clock at which it began to wait. -/
  cur : Option Cmd := Option.none
  since : Nat := 0
  asyncs : Tbl AsyncCmd := []
  /-- Commands fetched ahead (R170), the one at CP first. -/
  fetched : List Cmd := []
  ref : Option LaunchRef := Option.none
  deriving DecidableEq, Repr

/-- A vector tile buffer with its tag (R236); `fmt` 0 FP32, 1 BF16, 2 INT32; elements row by row. -/
structure VBuf where
  fmt : Nat := 0
  rows : Nat := 0
  cols : Nat := 0
  data : List (BitVec 32) := []
  deriving DecidableEq, Repr

/-! ## Hardware queues (R178–R185) -/

/-- A slot's item with its side bits (R179). -/
structure QItem where
  data : Item
  last : Bool
  gap : Bool
  /-- Pushed by ROUTE_SUBMIT (R56). -/
  sub : Bool := false
  /-- The module clock at its arrival, for the arbiters that serve by arrival (R189). -/
  at_ : Nat := 0
  deriving DecidableEq, Repr

/-- A hardware queue: its items from the head, the slot number of the head, the credits reserved, whether a Q_DROPPKT still
discards arrivals, the threads waiting for credits in arrival order (thread key, count, result predicate), the time the stale
timeout counts from, whether that timeout has fired, and whether a QUEUE_KICK gives it precedence (R40). -/
structure Queue where
  items : List QItem := []
  head : Nat := 0
  reserved : Nat := 0
  dropping : Bool := false
  waiters : List (Nat × Nat × Nat) := []
  since : Nat := 0
  staleFired : Bool := false
  kicked : Bool := false
  /-- Submit items that wait for room (R86): issuing thread key, async slot, item. -/
  submits : List (Nat × Nat × Item) := []
  deriving DecidableEq, Repr

/-! ## Partitions, contexts, steps, serving (R41–R46, R80–R84, R289–R311) -/

/-- A committed partition map (R289). -/
structure PartMap where
  cg : Word := 0
  ranges : List (Nat × Nat) := []
  training : Bool := false
  deriving DecidableEq, Repr

/-- The stages of a context switch (R296). -/
inductive SwitchPhase where
  | none
  | saving
  | restoring
  deriving DecidableEq, Repr

/-- The stages of a teardown (R301). -/
inductive TdPhase where
  | none
  | drain
  | wipe
  deriving DecidableEq, Repr

/-- What the step controller keeps for one batch-table entry besides the entry itself (R81–R83, R309). -/
structure SeqAux where
  reason : Nat := 0
  take : Nat := 0
  cancel : Bool := false
  stall : Nat := 0
  sampled : Bool := false
  /-- Its final item has been written to OUT_Q (R82). -/
  final : Bool := false
  deriving DecidableEq, Repr

/-- A request message being received (R305). -/
structure ReqMsg where
  src : Nat
  msg : Nat
  buf : Nat
  header : Item
  placed : List Nat := []
  /-- PSN of the frame with LAST. -/
  last : Option Nat := Option.none
  deriving DecidableEq, Repr

/-- A TOKEN_OUT record waiting for its frame (R307). -/
structure TokRec where
  node : Nat
  bytes : List Byte
  deriving DecidableEq, Repr

/-- A TOKEN_OUT frame not yet acknowledged (R307). -/
structure TokFrame where
  node : Nat
  window : Nat
  psn : Nat
  offset : Nat
  records : Nat
  payload : List Byte
  tries : Nat
  sentAt : Nat
  deriving DecidableEq, Repr

/-- The scratch a context saved (R293, R296): the bytes that are not 0, by device address, with the granules that were poisoned or held an
error not yet found. -/
structure SavedScratch where
  bytes : List Host.Cell := []
  poison : List Nat := []
  ue : List Nat := []
  deriving DecidableEq, Repr

/-- What a partition keeps besides its PART registers. -/
structure Part where
  map : PartMap := {}
  mapNext : Option PartMap := Option.none
  /-- The context that runs, and the one a switch brings in. -/
  running : Option Nat := Option.none
  incoming : Option Nat := Option.none
  switching : SwitchPhase := .none
  /-- What the outgoing context of a switch becomes: 1 READY, 3 SUSPENDED, 4 FAULTED. -/
  outState : Nat := 1
  lastRun : Nat := 15
  sliceStart : Nat := 0
  stepNo : BitVec 48 := 0
  held : Bool := false
  lastBoundary : Nat := 0
  /-- PART_EXEC_MODE as it is in force (R45). -/
  execMode : Word := 0x4
  /-- The eight words of SRE_STEP_p as they are in force (R84). -/
  sreStep : List Word := []
  /-- Bank B is the active snapshot bank (R46). -/
  bankB : Bool := true
  /-- Nodes that the SRE's copy of the liveness bitmap marks DEAD (R73). -/
  dead : List Nat := []
  /-- The EPT generation in use with its image base, and the newest one committed (R23, R26). -/
  eptBase : Nat := 0
  eptStaged : Nat := 0
  eptGen : BitVec 32 := 0
  eptNext : BitVec 32 := 0
  /-- Image base of the commit in its prepare phase, and the dies that have prepared it (R65). -/
  eptPrep : Nat := 0
  eptDone : List Nat := []
  startAt : Option Nat := Option.none
  td : TdPhase := .none
  tdAt : Nat := 0
  arrival : BitVec 32 := 0
  seqs : Tbl SeqAux := []
  reqs : List ReqMsg := []
  recent : List (Nat × Nat) := []
  toks : List TokRec := []
  tokFrames : List TokFrame := []
  /-- Frames and bytes sent to each node in this step. -/
  tokPsn : Tbl (Nat × Nat) := []
  /-- Source nodes whose STALE_GEN was recorded in this step (R300). -/
  staleSrc : List Nat := []
  /-- The scratch in the save area of each context with SAVE_SCRATCH = 1 (R293, R296). -/
  scratch : Tbl SavedScratch := []
  deriving DecidableEq, Repr

/-! ## Sedge routing (R53–R86) -/

/-- A resident EPT layer slot of one Sedge die (R64): the layer it holds, as it was loaded (the bytes that are not 0, by their place in the
layer). A die lists its slots with the least recently used first. -/
structure EptSlot where
  part : Nat
  gen : BitVec 32
  layer : Nat
  data : List Host.Cell := []
  deriving DecidableEq, Repr

/-- One pick of one token after placement (R67–R70); `gap` holds WHY for a missing contribution. -/
structure Pick where
  tok : Nat
  rank : Nat
  expert : Nat
  weight : BitVec 32
  node : Nat := 0xFFFF
  slot : Nat := 0
  dest : Nat := 0x3FFF
  pos : Nat := 0xFFFF
  win : Nat := 0
  gap : Option Nat := Option.none
  deriving DecidableEq, Repr

/-- Where the submit of one route context stands. -/
inductive SubmitPhase where
  | waiting
  | reading
  | built
  | handed
  | failed
  deriving DecidableEq, Repr

/-- A submit of one route context (R53–R56, R86): where it came from, its operands, the MDESCs as they stood at issue, the context's words
as read with its submit item, the logit packets taken, the picks so far. -/
structure Submit where
  rctx : Nat
  tag : Nat
  part : Nat
  layer : Nat
  ntok : Nat
  payload : Item
  out : Item
  thread : Nat
  slot : Nat
  phase : SubmitPhase
  cfg : Item := 0
  taken : Nat := 0
  picks : List Pick := []
  /-- Image base and generation of the EPT it routes by (R23); the layer's CRC failed twice (R64). -/
  eptBase : Nat := 0
  eptGen : BitVec 32 := 0
  eptBad : Bool := false
  /-- Its wait for a layer slot is counted (R64, R77). -/
  waited : Bool := false
  /-- The send records handed to launch, as R69 lays them out, in ascending key order (R68). -/
  send : List (BitVec 128) := []
  deriving DecidableEq, Repr

/-- The outcome of a route tag on a context (R86): 0 complete, 1 with missing contributions, 2 aborted; flags of the combine. -/
structure TagDone where
  rctx : Nat
  tag : Nat
  status : Nat
  flags : BitVec 6
  deriving DecidableEq, Repr

/-- A sampling command under way (R78, R86). -/
structure Sample where
  thread : Nat
  slot : Nat
  se : Nat
  part : Nat
  /-- The logit MDESC as it stood at issue. -/
  logits : Item
  deriving DecidableEq, Repr

/-! ## Exchange groups, launches, collectives (R88–R119, R204–R231) -/

/-- One generation of a group (R23, R89): its descriptor and the nodes of its members, in rank order. -/
abbrev XgGen := Item × List Nat

/-- An exchange group (R89, R90): the descriptor and members that new windows take, and their generation; the generation last committed; a
further commit that waits while a window still holds an older generation (PENDING, R26); the port masks of the members' last ACKs by
node (R93); the windows whose deadline has not passed, with it. -/
structure Group where
  desc : Item := 0
  members : List Nat := []
  used : BitVec 32 := 0
  gen : BitVec 32 := 0
  /-- STATE of NET_XG_COMMIT for this handle. -/
  state : Nat := 0
  next : Option XgGen := none
  ackMask : Tbl Word := []
  wins : List (Nat × Nat) := []
  deriving DecidableEq, Repr

/-- What a launch carries. -/
inductive LaunchKind where
  | dispatch
  | ret
  | coll
  deriving DecidableEq, Repr

/-- Where a launch stands. -/
inductive LaunchPhase where
  /-- Validated, buffers not yet taken. -/
  | queued
  /-- Buffers held, grant or launch time outstanding. -/
  | allocated
  /-- Launched; waits for its window. -/
  | ready
  | opened
  | closed
  | failed
  deriving DecidableEq, Repr

/-- A share this device receives (R98, R105): source rank, buffer, positions, bytes, the PSNs placed and the port of the last one. -/
structure RxShare where
  src : Nat
  buf : Nat
  npos : Nat
  bytes : Nat
  /-- 0 manifest and payload (dispatch), 1 payload only (return), 2 a collective's data, 3 a barrier, 4 contributions to a reduction. -/
  form : Nat := 0
  /-- The pieces of the buffer (address, bytes) of a share that is not placed in one piece (R108). -/
  pieces : List (Nat × Nat) := []
  /-- Frames that must come, where this device knows them (return shares, collectives). -/
  need : List Nat := []
  placed : List Nat := []
  lastPort : Option Nat := none
  delivered : Bool := false
  discarded : Bool := false
  gathered : Bool := false
  deriving DecidableEq, Repr

/-- A share this device sends (R98, R106): destination rank, frames to send, those sent, acknowledged and in the tail, and for a
collective the payload of each frame. -/
structure TxShare where
  dst : Nat
  typ : Nat := 0
  frames : List Nat
  sent : List Nat := []
  acked : List Nat := []
  /-- Retransmissions of each frame so far. -/
  tries : Tbl Nat := []
  data : List (Nat × List Byte) := []
  /-- A return share: the payload area it is sent from, and its bytes (R103, R204). -/
  addr : Nat := 0
  len : Nat := 0
  stopped : Bool := false
  deriving DecidableEq, Repr

/-- One exchange of a group in one window (R97–R107): `win` of `windows` of its submit (R71, R96). -/
structure Launch where
  h : Nat
  part : Nat
  setId : Nat
  tag : Nat
  kind : LaunchKind
  phase : LaunchPhase
  elastic : Bool := false
  /-- A STREAMED pass of a collective (R115). -/
  stream : Bool := false
  /-- S_max of R94. -/
  smax : Nat := 0
  tokenBytes : Nat := 0
  /-- CAPACITY of the set's context on SE0–SE3, 0 where there is none. -/
  caps : List Nat := []
  win : Nat := 0
  windows : Nat := 1
  /-- WINDOW, its opening FT, its slot length T, its end and its delivery deadline. -/
  window : Nat := 0
  openFt : Nat := 0
  slotNs : Nat := 0
  wEnd : Nat := 0
  deadline : Nat := 0
  /-- Count frame of each source rank: WINDOWS, then COUNT_d and CAP_d of each die (R96). -/
  counts : Tbl (List Nat) := []
  rx : List RxShare := []
  tx : List TxShare := []
  /-- Return buffers: window, destination rank, address (R101). -/
  retBufs : List (Nat × Nat × Nat) := []
  plan : Item := 0
  gather : Item := 0
  wl : Nat := 0
  area : Nat := 0
  /-- The gather (R230): rows of each slot so far, the items opened as (slot, part of the slot), gathered rows as (slot, row, address). -/
  slotRows : Tbl Nat := []
  items : List (Nat × Nat) := []
  rowmap : List (Nat × Nat × Nat) := []
  gatherClosed : Bool := false
  retLaunched : Bool := false
  /-- A window of the group opened while the launch was under way (R97). -/
  missed : Bool := false
  tailAt : Nat := 0
  /-- The delivery deadline has passed. -/
  past : Bool := false
  /-- The generation of the group that the window took as it opened, with its number (R23). -/
  held : Option (XgGen × BitVec 32) := none
  deriving DecidableEq, Repr

/-- A collective under way (R114–R116): its descriptor, its start, the pass that runs (0, or 1 for the all-gather of ALL_REDUCE), the
receive buffers, the frames of this rank's chunks already reduced, reduced elements that go on to another rank (R108), by their number, and
its outcome once it has one. -/
structure Coll where
  h : Nat
  part : Nat
  desc : Item
  startAt : Nat
  pass : Nat := 0
  bufs : List Nat := []
  reduced : List Nat := []
  kept : Tbl Nat := []
  status : Option Nat := none
  deriving DecidableEq, Repr

/-! ## Ports (R120–R143, R397) -/

/-- A frame that waits in a port's transmit queue (R134). -/
structure TxFrame where
  vc : Nat
  len : Nat
  msg : Msg
  deriving DecidableEq, Repr

/-- What a port keeps besides its registers. -/
structure Port where
  stateAt : Nat := 0
  attemptAt : Nat := 0
  /-- LINK_TRAIN_FAIL was raised since the port was enabled or last UP (R130). -/
  failRaised : Bool := false
  txq : List TxFrame := []
  deficit : Tbl Nat := []
  turn : Nat := 0
  /-- VC7 burst left, in tenths of a byte, and when it was last brought up to date (R135). -/
  cap7 : Nat := 184320
  cap7At : Nat := 0
  pausedBy : List Nat := []
  xoff : List Nat := []
  /-- Bytes of each virtual channel in the receive buffer (R137). -/
  rxUsed : Tbl Nat := []
  /-- LOCKING reached its lock (R129: a port with LOOP = 1 stays there). -/
  locked : Bool := false
  /-- Secure associations (R139, R397): receive SAs, the transmit SA, a SAK waiting for the peers, when the old SA goes. -/
  rxSas : List Nat := []
  txSa : Option Nat := Option.none
  newSa : Option Nat := Option.none
  oldSaUntil : Option Nat := Option.none
  /-- The last packet number used by the transmit SA, and the one after the highest that each receive SA has taken. -/
  pn : Nat := 0
  rxPn : Tbl Nat := []
  rekeyAt : Nat := 0
  /-- Live MKA peers: identity, last heard, reports the new SA. -/
  peers : List (Nat × Nat × Bool) := []
  deriving DecidableEq, Repr

/-! ## Pools (R259–R266) -/

/-- A Husk pool as last initialised; `AVAIL`, `GEN`, `OUTSTANDING` and `WATERMARK` lie in its registers. -/
structure Pool where
  base : Nat := 0
  count : Nat := 0
  prefetch : Bool := false
  stack : List Nat := []
  freeHead : Nat := 0
  freeLen : Nat := 0
  deriving DecidableEq, Repr

/-! ## Memory-semantic fabric (R269–R286) -/

/-- A request this device has outstanding (R276): OP 0 LOAD, 1 STORE, 2 ATOMIC, 4 PING; the thread and asynchronous slot it
serves; `port` is none until it is first sent. -/
structure FabReq where
  id : Nat
  part : Nat
  thread : Nat
  slot : Option Nat := none
  op : Nat
  node : Nat
  off : Nat
  size : Nat := 0
  len : Nat := 0
  atomOp : Nat := 0
  data : List Byte := []
  /-- Destination register of a thread's load or atomic. -/
  dstG : Nat := 0
  /-- A request of a move through the rack window, and the window address it serves (R271). -/
  rack : Option Nat := none
  coh : Bool := false
  port : Option Nat := none
  sentAt : Nat := 0
  lastSent : Nat := 0
  tries : Nat := 0
  /-- An INVAL crossed the fill (R281). -/
  crossed : Bool := false
  deriving DecidableEq, Repr

/-- A move through the rack window (R271): its command, the two MDESCs as they stood at issue, the bytes read so far by window address, whether it writes by now, and whether
a request of it failed. -/
structure FabMove where
  thread : Nat
  slot : Nat
  w : Cmd
  a : Item := 0
  b : Item := 0
  staged : Tbl Byte := []
  writing : Bool := false
  failed : Bool := false
  deriving DecidableEq, Repr

/-- A line of the remote line cache (R280). -/
structure RlcLine where
  node : Nat
  line : Nat
  data : List Byte
  lru : Nat
  deriving DecidableEq, Repr

/-- An INVAL that is not acknowledged (R280, R284): the member it goes to, its request ID and line, how often it has gone out again, and when it
went last. -/
structure Inval where
  member : Nat
  id : Nat
  line : Nat
  tries : Nat := 0
  lastSent : Nat
  deriving DecidableEq, Repr

/-- A request at its home (R280, R281), in arrival order: OP as in R276, 5 for a write by a local unit; `waitFor` lists the INVALs it waits
for. A request of this device itself has `port` none. -/
structure HomeOp where
  op : Nat
  src : Nat
  id : Nat
  part : Nat
  port : Option Nat
  len : Nat
  atomOp : Nat := 0
  coh : Bool := false
  off : Nat
  data : List Byte := []
  started : Bool := false
  waitFor : List Inval := []
  sentAt : Nat := 0
  deriving DecidableEq, Repr

/-- A response-cache entry (R284). -/
structure RspEntry where
  src : Nat
  id : Nat
  performedAt : Nat
  status : Nat
  data : List Byte
  deriving DecidableEq, Repr

/-- The memory-fabric units. -/
structure Fab where
  nextId : BitVec 32 := 0
  reqs : List FabReq := []
  moves : List FabMove := []
  lines : List RlcLine := []
  lruClock : Nat := 0
  /-- Home directory: 128-byte line number, sharer mask (R280). -/
  dir : Tbl (BitVec 8) := []
  homeOps : List HomeOp := []
  rsp : List RspEntry := []
  /-- Lease expiry per member, and the issue time of the last PING sent to it (R282). -/
  lease : Tbl Nat := []
  pingAt : Tbl Nat := []
  /-- The committed list of the coherence domain, and a GO that waits (R279). -/
  domain : List Nat := []
  goPending : Bool := false
  deriving DecidableEq, Repr

/-! ## Host interface (R314–R333) -/

/-- A completion (R331) that waits in a ring's holding buffer. -/
structure Cqe where
  tag : Nat
  src : Nat
  status : Nat
  detail : Nat := 0
  result : Nat := 0
  result64 : Nat := 0
  noCqe : Bool := false
  deriving DecidableEq, Repr

/-- A fetched ring entry that has not completed (R324): its number in the order of fetching, its 64 bytes, whether they were poisoned,
started or not. -/
structure RingEntry where
  idx : Nat
  bytes : Item
  bad : Bool := false
  started : Bool := false
  /-- 0 no grant asked, 1 waiting, 2 granted. -/
  grant : Nat := 0
  deriving DecidableEq, Repr

/-- A ring besides its descriptor. -/
structure Ring where
  /-- Entries fetched so far: the number of the next. -/
  seq : Nat := 0
  entries : List RingEntry := []
  hold : List Cqe := []
  unnotified : Nat := 0
  firstAt : Option Nat := Option.none
  deriving DecidableEq, Repr

/-- A posted work request or receive of a queue pair (R329). -/
structure QpWork where
  /-- The ring entry that posted it. -/
  ring : Nat
  idx : Nat
  tag : Nat
  op : Nat
  imm : Nat
  loc : Nat
  len : Nat
  remote : Nat
  rkey : Nat
  tries : Nat := 0
  noCqe : Bool := false
  /-- First PSN, PSNs used, and bytes of a READ that have come. -/
  psn : Nat := 0
  pkts : Nat := 0
  got : Nat := 0
  deriving DecidableEq, Repr

/-- A RoCEv2 queue pair (R141, R329). -/
structure Qp where
  part : Nat
  ring : Nat
  remoteQpn : Nat
  vc : Nat
  retry : Nat
  pmtu : Nat
  remoteIp : Nat
  /-- PSN of the next packet sent, and of the next one expected. -/
  psn : Nat
  ePsn : Nat
  portMask : Nat
  /-- Bytes of the message coming in so far, and where its next byte goes (a WRITE). -/
  rxLen : Nat := 0
  rxAt : Nat := 0
  rxEnd : Nat := 0
  sends : List QpWork := []
  recvs : List QpWork := []
  lastCnp : Option Nat := Option.none
  /-- The rate at which it may send, in 65,536ths of the port's (R141). -/
  rate : Nat := 65536
  deriving DecidableEq, Repr

/-- A memory region (R329). -/
structure Mr where
  part : Nat
  rd : Bool
  wr : Bool
  keyTag : Nat
  base : Nat
  len : Nat
  deriving DecidableEq, Repr

/-- The host interface. -/
structure HostIf where
  rings : Tbl Ring := []
  qps : Tbl Qp := []
  mrs : Tbl Mr := []
  /-- NumVFs with VF Enable set; 0 when clear (R315, log entry 33). -/
  numVfs : Nat := 64
  masked : List (Bool × Nat × Nat) := []
  msixPending : List (Bool × Nat × Nat) := []
  /-- DOORBELL frames already applied: source, window, PSN (R323). -/
  dbSeen : List (Nat × Nat × Nat) := []
  deriving DecidableEq, Repr

/-! ## Ownership, management, keys (R335–R342, R389–R399) -/

/-- A candidate's latest claim (R335). -/
structure Claim where
  prio : Nat
  nonce : Nat
  writtenAt : Nat
  standing : Bool
  deriving DecidableEq, Repr

/-- Ownership besides the OWN registers. -/
structure Own where
  claims : Tbl Claim := []
  nonce : Nat := 0
  settleAt : Option Nat := Option.none
  hbAt : Nat := 0
  /-- OWN_HB_TIMEOUT in force, in ms (R340). -/
  hbMs : Nat := 2000
  deriving DecidableEq, Repr

/-- What MG0 keeps in flash and fuses (R387–R398, R419), with the identity of the unit (R3–R6). -/
structure Nv where
  gradeH : Bool := false
  /-- Enabled cores of compute die n, where a bit is 0 (R6). -/
  coreEn : Tbl Word := []
  macBase : BitVec 48 := 0
  lcState : Nat := 2
  lcLeft : Nat := 64
  svnFused : Nat := 0
  /-- A transition recorded for the next cold reset (R392). -/
  lcPending : Option Nat := Option.none
  /-- Every fuse of the unique device secret is blown (R393), and the owner root key hashes are fused (R392). -/
  udsBlown : Bool := false
  ownerKeysFused : Bool := true
  activeSlotB : Bool := false
  /-- Digest and SVN of the images in slot A and slot B. -/
  slotA : BitVec 384 × Nat := (0, 0)
  slotB : BitVec 384 × Nat := (0, 0)
  /-- Configuration copies A, B, C: CRC good, contents (R380). -/
  cfg : List (Bool × Nat) := [(true, 0), (true, 0), (true, 0)]
  caks : Tbl (BitVec 256) := [(0, 0)]
  mgmtKeys : Tbl (BitVec 256) := []
  /-- Last sequence number accepted under each key (R399). -/
  lastSeq : Tbl Word := []
  /-- The life-cycle state whose key seals the key store in flash; none where the store is erased (R393, R395). -/
  sealedIn : Option Nat := some 2
  opHours : BitVec 32 := 0
  /-- Next tier-3 chunk the interrupted wipe must resume from (R393). -/
  wipeMark : Option Nat := Option.none
  /-- The fatal log, newest first: eight words a record (R383). -/
  fatalLog : List (List Word) := []
  deriving DecidableEq, Repr

/-! ## Power, thermal, ageing (R344–R368) -/

/-- Who asks for or holds watts (R345). -/
inductive Holder where
  | cmd (thread slot : Nat)
  /-- A synchronous command with LEAVE. -/
  | sync (thread : Nat)
  /-- A window of group `h`: route tag, and 65536 × (1 for a return) + window of the submit. -/
  | window (h tag n : Nat)
  | ringCopy (ring idx : Nat)
  | wake (core : Nat)
  | reservation (p : Nat)
  deriving DecidableEq, Repr

/-- A power request or grant (R345–R353). -/
structure Grant where
  who : Holder
  mw : Nat
  prio : Nat
  part : Nat
  die : Option Nat := Option.none
  /-- The clock at which it was asked for (R368). -/
  askedAt : Nat := 0
  paused : Bool := false
  /-- The clock at which it was paused (R209, R211). -/
  pausedAt : Nat := 0
  /-- Paused for the temperature of its die (R359). -/
  hot : Bool := false
  /-- End of a reservation (R350). -/
  until_ : Nat := 0
  deriving DecidableEq, Repr

/-- The power grant unit and the monitors. -/
structure Power where
  waiting : List Grant := []
  held : List Grant := []
  /-- GR in mW at each change of the last 20 µs, newest first: time, value (R347). -/
  hist : List (Nat × Nat) := []
  /-- A peak of input power lasts: PWR_PEAK has acted and the input has not come back below 6,600 W (R352). -/
  peak : Bool := false
  /-- Input sense failed: SAG_WARN held until reset (R358). -/
  senseFail : Bool := false
  /-- Per die: the time from which it counts at or above THROTTLE_C (R359). -/
  hotSince : Tbl Nat := []
  /-- Per die: the time from which it counts at or below THROTTLE_C − 3 °C, and the time from which it counts below THROTTLE_C. -/
  coolSince : Tbl Nat := []
  belowSince : Tbl Nat := []
  /-- Dies whose latest samples read 110 °C or more, once for each sample in a row, up to two (R360). -/
  tripSeen : List Nat := []
  noSensor : List Nat := []
  /-- Neighbours beyond a limit of R361, those whose hotter die (the first) counts as throttled, and those whose rails or clocks were beyond a
  limit at the last check. -/
  pairs : List (Nat × Nat) := []
  hotPairs : List (Nat × Nat) := []
  vPairs : List (Nat × Nat) := []
  /-- Monitors: key die × 64 + monitor, run of 0 % or 100 % reports, last slack (R362). -/
  monitors : Tbl (Nat × Nat) := []
  planWanted : List Nat := []
  awake : List Nat := []
  /-- The microsecond of the latest core wake, and the wakes in it (R354). -/
  wakes : Nat × Nat := (0, 0)
  railLatched : Bool := false
  deriving DecidableEq, Repr

/-! ## Errors (R369–R383) -/

/-- A report on its way to MG0 (R375). -/
structure Report where
  code : Nat
  sev : Nat
  die : Nat
  unit : Nat
  part : Option Nat
  addr : Nat
  detail : Nat
  ft : Nat
  deriving DecidableEq, Repr

/-- An open record (R376). -/
structure OpenRec where
  rep : Report
  count : Nat
  ftLast : Nat
  deriving DecidableEq, Repr

/-- MG0's error aggregation. -/
structure Err where
  inflight : List Report := []
  recs : List OpenRec := []
  seq : Nat := 0
  slot0Free : Bool := false
  lastIrq : Option Nat := Option.none
  irqDue : Bool := false
  /-- The fatal log gained a record since the last reset. -/
  fatalNew : Bool := false
  deriving DecidableEq, Repr

/-! ## Module, memory, time -/

/-- Where the module stands between power-off and READY (R344, R384–R388). -/
inductive Phase where
  | off
  | held
  | boot
  | warm
  | ready
  | diag
  deriving DecidableEq, Repr

/-- Reset, boot, mirrors and attestation. -/
structure Mod where
  phase : Phase := .boot
  /-- Dies that have reported ready to PC0, the tick selected, failed attempts (R48). -/
  readyDies : List Nat := []
  alignAt : Option Nat := Option.none
  alignFails : Nat := 0
  aligned : Bool := false
  latRecorded : Bool := false
  diagSite : Option Nat := Option.none
  /-- A reset asked for: cold or warm, and its CAUSE (R385). -/
  coldReq : Option Nat := Option.none
  warmReq : Bool := false
  mgUp : Bool × Bool := (true, true)
  pcUp : Bool × Bool := (true, true)
  fwDone : Bool := false
  fwTried : Nat := 0
  fwDigest : BitVec 384 := 0
  fwSlotB : Bool := false
  trained : Bool := false
  trainFails : Nat := 0
  planned : Bool := false
  fwBusy : Bool := false
  fwStaged : Option (BitVec 384 × Nat) := Option.none
  i3cAddr : Option Nat := Option.none
  /-- ALIGN reports its latencies 1 µs after this time. -/
  alignedAt : Nat := 0
  deriving DecidableEq, Repr

/-- Memory errors and tier 3 besides the registers (R256–R258, R372, R373). -/
structure MemErr where
  /-- 64-byte granules marked poisoned. -/
  poison : List Nat := []
  /-- 64-byte granules that hold an uncorrectable error not yet found. -/
  ue : List Nat := []
  /-- CXL ports that went down since the cold reset. -/
  cxlFailed : List Nat := []
  /-- INTERLEAVE as the last cold reset took it. -/
  interleave : Bool := true
  /-- GiB each CXL port's expander gives, as the last cold reset decoded it (R256, R257). -/
  caps : List Nat := [0, 0, 0, 0]
  /-- The next GiB of the tier-3 window to wipe while a life-cycle wipe runs (R258, R393). -/
  t3Next : Option Nat := Option.none
  /-- Tier-3 ranges of torn-down jobs that are still to be wiped: base and bytes (R258, R301). -/
  t3Part : List (Nat × Nat) := []
  deriving DecidableEq, Repr

/-- The fabric time base besides its registers (R29–R34). -/
structure Time where
  /-- Nanoseconds of the module clock since the cold reset. The model's own: the time base of every timer. -/
  now : Nat := 0
  /-- The 80-bit fabric time (R29). -/
  ft : BitVec 80 := 0
  running : Bool := false
  /-- FT minus its source, in 2^-16 ns, still to be slewed away (R30), and what the slew has gained beyond a whole 2^-16 ns, in
  millionths of it. -/
  slew : Int := 0
  slewFrac : Nat := 0
  pendingSet : Option Word := Option.none
  ptpUp : Bool := false
  ppsUp : Bool := false
  /-- While the error bound grows (R33): the module clock up to which its growth is counted, the bound in ns when it began to grow, and
  the growth so far in 10^-9 ns. -/
  holdFrom : Option Nat := Option.none
  holdBase : Nat := 0
  grown : Nat := 0
  /-- The FT until which PPS_OUT is high (R415). -/
  ppsHigh : Nat := 0
  /-- Set when the error bound passed its limit (R33). -/
  unlocked : Bool := false
  /-- The latest 10 ns interval of FT in which SET entries fired, and how many fired in it (R37). -/
  fired : Nat × Nat := (0, 0)
  deriving DecidableEq, Repr

/-- The whole module. -/
structure State where
  /-- Commands and events that wait, first in, first out. -/
  pending : List Instr
  /-- BAR0 words that differ from their reset value, by byte offset. -/
  regs : Tbl Word
  /-- Device memory (R248): bytes that differ from 0, by address. -/
  mem : List Host.Cell
  mem2 : MemErr
  time : Time
  mod : Mod
  nv : Nv
  own : Own
  err : Err
  pw : Power
  host : HostIf
  fab : Fab
  /-- Thread contexts, by ((partition × 16 + context) × 2048 + core) × 16 + thread. -/
  threads : Tbl Thread
  /-- The thread context that last issued on each core (R167); 15 where a core is not listed. -/
  turns : Tbl Nat
  /-- Pips, by ((partition × 16 + context) × 2048 + core) × 64 + pip. -/
  pips : Tbl (BitVec 16)
  /-- Vector buffers, by ((partition × 16 + context) × 2048 + core) × 4 + buffer. -/
  vbufs : Tbl VBuf
  queues : Tbl Queue
  parts : Tbl Part
  pools : Tbl Pool
  groups : Tbl Group
  ports : Tbl Port
  /-- Resident EPT slots of each Sedge die. -/
  eptSlots : Tbl (List EptSlot)
  submits : List Submit
  tagsDone : List TagDone
  samples : List Sample
  /-- Routes per placement for REP_MODE LOAD (R67): route context, (node, slot) code, counts of this and the last step. -/
  loads : List (Nat × Nat × Nat × Nat)
  launches : List Launch
  colls : List Coll
  /-- The model's own: how many free values have been drawn. -/
  freeIdx : Nat
  /-- What has left the module, oldest first. -/
  out : List Emit
  deriving DecidableEq, Repr

/-- The module right after the release of a power-on cold reset (R384, R386, R409): every register at its reset value, nothing
wiped memory lists, the boot ROM starting. -/
def State.reset : State :=
  { pending := [], regs := [], mem := [], mem2 := {}, time := {}, mod := {}, nv := {}, own := {}, err := {}, pw := {},
    host := {}, fab := {}, threads := [], turns := [], pips := [], vbufs := [], queues := [], parts := [], pools := [], groups := [],
    ports := [], eptSlots := [], submits := [], tagsDone := [], samples := [], loads := [], launches := [], colls := [],
    freeIdx := 0, out := [] }

end Sys2Proof.Machine
end

