-- ==== Sys2Proof/Machine/Oxt.lean ====
section
/-!
DEFINITION. Byte order (R8), and the OXT header as it lies in a frame, in network byte order (R104, R108).
-/

namespace Sys2Proof.Machine

/-- The little-endian value of some bytes (R8). -/
def leNat : List Byte → Nat
  | [] => 0
  | b :: bs => b.toNat + 256 * leNat bs

/-- The big-endian value of some bytes (R8). -/
def beNat (bs : List Byte) : Nat := leNat bs.reverse

/-- The `n` little-endian bytes of a value (R8). -/
def natBytes (n v : Nat) : List Byte := (List.range n).map (fun i => BitVec.ofNat 8 (v >>> (8 * i)))

/-- The `n` big-endian bytes of a value (R8). -/
def beBytes (n v : Nat) : List Byte := (natBytes n v).reverse

/-- The value of `n` bytes in network order, from byte `at_` on. -/
def netField (bs : List Byte) (at_ n : Nat) : Nat := beNat ((bs.drop at_).take n)

/-- Header bytes of an OXT frame: 24 in version 2, 32 in version 3 (R104, R108). -/
def oxtHdrLen (ver2 : Bool) : Nat := if ver2 then 24 else 32

/-- The OXT header of a frame to send (R104, R108), reserved bytes 0. -/
def oxtHeader (ver2 : Bool) (typ flags src dst xgroup jobGen part round window psn offset len : Nat) : List Byte :=
  beBytes 1 ((if ver2 then 0x20 else 0x30) + typ % 16) ++ beBytes 1 flags ++ beBytes 2 src ++ beBytes 2 dst ++ beBytes 2 xgroup ++
    beBytes 4 jobGen ++
    (if ver2 then beBytes 2 window else beBytes 1 (part % 64) ++ [0] ++ beBytes 2 round ++ beBytes 4 window) ++
    beBytes 4 psn ++ beBytes 4 offset ++ beBytes 2 len ++ (if ver2 then [] else [0, 0])

end Sys2Proof.Machine

namespace Sys2Proof

open Machine

/-! ## The header of a frame that came (R104, R108) -/

/-- VER and TYPE. -/
def Frame.ver (f : Frame) : Nat := bitsOf (f.bytes.headD 0).toNat 4 4
def Frame.typ (f : Frame) : Nat := bitsOf (f.bytes.headD 0).toNat 0 4
def Frame.ver2 (f : Frame) : Bool := f.ver == 2
/-- FLAGS: LAST and RETX. -/
def Frame.last (f : Frame) : Bool := bitsOf (netField f.bytes 1 1) 0 1 == 1
def Frame.retx (f : Frame) : Bool := bitsOf (netField f.bytes 1 1) 1 1 == 1
def Frame.srcNode (f : Frame) : BitVec 16 := BitVec.ofNat 16 (netField f.bytes 2 2)
def Frame.dstNode (f : Frame) : BitVec 16 := BitVec.ofNat 16 (netField f.bytes 4 2)
def Frame.xgroup (f : Frame) : BitVec 16 := BitVec.ofNat 16 (netField f.bytes 6 2)
def Frame.jobGen (f : Frame) : BitVec 32 := BitVec.ofNat 32 (netField f.bytes 8 4)
/-- PART and ROUND; a version 2 header has none. -/
def Frame.part (f : Frame) : Fin 64 := if f.ver2 then 0 else Fin.ofNat 64 (netField f.bytes 12 1)
def Frame.round (f : Frame) : BitVec 16 := if f.ver2 then 0 else BitVec.ofNat 16 (netField f.bytes 14 2)
/-- WINDOW; bits [15:0] in version 2. -/
def Frame.window (f : Frame) : BitVec 32 := BitVec.ofNat 32 (if f.ver2 then netField f.bytes 12 2 else netField f.bytes 16 4)
def Frame.psn (f : Frame) : BitVec 32 := BitVec.ofNat 32 (netField f.bytes (if f.ver2 then 14 else 20) 4)
def Frame.offset (f : Frame) : BitVec 32 := BitVec.ofNat 32 (netField f.bytes (if f.ver2 then 18 else 24) 4)
/-- LENGTH, and the payload that follows the header. -/
def Frame.lenField (f : Frame) : Nat := netField f.bytes (if f.ver2 then 22 else 28) 2
def Frame.payload (f : Frame) : List Byte := f.bytes.drop (oxtHdrLen f.ver2)
/-- The priority of its 802.1Q tag. -/
def Frame.pcp (f : Frame) : Fin 8 := f.wire.pcp

/-! ## The envelope of the management channel (R399) -/

/-- Command, key index, sequence number, target node, expiry and body length. -/
def Envelope.cmd (v : Envelope) : Nat := netField v.hdr 0 2
def Envelope.keyIdx (v : Envelope) : BitVec 16 := BitVec.ofNat 16 (netField v.hdr 2 2)
def Envelope.seq (v : Envelope) : BitVec 64 := BitVec.ofNat 64 (netField v.hdr 4 8)
def Envelope.target (v : Envelope) : BitVec 16 := BitVec.ofNat 16 (netField v.hdr 12 2)
def Envelope.expiry (v : Envelope) : BitVec 64 := BitVec.ofNat 64 (netField v.hdr 14 8)
def Envelope.bodyLen (v : Envelope) : Nat := netField v.hdr 22 2
/-- TYPE and SRC_NODE of the OXT header it came under. -/
def Envelope.typ (v : Envelope) : Nat := bitsOf (v.oxt.headD 0).toNat 0 4
def Envelope.srcNode (v : Envelope) : Nat := netField v.oxt 2 2

end Sys2Proof
end

