-- ==== Sys2Proof/WellFormed.lean ====
section
/-!
DEFINITION. Which terms of Instr stand for a command that a path of the module can carry. A term that does not is refused by its meaning
with the fault illFormed (Sys2Proof/Machine/Act.lean).
-/

namespace Sys2Proof

/-- The opcode of a command's word is the row's (R171). -/
def opIs (op : Nat) (w : Cmd) : Bool := bitsOf w.toNat 0 8 == op

/-- The bytes of an OXT frame hold a header of a version that R104 and R108 give, and as many payload bytes as its LENGTH says. -/
def frameOk (f : Frame) : Bool :=
  (f.ver == 2 || f.ver == 3) && f.bytes.length == Machine.oxtHdrLen f.ver2 + f.lenField && Machine.oxtHdrLen f.ver2 ≤ f.bytes.length

/-- An OXT frame of a TYPE; version 2 has only DATA, ACK, SACK and COUNT (R104, R108). -/
def oxtIs (typ : Nat) (f : Frame) : Bool := frameOk f && f.typ == typ && (!f.ver2 || typ ≤ 3)

/-- OP of a FAB_REQ frame (R276). -/
def fabOp (f : Frame) : Nat := (f.payload.getD 0 0).toNat

/-- A FAB_REQ frame of an OP; an OP that no row names comes with the LOAD row, which refuses it (R276). -/
def fabIs (op : Nat) (f : Frame) : Bool := oxtIs 8 f && (if op = 0 then !(1 ≤ fabOp f && fabOp f ≤ 4) else fabOp f == op)

/-- A management envelope of a command (R104, R399): TYPE MGMT under a version 3 header, and a body of at most 3,072 bytes. -/
def envIs (cmd : Nat) (v : Envelope) : Bool :=
  v.oxt.length == 32 && v.hdr.length == 24 && bitsOf (v.oxt.headD 0).toNat 4 4 == 3 && v.typ == 0xA && v.cmd == cmd && v.bodyLen ≤ 3072

/-- Receive power of the eight lanes of a port (R120, R133). -/
def lanesOk (rx : List (BitVec 16)) : Bool := rx.length == 8

/-- The data of a RoCE packet is at most the largest path MTU (R329). -/
def roceOk : RocePkt → Bool
  | .send _ _ _ _ data => data.length ≤ 4096
  | .write _ _ _ _ data => data.length ≤ 4096
  | .readResp _ _ data => data.length ≤ 4096
  | _ => true

/-- What a fetch of four entries reads from the host (R324). -/
def fetchOk (hostBytes : List Byte) : Bool := hostBytes.length == 256

/-- Entries of FTB_ALIGN_STATUS (R408). -/
def crossingsOk (l : List (Fin 100 × Fin 100 × BitVec 16)) : Bool := l.length ≤ 512

/-- The measurements of a planner pass over one die: the first at its start (R364). -/
def slacksOk (l : List (BitVec 6)) : Bool := l.length != 0 && l.length ≤ 64

/-- A term stands for a command. -/
def Instr.wellFormed : Instr → Bool
  | .mirrorTakeover _ => true
  | .mirrorLost _ => true
  | .dieReadyReport _ => true
  | .alignTick => true
  | .alignLatencyRecord crossings => crossingsOk crossings
  | .alignReadyTimeout => true
  | .ptpEventRx _ _ => true
  | .ppsInEdge _ => true
  | .ftbSourceLost _ => true
  | .ftUnlocked => true
  | .ftbSetTimeWrite _ => true
  | .ftbNowNsRead _ => true
  | .setEntryWrite _ _ _ => true
  | .exchWindowOpen _ => true
  | .stepBoundary _ => true
  | .statLatch _ => true
  | .pguPrepare _ => true
  | .queueKick _ => true
  | .userPip _ => true
  | .stepDecisionPoint _ => true
  | .heldBoundaryTake _ => true
  | .eptStaleReload _ _ => true
  | .routeContextWrite _ _ _ _ => true
  | .sreStepWrite _ _ _ => true
  | .eptCommitGo _ _ => true
  | .eptPrepareDone _ _ => true
  | .eptLayerLoad _ _ _ => true
  | .routeSubmit _ w => opIs 0x60 w
  | .submitItemLand _ => true
  | .sreSubmitItemRead _ _ => true
  | .sreLogitPacket _ _ => true
  | .sendListHandoff _ _ _ => true
  | .combine _ _ _ => true
  | .combineWait _ w => opIs 0x61 w
  | .sampleSubmit _ w => opIs 0x62 w
  | .sampleDone _ => true
  | .scRequestTake _ => true
  | .scCancel _ => true
  | .sreLiveClrWrite _ => true
  | .xgCommitGo _ => true
  | .xgCheckDone _ => true
  | .exchLaunch _ _ _ => true
  | .exchAllocation _ => true
  | .exchLaunchDone _ => true
  | .xgCountRound _ _ => true
  | .xgAllocEnd _ => true
  | .xgRoundStart _ _ => true
  | .xgSlotEnd _ _ => true
  | .xgWindowEnd _ => true
  | .oxtTailRetxTimer _ => true
  | .xgDeliveryDeadline _ => true
  | .oxtDataRx x => oxtIs 0 x.frame
  | .oxtAckRx f => oxtIs 1 f
  | .oxtSackRx f => oxtIs 2 f
  | .oxtCountRx f => oxtIs 3 f
  | .oxtReduceRx f _ => oxtIs 4 f
  | .returnLaunch _ => true
  | .collectiveStart _ => true
  | .collectiveComplete _ => true
  | .collTimeout _ => true
  | .portFrameChoice _ => true
  | .netPortCtrlWrite _ _ => true
  | .portCntClr _ _ => true
  | .laserLoss _ => true
  | .laserRestored _ => true
  | .signalDetected x => lanesOk x.rx
  | .linkTrained _ => true
  | .linkLocked _ => true
  | .linkSecured _ => true
  | .linkAttemptExpiry _ => true
  | .trainingTimeout _ => true
  | .lockingTimeout _ => true
  | .securingTimeout _ => true
  | .linkLos _ rx => lanesOk rx
  | .linkLockLoss _ => true
  | .fecUcwExceeded _ => true
  | .remoteFault _ => true
  | .optMeasure _ _ _ => true
  | .pfcRx _ _ _ => true
  | .pfcXoffRepeat _ _ => true
  | .pfcXon _ _ => true
  | .neighborSolicitRx _ _ => true
  | .arpRx _ _ => true
  | .roceRx _ _ _ _ pkt => roceOk pkt
  | .unclassifiedFrameRx _ _ => true
  | .mkaRx _ _ _ => true
  | .sakRekey _ => true
  | .oldSaExpiry _ => true
  | .mkaPeerTimeout _ _ => true
  | .cmdFetch _ => true
  | .nop _ w => opIs 0x00 w
  | .br _ w => opIs 0x01 w
  | .loop _ w => opIs 0x02 w
  | .waitPip _ w => opIs 0x03 w
  | .waitPipTimeout _ => true
  | .sigPip _ w => opIs 0x04 w
  | .credGet _ w => opIs 0x05 w
  | .credPut _ w => opIs 0x06 w
  | .yield _ w => opIs 0x07 w
  | .halt _ w => opIs 0x08 w
  | .pset _ w => opIs 0x09 w
  | .threadWake _ => true
  | .asyncCommandDone _ _ => true
  | .loadTile _ w => opIs 0x10 w
  | .storeTile _ w => opIs 0x11 w
  | .dma _ w => opIs 0x12 w
  | .fabLd _ w => opIs 0x13 w
  | .fabSt _ w => opIs 0x14 w
  | .fabAtom _ w => opIs 0x15 w
  | .poolAlloc _ w => opIs 0x16 w
  | .poolFree _ w => opIs 0x17 w
  | .qPush _ w => opIs 0x18 w
  | .qPop _ w => opIs 0x19 w
  | .qDroppkt _ w => opIs 0x1A w
  | .qFlush _ w => opIs 0x1B w
  | .qStaleTimeout _ => true
  | .hqDescWrite _ _ _ => true
  | .mm _ w => opIs 0x20 w
  | .conv _ w => opIs 0x21 w
  | .mv _ w => opIs 0x22 w
  | .gmm _ w => opIs 0x23 w
  | .smm _ w => opIs 0x30 w
  | .shell _ w => opIs 0x31 w
  | .merge _ w => opIs 0x32 w
  | .shellerGather _ _ => true
  | .gatherClose _ => true
  | .vld _ w => opIs 0x40 w
  | .vst _ w => opIs 0x41 w
  | .vbin _ w => opIs 0x42 w
  | .vun _ w => opIs 0x43 w
  | .vfma _ w => opIs 0x44 w
  | .vred _ w => opIs 0x45 w
  | .vcvt _ w => opIs 0x46 w
  | .vperm _ w => opIs 0x47 w
  | .vpack _ w => opIs 0x48 w
  | .vunpack _ w => opIs 0x49 w
  | .poolInit _ _ _ => true
  | .poolRefill _ _ => true
  | .cxlLinkDown _ => true
  | .t3WipeChunk => true
  | .tierRecalibration _ _ => true
  | .patrolScrub _ _ => true
  | .fabReqLoad f => fabIs 0 f
  | .fabReqStore f => fabIs 1 f
  | .fabReqAtomic f => fabIs 2 f
  | .fabReqInval f => fabIs 3 f
  | .fabReqPing f => fabIs 4 f
  | .fabRspRx f => oxtIs 9 f
  | .fabRetxTimer _ => true
  | .fabTimeout _ => true
  | .fabPingTimer => true
  | .fabLeaseExpiry _ => true
  | .fabInvalTimeout _ => true
  | .fabRspCacheExpiry => true
  | .fabDomainGo _ => true
  | .fabDomainCommit => true
  | .partMapCommit _ _ => true
  | .ctxSliceEnd _ => true
  | .ctxEarlySwitch _ => true
  | .ctxSwitchSaved _ => true
  | .ctxSwitchRestored _ => true
  | .ctxFault _ _ => true
  | .ctxResume _ _ _ => true
  | .ctxReset _ _ _ => true
  | .ctxStop _ _ _ => true
  | .partTeardown _ _ => true
  | .teardownDrainDone _ => true
  | .teardownDrainTimeout _ => true
  | .teardownWipeDone _ => true
  | .partJobStart _ _ => true
  | .jobStartFire _ => true
  | .oxtRequestRx f => oxtIs 6 f
  | .tokenOutItem _ => true
  | .tokenOutRetxTimer _ _ _ => true
  | .oxtDoorbellRx f => oxtIs 5 f
  | .sqTailDoorbell _ _ _ _ => true
  | .cqHeadDoorbell _ _ _ _ => true
  | .ringDescWrite _ _ _ => true
  | .ringFetch _ hostBytes => fetchOk hostBytes
  | .entryNop _ => true
  | .launch _ => true
  | .copy _ _ => true
  | .qpush _ _ => true
  | .pipsig _ => true
  | .qpCtl _ => true
  | .mrCtl _ => true
  | .rdmaWr _ => true
  | .rdmaRecv _ => true
  | .cqeWrite _ => true
  | .ringIrqHoldoff _ => true
  | .vfFlr _ => true
  | .pfFlr => true
  | .vfEnableClear => true
  | .pcieLinkDown => true
  | .ownClaim _ => true
  | .ownElectionSettle => true
  | .ownClaimExpiry _ => true
  | .ownHeartbeat _ => true
  | .ownLapse => true
  | .ownRelease _ => true
  | .ownHandover _ => true
  | .i3cEntdaa _ => true
  | .i3cWrite _ _ => true
  | .i3cRead _ _ _ => true
  | .getVersion _ => true
  | .getCapabilities _ => true
  | .negotiateAlgorithms _ => true
  | .getDigests _ => true
  | .getCertificate _ => true
  | .challenge _ => true
  | .getMeasurements _ => true
  | .spdmVendorDefined _ => true
  | .mgmtRegWrite v _ _ => envIs 1 v
  | .mgmtRegRead v _ => envIs 2 v
  | .mgmtOwnClaim v _ => envIs 3 v
  | .keyInstall v _ => envIs 4 v
  | .mgmtLcsReq v _ _ => envIs 5 v
  | .mgmtSpdm v _ => envIs 6 v
  | .inputPowerUp _ => true
  | .inputOv _ => true
  | .inputOvRelease _ => true
  | .sagWarn _ => true
  | .sagWarnClear _ => true
  | .sagReset _ => true
  | .sagResetRelease _ => true
  | .pwrSagWrite _ => true
  | .pguGrant => true
  | .pguBaseUpdate _ _ => true
  | .pwrPeak _ => true
  | .pguResume => true
  | .pguReservationExpiry _ => true
  | .coreWake _ => true
  | .railFault _ => true
  | .railLatchClear => true
  | .sensorFault _ => true
  | .coolantLow _ _ => true
  | .coolantLowClear _ _ => true
  | .thermSample _ _ => true
  | .thermStep _ => true
  | .thermTrip _ => true
  | .pwrTripClr _ => true
  | .regionCheck _ _ _ _ _ => true
  | .ageMonitorReport _ _ _ => true
  | .marginPlannerPass _ slacks => slacksOk slacks
  | .planNow _ => true
  | .opHoursTick => true
  | .errorReport => true
  | .errRecordClose => true
  | .erqIrqHoldoffEnd => true
  | .errCtrlErqEn _ => true
  | .errFirstClr _ => true
  | .errDeviceClr _ => true
  | .errErqHeadWrite _ => true
  | .coldReset => true
  | .warmReset => true
  | .lcsResetCold _ => true
  | .lcsResetWarm _ => true
  | .fwImageCheck _ => true
  | .memTraining _ _ => true
  | .bootReady _ => true
  | .fwWrite _ _ => true
  | .fwWriteDone _ => true
  | .fwActivate _ => true
  | .svnCommit _ => true
  | .lcsReq _ _ => true
  | .registerWrite _ _ => true
  | .pcieLinkUp _ _ => true
  | .cxlLinkUp _ _ _ => true
  | .inputPowerLoss _ => true
  | .ppsOutEdge => true
  | .msixVectorUnmask _ _ _ => true
  | .roceRetryTimeout _ => true

end Sys2Proof
end

