-- ==== Sys2Proof/Machine/Act.lean ====
section
/-!
DEFINITION. How a meaning changes the state. A meaning is a program: it looks at the state and makes effects one after another.
Every change of the state is one of the effects of this file, and each effect keeps what it writes in its canonical form, so that a
property every effect keeps holds after every command (Sys2Proof/Laws/Act.lean).
-/

namespace Sys2Proof.Machine

/-- What a sparse table holds under a key; `d` is what an unlisted key reads as. -/
def tget {α : Type} (d : α) : Tbl α → Nat → α
  | [], _ => d
  | (k', v) :: t, k => if k' = k then v else tget d t k

/-- A sparse table with a key's entry replaced; writing `d` removes the entry, so equal tables are equal data. -/
def tput {α : Type} [DecidableEq α] (d : α) : Tbl α → Nat → α → Tbl α
  | [], k, v => if v = d then [] else [(k, v)]
  | (k', v') :: t, k, v =>
    if k < k' then (if v = d then (k', v') :: t else (k, v) :: (k', v') :: t)
    else if k = k' then (if v = d then t else (k, v) :: t)
    else (k', v') :: tput d t k v

/-- A sparse table without the keys that `keep` does not keep. -/
def tkeep {α : Type} (keep : Nat → Bool) (t : Tbl α) : Tbl α := t.filter (fun e => keep e.1)

/-- Put an element before the first one that it may stand before. -/
def insertBy {α : Type} (le : α → α → Bool) (x : α) : List α → List α
  | [] => [x]
  | y :: ys => if le x y then x :: y :: ys else y :: insertBy le x ys

/-- A list in order; elements of one rank keep their order. -/
def sortBy {α : Type} (le : α → α → Bool) (l : List α) : List α := l.foldr (insertBy le) []

/-- The ways a meaning may change the state. The queue of waiting commands is in none of them. -/
inductive Effect where
  /-- A word of BAR0. -/
  | reg (off : Nat) (v : Word)
  /-- Every word of BAR0 that `keep` does not keep takes its reset value. -/
  | regsKeep (keep : Nat → Bool)
  | mem (a : Nat) (b : Byte)
  /-- Every byte of memory that `keep` does not keep reads 0. -/
  | memKeep (keep : Nat → Bool)
  | thread (k : Nat) (v : Thread)
  | threadsKeep (keep : Nat → Bool)
  /-- The thread context that last issued on a core. -/
  | turn (core tc : Nat)
  | pip (k : Nat) (v : BitVec 16)
  | pipsKeep (keep : Nat → Bool)
  | vbuf (k : Nat) (v : VBuf)
  | vbufsKeep (keep : Nat → Bool)
  | queue (k : Nat) (v : Queue)
  | queuesKeep (keep : Nat → Bool)
  | part (k : Nat) (v : Part)
  | partsKeep (keep : Nat → Bool)
  | pool (k : Nat) (v : Pool)
  | poolsKeep (keep : Nat → Bool)
  | group (k : Nat) (v : Group)
  | groupsKeep (keep : Nat → Bool)
  | port (k : Nat) (v : Port)
  | portsKeep (keep : Nat → Bool)
  | eptSlots (k : Nat) (v : List EptSlot)
  | eptKeep (keep : Nat → Bool)
  | mem2 (v : MemErr)
  /-- The fabric time base; the module clock keeps its value. -/
  | time (v : Time)
  /-- The module clock moves on to `n`; it never goes back. -/
  | clock (n : Nat)
  | mod (v : Mod)
  | nv (v : Nv)
  | own (v : Own)
  | err (v : Err)
  | pw (v : Power)
  | host (v : HostIf)
  | fab (v : Fab)
  | submits (v : List Submit)
  | tagsDone (v : List TagDone)
  | samples (v : List Sample)
  | loads (v : List (Nat × Nat × Nat × Nat))
  | launches (v : List Launch)
  | colls (v : List Coll)
  /-- A free value has been drawn. -/
  | draw
  /-- Something leaves the module (R1). -/
  | emit (v : Emit)

/-- The state after an effect. -/
def Effect.apply : Effect → State → State
  | .reg off v, s => { s with regs := tput (resetWord off) s.regs off v }
  | .regsKeep f, s => { s with regs := tkeep f s.regs }
  | .mem a b, s => { s with mem := tput 0 s.mem a b }
  | .memKeep f, s => { s with mem := tkeep f s.mem }
  | .thread k v, s => { s with threads := tput {} s.threads k v }
  | .threadsKeep f, s => { s with threads := tkeep f s.threads }
  | .turn c n, s => { s with turns := tput 15 s.turns c n }
  | .pip k v, s => { s with pips := tput 0 s.pips k v }
  | .pipsKeep f, s => { s with pips := tkeep f s.pips }
  | .vbuf k v, s => { s with vbufs := tput {} s.vbufs k v }
  | .vbufsKeep f, s => { s with vbufs := tkeep f s.vbufs }
  | .queue k v, s => { s with queues := tput {} s.queues k v }
  | .queuesKeep f, s => { s with queues := tkeep f s.queues }
  | .part k v, s => { s with parts := tput {} s.parts k v }
  | .partsKeep f, s => { s with parts := tkeep f s.parts }
  | .pool k v, s => { s with pools := tput {} s.pools k v }
  | .poolsKeep f, s => { s with pools := tkeep f s.pools }
  | .group k v, s => { s with groups := tput {} s.groups k v }
  | .groupsKeep f, s => { s with groups := tkeep f s.groups }
  | .port k v, s => { s with ports := tput {} s.ports k v }
  | .portsKeep f, s => { s with ports := tkeep f s.ports }
  | .eptSlots k v, s => { s with eptSlots := tput [] s.eptSlots k v }
  | .eptKeep f, s => { s with eptSlots := tkeep f s.eptSlots }
  | .mem2 v, s => { s with mem2 := v }
  | .time v, s => { s with time := { v with now := s.time.now } }
  | .clock n, s => { s with time := { s.time with now := max s.time.now n } }
  | .mod v, s => { s with mod := v }
  | .nv v, s => { s with nv := v }
  | .own v, s => { s with own := v }
  | .err v, s => { s with err := v }
  | .pw v, s => { s with pw := v }
  | .host v, s => { s with host := v }
  | .fab v, s => { s with fab := v }
  | .submits v, s => { s with submits := v }
  | .tagsDone v, s => { s with tagsDone := v }
  | .samples v, s => { s with samples := v }
  | .loads v, s => { s with loads := v }
  | .launches v, s => { s with launches := v }
  | .colls v, s => { s with colls := v }
  | .draw, s => { s with freeIdx := s.freeIdx + 1 }
  | .emit v, s => { s with out := s.out ++ [v] }

/-- A program over the state. -/
inductive Prog where
  | done
  | look (k : State → Prog)
  | eff (e : Effect) (k : Prog)

/-- The state a program leaves. -/
def Prog.run : Prog → State → State
  | .done, s => s
  | .look k, s => Prog.run (k s) s
  | .eff e k, s => Prog.run k (e.apply s)

/-- A piece of a program that answers a value to what follows it. -/
abbrev Act (α : Type) := Cont Prog α

/-- The state as it stands. -/
def look : Act State := fun k => Prog.look k

/-- One effect. -/
def eff (e : Effect) : Act Unit := fun k => Prog.eff e (k ())

/-- The outcome of a command whose meaning is a program. -/
def finish (p : Act Unit) (s : State) : Host.Outcome State Fault Refusal :=
  .next (Prog.run (p (fun _ => .done)) s)

/-- The outcome of a command that has conditions of form (Sys2Proof/WellFormed.lean). -/
def finishIf (ok : Bool) (p : Act Unit) (s : State) : Host.Outcome State Fault Refusal :=
  if ok then finish p s else .fault .illFormed

end Sys2Proof.Machine
end

