-- ==== Sys2Proof/Machine/Crc.lean ====
section
/-!
DEFINITION. CRC-32C (R64, R66, R283), in its usual form: the Castagnoli polynomial taken bit-reversed, initial value and final inversion all
ones (PRESUMED, log entry 15). The CRC-8 of the sideband (R342).
-/

namespace Sys2Proof.Machine

/-- One bit of the CRC register. -/
def crcBit (c : BitVec 32) : BitVec 32 := if c.getLsbD 0 then (c >>> 1) ^^^ 0x82F63B78 else c >>> 1

/-- One byte into the CRC register. -/
def crcByte (c : BitVec 32) (b : Byte) : BitVec 32 :=
  (List.range 8).foldl (fun c _ => crcBit c) (c ^^^ BitVec.setWidth 32 b)

/-- CRC-32C of some bytes. -/
def crc32c (bs : List Byte) : BitVec 32 := ~~~(bs.foldl crcByte 0xFFFFFFFF)

/-- One byte into the CRC-8 of SMBus: x^8 + x^2 + x + 1, initial value 0 (R342). -/
def crc8Byte (c b : Byte) : Byte :=
  (List.range 8).foldl (fun (c : Byte) _ => if c.getLsbD 7 then (c <<< 1) ^^^ 0x07 else c <<< 1) (c ^^^ b)

/-- The packet error code of some bytes (R342). -/
def crc8 (bs : List Byte) : Byte := bs.foldl crc8Byte 0

end Sys2Proof.Machine
end

