-- ==== Sys2Proof/Machine/Ops.lean ====
section
/-!
DEFINITION. The named operations over the register file, memory, the tables, the clock and the connectors that every meaning is
written over; the tiers of memory, and the wipe of tier 3 that an access waits for (R248, R258, R301).
-/

namespace Sys2Proof.Machine

/-! ## Places in BAR0 (R407) -/

/-- A word of the page of partition `p`. -/
def rPart (p off : Nat) : Nat := 0xC00000 + p * 0x4000 + off
/-- A word of the page of Sedge die `d`. -/
def rSre (d off : Nat) : Nat := 0x600000 + d * 0x10000 + off
/-- A word of the page of port `n`. -/
def rPort (n off : Nat) : Nat := 0x400000 + n * 0x1000 + off
/-- Word `w` of queue descriptor `q`. -/
def rQueue (q w : Nat) : Nat := 0x280000 + q * 0x20 + w * 8
/-- Word `w` of ring descriptor `r`. -/
def rRing (r w : Nat) : Nat := 0x100000 + r * 0x40 + w * 8
/-- Word `w` of SET entry `e`. -/
def rSet (e w : Nat) : Nat := 0x068000 + e * 0x20 + w * 8
/-- Word `w` of route context `c` of Sedge die `d`. -/
def rRctx (d c w : Nat) : Nat := rSre d (0x4000 + c * 0x40 + w * 8)
/-- A counter of route context `c` of Sedge die `d`. -/
def rRcnt (d c off : Nat) : Nat := rSre d (0x8000 + c * 0x40 + off)
/-- A counter of exchange group `h`. -/
def rXg (h off : Nat) : Nat := 0x450000 + h * 0x80 + off
/-- Word `w` of PART_CTX_c of partition `p`. -/
def rCtx (p c w : Nat) : Nat := rPart p (0x0A00 + c * 0x20 + w * 8)
/-- A word of pool class `c` of partition `p`. -/
def rPool (p c off : Nat) : Nat := rPart p (0x0200 + c * 0x20 + off)
/-- The page of compute die `d`. -/
def rCmp (d off : Nat) : Nat := 0x800000 + d * 0x8000 + off
/-- A core counter of global core `c` (R211). -/
def rCore (c off : Nat) : Nat := rCmp (c / 64) (0x2000 + c % 64 * 0x40 + off)

/-! ## Die indexes (R367) -/

def dieSE (n : Nat) : Nat := 32 + n
def dieND (n : Nat) : Nat := 36 + n
def dieH (n : Nat) : Nat := 60 + n
def dieIO (n : Nat) : Nat := 92 + n
def dieMG : Nat := 96
def diePC : Nat := 98

/-! ## Reading the state -/

/-- A word of BAR0. -/
def regOf (s : State) (off : Nat) : Word := tget (resetWord off) s.regs off

/-- A field of a word of BAR0. -/
def fieldOf (s : State) (off lo len : Nat) : Nat := bitsOf (regOf s off).toNat lo len

/-- One byte of device memory; a byte nothing lists reads 0 (log entry 4). -/
def memAt (s : State) (a : Nat) : Byte := tget 0 s.mem a

/-- `n` bytes of device memory from `a`. -/
def memBytes (s : State) (a n : Nat) : List Byte := (List.range n).map (fun i => memAt s (a + i))

/-- The little-endian value of `n` bytes of device memory. -/
def memNat (s : State) (a n : Nat) : Nat := leNat (memBytes s a n)

/-- An item of 64 bytes in device memory. -/
def memItem (s : State) (a : Nat) : Item := BitVec.ofNat 512 (memNat s a 64)

/-- Bits of an item. -/
def ibits (i : Item) (lo len : Nat) : Nat := bitsOf i.toNat lo len

def threadOf (s : State) (k : Nat) : Thread := tget {} s.threads k
def queueOf (s : State) (q : Nat) : Queue := tget {} s.queues q
def partOf (s : State) (p : Nat) : Part := tget {} s.parts p
def poolOf (s : State) (k : Nat) : Pool := tget {} s.pools k
def groupOf (s : State) (h : Nat) : Group := tget {} s.groups h
def portOf (s : State) (n : Nat) : Port := tget {} s.ports n
def vbufOf (s : State) (k : Nat) : VBuf := tget {} s.vbufs k
def pipOf (s : State) (k : Nat) : BitVec 16 := tget 0 s.pips k
def ringOf (s : State) (r : Nat) : Ring := tget {} s.host.rings r
def slotsOf (s : State) (se : Nat) : List EptSlot := tget [] s.eptSlots se

/-- Whole nanoseconds of fabric time (R29). -/
def ftNs (s : State) : Nat := s.time.ft.toNat >>> 16

/-! ## Effects on one place -/

def wrReg (off v : Nat) : Act Unit := eff (.reg off (BitVec.ofNat 64 v))

def rdReg (off : Nat) : Act Nat := do return (regOf (← look) off).toNat

def rdF (off lo len : Nat) : Act Nat := do return fieldOf (← look) off lo len

/-- Write one field of a word of BAR0, keeping the others. -/
def wrF (off lo len v : Nat) : Act Unit := do wrReg off (setBits (← rdReg off) lo len v)

/-- Add to a 64-bit counter, which wraps (R11). -/
def ctr64 (off : Nat) (n : Nat := 1) : Act Unit := do wrReg off (((← rdReg off) + n) % 2 ^ 64)

/-- Add to a 32-bit counter at a 4-byte offset, which saturates (R11). -/
def ctr32 (off : Nat) (n : Nat := 1) : Act Unit := do
  let w := off / 8 * 8
  let lo := off % 8 * 8
  wrF w lo 32 (min 0xFFFFFFFF ((← rdF w lo 32) + n))

def modThread (k : Nat) (f : Thread → Thread) : Act Unit := do eff (.thread k (f (threadOf (← look) k)))
def modQueue (q : Nat) (f : Queue → Queue) : Act Unit := do eff (.queue q (f (queueOf (← look) q)))
def modPart (p : Nat) (f : Part → Part) : Act Unit := do eff (.part p (f (partOf (← look) p)))
def modPool (k : Nat) (f : Pool → Pool) : Act Unit := do eff (.pool k (f (poolOf (← look) k)))
def modGroup (h : Nat) (f : Group → Group) : Act Unit := do eff (.group h (f (groupOf (← look) h)))
def modPort (n : Nat) (f : Port → Port) : Act Unit := do eff (.port n (f (portOf (← look) n)))
def modTime (f : Time → Time) : Act Unit := do eff (.time (f (← look).time))
def modMod (f : Mod → Mod) : Act Unit := do eff (.mod (f (← look).mod))
def modNv (f : Nv → Nv) : Act Unit := do eff (.nv (f (← look).nv))
def modOwn (f : Own → Own) : Act Unit := do eff (.own (f (← look).own))
def modErr (f : Err → Err) : Act Unit := do eff (.err (f (← look).err))
def modPw (f : Power → Power) : Act Unit := do eff (.pw (f (← look).pw))
def modHost (f : HostIf → HostIf) : Act Unit := do eff (.host (f (← look).host))
def modFab (f : Fab → Fab) : Act Unit := do eff (.fab (f (← look).fab))
def modMem2 (f : MemErr → MemErr) : Act Unit := do eff (.mem2 (f (← look).mem2))
def modSubmits (f : List Submit → List Submit) : Act Unit := do eff (.submits (f (← look).submits))
def modLaunches (f : List Launch → List Launch) : Act Unit := do eff (.launches (f (← look).launches))
def modColls (f : List Coll → List Coll) : Act Unit := do eff (.colls (f (← look).colls))
def modRing (r : Nat) (f : Ring → Ring) : Act Unit :=
  modHost (fun h => { h with rings := tput {} h.rings r (f (tget {} h.rings r)) })

def emit (e : Emit) : Act Unit := eff (.emit e)

/-- A fresh free value (log entry 2). -/
def drawFree : Act Word := do
  let i := (← look).freeIdx
  eff .draw
  return Config.freeWord i

/-- Fresh free bytes (log entry 2). -/
def drawBytes (n : Nat) : Act (List Byte) := do
  let i := (← look).freeIdx
  eff .draw
  return (List.range n).map (Config.freeByte i)

/-! ## Frames to the ports (R104, R125, R134) -/

/-- A port is UP (R129). -/
def linkUp (s : State) (n : Nat) : Bool := fieldOf s (rPort n 8) 0 3 == 6
def netNode (s : State) : Nat := fieldOf s 0x440028 0 16
/-- Job generation and state of a partition (R300, R312). -/
def jobGen (s : State) (p : Nat) : Nat := fieldOf s (rPart p 0x10) 0 32
def jobState (s : State) (p : Nat) : Nat := fieldOf s (rPart p 0x10) 32 2

/-- A frame joins a port's transmit queue of a virtual channel (R134). -/
def pushTx (n vc len : Nat) (m : Msg) : Act Unit := modPort n (fun d => { d with txq := d.txq ++ [{ vc, len, msg := m }] })

/-- Bytes of an OXT frame from destination address to FCS (R94). -/
def oxtLen (x : Oxt) : Nat := x.payload.length + (if x.ver2 then 126 else 134)

/-- An OXT frame to a port's transmit queue; while NET_NODE is 0xFFFF none is sent (R125). -/
def sendOxt (n vc : Nat) (x : Oxt) : Act Unit := do
  if netNode (← look) ≠ 0xFFFF then pushTx n vc (oxtLen x) (.oxt x)

/-! ## Requests of the memory fabric (R276, R283) -/

/-- Ports that may carry a request: FAB_PORT_MASK, link UP. -/
def fabPorts (s : State) : List Nat := (List.range 64).filter (fun n => fieldOf s 0x300008 n 1 == 1 && linkUp s n)

/-- H of R283. -/
def fabHash (dst off id tries : Nat) : Nat :=
  (crc32c (natBytes 2 dst ++ natBytes 6 (off / 128 % 2 ^ 41) ++ natBytes 4 id ++ natBytes 1 (tries % 4))).toNat

/-- Port and UDP source port of a request (R283); none while no port is usable. -/
def fabRoute (s : State) (dst off id tries : Nat) : Option (Nat × Nat) :=
  let ps := fabPorts s
  let h := fabHash dst off id tries
  (ps[h % 64 % ps.length]?).map (fun n => (n, 0x8000 + bitsOf h 6 14))

/-- The sub-header of a request (R276). -/
def fabSub (op size tries : Nat) (coh : Bool) (atomOp off len : Nat) : List Byte :=
  natBytes 1 op ++ natBytes 1 (size % 8 ||| (tries % 4) <<< 3 ||| (if coh then 32 else 0)) ++ natBytes 1 (atomOp % 16) ++ [0] ++
    beBytes 6 off ++ beBytes 2 len ++ [0, 0, 0, 0]

/-- The next request ID (R276). -/
def takeId : Act Nat := do
  let n := (← look).fab.nextId
  modFab (fun f => { f with nextId := f.nextId + 1 })
  return n.toNat

/-- Send a FAB_REQ frame; answers its port. -/
def sendFabReq (dst part id op size tries : Nat) (coh : Bool) (atomOp off len : Nat) (data : List Byte) : Act (Option Nat) := do
  let s ← look
  match fabRoute s dst off id tries with
  | none => return none
  | some (n, src) =>
    sendOxt n 4 { typ := 8, dst, jobGen := jobGen s part, part, psn := id, udpSrc := some src
                  payload := fabSub op size tries coh atomOp off len ++ data }
    return some n

/-! ## The home directory (R279, R280) -/

/-- The committed coherence domain is in use, and member `j` is live. -/
def domainOn (s : State) : Bool := fieldOf s 0x300010 0 1 == 1
def memberLive (s : State) (j : Nat) : Bool := fieldOf s 0x300028 j 1 == 1
/-- Position of a live member (R279). -/
def memberOf (s : State) (node : Nat) : Option Nat :=
  if domainOn s then (List.range s.fab.domain.length).find? (fun j => s.fab.domain[j]? == some node && memberLive s j) else none

/-- The 128-byte lines that `n` bytes from `a` touch. -/
def linesOf (a n : Nat) : List Nat := if n = 0 then [] else (List.range ((a + n - 1) / 128 + 1 - a / 128)).map (· + a / 128)

/-- Members that hold one of the lines, but for node `except`. -/
def sharersOf (s : State) (lines : List Nat) (except : Nat) : List Nat :=
  (List.range 8).filter (fun j => s.fab.domain[j]? != none && s.fab.domain[j]? != some except &&
    lines.any (fun l => (tget 0 s.fab.dir l).getLsbD j))

/-- Send INVALs for the lines to their sharers (R280); answers what to wait for. -/
def invalLines (lines : List Nat) (except part : Nat) : Act (List Inval) := do
  let s ← look
  let mut ws : List Inval := []
  for j in sharersOf s lines except do
    for l in lines do
      if (tget 0 s.fab.dir l).getLsbD j then
        let id ← takeId
        let _ ← sendFabReq (s.fab.domain.getD j 0) part id 3 0 0 false 0 (128 * l) 0 []
        ctr64 0x321008
        ws := ws ++ [{ member := j, id, line := l, lastSent := s.time.now }]
  modFab (fun f => { f with dir := tkeep (fun l => !lines.contains l) f.dir })
  return ws

/-- The partition whose map holds an address, for the header of an INVAL that no request caused. -/
def partOfAddr (s : State) (a : Nat) : Nat :=
  ((List.range 64).find? (fun p => (partOf s p).map.ranges.any (fun r => r.1 ≤ a && a < r.1 + r.2))).getD 0

/-- A local unit has written `n` bytes from `a`: sharers of their lines get an INVAL, and later requests for the lines wait for the
acknowledgements (R280, R281, log entry 16). -/
def homeWrite (a n : Nat) : Act Unit := do
  let s ← look
  unless s.fab.dir.isEmpty do
    let lines := (s.fab.dir.map (·.1)).filter (fun l => a < 128 * l + 128 && 128 * l < a + n)
    for l in lines do
      let p := partOfAddr s (128 * l)
      let ws ← invalLines [l] 0x10000 p
      unless ws.isEmpty do
        modFab (fun f => { f with homeOps := { op := 5, src := 0x10000, id := 0, part := p, port := none, len := 128, off := 128 * l
                                               started := true, waitFor := ws, sentAt := s.time.now } :: f.homeOps })

/-! ## The address map (R248, R257) -/

/-- The range of R248 an address lies in. -/
inductive Tier where
  | unmapped
  | t1
  | t2
  | t3
  | sram
  | scratch
  | rack
  deriving DecidableEq, Repr

def tierOf (a : Nat) : Tier :=
  if a < 2 ^ 40 then .t1
  else if a < 3 * 2 ^ 40 then .t2
  else if 4 * 2 ^ 40 ≤ a && a < 12 * 2 ^ 40 then .t3
  else if a / 2 ^ 32 = 0x0C00 then .sram
  else if a / 2 ^ 32 = 0x0D00 then .scratch
  else if 0x1000_0000_0000 ≤ a && a < 0x1040_0000_0000 then .rack
  else .unmapped

/-- The CXL port that holds a tier-3 address (R257). -/
def t3Port (s : State) (a : Nat) : Nat :=
  let o := a - 4 * 2 ^ 40
  if s.mem2.interleave then o / 4096 % 4 else o / 2 ^ 41

/-- A tier-3 address lies in the mapped capacity (R257, R258). -/
def t3Mapped (s : State) (a : Nat) : Bool :=
  let o := a - 4 * 2 ^ 40
  if s.mem2.interleave then o < fieldOf s 0x200018 0 16 * 2 ^ 30
  else o % 2 ^ 41 < s.mem2.caps.getD (o / 2 ^ 41) 0 * 2 ^ 30

/-- GiB of the tier-3 window that an address lies in. -/
def t3Gib (a : Nat) : Nat := (a - 4 * 2 ^ 40) / 2 ^ 30

/-- Some of `n` bytes from `a` lie in tier 3 where a life-cycle wipe, or the wipe of a teardown, has not come yet (R258, R301). -/
def t3BusyRun (s : State) (a n : Nat) : Bool :=
  n != 0 && tierOf a == .t3 && ((match s.mem2.t3Next with
    | some k => k ≤ t3Gib (a + n - 1)
    | none => false) || s.mem2.t3Part.any (fun r => a < r.1 + r.2 && r.1 < a + n))

/-- A tier-3 address that a wipe has not reached (R258, R301). -/
def t3Busy (s : State) (a : Nat) : Bool := t3BusyRun s a 1

/-! ## Device memory -/

/-- The 64-byte granules that `n` bytes from `a` touch. -/
def granules (a n : Nat) : List Nat :=
  if n = 0 then [] else (List.range ((a + n - 1) / 64 + 1 - a / 64)).map (· + a / 64)

/-- The 64-byte granules that `n` bytes from `a` cover whole. -/
def wholeGranules (a n : Nat) : List Nat := (granules a n).filter (fun g => a ≤ 64 * g && 64 * g + 64 ≤ a + n)

/-- Fill a range with 0. -/
def zeroMem (a n : Nat) : Act Unit := do
  eff (.memKeep (fun x => x < a || a + n ≤ x))
  let ok := fun g => 64 * g < a || a + n < 64 * g + 64
  modMem2 (fun m => { m with poison := m.poison.filter ok, ue := m.ue.filter ok })
  homeWrite a n

/-! ## The tier-3 wipe (R258, R301, R393) -/

/-- A wait ends before the command has run: it issues again past its header wait. -/
def reissue (k : Nat) : Act Unit := modThread k (fun t => { t with wait := .met, hdrDone := true, cur := none })

/-- Threads held on a GiB go on (R258). -/
def releaseT3 (gib : Nat) : Act Unit := do
  for e in (← look).threads do
    if e.2.wait == .t3 gib then reissue e.1

/-- The first mapped GiB of the window from `k` on. -/
def nextT3 (s : State) (k : Nat) : Option Nat :=
  (List.range 8192).find? (fun j => k ≤ j && t3Mapped s (4 * 2 ^ 40 + j * 2 ^ 30))

/-- The part of a range that lies in GiB `k` of the window, if any. -/
def inGib (k : Nat) (r : Nat × Nat) : List (Nat × Nat) :=
  let a := 4 * 2 ^ 40 + k * 2 ^ 30
  let lo := max r.1 a
  let hi := min (r.1 + r.2) (a + 2 ^ 30)
  if lo < hi then [(lo, hi - lo)] else []

/-- The parts of a range outside GiB `k`. -/
def offGib (k : Nat) (r : Nat × Nat) : List (Nat × Nat) :=
  let a := 4 * 2 ^ 40 + k * 2 ^ 30
  let hi := min (r.1 + r.2) a
  let lo := max r.1 (a + 2 ^ 30)
  (if r.1 < hi then [(r.1, hi - r.1)] else []) ++ (if lo < r.1 + r.2 then [(lo, r.1 + r.2 - lo)] else [])

/-- The lowest GiB in which a range waits for the wipe of its teardown (R301). -/
def nextT3Part (s : State) : Option Nat :=
  (s.mem2.t3Part.map (fun r => t3Gib r.1)).foldl (fun b k => match b with
    | none => some k
    | some j => some (min j k)) none

/-- One GiB of the wipes of teardowns: the ranges in it read 0 (R258, R301). -/
def wipeT3Part (k : Nat) : Act Unit := do
  let rs := (← look).mem2.t3Part
  for r in rs.flatMap (inGib k) do
    zeroMem r.1 r.2
  modMem2 (fun m => { m with t3Part := rs.flatMap (offGib k) })
  releaseT3 k

/-- One GiB is wiped, in ascending address order (R258), first of a life-cycle wipe, then of the wipes of teardowns
(R301); a life-cycle wipe keeps its progress at each 64 GiB boundary (R393). -/
def wipeChunk : Act Unit := do
  let s ← look
  match s.mem2.t3Next with
  | none =>
    match nextT3Part s with
    | none => return
    | some k => wipeT3Part k
  | some k =>
    zeroMem (4 * 2 ^ 40 + k * 2 ^ 30) (2 ^ 30)
    if s.mem2.interleave then
      for n in List.range 4 do
        wrF (0x200020 + 8 * n) 32 16 ((k + 1) / 4)
    else
      let r := 0x200020 + 8 * (k / 2048)
      wrF r 32 16 ((← rdF r 32 16) + 1)
    let nx := nextT3 s (k + 1)
    modMem2 (fun m => { m with t3Next := nx, t3Part := m.t3Part.flatMap (offGib k) })
    if nx.isNone then modNv (fun n => { n with wipeMark := none })
    else if (k + 1) % 64 = 0 then modNv (fun n => { n with wipeMark := some (k + 1) })
    releaseT3 k

/-- The units that access tier 3 are held until the wipe has reached what they access (R258): the wipe goes on to there first. -/
def awaitT3 : Nat → List (Nat × Nat) → Act Unit
  | 0, _ => pure ()
  | fuel + 1, rs => do
    let s ← look
    if rs.any (fun r => t3BusyRun s r.1 r.2) then
      wipeChunk
      awaitT3 fuel rs

/-- Runs of bytes (address, length) are about to be accessed (R258). -/
def reachT3 (rs : List (Nat × Nat)) : Act Unit := awaitT3 16384 rs

/-! ## Writing memory -/

/-- Write bytes to memory at the home of their lines; a write of a whole granule clears its poison (R373). -/
def storeBytes (a : Nat) (bs : List Byte) : Act Unit := do
  reachT3 [(a, bs.length)]
  for x in bs.zipIdx do
    eff (.mem (a + x.2) x.1)
  let m := (← look).mem2
  let gs := wholeGranules a bs.length
  if gs.any (fun g => m.poison.contains g || m.ue.contains g) then
    modMem2 (fun m => { m with poison := m.poison.filter (fun g => !gs.contains g), ue := m.ue.filter (fun g => !gs.contains g) })

/-- A local unit writes bytes to memory. -/
def putBytes (a : Nat) (bs : List Byte) : Act Unit := do
  storeBytes a bs
  homeWrite a bs.length

/-- Write the `n` little-endian bytes of a value to memory. -/
def putNat (a n v : Nat) : Act Unit := putBytes a (natBytes n v)

/-- Add to a 32-bit counter kept in device memory, which saturates. -/
def memCtr32 (a : Nat) (n : Nat := 1) : Act Unit := do putNat a 4 (min 0xFFFFFFFF (memNat (← look) a 4 + n))

/-! ## The clock -/

/-- FTB_CTRL.SLEW_PPM as it acts (R34). -/
def slewPpm (s : State) : Nat := min 1000 (max 1 (fieldOf s 0x060000 48 10))

/-- What a slew may take off an offset in `n` ns (R30), in millionths of 2^-16 ns, with the fraction that earlier ns left over. -/
def slewRoom (s : State) (n : Nat) : Nat := n * 65536 * slewPpm s + s.time.slewFrac

/-- Fabric time `n` ns later (R29, R30), the offset still to be slewed away, and the fraction left over: an offset from the source is
slewed away at SLEW_PPM, however the passage of time is cut. -/
def ftAfter (s : State) (n : Nat) : BitVec 80 × Int × Nat :=
  let full := n * 65536
  let m := slewRoom s n / 1000000
  let d := min m s.time.slew.natAbs
  let ft := s.time.ft.toNat
  let frac := if s.time.slew.natAbs ≤ m then 0 else slewRoom s n % 1000000
  if 0 < s.time.slew then (BitVec.ofNat 80 (ft + full - d), s.time.slew - d, frac)
  else (BitVec.ofNat 80 (ft + full + d), s.time.slew + d, frac)

/-- The clocks run for `n` ns. -/
def advance (n : Nat) : Act Unit := do
  let s ← look
  eff (.clock (s.time.now + n))
  if s.time.running then
    let r := ftAfter s n
    modTime (fun t => { t with ft := r.1, slew := r.2.1, slewFrac := r.2.2 })

/-- A time-driven event is the first thing at its due time: the clocks run up to it if it has not come yet (log entry 1). -/
def advanceTo (due : Nat) : Act Unit := do
  let s ← look
  if s.time.now < due then advance (due - s.time.now)

/-- Nanoseconds that surely pass before fabric time reaches `due`, or 1: FT never gains more than 1,000 ppm (R34). -/
def ftSteps (s : State) (due : Nat) : Nat := max 1 ((due * 65536 - s.time.ft.toNat) * 1000 / (1001 * 65536))

/-- As `advanceTo`, for a due fabric time: the clocks stop at the first nanosecond at which FT has reached it, however FT is slewed
(R36). Each round leaves at most a 500th part of the way, so that 16 rounds cover any. -/
def advanceFt (due : Nat) : Act Unit := do
  for _ in List.range 16 do
    let s ← look
    if s.time.running && ftNs s < due then advance (ftSteps s due)

/-! ## The error bound of the fabric time base (R33) -/

/-- Frequency error of the reference that remains, in ppb (R33): SyncE from PTP_PORT, or the 10 MHz input that comes with PPS_IN. -/
def refPpb (s : State) : Nat :=
  if (fieldOf s 0x060000 16 1 == 1 && linkUp s (fieldOf s 0x060000 8 6)) || s.time.ppsUp then 1 else 100

/-- The bound that began at `b` ns and has grown by `g` 10^-9 ns since, in whole ns (R33, log entry 119). -/
def boundOf (b g : Nat) : Nat := min 0xFFFF (b + (g + 999999999) / 1000000000)

/-- Growth of the bound up to now, at the error of the reference that remains. -/
def grownNow (s : State) (from_ : Nat) : Nat := s.time.grown + refPpb s * (s.time.now - from_)

/-- ERR_BOUND_NS takes the growth of the bound up to now; also before the reference changes, so that each rate counts for its own time. -/
def showBound : Act Unit := do
  let s ← look
  match s.time.holdFrom with
  | none => return
  | some t =>
    let g := grownNow s t
    wrF 0x060008 16 16 (boundOf s.time.holdBase g)
    modTime (fun x => { x with holdFrom := some x.now, grown := g })

/-- The bound starts to grow. -/
def startHold : Act Unit := do
  let s ← look
  if s.time.holdFrom.isNone then
    modTime (fun t => { t with holdFrom := some t.now, holdBase := fieldOf s 0x060008 16 16, grown := 0 })

/-! ## Interrupts -/

/-- The host link is up (R314, R318). -/
def hostUp (s : State) : Bool := fieldOf s 0x110000 0 1 == 1

/-- Send an MSI-X vector of the PF or of a VF; a masked vector stays pending (R333, R334); none leaves while the host link is down. -/
def sendVec (pf : Bool) (fn vec : Nat) : Act Unit := do
  let s ← look
  let h := s.host
  if h.masked.contains (pf, fn, vec) then
    unless h.msixPending.contains (pf, fn, vec) do
      modHost (fun h => { h with msixPending := h.msixPending ++ [(pf, fn, vec)] })
  else if hostUp s then emit (.msix pf fn vec)

/-- An event bit is set; when it goes from 0 to 1 its vector goes to the PF and to the BMC (R334, R341). -/
def setEvent (off bit vec : Nat) : Act Unit := do
  if (← rdF off bit 1) = 0 then
    wrF off bit 1 1
    sendVec true 0 vec
    emit (.ibi vec)

/-! ## Register writes (R402, R406) -/

/-- The bits a write covers (R402). -/
def halfMask : Half → Nat
  | .all => 0xFFFFFFFFFFFFFFFF
  | .low => 0xFFFFFFFF
  | .high => 0xFFFFFFFF00000000

/-- What a write carries for the bits it covers; the bits it does not cover act as 0 (R402). -/
def wrVal (w : Wr) : Nat := w.val.toNat &&& halfMask w.half

/-- A field of a write; 0 where the write does not cover it (R402). -/
def wrBits (w : Wr) (lo len : Nat) : Nat := bitsOf (wrVal w) lo len

/-- A word of BAR0 after a plain write: RW bits take the written value, RW1C bits written 1 clear, the rest stay (R9, R402). -/
def plainWrite (off old : Nat) (w : Wr) : Nat :=
  match regRow off with
  | none => old
  | some r =>
    let rw := r.rw &&& halfMask w.half
    (old &&& (0xFFFFFFFFFFFFFFFF ^^^ rw) ||| (w.val.toNat &&& rw)) &&& (0xFFFFFFFFFFFFFFFF ^^^ (wrVal w &&& r.w1c))

/-- A plain write of a word of BAR0. -/
def storeWord (off : Nat) (w : Wr) : Act Unit := do wrReg off (plainWrite off (← rdReg off) w)

/-- Hold a field of a word of BAR0 within its range (a clamped field, R340 and others). -/
def clampF (off lo len low high : Nat) : Act Unit := do wrF off lo len (min high (max low (← rdF off lo len)))

/-- The candidate code of a path (R335); a VF has none. -/
def pathCode : Path → Nat
  | .host => 1
  | .bmc => 2
  | .fabric => 3
  | .vf _ => 0

/-- A path reaches BAR0 (R315, R318, R386, R388, log entry 5): the host by a trained link of a READY module, a VF only when enabled,
the BMC also during a warm reset. -/
def pathUp (s : State) : Path → Bool
  | .host => s.mod.phase == .ready && hostUp s
  | .vf n => s.mod.phase == .ready && hostUp s && n.val < s.host.numVfs
  | .bmc => s.mod.phase == .ready || s.mod.phase == .warm
  | .fabric => s.mod.phase == .ready

/-- The path is the owner's (R337). -/
def isOwner (s : State) (p : Path) : Bool := pathCode p != 0 && fieldOf s 0x010020 0 2 == pathCode p

end Sys2Proof.Machine
end

