-- ==== Sys2Proof/Machine/Errors.lean ====
section
/-!
DEFINITION. Error reports, records, the ERQ and the fatal log (R369–R383, R423), and the treatment of a refused register write (R337).
-/

namespace Sys2Proof.Machine

/-! ## Records -/

/-- A record in the layout of R377. -/
def recNat (seq : Nat) (r : OpenRec) : Nat :=
  seq % 2 ^ 64 ||| (r.rep.ft % 2 ^ 64) <<< 64 ||| (r.ftLast % 2 ^ 64) <<< 128 ||| (r.rep.code % 2 ^ 16) <<< 192 |||
    (r.rep.sev % 8) <<< 208 ||| (r.rep.die % 128) <<< 216 ||| (r.rep.unit % 2 ^ 16) <<< 224 |||
    ((r.rep.part.getD 0) % 64) <<< 240 ||| (if r.rep.part.isSome then 1 else 0) <<< 246 |||
    (min r.count 0xFFFFFFFF) <<< 256 ||| (r.rep.addr % 2 ^ 64) <<< 320 ||| (r.rep.detail % 2 ^ 128) <<< 384

/-- ERR_ERQ_BASE with its ignored bits cleared. -/
def erqBase (s : State) : Nat := fieldOf s 0x080000 19 33 * 2 ^ 19

/-- An address lies in shared SRAM (R248). -/
def inSram (a : Nat) : Bool := a / 2 ^ 32 == 0x0C00

/-- Write a record to slot `i` of the ERQ; nothing is stored while the base lies outside shared SRAM (log entry 10). -/
def erqStore (i v : Nat) : Act Unit := do
  let b := erqBase (← look)
  if inSram b then putNat (b + 64 * i) 64 v

/-- Interrupt for a record written to the ring (R379). -/
def erqInterrupt : Act Unit := do
  let s ← look
  let hold := fieldOf s 0x080008 32 20 * 1000
  let free := match s.err.lastIrq with
    | none => true
    | some t => t + hold ≤ s.time.now
  if free then
    modErr (fun e => { e with lastIrq := some s.time.now, irqDue := false })
    sendVec true 0 0
    emit (.ibi 0)
    emit (.notice 1 0)
  else modErr (fun e => { e with irqDue := true })

/-- The fatal log registers show the log, newest first (R383). -/
def showFatalLog : Act Unit := do
  let l := (← look).nv.fatalLog
  for i in List.range 16 do
    for w in List.range 8 do
      wrReg (0x082000 + 0x40 * i + 8 * w) (((l.getD i []).getD w 0)).toNat

/-- A record closes (R376–R378): it takes the next SEQ; FIRST, the ring and LATEST are written as the ERQ allows; a FATAL record
goes to the fatal log. -/
def closeRecord (r : OpenRec) : Act Unit := do
  let seq := (← look).err.seq + 1
  modErr (fun e => { e with seq := seq })
  let v := recNat seq r
  let s ← look
  if fieldOf s 0x080008 0 1 = 0 then ctr32 0x080020
  else
    if s.err.slot0Free then
      erqStore 0 v
      modErr (fun e => { e with slot0Free := false })
    let tail ← rdReg 0x080010
    let head ← rdReg 0x080018
    if tail - head = 8190 then ctr32 0x080020
    else
      erqStore (1 + tail % 8190) v
      wrReg 0x080010 (tail + 1)
      if fieldOf s 0x080008 8 3 ≤ r.rep.sev then erqInterrupt
    erqStore 8191 v
  if r.rep.sev = 4 then
    let ws := (List.range 8).map (fun w => BitVec.ofNat 64 (v >>> (64 * w)))
    modNv (fun n => { n with fatalLog := (ws :: n.fatalLog).take 16 })
    modErr (fun e => { e with fatalNew := true })
    showFatalLog

/-! ## Reports -/

/-- The reporting die's sticky status (R375, R383). -/
def noteSource (code sev die : Nat) : Act Unit := do
  let w0 := 0x081000 + 0x10 * die
  if (← rdF w0 32 5) = 0 then wrF w0 0 16 code
  wrF w0 16 16 code
  wrF w0 32 5 ((← rdF w0 32 5) ||| 1 <<< sev)
  ctr32 (w0 + 8)
  if code = 0x2001 then ctr32 (w0 + 12)

/-- A unit reports an error (R369, R375, R376): the die's status at once, DEVICE_EVT for a DEVICE report; the report itself is on its
way to MG0 until ERROR_REPORT, but a FATAL report closes and is logged at once. -/
def raise (code sev die unit : Nat) (part : Option Nat := none) (addr : Nat := 0) (detail : Nat := 0) : Act Unit := do
  noteSource code sev die
  if sev = 3 then wrF 0x080028 0 1 1
  let ft := ftNs (← look)
  let r : Report := { code, sev, die, unit, part, addr, detail, ft }
  if sev = 4 then closeRecord { rep := r, count := 1, ftLast := ft }
  else modErr (fun e => { e with inflight := e.inflight ++ [r] })

/-- The DETAIL of PEER_DEAD (R423). -/
def peerDetail (rank h : Nat) : Nat := rank % 2 ^ 14 ||| (h % 256) <<< 16

/-- The DETAIL of CMD_INVALID and CTX_FAULT (R423). -/
def faultDetail (cause tc ctx : Nat) : Nat := cause % 256 ||| (tc % 16) <<< 8 ||| (ctx % 16) <<< 12

/-- The oldest open record, by FT_FIRST. -/
def oldestRec (l : List OpenRec) : Option OpenRec :=
  l.foldl (fun a r => match a with
    | none => some r
    | some b => if r.rep.ft < b.rep.ft then some r else a) none

/-- The same source and code (R376). -/
def sameSource (a b : Report) : Bool := a.die == b.die && a.unit == b.unit && a.code == b.code

/-- MG0 merges the oldest report on its way (R376). -/
def errorReportAct : Act Unit := do
  let s ← look
  match s.err.inflight with
  | [] => return
  | r :: rest =>
    modErr (fun e => { e with inflight := rest })
    if r.sev < min 4 (fieldOf s 0x080008 4 3) then return
    if s.err.recs.any (fun x => sameSource x.rep r) then
      modErr (fun e => { e with recs := e.recs.map (fun x =>
        if sameSource x.rep r then { x with count := min 0xFFFFFFFF (x.count + 1), ftLast := r.ft } else x) })
    else
      if 256 ≤ s.err.recs.length then
        match oldestRec s.err.recs with
        | none => return
        | some o =>
          modErr (fun e => { e with recs := e.recs.erase o })
          closeRecord o
      modErr (fun e => { e with recs := e.recs ++ [{ rep := r, count := 1, ftLast := r.ft }] })

/-- The oldest open record closes, 1,000 ns after its FT_FIRST (R376). -/
def errRecordCloseAct : Act Unit := do
  match oldestRec (← look).err.recs with
  | none => return
  | some o =>
    advanceFt (o.rep.ft + 1000)
    modErr (fun e => { e with recs := e.recs.erase o })
    closeRecord o

/-- The ERQ holdoff ends; a record that came within it sends its interrupt (R379). -/
def erqHoldoffAct : Act Unit := do
  let s ← look
  match s.err.lastIrq with
  | none => return
  | some t =>
    if s.err.irqDue then
      advanceTo (t + fieldOf s 0x080008 32 20 * 1000)
      erqInterrupt

/-! ## Refused register writes -/

/-- A refused write is counted in OWN_DENIED and recorded at INFO (R337). -/
def ownDenied : Act Unit := do
  ctr32 0x010060
  raise 0x0101 0 dieMG 0

/-- A register write that only the owner may make (R337, R406); a path that is down brings no write. -/
def ownerWrite (p : Path) (a : Act Unit) : Act Unit := do
  let s ← look
  if pathUp s p then
    if isOwner s p then a else ownDenied

/-! ## ERR registers (R383) -/

/-- Slot 0 takes the next record (R377). -/
def freeSlot0 : Act Unit := modErr (fun e => { e with slot0Free := true })

/-- A write of ERR_CTRL. -/
def errCtrlWrite (w : Wr) : Act Unit := do
  let was ← rdF 0x080008 0 1
  storeWord 0x080008 w
  clampF 0x080008 32 20 1 1000000
  if was = 0 && (← rdF 0x080008 0 1) = 1 then
    wrReg 0x080018 (← rdReg 0x080010)
    freeSlot0
  if wrBits w 1 1 = 1 then freeSlot0
  if wrBits w 2 1 = 1 then wrF 0x080028 0 1 0

/-- A write of ERR_ERQ_HEAD; a value beyond TAIL is discarded. -/
def errHeadWrite (w : Wr) : Act Unit := do
  let v := plainWrite 0x080018 (← rdReg 0x080018) w
  if v ≤ (← rdReg 0x080010) then wrReg 0x080018 v

/-- ERROR_REPORT (R376). -/
def execErrorReport (s : State) : Host.Outcome State Fault Refusal := finish errorReportAct s

/-- ERR_RECORD_CLOSE (R376, R377). -/
def execErrRecordClose (s : State) : Host.Outcome State Fault Refusal := finish errRecordCloseAct s

/-- ERQ_IRQ_HOLDOFF_END (R379). -/
def execErqIrqHoldoffEnd (s : State) : Host.Outcome State Fault Refusal := finish erqHoldoffAct s

/-- ERR_CTRL_ERQ_EN: a write of ERR_CTRL (R383). -/
def execErrCtrlErqEn (w : Wr) (s : State) : Host.Outcome State Fault Refusal :=
  finish (ownerWrite w.path (errCtrlWrite w)) s

/-- ERR_FIRST_CLR: a write of ERR_CTRL.FIRST_CLR (R383). -/
def execErrFirstClr (w : Wr) (s : State) : Host.Outcome State Fault Refusal :=
  finish (ownerWrite w.path (errCtrlWrite w)) s

/-- ERR_DEVICE_CLR: a write of ERR_CTRL.DEVICE_CLR (R383). -/
def execErrDeviceClr (w : Wr) (s : State) : Host.Outcome State Fault Refusal :=
  finish (ownerWrite w.path (errCtrlWrite w)) s

/-- ERR_ERQ_HEAD_WRITE (R378, R383). -/
def execErrErqHeadWrite (w : Wr) (s : State) : Host.Outcome State Fault Refusal :=
  finish (ownerWrite w.path (errHeadWrite w)) s

end Sys2Proof.Machine
end

