-- ==== Sys2Proof/Machine/Operands.lean ====
section
/-!
DEFINITION. The operand forms of a command: fields of its 32 bytes (R171), scalar registers and predicates (R166), and the addresses a
thread may name (R165, R170, R248, R249, R290).
-/

namespace Sys2Proof.Machine

/-! ## Fields of a command (R171) -/

/-- `len` bits from bit `lo` of byte `byte` on. -/
def cf (w : Cmd) (byte lo len : Nat) : Nat := bitsOf w.toNat (8 * byte + lo) len
/-- A byte of a command. -/
def cb (w : Cmd) (byte : Nat) : Nat := cf w byte 0 8
/-- A 52-bit address in 8 bytes of a command. -/
def cAddr (w : Cmd) (byte : Nat) : Nat := cf w byte 0 52
/-- The signed 64-bit value of 8 bytes of a command. -/
def cInt (w : Cmd) (byte : Nat) : Int := (BitVec.ofNat 64 (cf w byte 0 64)).toInt

def hOpcode (w : Cmd) : Nat := cb w 0
def hPredEn (w : Cmd) : Bool := cf w 1 0 1 == 1
def hSig (w : Cmd) : Bool := cf w 1 1 1 == 1
def hWait (w : Cmd) : Bool := cf w 1 2 1 == 1
def hLeave (w : Cmd) : Bool := cf w 1 3 1 == 1
def hWpip (w : Cmd) : Nat := cf w 2 0 6
def hSpip (w : Cmd) : Nat := cf w 2 6 6
def hPred (w : Cmd) : Nat := cf w 2 12 3
def hPneg (w : Cmd) : Nat := cf w 2 15 1

/-- The opcodes that are not reserved (R174, R186, R194, R216, R226, R232, R239 and the SRE commands 0x60–0x62). -/
def knownOpcode (o : Nat) : Bool :=
  o ≤ 0x09 || (0x10 ≤ o && o ≤ 0x1B) || (0x20 ≤ o && o ≤ 0x23) || (0x30 ≤ o && o ≤ 0x32) || (0x40 ≤ o && o ≤ 0x49) ||
    (0x60 ≤ o && o ≤ 0x62)

/-! ## Thread keys -/

/-- Number of a context of a partition. -/
def ctxKey (p ctx : Nat) : Nat := p * 16 + ctx
/-- Key of a thread context. -/
def thrKey (p ctx core tc : Nat) : Nat := (ctxKey p ctx * 2048 + core) * 16 + tc
/-- Key of a pip. -/
def pipKey (p ctx core pip : Nat) : Nat := (ctxKey p ctx * 2048 + core) * 64 + pip
/-- Key of a vector buffer. -/
def vbKey (p ctx core b : Nat) : Nat := (ctxKey p ctx * 2048 + core) * 4 + b

/-- A command as it issues: its thread context and its word; one that started later keeps what it read as it issued, and one that goes on the
place where it stopped. -/
structure Iss where
  p : Nat
  ctx : Nat
  core : Nat
  tc : Nat
  w : Cmd
  held : Option Issued := none
  /-- Where it stopped, for a matrix command that goes on (R209). -/
  cur : Option Cursor := none
  deriving DecidableEq, Repr

def Iss.key (i : Iss) : Nat := thrKey i.p i.ctx i.core i.tc

/-- The thread context of a key, with the command that waits there. -/
def issOfKey (k : Nat) (w : Cmd) : Iss :=
  { p := k / 16 / 2048 / 16, ctx := k / 16 / 2048 % 16, core := k / 16 % 2048, tc := k % 16, w := w }

/-- The registers of the thread of a command, as it read them at issue (R161). -/
def Iss.thread (s : State) (i : Iss) : Thread :=
  match i.held with
  | none => threadOf s i.key
  | some h => { threadOf s i.key with g := h.g, numCtrl := h.numCtrl, numSeed := h.numSeed }

/-- The 64 bytes of an MDESC as the command read them at issue (R176). -/
def Iss.item (s : State) (i : Iss) (a : Nat) : Item :=
  match i.held with
  | none => memItem s a
  | some h => match h.items.find? (fun x => x.1 == a) with
    | some x => BitVec.ofNat 512 x.2
    | none => memItem s a

/-- A bucket entry as the command read it at issue (R202). -/
def Iss.entry (s : State) (i : Iss) (a : Nat) : Nat :=
  match i.held with
  | none => memNat s a 8
  | some h => match h.items.find? (fun x => x.1 == a) with
    | some x => x.2 % 2 ^ 64
    | none => memNat s a 8

/-- DENSE_THRESH as the command found it at issue (R219). -/
def Iss.thresh (s : State) (i : Iss) : Nat :=
  match i.held with
  | none => fieldOf s (rPart i.p 0x0120) 0 9
  | some h => h.thresh

/-! ## Registers of a thread (R166) -/

def gOf (t : Thread) (n : Nat) : Word := tget 0 t.g n
def setG (n : Nat) (v : Word) (t : Thread) : Thread := { t with g := tput 0 t.g n v }
/-- A predicate; p0 reads 1. -/
def pOf (t : Thread) (n : Nat) : Bool := n == 0 || t.p.getLsbD n
/-- Write a predicate; p0 ignores writes. -/
def setP (n : Nat) (b : Bool) (t : Thread) : Thread :=
  if n = 0 then t else { t with p := BitVec.ofNat 8 (setBits t.p.toNat n 1 (if b then 1 else 0)) }
/-- OR flags into a thread's FLAGS (R161). -/
def orFlags (f : BitVec 6) (t : Thread) : Thread := { t with flags := t.flags ||| f }

/-! ## Addresses (R248, R249, R290) -/

/-- Base of the scratch window of a core (R165). -/
def scratchBase (core : Nat) : Nat := 0x0D00_0000_0000 + core * 0x200000

/-- A core is not fused off (R4, R6). -/
def coreEnabled (s : State) (c : Nat) : Bool := c < 2048 && fieldOf s (0x100 + c / 64 * 8) (c % 64) 1 == 1

/-- A core belongs to a partition under its committed map (R289). -/
def coreOfPart (s : State) (p c : Nat) : Bool := coreEnabled s c && bitsOf (partOf s p).map.cg.toNat (c / 32) 1 == 1

/-- The enabled cores of a partition in ascending order. -/
def partCores (s : State) (p : Nat) : List Nat := (List.range 2048).filter (coreOfPart s p)

/-- An address is mapped (R249). -/
def mapped (s : State) (a : Nat) : Bool :=
  match tierOf a with
  | .unmapped => false
  | .t3 => t3Mapped s a
  | .scratch => coreEnabled s ((a - 0x0D00_0000_0000) / 0x200000)
  | _ => true

/-- A tier-3 address whose port went down since the cold reset (R258). -/
def t3Failed (s : State) (a : Nat) : Bool := tierOf a == .t3 && s.mem2.cxlFailed.contains (t3Port s a)

/-- The first of `n` bytes from `a` that lies on a failed port: with INTERLEAVE = 1 the 4 KiB granules rotate over the ports (R257, R258). -/
def t3Dead (s : State) (a n : Nat) : Option Nat :=
  let w := 4 * 2 ^ 40
  let step := if s.mem2.interleave then 4096 else 2 ^ 41
  (a :: (List.range 3).map (fun k => w + ((a - w) / step + k + 1) * step)).find? (fun x => x < a + n && t3Failed s x)

/-- How far from `a` on addresses belong to partition `p` (R290); `a` itself where it does not. -/
def reach (s : State) (p a : Nat) : Nat :=
  if tierOf a = .scratch then
    let c := (a - 0x0D00_0000_0000) / 0x200000
    if coreOfPart s p c then scratchBase (c + 1) else a
  else (partOf s p).map.ranges.foldl (fun e r => if r.1 ≤ a && a < r.1 + r.2 then max e (r.1 + r.2) else e) a

/-- `n` bytes from `a` belong to partition `p` and are mapped (R249, R290): they may run through its ranges and the scratch windows of its
cores, of 2 MiB each. -/
def belongs (s : State) (p a n : Nat) : Bool :=
  mapped s a && mapped s (a + n - 1) &&
    a + n ≤ (List.range (n / 0x200000 + 40)).foldl (fun e _ => if a + n ≤ e then e else reach s p e) a

/-- A tier-2 or tier-3 address switches the thread of a synchronous command (R168). -/
def slowTier (a : Nat) : Bool := tierOf a == .t2 || tierOf a == .t3

end Sys2Proof.Machine
end

