-- ==== Sys2Proof/Machine/Flags.lean ====
section
/-!
DEFINITION. The exception flags (R160–R162): INV, OVF, UNF, INX, SAT and DEN as bits of a six-bit value, where they accumulate, and the
thread registers that hold them and the numeric controls.
-/

namespace Sys2Proof.Machine

abbrev Flags := BitVec 6

def fInv : Flags := 1
def fOvf : Flags := 2
def fUnf : Flags := 4
def fInx : Flags := 8
def fSat : Flags := 16
def fDen : Flags := 32

/-- A flag when its condition holds. -/
def flagIf (b : Bool) (f : Flags) : Flags := if b then f else 0

/-- Units that are not threads record their flags in PART_NUM_FLAGS (R162). -/
def partFlags (p : Nat) (f : Flags) : Act Unit := do
  if f ≠ 0 then wrF (rPart p 0x0108) 0 6 ((← rdF (rPart p 0x0108) 0 6) ||| f.toNat)

/-- Rounding mode of NUM_CTRL (R148, R162). -/
def rmodeOf (numCtrl : Word) : Nat := bitsOf numCtrl.toNat 0 2

/-- E5M2_NONSAT of NUM_CTRL (R151, R162). -/
def nonSatOf (numCtrl : Word) : Bool := numCtrl.getLsbD 2

/-- SR_STREAM of NUM_CTRL (R149, R162). -/
def srStreamOf (numCtrl : Word) : Nat := bitsOf numCtrl.toNat 16 16

/-- NUM_CTRL as a write leaves it: reserved bits read 0 (R10, R162). -/
def numCtrlWritten (v : Word) : Word := v &&& 0xFFFF0007

end Sys2Proof.Machine
end

