-- ==== Sys2Proof/Machine/MemAccess.lean ====
section
/-!
DEFINITION. Reads that may meet an uncorrectable error or poison (R258, R373), the address check of units that act for a partition
(R290), and the generation arithmetic of R24.
-/

namespace Sys2Proof.Machine

/-- The granules of a list that some runs of bytes (address, length) touch. -/
def touchedBy (l : List Nat) (rs : List (Nat × Nat)) : List Nat :=
  l.filter (fun g => rs.any (fun r => r.1 < 64 * g + 64 && 64 * g < r.1 + r.2))

/-- The granules of a list that `n` bytes from `a` touch. -/
def touched (l : List Nat) (a n : Nat) : List Nat := touchedBy l [(a, n)]

/-- An access to tier 3 on a failed port completes as an uncorrectable error on the unit that made it (R258). Answers whether the runs lie on
none. -/
def aliveRuns (die unit : Nat) (part : Option Nat) (rs : List (Nat × Nat)) : Act Bool := do
  let s ← look
  match rs.findSome? (fun r => t3Dead s r.1 r.2) with
  | some x =>
    raise 0x2002 2 die unit part x
    return false
  | none => return true

/-- A unit consumes runs of bytes (R258, R373): a first uncorrectable error raises ECC_UE and poisons its granule, poison raises
POISON_CONSUMED, once for each granule. Answers whether the data is good. -/
def consumeRuns (die unit : Nat) (part : Option Nat) (rs : List (Nat × Nat)) : Act Bool := do
  reachT3 rs
  let s ← look
  let ue := touchedBy s.mem2.ue rs
  let po := touchedBy s.mem2.poison rs
  for g in ue do
    modMem2 (fun m => { m with ue := m.ue.filter (· != g), poison := m.poison ++ [g] })
    raise 0x2002 2 die unit part (64 * g)
  for g in po do
    raise 0x2003 2 die unit part (64 * g)
  let alive ← aliveRuns die unit part rs
  return ue.isEmpty && po.isEmpty && alive

/-- A unit consumes `n` bytes from `a`. -/
def consume (die unit : Nat) (part : Option Nat) (a n : Nat) : Act Bool :=
  if n = 0 then return true else consumeRuns die unit part [(a, n)]

/-- A unit that acts for partition `p` checks an address it forms; outside the partition it raises MEM_UNMAPPED (R249, R290). -/
def unitCheck (die unit p a n : Nat) : Act Bool := do
  if belongs (← look) p a n then return true
  raise 0x2004 2 die unit (some p) a
  return false

/-- The same for an address that the unit writes (R258). -/
def unitWrite (die unit p a n : Nat) : Act Bool := do
  if ← unitCheck die unit p a n then aliveRuns die unit (some p) [(a, n)] else return false

/-- Generation arithmetic (R24): the generation after `g`. -/
def nextGen (g : BitVec 32) : BitVec 32 := if g = 0xFFFFFFFF then 1 else g + 1

/-- The signed 32-bit difference of two non-zero generations, with the wrapped value 0 skipped (R24). -/
def genDiff (a b : BitVec 32) : Int := if b ≤ a then (a - b).toInt else (a - b - 1).toInt

/-- `a` is newer than `b` (R24); 0 is older than every non-zero generation and newer than none. -/
def genNewer (a b : BitVec 32) : Bool :=
  if a = 0 then false else if b = 0 then true else decide (0 < genDiff a b)

/-- One 32-bit order number comes after another, where 0 is a number like any other (R80, R82). -/
def serialAfter (a b : BitVec 32) : Bool := decide (0 < (a - b).toInt)

end Sys2Proof.Machine
end

