-- ==== Sys2Proof/Machine/Groups.lean ====
section
/-!
DEFINITION. Exchange groups as committed (R88–R90), their port groups and rounds (R91, R93, R117), and the slot times of a window (R94–R96).
-/

namespace Sys2Proof.Machine

/-! ## The descriptor (R90) -/

def dEn (d : Item) : Bool := ibits d 6 1 == 1
def dPart (d : Item) : Nat := ibits d 0 6
def dVer2 (d : Item) : Bool := ibits d 7 1 == 1
def dMesh (d : Item) : Bool := ibits d 8 1 == 1
def dN (d : Item) : Nat := ibits d 16 14 + 1
def dRank (d : Item) : Nat := ibits d 32 14
/-- Port groups G (R90). -/
def dG (d : Item) : Nat := 2 ^ min 6 (ibits d 48 3)
def dPortEn (d : Item) (p : Nat) : Bool := ibits d (64 + p) 1 == 1
def dMembers (d : Item) : Nat := ibits d 128 52
def dJobGen (d : Item) : Nat := ibits d 192 32
def dGuard (d : Item) : Nat := ibits d 224 16
/-- EXCH_GRACE in ns. -/
def dGrace (d : Item) : Nat := ibits d 240 16 * 1000
def dCollQ (d : Item) : Nat := ibits d 256 12
def dAllocNs (d : Item) : Nat := ibits d 272 16
/-- COLL_TO_US in ns. -/
def dCollTo (d : Item) : Nat := ibits d 288 16 * 1000

/-- Where the staged descriptor of a group lies (R89, R90). -/
def stagedXg (s : State) (h : Nat) : Nat := fieldOf s 0x440008 6 46 * 64 + 64 * h

/-- A handle names an enabled group (R88). -/
def groupOn (s : State) (h : Nat) : Bool := h < 256 && dEn (groupOf s h).desc

/-- The generation that a new window of a group takes (R23). -/
def newGen (s : State) (h : Nat) : XgGen := ((groupOf s h).desc, (groupOf s h).members)

/-- Rank of a node, and node of a rank, of a group (R88). -/
def genRank (g : XgGen) (node : Nat) : Option Nat := (List.range g.2.length).find? (fun r => g.2[r]? == some node)
def genNode (g : XgGen) (rank : Nat) : Nat := g.2.getD rank 0xFFFF

/-! ## Ports and rounds (R91, R93, R117, R118) -/

/-- Ports of port group `g` of a SWITCHED group. -/
def portGroup (d : Item) (g : Nat) : List Nat := (List.range (64 / dG d)).map (· + g * (64 / dG d))

/-- Ports cabled to peer `c` (0 to N − 2) of a MESH group (R117). -/
def meshPorts (d : Item) (c : Nat) : List Nat := (List.range (64 / (dN d - 1))).map (fun k => k * (dN d - 1) + c)

/-- Rounds of a window. -/
def nround (d : Item) : Nat := if dMesh d then 1 else (dN d - 1 + dG d - 1) / dG d

/-- Offset of the destination of port group `g` in round `r` (R91); for MESH `g` is the peer. -/
def roundOffset (d : Item) (r g : Nat) : Option Nat :=
  if dMesh d then (if r = 1 && g + 1 < dN d then some (g + 1) else none)
  else
    let o := (r - 1) * dG d + g + 1
    if o ≤ dN d - 1 then some o else none

/-- Senders of a round: port group (or peer) with its destination rank and ports. -/
def roundSends (d : Item) (r : Nat) : List (Nat × List Nat) :=
  (List.range (if dMesh d then dN d - 1 else dG d)).filterMap (fun g =>
    (roundOffset d r g).map (fun o => ((dRank d + o) % dN d, if dMesh d then meshPorts d g else portGroup d g)))

/-- The port at the far end of port `p` (R92, R117): the one of the same number, or in a MESH group the one cabled to it. -/
def farPort (d : Item) (p : Nat) : Nat :=
  let m := dN d - 1
  if dMesh d && p < 64 / m * m then p / m * m + (m - 1 - p % m) else p

/-- The ports that a node's last ACK reported up (R93, R104); all of them while none has come. -/
def upThere (s : State) (h node : Nat) : Word := tget 0xFFFFFFFFFFFFFFFF (groupOf s h).ackMask node

/-- Ports of a list that are usable to a destination rank (R93): enabled, up, up at the destination in its last ACK. -/
def usable (s : State) (h : Nat) (g : XgGen) (dst : Nat) (ports : List Nat) : List Nat :=
  ports.filter (fun p => p < 64 && dPortEn g.1 p && linkUp s p && (upThere s h (genNode g dst)).getLsbD p)

/-- Every port that could carry frames to a destination. -/
def portsTo (d : Item) (dst : Nat) : List Nat :=
  if dMesh d then meshPorts d ((dst + dN d - dRank d) % dN d - 1) else List.range 64

/-- Some port is usable to a destination (R132). -/
def hasPath (s : State) (h : Nat) (g : XgGen) (dst : Nat) : Bool := !(usable s h g dst (portsTo g.1 dst)).isEmpty

/-! ## Times (R94–R96) -/

/-- Wire time of one full frame in 1/100 ns (R94) in the mode in use (R131); a group takes that of its slowest enabled port. -/
def tauOf (s : State) (d : Item) : Nat :=
  if dVer2 d || (List.range 64).any (fun p => dPortEn d p && fieldOf s (rPort p 8) 16 1 == 1) then 8346 else 4173

/-- P_cfg (R94, R118): the enabled ports of the smallest port group that sends in some round; all the ports cabled to a peer in a MESH
group. -/
def pCfg (d : Item) : Nat :=
  if dMesh d then max 1 (64 / (dN d - 1)) else
    let ls := (List.range (nround d)).flatMap (fun r => (roundSends d (r + 1)).map (fun x => (x.2.filter (dPortEn d)).length))
    max 1 (ls.foldl min 64)

/-- T for a largest share of `smax` bytes (R94). -/
def slotT (s : State) (d : Item) (smax : Nat) : Nat :=
  let f := (smax + 8191) / 8192
  (((f + pCfg d - 1) / pCfg d) * tauOf s d + 99) / 100 + dGuard d

/-- Count rounds and their slot (R96). -/
def countRounds (d : Item) : Nat := (dN d - 1 + 63) / 64
def countT (d : Item) : Nat := 2 + dGuard d

/-- Port `n` sends in count round `c` (from 0) of an Elastic window (R96). -/
def countPort (d : Item) (c n : Nat) : Bool :=
  if dMesh d then (List.range 64).any (fun g => c * 64 + g + 1 ≤ dN d - 1 && (meshPorts d (c * 64 + g)).contains n)
  else c * 64 + n + 1 ≤ dN d - 1

/-- Offset of the first data round of a window (R95, R96). -/
def dataStart (d : Item) (elastic : Bool) : Nat := if elastic then countRounds d * countT d + dAllocNs d else 0

/-- Length of a window (R100). -/
def windowLen (s : State) (d : Item) (elastic : Bool) (smax : Nat) : Nat := dataStart d elastic + nround d * slotT s d smax

end Sys2Proof.Machine
end

