-- ==== Sys2Proof/Machine/Liveness.lean ====
section
/-!
DEFINITION. The liveness bitmap and the drop counters of a partition (R72, R73, R132).
-/

namespace Sys2Proof.Machine

/-- SRE_PART_BASE_p, its ignored bits cleared. -/
def liveBase (s : State) (p : Nat) : Nat := fieldOf s (rSre 0 (0x600 + 8 * p)) 19 33 * 2 ^ 19

/-- A node is marked DEAD in the partition's bitmap as it stands. -/
def deadBit (s : State) (p node : Nat) : Bool := inSram (liveBase s p) && (memAt s (liveBase s p + node / 8)).getLsbD (node % 8)

/-- Errors of an exchange group come from ND0 with the handle as unit (R375, log entry 19). -/
def raiseGroup (code sev h : Nat) (part : Option Nat) (detail : Nat := 0) : Act Unit := raise code sev (dieND 0) h part 0 detail

/-- A network die marks a peer DEAD, by its node and its rank in the group; PEER_DEAD is raised once for each transition (R72). -/
def markDead (p h node rank sev : Nat) : Act Unit := do
  let s ← look
  if node ≠ 0xFFFF && !deadBit s p node then
    let b := liveBase s p
    if inSram b then
      let a := b + node / 8
      putBytes a [memAt s a ||| BitVec.ofNat 8 (1 <<< (node % 8))]
    raiseGroup 0x4006 sev h (some p) (peerDetail rank h)

/-- Clear DEAD bits of nodes (R72, R408). -/
def clearDead (p : Nat) (nodes : List Nat) : Act Unit := do
  let b := liveBase (← look) p
  if inSram b then
    for n in nodes do
      let a := b + n / 8
      putBytes a [memAt (← look) a &&& ~~~(BitVec.ofNat 8 (1 <<< (n % 8)))]

/-- A capacity drop to a node (R70, R72). -/
def countDrop (p node : Nat) : Act Unit := do
  let b := liveBase (← look) p
  if inSram b then memCtr32 (b + 0x10000 + 4 * node)

/-- Nodes the partition's bitmap marks DEAD: the copy the SRE takes at a step boundary (R73). -/
def deadNodes (s : State) (p : Nat) : List Nat :=
  let b := liveBase s p
  if !inSram b then [] else
    (s.mem.filter (fun e => b ≤ e.1 && e.1 < b + 8192)).flatMap (fun e =>
      (List.range 8).filterMap (fun k => if e.2.getLsbD k then some ((e.1 - b) * 8 + k) else none))

/-- A frame waiting in a port's queue that an exchange group would send to a node: windowed or STREAMED (R104). -/
def toNode (h node : Nat) (x : TxFrame) : Bool :=
  5 ≤ x.vc && (match x.msg with
    | .oxt m => m.xgroup == h && m.dst == node
    | _ => false)

/-- A destination has no path: nothing more goes to it, and it is DEAD at once (R28, R132). -/
def lostPath (h : Nat) (g : XgGen) (dst : Nat) : Act Unit := do
  let node := genNode g dst
  let s ← look
  for n in (List.range 64).filter (fun n => (portOf s n).txq.any (toNode h node)) do
    modPort n (fun d => { d with txq := d.txq.filter (fun x => !toNode h node x) })
  markDead (dPart g.1) h node dst 0

/-- The other ranks of a group. -/
def othersOf (g : XgGen) : List Nat := (List.range (dN g.1)).filter (· != dRank g.1)

/-- A port has gone down: the destinations of every group for which it was the last usable port (R132). -/
def portGone (n : Nat) : Act Unit := do
  for e in (← look).groups do
    let g : XgGen := (e.2.desc, e.2.members)
    if dEn g.1 && dPortEn g.1 n then
      for r in othersOf g do
        let s ← look
        if (portsTo g.1 r).contains n && (upThere s e.1 (genNode g r)).getLsbD n && !hasPath s e.1 g r then lostPath e.1 g r

/-- SRE_LIVE_CLR (R72, R408). -/
def liveClrWrite (w : Wr) : Act Unit := do
  let p := wrBits w 16 6
  if wrBits w 24 1 = 1 then
    let b := liveBase (← look) p
    if inSram b then putBytes b (List.replicate 8192 0)
  else if wrBits w 0 16 ≠ 0xFFFF then clearDead p [wrBits w 0 16]

/-- SRE_LIVE_CLR_WRITE (R72, R408). -/
def execSreLiveClrWrite (w : Wr) (s : State) : Host.Outcome State Fault Refusal :=
  finish (ownerWrite w.path (liveClrWrite w)) s

end Sys2Proof.Machine
end

