-- ==== Sys2Proof/Machine/Link.lean ====
section
/-!
DEFINITION. A port as a link: the states of R129, and what leaving UP does (R131, R132).
-/

namespace Sys2Proof.Machine

/-- The network die and the unit of a port (R121, R375). -/
def ndOf (n : Nat) : Nat := dieND (n / 8)

/-- The laser input that lights a port (R121). -/
def laserOf (n : Nat) : Nat := n / 8

/-- A counter of virtual channel `v` of port `n` (R143). -/
def rVc (n v off : Nat) : Nat := rPort n (0x200 + v * 0x20 + off)

/-- STATE of NET_PORT_STATUS (R129). -/
def portState (s : State) (n : Nat) : Nat := fieldOf s (rPort n 8) 0 3

/-- The frequency of the FTB's reference hangs on the port (R33, R140). -/
def refPort (s : State) (n : Nat) : Bool := fieldOf s 0x060000 16 1 == 1 && fieldOf s 0x060000 8 6 == n

/-- The port enters a state; the bound of the FTB counts up to now at the frequency error that held so far (R33). -/
def enterState (n st : Nat) : Act Unit := do
  if refPort (← look) n then showBound
  wrF (rPort n 8) 0 3 st
  let now := (← look).time.now
  modPort n (fun d => { d with stateAt := now, locked := false })

/-- The port enters WAIT_SIGNAL: an attempt begins, SPEED takes effect (R130, R131). -/
def enterWait (n : Nat) : Act Unit := do
  enterState n 2
  wrF (rPort n 8) 16 1 (← rdF (rPort n 0) 1 1)
  let now := (← look).time.now
  modPort n (fun d => { d with attemptAt := now })

/-- Secure associations and peers go with the link. -/
def dropSas (n : Nat) : Act Unit :=
  modPort n (fun d => { d with rxSas := [], rxPn := [], txSa := none, newSa := none, oldSaUntil := none, peers := [] })

/-- A VC6 frame of a port that went down moves to the other usable ports of its port group (R93, R131); without one it stays unacknowledged
for the tail (R106). -/
def moveVc6 (n k : Nat) (x : TxFrame) : Act Unit := do
  match x.msg with
  | .oxt m =>
    let s ← look
    let g := newGen s m.xgroup
    let dst := (genRank g m.dst).getD 0
    let ports := if dMesh g.1 then portsTo g.1 dst else portGroup g.1 (n / (64 / dG g.1))
    let us := (usable s m.xgroup g dst ports).filter (· != n)
    match us[k % us.length]? with
    | some p => sendOxt p 6 { m with udpSrc := some (0xC000 + p) }
    | none => return
  | _ => return

/-- What going down from UP does (R131, R132). Whether a frame is being received is a free value (log entry 2). -/
def leaveUp (n : Nat) (error : Bool) : Act Unit := do
  ctr32 (rPort n 0x14C)
  setEvent (rPort n 8) 32 4
  if error then raise 0x4001 0 (ndOf n) (n % 8)
  let q := (portOf (← look) n).txq
  ctr32 (rPort n 0x144) (q.filter (fun x => x.vc != 6)).length
  let cut ← drawFree
  ctr32 (rPort n 0x12C) (cut.toNat % 2)
  modPort n (fun d => { d with txq := [], pausedBy := [], xoff := [], deficit := [], turn := 0, failRaised := false })
  for x in (q.filter (fun x => x.vc == 6)).zipIdx do
    moveVc6 n x.2 x.1
  portGone n

/-- A port leaves its state because of a cause of R131, for WAIT_SIGNAL. -/
def portDown (n cause : Nat) : Act Unit := do
  let st := portState (← look) n
  enterWait n
  wrF (rPort n 8) 4 3 cause
  dropSas n
  if st = 6 then leaveUp n true

end Sys2Proof.Machine
end

