-- ==== Sys2Proof/Machine/Net.lean ====
section
/-!
DEFINITION. What every frame meets at a port: the headers it leaves with and its counters (R104, R123, R124, R139, R143), the receive checks in
their order (R126–R128, R139), the receive buffer with its flow control (R137, R138), and the generation check of a partition's frames
(R300).
-/

namespace Sys2Proof.Machine

/-! ## Addresses (R124) -/

/-- The MAC address of a port. -/
def macOf (s : State) (n : Nat) : Nat := fieldOf s (rPort n 0x18) 0 48

/-- The IPv6 address of port `p` of a node. -/
def portIp (s : State) (p node : Nat) : Nat :=
  (regOf s 0x440018).toNat <<< 64 ||| (fieldOf s 0x440020 0 32) <<< 32 ||| p <<< 16 ||| node

/-- An own port address. -/
def ownAddr (s : State) (a : Nat) : Bool :=
  bitsOf a 64 64 == (regOf s 0x440018).toNat && bitsOf a 32 32 == fieldOf s 0x440020 0 32 && bitsOf a 24 8 == 0 &&
    bitsOf a 16 8 < 64 && bitsOf a 0 16 == netNode s

/-- NET_OXT_CFG.UDP_PORT. -/
def oxtPort (s : State) : Nat := fieldOf s 0x440000 0 16

/-! ## Sending (R123, R124, R134, R139, R143) -/

/-- What passes the controlled port of port `n`, and so takes a packet number (R139). -/
def controlled (s : State) (n : Nat) : Msg → Bool
  | .pfc _ _ => false
  | .mka _ => false
  | .ptp _ _ _ _ => fieldOf s (rPort n 0x38) 0 1 == 0
  | _ => true

/-- The port of the destination that an OXT frame is addressed to (R92, R117, R124): a frame of an exchange group follows its topology. -/
def farOf (s : State) (n vc : Nat) (x : Oxt) : Nat := if 5 ≤ vc then farPort (groupOf s x.xgroup).desc n else n

/-- The IP header of a frame (R124): DSCP is the virtual channel × 8, the hop limit 64. -/
def ipHdrOf (s : State) (n vc : Nat) : Msg → Option IpHdr
  | .oxt x => some { src := portIp s n (netNode s), dst := portIp s (farOf s n vc x) x.dst, dscp := 8 * vc, udp := some (x.udpSrc, oxtPort s) }
  | .mgmt r _ _ _ =>
    some { v4 := r.v4, src := if r.v4 then fieldOf s 0x440030 0 32 else portIp s n (netNode s), dst := r.addr, dscp := 8 * vc
           udp := some (none, r.udp) }
  | .roce ip _ _ _ _ _ => some { src := portIp s n (netNode s), dst := ip, dscp := 8 * vc, udp := some (none, 4791) }
  | .neighborAdv peer addr => some { src := addr.toNat, dst := peer.toNat, dscp := 8 * vc }
  | _ => none

/-- The OXT header of a frame, in network byte order (R104, R108). -/
def oxtHdrOf (s : State) : Msg → List Byte
  | .oxt x => oxtHeader x.ver2 x.typ x.flags (netNode s) x.dst x.xgroup x.jobGen x.part x.round x.window x.psn x.offset x.payload.length
  | .mgmt _ hdr _ _ => hdr
  | _ => []

/-- The headers of a frame that leaves port `n` on a virtual channel; the control frames of a port (PFC, MKA, PTP) are untagged. -/
def txHdr (s : State) (n : Nat) (vc : Option Nat) (m : Msg) : TxHdr :=
  { dstMac := fieldOf s (rPort n 0x20) 0 48, srcMac := macOf s n
    vlan := vc.map (fun v => (fieldOf s (rPort n 0x20) 48 12, v))
    sec := if controlled s n m then (portOf s n).txSa.map (fun a => (a, (portOf s n).pn + 1)) else none
    ip := ipHdrOf s n (vc.getD 0) m, oxt := oxtHdrOf s m }

/-- The last packet number of a secure association (R139, R397). -/
def lastPn : Nat := 2 ^ 64 - 1

/-- A frame leaves a port (R143), under the next packet number of the transmit SA (R139, R397); with TX_OFF its light is blocked (R122). A port
whose packet numbers are used up without a new SAK goes down (R131, R397). -/
def emitFrame (n : Nat) (vc : Option Nat) (len : Nat) (m : Msg) : Act Unit := do
  let s ← look
  if controlled s n m then modPort n (fun d => { d with pn := d.pn + 1 })
  ctr64 (rPort n 0x100)
  ctr64 (rPort n 0x108) len
  if fieldOf s (rPort n 0) 2 1 = 0 then emit (.frame n (txHdr s n vc m) m)
  if controlled s n m && lastPn ≤ (portOf s n).pn + 1 && (portOf s n).newSa.isNone then portDown n 6

/-! ## Receive checks 1 to 5 (R126–R128, R139) -/

/-- The port receives frames: it is in SECURING, where only the uncontrolled classes pass, or UP (R129, R139). -/
def hears (s : State) (n : Nat) : Bool := 5 ≤ portState s n

/-- Check 4 (R128, R139): a frame outside the replay window is one whose packet number lies more than REPLAY_WIN below the next expected one.
A frame without a SecTAG, or under an association that is not installed, fails the integrity check. -/
def secCheck (n : Nat) (sec : Option SecTag) : Act Bool := do
  let s ← look
  let d := portOf s n
  match sec with
  | none =>
    ctr32 (rPort n 0x13C)
    return false
  | some t =>
    let next := tget 0 d.rxPn t.an.val
    if !t.icvOk || !d.rxSas.contains t.an.val then
      ctr32 (rPort n 0x13C)
      return false
    if t.pn.toNat + fieldOf s (rPort n 0x38) 16 32 < next then
      ctr32 (rPort n 0x140)
      return false
    modPort n (fun d => { d with rxPn := tput 0 d.rxPn t.an.val (max next (t.pn.toNat + 1)) })
    if t.pn.toNat = lastPn && d.newSa.isNone then portDown n 6
    return true

/-- Check 3 (R128): a tag has the VID of NET_PORT_NH, and a class that must be tagged has one. -/
def tagOk (s : State) (n : Nat) (w : Wire) (mustTag : Bool) : Bool :=
  match w.vid with
  | none => !mustTag
  | some v => v.toNat == fieldOf s (rPort n 0x20) 48 12

/-- Checks 1 to 5 of R128 on a frame of `len` bytes from destination address to FCS: one that fails a check counts there only. `mustTag`
says that its class must be tagged, `clear` that its class bypasses MACsec, `known` that a row of R126 names it. -/
def frontRx (n len : Nat) (w : Wire) (mustTag clear known : Bool) : Act Bool := do
  let s ← look
  if !hears s n then return false
  ctr64 (rPort n 0x120) w.corr.toNat
  ctr32 (rPort n 0x128) w.uncorr.toNat
  if !w.fcsOk then
    ctr32 (rPort n 0x12C)
    return false
  if 9216 < len then
    ctr32 (rPort n 0x130)
    return false
  if !tagOk s n w mustTag then
    ctr32 (rPort n 0x134)
    return false
  if !clear then
    if !(← secCheck n w.sec) then return false
  if !known then
    ctr32 (rPort n 0x138)
    return false
  return true

/-- A frame is accepted (R143). -/
def countRx (n len : Nat) : Act Unit := do
  ctr64 (rPort n 0x110)
  ctr64 (rPort n 0x118) len

/-! ## The receive buffer (R137, R138) -/

/-- PFC_EN of a virtual channel (R138). -/
def pfcEn (s : State) (n v : Nat) : Bool := v < 6 && fieldOf s (rPort n 0x30) v 1 == 1

/-- The headroom carved from the shared pool while a channel has PFC_EN (R138, R142). -/
def headroom (s : State) (n : Nat) : Nat := if fieldOf s (rPort n 0x30) 0 6 = 0 then 0 else min 1024 (fieldOf s (rPort n 0x30) 8 11) * 1024

/-- The shared pool of VC0–VC5 (R137). -/
def sharedSize : Nat := 1088 * 1024

/-- Bytes of a virtual channel beyond its own 64 KiB, which lie in the shared pool. -/
def overOwn (used : Nat) : Nat := used - 65536
def sharedUsed (s : State) (n : Nat) : Nat := (List.range 6).foldl (fun a v => a + overOwn (tget 0 (portOf s n).rxUsed v)) 0

/-- Non-headroom shared space that is free (R138). -/
def sharedFree (s : State) (n : Nat) : Nat := sharedSize - headroom s n - sharedUsed s n

/-- A frame of a virtual channel finds space (R137): VC6 and VC7 in their own; the others in their own and the shared pool, its headroom
only for a channel that has sent XOFF (R138). -/
def rxRoom (s : State) (n v len : Nat) : Bool :=
  let used := tget 0 (portOf s n).rxUsed v
  if v = 6 then used + len ≤ 512 * 1024
  else if v = 7 then used + len ≤ 64 * 1024
  else
    let room := if (portOf s n).xoff.contains v then sharedSize else sharedSize - headroom s n
    overOwn (used + len) = overOwn used || sharedUsed s n + (overOwn (used + len) - overOwn used) ≤ room

/-- What the virtual channels hold once some bytes of each have left. -/
def afterDrain (used : Tbl Nat) (drained : List Nat) : Tbl Nat := drained.zipIdx.foldl (fun t x => tput 0 t x.2 (tget 0 t x.2 - x.1)) used

/-- Bytes leave the receive buffer, channel by channel. -/
def drainRx (n : Nat) (drained : List Nat) : Act Unit := do
  if !drained.isEmpty then modPort n (fun d => { d with rxUsed := afterDrain d.rxUsed drained })

/-- The port sends XOFF for a priority (R138). -/
def sendXoff (n v : Nat) : Act Unit := do
  ctr32 (rVc n v 0x14)
  emitFrame n none 64 (.pfc v true)

/-- Check 6 (R128): the receive buffer takes a frame of virtual channel `v`, or drops it; the frame of a PFC channel that finds less than
9,216 bytes of non-headroom shared space makes the port send XOFF (R137, R138). -/
def rxBuffer (n v len : Nat) (drained : List Nat) : Act Bool := do
  drainRx n drained
  let s ← look
  if pfcEn s n v && sharedFree s n < 9216 && !(portOf s n).xoff.contains v then
    modPort n (fun d => { d with xoff := d.xoff ++ [v] })
    sendXoff n v
  if !rxRoom (← look) n v len then
    ctr32 (rVc n v 0x10)
    return false
  modPort n (fun d => { d with rxUsed := tput 0 d.rxUsed v (tget 0 d.rxUsed v + len) })
  countRx n len
  ctr64 (rVc n v 8)
  return true

/-- A frame that its row of R126 names by an own port address, a UDP port and a set of priorities. -/
def udpKnown (s : State) (w : Wire) (udp : Nat) (pcps : List Nat) : Bool :=
  !w.ext && ownAddr s w.dst.toNat && netNode s != 0xFFFF && w.udp.toNat == udp && pcps.contains w.pcp.val

/-- Bytes of an OXT frame from destination address to FCS (R94). -/
def frameLen (f : Frame) : Nat := f.payload.length + (if f.ver2 then 126 else 134)

/-- Receive checks 1 to 6 of an OXT frame on the priorities that R127 gives its TYPE. -/
def netRx (f : Frame) (pcps : List Nat) : Act Bool := do
  let s ← look
  if ← frontRx f.port (frameLen f) f.wire true false (udpKnown s f.wire (oxtPort s) pcps) then
    rxBuffer f.port f.pcp (frameLen f) f.wire.drained
  else return false

/-- A frame of a partition that R300 refuses: counted, and recorded once per step and source node. -/
def staleGen (n p src : Nat) : Act Unit := do
  ctr32 (rPart p 0x0934)
  if !(partOf (← look) p).staleSrc.contains src then
    modPart p (fun d => { d with staleSrc := d.staleSrc ++ [src] })
    raise 0x4009 0 (ndOf n) (n % 8) (some p)

/-- The frame's (PART, JOB_GEN) is current (R300); an acknowledgement or response also passes until the end of a drain. -/
def jobCurrent (s : State) (p gen : Nat) (ack : Bool) : Bool :=
  jobGen s p == gen && (jobState s p == 2 || (ack && jobState s p == 3 && (partOf s p).td == .drain))

/-- The generation check of R300. -/
def jobCheck (f : Frame) (ack : Bool) : Act Bool := do
  if jobCurrent (← look) f.part f.jobGen.toNat ack then return true
  staleGen f.port f.part f.srcNode.toNat
  return false

end Sys2Proof.Machine
end

