-- ==== Sys2Proof/Machine/Thread.lean ====
section
/-!
DEFINITION. How a command runs on a thread (R164–R173, R295, R297): the header, waits and wakes, pips, faults, asynchronous
completion, HALT.
-/

namespace Sys2Proof.Machine

/-! ## Power requests (R345, R346) -/

/-- Watts of a power class in mW; a class above DIDT_W acts as DIDT_W (R346). -/
def classMw (s : State) (c : Nat) : Nat := min (fieldOf s (0x040100 + 8 * c) 0 10) (fieldOf s 0x040008 0 10) * 1000

/-- A power request joins the PGU's queue (R345). -/
def askGrant (g : Grant) : Act Unit := do
  let now := (← look).time.now
  modPw (fun p => { p with waiting := p.waiting ++ [{ g with askedAt := now }] })

/-- GR in mW (R347). -/
def grOf (s : State) : Nat := (s.pw.held.filter (fun g => !g.paused)).foldl (fun a g => a + g.mw) 0

/-- GR has changed: its history of the last 20 µs and GRANTED_W follow (R347, R367). -/
def noteGr : Act Unit := do
  let s ← look
  let now := s.time.now
  let g := grOf s
  let old := s.pw.hist.filter (fun e => e.1 != now)
  modPw (fun p => { p with hist := (now, g) :: (old.filter (fun e => now < e.1 + 20000) ++ (old.filter (fun e => e.1 + 20000 ≤ now)).take 1) })
  wrF 0x040018 32 16 (min 0xFFFF (g / 1000))

/-- Requests and grants that a name matches are given up (R345). -/
def dropGrants (f : Grant → Bool) : Act Unit := do
  modPw (fun p => { p with held := p.held.filter (fun g => !f g), waiting := p.waiting.filter (fun g => !f g) })
  noteGr

/-- A grant is given back (R345). -/
def dropGrant (who : Holder) : Act Unit := do
  let s ← look
  if s.pw.held.any (fun g => g.who == who) || s.pw.waiting.any (fun g => g.who == who) then dropGrants (fun g => g.who == who)

/-- Some grant is held under this name. -/
def holdsGrant (s : State) (who : Holder) : Bool := s.pw.held.any (fun g => g.who == who)

/-! ## Pips (R173, R295) -/

/-- The threads of a core that wait on a pip: thread context and count, in the order of the arbiter rule (R173, R189). -/
def pipWaiters (s : State) (p ctx core pip : Nat) : List (Nat × Nat) :=
  let cand := (List.range 16).filterMap (fun tc =>
    let t := threadOf s (thrKey p ctx core tc)
    match t.wait with
    | .header q => if q = pip then some (tc, 1, t) else none
    | .pip q c _ _ => if q = pip then some (tc, c, t) else none
    | _ => none)
  let before := fun (a b : Nat × Nat × Thread) =>
    b.2.2.prio < a.2.2.prio || (a.2.2.prio == b.2.2.prio && a.2.2.since ≤ b.2.2.since)
  (sortBy before cand).map (fun x => (x.1, x.2.1))

/-- CP and the fetched commands after a command (R170). -/
def moveOn (target : Option Nat) (t : Thread) : Thread :=
  match target with
  | none => { t with cp := t.cp + 32, fetched := t.fetched.drop 1, hdrDone := false, cur := none }
  | some a => { t with cp := BitVec.ofNat 52 a, fetched := [], hdrDone := false, cur := none }

/-- Increments of pips of one core, each followed by the waiters it satisfies; a satisfied WAIT_PIP with SIG set adds its own
increment behind them (R172, R173). -/
def pipAdds : Nat → Nat → Nat → Nat → List (Nat × Nat) → Act Unit
  | 0, _, _, _, _ => pure ()
  | _, _, _, _, [] => pure ()
  | fuel + 1, p, ctx, core, (pip, n) :: rest => do
    let k := pipKey p ctx core pip
    let old := (pipOf (← look) k).toNat
    if 0xFFFF < old + n then ctr32 (rCore core 0x38)
    eff (.pip k (BitVec.ofNat 16 (min 0xFFFF (old + n))))
    let mut more := rest
    for w in pipWaiters (← look) p ctx core pip do
      let s ← look
      let v := (pipOf s k).toNat
      if w.2 ≤ v then
        eff (.pip k (BitVec.ofNat 16 (v - w.2)))
        let tk := thrKey p ctx core w.1
        let t := threadOf s tk
        match t.wait with
        | .pip _ _ rp _ =>
          eff (.thread tk (moveOn none (setP rp true { t with wait := .met })))
          dropGrant (.sync tk)
          match t.cur with
          | some c => if hSig c then more := more ++ [(hSpip c, 1)]
          | none => pure ()
        | _ => eff (.thread tk { t with wait := .met, hdrDone := true })
    pipAdds fuel p ctx core more

/-- A pip of a core in a context increments by `n` (R173). -/
def addPip (p ctx core pip n : Nat) : Act Unit := pipAdds 64 p ctx core [(pip, n)]

/-- A unit signals a pip (R295): it goes to BOUND_CTX; a core that is not the partition's gets MEM_UNMAPPED instead. -/
def unitSignal (die unit p core pip : Nat) (n : Nat := 1) : Act Unit := do
  let s ← look
  if coreOfPart s p core then addPip p (fieldOf s (rPart p 0x28) 0 4) core pip n
  else raise 0x2004 2 die unit (some p) (scratchBase core)

/-! ## Issue (R167, R170–R172, R294, R297) -/

/-- Some thread of a context is FAULTED: the context stops before its next command (R297). -/
def ctxHasFault (s : State) (p ctx : Nat) : Bool :=
  s.threads.any (fun e => e.1 / 16 / 2048 == ctxKey p ctx && e.2.st == .faulted)

/-- The thread runs and nothing keeps its issue unit from fetching for it: its context runs and is not being switched, its core is the
partition's and awake, the thread is READY (R167, R170, R294, R296, R297). -/
def canRun (s : State) (th : Thr) (w : Cmd) : Option Iss :=
  let p := th.part.val
  let pt := partOf s p
  match pt.running with
  | none => none
  | some ctx =>
    let i : Iss := { p, ctx, core := th.core.val, tc := th.tc.val, w }
    if pt.switching == .none && pt.td == .none && coreOfPart s p i.core && s.pw.awake.contains i.core &&
        (threadOf s i.key).st == .ready && !ctxHasFault s p ctx then some i else none

/-- The place of a thread context in the round robin of its core: the one after the thread last issued comes first (R167). -/
def turnPlace (s : State) (key : Nat) : Nat := (key % 16 + 15 - tget 15 s.turns (key / 16 % 2048)) % 16

/-- Another thread of the same core and context is READY with a higher PRIO, or with the same PRIO and an earlier place in the round robin
(R167). -/
def outranked (s : State) (key : Nat) : Bool :=
  s.threads.any (fun e => e.1 / 16 == key / 16 && e.2.st == .ready &&
    ((threadOf s key).prio < e.2.prio || ((threadOf s key).prio == e.2.prio && turnPlace s e.1 < turnPlace s key)))

/-- The command of a thread as it may issue now: the thread runs, and the issue unit of its core issues from it next (R167). -/
def canIssue (s : State) (th : Thr) (w : Cmd) : Option Iss :=
  match canRun s th w with
  | none => none
  | some i => if outranked s i.key then none else some i

/-- A command issues, where its thread is the next to issue: the round robin goes on behind it (R167). -/
def issue (th : Thr) (w : Cmd) : Act (Option Iss) := do
  let s ← look
  match canIssue s th w with
  | none => return none
  | some i =>
    eff (.turn i.core i.tc)
    return some i

/-- A thread faults (R171); causes 1 to 5 raise CMD_INVALID. -/
def threadFault (i : Iss) (cause : Nat) : Act Unit := do
  modThread i.key (fun t => { t with st := .faulted, faultCause := BitVec.ofNat 8 cause, cur := none, wait := .none })
  if cause ≠ 6 then raise 0x8001 2 (i.core / 64) (i.core % 64) (some i.p) 0 (faultDetail cause i.tc i.ctx)

/-- Step 5 of the header (R172), and the thread's CP moves on. -/
def endCmd (i : Iss) (target : Option Nat) : Act Unit := do
  modThread i.key (moveOn target)
  if hSig i.w then addPip i.p i.ctx i.core (hSpip i.w) 1

/-- The thread waits, with its command still to complete. -/
def startWait (i : Iss) (why : Wait) : Act Unit := do
  let now := (← look).time.now
  modThread i.key (fun t => { t with st := .waiting, wait := why, cur := some i.w, since := now })

/-- A command that switches its thread completes at once; the thread returns to READY at THREAD_WAKE (R168). -/
def endSwitch (i : Iss) (target : Option Nat) : Act Unit := do
  endCmd i target
  modThread i.key (fun t => { t with st := .waiting, wait := .met })

/-- What a waiting thread's event does: the command completes with `f` applied to the thread, and the thread may wake. -/
def endWait (k : Nat) (f : Thread → Thread) : Act Unit := do
  let t := threadOf (← look) k
  match t.cur with
  | none => modThread k (fun t => { f t with wait := .met })
  | some w =>
    modThread k (fun t => { f t with wait := .met })
    dropGrant (.sync k)
    endCmd (issOfKey k w) none

/-- The header up to step 2 (R172): answers whether the command goes on to step 3. -/
def header (i : Iss) : Act Bool := do
  let s ← look
  let t := threadOf s i.key
  if hWait i.w && !t.hdrDone then
    let k := pipKey i.p i.ctx i.core (hWpip i.w)
    let v := (pipOf s k).toNat
    if v = 0 then
      startWait i (.header (hWpip i.w))
      return false
    eff (.pip k (BitVec.ofNat 16 (v - 1)))
  if hPredEn i.w && (pOf t (hPred i.w) == (hPneg i.w == 1)) then
    endCmd i none
    return false
  return true

/-- What the body of a synchronous command answers. -/
inductive SyncEnd where
  | done
  /-- The thread switches although the command is complete (R168). -/
  | switch
  | jump (cp : Nat)
  | fault (cause : Nat)
  | wait (why : Wait)
  /-- The body has let the thread wait itself. -/
  | waiting
  deriving DecidableEq, Repr

/-- What the body of an asynchronous command answers: the flags it will OR into its thread (R161), or a fault cause. -/
inductive AsyncEnd where
  | flags (f : Flags)
  | fault (cause : Nat)
  /-- The command is under way in another unit and completes there. -/
  | later
  /-- It has items of its work list left (R206), from this place on. -/
  | more (cur : Cursor)
  /-- An error of its operands stopped it at a tile (R209). -/
  | stop (cause : Nat) (cur : Cursor)
  deriving DecidableEq, Repr

/-- A synchronous command (R169, R172); LEAVE asks for a grant at PC0. -/
def syncCmd (th : Thr) (w : Cmd) (body : Iss → Act SyncEnd) : Act Unit := do
  match (← issue th w) with
  | none => return
  | some i =>
    if !(← header i) then return
    let s ← look
    if hLeave w && !holdsGrant s (.sync i.key) then
      askGrant { who := .sync i.key, mw := classMw s 0, prio := (threadOf s i.key).prio.toNat, part := i.p, die := some (i.core / 64) }
      startWait i .grant
      return
    match (← body i) with
    | .done => dropGrant (.sync i.key); endCmd i none
    | .switch => dropGrant (.sync i.key); endSwitch i none
    | .jump a => dropGrant (.sync i.key); endCmd i (some a)
    | .fault c => dropGrant (.sync i.key); threadFault i c
    | .wait why => startWait i why
    | .waiting => return

/-- The lowest free slot for an asynchronous command (R169). -/
def freeSlot (t : Thread) : Option Nat := (List.range 16).find? (fun k => !t.asyncs.any (fun e => e.1 == k))

def putAsync (k slot : Nat) (a : AsyncCmd) : Act Unit :=
  modThread k (fun t => { t with asyncs := (t.asyncs.filter (fun e => e.1 < slot)) ++ (slot, a) :: t.asyncs.filter (fun e => slot < e.1) })

def dropAsync (k slot : Nat) : Act Unit :=
  modThread k (fun t => { t with asyncs := t.asyncs.filter (fun e => e.1 != slot) })

/-! ### Engines and their order (R169, R197, R238) -/

/-- The engine of an asynchronous command: 1 move engine, 2 fabric, 3 array and sparse unit, 4 Reed path, 5 Sheller, 6 Hummock, 7 vector
engine, and from 16 and 32 on the routing engines and step controllers of the Sedge dies. -/
def engineOf (w : Cmd) : Nat :=
  match hOpcode w with
  | 0x10 => 1
  | 0x11 => 1
  | 0x12 => 1
  | 0x14 => 2
  | 0x20 => 3
  | 0x21 => 3
  | 0x22 => 4
  | 0x23 => 3
  | 0x30 => 3
  | 0x31 => 5
  | 0x32 => 6
  | 0x60 => 16 + cf w 4 8 2
  | 0x62 => 32 + cf w 4 0 16
  | _ => 7

/-- Two threads feed one engine `e`: the array and the vector engine serve the threads of their core (R197, R238), a Sheller the cores of its
core group (R225), a Hummock those of its die (R232); of the others each thread's commands keep their own order (R169). -/
def sameEngine (e k k' : Nat) : Bool :=
  match e with
  | 3 => k / 16 == k' / 16
  | 7 => k / 16 == k' / 16
  | 5 => k / 16 % 2048 / 32 == k' / 16 % 2048 / 32
  | 6 => k / 16 % 2048 / 64 == k' / 16 % 2048 / 64
  | _ => k == k'

/-- The tile buffers that a vector command reads or writes, a bit each (R239, R241). -/
def vecUses (w : Cmd) : Nat :=
  let d := 1 <<< cf w 4 0 2
  let a := 1 <<< cf w 4 2 2
  let b := 1 <<< cf w 4 4 2
  let c := 1 <<< cf w 4 6 2
  let bsrc := if cf w 6 0 2 = 1 then 0 else b
  match hOpcode w with
  | 0x40 => d
  | 0x41 => a
  | 0x42 => d ||| a ||| bsrc
  | 0x44 => d ||| a ||| bsrc ||| c
  | 0x47 => d ||| a ||| (if cb w 5 = 0 then 0 else b)
  | 0x48 => d ||| a ||| b
  | 0x49 => d ||| a ||| c
  | _ => d ||| a

/-- A vector command of the move port; the others are the ALU's (R237). -/
def vecMove (w : Cmd) : Bool := hOpcode w == 0x40 || hOpcode w == 0x41

/-- Two vector commands that do not overlap: they share a buffer or the part of the engine (R237, R238). -/
def vecClash (a b : Cmd) : Bool := vecMove a == vecMove b || vecUses a &&& vecUses b != 0

/-- A command that has issued and not started. -/
def unstarted (a : AsyncCmd) : Bool := a.phase == .waitGrant || a.phase == .queued

/-- Of two commands to one engine, `a` at thread `ka` keeps the other, at thread `k` and place `n`, from starting. The array, a Sheller and a
Hummock run one command at a time, the vector engine one on each part and each buffer; the commands of the others start in order and
overlap. A Sheller takes the highest PRIO first, then the order of arrival (R189, R225). -/
def keepsBack (s : State) (ka : Nat) (a : AsyncCmd) (k : Nat) (w : Cmd) (n : Nat) : Bool :=
  let started := a.phase == .running || a.phase == .done
  match engineOf w with
  | 3 => started || (unstarted a && a.seq < n)
  | 6 => started || (unstarted a && a.seq < n)
  | 5 => started || (unstarted a && ((threadOf s k).prio < (threadOf s ka).prio || ((threadOf s k).prio == (threadOf s ka).prio && a.seq < n)))
  | 7 => vecClash a.w w && (started || (unstarted a && a.seq < n))
  | _ => unstarted a && a.seq < n

/-- Some command to the engine of the command `w` keeps it from starting at place `n` (R169). -/
def engineAhead (s : State) (k : Nat) (w : Cmd) (n : Nat) : Bool :=
  s.threads.any (fun t => sameEngine (engineOf w) t.1 k &&
    t.2.asyncs.any (fun a => engineOf a.2.w == engineOf w && keepsBack s t.1 a.2 k w n))

/-- The place of the next command that issues to an engine, behind those that have not started. -/
def nextSeq (s : State) (k : Nat) (w : Cmd) : Nat :=
  s.threads.foldl (fun m t => if sameEngine (engineOf w) t.1 k || t.1 / 16 == k / 16 then
    t.2.asyncs.foldl (fun m a => if unstarted a.2 then max m (a.2.seq + 1) else m) m else m) 1

/-- No earlier command keeps a command that issues now from starting. -/
def engineFree (s : State) (i : Iss) : Bool := !engineAhead s i.key i.w (nextSeq s i.key i.w)

/-- The bucket table of a partition (R202). -/
def bucketBase (s : State) (p : Nat) : Nat := fieldOf s (rPart p 0x0110) 11 41 * 2 ^ 11

/-- The addresses from which a command takes MDESCs: its address operands, and the Y MDESC that CONV's geometry names (R203). -/
def descAddrs (s : State) (w : Cmd) : List Nat :=
  [8, 12, 16, 20, 24].map (cAddr w) ++ (if hOpcode w = 0x21 then [ibits (memItem s (cAddr w 24)) 0 52] else [])

/-- What a command reads as it issues (R161, R176, R202, R219). -/
def issuedNow (s : State) (i : Iss) : Issued :=
  let t := threadOf s i.key
  let ds := descAddrs s i.w
  let bs := ds.map (fun a => bucketBase s i.p + 8 * ibits (memItem s a) 200 8)
  { g := t.g, numCtrl := t.numCtrl, numSeed := t.numSeed, thresh := fieldOf s (rPart i.p 0x0120) 0 9
    items := (ds ++ bs).map (fun a => (a, (memItem s a).toNat)) }

/-- A command that has issued and starts later: with its grant, or once the commands ahead of it have started. -/
def heldBack (s : State) (i : Iss) (grant : Bool) : AsyncCmd :=
  { w := i.w, phase := if grant then .waitGrant else .queued, seq := nextSeq s i.key i.w, grant, held := some (issuedNow s i) }

/-- An asynchronous command (R169, R172): `heavy` says whether it needs a grant whatever LEAVE holds; `body` runs at issue, or when the
grant is given (PGU_GRANT) and the earlier commands to its engine have started. -/
def asyncCmd (th : Thr) (w : Cmd) (pclass : Nat) (heavy : Iss → Act Bool) (body : Iss → Nat → Act AsyncEnd) : Act Unit := do
  match (← issue th w) with
  | none => return
  | some i =>
    if !(← header i) then return
    let t := threadOf (← look) i.key
    match freeSlot t with
    | none => startWait i .asyncRoom
    | some slot =>
      let hv ← heavy i
      if hLeave w || hv then
        let s ← look
        putAsync i.key slot (heldBack s i true)
        askGrant { who := .cmd i.key slot, mw := classMw s pclass, prio := t.prio.toNat, part := i.p, die := some (i.core / 64) }
        modThread i.key (moveOn none)
      else if !engineFree (← look) i then
        let s ← look
        putAsync i.key slot (heldBack s i false)
        modThread i.key (moveOn none)
      else
        let held := some (issuedNow (← look) i)
        putAsync i.key slot { w, phase := .running }
        match (← body i slot) with
        | .flags f =>
          putAsync i.key slot { w, phase := .done, flags := f }
          modThread i.key (moveOn none)
        | .later => modThread i.key (moveOn none)
        | .more cur =>
          putAsync i.key slot { w, phase := .running, held, cur := some cur }
          modThread i.key (moveOn none)
        | .stop c cur =>
          putAsync i.key slot { w, phase := .stopped, held, cur := some cur }
          modThread i.key (moveOn none)
          threadFault i c
        | .fault c =>
          dropAsync i.key slot
          threadFault i c

/-! ## Completions of rings that a thread posts (R326, R331, R332) -/

/-- A ring is enabled. -/
def ringEn (s : State) (r : Nat) : Bool := fieldOf s (rRing r 2) 11 1 == 1

/-- The completion ring has no free slot for one more completion than those that wait (R332). -/
def cqFull (s : State) (r more : Nat) : Bool :=
  2 ^ fieldOf s (rRing r 2) 4 4 ≤ (fieldOf s (rRing r 3) 48 16 + 2 ^ 16 - fieldOf s (rRing r 4) 0 16) % 2 ^ 16 + more

/-- A completion waits for a slot: the ring starts no further entry (R332). -/
def cqStalled (s : State) (r : Nat) : Bool := !(ringOf s r).hold.isEmpty && cqFull s r 0

/-- A completion joins a ring's holding buffer, and is counted where it finds the CQ full (R331, R332). -/
def postCqe (r : Nat) (c : Cqe) : Act Unit := do
  let s ← look
  let ft := ftNs s
  if cqFull s r (ringOf s r).hold.length then ctr32 (0x140000 + r * 0x20 + 0x1C)
  modRing r (fun g => { g with hold := g.hold ++ [if c.src = 2 then c else { c with result64 := ft }] })

/-- A ring entry is over: it is outstanding no longer. -/
def retireEntry (r idx : Nat) : Act Unit := modRing r (fun g => { g with entries := g.entries.filter (fun e => e.idx != idx) })

/-- HALT ends (R175, R326): the completion is posted, or the thread waits for room in the holding buffer. -/
def haltEnd (k status : Nat) : Act Unit := do
  let s ← look
  let t := threadOf s k
  let free : Act Unit := do
    match t.cur with
    | some w => endCmd (issOfKey k w) none
    | none => pure ()
    modThread k (fun t => { t with st := .free, wait := .none, ref := none, cur := none })
    match t.ref with
    | some r => if r.src = 0 then retireEntry r.ring r.idx
    | none => pure ()
  match t.ref with
  | none => free
  | some r =>
    if r.src = 1 && !ringEn s r.ring then
      ctr32 0x148004
      free
    else if r.noCqe then free
    else if 256 ≤ (ringOf s r.ring).hold.length then modThread k (fun t => { t with wait := .cqRoom status })
    else
      postCqe r.ring { tag := r.tag, src := r.src, status := 0, result := status }
      free

/-- An outstanding asynchronous command completes (R161, R169, R172): flags, the pip, its grant, and whoever waited for it. -/
def asyncDone (k slot : Nat) : Act Unit := do
  let t := threadOf (← look) k
  match t.asyncs.find? (fun e => e.1 == slot) with
  | none => return
  | some (_, a) =>
    dropAsync k slot
    modThread k (orFlags a.flags)
    dropGrant (.cmd k slot)
    let i := issOfKey k a.w
    if hSig a.w then addPip i.p i.ctx i.core (hSpip a.w) 1
    let t := threadOf (← look) k
    match t.wait with
    | .asyncRoom => reissue k
    | .drain st => if t.asyncs.isEmpty then haltEnd k st
    | _ => return

end Sys2Proof.Machine
end

