-- ==== Sys2Proof/Machine/Fabric.lean ====
section
/-!
DEFINITION. The memory-semantic fabric (R269–R288): the Fabric Access Table and the Rack Window Table, requests and responses, the home of a
line with its directory and response cache, the coherence domain with its leases, and the three fabric commands of a thread (R188).
-/

namespace Sys2Proof.Machine

/-! ## Settings (R287, R288) -/

def loadToNs (s : State) : Nat := min 16000 (max 4 (fieldOf s 0x300000 0 14)) * 1000
def retxNs (s : State) : Nat := max 1 (fieldOf s 0x300000 16 8) * 1000
/-- A requester counter of a partition. -/
def rFab (p off : Nat) : Nat := 0x320000 + p * 0x40 + off

/-! ## The Fabric Access Table (R273, R274) -/

/-- FAT entry `f` permits an access; `perm` is its permission bit. -/
def fatEntryOk (s : State) (p node off len perm f : Nat) : Bool :=
  let a := 0x310000 + 0x10 * f
  let base := fieldOf s (a + 8) 0 32 * 65536
  fieldOf s a 6 1 == 1 && fieldOf s a 0 6 == p && fieldOf s a perm 1 == 1 && fieldOf s a 16 16 ≤ node && node ≤ fieldOf s a 32 16 &&
    base ≤ off && off + len ≤ base + fieldOf s (a + 8) 32 32 * 65536

/-- Permission bit of a FAT entry by OP: loads, stores, atomics. -/
def fatPerm (op : Nat) : Nat := if op = 0 then 7 else if op = 1 then 8 else 9

/-- The entries of the FAT that hold anything but their reset value. -/
def fatUsed (s : State) : List Nat :=
  ((s.regs.filter (fun e => 0x310000 ≤ e.1 && e.1 < 0x320000)).map (fun e => (e.1 - 0x310000) / 0x10)).dedup

/-- Some entry permits the access (R273). -/
def fatOk (s : State) (p node off len op : Nat) : Bool := (fatUsed s).any (fatEntryOk s p node off len (fatPerm op))

/-! ## The Rack Window Table (R271, R272) -/

/-- Node and offset of a rack-window address; none where its slice is not mapped. -/
def rackOf (s : State) (a : Nat) : Option (Nat × Nat) :=
  let o := a - 0x1000_0000_0000
  let e := 0x308000 + 8 * (o >>> 36)
  let node := fieldOf s e 0 16
  if fieldOf s e 28 1 = 1 && node ≠ 0xFFFF then some (node, fieldOf s e 16 12 <<< 36 ||| o % 2 ^ 36) else none

/-! ## Sending and completing requests (R276, R277, R283–R286) -/

/-- Core of a request. -/
def FabReq.core (r : FabReq) : Nat := r.thread / 16 % 2048

/-- Requests of a core that are out, and of a network die. -/
def coreOut (s : State) (core : Nat) : Nat := (s.fab.reqs.filter (fun r => r.op != 4 && r.port != none && r.core == core)).length
def ndOut (s : State) (nd : Nat) : Nat := (s.fab.reqs.filter (fun r => match r.port with
  | some n => n / 8 == nd
  | none => false)).length

def setReq (r : FabReq) : Act Unit := modFab (fun f => { f with reqs := f.reqs.map (fun x => if x.id = r.id then r else x) })

/-- First send of a request, where the limits of R277, a port (R283) and a commit of the domain (R279) let it go. -/
def firstSend (r : FabReq) : Act Unit := do
  let s ← look
  match fabRoute s r.node r.off r.id 0 with
  | none => return
  | some (n, _) =>
    if (r.op ≠ 4 && 64 ≤ coreOut s r.core) || 32768 ≤ ndOut s (n / 8) || (r.coh && s.fab.goPending) then return
    let _ ← sendFabReq r.node r.part r.id r.op r.size 0 r.coh r.atomOp r.off (if r.size = 7 then r.len else 0) r.data
    setReq { r with port := some n, sentAt := s.time.now, lastSent := s.time.now }

/-- Requests that wait to be sent go as far as they may. -/
def flushUnsent : Act Unit := do
  for r in (← look).fab.reqs do
    if r.port = none && r.node ≠ netNode (← look) then firstSend r

/-- The thread of a core that waits longest for room, by priority (R189, R277), issues again. -/
def serveFabRoom (core : Nat) : Act Unit := do
  let s ← look
  let ws := s.threads.filter (fun e => e.1 / 16 % 2048 == core && e.2.wait == .fabRoom)
  let best := ws.foldl (fun (a : Option (Nat × Thread)) e => match a with
    | none => some e
    | some b => if b.2.prio < e.2.prio || (b.2.prio == e.2.prio && e.2.since < b.2.since) then some e else a) none
  match best with
  | none => return
  | some e => reissue e.1

/-- A request leaves the outstanding ones. -/
def endReq (r : FabReq) : Act Unit := do
  modFab (fun f => { f with reqs := f.reqs.filter (fun x => x.id != r.id) })
  flushUnsent
  serveFabRoom r.core

/-- Registers of a group of `n` bytes (R188). -/
def regCount (n : Nat) : Nat := (n + 7) / 8

/-- Write bytes to a register group; a load below 8 bytes is zero-extended. -/
def putRegs (g : Nat) (bs : List Byte) (t : Thread) : Thread :=
  (List.range (regCount bs.length)).foldl (fun t k => setG (g + k) (BitVec.ofNat 64 (leNat ((bs.drop (8 * k)).take 8))) t) t

/-- Bytes of a register group. -/
def getRegs (g n : Nat) (t : Thread) : List Byte :=
  ((List.range (regCount n)).flatMap (fun k => natBytes 8 (gOf t (g + k)).toNat)).take n

/-- The error value in every register of the group, and p7 (R285). -/
def putError (g n : Nat) (t : Thread) : Thread :=
  setP 7 true ((List.range (regCount n)).foldl (fun t k => setG (g + k) 0xBAD00000BAD00000 t) t)

/-- An asynchronous command is done but for its completion event (R169). -/
def slotDone (k slot : Nat) (f : Flags) : Act Unit :=
  modThread k (fun t => { t with asyncs := t.asyncs.map (fun e => if e.1 = slot then (e.1, { e.2 with phase := .done, flags := f }) else e) })

/-- The lines of a set of the remote line cache, and its replacement (R280). -/
def rlcInsert (node line : Nat) (data : List Byte) : Act Unit := do
  modFab (fun f =>
    let ls := f.lines.filter (fun x => !(x.node == node && x.line == line))
    let set := Config.rlcSet node line
    let mates := ls.filter (fun x => Config.rlcSet x.node x.line == set)
    let ls := if mates.length < 16 then ls else
      match mates.foldl (fun (a : Option RlcLine) x => match a with
        | none => some x
        | some b => if x.lru < b.lru then some x else a) none with
      | none => ls
      | some v => ls.erase v
    { f with lines := ls ++ [{ node, line, data, lru := f.lruClock }], lruClock := f.lruClock + 1 })

/-- A requester drops its copies of a range (R281). -/
def rlcDrop (node a n : Nat) : Act Unit :=
  modFab (fun f => { f with lines := f.lines.filter (fun x => !(x.node == node && a < 128 * x.line + 128 && 128 * x.line < a + n)) })

/-- This device holds a lease on a member's home (R282). -/
def leaseHeld (s : State) (node : Nat) : Bool :=
  match memberOf s node with
  | some j => s.time.now < tget 0 s.fab.lease j
  | none => false

/-- What a move does with a request of its own that has ended: `data` is none on failure (Move.lean completes the move). -/
def stageMove (r : FabReq) (data : Option (List Byte)) : Act Unit := do
  let bs := match data with
    | some d => d
    | none => (List.range r.len).map (fun k => BitVec.ofNat 8 (0xBAD00000BAD00000 >>> (8 * (k % 8))))
  let a := r.rack.getD 0
  modFab (fun f => { f with moves := f.moves.map (fun m =>
    if m.thread = r.thread && some m.slot = r.slot then
      { m with staged := if r.op = 0 then bs.zipIdx.foldl (fun t x => tput 0 t (a + x.2) x.1) m.staged else m.staged
               failed := m.failed || data.isNone }
    else m) })

/-- An outstanding request ends well with its data (R278). -/
def reqOk (r : FabReq) (data : List Byte) (nocache : Bool) : Act Unit := do
  let s ← look
  ctr64 (rFab r.part 8) r.len
  if r.rack.isSome then stageMove r (some data)
  else if r.op = 0 then
    let mine := if r.coh then (data.drop (r.off % 128)).take r.len else data.take r.len
    if r.coh && !nocache && !r.crossed && leaseHeld s r.node then rlcInsert r.node (r.off / 128) (data.take 128)
    endWait r.thread (putRegs r.dstG mine)
  else if r.op = 2 then endWait r.thread (putRegs r.dstG (data.take r.len))
  else match r.slot with
    | some k => slotDone r.thread k 0
    | none => pure ()
  endReq r

/-- A request fails: 0x3001 FABRIC_TIMEOUT or 0x3002 FABRIC_REFUSED (R285). The network die of its port is the source. -/
def reqFail (r : FabReq) (code : Nat) : Act Unit := do
  let s ← look
  let n := r.port.getD 0
  let first := !(s.fab.moves.any (fun m => m.thread == r.thread && some m.slot == r.slot && m.failed))
  if r.op = 4 then endReq r
  else
    if first then raise code 2 (ndOf n) (n % 8) (some r.part) (r.node <<< 48 ||| r.off)
    if r.rack.isSome then
      stageMove r none
      modThread r.thread (setP 7 true)
    else if r.op = 1 then
      modThread r.thread (setP 7 true)
      match r.slot with
      | some k => slotDone r.thread k 0
      | none => pure ()
    else endWait r.thread (putError r.dstG r.len)
    endReq r

/-! ## The home (R269, R275, R276, R280, R281, R284) -/

/-- The region of the target permits the operation (R269). -/
def fabRegionOk (a op : Nat) : Bool :=
  match tierOf a with
  | .t1 => true
  | .t2 => true
  | .t3 => true
  | .sram => true
  | .scratch => op != 2
  | _ => false

/-- An access of `n` bytes is naturally aligned; a request of SIZE 7 lies in one 8 KiB range (R188, R276). -/
def fabAligned (size off n : Nat) : Bool :=
  if size = 7 then n != 0 && n ≤ 8192 && off / 8192 == (off + n - 1) / 8192 else off % n == 0

/-- The new value of an atomic on `w` bits (R188). -/
def atomNew (op w : Nat) (old a b : Nat) : Nat :=
  let sg := fun (x : Nat) => if 2 ^ (w - 1) ≤ x then (x : Int) - 2 ^ w else (x : Int)
  match op with
  | 0 => (old + a) % 2 ^ w
  | 1 => a
  | 2 => if old = b then a else old
  | 3 => old &&& a
  | 4 => old ||| a
  | 5 => old ^^^ a
  | 6 => if sg old < sg a then a else old
  | 7 => if sg a < sg old then a else old
  | 8 => max old a
  | 9 => min old a
  | _ => old

/-- Send a FAB_RSP on the port where the request came (R276, R283). -/
def sendRsp (n dst part id status : Nat) (nocache : Bool) (data : List Byte) : Act Unit := do
  let s ← look
  sendOxt n 4 { typ := 9, dst, jobGen := jobGen s part, part, psn := id
                payload := natBytes 1 status ++ natBytes 1 (if nocache then 1 else 0) ++ beBytes 2 data.length ++ [0, 0, 0, 0] ++ data }

/-- The answer of a home operation: a frame, or the completion of this device's own request. -/
def answer (h : HomeOp) (status : Nat) (nocache : Bool) (data : List Byte) : Act Unit := do
  match h.port with
  | some n => sendRsp n h.src h.part h.id status nocache data
  | none =>
    match (← look).fab.reqs.find? (fun r => r.id == h.id) with
    | none => return
    | some r => if status = 0 then reqOk r data nocache else reqFail r 0x3002

/-- Keep the response of a store or atomic (R284). -/
def keepRsp (h : HomeOp) (status : Nat) (data : List Byte) : Act Unit := do
  if h.port.isSome then
    let now := (← look).time.now
    modFab (fun f => { f with rsp := f.rsp ++ [{ src := h.src, id := h.id, performedAt := now, status, data }] })

/-- Source of errors met while serving: the network die of the port, or ND0 for this device's own request. -/
def serveDie (h : HomeOp) : Nat × Nat := (ndOf (h.port.getD 0), h.port.getD 0 % 8)

/-- The home performs an operation whose invalidations are done (R280). -/
def performHome (h : HomeOp) : Act Unit := do
  let s ← look
  let src := serveDie h
  match h.op with
  | 0 =>
    let mem := memberOf s h.src
    let coh := h.coh && mem.isSome && (tierOf h.off == .t1 || tierOf h.off == .t2)
    let a := if h.coh then h.off / 128 * 128 else h.off
    let n := if h.coh then 128 else h.len
    if !(← consume src.1 src.2 (some h.part) a n) then
      ctr32 0x321010
      answer h 1 true []
    else
      if h.port.isSome then ctr64 0x321000
      match mem with
      | some j => if coh then modFab (fun f => { f with dir := tput 0 f.dir (h.off / 128) (tget 0 f.dir (h.off / 128) ||| (1 <<< j)) })
      | none => pure ()
      answer h 0 (!coh) (memBytes (← look) a n)
  | 1 =>
    if !(← aliveRuns src.1 src.2 (some h.part) [(h.off, h.len)]) then
      ctr32 0x321010
      answer h 1 true []
    else
      storeBytes h.off (h.data.take h.len)
      if h.port.isSome then ctr64 0x321000
      keepRsp h 0 []
      answer h 0 true []
  | 2 =>
    if !(← consume src.1 src.2 (some h.part) h.off h.len) then
      ctr32 0x321010
      answer h 1 true []
    else
      let old := memNat (← look) h.off h.len
      let new := atomNew h.atomOp (8 * h.len) old (leNat (h.data.take h.len)) (leNat ((h.data.drop h.len).take h.len))
      storeBytes h.off (natBytes h.len new)
      if h.port.isSome then ctr64 0x321000
      keepRsp h 0 (natBytes h.len old)
      answer h 0 true (natBytes h.len old)
  | _ => return

/-- Two home operations touch a common line. -/
def HomeOp.meets (a b : HomeOp) : Bool :=
  a.off / 128 ≤ (b.off + max 1 b.len - 1) / 128 && b.off / 128 ≤ (a.off + max 1 a.len - 1) / 128

/-- The same request. -/
def HomeOp.same (a b : HomeOp) : Bool := a.op == b.op && a.src == b.src && a.id == b.id && a.off == b.off

/-- Operations at the home go on in arrival order per line (R281): a store or atomic first sends its INVALs. -/
def pumpHome : Nat → Act Unit
  | 0 => pure ()
  | fuel + 1 => do
    let s ← look
    let ops := s.fab.homeOps
    let ready := (List.range ops.length).find? (fun i => match ops[i]? with
      | none => false
      | some h => if h.started then h.waitFor.isEmpty else (ops.take i).all (fun b => !b.meets h))
    match ready with
    | none => pure ()
    | some i =>
      match ops[i]? with
      | none => pure ()
      | some h =>
        if h.started then
          modFab (fun f => { f with homeOps := f.homeOps.eraseIdx i })
          performHome h
        else
          let ws ← if h.op = 0 then pure [] else invalLines (linesOf h.off h.len) h.src h.part
          modFab (fun f => { f with homeOps := f.homeOps.set i { h with started := true, waitFor := ws, sentAt := s.time.now } })
        pumpHome fuel

/-- A checked request joins the home's order. -/
def homeJoin (h : HomeOp) : Act Unit := do
  modFab (fun f => { f with homeOps := f.homeOps ++ [h] })
  pumpHome (2 * (← look).fab.homeOps.length + 8)

/-- A refused request (R275). -/
def refuseReq (h : HomeOp) : Act Unit := do
  ctr32 0x321010
  answer h 1 true []

/-- A byte of a payload. -/
def pb (f : Frame) (i : Nat) : Nat := (f.payload.getD i 0).toNat

/-- The request a FAB_REQ frame carries (R276): sub-header and data. -/
def homeOf (f : Frame) : HomeOp × Nat :=
  let size := pb f 1 % 8
  let len := if size = 7 then beNat ((f.payload.drop 10).take 2) else 2 ^ size
  ({ op := pb f 0, src := f.srcNode.toNat, id := f.psn.toNat, part := f.part, port := some f.port.val, len
     atomOp := pb f 2 % 16, coh := bitsOf (pb f 1) 5 1 == 1, off := beNat ((f.payload.drop 4).take 6), data := f.payload.drop 16 }, size)

/-- The operation is one the home performs, in form (R269, R275, R276). -/
def homeFormOk (h : HomeOp) (size : Nat) : Bool :=
  fabRegionOk h.off h.op && fabAligned size h.off h.len &&
    (h.op == 0 || (h.op == 1 && h.len ≤ h.data.length) ||
      (h.op == 2 && (size == 2 || size == 3) && h.atomOp ≤ 9 && h.len ≤ h.data.length))

/-- A LOAD, STORE or ATOMIC of another device (R275, R280, R284). -/
def serveReq (f : Frame) : Act Unit := do
  let (h, size) := homeOf f
  let s ← look
  if !(belongs s h.part h.off h.len) || !homeFormOk h size then refuseReq h
  else if h.op = 0 then homeJoin h
  else
    match s.fab.rsp.find? (fun e => e.src == h.src && e.id == h.id) with
    | some e => sendRsp f.port h.src h.part h.id e.status true e.data
    | none =>
      if s.fab.homeOps.any (fun x => x.same h) then return
      if fieldOf s 0x300038 23 29 = 0 ||
          65536 ≤ s.fab.rsp.length + (s.fab.homeOps.filter (fun x => x.port.isSome && x.op != 0)).length then
        sendRsp f.port h.src h.part h.id 2 true []
      else homeJoin h

/-- An INVAL at a sharer (R280, R281). -/
def serveInval (f : Frame) : Act Unit := do
  let (h, _) := homeOf f
  let line := h.off / 128
  rlcDrop h.src (128 * line) 128
  modFab (fun x => { x with reqs := x.reqs.map (fun r =>
    if r.coh && r.op = 0 && r.node = h.src && r.off / 128 = line then { r with crossed := true } else r) })
  ctr64 0x321000
  sendRsp f.port h.src h.part h.id 0 true []

/-- A PING (R282): a member that owes an acknowledgement gets the INVAL again instead of an answer. -/
def servePing (f : Frame) : Act Unit := do
  let (h, _) := homeOf f
  let s ← look
  let owed := (s.fab.homeOps.flatMap (fun o => o.waitFor.filterMap (fun w =>
    if s.fab.domain[w.member]? == some h.src then some (o, w) else none)))
  match owed with
  | [] =>
    ctr64 0x321000
    sendRsp f.port h.src h.part h.id 0 true []
  | os =>
    for x in os do
      let _ ← sendFabReq h.src x.1.part x.2.id 3 0 x.2.tries false 0 (128 * x.2.line) 0 []

/-- A FAB_REQ by its OP (R276); any other OP is refused. -/
def fabReqRx (f : Frame) : Act Unit := do
  if !(← netRx f [4]) then return
  if !(← jobCheck f false) then return
  match pb f 0 with
  | 3 => serveInval f
  | 4 => servePing f
  | _ => serveReq f

/-! ## Responses (R276, R281, R284–R286) -/

/-- A response to a request of this device, or an acknowledgement of an INVAL. -/
def fabRspAct (f : Frame) : Act Unit := do
  if !(← netRx f [4]) then return
  if !(← jobCheck f true) then
    -- an answer to a request of a job whose drain has ended (R301)
    if !genNewer f.jobGen (BitVec.ofNat 32 (jobGen (← look) f.part)) then ctr32 (rFab f.part 0x2C)
    return
  let s ← look
  let id := f.psn.toNat
  let status := pb f 0
  let data := f.payload.drop 8
  match s.fab.reqs.find? (fun r => r.id == id && r.port.isSome) with
  | some r =>
    match status with
    | 0 =>
      if r.op = 4 then
        match memberOf s r.node with
        | some j => modFab (fun x => { x with lease := tput 0 x.lease j (max (tget 0 x.lease j) (r.sentAt + loadToNs s / 2)) })
        | none => pure ()
        endReq r
      else reqOk r data (bitsOf (pb f 1) 0 1 == 1)
    | 1 =>
      ctr32 (rFab r.part 0x20)
      reqFail r 0x3002
    | 2 => ctr32 (rFab r.part 0x28)
    | _ => return
  | none =>
    if s.fab.homeOps.any (fun o => o.waitFor.any (fun w => w.id == id)) then
      modFab (fun x => { x with homeOps := x.homeOps.map (fun o => { o with waitFor := o.waitFor.filter (fun w => w.id != id) }) })
      pumpHome (2 * s.fab.homeOps.length + 8)
    else ctr32 (rFab f.part 0x2C)

/-- The retransmission interval of a request or of an INVAL passes (R284). -/
def fabRetxAct (id : Nat) : Act Unit := do
  let s ← look
  match s.fab.reqs.find? (fun r => r.id == id) with
  | some r =>
    if r.port.isSome then
      advanceTo (r.lastSent + retxNs s)
      let t := r.tries + 1
      ctr32 (rFab r.part 0x18)
      let n ← sendFabReq r.node r.part r.id r.op r.size t r.coh r.atomOp r.off (if r.size = 7 then r.len else 0) r.data
      let now := (← look).time.now
      setReq { r with port := n.orElse (fun _ => r.port), tries := t, lastSent := now }
    else if r.node ≠ netNode s then firstSend r
  | none =>
    for o in s.fab.homeOps do
      for w in o.waitFor do
        if w.id = id then
          advanceTo (w.lastSent + retxNs s)
          ctr32 (rFab o.part 0x18)
          let _ ← sendFabReq (s.fab.domain.getD w.member 0) o.part id 3 0 (w.tries + 1) false 0 (128 * w.line) 0 []
          let now := (← look).time.now
          modFab (fun x => { x with homeOps := x.homeOps.map (fun q =>
            { q with waitFor := q.waitFor.map (fun y => if y.id = id then { y with tries := y.tries + 1, lastSent := now } else y) }) })

/-- LOAD_TO_US after the first send a request fails (R285). -/
def fabTimeoutAct (id : Nat) : Act Unit := do
  let s ← look
  match s.fab.reqs.find? (fun r => r.id == id && r.port.isSome) with
  | none => return
  | some r =>
    advanceTo (r.sentAt + loadToNs s)
    if r.op ≠ 4 then ctr32 (rFab r.part 0x1C)
    reqFail r 0x3001

/-! ## The coherence domain (R279, R282) -/

/-- Each live member but this device gets a PING every LOAD_TO_US ÷ 8 (R282). -/
def fabPingAct : Act Unit := do
  let s ← look
  if domainOn s && !s.fab.domain.isEmpty then
    advanceTo (s.fab.pingAt.foldl (fun a e => max a (e.2 + loadToNs s / 8)) 0)
    let now := (← look).time.now
    for j in List.range s.fab.domain.length do
      let node := s.fab.domain.getD j 0
      if memberLive s j && node ≠ netNode s then
        let id ← takeId
        let r : FabReq := { id, part := 0, thread := 0, op := 4, node, off := 0 }
        modFab (fun f => { f with reqs := f.reqs ++ [r], pingAt := tput 0 f.pingAt j now })
        firstSend r

/-- A lease on a member's home expires (R282). -/
def leaseExpiryAct (j : Nat) : Act Unit := do
  let s ← look
  let l := tget 0 s.fab.lease j
  if l ≠ 0 then
    advanceTo l
    modFab (fun f => { f with lease := tput 0 f.lease j 0, lines := f.lines.filter (fun x => some x.node != s.fab.domain[j]?) })
    ctr32 0x321014

/-- A member that has not acknowledged an INVAL for LOAD_TO_US is removed (R282). -/
def invalTimeoutAct (id : Nat) : Act Unit := do
  let s ← look
  match s.fab.homeOps.find? (fun o => o.waitFor.any (fun w => w.id == id)) with
  | none => return
  | some o =>
    match o.waitFor.find? (fun w => w.id == id) with
    | none => return
    | some w =>
      advanceTo (o.sentAt + loadToNs s)
      let j := w.member
      wrF 0x300028 j 1 0
      modFab (fun f => { f with dir := f.dir.filterMap (fun e =>
                                  let m := e.2 &&& ~~~(BitVec.ofNat 8 (1 <<< j))
                                  if m = 0 then none else some (e.1, m))
                                homeOps := f.homeOps.map (fun q => { q with waitFor := q.waitFor.filter (fun y => y.member != j) }) })
      raise 0x3003 1 (ndOf (o.port.getD 0)) (o.port.getD 0 % 8) (some o.part) o.off
      ctr32 0x321018
      pumpHome (2 * s.fab.homeOps.length + 8)

/-- The oldest response kept for LOAD_TO_US leaves the response cache (R284). -/
def rspExpiryAct : Act Unit := do
  let s ← look
  match s.fab.rsp with
  | [] => return
  | e :: rest =>
    advanceTo (e.performedAt + loadToNs s)
    modFab (fun f => { f with rsp := rest })

/-- Members of the staged list (R279, R287). -/
def stagedDomain (s : State) : List Nat :=
  (List.range (fieldOf s 0x300010 1 3 + 1)).map (fun n => fieldOf s (0x300018 + 8 * (n / 4)) (16 * (n % 4)) 16)

/-- The waiting GO takes effect once no coherent request is out (R279). -/
def domainCommitAct : Act Unit := do
  let s ← look
  if s.fab.goPending && !s.fab.reqs.any (fun r => r.coh && r.port.isSome) then
    let l := stagedDomain s
    modFab (fun f => { f with goPending := false })
    if l[fieldOf s 0x300010 4 3]? == some (netNode s) then
      modFab (fun f => { f with lines := [], domain := l, lease := [], pingAt := [] })
      wrReg 0x300028 (2 ^ l.length - 1)
      wrF 0x300010 8 2 2
    else wrF 0x300010 8 2 3
    flushUnsent

/-- A write of FAB_DOMAIN (R279, R287). -/
def domainWrite (w : Wr) : Act Unit := do
  storeWord 0x300010 w
  if wrBits w 7 1 = 1 then
    wrF 0x300010 8 2 1
    modFab (fun f => { f with goPending := true })

/-! ## The commands of a thread (R188, R277, R278) -/

/-- The fabric address of a command: from a register or its word; none where the register does not exist. -/
def fabAddr (t : Thread) (w : Cmd) (areg : Bool) : Option Nat :=
  if areg then (if 31 < cb w 7 then none else some (gOf t (cb w 7)).toNat) else some (cf w 8 0 64)

/-- What the checks of a thread's fabric access answer: fault cause, or node and offset (R188, R269, R273). -/
def fabChecks (i : Iss) (a? : Option Nat) (n op : Nat) (opnds : Bool) : Act (Nat × Nat × Nat) := do
  let s ← look
  match a? with
  | none => return (2, 0, 0)
  | some a =>
    let node := a / 2 ^ 48
    let off := a % 2 ^ 48
    if !opnds || node = 0xFFFF || off % n ≠ 0 then return (2, 0, 0)
    if !fatOk s i.p node off n op then
      ctr32 (rFab i.p 0x24)
      return (4, 0, 0)
    if node = netNode s && (tierOf off = .rack || !belongs s i.p off n || !fabRegionOk off op) then return (4, 0, 0)
    return (0, node, off)

/-- An access joins the outstanding requests and goes to its home: by a frame, or on this device itself. -/
def fabStart (r : FabReq) : Act Unit := do
  let s ← look
  ctr64 (rFab r.part 0)
  modFab (fun f => { f with reqs := f.reqs ++ [r] })
  if r.op ≠ 0 then rlcDrop r.node r.off r.len
  if r.node = netNode s then
    homeJoin { op := r.op, src := r.node, id := r.id, part := r.part, port := none, len := r.len, atomOp := r.atomOp
               off := r.off, data := r.data }
  else firstSend r

/-- A synchronous access: its thread waits until the answer comes, if it has not come at once. -/
def fabSync (i : Iss) (r : FabReq) : Act SyncEnd := do
  startWait i (.fab r.id)
  fabStart r
  return .waiting

/-- A coherent load may be served from, and fill, the remote line cache (R279, R280). -/
def mayCache (s : State) (node off : Nat) : Bool :=
  domainOn s && fieldOf s 0x300030 52 1 == 1 && (memberOf s node).isSome && node != netNode s && (tierOf off == .t1 || tierOf off == .t2)

/-- FAB_LD (R188, R280). -/
def fabLdAct (i : Iss) : Act SyncEnd := do
  let s ← look
  let w := i.w
  let size := cf w 5 0 3
  let n := 2 ^ size
  let g := cb w 4
  let r ← fabChecks i (fabAddr (threadOf s i.key) w (cf w 6 0 1 == 1)) n 0
    (size ≤ 6 && g + regCount n ≤ 32 && g % regCount n == 0)
  if r.1 ≠ 0 then return .fault r.1
  let (_, node, off) := r
  if node = netNode s && t3Busy s off then return .wait (.t3 (t3Gib off))
  let coh := mayCache s node off
  match s.fab.lines.find? (fun x => coh && leaseHeld s node && x.node == node && x.line == off / 128) with
  | some l =>
    ctr64 (rFab i.p 0x10)
    modFab (fun f => { f with lines := f.lines.map (fun x => if x == l then { x with lru := f.lruClock } else x), lruClock := f.lruClock + 1 })
    modThread i.key (putRegs g ((l.data.drop (off % 128)).take n))
    return .switch
  | none =>
    if node ≠ netNode s && 64 ≤ coreOut s i.core then return .wait .fabRoom
    let id ← takeId
    fabSync i { id, part := i.p, thread := i.key, op := 0, node, off, size, len := n, dstG := g, coh }

/-- FAB_ATOM (R188, R276). -/
def fabAtomAct (i : Iss) : Act SyncEnd := do
  let s ← look
  let w := i.w
  let op := cf w 5 0 4
  let size := if cf w 5 4 1 = 0 then 2 else 3
  let n := 2 ^ size
  let g := cb w 4
  let t := threadOf s i.key
  let ga := cb w 6
  let gb := cb w 7
  let r ← fabChecks i (some (cf w 8 0 64)) n 2 (op ≤ 9 && g ≤ 31 && ga ≤ 31 && gb ≤ 31)
  if r.1 ≠ 0 then return .fault r.1
  let (_, node, off) := r
  if node = netNode s && t3Busy s off then return .wait (.t3 (t3Gib off))
  if node ≠ netNode s && 64 ≤ coreOut s i.core then return .wait .fabRoom
  let id ← takeId
  fabSync i { id, part := i.p, thread := i.key, op := 2, node, off, size, len := n, atomOp := op, dstG := g
              data := natBytes n (gOf t ga).toNat ++ natBytes n (gOf t gb).toNat }

/-- FAB_ST (R188, R278). -/
def fabStBody (i : Iss) (slot : Nat) : Act AsyncEnd := do
  let s ← look
  let w := i.w
  let size := cf w 5 0 3
  let n := 2 ^ size
  let g := cb w 4
  let t := i.thread s
  let r ← fabChecks i (fabAddr t w (cf w 6 0 1 == 1)) n 1 (size ≤ 6 && g + regCount n ≤ 32 && g % regCount n == 0)
  if r.1 ≠ 0 then return .fault r.1
  let (_, node, off) := r
  let id ← takeId
  fabStart { id, part := i.p, thread := i.key, slot := some slot, op := 1, node, off, size, len := n, data := getRegs g n t }
  return .later

/-- FAB_ST as it issues: without room in its core it waits (R277); otherwise the thread switches (R168). -/
def fabStAct (th : Thr) (w : Cmd) : Act Unit := do
  let s ← look
  match canIssue s th w with
  | none => return
  | some i =>
    if 64 ≤ coreOut s i.core then
      eff (.turn i.core i.tc)
      if (← header i) then startWait i .fabRoom
    else
      let t := threadOf s i.key
      let skipped := hPredEn w && (pOf t (hPred w) == (hPneg w == 1))
      asyncCmd th w 0 (fun _ => return false) fabStBody
      unless skipped do modThread i.key (fun t => if t.st = .ready then { t with st := .waiting, wait := .met } else t)

/-- Commands and events. -/
def execFabLd (th : Thr) (w : Cmd) (s : State) : Host.Outcome State Fault Refusal := finishIf (opIs 0x13 w) (syncCmd th w fabLdAct) s
/-- FAB_ST (R188, R278). -/
def execFabSt (th : Thr) (w : Cmd) (s : State) : Host.Outcome State Fault Refusal := finishIf (opIs 0x14 w) (fabStAct th w) s
/-- FAB_ATOM (R188, R276). -/
def execFabAtom (th : Thr) (w : Cmd) (s : State) : Host.Outcome State Fault Refusal := finishIf (opIs 0x15 w) (syncCmd th w fabAtomAct) s
/-- FAB_RETX_TIMER (R284). -/
def execFabRetxTimer (id : BitVec 32) (s : State) : Host.Outcome State Fault Refusal := finish (fabRetxAct id.toNat) s
/-- FAB_PING_TIMER (R282). -/
def execFabPingTimer (s : State) : Host.Outcome State Fault Refusal := finish fabPingAct s
/-- FAB_LEASE_EXPIRY (R282). -/
def execFabLeaseExpiry (member : Fin 8) (s : State) : Host.Outcome State Fault Refusal := finish (leaseExpiryAct member) s
/-- FAB_RSP_CACHE_EXPIRY (R284). -/
def execFabRspCacheExpiry (s : State) : Host.Outcome State Fault Refusal := finish rspExpiryAct s
/-- FAB_DOMAIN_GO (R279, R287). -/
def execFabDomainGo (w : Wr) (s : State) : Host.Outcome State Fault Refusal := finish (ownerWrite w.path (domainWrite w)) s
/-- FAB_DOMAIN_COMMIT (R279). -/
def execFabDomainCommit (s : State) : Host.Outcome State Fault Refusal := finish domainCommitAct s

end Sys2Proof.Machine
end

