-- ==== Sys2Proof/Machine/Links.lean ====
section
/-!
DEFINITION. Ports as links (R120–R133, R138): bring-up, loss, the optical monitors, flow control, address resolution, and MKA (R139, R397).
-/

namespace Sys2Proof.Machine

/-- A failed attempt (R130): counted; the error is raised once. -/
def attemptFailed (n : Nat) : Act Unit := do
  ctr32 (rPort n 0x150)
  setEvent (rPort n 8) 33 4
  if !(portOf (← look) n).failRaised then
    modPort n (fun d => { d with failRaised := true })
    raise 0x4002 0 (ndOf n) (n % 8)

/-- A limit of TRAINING, LOCKING or SECURING passes (R130). -/
def stageTimeout (n st ms : Nat) : Act Unit := do
  let s ← look
  if portState s n = st && !(portOf s n).locked then
    advanceTo ((portOf s n).stateAt + ms * 1000000)
    dropSas n
    attemptFailed n
    enterWait n

/-- Signed value of 16 bits. -/
def s16 (v : Nat) : Int := (BitVec.ofNat 16 v).toInt

/-- Laser power as last measured lies below LASER_MIN (R129, R133); no reading counts as no light. -/
def laserDark (s : State) (n : Nat) : Bool := s16 (fieldOf s (rPort n 0x50) 0 16) < s16 (fieldOf s (rPort n 0x48) 0 16)

/-- The port enters NO_LASER (R129). -/
def enterDark (n : Nat) : Act Unit := do
  enterState n 1
  wrF (rPort n 8) 4 3 2
  setEvent (rPort n 8) 34 4

/-- A write of NET_PORT_CTRL (R129, R131, R142, R143). -/
def portCtrlWrite (n : Nat) (w : Wr) : Act Unit := do
  let was ← rdF (rPort n 0) 0 1
  storeWord (rPort n 0) w
  let en ← rdF (rPort n 0) 0 1
  if was = 0 && en = 1 then
    modPort n (fun d => { d with failRaised := false })
    if laserDark (← look) n then enterDark n else enterWait n
  if was = 1 && en = 0 then
    let st := portState (← look) n
    enterState n 0
    wrF (rPort n 8) 4 3 7
    dropSas n
    if st = 6 then leaveUp n false
  if wrBits w 4 1 = 1 then
    eff (.regsKeep (fun off => !(rPort n 0x100 ≤ off && off < rPort n 0x300)))

/-- NET_PORT_CTRL_WRITE (R129, R131, R142). -/
def execNetPortCtrlWrite (port : Fin 64) (w : Wr) (s : State) : Host.Outcome State Fault Refusal :=
  finish (ownerWrite w.path (portCtrlWrite port w)) s
/-- PORT_CNT_CLR (R143). -/
def execPortCntClr (port : Fin 64) (w : Wr) (s : State) : Host.Outcome State Fault Refusal :=
  finish (ownerWrite w.path (portCtrlWrite port w)) s

/-! ## Bring-up and loss (R129–R131) -/

/-- A port has lost its laser light, in whatever state it is (R129); one that is in NO_LASER stays there, by this cause. -/
def laserLost (n : Nat) : Act Unit := do
  let st := portState (← look) n
  if st = 1 then wrF (rPort n 8) 4 3 2
  if 2 ≤ st then
    enterDark n
    dropSas n
    if st = 6 then leaveUp n true

/-- The ports that a lost laser path lights (R121, R133). -/
def darkPorts : LaserPath → List Nat
  | .input m => (List.range 64).filter (fun n => laserOf n == m.val)
  | .fibre n => [n.val]

/-- LASER_LOSS (R121, R129, R133). -/
def execLaserLoss (path : LaserPath) (s : State) : Host.Outcome State Fault Refusal :=
  finish (do
    for n in darkPorts path do
      laserLost n) s

/-- LASER_RESTORED (R129): laser power has stood LASER_MIN + 1.0 dB for 100 ms. -/
def execLaserRestored (port : Fin 64) (s : State) : Host.Outcome State Fault Refusal :=
  finish (do
    if portState (← look) port = 1 then
      advance 100000000
      enterWait port) s

/-- LOS_LANES for the receive power of the eight lanes (R133): a lane is lost below LOS_ASSERT, and stays lost up to 2.0 dB above it. -/
def losLanes (s : State) (n : Nat) (rx : List (BitVec 16)) : Nat :=
  let low := s16 (fieldOf s (rPort n 0x48) 16 16)
  rx.zipIdx.foldl (fun a x =>
    if x.1.toInt < low || (bitsOf (fieldOf s (rPort n 8) 8 8) x.2 1 == 1 && x.1.toInt < low + 20) then a + 2 ^ x.2 else a) 0

/-- SIGNAL_DETECTED (R129): signal on all eight lanes has held for 1 ms. -/
def execSignalDetected (x : LaneReading) (s : State) : Host.Outcome State Fault Refusal :=
  finishIf (lanesOk x.rx) (do
    let s ← look
    let lost := losLanes s x.port x.rx
    wrF (rPort x.port 8) 8 8 lost
    if portState s x.port = 2 && lost = 0 then
      advance 1000000
      enterState x.port 3) s

/-- LINK_TRAINED (R129). -/
def execLinkTrained (port : Fin 64) (s : State) : Host.Outcome State Fault Refusal :=
  finish (do
    if portState (← look) port = 3 then enterState port 4) s

/-- LINK_LOCKED (R129): a port with LOOP = 1 stays at LOCKING. -/
def execLinkLocked (port : Fin 64) (s : State) : Host.Outcome State Fault Refusal :=
  finish (do
    let s ← look
    if portState s port = 4 then
      if fieldOf s (rPort port 0) 3 1 = 1 then modPort port (fun d => { d with locked := true })
      else enterState port 5) s

/-- CKN index of a port, and the CAK it selects (R397, R400). -/
def cakOf (s : State) (n : Nat) : Option (BitVec 256) :=
  (s.nv.caks.find? (fun e => e.1 == fieldOf s (0x020100 + 8 * n) 0 8)).map (·.2)

/-- LINK_SECURED (R129, R397): with the CAK of the port's CKN, one transmit and one receive SA are installed and the port is UP. -/
def execLinkSecured (port : Fin 64) (s : State) : Host.Outcome State Fault Refusal :=
  finish (do
    let s ← look
    if portState s port = 5 && (cakOf s port).isSome then
      enterState port 6
      let now := (← look).time.now
      modPort port (fun d => { d with rxSas := [0], rxPn := [], txSa := some 0, newSa := none, oldSaUntil := none, pn := 0, rekeyAt := now
                                      failRaised := false })
      flushUnsent) s

/-- LINK_ATTEMPT_EXPIRY (R130): an attempt period passes in WAIT_SIGNAL. -/
def execLinkAttemptExpiry (port : Fin 64) (s : State) : Host.Outcome State Fault Refusal :=
  finish (do
    let s ← look
    if portState s port = 2 then
      let due := (portOf s port).attemptAt + max 100 (fieldOf s (rPort port 0) 16 16) * 1000000
      advanceTo due
      modPort port (fun d => { d with attemptAt := due })
      attemptFailed port) s

/-- TRAINING_TIMEOUT (R130). -/
def execTrainingTimeout (port : Fin 64) (s : State) : Host.Outcome State Fault Refusal :=
  finish (do
    let ms ← rdF (rPort port 0x10) 0 16
    stageTimeout port 3 (min 10000 (max 10 ms))) s

/-- LOCKING_TIMEOUT (R130). -/
def execLockingTimeout (port : Fin 64) (s : State) : Host.Outcome State Fault Refusal := finish (stageTimeout port 4 10) s

/-- SECURING_TIMEOUT (R130). -/
def execSecuringTimeout (port : Fin 64) (s : State) : Host.Outcome State Fault Refusal :=
  finish (do
    let ms ← rdF (rPort port 0x38) 48 16
    stageTimeout port 5 ms) s

/-- LINK_LOS (R129, R131, R133): a lane has been without signal for 2 µs. -/
def execLinkLos (port : Fin 64) (rx : List (BitVec 16)) (s : State) : Host.Outcome State Fault Refusal :=
  finishIf (lanesOk rx) (do
    let s ← look
    let st := portState s port
    let lost := losLanes s port rx
    wrF (rPort port 8) 8 8 lost
    if 3 ≤ st && lost ≠ 0 then
      ctr32 (rPort port 0x148)
      if st = 6 then portDown port 1
      else
        dropSas port
        enterWait port) s

/-- LINK_LOCK_LOSS (R131). -/
def execLinkLockLoss (port : Fin 64) (s : State) : Host.Outcome State Fault Refusal :=
  finish (do
    if linkUp (← look) port then portDown port 3) s

/-- FEC_UCW_EXCEEDED (R131): more than FEC_UCW_MAX uncorrectable codewords have come within 1 ms; those since the port's last frame are
counted now (R143). -/
def execFecUcwExceeded (x : FecReport) (s : State) : Host.Outcome State Fault Refusal :=
  finish (do
    if linkUp (← look) x.port then
      ctr32 (rPort x.port 0x128) x.uncorr.toNat
      portDown x.port 4) s

/-- REMOTE_FAULT (R131). -/
def execRemoteFault (port : Fin 64) (s : State) : Host.Outcome State Fault Refusal :=
  finish (do
    if linkUp (← look) port then portDown port 5) s

/-- OPT_MEASURE (R133): the two readings; one below LASER_MIN, where there is a reading, says that the port has lost its light (R129). -/
def execOptMeasure (port : Fin 64) (laser rxmin : BitVec 16) (s : State) : Host.Outcome State Fault Refusal :=
  finish (do
    wrF (rPort port 0x50) 0 16 laser.toNat
    wrF (rPort port 0x50) 16 16 rxmin.toNat
    if laser ≠ 0x8000 && laserDark (← look) port then laserLost port) s

/-! ## Flow control (R138) -/

/-- PFC_RX: a pause, or its end, for a priority; a PFC frame is untagged (R126). -/
def pfcRxAct (n : Nat) (w : Wire) (v : Nat) (xoff : Bool) : Act Unit := do
  if ← frontRx n 64 w false true w.vid.isNone then
    countRx n 64
    if !pfcEn (← look) n v then ctr32 (rPort n 0x154)
    else if xoff then
      ctr32 (rVc n v 0x18)
      modPort n (fun d => { d with pausedBy := if d.pausedBy.contains v then d.pausedBy else d.pausedBy ++ [v] })
    else modPort n (fun d => { d with pausedBy := d.pausedBy.filter (· != v) })

/-- PFC_RX (R138). -/
def execPfcRx (at_ : Arrival) (vc : Fin 8) (xoff : Bool) (s : State) : Host.Outcome State Fault Refusal :=
  finish (pfcRxAct at_.port at_.wire vc xoff) s

/-- PFC_XOFF_REPEAT: the XOFF goes again every 10 µs while its condition holds. -/
def execPfcXoffRepeat (x : Drain) (vc : Fin 6) (s : State) : Host.Outcome State Fault Refusal :=
  finish (do
    drainRx x.port x.drained
    let s ← look
    if hears s x.port && (portOf s x.port).xoff.contains vc.val && sharedFree s x.port < 9216 then
      advance 10000
      sendXoff x.port vc) s

/-- PFC_XON: 64 KiB of (non-headroom) shared space is free. -/
def execPfcXon (x : Drain) (vc : Fin 6) (s : State) : Host.Outcome State Fault Refusal :=
  finish (do
    drainRx x.port x.drained
    let s ← look
    if hears s x.port && (portOf s x.port).xoff.contains vc.val && 65536 ≤ sharedFree s x.port then
      modPort x.port (fun d => { d with xoff := d.xoff.filter (· != vc.val) })
      emitFrame x.port none 64 (.pfc vc false)) s

/-! ## Addresses (R124, R126, R127) -/

/-- The virtual channel that answers a request of a priority; VC6 carries the exchange only, and VC7 answers for it (log entry 49). -/
def replyVc (pcp : Nat) : Nat := if pcp = 6 then 7 else pcp

/-- NEIGHBOR_SOLICIT_RX (R124, R126): answered on the port where it came. -/
def neighborAct (n : Nat) (w : Wire) (src target : BitVec 128) : Act Unit := do
  let s ← look
  if ← frontRx n 126 w true false (!w.ext && ownAddr s target.toNat) then
    if ← rxBuffer n w.pcp 126 w.drained then pushTx n (replyVc w.pcp) 126 (.neighborAdv src target)

/-- NEIGHBOR_SOLICIT_RX (R124). -/
def execNeighborSolicitRx (at_ : Arrival) (ns : Solicit) (s : State) : Host.Outcome State Fault Refusal :=
  finish (neighborAct at_.port at_.wire ns.src ns.target) s

/-- ARP_RX (R126, R127). -/
def arpAct (n : Nat) (w : Wire) (target : BitVec 32) : Act Unit := do
  let s ← look
  if ← frontRx n 82 w true false (fieldOf s 0x440030 0 32 ≠ 0 && fieldOf s 0x440030 0 32 = target.toNat) then
    if ← rxBuffer n w.pcp 82 w.drained then pushTx n (replyVc w.pcp) 82 (.arpReply target)

/-- ARP_RX (R127). -/
def execArpRx (at_ : Arrival) (target : BitVec 32) (s : State) : Host.Outcome State Fault Refusal :=
  finish (arpAct at_.port at_.wire target) s

/-- UNCLASSIFIED_FRAME_RX (R123, R126, R128): no row names the frame; one without a SecTAG meets no MACsec check. -/
def execUnclassifiedFrameRx (at_ : Arrival) (len : BitVec 16) (s : State) : Host.Outcome State Fault Refusal :=
  finish (do
    let _ ← frontRx at_.port len.toNat at_.wire false at_.wire.sec.isNone false) s

/-! ## MKA (R139, R397) -/

/-- A new SAK: installed first as a receive SA. -/
def rekey (n : Nat) : Act Unit := do
  let s ← look
  let d := portOf s n
  match d.txSa with
  | none => return
  | some sa =>
    if d.newSa.isNone then
      let x := (sa + 1) % 4
      modPort n (fun d => { d with newSa := some x, rxSas := (d.rxSas.filter (· != x)) ++ [x], rxPn := tput 0 d.rxPn x 0, rekeyAt := s.time.now
                                   peers := d.peers.map (fun e => (e.1, e.2.1, false)) })
      emitFrame n none 126 (.mka true)

/-- Transmit switches once every live peer reports the new SA; the old receive SA stays 5 s (R397). -/
def switchSa (n : Nat) : Act Unit := do
  let s ← look
  let d := portOf s n
  match d.newSa with
  | none => return
  | some x =>
    if !d.peers.isEmpty && d.peers.all (fun e => e.2.2) then
      modPort n (fun d => { d with txSa := some x, newSa := none, pn := 0, oldSaUntil := some (s.time.now + 5000000000) })

/-- MKA_RX (R397): a peer is live; a new peer changes the list. -/
def mkaAct (n : Nat) (w : Wire) (peer : Nat) (reports : Bool) : Act Unit := do
  if ← frontRx n 126 w false true true then
    countRx n 126
    let s ← look
    let known := (portOf s n).peers.any (fun e => e.1 == peer)
    modPort n (fun d => { d with peers := d.peers.filter (fun e => e.1 != peer) ++ [(peer, s.time.now, reports && d.newSa.isSome)] })
    if !known then rekey n
    switchSa n

/-- MKA_RX (R397). -/
def execMkaRx (at_ : Arrival) (peer : BitVec 32) (reportsNewSa : Bool) (s : State) : Host.Outcome State Fault Refusal :=
  finish (mkaAct at_.port at_.wire peer.toNat reportsNewSa) s

/-- SAK_REKEY (R397): every SAK_REKEY_S, or at PN 2^63. -/
def execSakRekey (port : Fin 64) (s : State) : Host.Outcome State Fault Refusal :=
  finish (do
    let s ← look
    let d := portOf s port
    if linkUp s port then
      if d.pn < 2 ^ 63 then advanceTo (d.rekeyAt + fieldOf s 0x020020 16 32 * 1000000000)
      rekey port) s

/-- OLD_SA_EXPIRY (R397). -/
def execOldSaExpiry (port : Fin 64) (s : State) : Host.Outcome State Fault Refusal :=
  finish (do
    match (portOf (← look) port).oldSaUntil with
    | none => return
    | some t =>
      advanceTo t
      modPort port (fun d => { d with oldSaUntil := none, rxSas := d.rxSas.filter (fun x => some x == d.txSa || some x == d.newSa) })) s

/-- MKA_PEER_TIMEOUT (R397): 6 s without a peer; without any live peer the port has no valid receive SA (R131). -/
def execMkaPeerTimeout (port : Fin 64) (peer : BitVec 32) (s : State) : Host.Outcome State Fault Refusal :=
  finish (do
    let s ← look
    match (portOf s port).peers.find? (fun e => e.1 == peer.toNat) with
    | none => return
    | some e =>
      advanceTo (e.2.1 + 6000000000)
      modPort port (fun d => { d with peers := d.peers.filter (fun x => x.1 != peer.toNat) })
      let s ← look
      if (portOf s port).peers.isEmpty then
        if linkUp s port then portDown port 6
      else
        rekey port
        switchSa port) s

end Sys2Proof.Machine
end

