-- ==== Sys2Proof/Machine/Live.lean ====
section
/-!
DEFINITION. Route contexts as read (R53, R57), and the outcome of a route tag (R86).
-/

namespace Sys2Proof.Machine

/-! ## Route contexts (R53, R57) -/

/-- The words of route context `r` (die × 256 + context). -/
def rcfgOf (s : State) (r : Nat) : Item :=
  BitVec.ofNat 512 ((List.range 3).foldl (fun a k => a ||| (regOf s (rRctx (r / 256) (r % 256) k)).toNat <<< (64 * k)) 0)

def rcPart (c : Item) : Nat := ibits c 0 6
def rcEn (c : Item) : Bool := ibits c 6 1 == 1
def rcAccum (c : Item) : Bool := ibits c 7 1 == 1
def rcScore (c : Item) : Nat := if ibits c 8 2 = 3 then 0 else ibits c 8 2
def rcNorm (c : Item) : Bool := ibits c 10 1 == 1
def rcF32 (c : Item) : Bool := ibits c 11 1 == 1
def rcK (c : Item) : Nat := ibits c 12 5
def rcNgroup (c : Item) : Nat := ibits c 17 7
def rcTopg (c : Item) : Nat := ibits c 24 7
def rcGscore (c : Item) : Bool := ibits c 31 1 == 1
def rcE (c : Item) : Nat := ibits c 32 16 + 1
def rcElastic (c : Item) : Bool := ibits c 48 1 == 1
def rcPolicy (c : Item) : Nat := ibits c 49 2
def rcLoad (c : Item) : Bool := ibits c 51 1 == 1
def rcCap (c : Item) : Nat := ibits c 64 16
def rcGroup (c : Item) : Nat := ibits c 80 16
def rcInQ (c : Item) : Nat := ibits c 96 12
def rcSet (c : Item) : Nat := ibits c 112 8
def rcScale (c : Item) : BitVec 32 := BitVec.ofNat 32 (ibits c 128 32)
def rcTb (c : Item) : Nat := ibits c 160 16
def rcRetFmt (c : Item) : Nat := ibits c 176 4

/-- The drop policy in force: 1 RENORM, 2 ZERO, 3 ABORT (R57, R289). -/
def policyOf (s : State) (c : Item) : Nat :=
  if rcPolicy c = 0 then (if (partOf s (rcPart c)).map.training then 3 else 1) else rcPolicy c

/-- The enabled contexts of a route set, in die order (R54). -/
def setContexts (s : State) (p setId : Nat) : List Nat :=
  (List.range 4).flatMap (fun d => ((List.range 256).map (fun c => d * 256 + c)).filter (fun r =>
    let c := rcfgOf s r
    rcEn c && rcPart c == p && rcSet c == setId))

/-! ## The outcome of a route tag (R86, R162) -/

/-- A tag of a context has its outcome: every COMBINE_WAIT that waits for it gets it, and it is kept for later ones, since the context has
seen the tag (R86). -/
def tagDone (rctx tag status : Nat) (flags : BitVec 6) : Act Unit := do
  let s ← look
  for e in s.threads do
    match e.2.wait with
    | .combine r t g => if r = rctx && t = tag then endWait e.1 (fun t => orFlags flags (setG g (BitVec.ofNat 64 status) t))
    | _ => pure ()
  eff (.tagsDone (s.tagsDone.filter (fun d => !(d.rctx == rctx && d.tag == tag)) ++
    [({ rctx := rctx, tag := tag, status := status, flags := flags } : TagDone)]))

/-- Submits of a route set and tag. -/
def setSubmits (s : State) (p setId tag : Nat) : List Submit :=
  s.submits.filter (fun u => u.part == p && u.tag == tag && rcSet u.cfg == setId)

/-- A submit is over with status 2; a ROUTE_SUBMIT that is still outstanding completes (R53, R75, R100, R101). -/
def failSubmit (u : Submit) : Act Unit := do
  modSubmits (fun l => l.filter (fun x => !(x.rctx == u.rctx && x.tag == u.tag && x.thread == u.thread && x.slot == u.slot)))
  if u.phase != .handed then slotDone u.thread u.slot 0
  tagDone u.rctx u.tag 2 0

end Sys2Proof.Machine
end

