-- ==== Sys2Proof/Machine/Num.lean ====
section
/-!
DEFINITION. Number formats and arithmetic (R144–R163): every finite operand is an exact dyadic value, sums and products are exact, and
one rounding ends each operation.
-/

namespace Sys2Proof.Machine

/-! ## Exact values -/

/-- A number as the device holds it: NaN, an infinity, or ±m·2^e. -/
inductive Num where
  | nan
  | inf (neg : Bool)
  | fin (neg : Bool) (m : Nat) (e : Int)
  deriving DecidableEq, Repr

def Num.neg : Num → Num
  | .nan => .nan
  | .inf s => .inf (!s)
  | .fin s m e => .fin (!s) m e

def Num.abs : Num → Num
  | .nan => .nan
  | .inf _ => .inf false
  | .fin _ m e => .fin false m e

def Num.isZero : Num → Bool
  | .fin _ m _ => m == 0
  | _ => false

def Num.isNan : Num → Bool
  | .nan => true
  | _ => false

def Num.isInf : Num → Bool
  | .inf _ => true
  | _ => false

def Num.signBit : Num → Bool
  | .nan => false
  | .inf s => s
  | .fin s _ _ => s

/-- Multiply by 2^k. -/
def Num.scale (k : Int) : Num → Num
  | .fin s m e => .fin s m (e + k)
  | x => x

/-- The value of a finite number over 2^q, for q at most its exponent. -/
def Num.over (q : Int) : Num → Int
  | .fin s m e => let v : Int := (m <<< (e - q).toNat : Nat); if s then -v else v
  | _ => 0

def Num.expo : Num → Int
  | .fin _ m e => if m = 0 then 0 else e
  | _ => 0

/-- The exact sum of a list of terms, and INV (R156): both infinities among the terms set it, beside a NaN too; an exact zero is −0 only when
every term is −0. -/
def sumNum (l : List Num) : Num × Flags :=
  let pos := l.any (fun x => x == .inf false)
  let ngt := l.any (fun x => x == .inf true)
  if l.any Num.isNan then (.nan, flagIf (pos && ngt) fInv)
  else
    if pos && ngt then (.nan, fInv)
    else if pos then (.inf false, 0)
    else if ngt then (.inf true, 0)
    else
      let q : Int := l.foldl (fun a x => if x.isZero then a else min a x.expo) 1100
      let v : Int := l.foldl (fun a x => if x.isZero then a else a + x.over q) 0
      if v = 0 then (.fin (!l.isEmpty && l.all Num.signBit) 0 0, 0)
      else (.fin (v < 0) v.natAbs q, 0)

/-- The exact product of two numbers, and INV for ∞ × 0 (R156, R160). -/
def mulNum (a b : Num) : Num × Flags :=
  match a, b with
  | .nan, _ => (.nan, 0)
  | _, .nan => (.nan, 0)
  | .inf s, .inf t => (.inf (s != t), 0)
  | .inf s, .fin t m _ => if m = 0 then (.nan, fInv) else (.inf (s != t), 0)
  | .fin s m _, .inf t => if m = 0 then (.nan, fInv) else (.inf (s != t), 0)
  | .fin s m e, .fin t n f => (.fin (s != t) (m * n) (e + f), 0)

/-- `a < b` for numbers that are not NaN; the zeros are equal. -/
def ltNum (a b : Num) : Bool :=
  match a, b with
  | .nan, _ => false
  | _, .nan => false
  | .inf s, .inf t => s && !t
  | .inf s, .fin _ _ _ => s
  | .fin _ _ _, .inf t => !t
  | x, y => let q := min x.expo y.expo; x.over q < y.over q

/-! ## Rounding (R148, R149) -/

/-- How a conversion rounds: RMODE, and the 24-bit draw of SR. -/
structure Round where
  mode : Nat := 0
  draw : Nat := 0
  deriving DecidableEq, Repr

/-- m / 2^k rounded (R148, R149), and whether that is inexact. -/
def roundShift (m k : Nat) (r : Round) : Nat × Bool :=
  let t := m >>> k
  let rest := m % 2 ^ k
  if rest = 0 then (t, false)
  else
    match r.mode with
    | 1 => (t, true)
    | 2 => (if 2 ^ 24 ≤ (rest <<< 24) >>> k + r.draw then t + 1 else t, true)
    | _ => (if 2 * rest > 2 ^ k || (2 * rest == 2 ^ k && t % 2 == 1) then t + 1 else t, true)

/-- m·2^e in units of 2^q, rounded. -/
def quantize (m : Nat) (e q : Int) (r : Round) : Nat × Bool :=
  if q ≤ e then (m <<< (e - q).toNat, false) else roundShift m (q - e).toNat r

/-- The draw of SR (R149). -/
def srDraw (seed : Word) (stream idx : Nat) : Nat :=
  let x : Word := seed ^^^ BitVec.ofNat 64 (stream <<< 48) ^^^ BitVec.ofNat 64 idx
  let x := (x ^^^ (x >>> 30)) * 0xBF58476D1CE4E5B9
  let x := (x ^^^ (x >>> 27)) * 0x94D049BB133111EB
  let x := x ^^^ (x >>> 31)
  (x >>> 40).toNat

/-! ## Formats (R144) -/

/-- A floating format: exponent and mantissa bits, bias, largest finite code, infinity and NaN codes where it has them. -/
structure Fp where
  eb : Nat
  mb : Nat
  bias : Nat
  maxCode : Nat
  infCode : Option Nat := none
  nanCode : Option Nat := none
  /-- Overflow gives the largest finite value (R151). -/
  sat : Bool := false
  deriving DecidableEq, Repr

def fp32 : Fp := { eb := 8, mb := 23, bias := 127, maxCode := 0x7F7FFFFF, infCode := some 0x7F800000, nanCode := some 0x7FC00000 }
def bf16 : Fp := { eb := 8, mb := 7, bias := 127, maxCode := 0x7F7F, infCode := some 0x7F80, nanCode := some 0x7FC0 }
def fp16 : Fp := { eb := 5, mb := 10, bias := 15, maxCode := 0x7BFF, infCode := some 0x7C00, nanCode := some 0x7E00 }
def e4m3 : Fp := { eb := 4, mb := 3, bias := 7, maxCode := 0x7E, nanCode := some 0x7F, sat := true }
def e5m2 : Fp := { eb := 5, mb := 2, bias := 15, maxCode := 0x7B, infCode := some 0x7C, nanCode := some 0x7F, sat := true }
def e3m2 : Fp := { eb := 3, mb := 2, bias := 3, maxCode := 0x1F, sat := true }
def e2m3 : Fp := { eb := 2, mb := 3, bias := 1, maxCode := 0x1F, sat := true }
def e2m1 : Fp := { eb := 2, mb := 1, bias := 1, maxCode := 0x7, sat := true }

/-- The floating format of a format code; none for the integer formats. -/
def fpOf (fmt : Nat) : Option Fp :=
  match fmt with
  | 0 => some fp32
  | 1 => some bf16
  | 2 => some fp16
  | 3 => some e4m3
  | 4 => some e5m2
  | 5 => some e3m2
  | 6 => some e2m3
  | 7 => some e2m1
  | _ => none

/-- A format code that is not reserved (R144, R176). -/
def fmtOk (fmt : Nat) : Bool := fmt ≤ 8 || fmt == 0xA || fmt == 0xB
/-- The MX formats (R144). -/
def isMx (fmt : Nat) : Bool := 3 ≤ fmt && fmt ≤ 7
/-- Bits of one element. -/
def fmtBits (fmt : Nat) : Nat :=
  match fmt with
  | 0 => 32
  | 1 => 16
  | 2 => 16
  | 3 => 8
  | 4 => 8
  | 5 => 6
  | 6 => 6
  | 7 => 4
  | 8 => 8
  | 0xA => 32
  | 0xB => 16
  | _ => 8

/-- The value of a code of a floating format. -/
def decFp (f : Fp) (v : Nat) : Num :=
  let c := v % 2 ^ (f.eb + f.mb)
  let s := bitsOf v (f.eb + f.mb) 1 == 1
  let x := c >>> f.mb
  let m := c % 2 ^ f.mb
  match f.infCode with
  | some i => if c = i then .inf s else if i < c then .nan else
      if x = 0 then .fin s m (1 - f.bias - f.mb) else .fin s (2 ^ f.mb + m) ((x : Int) - f.bias - f.mb)
  | none =>
    if f.nanCode = some c then .nan
    else if x = 0 then .fin s m (1 - f.bias - f.mb) else .fin s (2 ^ f.mb + m) ((x : Int) - f.bias - f.mb)

/-- A subnormal code of FP32, BF16, FP16 or FP8, which sets DEN when consumed (R154, R160). -/
def denCode (fmt v : Nat) : Bool :=
  match fpOf fmt with
  | some f => fmt ≤ 4 && bitsOf v f.mb f.eb == 0 && bitsOf v 0 f.mb != 0
  | none => false

/-- The code of ±c. -/
def signed (f : Fp) (s : Bool) (c : Nat) : Nat := c + (if s then 2 ^ (f.eb + f.mb) else 0)

/-- Round a number to a floating format, with its flags (R147–R151); `nonSat` is E5M2_NONSAT. -/
def encFp (f : Fp) (r : Round) (nonSat : Bool) (x : Num) : Nat × Flags :=
  let big := fun (s : Bool) => match f.infCode with
    | some i => if f.sat && !nonSat then (signed f s f.maxCode, fOvf ||| fSat ||| fInx) else (signed f s i, fOvf ||| fInx)
    | none => (signed f s f.maxCode, fOvf ||| fSat ||| fInx)
  match x with
  | .nan => ((f.nanCode.getD 0), 0)
  | .inf s => match f.infCode with
    | some i => if f.sat && !nonSat then (signed f s f.maxCode, fSat) else (signed f s i, 0)
    | none => (signed f s f.maxCode, fSat)
  | .fin s m e =>
    if m = 0 then (signed f s 0, 0)
    else
      let qmin : Int := 1 - f.bias - f.mb
      let q := max qmin ((Nat.log2 m : Int) + e - f.mb)
      let n := quantize m e q r
      let c := (q - qmin).toNat * 2 ^ f.mb + n.1
      if f.maxCode < c then big s
      else (signed f s c, flagIf n.2 fInx ||| flagIf (n.2 && n.1 < 2 ^ f.mb && q == qmin) fUnf)

/-- RNE. -/
def rne : Round := {}

/-- FP32 bits of a number, one rounding RNE, subnormals kept (R159). -/
def toF32 (x : Num) : BitVec 32 × Flags := let r := encFp fp32 rne false x; (BitVec.ofNat 32 r.1, r.2)

/-- The number of FP32 bits. -/
def ofF32 (b : BitVec 32) : Num := decFp fp32 b.toNat

/-- The FP32 accumulator's rounding (R156): 24 bits with unbounded exponent, RNE; a magnitude below 2^−126 becomes a signed zero. -/
def accRound (x : Num) : BitVec 32 × Flags :=
  match x with
  | .fin s m e =>
    if m = 0 then toF32 x
    else
      let q : Int := (Nat.log2 m : Int) + e - 23
      let n := quantize m e q rne
      let top : Int := (Nat.log2 n.1 : Int) + q
      if top < -126 then (BitVec.ofNat 32 (signed fp32 s 0), fUnf ||| fInx)
      else if 127 < top then (BitVec.ofNat 32 (signed fp32 s 0x7F800000), fOvf ||| fInx)
      else
        let r := toF32 (.fin s n.1 q)
        (r.1, r.2 ||| flagIf n.2 fInx)
  | y => toF32 y

/-- The FP32 accumulator after exact terms are added with one rounding (R155, R156). -/
def accAdd (acc : BitVec 32) (terms : List (Num × Flags)) : BitVec 32 × Flags :=
  let f := terms.foldl (fun a t => a ||| t.2) 0
  let s := sumNum (ofF32 acc :: terms.map (·.1))
  let r := accRound s.1
  (r.1, f ||| s.2 ||| r.2)

/-- Add to an INT32 accumulator that saturates at each add (R157). -/
def accAddInt (acc : BitVec 32) (v : Int) : BitVec 32 × Flags :=
  let x := acc.toInt + v
  if x < -2 ^ 31 then (0x80000000, fSat)
  else if 2 ^ 31 - 1 < x then (0x7FFFFFFF, fSat)
  else (BitVec.ofInt 32 x, 0)

/-! ## Elements and blocks (R146, R150, R152, R154) -/

/-- The value of an element code under a block scale, with the flags its consumption sets; integers are exact. -/
def elemNum (fmt code scale : Nat) : Num × Flags :=
  match fpOf fmt with
  | some f =>
    if isMx fmt && scale == 0xFF then (.nan, fInv)
    else
      let x := decFp f code
      (if isMx fmt then x.scale ((scale : Int) - 127) else x, flagIf (denCode fmt code) fDen)
  | none =>
    let v : Int := match fmt with
      | 8 => (BitVec.ofNat 8 code).toInt
      | 0xA => (BitVec.ofNat 32 code).toInt
      | _ => code
    (.fin (v < 0) v.natAbs 0, 0)

/-- Widening to FP32 (R154). -/
def widen (fmt code scale : Nat) : BitVec 32 × Flags :=
  let x := elemNum fmt code scale
  let r := toF32 x.1
  (r.1, x.2 ||| r.2)

/-- emax of an MX element format (R150). -/
def mxEmax (fmt : Nat) : Int :=
  match fmt with
  | 3 => 8
  | 4 => 15
  | 5 => 4
  | 6 => 2
  | _ => 2

/-- ⌊log2⌋ of a non-zero finite number's magnitude. -/
def Num.log2 : Num → Int
  | .fin _ m e => (Nat.log2 m : Int) + e
  | _ => 0

/-- The larger magnitude of two finite numbers. -/
def maxMag (a b : Num) : Num := if ltNum a.abs b.abs then b.abs else a.abs

/-- The scale of a block to be converted (R150), and the flags of a NaN scale. -/
def mxScale (fmt : Nat) (xs : List Num) : Nat × Flags :=
  if 5 ≤ fmt && xs.any Num.isNan then (0xFF, fInv)
  else
    let amax := (xs.filter (fun x => !x.isNan && !x.isInf)).foldl maxMag (.fin false 0 0)
    if amax.isZero then (0, 0)
    else ((max (-127) (amax.log2 - mxEmax fmt) + 127).toNat, 0)

/-- One element of a block of scale `s` (R150, R151). -/
def mxElem (fmt s : Nat) (r : Round) (nonSat : Bool) (x : Num) : Nat × Flags :=
  match fpOf fmt with
  | none => (0, 0)
  | some f => if s = 0xFF then (0, 0) else encFp f r nonSat (x.scale (127 - (s : Int)))

/-- Conversion to an integer format of range lo to hi (R152). -/
def toInt (lo hi : Int) (r : Round) (x : Num) : Int × Flags :=
  match x with
  | .nan => (0, fInv)
  | .inf s => (if s then lo else hi, fSat ||| fInv)
  | .fin s m e =>
    let n := quantize m e 0 r
    let v : Int := if s then -(n.1 : Int) else n.1
    if v < lo then (lo, fSat ||| fInv)
    else if hi < v then (hi, fSat ||| fInv)
    else (v, flagIf n.2 fInx)

/-- Conversion of one number to a format without blocks (R149–R152): FP32, BF16, FP16, INT8, INT32, UINT16; a negative value that rounds to
0 sets no flag in UINT16. -/
def toFmt (fmt : Nat) (r : Round) (x : Num) : Nat × Flags :=
  match fmt with
  | 0 => encFp fp32 r false x
  | 1 => encFp bf16 r false x
  | 2 => encFp fp16 r false x
  | 8 => let v := toInt (-128) 127 r x; ((BitVec.ofInt 8 v.1).toNat, v.2)
  | 0xA => let v := toInt (-2 ^ 31) (2 ^ 31 - 1) r x; ((BitVec.ofInt 32 v.1).toNat, v.2)
  | 0xB => let v := toInt 0 65535 r x; (v.1.toNat, if x.signBit && v.2 == fInx then 0 else v.2)
  | _ => (0, 0)

/-! ## FP32 operations with one rounding (R159) -/

/-- DEN of an FP32 operand (R160). -/
def den32 (b : BitVec 32) : Flags := flagIf (denCode 0 b.toNat) fDen

/-- Sum with one rounding; +∞ + −∞ sets INV. -/
def addF32 (a b : BitVec 32) : BitVec 32 × Flags :=
  let s := sumNum [ofF32 a, ofF32 b]
  let r := toF32 s.1
  (r.1, den32 a ||| den32 b ||| s.2 ||| r.2)

def negF32 (a : BitVec 32) : BitVec 32 := a ^^^ 0x80000000

def mulF32 (a b : BitVec 32) : BitVec 32 × Flags :=
  let p := mulNum (ofF32 a) (ofF32 b)
  let r := toF32 p.1
  (r.1, den32 a ||| den32 b ||| p.2 ||| r.2)

/-- A × B + C with one rounding. -/
def fmaF32 (a b c : BitVec 32) : BitVec 32 × Flags :=
  let p := mulNum (ofF32 a) (ofF32 b)
  let s := sumNum [p.1, ofF32 c]
  let r := toF32 s.1
  (r.1, den32 a ||| den32 b ||| den32 c ||| p.2 ||| s.2 ||| r.2)

/-- Division with one rounding; a finite non-zero value over zero is a signed infinity without a flag (R159). -/
def divNum (a b : Num) : (BitVec 32) × Flags :=
  match a, b with
  | .nan, _ => toF32 .nan
  | _, .nan => toF32 .nan
  | .inf _, .inf _ => (0x7FC00000, fInv)
  | .inf s, .fin t _ _ => toF32 (.inf (s != t))
  | .fin s _ _, .inf t => toF32 (.fin (s != t) 0 0)
  | .fin s m e, .fin t n f =>
    if n = 0 then (if m = 0 then (0x7FC00000, fInv) else toF32 (.inf (s != t)))
    else
      -- enough quotient bits that one sticky bit below them rounds as the exact quotient
      let k := Nat.log2 n + 300
      let num := m <<< k
      let quo := num / n
      let st := if num % n = 0 then 0 else 1
      toF32 (.fin (s != t) (2 * quo + st) (e - f - k - 1))

end Sys2Proof.Machine
end

