-- ==== Sys2Proof/Machine/Mdesc.lean ====
section
/-!
DEFINITION. The matrix descriptor (R176, R177), the places of its elements and scales (R145, R146), and reading and writing them. An
address beyond BASE in core scratch is taken modulo 2 MiB within that core's scratch (R200).
-/

namespace Sys2Proof.Machine

/-- A matrix descriptor (R176). -/
structure Mdesc where
  base : Nat
  rows : Nat
  cols : Nat
  stride : Nat
  fmt : Nat
  kcol : Bool
  blocked : Bool
  bucket : Nat
  scale : Nat
  sstride : Nat
  pmask : Nat
  deriving DecidableEq, Repr

def mdescOf (x : Item) : Mdesc :=
  { base := ibits x 0 52, rows := ibits x 64 24, cols := ibits x 88 24, stride := ibits x 128 48, fmt := ibits x 192 4,
    kcol := ibits x 196 1 == 1, blocked := ibits x 197 1 == 1, bucket := ibits x 200 8, scale := ibits x 256 52,
    sstride := ibits x 320 32, pmask := ibits x 384 52 }

/-- Packed bytes of one row. -/
def Mdesc.rowBytes (m : Mdesc) : Nat := (m.cols * fmtBits m.fmt + 7) / 8

/-- The check of R177, but for the MDESC's own address; the SCALE of a BLOCKED MDESC is ignored (R213). -/
def Mdesc.ok (m : Mdesc) : Bool :=
  fmtOk m.fmt && m.rows != 0 && m.cols != 0 && m.rowBytes ≤ m.stride &&
    !((m.fmt == 5 || m.fmt == 6) && m.cols % 4 != 0) && !(isMx m.fmt && m.scale == 0 && !m.blocked)

/-- An MDESC, or the fault cause of the command that names it (R171, R176, R177, R374). -/
inductive MdescRes where
  | ok (m : Mdesc)
  | fault (cause : Nat)
  deriving DecidableEq, Repr

/-- The check of an MDESC, where the SCALE of a template may be 0 (R177, R206). -/
def Mdesc.okAs (m : Mdesc) (template : Bool) : Bool := if template then { m with scale := 1 }.ok else m.ok

/-- The MDESC at an address, as it stood when the command issued (R176). -/
def readMdesc (i : Iss) (a : Nat) (template : Bool := false) : Act MdescRes := do
  if a % 64 ≠ 0 then return .fault 3
  if !belongs (← look) i.p a 64 then return .fault 4
  if !(← consume (i.core / 64) (i.core % 64) (some i.p) a 64) then return .fault 6
  let m := mdescOf (i.item (← look) a)
  return if m.okAs template then .ok m else .fault 3

/-- An address lies in a core's scratch. -/
def inScratch (core a : Nat) : Bool := scratchBase core ≤ a && a < scratchBase (core + 1)

/-- `off` bytes beyond a base: within the core's scratch modulo 2 MiB where the base lies there (R200). -/
def wrapAddr (base off : Nat) : Nat :=
  if tierOf base = .scratch then
    let b := base / 0x200000 * 0x200000
    b + (base % 0x200000 + off) % 0x200000
  else base + off

/-- The byte that holds the first bit of element (i, j). -/
def Mdesc.elemAddr (m : Mdesc) (i j : Nat) : Nat := wrapAddr m.base (i * m.stride + j * fmtBits m.fmt / 8)

/-- The scale byte of element (i, j) (R145, R176). -/
def Mdesc.scaleAddr (m : Mdesc) (i j : Nat) : Nat :=
  if m.kcol then wrapAddr m.scale (i * m.sstride + j / 32) else wrapAddr m.scale (j * m.sstride + i / 32)

/-! ## Runs of bytes (R199, R200) -/

/-- The `n` bytes from `off` beyond a base on, cut where they wrap at the end of core scratch (R200). -/
def wrapRuns (base off n : Nat) : List (Nat × Nat) :=
  if n = 0 then []
  else if tierOf base = .scratch then
    let o := base % 0x200000 + off
    let q := o / 0x200000
    (List.range ((o + n - 1) / 0x200000 + 1 - q)).map (fun k =>
      let lo := max o ((q + k) * 0x200000)
      (base / 0x200000 * 0x200000 + lo % 0x200000, min (o + n) ((q + k + 1) * 0x200000) - lo))
  else [(base + off, n)]

/-- Write bytes from `off` beyond a base on (R200). -/
def putWrapped (base off : Nat) (bs : List Byte) : Act Unit := do
  let mut rest := bs
  for r in wrapRuns base off bs.length do
    putBytes r.1 (rest.take r.2)
    rest := rest.drop r.2

/-- The bytes of `n` elements of row i from column j on. -/
def Mdesc.rowRuns (m : Mdesc) (i j n : Nat) : List (Nat × Nat) :=
  let w := fmtBits m.fmt
  if n = 0 then [] else wrapRuns m.base (i * m.stride + j * w / 8) (((j + n) * w + 7) / 8 - j * w / 8)

/-- The scale bytes of `n` elements along K of non-K line x, from place k on. -/
def Mdesc.lineScaleRuns (m : Mdesc) (x k n : Nat) : List (Nat × Nat) :=
  if n = 0 || !isMx m.fmt then [] else wrapRuns m.scale (x * m.sstride + k / 32) ((k + n + 31) / 32 - k / 32)

/-- The scale bytes of a rectangle. -/
def Mdesc.scaleRuns (m : Mdesc) (i0 ni j0 nj : Nat) : List (Nat × Nat) :=
  if m.kcol then (List.range ni).flatMap (fun d => m.lineScaleRuns (i0 + d) j0 nj)
  else (List.range nj).flatMap (fun d => m.lineScaleRuns (j0 + d) i0 ni)

/-- The scales of a matrix operand of a core lie in that core's scratch, taken modulo 2 MiB as every address beyond BASE (R200). -/
def Mdesc.ownScale (m : Mdesc) (core : Nat) : Mdesc := { m with scale := scratchBase core + m.scale % 0x200000 }

/-- The code of element (i, j) (R145). -/
def readCode (s : State) (m : Mdesc) (i j : Nat) : Nat :=
  let w := fmtBits m.fmt
  let lo := j * w % 8
  let a := m.elemAddr i j
  let n := (lo + w + 7) / 8
  let v := (List.range n).foldl (fun acc k => acc + (memAt s (wrapAddr a k)).toNat <<< (8 * k)) 0
  bitsOf v lo w

/-- The scale of element (i, j); 0x7F for a format without scales (R155). -/
def readScale (s : State) (m : Mdesc) (i j : Nat) : Nat := if isMx m.fmt then (memAt s (m.scaleAddr i j)).toNat else 0x7F

/-! ## Block-sparse images (R212–R214) -/

/-- The image of a BLOCKED MDESC: offsets of its parts and its units. -/
structure Image where
  m : Mdesc
  bmap : Nat
  rptr : Nat
  data : Nat
  units : Nat
  deriving DecidableEq, Repr

/-- `n` little-endian bytes at an offset of an image. -/
def imgNat (s : State) (m : Mdesc) (off n : Nat) : Nat :=
  (List.range n).foldl (fun a k => a + (memAt s (wrapAddr m.base (off + k))).toNat <<< (8 * k)) 0

def imageOf (s : State) (m : Mdesc) : Image :=
  { m, bmap := imgNat s m 0 4, rptr := imgNat s m 4 4, data := imgNat s m 8 4, units := imgNat s m 12 4 }

/-- Lines and K blocks of the grid. -/
def Mdesc.nu (m : Mdesc) : Nat := ((if m.kcol then m.rows else m.cols) + 15) / 16
def Mdesc.nv (m : Mdesc) : Nat := ((if m.kcol then m.cols else m.rows) + 15) / 16

/-- Block (u, v) is present. -/
def Image.has (s : State) (g : Image) (u v : Nat) : Bool :=
  v < g.m.nv && u < g.m.nu &&
    (memAt s (wrapAddr g.m.base (g.bmap + 8 * (u * ((g.m.nv + 63) / 64)) + v / 8))).getLsbD (v % 8)

/-- Bytes of one block, and of one stored unit (R213). -/
def blockBytes (fmt : Nat) : Nat := 32 * fmtBits fmt
def unitBytes (fmt : Nat) : Nat := if isMx fmt then 2 * blockBytes fmt + 16 else blockBytes fmt

/-- Stored units of line u below K block v. -/
def Image.below (s : State) (g : Image) (u v : Nat) : Nat :=
  if isMx g.m.fmt then ((List.range (v / 2)).filter (fun j => g.has s u (2 * j) || g.has s u (2 * j + 1))).length
  else ((List.range v).filter (fun x => g.has s u x)).length

/-- The line pointer of line u. -/
def Image.ptr (s : State) (g : Image) (u : Nat) : Nat := imgNat s g.m (g.rptr + 4 * u) 4

/-- The check at issue (R214). -/
def Image.ok (s : State) (g : Image) : Bool :=
  g.bmap % 64 == 0 && g.rptr % 64 == 0 && g.data % 64 == 0 && g.ptr s g.m.nu == g.units

/-- The check of line u during the walk (R214). -/
def Image.lineOk (s : State) (g : Image) (u : Nat) : Bool :=
  let n := g.m.nv + g.m.nv % 2
  g.below s u n == g.ptr s (u + 1) - g.ptr s u && g.ptr s u ≤ g.ptr s (u + 1)

/-- Offset in the image of the unit that holds block (u, v). -/
def Image.unitOff (s : State) (g : Image) (u v : Nat) : Nat := g.data + (g.ptr s u + g.below s u v) * unitBytes g.m.fmt

/-- The scale that an image stores for the place x along the non-K axis and k along K; 0x7F for a format without scales (R155, R213). -/
def Image.scaleAt (s : State) (g : Image) (x k : Nat) : Nat :=
  if isMx g.m.fmt then imgNat s g.m (g.unitOff s (x / 16) (k / 16) + 2 * blockBytes g.m.fmt + x % 16) 1 else 0x7F

/-- An element of an image by its place along the non-K axis and along K; an absent block counts as +0. -/
def Image.elem (s : State) (g : Image) (x k : Nat) : Num × Flags :=
  let f := g.m.fmt
  let w := fmtBits f
  if g.has s (x / 16) (k / 16) then
    let o := g.unitOff s (x / 16) (k / 16)
    let half := if isMx f then k / 16 % 2 * blockBytes f else 0
    let bit := (k % 16) * w
    let lo := o + half + (x % 16) * (2 * w) + bit / 8
    elemNum f (bitsOf (imgNat s g.m lo ((bit % 8 + w + 7) / 8)) (bit % 8) w) (g.scaleAt s x k)
  else (.fin false 0 0, 0)

/-- A masked element of an image: +0 under its stored scale (R201); an absent block stores none. -/
def Image.zero (s : State) (g : Image) (x k : Nat) : Num × Flags :=
  if g.has s (x / 16) (k / 16) then elemNum g.m.fmt 0 (g.scaleAt s x k) else (.fin false 0 0, 0)

/-- The bytes of an image that say where the units of line u lie: its line pointers and its words of the bitmap. -/
def Image.lineRuns (g : Image) (u : Nat) : List (Nat × Nat) :=
  let words := (g.m.nv + 63) / 64
  wrapRuns g.m.base (g.rptr + 4 * u) 8 ++ wrapRuns g.m.base (g.bmap + 8 * u * words) (8 * words)

/-- The bytes of block (u, v) of an image, where it is present: the block, and the scales of its unit (R213). -/
def Image.blockRuns (s : State) (g : Image) (u v : Nat) : List (Nat × Nat) :=
  let b := blockBytes g.m.fmt
  if !g.has s u v then []
  else if isMx g.m.fmt then
    wrapRuns g.m.base (g.unitOff s u v + v % 2 * b) b ++ wrapRuns g.m.base (g.unitOff s u v + 2 * b) 16
  else wrapRuns g.m.base (g.unitOff s u v) b

/-- The parts of an image: header, bitmap, line pointers and units, as offsets and lengths. -/
def Image.parts (g : Image) : List (Nat × Nat) :=
  [(0, 64), (g.bmap, 8 * g.m.nu * ((g.m.nv + 63) / 64)), (g.rptr, 4 * (g.m.nu + 1)), (g.data, g.units * unitBytes g.m.fmt)]

/-- The parts of an image outside core scratch lie in a partition (R171, R226, R290). -/
def Image.inPart (s : State) (p : Nat) (g : Image) : Bool :=
  g.parts.all (fun r => r.2 == 0 || belongs s p (g.m.base + r.1) r.2)

/-- The value of element (i, j) with the flags its consumption sets (R146, R154, R213). -/
def readElem (s : State) (m : Mdesc) (i j : Nat) : Num × Flags :=
  if m.blocked then (if m.kcol then (imageOf s m).elem s i j else (imageOf s m).elem s j i)
  else elemNum m.fmt (readCode s m i j) (readScale s m i j)

/-- Write the code of element (i, j). -/
def writeCode (m : Mdesc) (i j code : Nat) : Act Unit := do
  let w := fmtBits m.fmt
  let lo := j * w % 8
  let a := m.elemAddr i j
  let n := (lo + w + 7) / 8
  let s ← look
  let v := (List.range n).foldl (fun acc k => acc + (memAt s (wrapAddr a k)).toNat <<< (8 * k)) 0
  let v := setBits v lo w code
  for k in List.range n do
    eff (.mem (wrapAddr a k) (BitVec.ofNat 8 (v >>> (8 * k))))
  homeWrite a n

/-- Write the scale of the block of element (i, j). -/
def writeScale (m : Mdesc) (i j sc : Nat) : Act Unit := do
  eff (.mem (m.scaleAddr i j) (BitVec.ofNat 8 sc))
  homeWrite (m.scaleAddr i j) 1

/-- How a thread's conversions round at position (i, j) of a destination (R148, R149). -/
def roundAt (m : Mdesc) (numCtrl numSeed : Word) (i j : Nat) : Round :=
  { mode := if rmodeOf numCtrl = 3 then 0 else rmodeOf numCtrl,
    draw := srDraw numSeed (srStreamOf numCtrl) (i * m.cols + j) }

/-- Write a rectangle of numbers as elements of a matrix from (i0, j0) on (R149–R152). An element that `pres` does not name is not
written; a matrix command writes it as code 0 in an MX format (`wipe`) and leaves it out of its block's amax (R201), where VST leaves it as it
is (R240). An MX block gets its scale from the elements of the rectangle in it. Row i0 is row `row0` of the destination that the command
names (R149). Answers the flags. -/
def writeRect (m : Mdesc) (i0 j0 : Nat) (vals : List (List Num)) (pres : Nat → Nat → Bool) (numCtrl numSeed : Word) (wipe : Bool := true)
    (row0 : Nat := i0) : Act Flags := do
  let ns := nonSatOf numCtrl
  let at_ := fun (i j : Nat) => (vals.getD (i - i0) []).getD (j - j0) (.fin false 0 0)
  let round := fun (i j : Nat) => roundAt m numCtrl numSeed (row0 + (i - i0)) j
  let rows := (List.range vals.length).map (· + i0)
  let cols := (List.range ((vals.headD []).length)).map (· + j0)
  let mut f : Flags := 0
  if isMx m.fmt then
    for i in rows do
      for j in cols do
        let first := if m.kcol then j % 32 == 0 || j == j0 else i % 32 == 0 || i == i0
        if first then
          let mates := if m.kcol then (cols.filter (fun j' => j' / 32 == j / 32 && pres i j')).map (fun j' => at_ i j')
            else (rows.filter (fun i' => i' / 32 == i / 32 && pres i' j)).map (fun i' => at_ i' j)
          if wipe || !mates.isEmpty then
            let sc := mxScale m.fmt mates
            writeScale m i j sc.1
            f := f ||| sc.2
    for i in rows do
      for j in cols do
        if pres i j then
          let sc := readScale (← look) m i j
          let e := mxElem m.fmt sc (round i j) ns (at_ i j)
          writeCode m i j e.1
          f := f ||| e.2
        else if wipe then writeCode m i j 0
  else
    for i in rows do
      for j in cols do
        if pres i j then
          let e := toFmt m.fmt (round i j) (at_ i j)
          writeCode m i j e.1
          f := f ||| e.2
  return f

/-- The bytes of rows that a matrix occupies outside scratch belong to a partition (R171, R290). -/
def Mdesc.inPart (s : State) (p : Nat) (m : Mdesc) : Bool :=
  belongs s p m.base ((m.rows - 1) * m.stride + m.rowBytes) &&
    (!isMx m.fmt ||
      belongs s p m.scale (if m.kcol then (m.rows - 1) * m.sstride + (m.cols + 31) / 32 else (m.cols - 1) * m.sstride + (m.rows + 31) / 32))

end Sys2Proof.Machine
end

