-- ==== Sys2Proof/Machine/Pools.lean ====
section
/-!
DEFINITION. Husk pools (R259–R268): configuration, the three sources of a buffer, frees, refills, the batch of an exchange allocation,
and the two pool commands of a thread (R188).
-/

namespace Sys2Proof.Machine

/-- Key of pool class `c` of partition `p` (R259). -/
def poolKey (p c : Nat) : Nat := p * 12 + c
/-- Size of a buffer of class `c` (R259). -/
def classSize (c : Nat) : Nat := 256 * 4 ^ c
/-- The smallest class whose buffers hold `n` bytes; none above 1 GiB (R263). -/
def classFor (n : Nat) : Option Nat := (List.range 12).find? (fun c => n ≤ classSize c)
/-- The Husk pool manager that serves a partition reports as unit 0 of its I/O die (R259, R375). -/
def huskDie (p : Nat) : Nat := dieIO (p % 4)

/-- GEN of a pool (R267). -/
def poolGen (s : State) (p c : Nat) : Nat := fieldOf s (rPool p c 0x10) 32 16
def poolOut (s : State) (p c : Nat) : Nat := fieldOf s (rPool p c 0x18) 0 32
def poolWater (s : State) (p c : Nat) : Nat := fieldOf s (rPool p c 0x18) 32 32
/-- The check word of a pool (R262). -/
def checkWord (s : State) (p c : Nat) : Nat := poolKey p c ||| poolGen s p c <<< 16 ||| 0x4855534B <<< 32
def stackBase (s : State) (p : Nat) : Nat := fieldOf s (rPart p 0x0138) 18 34 * 2 ^ 18

/-- A counter of a class, or of the pool set (R268). -/
def rPoolCnt (p c off : Nat) : Nat := rPart p (0x0400 + c * 0x20 + off)
def rPoolSet (p off : Nat) : Nat := rPart p (0x0580 + off)

/-- AVAIL follows the pool (R267). -/
def showAvail (p c : Nat) : Act Unit := do
  let s ← look
  let d := poolOf s (poolKey p c)
  wrF (rPool p c 0x10) 0 32 (d.stack.length + d.freeLen + (d.count - poolWater s p c))

/-! ## Configuration (R260) -/

/-- The whole region lies in one place that may hold a pool (R259, R260). -/
def regionOk (s : State) (p base bytes : Nat) : Bool :=
  let a := tierOf base
  let b := tierOf (base + bytes - 1)
  a == b && (a == .t1 || a == .t2 || a == .t3 || a == .sram) && belongs s p base bytes

/-- The region overlaps a non-empty pool of another class (R260). -/
def overlaps (s : State) (p c base bytes : Nat) : Bool :=
  (List.range 12).any (fun k =>
    let d := poolOf s (poolKey p k)
    k != c && d.count != 0 && base < d.base + d.count * classSize k && d.base < base + bytes)

/-- The checks of INIT (R260 step 2). -/
def poolCfgOk (s : State) (p c : Nat) : Bool :=
  let base := fieldOf s (rPool p c 0) 0 52
  let count := fieldOf s (rPool p c 8) 0 32
  let bytes := count * classSize c
  !(fieldOf s (rPool p c 8) 32 1 == 1 && stackBase s p == 0) &&
    (count == 0 || (base % classSize c == 0 && regionOk s p base bytes && !overlaps s p c base bytes))

/-- INIT of a pool (R260); a teardown makes no check on outstanding buffers. -/
def poolInitAct (p c : Nat) (checkOut : Bool) : Act Unit := do
  let s ← look
  if checkOut && poolOut s p c ≠ 0 then ownDenied
  else if poolCfgOk s p c then
    eff (.pool (poolKey p c) { base := fieldOf s (rPool p c 0) 0 52
                               count := fieldOf s (rPool p c 8) 0 32
                               prefetch := fieldOf s (rPool p c 8) 32 1 == 1 })
    wrReg (rPool p c 0x18) 0
    wrF (rPool p c 0x10) 32 16 (poolGen s p c + 1)
    showAvail p c
  else
    eff (.pool (poolKey p c) {})
    wrReg (rPool p c 0x18) 0
    showAvail p c
    raise 0x2006 0 (huskDie p) 0 (some p) (fieldOf s (rPool p c 0) 0 52)

/-! ## Taking a buffer (R261, R263, R265) -/

/-- Where a buffer came from. -/
inductive Source where
  | stack
  | list
  | fresh
  deriving DecidableEq, Repr

/-- The next pointer of a free-list buffer is 0 or a carved buffer of the pool (R265). -/
def nextOk (s : State) (p c x : Nat) : Bool :=
  let d := poolOf s (poolKey p c)
  x == 0 || (d.base ≤ x && (x - d.base) % classSize c == 0 && (x - d.base) / classSize c < poolWater s p c &&
    (x - d.base) / classSize c < d.count)

/-- The head of the free list, its header checked (R265); a bad header cuts the list there. -/
def popFree (p c : Nat) : Act (Option Nat) := do
  let s ← look
  let d := poolOf s (poolKey p c)
  if d.freeLen = 0 then return none
  let a := d.freeHead
  let good ← consume (huskDie p) 0 (some p) a 16
  let s ← look
  let x := memNat s a 8
  if good && memNat s (a + 8) 8 == checkWord s p c && nextOk s p c x then
    modPool (poolKey p c) (fun d => { d with freeHead := x, freeLen := if x = 0 then 0 else max 1 (d.freeLen - 1) })
    return some a
  ctr32 (rPoolCnt p c 0x18) d.freeLen
  ctr32 (rPoolSet p 8)
  modPool (poolKey p c) (fun d => { d with freeHead := 0, freeLen := 0 })
  showAvail p c
  raise 0x2009 0 (huskDie p) 0 (some p) a
  return none

/-- The next buffer of the untouched region (R261). -/
def carve (p c : Nat) : Act (Option Nat) := do
  let s ← look
  let d := poolOf s (poolKey p c)
  let w := poolWater s p c
  if w < d.count then
    wrF (rPool p c 0x18) 32 32 (w + 1)
    return some (d.base + w * classSize c)
  return none

/-- A buffer of the class from its sources in order (R261), or none. -/
def poolTake (p c : Nat) : Act (Option (Nat × Source)) := do
  let d := poolOf (← look) (poolKey p c)
  match d.stack with
  | a :: rest =>
    modPool (poolKey p c) (fun d => { d with stack := rest })
    return some (a, .stack)
  | [] =>
    match (← popFree p c) with
    | some a => return some (a, .list)
    | none =>
      match (← carve p c) with
      | some a => return some (a, .fresh)
      | none => return none

/-- A taken buffer goes to its user: its header reads 0 (R262). -/
def handOut (p c a : Nat) : Act Unit := do
  putNat a 16 0
  wrF (rPool p c 0x18) 0 32 (poolOut (← look) p c + 1)
  showAvail p c

/-- The classes a request tries (R263). -/
def classesFor (s : State) (p c : Nat) : List Nat :=
  (List.range 12).filter (fun k => c ≤ k && k ≤ min 11 (c + min 11 (fieldOf s (rPart p 0x0130) 0 4)))

/-- A request of `n` bytes (R263): the status of R188, and the address, class and source of the buffer. -/
def poolRequest (p n : Nat) : Act (Nat × Nat × Nat × Source) := do
  match classFor n with
  | none =>
    ctr32 (rPoolSet p 0)
    raise 0x2008 0 (huskDie p) 0 (some p)
    return (2, 0, 0, .fresh)
  | some c =>
    let mut got : Option (Nat × Nat × Source) := none
    for k in classesFor (← look) p c do
      if got.isNone then
        match (← poolTake p k) with
        | some r =>
          if k ≠ c then ctr32 (rPoolCnt p k 0x14)
          got := some (r.1, k, r.2)
        | none => ctr32 (rPoolCnt p k 0x10)
    match got with
    | some (a, k, src) =>
      handOut p k a
      return (0, a, k, src)
    | none =>
      ctr32 (rPoolSet p 4)
      raise 0x2007 0 (huskDie p) 0 (some p)
      return (1, 0, 0, .fresh)

/-- A request by itself: its buffer counts in POOL_ALLOCS. -/
def poolAllocAct (p n : Nat) : Act (Nat × Nat) := do
  let r ← poolRequest p n
  if r.1 = 0 then ctr64 (rPoolCnt p r.2.2.1 0)
  return (r.1, r.2.1)

/-! ## Frees and refills (R261, R262, R264) -/

/-- Write the Husk header of a free buffer (R262). -/
def putHeader (p c a next : Nat) : Act Unit := do putNat a 16 (next ||| checkWord (← look) p c <<< 64)

/-- Put a free buffer onto the head of the free list. -/
def pushFree (p c a : Nat) : Act Unit := do
  let d := poolOf (← look) (poolKey p c)
  putHeader p c a (if d.freeLen = 0 then 0 else d.freeHead)
  modPool (poolKey p c) (fun d => { d with freeHead := a, freeLen := d.freeLen + 1 })

/-- Put a free buffer onto the prefetch stack; its next pointer is unused. -/
def pushStack (p c a : Nat) : Act Unit := do
  putHeader p c a 0
  modPool (poolKey p c) (fun d => { d with stack := a :: d.stack })

/-- The non-empty pool of the partition whose region holds an address. -/
def poolAt (s : State) (p a : Nat) : Option Nat :=
  (List.range 12).find? (fun c =>
    let d := poolOf s (poolKey p c)
    d.count != 0 && d.base ≤ a && a < d.base + d.count * classSize c)

/-- A free (R264): the status of R188. -/
def poolFreeAct (p a : Nat) : Act Nat := do
  let bad : Act Nat := do
    ctr32 (rPoolSet p 8)
    raise 0x2009 0 (huskDie p) 0 (some p) a
    return 3
  let s ← look
  match poolAt s p a with
  | none => bad
  | some c =>
    let d := poolOf s (poolKey p c)
    if (a - d.base) % classSize c ≠ 0 || poolWater s p c ≤ (a - d.base) / classSize c then bad
    else if !(← consume (huskDie p) 0 (some p) (a + 8) 8) then bad
    else
      let s ← look
      if memNat s (a + 8) 8 = checkWord s p c then
        ctr32 (rPoolSet p 0xC)
        raise 0x200A 0 (huskDie p) 0 (some p) a
        return 4
      if d.prefetch && d.stack.length < 32768 then pushStack p c a else pushFree p c a
      wrF (rPool p c 0x18) 0 32 (poolOut s p c - 1)
      ctr64 (rPoolCnt p c 8)
      showAvail p c
      return 0

/-- A refill moves one buffer onto a stack below 16,384 entries (R261). -/
def poolRefillAct (p c : Nat) : Act Unit := do
  let d := poolOf (← look) (poolKey p c)
  if d.prefetch && d.stack.length < 16384 then
    match (← popFree p c) with
    | some a => pushStack p c a
    | none =>
      match (← carve p c) with
      | some a => pushStack p c a
      | none => pure ()
    showAvail p c

/-! ## The batch of an exchange allocation (R266) -/

/-- Give back one buffer of a failed batch: its source is as it was before. -/
def untake (p a c : Nat) (src : Source) : Act Unit := do
  match src with
  | .stack => pushStack p c a
  | .list => pushFree p c a
  | .fresh => wrF (rPool p c 0x18) 32 32 (poolWater (← look) p c - 1)
  wrF (rPool p c 0x18) 0 32 (poolOut (← look) p c - 1)
  showAvail p c

/-- Take buffers of the given sizes in order, all or none (R266). -/
def poolBatch (p : Nat) (sizes : List Nat) : Act (Option (List Nat)) := do
  let mut took : List (Nat × Nat × Source) := []
  let mut ok := true
  for n in sizes do
    if ok then
      let r ← poolRequest p n
      if r.1 = 0 then took := r.2 :: took else ok := false
  if ok then
    for x in took do
      ctr64 (rPoolCnt p x.2.1 0)
    return some (took.reverse.map (·.1))
  for x in took do
    untake p x.1 x.2.1 x.2.2
  return none

/-! ## Commands -/

/-- POOL_ALLOC (R188). -/
def poolAllocBody (i : Iss) : Act SyncEnd := do
  let g := cb i.w 4
  let gs := cb i.w 5
  let n := cf i.w 8 0 64
  if n = 0 || 31 < g || 31 < gs then return .fault 2
  let r ← poolAllocAct i.p n
  modThread i.key (fun t => setG gs (BitVec.ofNat 64 r.1) (setG g (BitVec.ofNat 64 r.2) t))
  return .switch

/-- POOL_FREE (R188). -/
def poolFreeBody (i : Iss) : Act SyncEnd := do
  let g := cb i.w 4
  let gs := cb i.w 5
  if 31 < g || 31 < gs then return .fault 2
  let a := (gOf (threadOf (← look) i.key) g).toNat
  let r ← poolFreeAct i.p (a % 2 ^ 52)
  modThread i.key (setG gs (BitVec.ofNat 64 r))
  return .switch

/-- POOL_ALLOC (R168, R188, R263). -/
def execPoolAlloc (th : Thr) (w : Cmd) (s : State) : Host.Outcome State Fault Refusal := finishIf (opIs 0x16 w) (syncCmd th w poolAllocBody) s
/-- POOL_FREE (R188, R264). -/
def execPoolFree (th : Thr) (w : Cmd) (s : State) : Host.Outcome State Fault Refusal := finishIf (opIs 0x17 w) (syncCmd th w poolFreeBody) s

/-- A write of PART_POOL_STATE_c: INIT = 1 initialises the pool (R260, R267). -/
def poolStateWrite (p c : Nat) (w : Wr) : Act Unit := do
  if wrBits w 63 1 = 1 then poolInitAct p c true

/-- POOL_INIT (R260). -/
def execPoolInit (p : Fin 64) (c : Fin 12) (w : Wr) (s : State) : Host.Outcome State Fault Refusal :=
  finish (ownerWrite w.path (poolStateWrite p c w)) s
/-- POOL_REFILL (R261). -/
def execPoolRefill (p : Fin 64) (c : Fin 12) (s : State) : Host.Outcome State Fault Refusal := finish (poolRefillAct p c) s

end Sys2Proof.Machine
end

