-- ==== Sys2Proof/Machine/Shares.lean ====
section
/-!
DEFINITION. Launches and their shares (R96–R107, R204, R228): how a share is laid out, sent, acknowledged and placed, and what ends an
exchange.
-/

namespace Sys2Proof.Machine

/-! ## Launches -/

def sameL (a b : Launch) : Bool :=
  a.h == b.h && a.kind == b.kind && a.tag == b.tag && a.win == b.win && a.setId == b.setId && a.part == b.part

def modL (l : Launch) (f : Launch → Launch) : Act Unit := modLaunches (·.map (fun x => if sameL x l then f x else x))
def dropL (l : Launch) : Act Unit := modLaunches (·.filter (fun x => !sameL x l))
/-- The launch as it stands. -/
def nowL (l : Launch) : Act Launch := do return ((← look).launches.find? (sameL l)).getD l

def launchesOf (s : State) (h : Nat) : List Launch := s.launches.filter (·.h == h)

/-- The generation of its group that a launch works by: the one its window took as it opened, before that the newest (R23). -/
def genOf (s : State) (l : Launch) : XgGen :=
  match l.held with
  | some x => x.1
  | none => newGen s l.h

/-- The launch that the next window of a group is meant for: launches wait in launch order (R97). -/
def nextLaunch (s : State) (h : Nat) : Option Launch :=
  (launchesOf s h).find? (fun l => l.phase == .queued || l.phase == .allocated || l.phase == .ready)

/-- The current window of a group: its latest opened launch. -/
def currentL (s : State) (h : Nat) : Option Launch := ((launchesOf s h).filter (·.phase == .opened)).getLast?

/-- The holder name of a launch's window grant (R345, R351). -/
def windowHolder (l : Launch) : Holder := .window l.h l.tag ((if l.kind == .ret then 65536 else if l.kind == .coll then 131072 else 0) + l.win)

/-- The network dies ask for the window grant (R345, R351). -/
def askWindow (l : Launch) : Act Unit := do
  let s ← look
  askGrant { who := windowHolder l, mw := classMw s (fieldOf s 0x040008 16 3), prio := 15, part := l.part }

/-! ## Generations of a group (R23, R26, R89) -/

/-- NET_XG_COMMIT shows the addressed group (R90). -/
def showXg : Act Unit := do
  let s ← look
  let h := fieldOf s 0x440010 0 8
  let g := groupOf s h
  wrReg 0x440010 (h ||| g.state <<< 9 ||| (if g.next.isSome then 1 else 0) <<< 12 ||| g.gen.toNat <<< 32)

/-- A window that has not ended holds an older generation than the one new windows take (R26). -/
def xgHeld (s : State) (h : Nat) : Bool :=
  (launchesOf s h).any (fun l => match l.held with
    | some x => !l.past && x.2 != (groupOf s h).used
    | none => false)

/-- New windows take a committed generation from now on; the DEAD bits of its members clear (R72), and a member without a path is DEAD at once
(R132). -/
def xgInForce (h : Nat) (g : XgGen) : Act Unit := do
  modGroup h (fun x => { x with desc := g.1, members := g.2, used := x.gen, next := none, ackMask := [] })
  clearDead (dPart g.1) g.2
  if dEn g.1 then
    for r in othersOf g do
      if !hasPath (← look) h g r then lostPath h g r

/-- A pending commit takes effect once no window holds the older generation (R26). -/
def xgRelease (h : Nat) : Act Unit := do
  let s ← look
  match (groupOf s h).next with
  | none => return
  | some g =>
    if !xgHeld s h then
      xgInForce h g
      showXg

/-! ## The receive plan and the gather entry (R204, R228) -/

def plArrCore (x : Item) : Nat := ibits x 0 11
def plArrPip (x : Item) : Nat := ibits x 16 6
def plDoneCore (x : Item) : Nat := ibits x 32 11
def plDonePip (x : Item) : Nat := ibits x 48 6
def plDoneCount (x : Item) : Nat := max 1 (ibits x 64 16)
def plWlAlloc (x : Item) : Bool := ibits x 80 1 == 1
def plBufTab (x : Item) : Nat := ibits x 128 52
def plWl (x : Item) : Nat := ibits x 192 52

def gaMask (x : Item) : Nat := ibits x 0 64
def gaArea (x : Item) : Nat := ibits x 64 52
def gaItems (x : Item) : Nat := ibits x 128 32
def gaAlloc (x : Item) : Bool := ibits x 160 1 == 1
def gaTmpl (x : Item) : Nat := ibits x 192 52
def gaSlotTab (x : Item) : Nat := ibits x 256 52
def gaHdrCore (x : Item) : Nat := ibits x 320 11
def gaHdrPip (x : Item) : Nat := ibits x 336 6

/-- Addresses of a handle's receive plan and gather entry. -/
def planAddr (s : State) (p h : Nat) : Nat := fieldOf s (rPart p 0x118) 14 38 * 2 ^ 14 + h * 64
def gatherAddr (s : State) (p h : Nat) : Nat := fieldOf s (rPart p 0x128) 14 38 * 2 ^ 14 + h * 64

/-- Bytes of one item of the gather area (R228). -/
def itemBytes (t : Mdesc) : Nat := 64 * (t.stride + t.sstride) + 512

/-! ## The layout of a share (R96, R98) -/

def capSum (l : Launch) : Nat := l.caps.foldl (· + ·) 0

/-- Positions of each die in the window of the launch, for the COUNT_d of a source: CAPACITY in Reserved mode, the true counts in
Elastic mode (R96, R98). -/
def dieN (l : Launch) (cnt caps : List Nat) : List Nat :=
  (List.range 4).map (fun d =>
    let c := caps.getD d 0
    if l.elastic then min c (cnt.getD d 0 - l.win * c) else c)

/-- The admitted picks of a launch's submits, with their Sedge die. -/
def picksOf (s : State) (l : Launch) : List (Nat × Submit × Pick) :=
  (setSubmits s l.part l.setId l.tag).flatMap (fun u => (u.picks.filter (fun k => k.gap.isNone)).map (fun k => (u.rctx / 256, u, k)))

/-- COUNT_d of this device to a destination over the whole submit (R96). -/
def ownCounts (s : State) (l : Launch) (dst : Nat) : List Nat :=
  (List.range 4).map (fun d => ((picksOf s l).filter (fun x => x.1 == d && x.2.2.dest == dst)).length)

/-- The positions of the share to a destination, in order: the route that each carries (R98, R69). -/
def sharePos (s : State) (l : Launch) (dst : Nat) : List (Option (Nat × Submit × Pick)) :=
  let ps := (picksOf s l).filter (fun x => x.2.2.dest == dst && x.2.2.win == l.win)
  let ns := dieN l (ownCounts s l dst) l.caps
  (List.range 4).flatMap (fun d => (List.range (ns.getD d 0)).map (fun i => ps.find? (fun x => x.1 == d && x.2.2.pos == i)))

/-- The positions of a list that hold something. -/
def validPos {α : Type} (l : List (Option α)) : List Nat :=
  l.zipIdx.filterMap (fun x => if x.1.isSome then some x.2 else none)

/-- The frames of a share that hold manifest bytes or bytes of a valid position (R98): `m` manifest bytes, `n` positions of `tb`. -/
def shareFrames (m n tb : Nat) (valid : List Nat) : List Nat :=
  (List.range ((m + n * tb + 8191) / 8192)).filter (fun k =>
    8192 * k < m || valid.any (fun i => m + i * tb < 8192 * k + 8192 && 8192 * k < m + (i + 1) * tb))

/-- A manifest entry (R98). -/
def manifestEntry (se : Nat) (k : Pick) : Nat := k.slot ||| 1 <<< 9 ||| k.rank <<< 16 ||| k.tok <<< 24 ||| se <<< 48

/-- The 8 bytes of a position's manifest entry; an entry with VALID = 0 holds free values in its other fields (log entry 2). -/
def manifestBytes (draw i : Nat) (x : Option (Nat × Submit × Pick)) : List Byte :=
  match x with
  | some y => natBytes 8 (manifestEntry y.1 y.2.2)
  | none => natBytes 8 (leNat ((List.range 8).map (fun j => Config.freeByte draw (8 * i + j))) &&& 0x3FFFFFF0F01FF)

/-- Bytes `[lo, hi)` of the dispatch share to a destination (R98): a position's bytes are TOKEN_BYTES from the first byte of its payload row.
Bytes of a position that carries nothing, or whose row is not the partition's, are free values (R290, log entry 2); none where an error
was consumed (R374). -/
def shareBytes (l : Launch) (die unit : Nat) (pos : List (Option (Nat × Submit × Pick))) (lo hi : Nat) : Act (Option (List Byte)) := do
  let draw := (← look).freeIdx
  eff .draw
  let m := 8 * pos.length
  let man := pos.zipIdx.flatMap (fun x => manifestBytes draw x.2 x.1)
  let mut out := (man.drop lo).take (hi - lo)
  let mut good := true
  for x in pos.zipIdx do
    let a := max lo (m + x.2 * l.tokenBytes)
    let b := min hi (m + (x.2 + 1) * l.tokenBytes)
    if a < b then
      let pad := (List.range (b - a)).map (fun j => Config.freeByte draw (a + j))
      match x.1 with
      | none => out := out ++ pad
      | some y =>
        let d := mdescOf y.2.1.payload
        let r := wrapAddr d.base (y.2.2.tok * d.stride + (a - (m + x.2 * l.tokenBytes)))
        if ← unitCheck die unit l.part r (b - a) then
          if !(← consume die unit (some l.part) r (b - a)) then good := false
          out := out ++ memBytes (← look) r (b - a)
        else out := out ++ pad
  return if good then some out else none

/-! ## Sending (R91, R93, R104, R106) -/

def modTx (l : Launch) (dst : Nat) (f : TxShare → TxShare) : Act Unit :=
  modL l (fun x => { x with tx := x.tx.map (fun t => if t.dst == dst then f t else t) })
def modRx (l : Launch) (src : Nat) (f : RxShare → RxShare) : Act Unit :=
  modL l (fun x => { x with rx := x.rx.map (fun t => if t.src == src then f t else t) })

/-- The payload of frame `k` of a share. -/
def framePayload (l : Launch) (t : TxShare) (k port : Nat) : Act (Option (List Byte)) := do
  match l.kind with
  | .coll => return some (tget [] t.data k)
  | .ret =>
    let n := min 8192 (t.len - 8192 * k)
    let a := t.addr + 8192 * k
    if ← consume (ndOf port) (port % 8) (some l.part) a n then return some (memBytes (← look) a n)
    return none
  | .dispatch =>
    let pos := sharePos (← look) l t.dst
    shareBytes l (ndOf port) (port % 8) pos (8192 * k) (min (8192 * k + 8192) (pos.length * (8 + l.tokenBytes)))

/-- Byte offset of frame `k` in its share (R104): 8,192 bytes a frame, but for a collective's frames, which may be shorter (R109). -/
def frameOffset (l : Launch) (t : TxShare) (k : Nat) : Nat :=
  if l.kind = .coll then (List.range k).foldl (fun a j => a + (tget [] t.data j).length) 0 else 8192 * k

/-- Frame `k` of a share goes to a port's VC6 queue (R104); an error met in its bytes stops the share (R374). -/
def sendFrame (l : Launch) (t : TxShare) (k port round : Nat) (tail : Bool) : Act Unit := do
  match (← framePayload l t k port) with
  | none => modTx l t.dst (fun t => { t with stopped := true })
  | some bytes =>
    let s ← look
    let g := genOf s l
    let again := t.sent.contains k
    let v := if l.stream then 5 else 6
    sendOxt port v { ver2 := dVer2 g.1, typ := t.typ, dst := genNode g t.dst, xgroup := l.h, jobGen := jobGen s l.part, part := l.part
                     round, window := l.window, psn := k, offset := frameOffset l t k
                     flags := (if t.frames.getLast? = some k then 1 else 0) ||| (if tail then 2 else 0)
                     udpSrc := some (0xC000 + port), payload := bytes }
    ctr64 (rXg l.h 0)
    if again then ctr32 (rXg l.h 0x10)
    modTx l t.dst (fun t => { t with sent := if again then t.sent else t.sent ++ [k]
                                     tries := if tail then tput 0 t.tries k (tget 0 t.tries k + 1) else t.tries })

/-- Frames of a share leave, striped over ports of which there is at least one (R93, R106). -/
def sendOver (l : Launch) (dst : Nat) (ps ks : List Nat) (round : Nat) (tail : Bool) : Act Unit := do
  for k in ks do
    match (← nowL l).tx.find? (fun t => t.dst == dst) with
    | none => pure ()
    | some t =>
      unless t.stopped || (!tail && t.sent.contains k) do sendFrame l t k (ps.getD (k % ps.length) 0) round tail

/-- A round starts (R91, R95): each port group sends its share's frames, striped over its usable ports (R93). A destination without a
usable port gets nothing and is DEAD at once (R132). -/
def roundStart (l : Launch) (r : Nat) : Act Unit := do
  let g := genOf (← look) l
  for x in roundSends g.1 r do
    let s ← look
    match (← nowL l).tx.find? (fun t => t.dst == x.1) with
    | none => pure ()
    | some t =>
      let ps := usable s l.h g x.1 x.2
      if ps.isEmpty then
        unless hasPath s l.h g x.1 do lostPath l.h g x.1
      else sendOver l x.1 ps t.frames r false

/-- Frames of a share go out as tail frames, on any usable port to the destination (R106). -/
def sendTail (l : Launch) (dst : Nat) (ks : List Nat) : Act Unit := do
  let s ← look
  let g := genOf s l
  let ps := usable s l.h g dst (portsTo g.1 dst)
  if ps.isEmpty then
    unless ks.isEmpty do lostPath l.h g dst
  else sendOver l dst ps ks 0 true

/-- Frames of a share that are not acknowledged. -/
def owed (t : TxShare) : List Nat := if t.stopped then [] else t.frames.filter (fun k => !t.acked.contains k)

/-- RETX_MAX and ACK_TO_NS (R90). -/
def retxMax (s : State) : Nat := max 1 (fieldOf s 0x440000 32 4)
def ackTo (s : State) : Nat := fieldOf s 0x440000 16 16

/-! ## Receiving (R99, R105) -/

/-- Ports whose link is up, as an ACK reports them (R104). -/
def upMask (s : State) : Nat := (List.range 64).foldl (fun a p => if linkUp s p then a + 2 ^ p else a) 0

def missing (x : RxShare) : List Nat := x.need.filter (fun k => !x.placed.contains k)

/-- The payload of an ACK or SACK (R104): frames below the base have been received. -/
def ackBytes (s : State) (x : RxShare) : List Byte :=
  let base := match missing x with
    | k :: _ => k
    | [] => x.placed.foldl (fun a k => max a (k + 1)) 0
  let map := (x.placed.filter (fun k => base ≤ k && k < base + 256)).foldl (fun a k => a ||| 1 <<< (k - base)) 0
  natBytes 8 (upMask s) ++ natBytes 4 base ++ natBytes 32 map ++ natBytes 4 0

/-- The port that acknowledges a share: the one its last frame came by; where none came, or that one is down, a usable port to the source,
which the spec does not name, picked by a free value (log entry 60). -/
def ackPort (l : Launch) (x : RxShare) : Act (Option Nat) := do
  let s ← look
  let g := genOf s l
  match x.lastPort with
  | some p => if linkUp s p then return some p
  | none => pure ()
  let us := usable s l.h g x.src (portsTo g.1 x.src)
  if us.isEmpty then return none
  let v ← drawFree
  return us[v.toNat % us.length]?

/-- Send an ACK (1) or SACK (2) for a share (R105); nothing goes to a source without a path (R132). -/
def sendAck (l : Launch) (src typ round : Nat) : Act Unit := do
  let s ← look
  let g := genOf s l
  match (← nowL l).rx.find? (fun x => x.src == src) with
  | none => return
  | some x =>
    if !hasPath s l.h g src then return
    match (← ackPort l x) with
    | none => return
    | some port =>
      let v := if l.stream then 5 else 6
      sendOxt port v { ver2 := dVer2 g.1, typ, dst := genNode g src, xgroup := l.h, jobGen := jobGen s l.part, part := l.part
                       round, window := l.window, udpSrc := some (0xC000 + port), payload := ackBytes s x }

/-- Manifest entries of a received share that carry a token: position and entry (R98). -/
def validEntries (s : State) (x : RxShare) : List (Nat × Nat) :=
  (List.range x.npos).filterMap (fun i =>
    let e := memNat s (x.buf + 8 * i) 8
    if bitsOf e 9 1 = 1 then some (i, e) else none)

/-- A share is delivered: the arrival pip of the plan counts it, once (R99, R204). -/
def deliver (l : Launch) (src : Nat) : Act Unit := do
  modRx l src (fun x => { x with delivered := true })
  if l.kind = .dispatch then unitSignal (dieND 0) l.h l.part (plArrCore l.plan) (plArrPip l.plan)

/-- What must come of a share once its manifest is in (R99), and its delivery. -/
def checkDelivered (l : Launch) (src : Nat) : Act Unit := do
  let s ← look
  match (← nowL l).rx.find? (fun x => x.src == src) with
  | none => return
  | some x =>
    if x.delivered || x.discarded then return
    let m := 8 * x.npos
    if x.form = 0 && (missing x).isEmpty then
      let need := shareFrames m x.npos l.tokenBytes ((validEntries s x).map (·.1))
      modRx l src (fun x => { x with need := need })
      if need.all (fun k => x.placed.contains k) then deliver l src
    else if (missing x).isEmpty then deliver l src

/-- The window and launch a frame belongs to (R107 conditions 3 and 4); what refuses it is counted. -/
def acceptWindow (h : Nat) (ver2 stream : Bool) (window : Nat) : Act (Option Launch) := do
  let s ← look
  if stream then
    match (launchesOf s h).find? (·.stream) with
    | some l => return some l
    | none =>
      ctr32 (rXg h 0x20)
      return none
  let g := groupOf s h
  let same := fun (w : Nat) => if ver2 then w % 65536 == window % 65536 else w == window
  let now := ftNs s
  let okW := g.wins.any (fun w => same w.1 && (some w == g.wins.getLast? || now < w.2))
  if !okW then
    ctr32 (rXg h 0x1C)
    return none
  match (launchesOf s h).find? (fun l => (l.phase == .opened || l.phase == .closed) && !l.past && !l.stream && same l.window) with
  | some l => return some l
  | none =>
    ctr32 (rXg h 0x20)
    return none

/-- The group of a frame, its generation checked first (R107 condition 2, R300). A version 2 frame is of its group's partition (R108). A frame
of a group that is not enabled names no current window; one in the other version, or of another partition than its group's, meets no launch
(log entry 82). -/
def acceptGroup (f : Frame) (ack : Bool) : Act (Option Nat) := do
  let s ← look
  let h := f.xgroup.toNat
  let d := (groupOf s h).desc
  let p := if f.ver2 then dPart d else f.part.val
  if !jobCurrent s p f.jobGen.toNat ack then
    staleGen f.port p f.srcNode.toNat
    return none
  if !groupOn s h then
    if h < 256 then ctr32 (rXg h 0x1C)
    return none
  if p ≠ dPart d || f.ver2 ≠ dVer2 d then
    ctr32 (rXg h 0x20)
    return none
  return some h

/-- The group, launch and source rank of a frame that R107 accepts. -/
def acceptFrame (f : Frame) (stream : Bool) : Act (Option (Launch × Nat)) := do
  match (← acceptGroup f false) with
  | none => return none
  | some h =>
    match (← acceptWindow h f.ver2 stream f.window.toNat) with
    | none => return none
    | some l =>
      match genRank (genOf (← look) l) f.srcNode.toNat with
      | some r => return some (l, r)
      | none =>
        ctr32 (rXg h 0x20)
        return none

/-- The round in which a source's share comes (R91), and the end of a round's slot (R95, R96). -/
def roundOfSrc (d : Item) (src : Nat) : Nat :=
  if dMesh d then 1 else ((dRank d + dN d - src) % dN d - 1) / dG d + 1
def slotEnd (d : Item) (l : Launch) (r : Nat) : Nat := l.openFt + dataStart d l.elastic + r * l.slotNs

/-- Where bytes at an offset of a share go: its buffer, or the pieces that make it up. -/
def pieceBytes (x : RxShare) (off : Nat) (bs : List Byte) : List (Nat × List Byte) :=
  if x.pieces.isEmpty then [(x.buf + off, bs)] else
    (x.pieces.foldl (fun (acc : Nat × List (Nat × List Byte)) p =>
      let lo := max off acc.1
      let hi := min (off + bs.length) (acc.1 + p.2)
      (acc.1 + p.2, if lo < hi then acc.2 ++ [(p.1 + (lo - acc.1), (bs.drop (lo - off)).take (hi - lo))] else acc.2)) (0, [])).2

/-- Place a frame of a share (R105); answers whether the share takes it. -/
def placeFrame (l : Launch) (x : RxShare) (f : Frame) : Act Bool := do
  if x.discarded || x.bytes < f.offset.toNat + f.payload.length then
    ctr32 (rXg l.h 0x20)
    return false
  modRx l x.src (fun x => { x with lastPort := some f.port.val })
  if x.placed.contains f.psn.toNat then
    ctr32 (rXg l.h 0x14)
    return true
  let s ← look
  if x.form ≠ 3 then
    let ps := pieceBytes x f.offset.toNat f.payload
    let _ ← aliveRuns (ndOf f.port) (f.port.val % 8) (some l.part) (ps.map (fun y => (y.1, y.2.length)))
    for y in ps do
      putBytes y.1 y.2
  modRx l x.src (fun x => { x with placed := (x.placed.filter (· < f.psn.toNat)) ++ f.psn.toNat :: x.placed.filter (f.psn.toNat < ·) })
  ctr64 (rXg l.h 8)
  let d := (genOf s l).1
  if !l.stream && slotEnd d l (roundOfSrc d x.src) < ftNs s then ctr32 (rXg l.h 0x18)
  return true

/-! ## Acknowledgements at the sender (R93, R104, R106) -/

/-- What an ACK or SACK payload says: the port mask, and whether frame `k` has been received. -/
def ackMaskOf (b : List Byte) : Word := BitVec.ofNat 64 (leNat (b.take 8))
def ackHas (b : List Byte) (k : Nat) : Bool :=
  let base := leNat ((b.drop 8).take 4)
  k < base || (k < base + 256 && bitsOf (leNat ((b.drop 12).take 32)) (k - base) 1 == 1)

/-- The usable ports of a node as its ACK reports them (R93); a member they leave without a path is DEAD at once (R132). -/
def takeMask (h node : Nat) (mask : Word) : Act Unit := do
  let s ← look
  let g := newGen s h
  modGroup h (fun x => { x with ackMask := tput 0xFFFFFFFFFFFFFFFF x.ackMask node mask })
  match genRank g node with
  | none => return
  | some r => if r ≠ dRank g.1 && hasPath s h g r && !hasPath (← look) h g r then lostPath h g r

/-- An ACK or SACK of a window: the destination's usable ports, the frames it has, and for a SACK the frames it names. Those go again as tail
frames, which begin at W_END (R95, R106): before it they stay owed. -/
def takeAck (h node : Nat) (ver2 stream : Bool) (window : Nat) (b : List Byte) (sack : Bool) : Act Unit := do
  takeMask h node (ackMaskOf b)
  let s ← look
  let same := fun (w : Nat) => if ver2 then w % 65536 == window % 65536 else w == window
  match (launchesOf s h).find? (fun l => (l.phase == .opened || l.phase == .closed) && l.stream == stream && (stream || same l.window)) with
  | none => pure ()
  | some l =>
    match genRank (genOf s l) node with
    | none => pure ()
    | some r =>
      modTx l r (fun t => { t with acked := t.frames.filter (fun k => t.acked.contains k || (t.sent.contains k && ackHas b k)) })
      if sack && l.phase = .closed then
        match (← nowL l).tx.find? (fun t => t.dst == r) with
        | none => pure ()
        | some t =>
          let base := leNat ((b.drop 8).take 4)
          sendTail l r (t.frames.filter (fun k => base ≤ k && k < base + 256 && t.sent.contains k && !ackHas b k && tget 0 t.tries k < retxMax s))

/-! ## The end of an exchange (R100, R101, R207) -/

/-- Return buffers to their pools. -/
def freeAll (p : Nat) (l : List Nat) : Act Unit := do
  for a in l do
    let _ ← poolFreeAct p a

/-- Work list and gather area that the device allocated (R207, R229). -/
def listBufs (l : Launch) : List Nat :=
  (if l.wl ≠ 0 then [l.wl] else []) ++ (if l.area ≠ 0 then [l.area] else [])

/-- The launches of a submit, both ways. -/
def exchangeOf (s : State) (p setId tag : Nat) : List Launch :=
  s.launches.filter (fun l => l.part == p && l.setId == setId && l.tag == tag && l.kind != .coll)

/-- An exchange ends: what it holds goes back. -/
def endExchange (p setId tag : Nat) : Act Unit := do
  for l in exchangeOf (← look) p setId tag do
    dropGrant (windowHolder l)
    if l.kind = .dispatch then
      freeAll p ((l.rx.filter (fun x => x.buf != 0)).map (·.buf))
      freeAll p (l.retBufs.map (fun x => x.2.2))
      freeAll p (listBufs l)
    dropL l
    xgRelease l.h

/-- A launch fails whole (R100, R101): every submit of the set fails with status 2. -/
def failExchange (p setId tag : Nat) : Act Unit := do
  endExchange p setId tag
  for u in setSubmits (← look) p setId tag do
    failSubmit u

/-- Once the deadline of every return window has passed and every combine has read its returns, the buffers go back to their pools
(R101, log entry 20). -/
def finishExchange (p setId tag : Nat) : Act Unit := do
  let s ← look
  let ls := exchangeOf s p setId tag
  let nd := (ls.filter (fun l => l.kind == .dispatch)).length
  let nr := (ls.filter (fun l => l.kind == .ret && l.past)).length
  if (setSubmits s p setId tag).isEmpty && nd = nr then endExchange p setId tag

end Sys2Proof.Machine
end

