-- ==== Sys2Proof/Machine/Arbiter.lean ====
section
/-!
DEFINITION. A port's transmit arbiter (R134–R136).
-/

namespace Sys2Proof.Machine

/-- The port runs at 800 Gb/s. -/
def halfRate (s : State) (n : Nat) : Bool := fieldOf s (rPort n 8) 16 1 == 1

/-- Weight of a virtual channel (R134); 0 acts as 1. -/
def vcWeight (s : State) (n v : Nat) : Nat := max 1 (fieldOf s (rPort n 0x28) (8 * v) 8)

/-- VC7_CAP as it acts (R135, R142). -/
def vc7Cap (s : State) (n : Nat) : Nat := min 50 (max 1 (fieldOf s (rPort n 0x28) 48 8))

/-- What VC7 may send now, in tenths of a byte (R135): the rate cap with a burst of 18,432 bytes. -/
def vc7Room (s : State) (n : Nat) : Nat :=
  let d := portOf s n
  min 184320 (d.cap7 + (s.time.now - d.cap7At) * vc7Cap s n * (if halfRate s n then 1 else 2))

/-- The offset of the first round in which a port sends for a launch's group, counted from the opening of its window (R91, R96); none where
it sends in no round, as a port without PORT_EN or one whose port group idles. -/
def roundOffsets (d : Item) (l : Launch) (n : Nat) : List Nat :=
  if !dPortEn d n then [] else
    ((List.range (nround d)).filter (fun r => (roundSends d (r + 1)).any (fun x => x.2.contains n))).map (fun r => dataStart d l.elastic + r * l.slotNs) ++
      (if l.elastic && l.kind == .dispatch && l.win = 0 then
        ((List.range (countRounds d)).filter (fun c => countPort d c n)).map (fun c => c * countT d)
      else [])

/-- A VC6 round begins on a port at a fabric time of `[a, b)` (R134): a data or count round of an open window, or of one about to open. -/
def roundBegins (s : State) (n a b : Nat) : Bool :=
  let has := fun (t : Nat) => a ≤ t && t < b
  s.launches.any (fun l => !l.stream && l.phase == .opened && (roundOffsets (genOf s l).1 l n).any (fun o => has (l.openFt + o))) ||
    s.groups.any (fun e => match nextLaunch s e.1 with
      | none => false
      | some l => l.phase == .ready && (List.range 1024).any (fun k =>
          fieldOf s (rSet k 2) 0 5 == 0x11 && fieldOf s (rSet k 2) 16 16 == e.1 && fieldOf s (rSet k 2) 8 6 == l.part &&
            (roundOffsets e.2.desc { l with slotNs := slotT s e.2.desc l.smax } n).any (fun o => has ((regOf s (rSet k 0)).toNat + o))))

/-- A frame leaves a virtual channel's queue. -/
def takeTx (n : Nat) (x : TxFrame) : Act Unit := do
  modPort n (fun d => { d with txq := d.txq.erase x })
  ctr64 (rVc n x.vc 0)
  emitFrame n (some x.vc) x.len x.msg

/-- A tail frame (R106). -/
def tailTx (x : TxFrame) : Bool :=
  match x.msg with
  | .oxt m => m.flags / 2 % 2 == 1
  | _ => false

/-- The frame may leave: no OXT frame does while NET_NODE is 0xFFFF (R125). -/
def maySend (s : State) (x : TxFrame) : Bool :=
  netNode s != 0xFFFF || (match x.msg with
    | .oxt _ => false
    | .mgmt _ _ _ _ => false
    | _ => true)

/-- The first frame of a virtual channel that may leave; on VC6 tail frames go ahead of the data of a round (R106). -/
def headTx (s : State) (n v : Nat) : Option TxFrame :=
  let q := (portOf s n).txq.filter (fun x => x.vc == v && maySend s x)
  match (if v = 6 then q.find? tailTx else none) with
  | some x => some x
  | none => q.head?

/-- Deficit-weighted round robin over VC0–VC5 (R134): the quantum is added as the turn comes to a channel with frames; a channel that
has none loses its deficit, and a paused one is passed over (R138). -/
def dwrr : Nat → Nat → Act Unit
  | 0, _ => pure ()
  | fuel + 1, n => do
    let s ← look
    let d := portOf s n
    let v := d.turn
    let go := match headTx s n v with
      | some x => !d.pausedBy.contains v && x.len ≤ tget 0 d.deficit v
      | none => false
    if go then
      match headTx s n v with
      | some x =>
        modPort n (fun d => { d with deficit := tput 0 d.deficit v (tget 0 d.deficit v - x.len) })
        takeTx n x
      | none => pure ()
    else
      let u := (v + 1) % 6
      let keep := if (headTx s n v).isNone then tput 0 d.deficit v 0 else d.deficit
      let more := if (headTx s n u).isSome && !d.pausedBy.contains u then tput 0 keep u (tget 0 keep u + vcWeight s n u * 9216) else keep
      modPort n (fun d => { d with turn := u, deficit := more })
      dwrr fuel n

/-- One choice of a port's arbiter (R134, R135). -/
def chooseFrame (n : Nat) : Act Unit := do
  let s ← look
  if linkUp s n then
    match headTx s n 6 with
    | some x => takeTx n x
    | none =>
      let now := ftNs s
      if roundBegins s n now (now + (if halfRate s n then 94 else 47)) then return
      match headTx s n 7 with
      | some x =>
        let room := vc7Room s n
        if x.len * 10 ≤ room then
          modPort n (fun d => { d with cap7 := room - x.len * 10, cap7At := s.time.now })
          takeTx n x
        else dwrr 14 n
      | none => dwrr 14 n

/-- PORT_FRAME_CHOICE (R134). -/
def execPortFrameChoice (port : Fin 64) (s : State) : Host.Outcome State Fault Refusal := finish (chooseFrame port) s

end Sys2Proof.Machine
end

