-- ==== Sys2Proof/Machine/Ept.lean ====
section
/-!
DEFINITION. The expert placement table (R63–R66, R381): the image, its two-phase commit, the comparison of the four copies, and the resident
layer slots.
-/

namespace Sys2Proof.Machine

/-! ## The image (R63, R64) -/

def rEptBase (p : Nat) : Nat := rSre 0 (0x100 + 0x10 * p)
def rEptCommit (p : Nat) : Nat := rSre 0 (0x108 + 0x10 * p)
/-- Commit record of a die (R66). -/
def rEptRec (se p : Nat) : Nat := rSre se (0x2000 + 0x10 * p)

/-- The staged image base (R65). -/
def eptStagedBase (s : State) (p : Nat) : Nat := fieldOf s (rEptBase p) 16 36 * 2 ^ 16

def nlayerAt (s : State) (base : Nat) : Nat := memNat s base 4
def layerAt (base l : Nat) : Nat := base + 0x10000 + l * 0xC0000
def layerCrcOk (s : State) (base l : Nat) : Bool := (crc32c (memBytes s (layerAt base l) 0xC0000)).toNat == memNat s (base + 64 + 4 * l) 4

/-- Bytes of an image. -/
def imageLen (n : Nat) : Nat := 0x10000 + n * 0xC0000

/-- A word of the EPT registers in SE0's block, with its mirrors in SE1–SE3 (R65). -/
def wrEptMirror (off v : Nat) : Act Unit := do
  for d in List.range 4 do
    wrReg (off + d * 0x10000) v

def wrEptField (off lo len v : Nat) : Act Unit := do wrEptMirror off (setBits (← rdReg off) lo len v)

def eptState (s : State) (p : Nat) : Nat := fieldOf s (rEptCommit p) 32 3
def eptGenOf (s : State) (p : Nat) : Nat := fieldOf s (rEptCommit p) 0 32

/-! ## The commit (R24, R26, R65) -/

/-- A write of SRE_EPT_COMMIT_p. -/
def eptCommitWrite (p : Nat) (w : Wr) : Act Unit := do
  if wrBits w 36 1 = 1 then
    let s ← look
    let cur := BitVec.ofNat 32 (eptGenOf s p)
    let base := eptStagedBase s p
    if eptState s p = 1 || BitVec.ofNat 32 (wrBits w 0 32) ≠ nextGen cur || (cur ≠ 0 && base = (partOf s p).eptBase) then ownDenied
    else
      modPart p (fun d => { d with eptPrep := base, eptDone := [] })
      wrEptField (rEptCommit p) 32 3 1

/-- A write of SRE_EPT_BASE_p: while PENDING is set the staged copy must not be rewritten (R26), and a staging base equal to the image base
in use is discarded (R65). -/
def eptBaseWrite (p : Nat) (w : Wr) : Act Unit := do
  let s ← look
  let new := plainWrite (rEptBase p) (regOf s (rEptBase p)).toNat w
  let d := partOf s p
  if fieldOf s (rEptCommit p) 35 1 = 1 || (d.eptGen != 0 && bitsOf new 16 36 * 2 ^ 16 == d.eptBase) then ownDenied
  else wrEptMirror (rEptBase p) new

/-- A die writes its commit record: the checksum first (R66). -/
def putRec (se p state gen sum : Nat) : Act Unit := do
  wrReg (rEptRec se p + 8) sum
  wrReg (rEptRec se p) (state ||| gen <<< 32)

def recState (s : State) (se p : Nat) : Nat := fieldOf s (rEptRec se p) 0 2
def recGen (s : State) (se p : Nat) : Nat := fieldOf s (rEptRec se p) 32 32
def recSum (s : State) (se p : Nat) : Nat := fieldOf s (rEptRec se p + 8) 0 32

/-- The highest generation with a COMMITTED record (R381). -/
def eptWinner (s : State) (p : Nat) : Nat :=
  (List.range 4).foldl (fun a d => if recState s d p = 2 && genNewer (BitVec.ofNat 32 (recGen s d p)) (BitVec.ofNat 32 a) then recGen s d p else a) 0

/-- A die's record is older than the winner's or no commit record (R381); one PREPARED for a newer generation is neither (log entry 126). -/
def eptStale (s : State) (se p : Nat) : Bool :=
  eptWinner s p != 0 && !(recState s se p == 2 && recGen s se p == eptWinner s p) &&
    !(recState s se p == 1 && genNewer (BitVec.ofNat 32 (recGen s se p)) (BitVec.ofNat 32 (eptWinner s p)))

/-- The comparison of the four copies (R381). -/
def eptCompare (p : Nat) : Act Unit := do
  let s ← look
  let win := eptWinner s p
  if win ≠ 0 then
    for d in List.range 4 do
      if eptStale s d p then raise 0x6002 1 (dieSE d) 0 (some p)
    let sums := ((List.range 4).filter (fun d => recState s d p == 2 && recGen s d p == win)).map (fun d => recSum s d p)
    if sums.any (· != sums.headD 0) then
      if eptState s p ≠ 4 then
        wrEptField (rEptCommit p) 32 3 4
        raise 0x6003 2 (dieSE 0) 0 (some p)

/-- The newest generation comes into use: at a step boundary or a job's start (R23, R26). -/
def eptFirstUse (p : Nat) : Act Unit := do
  let s ← look
  let d := partOf s p
  if d.eptGen ≠ d.eptNext then
    modPart p (fun d => { d with eptGen := d.eptNext, eptBase := d.eptStaged })
    for se in List.range 4 do
      let used := fun (x : EptSlot) => s.submits.any (fun u => u.rctx / 256 == se && u.part == x.part && u.eptGen == x.gen && u.layer == x.layer && u.phase == .reading)
      eff (.eptSlots se ((slotsOf s se).filter (fun x => x.part != p || x.gen == d.eptNext || used x)))
    wrEptField (rEptCommit p) 35 1 0

/-- All four dies are PREPARED: the generation commits (R65). -/
def eptCommitPhase (p gen : Nat) : Act Unit := do
  let s ← look
  if (List.range 4).all (fun d => (partOf s p).eptDone.contains d) then
    for d in List.range 4 do
      putRec d p 2 gen (recSum s d p)
    wrEptField (rEptCommit p) 32 3 2
    wrEptField (rEptCommit p) 0 32 gen
    let d := partOf s p
    if d.eptNext ≠ d.eptGen then wrEptField (rEptCommit p) 35 1 1
    modPart p (fun d => { d with eptNext := BitVec.ofNat 32 gen, eptStaged := d.eptPrep })
    if jobState s p ≠ 2 then eptFirstUse p
    eptCompare p

/-- The image as a die reads it: its checksum; none where the read fails its checks (R64, R65). -/
def readImage (se p base : Nat) : Act (Option Nat) := do
  reachT3 [(base, 64)]
  let s ← look
  let n := nlayerAt s base
  if n = 0 || 4096 < n then return none
  let good ← consume (dieSE se) 0 (some p) base (imageLen n)
  let s ← look
  if good && (List.range n).all (layerCrcOk s base) then return some (crc32c (memBytes s base (imageLen n))).toNat
  return none

/-- EPT_PREPARE_DONE (R65): each die prepares once in a commit. -/
def prepareDone (se p : Nat) : Act Unit := do
  let s ← look
  let gen := (nextGen (BitVec.ofNat 32 (eptGenOf s p))).toNat
  if eptState s p = 1 && !(partOf s p).eptDone.contains se then
    match (← readImage se p (partOf s p).eptPrep) with
    | none =>
      wrEptField (rEptCommit p) 32 3 3
      raise 0x6001 2 (dieSE se) 0 (some p)
    | some sum =>
      putRec se p 1 gen sum
      modPart p (fun d => { d with eptDone := d.eptDone ++ [se] })
      eptCommitPhase p gen

/-- EPT_STALE_RELOAD (R66, R381). -/
def staleReload (se p : Nat) : Act Unit := do
  let s ← look
  if eptStale s se p then
    let base := eptStagedBase s p
    let n := min 4096 (nlayerAt s base)
    putRec se p 2 (eptWinner s p) (crc32c (memBytes s base (imageLen n))).toNat
    eptCompare p

/-- EPT_COMMIT_GO (R65). -/
def execEptCommitGo (p : Fin 64) (w : Wr) (s : State) : Host.Outcome State Fault Refusal := finish (ownerWrite w.path (eptCommitWrite p w)) s
/-- EPT_PREPARE_DONE (R65). -/
def execEptPrepareDone (se : Fin 4) (p : Fin 64) (s : State) : Host.Outcome State Fault Refusal := finish (prepareDone se p) s
/-- EPT_STALE_RELOAD (R381). -/
def execEptStaleReload (se : Fin 4) (p : Fin 64) (s : State) : Host.Outcome State Fault Refusal := finish (staleReload se p) s

/-! ## Resident slots (R64) -/

def slotIs (p : Nat) (gen : BitVec 32) (layer : Nat) (x : EptSlot) : Bool := x.part == p && x.gen == gen && x.layer == layer

/-- A slot is pinned while an unfinished route uses it. -/
def slotPinned (s : State) (se : Nat) (x : EptSlot) : Bool :=
  s.submits.any (fun u => u.phase == .reading && u.rctx / 256 == se && slotIs u.part u.eptGen u.layer x)

/-- A use makes a slot the most recently used. -/
def slotUse (se p : Nat) (gen : BitVec 32) (layer : Nat) : Act Unit := do
  let l := slotsOf (← look) se
  eff (.eptSlots se (l.filter (fun x => !slotIs p gen layer x) ++ l.filter (slotIs p gen layer)))

/-- The layer of a submit is at hand: resident, or known bad, or there is no image. -/
def layerReady (s : State) (u : Submit) : Bool :=
  u.eptBad || u.eptGen == 0 || (slotsOf s (u.rctx / 256)).any (slotIs u.part u.eptGen u.layer)

/-- The bytes of a layer as a die loads them. -/
def layerData (s : State) (base layer : Nat) : List Host.Cell :=
  let a := layerAt base layer
  (s.mem.filter (fun c => a ≤ c.1 && c.1 < a + 0xC0000)).map (fun c => (c.1 - a, c.2))

/-- A route waits for a layer slot with all 16 pinned; it counts once (R64, R77). -/
def countEptWait (u : Submit) : Act Unit := do
  unless u.waited do
    ctr32 (rRcnt (u.rctx / 256) (u.rctx % 256) 0x28)
    modSubmits (fun l => l.map (fun x => if x.rctx == u.rctx && x.tag == u.tag && x.thread == u.thread && x.slot == u.slot
      then { x with waited := true } else x))

/-- EPT_LAYER_LOAD (R64, R374): the load of a layer that a submit waits for ends; a CRC that fails on both reads makes its tokens unroutable.
A layer number at or above the image's NLAYER, of which R64 says nothing, counts as such a failure (DESIGN CHOICE, log entry 131). -/
def layerLoad (se p layer : Nat) : Act Unit := do
  let s ← look
  match s.submits.find? (fun u => u.phase == .reading && u.rctx / 256 == se && u.part == p && u.layer == layer && !layerReady s u) with
  | none => return
  | some u =>
    let slots := slotsOf s se
    let victim := slots.find? (fun x => !slotPinned s se x)
    if slots.length < 16 || victim.isSome then
      let a := layerAt u.eptBase layer
      let read : Act Bool := do
        let good ← consume (dieSE se) 0 (some p) a 0xC0000
        let s ← look
        return good && layer < nlayerAt s u.eptBase && layerCrcOk s u.eptBase layer
      let one ← read
      let ok ← if one then pure true else read
      if ok then
        let keep := if slots.length < 16 then slots else
          match victim with
          | some v => slots.erase v
          | none => slots
        let s ← look
        eff (.eptSlots se (keep ++ [{ part := p, gen := u.eptGen, layer := layer, data := layerData s u.eptBase layer }]))
      else
        raise 0x6001 2 (dieSE se) 0 (some p)
        modSubmits (fun l => l.map (fun x => if x.phase == .reading && x.rctx / 256 == se && x.part == p && x.layer == layer && x.eptGen == u.eptGen
          then { x with eptBad := true } else x))
    else countEptWait u

/-- EPT_LAYER_LOAD (R64). -/
def execEptLayerLoad (se : Fin 4) (p : Fin 64) (layer : BitVec 16) (s : State) : Host.Outcome State Fault Refusal :=
  finish (layerLoad se p layer.toNat) s

/-! ## Placements (R63, R67) -/

/-- The layer that a submit routes by, as its die holds it; nothing where it is not resident. -/
def layerOf (s : State) (u : Submit) : List Host.Cell :=
  (((slotsOf s (u.rctx / 256)).find? (slotIs u.part u.eptGen u.layer)).map (·.data)).getD []

/-- The little-endian value of `n` bytes from `a` of a layer. -/
def layerNat (l : List Host.Cell) (a n : Nat) : Nat := leNat ((List.range n).map (fun i => tget 0 l (a + i)))

/-- The placements of an expert in order: node and slot. -/
def placements (s : State) (u : Submit) (e : Nat) : List (Nat × Nat) :=
  let l := layerOf s u
  let x := layerNat l (8 * e) 8
  let prim := if bitsOf x 0 16 = 0xFFFF then [] else [(bitsOf x 0 16, bitsOf x 16 9)]
  prim ++ (List.range (bitsOf x 26 4)).map (fun j =>
    let r := layerNat l (0x80000 + 4 * ((bitsOf x 32 16 + j) % 65536)) 4
    (bitsOf r 0 16, bitsOf r 16 9))

/-- The selection bias of an expert (R59, R63). -/
def biasOf (s : State) (u : Submit) (e : Nat) : BitVec 32 := BitVec.ofNat 32 (layerNat (layerOf s u) (8 * e + 6) 2 * 65536)

end Sys2Proof.Machine
end

