-- ==== Sys2Proof/Machine/Func.lean ====
section
/-!
DEFINITION. The functions of the vector engine and of the Sedge scorer (R159, R242). The exact value of a function is formed to some 300
significant bits; the device's result is a free value that lies within the function's bound of it (log entry 3).
-/

namespace Sys2Proof.Machine

/-! ## Exact values -/

/-- ln 2 in units of 2^-512. -/
def ln2Q : Nat := 0xb17217f7d1cf79abc9e3b39803f2f6af40f343267298b62d8a0d175b8baafa2be7b876206debac98559552fb4afa1b10ed2eae35c138214427573b291169b825

/-- e^r of 0 ≤ r < 1 in units of 2^-512: its power series. -/
def expSeries (r : Nat) : Nat :=
  ((List.range 110).foldl (fun (a : Nat × Nat) n => let t := (a.1 * r) >>> 512 / (n + 1); (t, a.2 + t)) (2 ^ 512, 2 ^ 512)).2

/-- e^(m·2^e) as a mantissa and a power of two. Beyond ±200, where every FP32 result has overflowed or vanished, ±200 stands for the
operand. -/
def expParts (neg : Bool) (m : Nat) (e : Int) : Nat × Int :=
  let x := min (200 <<< 512) (if -512 ≤ e then (if 2000 < e then 200 <<< 512 else m <<< (e + 512).toNat) else m >>> (-512 - e).toNat)
  let k : Int := (x / ln2Q : Nat)
  let f := expSeries (x % ln2Q)
  if neg then (2 ^ 1100 / f, 512 - 1100 - k) else (f, k - 512)

/-- n/d as a number with at least 300 significant bits, the last of them sticky. -/
def ratio (neg : Bool) (n d : Nat) (e : Int) : Num :=
  let k := Nat.log2 d + 300 - Nat.log2 n
  let q := (n <<< k) / d
  .fin neg (2 * q + (if (n <<< k) % d = 0 then 0 else 1)) (e - k - 1)

/-- ln(m·2^e) of m ≠ 0: e·ln 2 and the series of the inverse hyperbolic tangent. -/
def lnNum (m : Nat) (e : Int) : Num :=
  let l := Nat.log2 m
  let t := ((m - 2 ^ l) <<< 512) / (m + 2 ^ l)
  let s := ((List.range 170).foldl (fun (a : Nat × Nat) n => ((a.1 * ((t * t) >>> 512)) >>> 512, a.2 + a.1 / (2 * n + 1))) (t, 0)).2
  let v : Int := (e + l) * ln2Q + 2 * s
  .fin (v < 0) v.natAbs (-512)

/-- ⌊√v⌋ of v < 2^420. -/
def isqrt (v : Nat) : Nat := (List.range 210).foldl (fun r n => let c := r + 2 ^ (209 - n); if c * c ≤ v then c else r) 0

/-- 1/√(m·2^e) of m ≠ 0. -/
def rsqrtNum (m : Nat) (e : Int) : Num :=
  let m := if e % 2 = 0 then m else 2 * m
  let r := isqrt (2 ^ 400 / m)
  .fin false (2 * r + (if m * (r * r) = 2 ^ 400 then 0 else 1)) (-(e / 2) - 201)

/-- 1/(1 + e^−x). -/
def sigmoidNum (neg : Bool) (m : Nat) (e : Int) : Num :=
  let p := expParts true m e
  let d := 2 ^ (-p.2).toNat
  ratio false (if neg then p.1 else d) (d + p.1) 0

/-- tanh x = ±(1 − e^−2|x|)/(1 + e^−2|x|). -/
def tanhNum (neg : Bool) (m : Nat) (e : Int) : Num :=
  let p := expParts true m (e + 1)
  let d := 2 ^ (-p.2).toNat
  ratio neg (d - p.1) (d + p.1) 0

/-- The functions of VUN by their OP (R242); the scorer's exp and sigmoid are the same two functions. -/
inductive Fun1 where
  | exp
  | log
  | recip
  | rsqrt
  | sigmoid
  | tanh
  | silu
  deriving DecidableEq, Repr

/-- The exact value of a function at a finite non-zero operand that is not one of the special cases of R159, and whether that value may be a
result without rounding: of the others it is irrational. -/
def funExact (f : Fun1) (neg : Bool) (m : Nat) (e : Int) : Num × Bool :=
  match f with
  | .exp => let p := expParts neg m e; (.fin false p.1 p.2, false)
  | .log => let v := lnNum m e; (v, v.isZero)
  | .recip => let v := ratio neg 1 m (-e); (v, true)
  | .rsqrt => (rsqrtNum m e, true)
  | .sigmoid => (sigmoidNum neg m e, false)
  | .tanh => (tanhNum neg m e, false)
  | .silu => match sigmoidNum neg m e with
    | .fin _ n g => (.fin neg (m * n) (e + g), false)
    | x => (x, false)

/-! ## Results -/

/-- The finite value an FP32 code stands for when distances are taken: 2^128 for an infinity. -/
def codeNum (c : BitVec 32) : Num :=
  match ofF32 c with
  | .inf s => .fin s 1 128
  | x => x

/-- Two finite numbers lie within n ulp of the second (R159). -/
def withinUlp (n : Nat) (c y : Num) : Bool :=
  let u : Int := max (min y.log2 127) (-126) - 23
  let q := min u (min c.expo y.expo)
  !c.isNan && c.signBit == y.signBit && (c.over q - y.over q).natAbs ≤ n <<< (u - q).toNat

/-- The result of a function whose exact value is y: the free value where it lies within n ulp, else y rounded; and its flags (R151, R159,
R160). -/
def funResult (n : Nat) (free : BitVec 32) (y : Num × Bool) : BitVec 32 × Flags :=
  let r := if withinUlp n (codeNum free) y.1 then free else (toF32 y.1).1
  let v := ofF32 r
  let exact := y.2 && !v.isInf && !ltNum v y.1 && !ltNum y.1 v
  (r, if exact then 0
      else fInx ||| flagIf v.isInf fOvf ||| flagIf (ltNum v.abs (.fin false 1 (-126))) fUnf)

/-- A function at an FP32 operand: the special cases of R159 and the limits at ±∞ and ±0, which set no flag but INV where R159 names it;
`free` is the device's own result elsewhere (log entry 3). SILU at −∞ is −∞ × SIGMOID(−∞) = −∞ × 0 (R242, R160). -/
def funAt (n : Nat) (f : Fun1) (free : BitVec 32) (x : BitVec 32) : BitVec 32 × Flags :=
  match ofF32 x with
  | .nan => (0x7FC00000, 0)
  | .inf neg =>
    match f with
    | .exp => (if neg then 0 else 0x7F800000, 0)
    | .log => if neg then (0x7FC00000, fInv) else (0x7F800000, 0)
    | .recip => (if neg then 0x80000000 else 0, 0)
    | .rsqrt => if neg then (0x7FC00000, fInv) else (0, 0)
    | .sigmoid => (if neg then 0 else 0x3F800000, 0)
    | .tanh => (if neg then 0xBF800000 else 0x3F800000, 0)
    | .silu => if neg then (0x7FC00000, fInv) else (0x7F800000, 0)
  | .fin neg m e =>
    if m = 0 then
      match f with
      | .exp => (0x3F800000, 0)
      | .log => (0xFF800000, 0)
      | .recip => (if neg then 0xFF800000 else 0x7F800000, 0)
      | .rsqrt => (if neg then 0xFF800000 else 0x7F800000, 0)
      | .sigmoid => (0x3F000000, 0)
      | .tanh => (x, 0)
      | .silu => (x, 0)
    else if neg && (f == .log || f == .rsqrt) then (0x7FC00000, fInv)
    else
      let y := funExact f neg m e
      if y.1.isZero then (0, 0) else funResult n free y

end Sys2Proof.Machine
end

