-- ==== Sys2Proof/Machine/Queue.lean ====
section
/-!
DEFINITION. Hardware queues (R178–R185): pushes, gap markers, pops, credits, discards, the stale timeout and the descriptor. The items
stand in State.queues; each is also written to its slot in shared SRAM.
-/

namespace Sys2Proof.Machine

/-! ## Descriptor fields (R178) -/

def qBase (s : State) (q : Nat) : Nat := fieldOf s (rQueue q 0) 6 46 * 64
def qDepth (s : State) (q : Nat) : Nat := 2 ^ fieldOf s (rQueue q 0) 56 5
def qEn (s : State) (q : Nat) : Bool := fieldOf s (rQueue q 0) 61 1 == 1
def qPart (s : State) (q : Nat) : Nat := fieldOf s (rQueue q 1) 0 6
def qProd (s : State) (q : Nat) : Nat := fieldOf s (rQueue q 1) 8 2
def qCons (s : State) (q : Nat) : Nat := fieldOf s (rQueue q 1) 10 2
def qPunit (s : State) (q : Nat) : Nat := fieldOf s (rQueue q 1) 12 3
def qCunit (s : State) (q : Nat) : Nat := fieldOf s (rQueue q 1) 15 3
def qPrio (s : State) (q : Nat) : Nat := fieldOf s (rQueue q 1) 18 4
def qArrPip (s : State) (q : Nat) : Nat := fieldOf s (rQueue q 1) 32 6
def qArrEn (s : State) (q : Nat) : Bool := fieldOf s (rQueue q 1) 38 1 == 1
def qArrCore (s : State) (q : Nat) : Nat := fieldOf s (rQueue q 1) 40 11
def qNtfPip (s : State) (q : Nat) : Nat := fieldOf s (rQueue q 2) 0 6
def qNtfCore (s : State) (q : Nat) : Nat := fieldOf s (rQueue q 2) 8 11
def qStaleNs (s : State) (q : Nat) : Nat := fieldOf s (rQueue q 2) 32 32
/-- A counter of a queue (R185). -/
def rQcnt (q off : Nat) : Nat := 0x2C0000 + q * 0x20 + off

/-- FREE (R181). -/
def qFree (s : State) (q : Nat) : Nat :=
  let d := queueOf s q
  qDepth s q - 1 - d.items.length - d.reserved

/-- Q_STATUS follows the queue (R185). -/
def qShow (q : Nat) : Act Unit := do
  let d := queueOf (← look) q
  wrReg (0x2A0000 + q * 0x10) (d.items.length % 2 ^ 17 ||| (d.reserved % 2 ^ 17) <<< 32)

/-- Write the item at position `j` from the head to its slot. -/
def qStore (q j : Nat) (x : Item) : Act Unit := do
  let s ← look
  let slot := ((queueOf s q).head + j) % qDepth s q
  putNat (qBase s q + 64 * slot) 64 x.toNat

/-- The arrival signal (R182). -/
def qArrive (q : Nat) : Act Unit := do
  let s ← look
  if qArrEn s q then unitSignal dieMG (q % 2 ^ 16) (qPart s q) (qArrCore s q) (qArrPip s q)

/-! ## Pushes (R179, R182, R183) -/

/-- An accepted item joins the tail. -/
def qAccept (q : Nat) (x : Item) (last : Bool) : Act Unit := do
  let x := x ||| ((1 : Item) <<< 511)
  let s ← look
  let n := (queueOf s q).items.length
  modQueue q (fun d => { d with items := d.items ++ [{ data := x, last, gap := false, at_ := s.time.now }]
                                since := if d.items.isEmpty then s.time.now else d.since })
  qStore q n x
  ctr64 (rQcnt q 0)
  if last then qArrive q
  qShow q

/-- A gap marker (R179). -/
def gapItem (count first last : Nat) : Item :=
  BitVec.ofNat 512 (min count 0xFFFFFFFF ||| (first % 2 ^ 64) <<< 64 ||| (last % 2 ^ 64) <<< 128 ||| 1 <<< 511)

/-- A dropped item is added to the gap marker at position `j`. -/
def qGapAdd (q j : Nat) (last : Bool) : Act Unit := do
  let s ← look
  match (queueOf s q).items[j]? with
  | none => return
  | some m =>
    let x := gapItem (ibits m.data 0 32 + 1) (ibits m.data 64 64) (ftNs s)
    let m' : QItem := { data := x, last := m.last || last, gap := true, at_ := if m.last then m.at_ else s.time.now }
    modQueue q (fun d => { d with items := d.items.set j m' })
    qStore q j x
    if last && !m.last then qArrive q

/-- A push that is not accepted (R179): the item becomes part of a gap marker. `die` and `unit` name the queue's producer side. -/
def qDrop (q : Nat) (last : Bool) (die : Nat) : Act Unit := do
  let s ← look
  let d := queueOf s q
  let n := d.items.length
  let tailGap := match d.items.getLast? with
    | some m => m.gap
    | none => false
  if tailGap then qGapAdd q (n - 1) last
  else if n + d.reserved < qDepth s q then
    let x := gapItem 1 (ftNs s) (ftNs s)
    modQueue q (fun d => { d with items := d.items ++ [{ data := x, last, gap := true, at_ := s.time.now }]
                                  since := if d.items.isEmpty then s.time.now else d.since })
    qStore q n x
    raise 0x200B 0 die q (some (qPart s q))
    if last then qArrive q
  else
    match ((List.range n).reverse).find? (fun j => match d.items[j]? with
      | some m => m.gap
      | none => false) with
    | some j => qGapAdd q j last
    | none => pure ()
  ctr32 (rQcnt q 0x10)
  qShow q

/-- A push into an enabled queue (R179, R181, R183); answers whether it is accepted. -/
def qPushItem (q : Nat) (x : Item) (last useCred : Bool) (die : Nat) : Act Bool := do
  let s ← look
  let d := queueOf s q
  let cred := useCred && 0 < d.reserved
  if useCred && !cred then ctr32 (rQcnt q 0x1C)
  if d.dropping then
    if cred then modQueue q (fun d => { d with reserved := d.reserved - 1 })
    if last then modQueue q (fun d => { d with dropping := false })
    ctr32 (rQcnt q 0x14)
    qShow q
    return true
  if cred then
    modQueue q (fun d => { d with reserved := d.reserved - 1 })
    qAccept q x last
    return true
  if 1 ≤ qFree s q then
    qAccept q x last
    return true
  qDrop q last die
  return false

/-! ## Room: credits (R181, R190) -/

/-- Freed slots are offered to the credit waiter ahead of all others, while its count fits (R181, R189, log entry 11). -/
def qServe (q : Nat) : Act Unit := do
  for _ in (queueOf (← look) q).waiters do
    let s ← look
    let d := queueOf s q
    let pr := fun (e : Nat × Nat × Nat) => (threadOf s e.1).prio.toNat
    let best := d.waiters.foldl (fun (a : Option (Nat × Nat × Nat)) e => match a with
      | none => some e
      | some b => if pr b < pr e then some e else a) none
    match best with
    | none => pure ()
    | some e =>
      if e.2.1 ≤ qFree s q then
        modQueue q (fun d => { d with waiters := d.waiters.erase e, reserved := d.reserved + e.2.1 })
        endWait e.1 (setP e.2.2 true)
  qShow q

/-! ## Pops and discards (R180, R183, R184) -/

/-- Take the item at the head; the pop re-arms the stale timeout (R184). -/
def qTake (q : Nat) : Act (Option QItem) := do
  let s ← look
  match (queueOf s q).items with
  | [] => return none
  | x :: rest =>
    modQueue q (fun d => { d with items := rest, head := (d.head + 1) % qDepth s q, since := s.time.now, staleFired := false })
    return some x

/-- A pop (R180, R374): poison in the slot gives a gap marker of one item with the slot's LAST. -/
def qPopItem (q die : Nat) : Act (Option QItem) := do
  let s ← look
  let a := qBase s q + 64 * (queueOf s q).head
  match (← qTake q) with
  | none => return none
  | some x =>
    ctr64 (rQcnt q 8)
    let good ← consume die q (some (qPart s q)) a 64
    qServe q
    if good then return some x
    ctr32 (rQcnt q 0x10)
    return some { data := gapItem 1 (ftNs s) (ftNs s), last := x.last, gap := true }

/-- Discard from the head up to and including the next item with LAST (R183). -/
def qDropPacket (q : Nat) : Act Unit := do
  let items := (queueOf (← look) q).items
  let mut found := false
  for _ in items do
    unless found do
      match (← qTake q) with
      | none => pure ()
      | some x =>
        ctr32 (rQcnt q 0x14)
        if x.last then found := true
  unless found do modQueue q (fun d => { d with dropping := true })
  qServe q

/-- Empty a queue, counting its items in Q_FLUSHED; answers items and items with LAST (R183). -/
def qFlushAll (q : Nat) : Act (Nat × Nat) := do
  let items := (queueOf (← look) q).items
  let r := (items.length, (items.filter (·.last)).length)
  modQueue q (fun d => { d with items := [], staleFired := false })
  ctr32 (rQcnt q 0x18) r.1
  return r

/-- The stale timeout fires (R184), or a kick acts as one (R40). -/
def qStale (q : Nat) : Act Unit := do
  let s ← look
  unitSignal dieMG q (qPart s q) (qNtfCore s q) (qNtfPip s q)

/-! ## The descriptor (R178, R404) -/

/-- The enable check of R178. -/
def qCheck (s : State) (q : Nat) : Bool :=
  let n := fieldOf s (rQueue q 0) 56 5
  let b := qBase s q
  1 ≤ n && n ≤ 16 && inSram b && inSram (b + 64 * 2 ^ n - 1) && qProd s q != 3 && qCons s q != 3 &&
    !(qProd s q == 1 && 3 < qPunit s q) && !(qCons s q == 1 && 3 < qCunit s q) &&
    (!qArrEn s q || coreOfPart s (qPart s q) (qArrCore s q))

/-- Disabling (R178). -/
def qDisable (q : Nat) : Act Unit := do
  let d := queueOf (← look) q
  let _ ← qFlushAll q
  for e in d.waiters do
    let t := threadOf (← look) e.1
    threadFault (issOfKey e.1 (t.cur.getD 0)) 2
  eff (.queue q { since := 0 })
  qShow q

/-- A write of word `wd` of queue descriptor `q` (R178): while EN = 1 a write that changes another field is discarded. -/
def qDescWrite (q wd : Nat) (w : Wr) : Act Unit := do
  let s ← look
  let old ← rdReg (rQueue q wd)
  let new := plainWrite (rQueue q wd) old w
  if qEn s q then
    if wd = 0 then
      if setBits new 61 1 0 = setBits old 61 1 0 && bitsOf new 61 1 = 0 then
        wrReg (rQueue q 0) new
        qDisable q
  else
    wrReg (rQueue q wd) new
    if wd = 0 && bitsOf new 61 1 = 1 then
      if qCheck (← look) q then
        eff (.queue q {})
        qShow q
      else
        wrF (rQueue q 0) 61 1 0
        raise 0x200C 0 dieMG q (some (qPart s q))

/-! ## The queue commands of threads (R174, R175, R181, R186, R187) -/

/-- The queue a command names in bytes 4–5. -/
def cQueue (w : Cmd) : Nat := cf w 4 0 12

/-- CRED_GET (R175, R181). -/
def credGetBody (i : Iss) : Act SyncEnd := do
  let s ← look
  let q := cQueue i.w
  let n := cf i.w 6 0 16
  let rp := cf i.w 9 0 3
  if !qEn s q || qPart s q != i.p then return .fault 2
  if n = 0 || qDepth s q - 1 < n then return .fault 2
  if n ≤ qFree s q then
    modQueue q (fun d => { d with reserved := d.reserved + n })
    modThread i.key (setP rp true)
    qShow q
    return .done
  if cf i.w 8 0 1 = 1 then
    modThread i.key (setP rp false)
    return .done
  modQueue q (fun d => { d with waiters := d.waiters ++ [(i.key, n, rp)] })
  return .wait (.cred q n rp)

/-- CRED_PUT (R181). -/
def credPutBody (i : Iss) : Act SyncEnd := do
  let s ← look
  let q := cQueue i.w
  let n := cf i.w 6 0 16
  if !qEn s q || qPart s q != i.p then return .fault 2
  let r := (queueOf s q).reserved
  if r < n then ctr32 (rQcnt q 0x1C) (n - r)
  modQueue q (fun d => { d with reserved := d.reserved - min n d.reserved })
  qServe q
  return .done

/-- A thread may push to a queue (R187). -/
def mayPush (s : State) (p q : Nat) : Bool := qEn s q && qPart s q == p && qProd s q == 0
/-- A thread may pop from a queue (R187). -/
def mayPop (s : State) (p q : Nat) : Bool := qEn s q && qPart s q == p && qCons s q == 0

/-- The item of eight registers from g[n] on (R187). -/
def regItem (t : Thread) (n : Nat) : Item :=
  BitVec.ofNat 512 ((List.range 8).foldl (fun a k => a ||| (gOf t (n + k)).toNat <<< (64 * k)) 0)

/-- Put an item into eight registers from g[n] on. -/
def putItem (n : Nat) (x : Item) (t : Thread) : Thread :=
  (List.range 8).foldl (fun t k => setG (n + k) (BitVec.ofNat 64 (ibits x (64 * k) 64)) t) t

/-- A synchronous command at an address: `.switch` for tier 2 and tier 3 (R168). -/
def doneAt (a : Nat) : SyncEnd := if slowTier a then .switch else .done

/-- Q_PUSH (R179, R187): a queue whose producer waits with a submit item keeps its order (R86). -/
def qPushBody (i : Iss) : Act SyncEnd := do
  let s ← look
  let t := threadOf s i.key
  let q := cQueue i.w
  let last := cf i.w 6 0 1 == 1
  let cred := cf i.w 6 1 1 == 1
  let srcReg := cf i.w 6 2 1 == 1
  let n := cb i.w 7
  let ap := cf i.w 16 0 3
  if !mayPush s i.p q then return .fault 2
  if srcReg && (n % 8 != 0 || 24 < n) then return .fault 2
  let a := cAddr i.w 8
  if !srcReg && !belongs s i.p a 64 then return .fault 4
  if !srcReg && t3Busy s a then return .wait (.t3 (t3Gib a))
  if (queueOf s q).submits.any (fun e => e.1 == i.key) then return .wait (.submitItem q)
  if !srcReg then
    if !(← consume (i.core / 64) (i.core % 64) (some i.p) a 64) then return .fault 6
  let now ← look
  let x := if srcReg then regItem t n else memItem now a
  let ok ← qPushItem q x last cred (i.core / 64)
  modThread i.key (setP ap ok)
  return if srcReg then .done else doneAt a

/-- Q_POP (R180, R187). -/
def qPopBody (i : Iss) : Act SyncEnd := do
  let s ← look
  let q := cQueue i.w
  let dstReg := cf i.w 6 0 1 == 1
  let n := cb i.w 7
  let sg := cb i.w 16
  if !mayPop s i.p q then return .fault 2
  if (dstReg && (n % 8 != 0 || 24 < n)) || 31 < sg then return .fault 2
  let a := cAddr i.w 8
  if !dstReg && !belongs s i.p a 64 then return .fault 4
  if !dstReg && t3Busy s a then return .wait (.t3 (t3Gib a))
  if !dstReg then
    if !(← aliveRuns (i.core / 64) (i.core % 64) (some i.p) [(a, 64)]) then return .fault 6
  let r ← qPopItem q (i.core / 64)
  let x : QItem := r.getD { data := 0, last := false, gap := false }
  if dstReg then modThread i.key (putItem n x.data) else putNat a 64 x.data.toNat
  let st := (if r.isSome then 1 else 0) ||| (if x.last then 2 else 0) ||| (if x.gap then 4 ||| (ibits x.data 0 32) <<< 32 else 0)
  modThread i.key (setG sg (BitVec.ofNat 64 st))
  return if dstReg then .done else doneAt a

/-- Q_DROPPKT (R183, R187). -/
def qDropBody (i : Iss) : Act SyncEnd := do
  let s ← look
  let q := cQueue i.w
  if !mayPop s i.p q || 256 < qDepth s q then return .fault 2
  qDropPacket q
  return .done

/-- Q_FLUSH (R183, R187). -/
def qFlushBody (i : Iss) : Act SyncEnd := do
  let s ← look
  let q := cQueue i.w
  let g := cb i.w 6
  if !qEn s q || qPart s q != i.p || !(qProd s q == 0 || qCons s q == 0) || qDepth s q ≤ 256 || 31 < g then return .fault 2
  let r ← qFlushAll q
  modThread i.key (setG g (BitVec.ofNat 64 (r.1 % 2 ^ 32 ||| (r.2 % 2 ^ 32) <<< 32)))
  qServe q
  return .done

/-- CRED_GET (R175, R181). -/
def execCredGet (th : Thr) (w : Cmd) (s : State) : Host.Outcome State Fault Refusal := finishIf (opIs 0x05 w) (syncCmd th w credGetBody) s
/-- CRED_PUT (R181). -/
def execCredPut (th : Thr) (w : Cmd) (s : State) : Host.Outcome State Fault Refusal := finishIf (opIs 0x06 w) (syncCmd th w credPutBody) s
/-- Q_PUSH (R179, R187). -/
def execQPush (th : Thr) (w : Cmd) (s : State) : Host.Outcome State Fault Refusal := finishIf (opIs 0x18 w) (syncCmd th w qPushBody) s
/-- Q_POP (R180, R187). -/
def execQPop (th : Thr) (w : Cmd) (s : State) : Host.Outcome State Fault Refusal := finishIf (opIs 0x19 w) (syncCmd th w qPopBody) s
/-- Q_DROPPKT (R183, R187). -/
def execQDroppkt (th : Thr) (w : Cmd) (s : State) : Host.Outcome State Fault Refusal := finishIf (opIs 0x1A w) (syncCmd th w qDropBody) s
/-- Q_FLUSH (R183, R187). -/
def execQFlush (th : Thr) (w : Cmd) (s : State) : Host.Outcome State Fault Refusal := finishIf (opIs 0x1B w) (syncCmd th w qFlushBody) s

/-- Q_STALE_TIMEOUT (R184): a queue non-empty for Q_STALE_NS without a pop notifies once. -/
def execQStaleTimeout (q : Fin 4096) (s : State) : Host.Outcome State Fault Refusal :=
  finish (do
    let s ← look
    let d := queueOf s q
    if qEn s q && qStaleNs s q != 0 && !d.items.isEmpty && !d.staleFired then
      advanceTo (d.since + qStaleNs s q)
      modQueue q (fun d => { d with staleFired := true })
      qStale q) s

/-- HQ_DESC_WRITE (R178, R404). -/
def execHqDescWrite (q : Fin 4096) (word : Fin 4) (w : Wr) (s : State) : Host.Outcome State Fault Refusal :=
  finish (ownerWrite w.path (qDescWrite q word w)) s

end Sys2Proof.Machine
end

