-- ==== Sys2Proof/Machine/Reduce.lean ====
section
/-!
DEFINITION. The exact reduction of 32-element blocks (R109–R112), as collectives and the sums of split experts use it.
-/

namespace Sys2Proof.Machine

/-- Bytes of one element of an input or output format. -/
def elBytes (fmt : Nat) : Nat := fmtBits fmt / 8

/-- e(x) of R109 for an FP32 value: 0 for a zero and for what is not finite. -/
def expOf (v : BitVec 32) : Nat :=
  let e := bitsOf v.toNat 23 8
  if e = 255 || bitsOf v.toNat 0 31 = 0 then 0 else max e 1

/-- The exponent byte of a block's codes; INT32 has none. -/
def blockExp (fmt : Nat) (codes : List Nat) : Nat :=
  if fmt = 0xA then 0 else codes.foldl (fun a c => max a (expOf (widen fmt c 0x7F).1)) 0

/-- q of R110. -/
def quantOf (big : Nat) (v : BitVec 32) : Int :=
  let f := bitsOf v.toNat 0 23
  let e := expOf v
  let m := if bitsOf v.toNat 23 8 = 0 then f else f + 2 ^ 23
  let q := if big ≤ e + 24 then m <<< (e + 24 - big) else m >>> (big - (e + 24))
  if v.getLsbD 31 then -(q : Int) else q

/-- res(v) of R112. -/
def residue (v : Int) : Nat := (v % 127).toNat

/-- What the faults of a list add to the add of contribution `k`, in the first sum or in the recomputation. -/
def upsetAt (us : List Upset) (again : Bool) (k : Nat) : Int :=
  us.foldl (fun a u => if u.add = k then a + (if again then u.again else u.err) else a) 0

/-- The 64-bit adds of one element with the residue beside them (R112): the sum, and whether every comparison agreed. -/
def sumChecked (us : List Upset) (again : Bool) (qs : List Int) : Int × Bool :=
  let r := qs.zipIdx.foldl (fun (a : Int × Nat × Bool) x =>
    let v := (BitVec.ofInt 64 (a.1 + x.1 + upsetAt us again x.2)).toInt
    let w := (a.2.1 + residue x.1) % 127
    (v, w, a.2.2 && residue v == w)) (0, 0, true)
  (r.1, r.2.2)

/-- How an element's sum came out: as added, recomputed once, or with a second mismatch (R112). -/
inductive SumEnd where
  | good
  | recomputed
  | failed
  deriving DecidableEq, Repr

/-- The exact sum of one element: a first mismatch recomputes it. -/
def sumExact (us : List Upset) (qs : List Int) : Int × SumEnd :=
  let a := sumChecked us false qs
  if a.2 then (a.1, .good) else
    let b := sumChecked us true qs
    (b.1, if b.2 then .recomputed else .failed)

/-- a is below b, −0 below +0. -/
def belowNum (a b : Num) : Bool := ltNum a b || (a.isZero && b.isZero && a.signBit && !b.signBit)

/-- The greatest (1) or least (2) of some values (R110). -/
def pickNum (red : Nat) (l : List Num) : Num :=
  (l.foldl (fun (a : Option Num) x => match a with
    | none => some x
    | some b => some (if red = 1 then (if belowNum b x then x else b) else (if belowNum x b then x else b))) none).getD .nan

/-- One element: the result code with its flags, and how its sum came out (R110–R112). INT32 inputs saturate to INT32, whatever the output
format (log entry 57). -/
def reduceElem (red fmt out big : Nat) (us : List Upset) (codes : List Nat) : (Nat × Flags) × SumEnd :=
  if fmt = 0xA then
    let vs := codes.map (fun c => (BitVec.ofNat 32 c).toInt)
    let conv := fun (v : Int) => if out = 0xA then ((BitVec.ofInt 32 v).toNat, (0 : Flags)) else toFmt out rne (.fin (v < 0) v.natAbs 0)
    if red = 0 then
      let t := sumExact us vs
      let r := conv (max (-2 ^ 31) (min (2 ^ 31 - 1) t.1))
      ((r.1, if t.1 < -2 ^ 31 || 2 ^ 31 - 1 < t.1 then r.2 ||| fSat else r.2), t.2)
    else (conv (vs.tail.foldl (fun a b => if red = 1 then max a b else min a b) (vs.headD 0)), .good)
  else
    let ws := codes.map (fun c => widen fmt c 0x7F)
    let ns := ws.map (fun w => ofF32 w.1)
    let both := ns.any (· == .inf false) && ns.any (· == .inf true)
    let side := ws.foldl (fun a w => a ||| w.2) (if red = 0 && both then fInv else 0)
    let conv := fun (x : Num) => let r := toFmt out rne x; (r.1, r.2 ||| side)
    if ns.any Num.isNan then (conv .nan, .good)
    else if red ≠ 0 then (conv (pickNum red ns), .good)
    else if both then (conv .nan, .good)
    else if ns.any (· == .inf false) then (conv (.inf false), .good)
    else if ns.any (· == .inf true) then (conv (.inf true), .good)
    else
      let t := sumExact us (ws.map (fun w => quantOf big w.1))
      (conv (.fin (t.1 < 0) t.1.natAbs ((big : Int) - 174)), t.2)

/-- A whole block: contribution by contribution its codes; the first element has number `first`. -/
def reduceBlock (red fmt out big first n : Nat) (us : List Upset) (parts : List (List Nat)) : List ((Nat × Flags) × SumEnd) :=
  (List.range n).map (fun i => reduceElem red fmt out big (us.filter (fun u => u.elem == first + i)) (parts.map (fun p => p.getD i 0)))

/-- The faults of an element that a reduction met are counted and reported: an element recomputed, or a second mismatch (R112, R382). -/
def reportSum (h p : Nat) (elem : Nat) (e : SumEnd) : Act Unit := do
  unless e = .good do
    ctr32 (rXg h 0x2C)
    raise 0x4007 1 (dieND 0) h (some p) 0 elem
  if e = .failed then raise 0x4008 2 (dieND 0) h (some p) 0 elem

end Sys2Proof.Machine
end

