-- ==== Sys2Proof/Machine/Route.lean ====
section
/-!
DEFINITION. Sedge routing (R53–R77, R85, R86): route contexts, submits, scoring and selection, replica choice, admission, the combine and its
wait.
-/

namespace Sys2Proof.Machine

/-! ## Route contexts (R57) -/

/-- Errors of a route context come from its Sedge die with the context as unit. -/
def raiseCtx (code sev r : Nat) (part : Nat) (detail : Nat := 0) : Act Unit := raise code sev (dieSE (r / 256)) (r % 256) (some part) 0 detail

/-- The check of a context with EN = 1 (R57). -/
def rctxOk (s : State) (r : Nat) (c : Item) : Bool :=
  let e := rcE c
  let ng := rcNgroup c
  1 ≤ rcK c && rcK c ≤ 16 && rcK c ≤ e && ng ≤ 64 &&
    (ng < 2 || (e % ng == 0 && 1 ≤ rcTopg c && rcTopg c ≤ ng && rcK c ≤ rcTopg c * (e / ng))) &&
    !((List.range 256).any (fun k =>
      let o := rcfgOf s (r / 256 * 256 + k)
      k != r % 256 && rcEn o && rcPart o == rcPart c && rcSet o == rcSet c)) &&
    rcRetFmt c ≤ 2 && 1 ≤ rcCap c && 1 ≤ rcTb c && rcTb c ≤ 32768 && rcCap c * rcTb c ≤ 2 ^ 30 &&
    qCons s (rcInQ c) == 1 && qCunit s (rcInQ c) == r / 256

/-- A write of a word of a route context; one that fails the check is discarded and leaves EN = 0. -/
def rctxWrite (se c word : Nat) (w : Wr) : Act Unit := do
  let s ← look
  let off := rRctx se c word
  let new := plainWrite off (regOf s off).toNat w
  let r := se * 256 + c
  let cfg := BitVec.ofNat 512 (setBits (rcfgOf s r).toNat (64 * word) 64 new)
  if rcEn cfg && !rctxOk s r cfg then
    wrF (rRctx se c 0) 6 1 0
    raiseCtx 0x4003 2 r (rcPart cfg)
  else wrReg off new

/-- ROUTE_CONTEXT_WRITE (R57). -/
def execRouteContextWrite (se : Fin 4) (c : Fin 256) (word : Fin 8) (w : Wr) (s : State) : Host.Outcome State Fault Refusal :=
  finish (ownerWrite w.path (rctxWrite se c word w)) s

/-! ## ROUTE_SUBMIT (R53, R56, R75, R85, R86) -/

/-- The submit item (R56). -/
def submitItem (i : Iss) : Item := BitVec.ofNat 512 (bitsOf i.w.toNat 32 224 <<< 32 ||| i.core <<< 256 ||| 1 <<< 511)

/-- The submit item lands in its queue (R56, R86). -/
def landSubmit (q : Nat) (x : Item) : Act Unit := do
  qAccept q x true
  modQueue q (fun d => { d with items := d.items.dropLast ++ (d.items.drop (d.items.length - 1)).map (fun y => { y with sub := true }) })

/-- Room for a submit item: a slot beyond the reserved credits. -/
def submitRoom (s : State) (q : Nat) : Bool := 1 ≤ qFree s q

/-- The body of ROUTE_SUBMIT. A context whose handle names no enabled group is refused (R88), and its tag has failed (R75). -/
def routeSubmitBody (i : Iss) (slot : Nat) : Act AsyncEnd := do
  let r := cf i.w 4 0 10
  let layer := cf i.w 6 0 16
  let ntok := cf i.w 8 0 32
  let tag := cf i.w 28 0 32
  if ntok = 0 || 16777215 < ntok then return .fault 2
  match (← readMdesc i (cAddr i.w 12)) with
  | .fault c => return .fault c
  | .ok pay =>
    match (← readMdesc i (cAddr i.w 20)) with
    | .fault c => return .fault c
    | .ok out =>
      let s ← look
      if !pay.inPart s i.p || !out.inPart s i.p then return .fault 4
      let c := rcfgOf s r
      let q := rcInQ c
      if rcPart c ≠ i.p || !rcEn c || !qEn s q || qCons s q ≠ 1 || qCunit s q ≠ r / 256 then
        raiseCtx 0x4003 2 r i.p
        return .flags 0
      if !groupOn s (rcGroup c) || (out.fmt ≠ 0 && out.fmt ≠ 1) || rcTb c < out.cols * (fmtBits (rcRetFmt c) / 8) then
        raiseCtx 0x4003 2 r i.p
        tagDone r tag 2 0
        return .flags 0
      let u : Submit := { rctx := r, tag, part := i.p, layer, ntok, payload := i.item s (cAddr i.w 12), out := i.item s (cAddr i.w 20)
                          thread := i.key, slot, phase := .waiting, cfg := c }
      modSubmits (fun l => l ++ [u])
      eff (.tagsDone (s.tagsDone.filter (fun d => !(d.rctx == r && d.tag == tag))))
      let x := submitItem i
      if submitRoom s q && (queueOf s q).submits.isEmpty then landSubmit q x
      else modQueue q (fun d => { d with submits := d.submits ++ [(i.key, slot, x)] })
      return .later

/-- ROUTE_SUBMIT (R53, R86). -/
def execRouteSubmit (th : Thr) (w : Cmd) (s : State) : Host.Outcome State Fault Refusal :=
  finishIf (opIs 0x60 w) (asyncCmd th w 0 (fun _ => return false) routeSubmitBody) s

/-- SUBMIT_ITEM_LAND (R86): the first submit item that waits lands, and a Q_PUSH behind it goes on. -/
def submitLand (q : Nat) : Act Unit := do
  let s ← look
  match (queueOf s q).submits with
  | [] => return
  | (k, _, x) :: rest =>
    if submitRoom s q then
      modQueue q (fun d => { d with submits := rest })
      landSubmit q x
      let t := threadOf (← look) k
      if t.wait = .submitItem q && !rest.any (fun e => e.1 == k) then reissue k

/-- SUBMIT_ITEM_LAND (R86). -/
def execSubmitItemLand (q : Fin 4096) (s : State) : Host.Outcome State Fault Refusal := finish (submitLand q) s

/-! ## The input arbiter (R40, R56, R190) -/

/-- A queue is bound to a Sedge die. -/
def boundTo (s : State) (se q : Nat) : Bool := qEn s q && qCons s q == 1 && qCunit s q == se

/-- The first complete packet of a queue. -/
def headPacket (s : State) (q : Nat) : Option (List QItem) :=
  let items := (queueOf s q).items
  (items.findIdx? (·.last)).map (fun k => items.take (k + 1))

/-- The submit whose logit packets come from a queue. -/
def readingOn (s : State) (q : Nat) : Option Submit := s.submits.find? (fun u => u.phase == .reading && rcInQ u.cfg == q)

/-- A bound queue holds a complete packet that its die can take now: its job runs, and the layer of its submit is at hand (R56, R64, R190). -/
def sreReady (s : State) (se q : Nat) : Bool :=
  boundTo s se q && (partOf s (qPart s q)).td == .none && jobState s (qPart s q) == 2 &&
    match headPacket s q, readingOn s q with
    | none, _ => false
    | some _, none => true
    | some pk, some u => if pk.any (·.sub) then (partOf s u.part).td == .none else layerReady s u && !eptStale s se u.part

/-- When a queue's first complete packet was complete. -/
def packetAt (s : State) (q : Nat) : Nat := (((queueOf s q).items.find? (·.last)).map (·.at_)).getD 0

/-- Queue `e` goes ahead of queue `q`: a kick comes first, then the PRIO of the queue, then the arrival of the packet, then the lower queue
number (R40, R189, R190). -/
def sreAhead (s : State) (e q : Nat) : Bool :=
  if (queueOf s e).kicked != (queueOf s q).kicked then (queueOf s e).kicked
  else if qPrio s e ≠ qPrio s q then qPrio s q < qPrio s e
  else packetAt s e < packetAt s q || packetAt s e == packetAt s q && e < q

/-- The arbiter of a die may take queue `q` now: no other queue that it can take goes ahead (R40, R190). -/
def mayTake (s : State) (se q : Nat) : Bool :=
  boundTo s se q && !s.queues.any (fun e => e.1 != q && sreAhead s e.1 q && sreReady s se e.1)

/-- A packet end: kicks of queues that hold no complete packet lapse, and the served queue's kick is spent (R40). -/
def packetEnd (se q : Nat) : Act Unit := do
  let s ← look
  for e in s.queues do
    if e.2.kicked && boundTo s se e.1 && (e.1 = q || (headPacket s e.1).isNone) then modQueue e.1 (fun d => { d with kicked := false })

def sameSubmit (a b : Submit) : Bool := a.rctx == b.rctx && a.tag == b.tag && a.thread == b.thread && a.slot == b.slot
def modSubmit (u : Submit) (f : Submit → Submit) : Act Unit := modSubmits (fun l => l.map (fun x => if sameSubmit x u then f x else x))

/-- SRE_SUBMIT_ITEM_READ (R53, R54, R56, R64): a submit item that comes before the last submit's packets ends that submit; the missing
packets count as malformed. An item read after its context was disabled, or changed its PART or IN_Q, fails the submit with status 2 and
EXCH_PARAM: R57 does not say what becomes of it (DESIGN CHOICE, log entry 132). -/
def submitRead (se q : Nat) : Act Unit := do
  let s ← look
  match (queueOf s q).items with
  | [] => return
  | x :: _ =>
    if !mayTake s se q || !x.sub then return
    let busy := readingOn s q
    let old := match busy with
      | some u => (partOf s u.part).td != .none
      | none => false
    if old || (partOf s (qPart s q)).td ≠ .none || jobState s (qPart s q) ≠ 2 then return
    match (← qPopItem q (dieSE se)) with
    | none => return
    | some it =>
      packetEnd se q
      match busy with
      | some u =>
        ctr32 (rRcnt (u.rctx / 256) (u.rctx % 256) 0x10) (u.ntok - u.taken)
        modSubmit u (fun u => { u with phase := .built })
      | none => pure ()
      let r := ibits x.data 32 10
      let tag := ibits x.data 224 32
      let s ← look
      match s.submits.find? (fun u => u.phase == .waiting && u.rctx == r && u.tag == tag) with
      | none => return
      | some u =>
        let c := rcfgOf s r
        if it.gap || !rcEn c || rcPart c ≠ u.part || rcInQ c ≠ q then
          raiseCtx 0x4003 2 r u.part
          failSubmit u
        else
          let d := partOf s u.part
          modSubmit u (fun u => { u with phase := .reading, cfg := c, eptGen := d.eptGen, eptBase := d.eptBase })
          let s ← look
          let slots := slotsOf s se
          let u' : Submit := { u with cfg := c, eptGen := d.eptGen, eptBase := d.eptBase }
          if !layerReady s u' && 16 ≤ slots.length && slots.all (slotPinned s se) then countEptWait u'
          if layerReady s u' then slotUse se u.part d.eptGen u.layer

/-- SRE_SUBMIT_ITEM_READ (R56). -/
def execSreSubmitItemRead (se : Fin 4) (q : Fin 4096) (s : State) : Host.Outcome State Fault Refusal := finish (submitRead se q) s

/-! ## Scores and selection (R59–R62) -/

/-- exp of the scorer, within 1 ulp (R159); a subnormal operand sets DEN (R160). -/
def sexp (x : BitVec 32) : BitVec 32 × Flags := let r := funAt 1 .exp (Config.sedgeExp x) x; (r.1, den32 x ||| r.2)

/-- sigmoid of the scorer, within 1 ulp (R159). -/
def ssigmoid (x : BitVec 32) : BitVec 32 × Flags := let r := funAt 1 .sigmoid (Config.sedgeSigmoid x) x; (r.1, den32 x ||| r.2)

/-- FP32 values in order with addF32. -/
def sumF32 (l : List (BitVec 32)) : BitVec 32 × Flags := l.foldl (fun a x => let r := addF32 a.1 x; (r.1, a.2 ||| r.2)) (0, 0)

/-- The larger of two FP32 values. -/
def maxF32 (a b : BitVec 32) : BitVec 32 := if ltNum (ofF32 a) (ofF32 b) then b else a

/-- Scores of the experts (R59, R61): a NaN logit counts as −∞; with every logit −∞ under SOFTMAX every score is 0. -/
def scores (mode : Nat) (ls : List (BitVec 32)) : List (BitVec 32) × Flags :=
  let ls := ls.map (fun l => if (ofF32 l).isNan then 0xFF800000 else l)
  if mode = 0 then
    let m := ls.foldl maxF32 0xFF800000
    if m = 0xFF800000 then (ls.map (fun _ => 0), 0)
    else
      let ds := ls.map (fun l => addF32 l (negF32 m))
      let es := ds.map (fun d => sexp d.1)
      let t := sumF32 (es.map (·.1))
      let qs := es.map (fun e => divNum (ofF32 e.1) (ofF32 t.1))
      (qs.map (·.1), (ds ++ es ++ qs).foldl (fun a x => a ||| x.2) t.2)
  else
    let es := ls.map ssigmoid
    (es.map (·.1), es.foldl (fun a x => a ||| x.2) 0)

/-- An expert as it competes: number, whether its logit is above −∞, selection key. -/
structure Cand where
  e : Nat
  live : Bool
  key : BitVec 32
  deriving DecidableEq, Repr

/-- `a` goes ahead of `b` (R60, R61). -/
def aheadOf (a b : Cand) : Bool :=
  if a.live != b.live then a.live
  else if ltNum (ofF32 b.key) (ofF32 a.key) then true
  else if ltNum (ofF32 a.key) (ofF32 b.key) then false
  else a.e ≤ b.e

/-- The group score (R60): the highest key, or the sum of the two highest, with the flags of that sum (R160). -/
def groupScore (two : Bool) (l : List Cand) : BitVec 32 × Flags :=
  match sortBy aheadOf l with
  | [] => (0xFF800000, 0)
  | [a] => (a.key, 0)
  | a :: b :: _ => if two then addF32 a.key b.key else (a.key, 0)

/-- The scores of the groups (R60). -/
def groupScores (c : Item) (l : List Cand) : List (BitVec 32 × Flags) :=
  (List.range (rcNgroup c)).map (fun g => groupScore (rcGscore c) (l.filter (fun x => x.e / (rcE c / rcNgroup c) == g)))

/-- The experts kept after the group pass (R60, R61), and the flags of the group scores. -/
def keptBy (c : Item) (l : List Cand) : List Cand × Flags :=
  if rcNgroup c < 2 then (l, 0)
  else
    let gs := groupScores c l
    let top := (sortBy aheadOf (gs.zipIdx.map (fun g => ({ e := g.2, live := true, key := g.1.1 } : Cand)))).take (rcTopg c)
    (l.filter (fun x => top.any (fun g => g.e == x.e / (rcE c / rcNgroup c))), gs.foldl (fun a g => a ||| g.2) 0)

/-- Gate weights of the picks (R62); with NORM = 1 and a sum of 0 every one is 0. -/
def gateWeights (c : Item) (ws : List (BitVec 32)) : List (BitVec 32) × Flags :=
  let t := sumF32 ws
  if rcNorm c && (ofF32 t.1).isZero then (ws.map (fun _ => 0), t.2)
  else
    let n : List (BitVec 32 × Flags) :=
      if rcNorm c then ws.map (fun w => let r := divNum (ofF32 w) (ofF32 t.1); (r.1, r.2 ||| t.2)) else ws.map (fun w => (w, 0))
    let r := n.map (fun w => mulF32 w.1 (rcScale c))
    (r.map (·.1), (n ++ r).foldl (fun a x => a ||| x.2) 0)

/-! ## Replica choice (R67) -/

/-- Routes of a context on a placement in this step and the last. -/
def loadOf (s : State) (r code : Nat) : Nat :=
  match s.loads.find? (fun x => x.1 == r && x.2.1 == code) with
  | some x => x.2.2.1 + x.2.2.2
  | none => 0

def countLoad (r code : Nat) : Act Unit := do
  let l := (← look).loads
  if l.any (fun x => x.1 == r && x.2.1 == code) then
    eff (.loads (l.map (fun x => if x.1 == r && x.2.1 == code then (x.1, x.2.1, x.2.2.1 + 1, x.2.2.2) else x)))
  else eff (.loads (l ++ [(r, code, 1, 0)]))

/-- Place one pick (R67): it takes a live placement or becomes unroutable. A context's routes count in either REP_MODE, by (node, slot)
over all experts and layers: R67 does not say what one placement is there (DESIGN CHOICE, log entry 133). -/
def placePick (u : Submit) (token : Nat) (k : Pick) : Act Pick := do
  let s ← look
  let g := newGen s (rcGroup u.cfg)
  let dead := (partOf s u.part).dead
  let live := if u.eptBad || u.eptGen = 0 then [] else (placements s u k.expert).filter (fun x => (genRank g x.1).isSome && !dead.contains x.1)
  match live with
  | [] =>
    ctr32 (rRcnt (u.rctx / 256) (u.rctx % 256) 0xC)
    return { k with gap := some 1 }
  | first :: _ =>
    let code := fun (x : Nat × Nat) => x.1 * 512 + x.2
    let x := if rcLoad u.cfg then
        live.foldl (fun b y => if loadOf s u.rctx (code y) < loadOf s u.rctx (code b) then y else b) first
      else live.getD ((crc32c (natBytes 4 token ++ natBytes 2 k.expert ++ natBytes 2 u.layer)).toNat % live.length) first
    countLoad u.rctx (code x)
    ctr64 (rRcnt (u.rctx / 256) (u.rctx % 256) 0)
    return { k with node := x.1, slot := x.2, dest := (genRank g x.1).getD 0x3FFF }

/-! ## Logit packets (R56, R59–R67) -/

/-- Logit `e` of the items that follow the header, as FP32. -/
def logitOf (c : Item) (its : List QItem) (e : Nat) : BitVec 32 :=
  if rcF32 c then BitVec.ofNat 32 (ibits ((its.getD (e / 16) { data := 0, last := false, gap := false }).data) (e % 16 * 32) 32)
  else BitVec.ofNat 32 (ibits ((its.getD (e / 32) { data := 0, last := false, gap := false }).data) (e % 32 * 16) 16 * 65536)

/-- Logit items of a token (R56). Bit 511 of each is the valid tag that the queue forces to 1 (R179), and is read as it lies (log entry 25). -/
def logitItems (c : Item) : Nat := if rcF32 c then (rcE c + 15) / 16 else (rcE c + 31) / 32

/-- Score, select and place one token (R59–R67). -/
def routeToken (u : Submit) (token row : Nat) (its : List QItem) : Act (List Pick) := do
  let s ← look
  let c := u.cfg
  let ls := (List.range (rcE c)).map (logitOf c its)
  let den := ls.foldl (fun a l => a ||| den32 l) 0
  if ls.any (fun l => (ofF32 l).isNan) then ctr32 (rRcnt (u.rctx / 256) (u.rctx % 256) 0x18)
  let sc := scores (rcScore c) ls
  let keys := sc.1.zipIdx.map (fun x => if rcScore c = 2 then addF32 x.1 (biasOf s u x.2) else (x.1, 0))
  let cands := (ls.zip keys).zipIdx.map (fun x =>
    ({ e := x.2, live := !((ofF32 x.1.1).isNan || x.1.1 == (0xFF800000 : BitVec 32)), key := x.1.2.1 } : Cand))
  let kept := keptBy c cands
  let best := (sortBy aheadOf kept.1).take (rcK c)
  let ws := gateWeights c (best.map (fun x => sc.1.getD x.e 0))
  partFlags u.part (keys.foldl (fun a x => a ||| x.2) (den ||| sc.2 ||| kept.2 ||| ws.2))
  let mut out : List Pick := []
  for x in best.zipIdx do
    let k ← placePick u token { tok := row, rank := x.2, expert := x.1.e, weight := ws.1.getD x.2 0 }
    out := out ++ [k]
  return out

/-- Pop a whole packet. -/
def popPacket (q die n : Nat) : Act (List QItem) := do
  let mut out : List QItem := []
  for _ in List.range n do
    match (← qPopItem q die) with
    | some x => out := out ++ [x]
    | none => pure ()
  return out

/-- The context an orphan packet counts on: that of the queue's latest submit, else the lowest enabled one with this IN_Q (log entry 24). -/
def orphanCtx (s : State) (se q : Nat) : Option Nat :=
  match (s.submits.filter (fun u => rcInQ u.cfg == q && u.phase != .waiting)).getLast? with
  | some u => some u.rctx
  | none => ((List.range 256).find? (fun c => rcEn (rcfgOf s (se * 256 + c)) && rcInQ (rcfgOf s (se * 256 + c)) == q)).map (se * 256 + ·)

/-- ROW of a packet's token. A packet whose header item is itself a gap marker names none: a free value stands for it (R56, log entry 134). -/
def packetRow (hd : QItem) : Act Nat := do
  if hd.gap then return (← drawFree).toNat % 2 ^ 24
  return ibits hd.data 32 24

/-- SRE_LOGIT_PACKET (R56, R374, R381). -/
def logitPacket (se q : Nat) : Act Unit := do
  let s ← look
  match headPacket s q with
  | none => return
  | some pk =>
    if !mayTake s se q || pk.any (·.sub) || (partOf s (qPart s q)).td ≠ .none || jobState s (qPart s q) ≠ 2 then return
    match readingOn s q with
    | none =>
      match orphanCtx s se q with
      | some r => ctr32 (rRcnt (r / 256) (r % 256) 0x14)
      | none => pure ()
      let _ ← popPacket q (dieSE se) pk.length
      packetEnd se q
    | some u =>
      if !layerReady s u || eptStale s se u.part then return
      let its ← popPacket q (dieSE se) pk.length
      packetEnd se q
      let hd := its.headD { data := 0, last := true, gap := true }
      let row ← packetRow hd
      let bad := its.any (·.gap) || its.length ≠ 1 + logitItems u.cfg
      let picks ← if bad then do
          ctr32 (rRcnt se (u.rctx % 256) 0x10)
          pure ((List.range (rcK u.cfg)).map (fun k => ({ tok := row, rank := k, expert := 0, weight := 0, gap := some 2 } : Pick)))
        else routeToken u (ibits hd.data 0 32) row (its.drop 1)
      modSubmit u (fun u => { u with picks := u.picks ++ picks, taken := u.taken + 1, phase := if u.taken + 1 = u.ntok then .built else .reading })

/-- SRE_LOGIT_PACKET (R56). -/
def execSreLogitPacket (se : Fin 4) (q : Fin 4096) (s : State) : Host.Outcome State Fault Refusal := finish (logitPacket se q) s

/-! ## Admission and hand-off (R54, R70, R71, R97) -/

/-- Admission order (R70): by pick rank, then token. -/
def admitsBefore (a b : Pick) : Bool := a.rank < b.rank || (a.rank == b.rank && a.tok ≤ b.tok)

/-- The picks of a submit after admission: positions and windows, or gap markers for capacity. -/
def admitPicks (c : Item) (ps : List Pick) : List Pick :=
  let step := fun (a : Tbl Nat × List Pick) (k : Pick) =>
    if k.gap.isSome then (a.1, k :: a.2)
    else
      let n := tget 0 a.1 k.dest
      if rcElastic c then (tput 0 a.1 k.dest (n + 1), { k with pos := n % rcCap c, win := n / rcCap c } :: a.2)
      else if n < rcCap c then (tput 0 a.1 k.dest (n + 1), { k with pos := n } :: a.2)
      else (a.1, { k with gap := some 0 } :: a.2)
  ((sortBy admitsBefore ps).foldl step ([], [])).2.reverse

/-- The 64-bit key of a route or gap marker (R68). -/
def sendKey (k : Pick) : Nat :=
  (if k.gap.isSome then 0x3FFF else k.dest % 2 ^ 14) <<< 50 ||| (k.expert % 2 ^ 16) <<< 34 ||| (k.tok % 2 ^ 24) <<< 10 ||| (k.rank % 16) <<< 6

/-- A submit's picks in ascending key order: the records of one destination lie together, grouped by expert, the gap markers last (R68). -/
def sortByKey (ps : List Pick) : List Pick := sortBy (fun a b => decide (sendKey a ≤ sendKey b)) ps

/-- A send record (R69). -/
def sendRecord (k : Pick) : BitVec 128 :=
  BitVec.ofNat 128 (k.tok % 2 ^ 24 ||| (k.expert % 2 ^ 16) <<< 32 ||| (k.slot % 512) <<< 48 ||| (k.rank % 16) <<< 57 |||
    (match k.gap with
      | some why => 1 <<< 61 ||| (why % 4) <<< 62
      | none => 0) |||
    (k.node % 2 ^ 16) <<< 64 ||| (if k.gap.isSome then 0xFFFF else k.pos % 2 ^ 16) <<< 80 ||| k.weight.toNat <<< 96)

/-- Launches of a group that are pending (R97). -/
def pendingLaunches (s : State) (h : Nat) : Nat :=
  ((launchesOf s h).filter (fun l => l.win == 0 && (l.phase == .queued || l.phase == .allocated || l.phase == .ready))).length

/-- SEND_LIST_HANDOFF (R54, R70–R72). -/
def handOff (p setId tag : Nat) : Act Unit := do
  let s ← look
  let ctxs := setContexts s p setId
  let subs := (setSubmits s p setId tag).filter (·.phase == .built)
  match subs with
  | [] => return
  | u0 :: _ =>
    if !ctxs.all (fun r => subs.any (fun u => u.rctx == r)) || 8 ≤ pendingLaunches s (rcGroup u0.cfg) || (partOf s p).td ≠ .none then return
    for u in subs do
      let ps := sortByKey (admitPicks u.cfg u.picks)
      let drops := ps.filter (fun k => k.gap == some 0)
      let se := u.rctx / 256
      let c := u.rctx % 256
      ctr32 (rRcnt se c 8) drops.length
      for k in drops do
        countDrop p k.node
      unless drops.isEmpty do raiseCtx 0x4004 0 u.rctx p
      let wins := ps.foldl (fun a k => if k.gap.isNone then max a (k.win + 1) else a) 1
      ctr32 (rRcnt se c 0x24) (wins - 1)
      modSubmit u (fun u => { u with picks := ps, send := ps.map sendRecord, phase := .handed })
      slotDone u.thread u.slot 0

/-- SEND_LIST_HANDOFF (R54). -/
def execSendListHandoff (p : Fin 64) (setId : BitVec 8) (tag : BitVec 32) (s : State) : Host.Outcome State Fault Refusal :=
  finish (handOff p setId.toNat tag.toNat) s

/-! ## The combine (R73–R76) -/

/-- Every window of a submit has its returns, or its return deadline has passed. -/
def returnsIn (s : State) (p setId tag : Nat) : Bool :=
  let ls := exchangeOf s p setId tag
  let ds := ls.filter (fun l => l.kind == .dispatch)
  !ds.isEmpty && ds.all (fun d => ls.any (fun r => r.kind == .ret && r.win == d.win && (r.past || r.rx.all (fun x => x.delivered || x.discarded) && r.phase != .allocated && r.phase != .ready)))

/-- Where a pick's return lies, if it was delivered (R98, R103). -/
def returnAddr (s : State) (p setId tag se : Nat) (k : Pick) : Option Nat :=
  let ls := exchangeOf s p setId tag
  match ls.find? (fun l => l.kind == .dispatch && l.win == k.win), ls.find? (fun l => l.kind == .ret && l.win == k.win) with
  | some d, some r =>
    if r.rx.any (fun x => x.src == k.dest && x.delivered) then
      let start := ((dieN d (ownCounts s d k.dest) d.caps).take se).foldl (· + ·) 0
      (d.retBufs.find? (fun b => b.2.1 == k.dest)).map (fun b => b.2.2 + (start + k.pos) * d.tokenBytes)
    else none
  | _, _ => none

/-- The contributions of one token that are present, with their addresses. -/
def presentOf (u : Submit) (ks : List Pick) (d : Nat) : Act (List (Pick × Nat)) := do
  let se := u.rctx / 256
  let n := d * (fmtBits (rcRetFmt u.cfg) / 8)
  let mut out : List (Pick × Nat) := []
  for k in ks do
    if k.gap.isNone then
      match returnAddr (← look) u.part (rcSet u.cfg) u.tag se k with
      | none => ctr32 (rRcnt se (u.rctx % 256) 0x1C)
      | some a => if ← consume (dieSE se) (u.rctx % 256) (some u.part) a n then out := out ++ [(k, a)]
  return out

/-- One output row (R74): element `j` of the present contributions onto the base. -/
def combineElem (s : State) (fmt : Nat) (f : BitVec 32) (ps : List (Pick × Nat)) (base : BitVec 32) (j : Nat) : BitVec 32 × Flags :=
  let es := fmtBits fmt / 8
  ps.foldl (fun a x =>
    let w := mulF32 x.1.weight f
    let e := elemNum fmt (memNat s (x.2 + j * es) es) 0x7F
    let t := mulNum (ofF32 w.1) e.1
    let r := accAdd a.1 [(t.1, w.2 ||| e.2 ||| t.2)]
    (r.1, a.2 ||| r.2)) (base, 0)

/-- The combine of one context's submit (R74–R76). A token whose ROW lies at or beyond the ROWS of the output MDESC has no row to write, and
nothing is raised for it (DESIGN CHOICE, log entry 135). ABORT of a context's submit ends that submit alone, not those of the other
contexts of its set (DESIGN CHOICE, log entry 136). -/
def combineSubmit (u : Submit) : Act Unit := do
  let c := u.cfg
  let r := u.rctx
  let o := mdescOf u.out
  let s ← look
  let policy := policyOf s c
  let toks := sortBy (fun a b => decide (a ≤ b)) (u.picks.map (·.tok)).eraseDups
  let mut rows : List (Nat × List Pick × List (Pick × Nat)) := []
  let mut miss := false
  for t in toks do
    let ks := sortBy (fun a b => decide (a.rank ≤ b.rank)) (u.picks.filter (fun k => k.tok == t))
    let ps ← presentOf u ks o.cols
    if ps.length ≠ ks.length then miss := true
    rows := rows ++ [(t, ks, ps)]
  if u.picks.length ≠ rcK c * u.ntok then miss := true
  if policy = 3 && miss then
    if u.picks.any (fun k => k.gap == some 0) then raiseCtx 0x4004 2 r u.part
    for dst in ((u.picks.filter (fun k => k.gap.isNone && (returnAddr s u.part (rcSet c) u.tag (r / 256) k).isNone)).map (·.dest)).eraseDups do
      raiseCtx 0x4006 2 r u.part (peerDetail dst (rcGroup c))
    modSubmits (fun l => l.filter (fun x => !sameSubmit x u))
    tagDone r u.tag 2 0
  else
    let mut fl : Flags := 0
    for x in rows do
      let (t, ks, ps) := x
      if ps.isEmpty then ctr32 (rRcnt (r / 256) (r % 256) 0x20)
      let all := sumF32 (ks.map (·.weight))
      let pres := sumF32 (ps.map (fun y => y.1.weight))
      let f := if policy = 1 then (if (ofF32 pres.1).isZero then (0, 0) else divNum (ofF32 all.1) (ofF32 pres.1)) else (0x3F800000, 0)
      fl := fl ||| all.2 ||| pres.2 ||| f.2
      if t < o.rows then
        let a := wrapAddr o.base (t * o.stride)
        let okBase ← if rcAccum c then consume (dieSE (r / 256)) (r % 256) (some u.part) a o.rowBytes else pure true
        let okMap ← unitWrite (dieSE (r / 256)) (r % 256) u.part a o.rowBytes
        if okBase && okMap then
          for j in List.range o.cols do
            let s ← look
            let base := if rcAccum c then widen o.fmt (readCode s o t j) 0x7F else (0, 0)
            let v := combineElem s (rcRetFmt c) f.1 ps base.1 j
            let e := toFmt o.fmt rne (ofF32 v.1)
            fl := fl ||| base.2 ||| v.2 ||| e.2
            writeCode o t j e.1
    partFlags u.part fl
    modSubmits (fun l => l.filter (fun x => !sameSubmit x u))
    tagDone r u.tag (if miss then 1 else 0) fl

/-- The sums of a split expert's partial outputs, element by element (R74, R109–R112). An element's index in the route tag's data is
token × D + column (log entry 55). -/
def splitSums (u : Submit) (x : SplitSum) : List ((Nat × Flags) × SumEnd) :=
  let fmt := rcRetFmt u.cfg
  let es := elBytes fmt
  let d := (mdescOf u.out).cols
  (List.range ((d + 31) / 32)).flatMap (fun c =>
    let n := min 32 (d - 32 * c)
    let ps := x.parts.map (fun b => (List.range n).map (fun i => leNat ((b.drop ((32 * c + i) * es)).take es)))
    reduceBlock 0 fmt fmt ((ps.map (blockExp fmt)).foldl max 0) (x.tok * d + 32 * c) n x.upsets ps)

/-- The partial outputs of a split expert are summed into the return of their pick (R74, R108); answers whether every element passed its
residue checks. -/
def sumSplit (subs : List Submit) (x : SplitSum) : Act Bool := do
  match subs.find? (fun u => u.rctx / 256 == x.se.val) with
  | none => return true
  | some u =>
    match u.picks.find? (fun k => k.gap.isNone && k.tok == x.tok && k.rank == x.rank) with
    | none => return true
    | some k =>
      match returnAddr (← look) u.part (rcSet u.cfg) u.tag x.se k with
      | none => return true
      | some a =>
        let res := splitSums u x
        for y in res.zipIdx do
          reportSum (rcGroup u.cfg) u.part (x.tok * (mdescOf u.out).cols + y.2) y.1.2
        partFlags u.part (res.foldl (fun f y => f ||| y.1.2) 0)
        putBytes a (res.flatMap (fun y => natBytes (elBytes (rcRetFmt u.cfg)) y.1.1))
        return res.all (fun y => y.2 != .failed)

/-- The sums of a combine, in order; answers whether none failed. -/
def sumSplits (subs : List Submit) (xs : List SplitSum) : Act Bool := do
  let ok ← xs.mapM (sumSplit subs)
  return ok.all id

/-- COMBINE (R74): a second residue mismatch in a split expert's sum fails the combine of the route tag (R20, R112, R382). -/
def combineAct (p setId tag : Nat) (sums : List SplitSum) : Act Unit := do
  let s ← look
  let subs := (setSubmits s p setId tag).filter (·.phase == .handed)
  if !subs.isEmpty && returnsIn s p setId tag then
    if ← sumSplits subs sums then
      for u in subs do
        combineSubmit u
    else
      for u in subs do
        failSubmit u
    finishExchange p setId tag

/-- COMBINE (R74). -/
def execCombine (p : Fin 64) (set : RouteSet) (tag : BitVec 32) (s : State) : Host.Outcome State Fault Refusal :=
  finish (combineAct p set.setId.toNat tag.toNat set.sums) s

/-! ## COMBINE_WAIT (R85, R86) -/

def combineWaitBody (i : Iss) : Act SyncEnd := do
  let r := cf i.w 4 0 10
  let g := cb i.w 6
  let tag := cf i.w 28 0 32
  if 31 < g then return .fault 2
  let s ← look
  let mine := rcPart (rcfgOf s r) = i.p || s.submits.any (fun u => u.rctx == r && u.tag == tag && u.part == i.p)
  match s.tagsDone.find? (fun d => d.rctx == r && d.tag == tag && mine) with
  | some d =>
    modThread i.key (fun t => orFlags d.flags (setG g (BitVec.ofNat 64 d.status) t))
    return .switch
  | none =>
    if mine && s.submits.any (fun u => u.rctx == r && u.tag == tag) then return .wait (.combine r tag g)
    raiseCtx 0x4003 2 r i.p
    modThread i.key (setG g 2)
    return .switch

/-- COMBINE_WAIT (R86). -/
def execCombineWait (th : Thr) (w : Cmd) (s : State) : Host.Outcome State Fault Refusal := finishIf (opIs 0x61 w) (syncCmd th w combineWaitBody) s

end Sys2Proof.Machine
end

