-- ==== Sys2Proof/Machine/Batch.lean ====
section
/-!
DEFINITION. The step controller's batch (R80–R84, R306–R310), token sampling (R78, R79, R83) and TOKEN_OUT (R307).
-/

namespace Sys2Proof.Machine

/-! ## Configuration in force (R84) -/

/-- SRE_STEP_p as registers hold it, in the block of SE(p mod 4). -/
def stepRegs (s : State) (p : Nat) : List Word := (List.range 8).map (fun w => regOf s (rSre (p % 4) (0x800 + p * 0x40 + 8 * w)))

/-- SRE_STEP_p as it is in force. -/
def stepCfg (s : State) (p : Nat) : Item :=
  let ws := (partOf s p).sreStep
  let ws := if ws.isEmpty then (List.range 8).map (fun w => resetWord (rSre 0 (0x800 + 8 * w))) else ws
  BitVec.ofNat 512 ((List.range 8).foldl (fun a k => a ||| (ws.getD k 0).toNat <<< (64 * k)) 0)

def stFirst (x : Item) : Nat := ibits x 0 16
def stCount (x : Item) : Nat := ibits x 16 17
def stMaxSeqs (x : Item) : Nat := ibits x 64 17
def stMaxTokens (x : Item) : Nat := ibits x 96 24
def stChunk (x : Item) : Nat := max 1 (ibits x 120 24)
def stReqQ (x : Item) : Nat := ibits x 144 12
def stOutQ (x : Item) : Nat := ibits x 156 12

/-- A write of a word of SRE_STEP_p (R84); STEP_MAX_TOKENS below STEP_MAX_SEQS is refused. -/
def sreStepWriteAct (p word : Nat) (w : Wr) : Act Unit := do
  let s ← look
  let off := rSre (p % 4) (0x800 + p * 0x40 + 8 * word)
  let new := plainWrite off (regOf s off).toNat w
  let ws := (stepRegs s p).set word (BitVec.ofNat 64 new)
  let x : Item := BitVec.ofNat 512 ((List.range 8).foldl (fun a k => a ||| (ws.getD k 0).toNat <<< (64 * k)) 0)
  if stMaxTokens x < stMaxSeqs x then raise 0x4003 2 (dieSE (p % 4)) 0 (some p)
  else wrReg off new

/-- SRE_STEP_WRITE (R84). -/
def execSreStepWrite (p : Fin 64) (word : Fin 8) (w : Wr) (s : State) : Host.Outcome State Fault Refusal :=
  finish (ownerWrite w.path (sreStepWriteAct p word w)) s

/-! ## The batch table (R80) -/

def btBase (s : State) : Nat := fieldOf s (rSre 0 0) 22 30 * 2 ^ 22

/-- Entries of a partition's range; none while SRE_BT_BASE does not lie in shared SRAM (log entry 26). A range that runs past entry 65,535
goes on in the memory behind the table (DESIGN CHOICE, log entry 139). -/
def btRange (s : State) (p : Nat) : List Nat :=
  let x := stepCfg s p
  if inSram (btBase s) then (List.range (stCount x)).map (· + stFirst x) else []

def btEntry (s : State) (i : Nat) : Item := memItem s (btBase s + 64 * i)
def putEntry (i : Nat) (x : Item) : Act Unit := do putNat (btBase (← look) + 64 * i) 64 x.toNat
/-- Replace one field of an entry. -/
def putBt (i lo len v : Nat) : Act Unit := do
  let x := btEntry (← look) i
  putEntry i (BitVec.ofNat 512 (setBits x.toNat lo len v))

def beSeq (x : Item) : Nat := ibits x 0 32
def beState (x : Item) : Nat := ibits x 32 3
def bePrio (x : Item) : Nat := ibits x 35 4
def bePos (x : Item) : Nat := ibits x 40 24
def beLeft (x : Item) : Nat := ibits x 64 24
def beMaxPos (x : Item) : Nat := if ibits x 88 24 = 0 then 16777215 else ibits x 88 24
def beArrival (x : Item) : BitVec 32 := BitVec.ofNat 32 (ibits x 416 32)
def beKv (x : Item) : Nat := ibits x 320 52
def beNode (x : Item) : Nat := ibits x 384 16
def beStream (x : Item) : Nat := ibits x 400 16

def seqOf (s : State) (p i : Nat) : SeqAux := tget {} (partOf s p).seqs i
def modSeq (p i : Nat) (f : SeqAux → SeqAux) : Act Unit := modPart p (fun d => { d with seqs := tput {} d.seqs i (f (tget {} d.seqs i)) })

/-- Entries of a partition in a state, by ARRIVAL (R82). -/
def inState (s : State) (p st : Nat) : List Nat :=
  sortBy (fun a b => !(serialAfter (beArrival (btEntry s a)) (beArrival (btEntry s b))))
    ((btRange s p).filter (fun i => beState (btEntry s i) == st))

/-! ## KV pages (R308–R310) -/

def pageTokens (s : State) (p : Nat) : Nat := 2 ^ max 4 (min 12 (fieldOf s (rPart p 0x30) 8 4))
def kvTokenBytes (s : State) (p : Nat) : Nat := fieldOf s (rPart p 0x30) 32 32
def kvStallMax (s : State) (p : Nat) : Nat := max 1 (fieldOf s (rPart p 0x30) 12 12)

/-- Take the pages that cover positions `pos` to `pos + n − 1`, in order; answers how many positions from `pos` are covered. -/
def coverPages (p root pos n : Nat) : Act Nat := do
  let s ← look
  let pt := pageTokens s p
  let first := pos / pt
  let last := (pos + n - 1) / pt
  let mut ok := true
  let mut got := n
  if n = 0 then return 0
  for j in (List.range (last + 1 - first)).map (· + first) do
    if ok then
      let a := root + 64 + 8 * j
      if memNat (← look) a 8 = 0 then
        let r ← poolAllocAct p (pt * kvTokenBytes s p)
        if r.1 = 0 then
          putNat a 8 r.2
          putNat (root + 12) 4 (memNat (← look) (root + 12) 4 + 1)
        else
          ok := false
          got := if j = first then 0 else j * pt - pos
  return got

/-- The prompt buffer returns once (R310). -/
def freePrompt (p root : Nat) : Act Unit := do
  let a := memNat (← look) root 8 % 2 ^ 52
  if root ≠ 0 && a ≠ 0 then
    let _ ← poolFreeAct p a
    putNat root 8 (setBits (memNat (← look) root 8) 0 52 0)

/-- A sequence's pages, page table and prompt buffer return, and its entry is FREE (R82, R310). -/
def freeSeq (p i : Nat) : Act Unit := do
  let s ← look
  let x := btEntry s i
  let root := beKv x
  if root ≠ 0 then
    let n := (beMaxPos x + pageTokens s p - 1) / pageTokens s p
    for j in List.range n do
      let a := memNat (← look) (root + 64 + 8 * j) 8
      if a ≠ 0 then
        let _ ← poolFreeAct p a
    freePrompt p root
    let _ ← poolFreeAct p root
  putBt i 32 3 0
  modSeq p i (fun _ => {})

/-! ## Output items (R79, R307) -/

/-- An OUT_Q item. -/
def outItem (seqId pos token prob reason step node stream idx : Nat) : Item :=
  BitVec.ofNat 512 (seqId ||| pos <<< 32 ||| token <<< 64 ||| prob <<< 96 ||| reason <<< 128 ||| step <<< 144 ||| node <<< 192 |||
    stream <<< 208 ||| idx <<< 224)

/-- Push an item for an entry into OUT_Q; LAST with a reason. A disabled OUT_Q takes nothing. -/
def pushOut (p i pos token prob reason : Nat) : Act Unit := do
  let s ← look
  let x := btEntry s i
  let q := stOutQ (stepCfg s p)
  if qEn s q then
    let ok ← qPushItem q (outItem (beSeq x) pos token prob reason (partOf s p).stepNo.toNat (beNode x) (beStream x) i) (reason != 0) false (dieSE (p % 4))
    if ok && !(queueOf s q).dropping && reason ≠ 0 then modSeq p i (fun a => { a with final := true })

/-- A reply with REASON FAULT to a request that has no entry (R81, R306). -/
def replyFault (p seqId node stream : Nat) : Act Unit := do
  let s ← look
  let q := stOutQ (stepCfg s p)
  if qEn s q then
    let _ ← qPushItem q (outItem seqId 0 0 0 5 (partOf s p).stepNo.toNat node stream 0) true false (dieSE (p % 4))

/-! ## Requests and cancels (R81, R306) -/

/-- A join counter of a partition (R84). -/
def rJoin (p off : Nat) : Nat := rSre (p % 4) (0x1800 + p * 0x10 + off)

/-- The step controller may take from REQ_Q: the queue is bound to its die and the job runs. -/
def reqHead (s : State) (p : Nat) : Option QItem :=
  let q := stReqQ (stepCfg s p)
  if qEn s q && qCons s q == 1 && qCunit s q == p % 4 && qPart s q == p && jobState s p == 2 && (partOf s p).td == .none then (queueOf s q).items.head? else none

/-- SC_REQUEST_TAKE (R81, R306). -/
def requestTake (p : Nat) : Act Unit := do
  let s ← look
  match reqHead s p with
  | none => return
  | some hd =>
    if (!hd.gap && ibits hd.data 32 2 ≠ 0) || !mayTake s (p % 4) (stReqQ (stepCfg s p)) then return
    match (← qPopItem (stReqQ (stepCfg s p)) (dieSE (p % 4))) with
    | none => return
    | some it =>
      packetEnd (p % 4) (stReqQ (stepCfg s p))
      if it.gap then return
      let x := it.data
      let prompt := ibits x 288 52
      let refuse : Act Unit := do
        if prompt ≠ 0 then
          let _ ← poolFreeAct p prompt
        replyFault p (ibits x 0 32) (ibits x 352 16) (ibits x 208 16)
      let s ← look
      match (btRange s p).find? (fun i => beState (btEntry s i) == 0) with
      | none =>
        ctr32 (rJoin p 4)
        refuse
      | some i =>
        let maxPos := if ibits x 64 24 = 0 then 16777215 else ibits x 64 24
        let n := 64 + 8 * ((maxPos + pageTokens s p - 1) / pageTokens s p)
        let r ← poolAllocAct p n
        if r.1 ≠ 0 then
          ctr32 (rPart p 0x914)
          refuse
        else
          zeroMem r.2 n
          putNat r.2 16 (prompt ||| ibits x 40 24 <<< 64)
          let arr := (partOf (← look) p).arrival
          modPart p (fun d => { d with arrival := d.arrival + 1 })
          putEntry i (BitVec.ofNat 512 (ibits x 0 32 ||| 1 <<< 32 ||| ibits x 36 4 <<< 35 ||| ibits x 34 1 <<< 39 ||| ibits x 40 24 <<< 64 |||
            maxPos <<< 88 ||| ibits x 96 32 <<< 128 ||| ibits x 128 32 <<< 160 ||| ibits x 192 16 <<< 192 ||| ibits x 160 32 <<< 224 |||
            ibits x 224 64 <<< 256 ||| r.2 <<< 320 ||| ibits x 352 16 <<< 384 ||| ibits x 208 16 <<< 400 ||| arr.toNat <<< 416))
          modSeq p i (fun _ => {})

/-- SC_REQUEST_TAKE (R81). -/
def execScRequestTake (p : Fin 64) (s : State) : Host.Outcome State Fault Refusal := finish (requestTake p) s

/-- A cancel of an entry (R81): a WAITING one is freed at once, an ACTIVE one is marked. -/
def cancelEntry (p i : Nat) : Act Unit := do
  let st := beState (btEntry (← look) i)
  if st = 1 then freeSeq p i
  else if st = 2 then modSeq p i (fun a => { a with cancel := true })

/-- SC_CANCEL (R81). -/
def cancelTake (p : Nat) : Act Unit := do
  let s ← look
  match reqHead s p with
  | none => return
  | some hd =>
    if hd.gap || ibits hd.data 32 2 = 0 || !mayTake s (p % 4) (stReqQ (stepCfg s p)) then return
    match (← qPopItem (stReqQ (stepCfg s p)) (dieSE (p % 4))) with
    | none => return
    | some it =>
      packetEnd (p % 4) (stReqQ (stepCfg s p))
      if it.gap then return
      let s ← look
      match (btRange s p).find? (fun i => beState (btEntry s i) != 0 && beSeq (btEntry s i) == ibits it.data 0 32) with
      | none => ctr32 (rJoin p 8)
      | some i => cancelEntry p i

/-- SC_CANCEL (R81). -/
def execScCancel (p : Fin 64) (s : State) : Host.Outcome State Fault Refusal := finish (cancelTake p) s

/-! ## Sampling (R78, R79, R83, R85, R86) -/

/-- u of the draw pseudocode, as an FP32 value. -/
def drawU (seed : Word) (pos salt : Nat) : BitVec 32 :=
  let x : Word := seed ^^^ (BitVec.ofNat 64 pos <<< 24) ^^^ BitVec.ofNat 64 salt
  let x := (x ^^^ (x >>> 30)) * 0xBF58476D1CE4E5B9
  let x := (x ^^^ (x >>> 27)) * 0x94D049BB133111EB
  let x := x ^^^ (x >>> 31)
  (toF32 (.fin false (x >>> 40).toNat (-24))).1

/-- A vocabulary entry as it competes. -/
structure Tok where
  v : Nat
  z : BitVec 32
  prob : BitVec 32 := 0
  deriving DecidableEq, Repr

/-- Descending by a value, ties to the lower id. -/
def tokBefore (f : Tok → BitVec 32) (a b : Tok) : Bool :=
  if ltNum (ofF32 (f b)) (ofF32 (f a)) then true
  else if ltNum (ofF32 (f a)) (ofF32 (f b)) then false
  else a.v ≤ b.v

/-- The shortest prefix whose running sum reaches `goal` (R78 step 5), with the flags of the running sums (R160). -/
def prefixTo (goal : BitVec 32) : BitVec 32 → List Tok → List Tok × Flags
  | _, [] => ([], 0)
  | acc, t :: ts =>
    let a := addF32 acc t.prob
    if ltNum (ofF32 a.1) (ofF32 goal) then
      let r := prefixTo goal a.1 ts
      (t :: r.1, a.2 ||| r.2)
    else ([t], a.2)

/-- The first candidate whose running sum exceeds `lim`, the last where none does, with the flags of the running sums (R160). -/
def firstOver (lim : BitVec 32) : BitVec 32 → List Tok → Option Tok × Flags
  | _, [] => (none, 0)
  | acc, t :: ts =>
    let a := addF32 acc t.prob
    if ltNum (ofF32 lim) (ofF32 a.1) || ts.isEmpty then (some t, a.2)
    else
      let r := firstOver lim a.1 ts
      (r.1, a.2 ||| r.2)

/-- Sample one row (R78): the token, its probability where the steps compute one, and the flags. PROB of a drawn token is its probability
of step 4, which step 5 does not renormalise: R79 does not say which of the two it is (DESIGN CHOICE, log entry 140). -/
def sampleRow (ls : List (BitVec 32)) (temp topp : BitVec 32) (topk : Nat) (u : BitVec 32) : Nat × Option (BitVec 32) × Flags :=
  let ls := ls.map (fun l => if (ofF32 l).isNan then 0xFF800000 else l)
  if (ofF32 temp).isZero then
    let best := ls.zipIdx.foldl (fun (b : Nat × BitVec 32) x => if ltNum (ofF32 b.2) (ofF32 x.1) then (x.2, x.1) else b) (0, ls.headD 0)
    (best.1, none, 0)
  else
    let zs := ls.map (fun l => divNum (ofF32 l) (ofF32 temp))
    let toks := (zs.map (·.1)).zipIdx.map (fun x => ({ v := x.2, z := x.1 } : Tok))
    let kc := if 1 ≤ topk then min topk (min 4096 ls.length) else min 4096 ls.length
    let cand := (sortBy (tokBefore (·.z)) toks).take kc
    let p := scores 0 (cand.map (·.z))
    let probs := sortBy (tokBefore (·.prob)) ((cand.zip p.1).map (fun x => { x.1 with prob := x.2 }))
    let kept := if ltNum (ofF32 topp) (.fin false 1 0) then prefixTo topp 0 probs else (probs, 0)
    let tot := sumF32 (kept.1.map (·.prob))
    let lim := mulF32 u tot.1
    let pick := firstOver lim.1 0 kept.1
    let r := pick.1.getD { v := 0, z := 0 }
    (r.v, some r.prob, (zs.foldl (fun a x => a ||| x.2) p.2) ||| kept.2 ||| tot.2 ||| lim.2 ||| pick.2)

/-- The serving context of a partition has faulted (R297). -/
def serveFaulted (s : State) (p : Nat) : Bool := fieldOf s (rCtx p (fieldOf s (rPart p 0x30) 4 4) 0) 56 3 == 4

/-- The reason of a sampled token (R83). -/
def reasonOf (s : State) (p i token pos : Nat) : Nat :=
  let x := btEntry s i
  if token = ibits x 128 32 && ibits x 128 32 ≠ 0xFFFFFFFF then 1
  else if beMaxPos x ≤ pos then 2
  else if 16777215 ≤ pos then 3
  else if (seqOf s p i).cancel then 4
  else if serveFaulted s p then 5
  else 0

/-- The entry moves on past the tokens of this step (log entry 27). -/
def advanceEntry (p i : Nat) : Act Unit := do
  let s ← look
  let x := btEntry s i
  let take := (seqOf s p i).take
  putBt i 40 24 (min 16777215 (bePos x + take))
  putBt i 64 24 (beLeft x - take)

/-- Sample one row of a SAMPLE_SUBMIT and deliver its token (R78, R79, R83); an error in the row's logits ends the sequence with REASON FAULT.
A row whose batch-table index lies outside the partition's range, or names an entry that is not ACTIVE, is passed over without an item
(DESIGN CHOICE, log entry 137). -/
def sampleEntry (p row i : Nat) (m : Mdesc) : Act Unit := do
  let s ← look
  if (btRange s p).contains i && beState (btEntry s i) = 2 then
    let good ← consume (dieSE (p % 4)) 0 (some p) (wrapAddr m.base (row * m.stride)) m.rowBytes
    advanceEntry p i
    let s ← look
    let x := btEntry s i
    let pos := bePos x
    if good then
      let ls := (List.range m.cols).map (fun j => widen m.fmt (readCode s m row j) 0x7F)
      let salt := if ibits x 39 1 = 1 then (partOf s p).stepNo.toNat % 2 ^ 24 else 0
      let r := sampleRow (ls.map (·.1)) (BitVec.ofNat 32 (ibits x 160 32)) (BitVec.ofNat 32 (ibits x 224 32)) (ibits x 192 16)
        (drawU (BitVec.ofNat 64 (ibits x 256 64)) pos salt)
      partFlags p (ls.foldl (fun a y => a ||| y.2) r.2.2)
      let prob ← match r.2.1 with
        | some v => pure v.toNat
        | none => do
          let v ← drawFree
          pure (v.toNat % 2 ^ 32)
      let why := reasonOf s p i r.1 pos
      modSeq p i (fun a => { a with sampled := true, reason := why })
      pushOut p i pos r.1 prob why
    else
      modSeq p i (fun a => { a with sampled := true, reason := 5 })
      pushOut p i pos 0 0 5

/-- The body of SAMPLE_SUBMIT (R78, R85). An SE number that is not p mod 4 faults with cause 2; a matrix with fewer rows than Rows, more
than 1,048,576 columns, or a format other than FP32 and BF16 with cause 3 (DESIGN CHOICE, log entry 138). -/
def sampleBody (i : Iss) (slot : Nat) : Act AsyncEnd := do
  let se := cf i.w 4 0 16
  let n := cf i.w 8 0 32
  if se ≠ i.p % 4 || n = 0 || 65536 < n then return .fault 2
  match (← readMdesc i (cAddr i.w 12)) with
  | .fault c => return .fault c
  | .ok m =>
    let s ← look
    if 1 < m.fmt || m.blocked || m.rows < n || 1048576 < m.cols then return .fault 3
    if !m.inPart s i.p || !belongs s i.p (cAddr i.w 20) (2 * n) then return .fault 4
    eff (.samples (s.samples ++ [({ thread := i.key, slot := slot, se := se, part := i.p, logits := i.item s (cAddr i.w 12) } : Sample)]))
    return .later

/-- SAMPLE_SUBMIT (R78, R86). -/
def execSampleSubmit (th : Thr) (w : Cmd) (s : State) : Host.Outcome State Fault Refusal :=
  finishIf (opIs 0x62 w) (asyncCmd th w 0 (fun _ => return false) sampleBody) s

/-- SAMPLE_DONE (R86): the oldest sampling of the thread context. -/
def sampleDoneAct (th : Thr) : Act Unit := do
  let s ← look
  let mine := fun (x : Sample) => x.part == th.part.val && x.thread / 16 % 2048 == th.core.val && x.thread % 16 == th.tc.val
  match s.samples.find? mine with
  | none => return
  | some x =>
    eff (.samples (s.samples.erase x))
    match (threadOf s x.thread).asyncs.find? (fun e => e.1 == x.slot) with
    | none => return
    | some (_, a) =>
      let tbl := cAddr a.w 20
      let n := cf a.w 8 0 32
      let good ← consume (dieSE x.se) 0 (some x.part) tbl (2 * n)
      if good then
        for row in List.range n do
          sampleEntry x.part row (memNat (← look) (tbl + 2 * row) 2) (mdescOf x.logits)
      slotDone x.thread x.slot 0

/-- SAMPLE_DONE (R86). -/
def execSampleDone (th : Thr) (s : State) : Host.Outcome State Fault Refusal := finish (sampleDoneAct th) s

/-! ## TOKEN_OUT (R303, R307) -/

def servVc (s : State) (p : Nat) : Nat := fieldOf s (rPart p 0x30) 0 2

/-- The port a serving frame leaves by: one that is UP, which the spec does not name (log entry 28). -/
def servPort : Act (Option Nat) := do
  let s ← look
  let up := (List.range 64).filter (linkUp s)
  if up.isEmpty then return none
  let v ← drawFree
  return up[v.toNat % up.length]?

/-- A TOKEN_OUT frame goes out. -/
def sendTok (p : Nat) (f : TokFrame) : Act Unit := do
  match (← servPort) with
  | none => return
  | some n =>
    let s ← look
    sendOxt n (servVc s p) { typ := 7, dst := f.node, jobGen := jobGen s p, part := p, window := f.window, psn := f.psn, offset := f.offset
                             flags := if f.tries = 0 then 0 else 2, payload := f.payload }

/-- Send the pending records of a node, up to 256 (R307). -/
def sendNode (p node : Nat) : Act Unit := do
  let s ← look
  let d := partOf s p
  let recs := (d.toks.filter (fun r => r.node == node)).take 256
  unless recs.isEmpty do
    let pl := recs.flatMap (·.bytes)
    let at_ := tget (0, 0) d.tokPsn node
    let f : TokFrame := { node, window := d.stepNo.toNat % 2 ^ 32, psn := at_.1, offset := at_.2, records := recs.length, payload := pl, tries := 0, sentAt := s.time.now }
    modPart p (fun d => { d with toks := (d.toks.filter (fun r => r.node != node)) ++ (d.toks.filter (fun r => r.node == node)).drop 256
                                 tokFrames := d.tokFrames ++ [f], tokPsn := tput (0, 0) d.tokPsn node (at_.1 + 1, at_.2 + pl.length) })
    sendTok p f

/-- Send every pending record (R307). -/
def sendTokens (p : Nat) : Act Unit := do
  for node in ((partOf (← look) p).toks.map (·.node)).eraseDups do
    sendNode p node

/-- A record joins a node's batch. -/
def addRecord (p node : Nat) (bytes : List Byte) : Act Unit := do
  modPart p (fun d => { d with toks := d.toks ++ [{ node, bytes }] })
  if 256 ≤ ((partOf (← look) p).toks.filter (fun r => r.node == node)).length then sendNode p node

/-- A TOKEN_OUT record: item bytes 0–23, FE_STREAM, 6 reserved bytes (R307). -/
def recordOf (x : Item) : List Byte := natBytes 24 (ibits x 0 192) ++ natBytes 2 (ibits x 208 16) ++ List.replicate 6 0

/-- The network die reads an OUT_Q of a partition. -/
def isOutQ (s : State) (q : Nat) : Bool := qEn s q && qCons s q == 2 && stOutQ (stepCfg s (qPart s q)) == q

/-- TOKEN_OUT_ITEM (R307). -/
def tokenItem (q : Nat) : Act Unit := do
  let s ← look
  if isOutQ s q then
    let p := qPart s q
    match (← qPopItem q (dieND (qCunit s q))) with
    | none => return
    | some x => unless x.gap do addRecord p (ibits x.data 192 16) (recordOf x.data)

/-- TOKEN_OUT_ITEM (R307). -/
def execTokenOutItem (q : Fin 4096) (s : State) : Host.Outcome State Fault Refusal := finish (tokenItem q) s

/-- Of the unacknowledged frames to a node with this index, each of a step of its own, the one sent the longest time ago (R307). -/
def tokDue (s : State) (p node psn : Nat) : Option TokFrame :=
  ((partOf s p).tokFrames.filter (fun f => f.node == node && f.psn == psn)).foldl (fun (a : Option TokFrame) f => match a with
    | none => some f
    | some g => if f.sentAt < g.sentAt then some f else a) none

/-- TOKEN_OUT_RETX_TIMER (R307): again after ACK_TO_NS, or lost, with a pending cancel for the node's sequences. -/
def tokRetx (p node psn : Nat) : Act Unit := do
  let s ← look
  match tokDue s p node psn with
  | none => return
  | some f =>
    advanceTo (f.sentAt + ackTo s)
    let s ← look
    if f.tries < retxMax s then
      let g : TokFrame := { f with tries := f.tries + 1, sentAt := s.time.now }
      modPart p (fun d => { d with tokFrames := d.tokFrames.map (fun y => if y = f then g else y) })
      ctr32 (rPart p 0x924)
      sendTok p g
    else
      modPart p (fun d => { d with tokFrames := d.tokFrames.erase f })
      ctr32 (rPart p 0x928) f.records
      for i in btRange (← look) p do
        let x := btEntry (← look) i
        if beNode x = node then cancelEntry p i

/-- TOKEN_OUT_RETX_TIMER (R307). -/
def execTokenOutRetxTimer (p : Fin 64) (node : BitVec 16) (psn : BitVec 32) (s : State) : Host.Outcome State Fault Refusal :=
  finish (tokRetx p node.toNat psn.toNat) s

/-- An ACK of TOKEN_OUT frames (R307). -/
def tokAck (p node window : Nat) (b : List Byte) : Act Unit := do
  let s ← look
  let hit := fun (f : TokFrame) => f.node == node && f.window == window && ackHas b f.psn
  let got := (partOf s p).tokFrames.filter hit
  unless got.isEmpty do
    modPart p (fun d => { d with tokFrames := d.tokFrames.filter (fun f => !hit f) })
    ctr64 (rPart p 0x908) (got.foldl (fun a f => a + f.records) 0)

/-! ## The batch at a boundary (R82, R309, R310) -/

/-- An ACTIVE sequence's reason as the boundary finds it: set by the step, or a cancel or fault that the step's token did not carry. -/
def boundaryReason (s : State) (p i : Nat) : Nat :=
  let a := seqOf s p i
  if a.reason ≠ 0 then a.reason else if a.cancel then 4 else if serveFaulted s p then 5 else 0

/-- BATCH_COMMIT (R82, R309, R310). -/
def batchCommit (p : Nat) : Act Unit := do
  -- what the step did without a sampled token, and who leaves
  for i in inState (← look) p 2 do
    let s ← look
    let a := seqOf s p i
    if !a.sampled && a.take ≠ 0 then advanceEntry p i
    let why := boundaryReason (← look) p i
    if why ≠ 0 then
      if !(a.sampled && a.reason ≠ 0) then pushOut p i (bePos (btEntry (← look) i)) 0 0 why
      putBt i 32 3 3
  for i in inState (← look) p 3 do
    if (seqOf (← look) p i).final then freeSeq p i
  for i in inState (← look) p 2 do
    modSeq p i (fun a => { a with sampled := false, reason := 0, take := 1 })
    let x := btEntry (← look) i
    if beLeft x = 0 then freePrompt p (beKv x)
  -- takes of the active sequences
  let s ← look
  let cfg := stepCfg s p
  let act := inState s p 2
  let mut budget := stMaxTokens cfg - act.length
  let mut nact := act.length
  for i in act do
    let left := beLeft (btEntry (← look) i)
    if 0 < left then
      let extra := min (stChunk cfg - 1) (min (left - 1) budget)
      budget := budget - extra
      modSeq p i (fun a => { a with take := 1 + extra })
  -- joins, strictly in order
  let mut stop := serveFaulted s p
  let wait := sortBy (fun a b => decide (bePrio (btEntry s b) ≤ bePrio (btEntry s a))) (inState s p 1)
  for i in wait do
    unless stop do
      if stMaxSeqs cfg ≤ nact || budget < 1 then stop := true
      else
        let x := btEntry (← look) i
        let got ← coverPages p (beKv x) (bePos x) 1
        if got = 0 then
          ctr32 (rJoin p 0)
          stop := true
        else
          let take := min (stChunk cfg) (min (beLeft x) budget)
          budget := budget - take
          nact := nact + 1
          putBt i 32 3 2
          modSeq p i (fun a => { a with take := take, sampled := false })
  -- pages of the takes
  for i in inState (← look) p 2 do
    let s ← look
    let x := btEntry s i
    let take := (seqOf s p i).take
    let got ← coverPages p (beKv x) (bePos x) take
    if got < take then ctr32 (rPart p 0x92C)
    let stall := if got = 0 then (seqOf s p i).stall + 1 else 0
    modSeq p i (fun a => { a with take := got, stall := stall, reason := if kvStallMax s p ≤ stall then 5 else a.reason })

/-- A step's work is complete (R84): no route of the partition is unfinished, and every ACTIVE sequence whose take ends its prompt has its item. -/
def workDone (s : State) (p : Nat) : Bool :=
  let act := inState s p 2
  act.isEmpty || (!s.submits.any (fun u => u.part == p) &&
    act.all (fun i => let a := seqOf s p i; a.sampled || a.take == 0 || a.take < beLeft (btEntry s i)))

end Sys2Proof.Machine
end

