-- ==== Sys2Proof/Machine/Memory.lean ====
section
/-!
DEFINITION. The memory tiers (R248–R258) and the events of their hardware: CXL links, the tier-3 wipe, recalibration, the patrol scrub
(R372, R373).
-/

namespace Sys2Proof.Machine

/-! ## Where an address lies (R251, R252) -/

/-- XOR of the `w`-bit fields of a number. -/
def foldXor (w n g : Nat) : Nat := (List.range n).foldl (fun a k => a ^^^ bitsOf g (w * k) w) 0

/-- Stack and pseudo-channel of a tier-1 address (R251). -/
def t1Place (a : Nat) : Nat × Nat :=
  let pch := foldXor 10 4 (a / 256 % 2 ^ 32)
  (pch / 64, pch % 64)

/-- Die of a shared-SRAM address (R252). -/
def sramPlace (a : Nat) : Nat := bitsOf a 8 4 ^^^ bitsOf a 12 4

/-- Package of a tier-2 address (R252). -/
def t2Place (a : Nat) : Nat := foldXor 5 7 ((a - 2 ^ 40) / 1024 % 2 ^ 31)

/-- Die index and unit of the memory that holds an address (R367, R375). -/
def memSource (a : Nat) : Nat × Nat :=
  match tierOf a with
  | .t1 => (dieH (t1Place a).1, (t1Place a).2)
  | .t2 => (dieIO (t2Place a / 8), t2Place a % 8)
  | .sram => (76 + sramPlace a, 0)
  | _ => (dieMG, 0)

/-! ## CXL links (R256–R258) -/

/-- MAPPED_GIB of four capacities (R257). -/
def mappedGib (interleave : Bool) (caps : List Nat) : Nat :=
  if interleave then 4 * caps.foldl min 2048 else caps.foldl (· + ·) 0

/-- The decoded capacity of a port while the boot trains it (R257). -/
def decodeCap (n cap : Nat) : Act Unit := do
  if (← look).mod.phase = .boot then
    modMem2 (fun m => { m with caps := m.caps.set n cap })
    let m := (← look).mem2
    wrF 0x200018 0 16 (mappedGib m.interleave m.caps)

/-- A CXL link is down (R256, R258); the CXL port is unit 1 of its I/O die (R375). -/
def cxlDown (n : Nat) : Act Unit := do
  wrF (0x200020 + 8 * n) 0 6 0
  raise 0x4001 0 (dieIO n) 1

/-- CXL_LINK_DOWN (R256, R258). -/
def execCxlLinkDown (port : Fin 4) (s : State) : Host.Outcome State Fault Refusal :=
  finish (do
    if (← rdF (0x200020 + 8 * port.val) 0 1) = 1 then
      decodeCap port 0
      if (← look).mod.phase ≠ .boot then
        modMem2 (fun m => { m with cxlFailed := if m.cxlFailed.contains port.val then m.cxlFailed else m.cxlFailed ++ [port.val] })
      cxlDown port) s

/-- CXL_LINK_UP: at x4 or wider the link is up, else it is reported down (R256). -/
def execCxlLinkUp (port : Fin 4) (width : BitVec 5) (capGib : BitVec 16) (s : State) : Host.Outcome State Fault Refusal :=
  finish (do
    if width.toNat < 4 then cxlDown port
    else
      let cap := min 2048 capGib.toNat
      let r := 0x200020 + 8 * port.val
      wrF r 0 1 1
      wrF r 1 5 (min 16 width.toNat)
      wrF r 12 12 cap
      decodeCap port cap) s

/-! ## The tier-3 wipe (R258, R393) -/

/-- T3_WIPE_CHUNK (R258, R301, R393). -/
def execT3WipeChunk (s : State) : Host.Outcome State Fault Refusal := finish wipeChunk s

/-! ## Recalibration and scrub -/

/-- TIER_RECALIBRATION (R253): it stalls a pseudo-channel or a package and changes no bits. -/
def execTierRecalibration (_tier2 : Bool) (_unit : BitVec 10) (s : State) : Host.Outcome State Fault Refusal :=
  finish (pure ()) s

/-- The memories that the device scrubs (R372). -/
def scrubbed (a : Nat) : Bool := tierOf a == .t1 || tierOf a == .t2 || tierOf a == .sram

/-- PATROL_SCRUB (R372, R373): a corrected error is written back; an uncorrectable one marks its granule poisoned. -/
def execPatrolScrub (addr : BitVec 52) (result : ScrubResult) (s : State) : Host.Outcome State Fault Refusal :=
  finish (do
    let a := addr.toNat
    let src := memSource a
    if scrubbed a then
      match result with
      | .clean => return
      | .corrected => raise 0x2001 1 src.1 src.2 none a
      | .uncorrectable =>
        let g := a / 64
        modMem2 (fun m => { m with ue := m.ue.filter (· != g)
                                   poison := if m.poison.contains g then m.poison else m.poison ++ [g] })
        raise 0x2002 2 src.1 src.2 none (64 * g)) s

end Sys2Proof.Machine
end

