-- ==== Sys2Proof/Machine/Control.lean ====
section
/-!
DEFINITION. Command fetch, the control commands 0x00–0x09 and the two events of a thread: its wake and the completion of an
asynchronous command (R166–R175).
-/

namespace Sys2Proof.Machine

/-! ## Fetch (R170, R171) -/

/-- Why the issue unit may not fetch at an address: fault cause, or none (R170). -/
def fetchFault (s : State) (p core a : Nat) : Option Nat :=
  match tierOf a with
  | .scratch => if (a - 0x0D00_0000_0000) / 0x200000 = core then none else some 5
  | .sram => if belongs s p a 32 then none else some 4
  | .t1 => if belongs s p a 32 then none else some 4
  | _ => some 5

/-- Fetch up to 8 commands from CP on; the command at CP faults its thread where its address, its bytes or its opcode are bad. -/
def fetchAct (th : Thr) : Act Unit := do
  let s ← look
  match canRun s th 0 with
  | none => return
  | some i =>
    let t := threadOf s i.key
    match fetchFault s i.p i.core t.cp.toNat with
    | some c => threadFault i c
    | none =>
      if t.fetched.isEmpty then
        if !(← consume (i.core / 64) (i.core % 64) (some i.p) t.cp.toNat 32) then
          threadFault i 5
          return
      let mut stop := false
      for k in List.range 8 do
        let s ← look
        let t := threadOf s i.key
        let a := t.cp.toNat + 32 * k
        unless stop || k < t.fetched.length do
          if (fetchFault s i.p i.core a).isSome || !(touched s.mem2.poison a 32).isEmpty || !(touched s.mem2.ue a 32).isEmpty then
            stop := true
          else modThread i.key (fun t => { t with fetched := t.fetched ++ [BitVec.ofNat 256 (memNat s a 32)] })
      match (threadOf (← look) i.key).fetched with
      | [] => return
      | c :: _ => if !knownOpcode (hOpcode c) then threadFault i 1

/-! ## Control commands (R174, R175) -/

/-- TARGET of BR and LOOP (R174): absolute, or relative to this command; none where it is not a multiple of 32. -/
def brTarget (s : State) (i : Iss) (rel : Bool) : Option Nat :=
  if rel then
    let o := cInt i.w 8
    if o % 32 = 0 then some (((threadOf s i.key).cp.toNat + o) % 2 ^ 52).toNat else none
  else
    let a := cAddr i.w 8
    if a % 32 = 0 then some a else none

def brBody (i : Iss) : Act SyncEnd := do
  match brTarget (← look) i (cf i.w 4 0 1 == 1) with
  | none => return .fault 2
  | some a => return .jump a

/-- LOOP (R175). -/
def loopBody (i : Iss) : Act SyncEnd := do
  let s ← look
  let n := cb i.w 4
  if 31 < n then return .fault 2
  match brTarget s i (cf i.w 5 0 1 == 1) with
  | none => return .fault 2
  | some a =>
    let g := gOf (threadOf s i.key) n
    if g = 0 then return .done
    modThread i.key (setG n (g - 1))
    return if g - 1 = 0 then .done else .jump a

/-- WAIT_PIP (R173, R175). -/
def waitPipBody (i : Iss) : Act SyncEnd := do
  let s ← look
  let pip := cf i.w 4 0 6
  let rp := cf i.w 5 0 3
  let c := cf i.w 6 0 16
  let tmo := cf i.w 8 0 32
  let k := pipKey i.p i.ctx i.core pip
  let v := (pipOf s k).toNat
  if c ≤ v then
    eff (.pip k (BitVec.ofNat 16 (v - c)))
    modThread i.key (setP rp true)
    return .done
  return .wait (.pip pip c rp (if tmo = 0 then none else some (s.time.now + tmo)))

/-- SIG_PIP (R173, R175, R295): a signal to another core goes to the issuing context. -/
def sigPipBody (i : Iss) : Act SyncEnd := do
  let s ← look
  let pip := cf i.w 4 0 6
  let n := cf i.w 6 0 16
  let tgt := cf i.w 8 0 16
  let core := if tgt = 0xFFFF then i.core else tgt
  if !coreOfPart s i.p core then return .fault 2
  addPip i.p i.ctx core pip (if n = 0 then 1 else n)
  return .done

/-- HALT (R175): waits for the outstanding commands, posts the completion, frees the thread. -/
def haltAct (th : Thr) (w : Cmd) : Act Unit := do
  match (← issue th w) with
  | none => return
  | some i =>
    if !(← header i) then return
    let s ← look
    if hLeave w && !holdsGrant s (.sync i.key) then
      askGrant { who := .sync i.key, mw := classMw s 0, prio := (threadOf s i.key).prio.toNat, part := i.p, die := some (i.core / 64) }
      startWait i .grant
      return
    dropGrant (.sync i.key)
    let st := cf w 4 0 32
    startWait i (.drain st)
    if (threadOf (← look) i.key).asyncs.isEmpty then haltEnd i.key st

/-- COND of PSET CMP (R175). -/
def psetCmp (cond : Nat) (a b : Word) : Option Bool :=
  match cond with
  | 0 => some (a == b)
  | 1 => some (a != b)
  | 2 => some (a.slt b)
  | 3 => some (b.sle a)
  | 4 => some (a.ult b)
  | 5 => some (b.ule a)
  | 6 => some (a &&& b != 0)
  | _ => none

/-- COND of PSET PLOG (R175). -/
def psetLog (cond : Nat) (a b : Bool) : Option Bool :=
  match cond with
  | 0 => some (a && b)
  | 1 => some (a || b)
  | 2 => some (a != b)
  | 3 => some (a && !b)
  | _ => none

/-- A thread register as TRD reads it (R175). -/
def threadReg (s : State) (i : Iss) (n : Nat) : Word :=
  let t := threadOf s i.key
  match n with
  | 0 => BitVec.setWidth 64 t.flags
  | 1 => t.numCtrl
  | 2 => t.numSeed
  | 3 => BitVec.setWidth 64 t.prio
  | 4 => BitVec.setWidth 64 t.cp
  | 5 => BitVec.ofNat 64 (ftNs s)
  | 6 => BitVec.ofNat 64 (i.core ||| i.tc <<< 16 ||| i.p <<< 24)
  | 7 => BitVec.setWidth 64 (partOf s i.p).stepNo
  | _ => 0

/-- A thread register as TWR writes it (R162, R175). -/
def writeThreadReg (n : Nat) (v : Word) (t : Thread) : Thread :=
  match n with
  | 0 => { t with flags := t.flags &&& ~~~(BitVec.setWidth 6 v) }
  | 1 => { t with numCtrl := numCtrlWritten v }
  | 2 => { t with numSeed := v }
  | 3 => { t with prio := BitVec.setWidth 4 v }
  | _ => t

/-- PSET (R175). -/
def psetBody (i : Iss) : Act SyncEnd := do
  let s ← look
  let t := threadOf s i.key
  let dst := cb i.w 5
  let a := cb i.w 6
  let b := cb i.w 7
  let cond := cf i.w 8 0 4
  let useImm := cf i.w 8 7 1 == 1
  let imm : Word := BitVec.ofNat 64 (cf i.w 16 0 64)
  let src : Word := if useImm then imm else gOf t b
  let up := fun (f : Thread → Thread) => do
    modThread i.key f
    return SyncEnd.done
  match cb i.w 4 with
  | 0 =>
    if 7 < dst || 31 < a || (!useImm && 31 < b) then return .fault 2
    match psetCmp cond (gOf t a) src with
    | some r => up (setP dst r)
    | none => return .fault 2
  | 1 =>
    if 7 < dst || 7 < a || 7 < b then return .fault 2
    match psetLog cond (pOf t a) (pOf t b) with
    | some r => up (setP dst r)
    | none => return .fault 2
  | 2 =>
    if 31 < dst || (!useImm && 31 < a) then return .fault 2
    up (setG dst (if useImm then imm else gOf t a))
  | 3 =>
    if 31 < dst || 31 < a || (!useImm && 31 < b) then return .fault 2
    up (setG dst (gOf t a + src))
  | 4 =>
    if 31 < dst then return .fault 2
    up (setG dst (threadReg s i a))
  | 5 =>
    if 31 < a then return .fault 2
    up (writeThreadReg dst (gOf t a))
  | 6 =>
    if 31 < dst || 63 < a then return .fault 2
    up (setG dst (BitVec.setWidth 64 (pipOf s (pipKey i.p i.ctx i.core a))))
  | _ => return .fault 2

/-! ## Events of a thread -/

/-- The thread context of a running context. -/
def thrOf (s : State) (th : Thr) : Option Iss :=
  match (partOf s th.part).running with
  | none => none
  | some ctx => some { p := th.part, ctx, core := th.core, tc := th.tc, w := 0 }

/-- CMD_FETCH (R170, R171). -/
def execCmdFetch (th : Thr) (s : State) : Host.Outcome State Fault Refusal := finish (fetchAct th) s
/-- NOP (R174). -/
def execNop (th : Thr) (w : Cmd) (s : State) : Host.Outcome State Fault Refusal :=
  finishIf (opIs 0x00 w) (syncCmd th w (fun _ => return .done)) s
/-- BR (R175). -/
def execBr (th : Thr) (w : Cmd) (s : State) : Host.Outcome State Fault Refusal := finishIf (opIs 0x01 w) (syncCmd th w brBody) s
/-- LOOP (R175). -/
def execLoop (th : Thr) (w : Cmd) (s : State) : Host.Outcome State Fault Refusal := finishIf (opIs 0x02 w) (syncCmd th w loopBody) s
/-- WAIT_PIP (R173, R175). -/
def execWaitPip (th : Thr) (w : Cmd) (s : State) : Host.Outcome State Fault Refusal := finishIf (opIs 0x03 w) (syncCmd th w waitPipBody) s
/-- SIG_PIP (R173, R175). -/
def execSigPip (th : Thr) (w : Cmd) (s : State) : Host.Outcome State Fault Refusal := finishIf (opIs 0x04 w) (syncCmd th w sigPipBody) s
/-- YIELD (R168): the thread is held for one issue cycle. -/
def execYield (th : Thr) (w : Cmd) (s : State) : Host.Outcome State Fault Refusal :=
  finishIf (opIs 0x07 w) (syncCmd th w (fun _ => return .switch)) s
/-- HALT (R175). -/
def execHalt (th : Thr) (w : Cmd) (s : State) : Host.Outcome State Fault Refusal := finishIf (opIs 0x08 w) (haltAct th w) s
/-- PSET (R175). -/
def execPset (th : Thr) (w : Cmd) (s : State) : Host.Outcome State Fault Refusal := finishIf (opIs 0x09 w) (syncCmd th w psetBody) s

/-- WAIT_PIP_TIMEOUT (R175): TIMEOUT_NS passes first; nothing is subtracted and the result predicate is 0. -/
def execWaitPipTimeout (th : Thr) (s : State) : Host.Outcome State Fault Refusal :=
  finish (do
    let s ← look
    match thrOf s th with
    | none => return
    | some i =>
      let t := threadOf s i.key
      match t.wait with
      | .pip _ _ rp (some d) =>
        if t.st == .waiting then
          advanceTo d
          endWait i.key (setP rp false)
      | _ => return) s

/-- THREAD_WAKE (R168): a WAITING thread whose condition is met returns to READY. -/
def execThreadWake (th : Thr) (s : State) : Host.Outcome State Fault Refusal :=
  finish (do
    let s ← look
    match thrOf s th with
    | none => return
    | some i =>
      let t := threadOf s i.key
      if t.st == .waiting && t.wait == .met then
        modThread i.key (fun t => { t with st := .ready, wait := .none })) s



end Sys2Proof.Machine
end

