-- ==== Sys2Proof/Machine/Matrix.lean ====
section
/-!
DEFINITION. The matrix array, the Reed path and the tile sequencer (R191–R211): MM, CONV, MV and GMM. A command's tiles run in one step, or,
for a work list, those of one item; its bits do not depend on the tile cut (R192).
-/

namespace Sys2Proof.Machine

/-! ## Operands with their masks and buckets (R201, R202) -/

/-- An MDESC with its true extent. -/
structure Opd where
  m : Mdesc
  tr : Nat
  tc : Nat
  deriving DecidableEq, Repr

/-- A row of an operand is present: below the true extent, and its PMASK bit is 1. -/
def Opd.rowOn (s : State) (o : Opd) (i : Nat) : Bool :=
  i < o.tr && (o.m.pmask == 0 || (memAt s (o.m.pmask + i / 8)).getLsbD (i % 8))

/-- A column of an operand is present. -/
def Opd.colOn (s : State) (o : Opd) (j : Nat) : Bool :=
  j < o.tc && (o.m.pmask == 0 || (memAt s (o.m.pmask + 8 * ((o.m.rows + 63) / 64) + j / 8)).getLsbD (j % 8))

/-- An operand's element: +0 under its stored scale where a mask bit is 0. -/
def Opd.elem (s : State) (o : Opd) (i j : Nat) : Num × Flags :=
  if o.rowOn s i && o.colOn s j then readElem s o.m i j
  else if o.m.blocked then (if o.m.kcol then (imageOf s o.m).zero s i j else (imageOf s o.m).zero s j i)
  else elemNum o.m.fmt 0 (readScale s o.m i j)

/-- Bytes of a mask image. -/
def Mdesc.maskBytes (m : Mdesc) : Nat := 8 * ((m.rows + 63) / 64 + (m.cols + 63) / 64)

/-- The true extent of an MDESC, clamped (R202). -/
def extentOf (s : State) (i : Iss) (m : Mdesc) : Opd :=
  if m.bucket = 0 then { m, tr := m.rows, tc := m.cols }
  else
    let v := i.entry s (bucketBase s i.p + 8 * m.bucket)
    { m, tr := min (bitsOf v 0 24) m.rows, tc := min (bitsOf v 24 24) m.cols }

/-- The true extent of an MDESC; what is clamped is counted, once for a command that stops and goes on (R202). -/
def trueExtent (i : Iss) (m : Mdesc) : Act Opd := do
  let s ← look
  if m.bucket ≠ 0 && i.cur.isNone then
    let v := i.entry s (bucketBase s i.p + 8 * m.bucket)
    if m.rows < bitsOf v 0 24 then ctr32 (rCore i.core 0x30)
    if m.cols < bitsOf v 24 24 then ctr32 (rCore i.core 0x30)
  return extentOf s i m

/-- What a command's check of an operand answers. -/
inductive OpdRes where
  | ok (o : Opd)
  | fault (cause : Nat)
  deriving DecidableEq, Repr

/-- The core of a command consumes runs of bytes. -/
def coreReads (i : Iss) (rs : List (Nat × Nat)) : Act Bool := consumeRuns (i.core / 64) (i.core % 64) (some i.p) rs

/-- The check of a block-sparse image at issue: a fault cause, or none (R171, R214, R373). Where its parts do not wrap in scratch (R200), they
lie in the partition. -/
def imageCheck (i : Iss) (m : Mdesc) (wraps : Bool) : Act (Option Nat) := do
  if !wraps && !belongs (← look) i.p m.base 64 then return some 4
  if !(← coreReads i (wrapRuns m.base 0 64)) then return some 6
  let s ← look
  let g := imageOf s m
  if !wraps && !g.inPart s i.p then return some 4
  if !(← coreReads i (wrapRuns m.base (g.rptr + 4 * m.nu) 4)) then return some 6
  return if g.ok s then none else some 3

/-- An operand of a command: its MDESC, its bucket, and where its scales and masks lie (R171, R176, R200–R202, R214, R215). -/
def readOpd (i : Iss) (a : Nat) (blockedOk : Bool := false) (template : Bool := false) : Act OpdRes := do
  match (← readMdesc i a template) with
  | .fault c => return .fault c
  | .ok d =>
    if d.blocked && !blockedOk then return .fault 3
    let m := if inScratch i.core d.base then d.ownScale i.core else d
    if m.blocked then
      match (← imageCheck i m (inScratch i.core m.base)) with
      | some c => return .fault c
      | none => pure ()
    if m.pmask ≠ 0 && !belongs (← look) i.p m.pmask m.maskBytes then return .fault 4
    if m.bucket ≠ 0 then
      if !(← consume (i.core / 64) (i.core % 64) (some i.p) (bucketBase (← look) i.p + 8 * m.bucket) 8) then return .fault 6
    return .ok (← trueExtent i m)

/-! ## The bytes that an operand is read from (R199, R201, R209, R213) -/

/-- The words of the masks of rows i0 on and columns j0 on. -/
def Opd.maskRuns (o : Opd) (i0 ni j0 nj : Nat) : List (Nat × Nat) :=
  let words := fun (a lo n : Nat) => if n = 0 then [] else [(a + 8 * (lo / 64), 8 * ((lo + n + 63) / 64 - lo / 64))]
  if o.m.pmask = 0 then []
  else words o.m.pmask i0 ni ++ words (o.m.pmask + 8 * ((o.m.rows + 63) / 64)) j0 nj

/-- Some row and some column of a 16 × 16 block of an operand are present (R216). -/
def Opd.blockOn (s : State) (o : Opd) (r c : Nat) : Bool :=
  (List.range 16).any (fun d => o.rowOn s (16 * r + d)) && (List.range 16).any (fun d => o.colOn s (16 * c + d))

/-- Block (u, v) of an operand is present (R216, R217): u along its non-K axis, v along K. -/
def Opd.blockHas (s : State) (o : Opd) (u v : Nat) : Bool :=
  (if o.m.kcol then o.blockOn s u v else o.blockOn s v u) && (!o.m.blocked || (imageOf s o.m).has s u v)

/-- The bytes of `ni` × `nj` elements of an operand from (i0, j0) on: the elements of the rows that are present, within the true extent, and
the scales, of a row feeder's operand those of its present rows (R199). Of an image, its present blocks (R213). -/
def Opd.runs (s : State) (o : Opd) (feeder : Bool) (i0 ni j0 nj : Nat) : List (Nat × Nat) :=
  if o.m.blocked then
    let g := imageOf s o.m
    let x := if o.m.kcol then (i0, ni, j0, nj) else (j0, nj, i0, ni)
    ((List.range ((x.2.1 + 15) / 16)).flatMap (fun u => (List.range ((x.2.2.2 + 15) / 16)).flatMap (fun v =>
      if o.blockHas s (x.1 / 16 + u) (x.2.2.1 / 16 + v) then g.blockRuns s (x.1 / 16 + u) (x.2.2.1 / 16 + v) else [])))
  else
    let rows := ((List.range ni).map (· + i0)).filter (o.rowOn s)
    rows.flatMap (fun i => o.m.rowRuns i j0 (min (j0 + nj) o.tc - j0)) ++
      (if feeder then rows.flatMap (fun i => o.m.scaleRuns i 1 j0 nj) else o.m.scaleRuns i0 ni j0 nj)

/-- The bytes that say where the units of `n` lines of a blocked operand lie, from line u on. -/
def Opd.lineRuns (s : State) (o : Opd) (u n : Nat) : List (Nat × Nat) :=
  if !o.m.blocked then [] else (List.range (min n (o.m.nu - u))).flatMap (fun d => (imageOf s o.m).lineRuns (u + d))

/-- `n` lines of a blocked operand from line u on pass the check of R214. -/
def Opd.linesOk (s : State) (o : Opd) (u n : Nat) : Bool :=
  !o.m.blocked || (List.range (min n (o.m.nu - u))).all (fun d => (imageOf s o.m).lineOk s (u + d))

/-! ## The walk (R191–R197) -/

/-- Rate class of a format: 0 for 4-bit, 1 for 8-bit, 2 for 16-bit (R191). -/
def rateClass (fmt : Nat) : Nat := if fmt = 7 then 0 else if fmt = 1 || fmt = 2 then 2 else 1

/-- K per tile, and cycles per K element, of a pair of formats (R191). -/
def kch (fa fb : Nat) : Nat := 512 >>> max (rateClass fa) (rateClass fb)
def cyclesPerK (fa fb : Nat) : Nat := 1 <<< max (rateClass fa) (rateClass fb)

/-- K of a resident panel, by the format of B (R191). -/
def kres (fb : Nat) : Nat := 4096 >>> rateClass fb

/-- Formats of A and B that the array takes (R191, R195). -/
def pairOk (fa fb : Nat) : Bool := (1 ≤ fa && fa ≤ 7 && 1 ≤ fb && fb ≤ 7) || (fa == 8 && fb == 8)

/-- Formats of C (R195). -/
def cFmtOk (fa fc : Nat) : Bool := if fa = 8 then fc == 0xA else fc ≤ 7

/-- B as K × N in either orientation (R195). -/
def bKN (b : Mdesc) : Nat × Nat := if b.kcol then (b.cols, b.rows) else (b.rows, b.cols)

/-- Where a tile goes (R218): nowhere, to the array, or to the block-sparse unit with its span cost and largest lane total. -/
inductive TileTo where
  | skip
  | array
  | sparse (cost lane : Nat)
  deriving DecidableEq, Repr

/-- A product to be formed. `on` says whether the pair of blocks of A and B at (m, k) and (k, n) is multiplied, where B is read from the
second state; `tile` where the tile from (m0, n0, k0) goes; `lines` whether the lines that an output block reads pass R214. The runs are the
bytes read at the start of an output block, for its initial accumulators, and for a tile. -/
structure Prod where
  M : Nat
  N : Nat
  K : Nat
  int8 : Bool
  kTile : Nat
  cyc : Nat
  /-- A panel of B is loaded once for its column of output blocks (R193). -/
  resident : Bool
  /-- The Reed path discards a whole output group (R209). -/
  whole : Bool := false
  a : State → Nat → Nat → Num × Flags
  b : State → Nat → Nat → Num × Flags
  on : State → State → Nat → Nat → Nat → Bool := fun _ _ _ _ _ => true
  mOn : State → Nat → Bool
  nOn : State → Nat → Bool
  tile : State → Nat → Nat → Nat → TileTo
  lines : State → Nat → Nat → Bool := fun _ _ _ => true
  init : State → Nat → Nat → BitVec 32 × Flags
  blockRuns : State → Nat → Nat → List (Nat × Nat)
  initRuns : State → Nat → Nat → List (Nat × Nat)
  tileRuns : State → Nat → Nat → Nat → Nat → List (Nat × Nat)
  drain : Nat → Nat → List (List (BitVec 32)) → Act Flags

/-- Columns and rows of output blocks, and tiles of one. -/
def Prod.nN (q : Prod) : Nat := (q.N + 127) / 128
def Prod.nM (q : Prod) : Nat := (q.M + 63) / 64
def Prod.nK (q : Prod) : Nat := (q.K + q.kTile - 1) / q.kTile

/-- Rows and columns of an output block. -/
def Prod.rows (q : Prod) (m0 : Nat) : List Nat := (List.range (min 64 (q.M - m0))).map (· + m0)
def Prod.cols (q : Prod) (n0 : Nat) : List Nat := (List.range (min 128 (q.N - n0))).map (· + n0)

/-- An output block is walked: some row and some column of it are present (R202). -/
def Prod.blockWalked (s : State) (q : Prod) (m0 n0 : Nat) : Bool := (q.rows m0).any (q.mOn s) && (q.cols n0).any (q.nOn s)

/-- The tiles that a walk covers (R196, R202). -/
def Prod.tiles (s : State) (q : Prod) : Nat :=
  (List.range q.nN).foldl (fun a nb => (List.range q.nM).foldl (fun a mb =>
    if q.blockWalked s (64 * mb) (128 * nb) then
      a + ((List.range q.nK).filter (fun kt => q.tile s (64 * mb) (128 * nb) (kt * q.kTile) != .skip)).length
    else a) a) 0

/-- An integer value of an element. -/
def Num.toI : Num → Int
  | .fin s m e => let v : Int := if 0 ≤ e then (m <<< e.toNat : Nat) else m; if s then -v else v
  | _ => 0

/-- The exact product at (i, k) and (k, j) with the flags of its operands; +0 where its blocks are not both present (R219, R221). -/
def Prod.term (s sb : State) (q : Prod) (i k j : Nat) : Num × Flags :=
  if q.on s sb i k j then
    let x := q.a s i k
    let y := q.b sb k j
    let p := mulNum x.1 y.1
    (p.1, x.2 ||| y.2 ||| p.2)
  else (.fin false 0 0, 0)

/-- One accumulator over the `len` elements of a tile from k0 on, blocks of 32 in ascending K (R155, R192); a skipped tile's products are
all +0 (R202). -/
def tileDot (s sb : State) (q : Prod) (k0 len : Nat) (skip : Bool) (acc : BitVec 32) (i j : Nat) : BitVec 32 × Flags :=
  (List.range ((len + 31) / 32)).foldl (fun st x =>
    let terms := if skip then [((.fin false 0 0 : Num), (0 : Flags))]
      else (List.range (min 32 (len - 32 * x))).map (fun d => q.term s sb i (k0 + 32 * x + d) j)
    let r := if q.int8 then accAddInt st.1 (terms.foldl (fun a t => a + t.1.toI) 0) else accAdd st.1 terms
    (r.1, st.2 ||| r.2)) (acc, 0)

/-- The accumulators of an output block after one tile. -/
def tileCells (s sb : State) (q : Prod) (m0 n0 k0 : Nat) (skip : Bool) (acc : List (List (BitVec 32))) : List (List (BitVec 32 × Flags)) :=
  acc.zipIdx.map (fun row => row.1.zipIdx.map (fun c =>
    tileDot s sb q k0 (min q.kTile (q.K - k0)) skip c.1 (m0 + row.2) (n0 + c.2)))

/-- Flags of the cells of a block. -/
def cellFlags (l : List (List (BitVec 32 × Flags))) : Flags := l.foldl (fun a row => row.foldl (fun a c => a ||| c.2) a) 0

/-- Values of the cells of a block. -/
def cellVals (l : List (List (BitVec 32 × Flags))) : List (List (BitVec 32)) := l.map (fun row => row.map (·.1))

/-- What a walk did: the flags of its tiles, the tiles of the array with their cycles, the sparse tiles, and, where it stopped, the fault
cause and the tile cursor (R209). -/
structure Walked where
  flags : Flags := 0
  tiles : Nat := 0
  busy : Nat := 0
  sparse : List (Nat × Nat) := []
  stop : Option (Nat × Cursor) := none
  /-- Cycles per K element of the pair of formats. -/
  cyc : Nat := 1
  deriving DecidableEq, Repr

/-- Count one tile that has completed. -/
def Walked.add (r : Walked) (q : Prod) (dest : TileTo) (k0 : Nat) (f : Flags) : Walked :=
  match dest with
  | .skip => { r with flags := r.flags ||| f }
  | .array => { r with flags := r.flags ||| f, tiles := r.tiles + 1, busy := r.busy + q.cyc * min q.kTile (q.K - k0) }
  | .sparse c l => { r with flags := r.flags ||| f, sparse := r.sparse ++ [(c, l)] }

/-- The tiles of an output block from the cursor `c` on (R192, R197): the accumulators, or where poison stopped it. -/
def walkTiles (i : Iss) (q : Prod) (panel : State) (c : Cursor) (m0 n0 : Nat) (first : List (List (BitVec 32 × Flags))) (r : Walked) :
    Act (Walked × List (List (BitVec 32))) := do
  let mut w := r
  let mut acc := cellVals first
  let mut f := cellFlags first
  for kt in List.range q.nK do
    if c.kt ≤ kt && w.stop.isNone then
      let s ← look
      let k0 := kt * q.kTile
      let dest := q.tile s m0 n0 k0
      let good ← if dest = .skip then pure true else coreReads i (q.tileRuns s m0 n0 k0 (min q.kTile (q.K - k0)))
      if !good then
        w := if q.whole then { r with stop := some (6, { c with kt := 0, acc := none }) }
          else { w with stop := some (6, { c with kt, acc := if kt = c.kt then c.acc else some acc }) }
      else
        let sb := match dest with
          | .sparse _ _ => s
          | _ => if q.resident then panel else s
        let cells := tileCells s sb q m0 n0 k0 (dest == .skip) acc
        acc := cellVals cells
        w := w.add q dest k0 (f ||| cellFlags cells)
        f := 0
  return ({ w with flags := if w.stop.isNone then w.flags ||| f else w.flags }, acc)

/-- One output block from the cursor `c` on, and its drain (R195, R197, R201, R209, R214); answers the state before the drain where the block
is walked. -/
def walkBlock (i : Iss) (q : Prod) (panel : State) (c : Cursor) (r : Walked) : Act (Walked × Option State) := do
  let m0 := 64 * c.mb
  let n0 := 128 * c.nb
  if !(← coreReads i (q.blockRuns (← look) m0 n0)) then return ({ r with stop := some (6, c) }, none)
  let s ← look
  if !q.blockWalked s m0 n0 then return (r, none)
  if !q.lines s m0 n0 then return ({ r with stop := some (3, c) }, none)
  if c.acc.isNone then
    if !(← coreReads i (q.initRuns s m0 n0)) then return ({ r with stop := some (6, c) }, none)
  let first := match c.acc with
    | some a => a.map (fun row => row.map (fun v => (v, (0 : Flags))))
    | none => (q.rows m0).map (fun x => (q.cols n0).map (fun y => q.init s x y))
  let w ← walkTiles i q panel c m0 n0 first r
  if w.1.stop.isSome then return (w.1, none)
  let pre ← look
  let f ← q.drain m0 n0 w.2
  return ({ w.1 with flags := w.1.flags ||| f }, some pre)

/-- Walk the output blocks of a product from the command's cursor on (R192, R193, R197). The next panel of B is loaded during the last output
block of the panel column before it. -/
def walk (i : Iss) (q : Prod) : Act Walked := do
  let c := i.cur.getD {}
  let mut r : Walked := { cyc := q.cyc }
  let mut panel ← look
  for nb in List.range q.nN do
    if c.nb ≤ nb && r.stop.isNone then
      let mut pre : Option State := none
      for mb in List.range q.nM do
        if (c.nb < nb || c.mb ≤ mb) && r.stop.isNone then
          let x ← walkBlock i q panel (if nb = c.nb && mb = c.mb then c else { nb, mb, list := c.list }) r
          r := x.1
          pre := x.2 <|> pre
      panel := pre.getD (← look)
  return r

/-- A walk of a command, its flags and its counts; a tile that an error of the operands or of an image stopped is discarded (R161, R209,
R214). -/
def runProd (i : Iss) (q : Prod) (count : Walked → Act Unit) : Act AsyncEnd := do
  let r ← walk i q
  modThread i.key (orFlags r.flags)
  count r
  match r.stop with
  | none => return .flags 0
  | some (c, cur) =>
    ctr32 (rCore i.core 0x2C)
    return if c = 6 then .stop 6 cur else .fault c

/-! ## Products on operands that are in place (R195, R201, R202) -/

/-- The numbers of accumulators. -/
def cellNums (int8 : Bool) (cells : List (List (BitVec 32))) : List (List Num) :=
  cells.map (fun r => r.map (fun b => if int8 then .fin (b.toInt < 0) b.toInt.natAbs 0 else ofF32 b))

/-- Drain into C (R195, R201): the accumulators converted to C's format. -/
def drainC (c : Opd) (int8 : Bool) (nc ns : Word) (m0 n0 : Nat) (cells : List (List (BitVec 32))) : Act Flags := do
  let s ← look
  writeRect c.m m0 n0 (cellNums int8 cells) (fun i j => c.rowOn s i && c.colOn s j) nc ns

/-- The initial accumulator from C (R195): C widened, or 0. -/
def initC (c : Opd) (acc int8 : Bool) (s : State) (i j : Nat) : BitVec 32 × Flags :=
  if !acc then (0, 0)
  else if int8 then (BitVec.ofNat 32 (readCode s c.m i j), 0)
  else
    let x := c.elem s i j
    let r := toF32 x.1
    (r.1, x.2 ||| r.2)

/-- A dense tile is walked unless it lies wholly in absent K (R202). -/
def denseTile (K kt : Nat) (kOn : State → Nat → Bool) (s : State) (_m0 _n0 k0 : Nat) : TileTo :=
  if (List.range (min kt (K - k0))).any (fun d => kOn s (k0 + d)) then .array else .skip

/-- K index k is present in B, and in A as well. -/
def Opd.kOn (s : State) (b : Opd) (k : Nat) : Bool := if b.m.kcol then b.colOn s k else b.rowOn s k
def kPresent (a b : Opd) (s : State) (k : Nat) : Bool := a.colOn s k && b.kOn s k

/-- A row of A, whose feeder supplies zeros for a masked row (R199). -/
def Opd.feed (s : State) (a : Opd) (i k : Nat) : Num × Flags := if a.rowOn s i then a.elem s i k else (.fin false 0 0, 0)

/-- The bytes of B for a tile: K from k0 on, columns from n0 on. -/
def Opd.panelRuns (s : State) (b : Opd) (n0 nn k0 len : Nat) : List (Nat × Nat) :=
  if b.m.kcol then b.runs s false n0 nn k0 len else b.runs s false k0 len n0 nn

/-- The mask words of B for columns from n0 on. -/
def Opd.panelMasks (b : Opd) (n0 nn K : Nat) : List (Nat × Nat) :=
  if b.m.kcol then b.maskRuns n0 nn 0 K else b.maskRuns 0 K n0 nn

/-- MM, and SMM and MV, on operands that are in place: A of KCOL = 1 by B into C, with the settings that the thread read at issue. -/
def prodAB (t : Thread) (acc : Bool) (a b c : Opd) : Prod :=
  let kn := bKN b.m
  let int8 := a.m.fmt == 8
  let nn := fun (n0 : Nat) => min 128 (kn.2 - n0)
  let nm := fun (m0 : Nat) => min 64 (a.m.rows - m0)
  { M := a.m.rows, N := kn.2, K := kn.1, int8, kTile := kch a.m.fmt b.m.fmt, cyc := cyclesPerK a.m.fmt b.m.fmt
    resident := kn.1 ≤ kres b.m.fmt
    a := fun s i k => a.feed s i k
    b := fun s k n => if b.m.kcol then b.elem s n k else b.elem s k n
    mOn := fun s i => a.rowOn s i && c.rowOn s i
    nOn := fun s n => (if b.m.kcol then b.rowOn s n else b.colOn s n) && c.colOn s n
    tile := denseTile kn.1 (kch a.m.fmt b.m.fmt) (kPresent a b)
    init := initC c acc int8
    blockRuns := fun s m0 n0 => a.maskRuns m0 (nm m0) 0 kn.1 ++ b.panelMasks n0 (nn n0) kn.1 ++ c.maskRuns m0 (nm m0) n0 (nn n0) ++
      a.lineRuns s (m0 / 16) 4 ++ b.lineRuns s (n0 / 16) 8
    initRuns := fun s m0 n0 => if acc then c.runs s false m0 (nm m0) n0 (nn n0) else []
    tileRuns := fun s m0 n0 k0 len => a.runs s true m0 (nm m0) k0 len ++ b.panelRuns s n0 (nn n0) k0 len
    drain := drainC c int8 t.numCtrl t.numSeed }

/-- Count what the array did (R211). How long it stalled is a free amount (R199, log entry 117). -/
def countArray (core : Nat) (r : Walked) : Act Unit := do
  ctr64 (rCore core 0x00) r.tiles
  ctr64 (rCore core 0x08) r.busy
  let f ← drawFree
  ctr64 (rCore core 0x10) (if r.tiles + r.sparse.length = 0 then 0 else f.toNat)

/-- The sizes and formats of MM (R195). -/
def mmShapeOk (a b c : Mdesc) : Bool :=
  a.kcol && a.cols == (bKN b).1 && c.rows == a.rows && c.cols == (bKN b).2 && pairOk a.fmt b.fmt && cFmtOk a.fmt c.fmt

/-- The operands of MM lie in the core's own scratch, with its sizes and formats (R195). -/
def mmOk (core : Nat) (a b c : Mdesc) : Bool :=
  inScratch core a.base && inScratch core b.base && inScratch core c.base && mmShapeOk a b c

/-- ACC of a matrix command. -/
def mAcc (w : Cmd) : Bool := cf w 4 0 1 == 1

/-- MM (R195). -/
def mmBody (i : Iss) : Act AsyncEnd := do
  match (← readOpd i (cAddr i.w 8)), (← readOpd i (cAddr i.w 16)), (← readOpd i (cAddr i.w 24)) with
  | .ok a, .ok b, .ok c =>
    if !mmOk i.core a.m b.m c.m then return .fault 2
    runProd i (prodAB (i.thread (← look)) (mAcc i.w) a b c) (countArray i.core)
  | .fault x, _, _ => return .fault x
  | _, .fault x, _ => return .fault x
  | _, _, .fault x => return .fault x

/-- The MDESC at an address as it stands. -/
def peekMdesc (s : State) (a : Nat) : Mdesc := mdescOf (memItem s a)

/-- An operand as its MDESC and bucket stand; none where its MDESC fails R177. -/
def peekOpd (s : State) (i : Iss) (a : Nat) : Option Opd :=
  let m := peekMdesc s a
  if a % 64 = 0 && m.ok then some (extentOf s i m) else none

/-- The product of MM and MV as its operands stand, where they pass the check of R195. -/
def peekProd (s : State) (i : Iss) : Option (Opd × Opd × Prod) := do
  let a ← peekOpd s i (cAddr i.w 8)
  let b ← peekOpd s i (cAddr i.w 16)
  let c ← peekOpd s i (cAddr i.w 24)
  if mmOk i.core a.m b.m c.m then some (a, b, prodAB (threadOf s i.key) (mAcc i.w) a b c) else none

/-- MM is heavy when its walk covers 8 or more tiles (R196). -/
def mmHeavy (i : Iss) : Act Bool := do
  let s ← look
  return match peekProd s i with
    | some (a, b, q) => !a.m.blocked && !b.m.blocked && decide (8 ≤ q.tiles s)
    | none => false

/-! ## CONV (R203) -/

/-- The geometry block of CONV. -/
structure Geo where
  y : Nat
  hIn : Nat
  wIn : Nat
  hOut : Nat
  wOut : Nat
  r : Nat
  s : Nat
  sh : Nat
  sw : Nat
  dh : Nat
  dw : Nat
  pt : Nat
  pl : Nat
  deriving DecidableEq, Repr

def geoOf (x : Item) : Geo :=
  { y := ibits x 0 52, hIn := ibits x 64 16, wIn := ibits x 80 16, hOut := ibits x 96 16, wOut := ibits x 112 16,
    r := ibits x 128 4, s := ibits x 132 4, sh := ibits x 136 4, sw := ibits x 140 4, dh := ibits x 144 4, dw := ibits x 148 4,
    pt := ibits x 152 8, pl := ibits x 160 8 }

/-- The pixel row of X and the channel that element k of generated row m reads; none outside the image. -/
def convAt (g : Geo) (cin m k : Nat) : Option (Nat × Nat) :=
  let ih : Int := (m / g.wOut) * g.sh - g.pt + (k / cin / g.s) * g.dh
  let iw : Int := (m % g.wOut) * g.sw - g.pl + (k / cin % g.s) * g.dw
  if 0 ≤ ih && ih < g.hIn && 0 ≤ iw && iw < g.wIn then some (ih.toNat * g.wIn + iw.toNat, k % cin) else none

/-- The bytes of generated row m for K from k0 on: one run of channels for each filter position inside the image. -/
def convRuns (s : State) (g : Geo) (x : Opd) (m k0 len : Nat) : List (Nat × Nat) :=
  let cin := x.m.cols
  (List.range ((k0 + len + cin - 1) / cin - k0 / cin)).flatMap (fun d =>
    let base := (k0 / cin + d) * cin
    let lo := max k0 base
    match convAt g cin m lo with
    | some (i, j) => x.runs s true i 1 j (min (k0 + len) (base + cin) - lo)
    | none => [])

/-- CONV as an MM on the generated A. -/
def prodConv (t : Thread) (acc : Bool) (g : Geo) (x w y : Opd) : Prod :=
  let kn := bKN w.m
  let q := prodAB t acc x w y
  let nm := fun (m0 : Nat) => min 64 (g.hOut * g.wOut - m0)
  let nn := fun (n0 : Nat) => min 128 (kn.2 - n0)
  { q with
    M := g.hOut * g.wOut
    a := fun s m k => match convAt g x.m.cols m k with
      | some (i, j) => x.feed s i j
      | none => (.fin false 0 0, 0)
    mOn := fun s m => y.rowOn s m
    tile := denseTile kn.1 q.kTile (fun s k => x.colOn s (k % x.m.cols) && w.kOn s k)
    blockRuns := fun _ m0 n0 => x.maskRuns 0 x.m.rows 0 x.m.cols ++ w.panelMasks n0 (nn n0) kn.1 ++ y.maskRuns m0 (nm m0) n0 (nn n0)
    initRuns := fun s m0 n0 => if acc then y.runs s false m0 (nm m0) n0 (nn n0) else []
    tileRuns := fun s m0 n0 k0 len =>
      (List.range (nm m0)).flatMap (fun d => convRuns s g x (m0 + d) k0 len) ++ w.panelRuns s n0 (nn n0) k0 len }

/-- The geometry fields and sizes of CONV. -/
def convOk (g : Geo) (x w y : Mdesc) : Bool :=
  g.hIn != 0 && g.wIn != 0 && g.hOut != 0 && g.wOut != 0 && g.r != 0 && g.s != 0 && g.sh != 0 && g.sw != 0 && g.dh != 0 && g.dw != 0 &&
    x.rows == g.hIn * g.wIn && x.kcol && (bKN w).1 == g.r * g.s * x.cols && y.rows == g.hOut * g.wOut && y.cols == (bKN w).2 &&
    !(isMx x.fmt && x.cols % 32 != 0) && pairOk x.fmt w.fmt && cFmtOk x.fmt y.fmt

/-- The operands of CONV pass its checks (R203). -/
def convAllOk (core : Nat) (g : Geo) (x w y : Mdesc) : Bool :=
  inScratch core x.base && inScratch core w.base && inScratch core y.base && convOk g x w y

/-- CONV (R203). -/
def convBody (i : Iss) : Act AsyncEnd := do
  let ga := cAddr i.w 24
  if !belongs (← look) i.p ga 64 then return .fault 4
  if !(← consume (i.core / 64) (i.core % 64) (some i.p) ga 64) then return .fault 6
  let g := geoOf (i.item (← look) ga)
  match (← readOpd i (cAddr i.w 8)), (← readOpd i (cAddr i.w 16)), (← readOpd i g.y) with
  | .ok x, .ok w, .ok y =>
    if !convAllOk i.core g x.m w.m y.m then return .fault 2
    runProd i (prodConv (i.thread (← look)) (mAcc i.w) g x w y) (countArray i.core)
  | .fault x, _, _ => return .fault x
  | _, .fault x, _ => return .fault x
  | _, _, .fault x => return .fault x

/-- CONV is heavy when its walk covers 8 or more tiles (R196). -/
def convHeavy (i : Iss) : Act Bool := do
  let s ← look
  let g := geoOf (memItem s (cAddr i.w 24))
  return match peekOpd s i (cAddr i.w 8), peekOpd s i (cAddr i.w 16), peekOpd s i g.y with
    | some x, some w, some y =>
      convAllOk i.core g x.m w.m y.m && !x.m.blocked && !w.m.blocked && decide (8 ≤ (prodConv (threadOf s i.key) false g x w y).tiles s)
    | _, _, _ => false

/-! ## MV (R208) -/

/-- MV as MM on the Reed path: nothing is resident, and what is discarded is a whole output group. -/
def prodMv (t : Thread) (acc : Bool) (x w y : Opd) : Prod := { prodAB t acc x w y with resident := false, whole := true }

/-- Count the cycles of the Reed path over the output groups that it has walked, from the cursor on (R208, R211). -/
def countReed (i : Iss) (q : Prod) (r : Walked) : Act Unit := do
  let n0 := 128 * (i.cur.getD {}).nb
  let n1 := match r.stop with
    | some (_, c) => 128 * c.nb
    | none => q.N
  ctr64 (rCore i.core 0x20) ((q.M * q.K * (n1 - n0) + 511) / 512 + 64)

/-- MV (R208): as MM on the same operands, on the Reed path. -/
def mvBody (i : Iss) : Act AsyncEnd := do
  match (← readOpd i (cAddr i.w 8)), (← readOpd i (cAddr i.w 16)), (← readOpd i (cAddr i.w 24)) with
  | .ok x, .ok w, .ok y =>
    if !mmOk i.core x.m w.m y.m then return .fault 2
    if 8 < x.m.rows || !(x.m.fmt == 1 || x.m.fmt == 2) || 2 < y.m.fmt then return .fault 2
    let q := prodMv (i.thread (← look)) (mAcc i.w) x w y
    runProd i q (countReed i q)
  | .fault x, _, _ => return .fault x
  | _, .fault x, _ => return .fault x
  | _, _, .fault x => return .fault x

/-! ## GMM (R205, R206) -/

/-- An item of a work list (R205). -/
structure WItem where
  rows : Nat
  slot : Nat
  a : Nat
  c : Nat
  deriving DecidableEq, Repr

def witemOf (v : Nat) : WItem := { rows := bitsOf v 0 7, slot := bitsOf v 16 9, a := bitsOf v 64 52, c := bitsOf v 128 52 }

/-- The C rows of an item (R205, R206): at STRIDE from C on, with the scales behind the 64 rows, or at the 64 listed addresses. -/
def itemC (cm : Mdesc) (it : WItem) : Mdesc := { cm with base := it.c, rows := 64, scale := it.c + 64 * cm.stride }
def mappedC (s : State) (cm : Mdesc) (it : WItem) (r : Nat) : Mdesc := { cm with base := memNat s (it.c + 8 * r) 8 % 2 ^ 52, rows := 1 }

/-- The runs of an item's output rows that the command writes: of an MX C all 64 rows (R201). -/
def itemCRuns (s : State) (cm : Mdesc) (cmap : Bool) (it : WItem) : List (Nat × Nat) :=
  let n := if isMx cm.fmt then 64 else min it.rows 64
  if cmap then (List.range n).map (fun r => ((mappedC s cm it r).base, cm.rowBytes))
  else (List.range n).flatMap (fun r => (itemC cm it).rowRuns r 0 cm.cols) ++ (itemC cm it).scaleRuns 0 64 0 cm.cols

/-- The staging region of a command (R206): its base in own scratch, its A halves, its output buffers. -/
def stageBase (i : Iss) : Nat := scratchBase i.core + cf i.w 6 0 5 * 0x10000
def halfBytes (am : Mdesc) : Nat := 64 * (am.stride + am.sstride)

/-- A of an item where it comes from, and where it stands in an A half of the staging region. -/
def itemA (am : Mdesc) (it : WItem) : Mdesc := { am with base := it.a, scale := it.a + 64 * am.stride }
def stagedA (i : Iss) (am : Mdesc) (half : Nat) : Mdesc :=
  { am with base := wrapAddr (stageBase i) (half * halfBytes am), scale := wrapAddr (stageBase i) (half * halfBytes am + 64 * am.stride) }

/-- The move engine loads the item's rows and their scales into an A half (R206); answers whether the data is good. -/
def loadA (i : Iss) (am : Mdesc) (it : WItem) (half : Nat) : Act Bool := do
  let src := itemA am it
  let dst := stagedA i am half
  let n := min it.rows 64
  let ns := if isMx am.fmt then (am.cols + 31) / 32 else 0
  if !(← coreReads i ((List.range n).flatMap (fun r => src.rowRuns r 0 am.cols ++ src.lineScaleRuns r 0 am.cols))) then return false
  let s ← look
  let get := fun (base off n : Nat) => (List.range n).map (fun k => memAt s (wrapAddr base (off + k)))
  for r in List.range n do
    putWrapped dst.base (r * am.stride) (get src.base (r * am.stride) am.rowBytes)
    putWrapped dst.scale (r * am.sstride) (get src.scale (r * am.sstride) ns)
  return true

/-- The output blocks of an item have passed through the output buffers of the staging region, where they leave bytes that the spec does not
give (R206, log entry 141). -/
def stageOut (i : Iss) (am : Mdesc) : Act Unit := do
  putWrapped (stageBase i) (2 * halfBytes am) (← drawBytes 0x10000)

/-- The drain of an item's output block (R201, R206): to C, or row by row to the listed addresses. -/
def drainItem (c : Opd) (cmap int8 : Bool) (it : WItem) (t : Thread) (m0 n0 : Nat) (cells : List (List (BitVec 32))) : Act Flags := do
  if !cmap then
    let s ← look
    writeRect (itemC c.m it) m0 n0 (cellNums int8 cells) (fun i j => c.rowOn s i && c.colOn s j) t.numCtrl t.numSeed
  else
    let mut f : Flags := 0
    for row in cells.zipIdx do
      let s ← look
      let r := m0 + row.2
      if c.rowOn s r then
        let g ← writeRect (mappedC s c.m it r) 0 n0 (cellNums int8 [row.1]) (fun _ j => c.colOn s j) t.numCtrl t.numSeed true r
        f := f ||| g
    return f

/-- The product of an item (R206): A from the staging region, the slot's B streamed, C drained to its place. -/
def prodItem (i : Iss) (t : Thread) (a b c : Opd) (cmap : Bool) (it : WItem) (half : Nat) : Prod :=
  let a2 : Opd := { a with m := stagedA i a.m half, tr := min a.tr it.rows }
  let c2 : Opd := { c with tr := min c.tr it.rows }
  let q := prodAB t false a2 b c2
  { q with resident := false, drain := drainItem c2 cmap q.int8 it t }

/-- Compute one item from the command's cursor on (R206). `shape` sends the tiles of its product, `count` counts them. -/
def gmmItem (i : Iss) (a c : Opd) (cmap : Bool) (slotTab : Nat) (shape : Opd → Opd → Prod → Prod) (count : Walked → Act Unit)
    (it : WItem) (place : ListPlace) : Act AsyncEnd := do
  let cur := i.cur.getD {}
  let here : Cursor := { cur with list := some place }
  match (← readOpd { i with held := none } (slotTab + 64 * it.slot) true) with
  | .fault 6 => return .stop 6 here
  | .fault 4 => return .fault 4
  | .fault _ => return .fault 3
  | .ok b =>
    if (bKN b.m).1 ≠ a.m.cols || (bKN b.m).2 ≠ c.m.cols || !pairOk a.m.fmt b.m.fmt then return .fault 3
    let s ← look
    if !inScratch i.core b.m.base && !b.m.blocked && !b.m.inPart s i.p then return .fault 4
    if !belongs s i.p it.a (64 * (a.m.stride + if isMx a.m.fmt then a.m.sstride else 0)) then return .fault 4
    if cmap && !belongs s i.p it.c 512 then return .fault 4
    if !(← if cmap then coreReads i [(it.c, 512)] else pure true) then return .stop 6 here
    let s ← look
    if (itemCRuns s c.m cmap it).any (fun r => !belongs s i.p r.1 r.2) then return .fault 4
    if cur.nb = 0 && cur.mb = 0 && cur.kt = 0 && cur.acc.isNone then
      if !(← loadA i a.m it place.half) then
        ctr32 (rCore i.core 0x2C)
        return .stop 6 here
    let q := shape a b (prodItem i (i.thread (← look)) a b c cmap it place.half)
    let r ← runProd { i with cur := some here } q count
    stageOut i a.m
    return r

/-- Claim the next item of a work list: fetch and increment (R206). -/
def claimItem (wl : Nat) : Act Nat := do
  let x := memNat (← look) (wl + 4) 4
  putNat (wl + 4) 4 (x + 1)
  return x

/-- A work list is used up: the count of items, the pip, and the end of the command (R206). -/
def finishList (i : Iss) (wl done : Nat) : Act AsyncEnd := do
  let s ← look
  let h := memNat s wl 64
  putNat (wl + 8) 4 (memNat s (wl + 8) 4 + done)
  unitSignal (i.core / 64) (i.core % 64) i.p (bitsOf h 192 11) (bitsOf h 208 6)
  return .flags 0

/-- The next item of a GMM (R206): it is computed while the one after it is claimed. Where the command goes on, the items it has still to compute
are left to later events (log entry 141). -/
def listItem (i : Iss) (wl : Nat) (a c : Opd) (cmap : Bool) (shape : Opd → Opd → Prod → Prod) (count : Walked → Act Unit)
    (place : ListPlace) : Act AsyncEnd := do
  if place.nitems ≤ place.item then finishList i wl place.done
  else
    let ahead ← match place.ahead with
      | some y => pure y
      | none => claimItem wl
    let place := { place with ahead := some ahead }
    let ia := wl + 64 + 32 * place.item
    if !belongs (← look) i.p ia 32 then return .fault 4
    if !(← coreReads i [(ia, 32)]) then return .stop 6 { list := some place }
    let s ← look
    let it := witemOf (memNat s ia 32)
    let e ← if it.rows = 0 then pure (.flags 0) else gmmItem i a c cmap (bitsOf (memNat s wl 64) 128 52) shape count it place
    match e with
    | .flags _ =>
      if it.rows ≠ 0 then ctr32 (rCore i.core 0x34)
      if place.nitems ≤ ahead then finishList i wl (place.done + 1)
      else return .more { list := some { item := ahead, nitems := place.nitems, done := place.done + 1, half := 1 - place.half } }
    | x => return x

/-- GMM, and grouped SMM (R206, R216). -/
def gmmRun (i : Iss) (shape : Opd → Opd → Prod → Prod) (count : Walked → Act Unit) : Act AsyncEnd := do
  let wl := cAddr i.w 8
  let cmap := cf i.w 4 0 1 == 1
  if !belongs (← look) i.p wl 64 then return .fault 4
  match (← readOpd i (cAddr i.w 16) false true), (← readOpd i (cAddr i.w 24) false true) with
  | .fault c, _ => return .fault c
  | _, .fault c => return .fault c
  | .ok a, .ok c =>
    if !a.m.kcol || a.m.rows ≠ 64 || !cFmtOk a.m.fmt c.m.fmt || (cmap && 2 < c.m.fmt) then return .fault 2
    match i.cur.bind (·.list) with
    | some place => listItem i wl a c cmap shape count place
    | none =>
      if !(← coreReads i [(wl, 64)]) then return .fault 6
      let nitems := memNat (← look) wl 4
      let item ← claimItem wl
      listItem i wl a c cmap shape count { item, nitems }

/-- GMM on the array alone: the lines of a BLOCKED slot are checked as its B is loaded (R214, R215). -/
def gmmBody (i : Iss) : Act AsyncEnd :=
  gmmRun i (fun _ b q => { q with lines := fun s _ n0 => b.linesOk s (n0 / 16) 8 }) (countArray i.core)

/-- PCLASS of a matrix command (R194). -/
def mPclass (w : Cmd) : Nat := cf w 5 0 3

/-- MM (R195–R197). -/
def execMm (th : Thr) (w : Cmd) (s : State) : Host.Outcome State Fault Refusal :=
  finishIf (opIs 0x20 w) (asyncCmd th w (mPclass w) mmHeavy (fun i _ => mmBody i)) s
/-- CONV (R203). -/
def execConv (th : Thr) (w : Cmd) (s : State) : Host.Outcome State Fault Refusal :=
  finishIf (opIs 0x21 w) (asyncCmd th w (mPclass w) convHeavy (fun i _ => convBody i)) s
/-- MV (R208). -/
def execMv (th : Thr) (w : Cmd) (s : State) : Host.Outcome State Fault Refusal :=
  finishIf (opIs 0x22 w) (asyncCmd th w (mPclass w) (fun _ => return false) (fun i _ => mvBody i)) s
/-- GMM (R206); every GMM is heavy (R196). -/
def execGmm (th : Thr) (w : Cmd) (s : State) : Host.Outcome State Fault Refusal :=
  finishIf (opIs 0x23 w) (asyncCmd th w (mPclass w) (fun _ => return true) (fun i _ => gmmBody i)) s

end Sys2Proof.Machine
end

