-- ==== Sys2Proof/Machine/Move.lean ====
section
/-!
DEFINITION. The moves LOAD_TILE, STORE_TILE and DMA (R186, R187), on this device and through the rack window (R271, R276, R285), and the
fabric events that may end one.
-/

namespace Sys2Proof.Machine

/-! ## Ranges -/

/-- Addresses in order, as contiguous runs. -/
def runsOf (l : List Nat) : List (Nat × Nat) :=
  (l.foldl (fun (acc : List (Nat × Nat)) a => match acc with
    | (b, n) :: rest => if a = b + n then (b, n + 1) :: rest else (a, 1) :: acc
    | [] => [(a, 1)]) []).reverse

/-- A range cut at the 8 KiB boundaries (R276). -/
def cut8k (a n : Nat) : List (Nat × Nat) :=
  if n = 0 then [] else (List.range ((a + n - 1) / 8192 + 1 - a / 8192)).map (fun k =>
    let lo := max a ((a / 8192 + k) * 8192)
    (lo, min (a + n) ((a / 8192 + k + 1) * 8192) - lo))

def isRack (a : Nat) : Bool := tierOf a == .rack

/-- The rack-window part of some runs, as requests. -/
def rackRuns (l : List (Nat × Nat)) : List (Nat × Nat) := (l.filter (fun r => isRack r.1)).flatMap (fun r => cut8k r.1 r.2)

/-! ## Tile moves (R187) -/

/-- A tile move: the scratch MDESC, the other one, the origin in it, and the direction. -/
structure Tile where
  t : Mdesc
  o : Mdesc
  r0 : Nat
  c0 : Nat
  load : Bool
  deriving DecidableEq, Repr

def tileOf (w : Cmd) (a b : Item) : Tile :=
  let load := hOpcode w == 0x10
  { t := mdescOf (if load then b else a), o := mdescOf (if load then a else b), r0 := cf w 24 0 24, c0 := cf w 27 0 24, load }

/-- Element (i, j) of the rectangle lies in the other matrix. -/
def Tile.inside (x : Tile) (i j : Nat) : Bool := x.r0 + i < x.o.rows && x.c0 + j < x.o.cols

/-- Rows and columns of the rectangle that lie in the other matrix. -/
def Tile.rowsIn (x : Tile) : Nat := min x.t.rows (x.o.rows - x.r0)
def Tile.colsIn (x : Tile) : Nat := min x.t.cols (x.o.cols - x.c0)

/-- Bytes of the rows of a rectangle at (i0, j0) of a matrix, and of its scales. -/
def rectCells (m : Mdesc) (i0 j0 nr nc : Nat) : List Nat :=
  if nr = 0 || nc = 0 then [] else
    let b := fmtBits m.fmt
    let lo := j0 * b / 8
    let hi := ((j0 + nc) * b + 7) / 8
    let el := (List.range nr).flatMap (fun i => (List.range (hi - lo)).map (fun k => wrapAddr m.base ((i0 + i) * m.stride + lo + k)))
    let sc := if !isMx m.fmt then [] else
      if m.kcol then (List.range nr).flatMap (fun i => (List.range ((nc + 31) / 32)).map (fun k => m.scaleAddr (i0 + i) (j0 + 32 * k)))
      else (List.range nc).flatMap (fun j => (List.range ((nr + 31) / 32)).map (fun k => m.scaleAddr (i0 + 32 * k) (j0 + j)))
    el ++ sc

/-- The bytes a tile move reads, and those it writes. -/
def Tile.reads (x : Tile) : List Nat :=
  if x.load then rectCells x.o x.r0 x.c0 x.rowsIn x.colsIn else rectCells x.t 0 0 x.rowsIn x.colsIn
def Tile.writes (x : Tile) : List Nat :=
  if x.load then rectCells x.t 0 0 x.t.rows x.t.cols else rectCells x.o x.r0 x.c0 x.rowsIn x.colsIn

/-- First and last byte of each row written through the rack window, which a narrow format may cover only in part. -/
def Tile.edges (x : Tile) : List Nat :=
  let b := fmtBits x.o.fmt
  if x.load || 8 ≤ b || x.rowsIn = 0 || x.colsIn = 0 then [] else
    ((List.range x.rowsIn).flatMap (fun i =>
      [wrapAddr x.o.base ((x.r0 + i) * x.o.stride + x.c0 * b / 8),
       wrapAddr x.o.base ((x.r0 + i) * x.o.stride + ((x.c0 + x.colsIn) * b - 1) / 8)])).filter isRack

/-- The elements and scales of the rectangle, copied as bits; LOAD_TILE fills what lies outside with +0. A filled block's scale is a
free value that is no NaN (log entry 18). -/
def Tile.copy (x : Tile) : Act Unit := do
  let src := if x.load then x.o else x.t
  let dst := if x.load then x.t else x.o
  for i in List.range x.t.rows do
    for j in List.range x.t.cols do
      let s ← look
      let far := (x.r0 + i, x.c0 + j)
      let a := if x.load then far else (i, j)
      let d := if x.load then (i, j) else far
      if x.inside i j then
        writeCode dst d.1 d.2 (readCode s src a.1 a.2)
        if isMx dst.fmt && (if dst.kcol then j % 32 == 0 else i % 32 == 0) then writeScale dst d.1 d.2 (readScale s src a.1 a.2)
      else if x.load then
        writeCode dst i j 0
        if isMx dst.fmt && (if dst.kcol then j % 32 == 0 else i % 32 == 0) then
          let v ← drawFree
          writeScale dst i j (v.toNat % 255)

/-! ## DMA (R187) -/

/-- SRC, DST, LENGTH and FILL of a DMA. -/
def dmaSrc (w : Cmd) : Nat := cAddr w 8
def dmaDst (w : Cmd) : Nat := cAddr w 16
def dmaLen (w : Cmd) : Nat := cf w 24 0 32
def dmaFill (w : Cmd) : Bool := cf w 28 3 1 == 1

/-- The copy in ascending 64-byte chunks, or the fill with the pattern. -/
def dmaCopy (w : Cmd) : Act Unit := do
  for k in List.range ((dmaLen w + 63) / 64) do
    let n := min 64 (dmaLen w - 64 * k)
    let s ← look
    let bs := if dmaFill w then (List.range n).map (fun j => BitVec.ofNat 8 (cb w (8 + j % 8))) else memBytes s (dmaSrc w + 64 * k) n
    storeBytes (dmaDst w + 64 * k) bs

/-! ## Moves in general -/

/-- The runs a move reads and writes. -/
def moveReads (w : Cmd) (a b : Item) : List (Nat × Nat) :=
  if hOpcode w = 0x12 then (if dmaFill w then [] else [(dmaSrc w, dmaLen w)]) else runsOf (tileOf w a b).reads
def moveWrites (w : Cmd) (a b : Item) : List (Nat × Nat) :=
  if hOpcode w = 0x12 then [(dmaDst w, dmaLen w)] else runsOf (tileOf w a b).writes

/-- The state the copy runs on: device memory with the staged bytes of the rack window in it, and nothing that a write would set off. -/
def shadowOf (s : State) (staged : Tbl Byte) : State :=
  let m := staged.foldl (fun mem e => tput 0 mem e.1 e.2) s.mem
  { s with mem := m, fab := {} }

/-- Requests of a move that are still outstanding. -/
def moveReqs (s : State) (k slot : Nat) : List FabReq :=
  s.fab.reqs.filter (fun r => r.rack.isSome && r.thread == k && r.slot == some slot)

/-- Requests of a move for ranges of the rack window (R271, R276). -/
def moveStart (k slot op : Nat) (chunks : List (Nat × Nat)) (data : Nat → Nat → List Byte) : Act Unit := do
  let i := issOfKey k 0
  for c in chunks do
    match rackOf (← look) c.1 with
    | none => pure ()
    | some (node, off) =>
      let id ← takeId
      fabStart { id, part := i.p, thread := k, slot := some slot, op, node, off, size := 7, len := c.2, rack := some c.1
                 data := if op = 1 then data c.1 c.2 else [] }

/-- The copy itself once everything is read: local bytes are written, bytes of the rack window are sent as stores. -/
def moveCopy (m : FabMove) : Act Unit := do
  let x := tileOf m.w m.a m.b
  let dma := hOpcode m.w == 0x12
  let mut staged := m.staged
  if !dma then
    for a in x.edges do
      staged := tput 0 staged a (BitVec.setWidth 8 (← drawFree))
  let s ← look
  let body : Act Unit := if dma then dmaCopy m.w else x.copy
  let s2 := Prog.run (body (fun _ => .done)) (shadowOf s staged)
  for _ in List.range (s2.freeIdx - s.freeIdx) do
    eff .draw
  let ws := moveWrites m.w m.a m.b
  for r in ws.filter (fun r => !isRack r.1) do
    putBytes r.1 (memBytes s2 r.1 r.2)
  moveStart m.thread m.slot 1 (rackRuns ws) (memBytes s2)

/-- Moves whose requests have all ended go on: from reading to the copy, from writing to their end. -/
def moveStep : Nat → Act Unit
  | 0 => pure ()
  | fuel + 1 => do
    let s ← look
    match s.fab.moves.find? (fun m => (moveReqs s m.thread m.slot).isEmpty) with
    | none => pure ()
    | some m =>
      if m.writing then
        modFab (fun f => { f with moves := f.moves.filter (fun y => !(y.thread == m.thread && y.slot == m.slot)) })
        slotDone m.thread m.slot 0
      else
        modFab (fun f => { f with moves := f.moves.map (fun y =>
          if y.thread == m.thread && y.slot == m.slot then { y with writing := true } else y) })
        moveCopy m
      moveStep fuel

/-- Let every move go on. -/
def moveAll : Act Unit := do moveStep (2 * (← look).fab.moves.length + 2)

/-- Why a run may not be moved: a fault cause, or none (R171, R249, R271, R273). -/
def runFault (i : Iss) (op : Nat) (r : Nat × Nat) : Act (Option Nat) := do
  let s ← look
  if isRack r.1 then
    for c in cut8k r.1 r.2 do
      match rackOf s c.1 with
      | none => return some 4
      | some (node, off) =>
        if !fatOk s i.p node off c.2 op then
          ctr32 (rFab i.p 0x24)
          return some 4
    return none
  return if belongs s i.p r.1 r.2 then none else some 4

/-- A move's checks, its reads of poison (R298), and its start. -/
def moveRun (i : Iss) (slot : Nat) (a b : Item) : Act AsyncEnd := do
  let rs := moveReads i.w a b
  let ws := moveWrites i.w a b
  for r in rs do
    match (← runFault i 0 r) with
    | some c => return .fault c
    | none => pure ()
  for r in ws do
    match (← runFault i 1 r) with
    | some c => return .fault c
    | none => pure ()
  let mut good := true
  for r in rs.filter (fun r => !isRack r.1) do
    if !(← consume (i.core / 64) (i.core % 64) (some i.p) r.1 r.2) then good := false
  let local_ := ws.filter (fun r => !isRack r.1)
  reachT3 local_
  if !(← aliveRuns (i.core / 64) (i.core % 64) (some i.p) local_) then good := false
  if !good then return .fault 6
  modFab (fun f => { f with moves := f.moves ++ [{ thread := i.key, slot, w := i.w, a, b }] })
  moveStart i.key slot 0 (rackRuns rs) (fun _ _ => [])
  moveAll
  return .later

/-- LOAD_TILE and STORE_TILE (R186, R187): the checks of the two MDESCs. -/
def tileBody (i : Iss) (slot : Nat) : Act AsyncEnd := do
  let ma ← readMdesc i (cAddr i.w 8)
  match ma with
  | .fault c => return .fault c
  | .ok a =>
    let mb ← readMdesc i (cAddr i.w 16)
    match mb with
    | .fault c => return .fault c
    | .ok b =>
      if a.blocked || b.blocked then return .fault 3
      let s ← look
      let ia := i.item s (cAddr i.w 8)
      let ib := i.item s (cAddr i.w 16)
      let x := tileOf i.w ia ib
      if !inScratch i.core x.t.base then return .fault 2
      if a.fmt ≠ b.fmt || a.kcol ≠ b.kcol then return .fault 2
      if isMx a.fmt && (if a.kcol then x.c0 else x.r0) % 32 ≠ 0 then return .fault 2
      moveRun i slot ia ib

/-- Bytes of some runs that lie in tier 2 (R248). -/
def t2Bytes (l : List (Nat × Nat)) : Nat := l.foldl (fun a r => a + (min (r.1 + r.2) (3 * 2 ^ 40) - max r.1 (2 ^ 40))) 0

/-- Bytes of elements and scales that a tile move takes to or from tier 2. -/
def Tile.t2 (x : Tile) : Nat :=
  t2Bytes ((List.range x.rowsIn).flatMap (fun d => x.o.rowRuns (x.r0 + d) x.c0 x.colsIn) ++ x.o.scaleRuns x.r0 x.rowsIn x.c0 x.colsIn)

/-- A tile move of 64 KiB or more to or from tier 2 is heavy (R187). -/
def tileHeavy (i : Iss) : Act Bool := do
  let s ← look
  return 65536 ≤ (tileOf i.w (memItem s (cAddr i.w 8)) (memItem s (cAddr i.w 16))).t2

/-- DMA (R186, R187). -/
def dmaBody (i : Iss) (slot : Nat) : Act AsyncEnd := do
  if dmaLen i.w = 0 then return .fault 2
  moveRun i slot 0 0

/-- A DMA of 64 KiB or more to or from tier 2 is heavy (R187). -/
def dmaHeavy (i : Iss) : Act Bool :=
  return 65536 ≤ t2Bytes [(dmaDst i.w, dmaLen i.w)] || (!dmaFill i.w && 65536 ≤ t2Bytes [(dmaSrc i.w, dmaLen i.w)])

/-- LOAD_TILE (R187). -/
def execLoadTile (th : Thr) (w : Cmd) (s : State) : Host.Outcome State Fault Refusal :=
  finishIf (opIs 0x10 w) (asyncCmd th w (cf w 30 0 3) tileHeavy tileBody) s
/-- STORE_TILE (R187). -/
def execStoreTile (th : Thr) (w : Cmd) (s : State) : Host.Outcome State Fault Refusal :=
  finishIf (opIs 0x11 w) (asyncCmd th w (cf w 30 0 3) tileHeavy tileBody) s
/-- DMA (R187). -/
def execDma (th : Thr) (w : Cmd) (s : State) : Host.Outcome State Fault Refusal :=
  finishIf (opIs 0x12 w) (asyncCmd th w (cf w 28 0 3) dmaHeavy dmaBody) s

/-! ## Fabric events that may end a move -/

/-- FAB_REQ_LOAD (R275, R276, R280). -/
def execFabReqLoad (f : Frame) (s : State) : Host.Outcome State Fault Refusal := finishIf (fabIs 0 f) (do fabReqRx f; moveAll) s
/-- FAB_REQ_STORE (R275, R276, R280, R284). -/
def execFabReqStore (f : Frame) (s : State) : Host.Outcome State Fault Refusal := finishIf (fabIs 1 f) (do fabReqRx f; moveAll) s
/-- FAB_REQ_ATOMIC (R275, R276, R280, R284). -/
def execFabReqAtomic (f : Frame) (s : State) : Host.Outcome State Fault Refusal := finishIf (fabIs 2 f) (do fabReqRx f; moveAll) s
/-- FAB_REQ_INVAL (R280, R281). -/
def execFabReqInval (f : Frame) (s : State) : Host.Outcome State Fault Refusal := finishIf (fabIs 3 f) (do fabReqRx f; moveAll) s
/-- FAB_REQ_PING (R282). -/
def execFabReqPing (f : Frame) (s : State) : Host.Outcome State Fault Refusal := finishIf (fabIs 4 f) (do fabReqRx f; moveAll) s
/-- FAB_RSP_RX (R276, R281, R284–R286). -/
def execFabRspRx (f : Frame) (s : State) : Host.Outcome State Fault Refusal := finishIf (oxtIs 9 f) (do fabRspAct f; moveAll) s
/-- FAB_TIMEOUT (R285). -/
def execFabTimeout (id : BitVec 32) (s : State) : Host.Outcome State Fault Refusal := finish (do fabTimeoutAct id.toNat; moveAll) s
/-- FAB_INVAL_TIMEOUT (R282). -/
def execFabInvalTimeout (id : BitVec 32) (s : State) : Host.Outcome State Fault Refusal :=
  finish (do invalTimeoutAct id.toNat; moveAll) s

end Sys2Proof.Machine
end

