-- ==== Sys2Proof/Machine/Sparse.lean ====
section
/-!
DEFINITION. Block-sparse compute, the SHELL command and the Hummock (R212–R227, R232–R235).
-/

namespace Sys2Proof.Machine

/-! ## SMM (R216–R224) -/



/-- The present products of a tile by sub-block (R217), and the number of sub-blocks times K blocks. -/
def tileProducts (s : State) (a b : Opd) (q : Prod) (m0 n0 k0 : Nat) : List (Nat × Nat) × Nat :=
  let len := min q.kTile (q.K - k0)
  let ua := (min 64 (q.M - m0) + 15) / 16
  let ub := (min 128 (q.N - n0) + 15) / 16
  let nv := (len + 15) / 16
  let subs := (List.range ua).flatMap (fun x => (List.range ub).map (fun y => (x, y)))
  (subs.map (fun xy => (8 * xy.1 + xy.2, ((List.range nv).filter (fun v =>
      a.blockHas s (m0 / 16 + xy.1) (k0 / 16 + v) && b.blockHas s (n0 / 16 + xy.2) (k0 / 16 + v))).length)),
    subs.length * nv)

/-- Cycles of one block product (R220). -/
def blockCycles (q : Prod) : Nat := 8 * q.cyc

/-- Where an SMM tile goes (R218). -/
def smmTile (a b : Opd) (q : Prod) (engine thresh : Nat) (s : State) (m0 n0 k0 : Nat) : TileTo :=
  let t := tileProducts s a b q m0 n0 k0
  let P := t.1.foldl (fun x y => x + y.2) 0
  let cb := blockCycles q
  let lane := (List.range 16).foldl (fun m l => max m (t.1.foldl (fun x y => if y.1 / 2 = l then x + y.2 * cb else x) 0)) 0
  let sparse := TileTo.sparse (P * cb) lane
  if P = 0 then .skip
  else match engine with
    | 1 => .array
    | 2 => sparse
    | _ => if min thresh 0x100 * t.2 ≤ P * 256 then .array else sparse

/-- A product of SMM: pairs of blocks that are not both present act as +0 products on either engine (R219, R221), and the lines that an output
block reads are checked (R214). -/
def smmProd (engine thresh : Nat) (a b : Opd) (q : Prod) : Prod :=
  { q with
    tile := smmTile a b q engine thresh
    on := fun s sb m k n => a.blockHas s (m / 16) (k / 16) && b.blockHas sb (n / 16) (k / 16)
    lines := fun s m0 n0 => a.linesOk s (m0 / 16) 4 && b.linesOk s (n0 / 16) 8 }

/-- Where the sparse-unit counters of a core lie (R235). -/
def rSpu (core off : Nat) : Nat := rCmp (core / 64) (0x4000 + core % 64 * 0x20 + off)

/-- Count what an SMM did (R211, R222, R224, R235): with BAL = STEAL the time of a sparse tile lies anywhere in the range of R224, and any number of
its spans, which are at most its products, may have been stolen (log entry 117). -/
def countSmm (core : Nat) (grouped : Bool) (r : Walked) : Act Unit := do
  let cb := 8 * r.cyc
  countArray core r
  ctr64 (rSpu core 0x08) r.tiles
  ctr64 (rSpu core 0x00) r.sparse.length
  for t in r.sparse do
    if grouped then ctr64 (rSpu core 0x10) (max 32 t.2)
    else
      let f := (← drawFree).toNat
      ctr64 (rSpu core 0x10) (max 32 ((t.1 + 15) / 16) + f % (max 32 ((t.1 + 15) / 16 + 2 * cb) - max 32 ((t.1 + 15) / 16) + 1))
      let g := (← drawFree).toNat
      ctr64 (rSpu core 0x18) (g % (t.1 / cb + 1))

def smmEngine (w : Cmd) : Nat := cf w 4 1 2
def smmGrouped (w : Cmd) : Bool := cf w 4 3 1 == 1
def smmBalGrouped (w : Cmd) : Bool := cf w 4 4 1 == 1

/-- SMM (R216): one product, or a work-list product. -/
def smmBody (i : Iss) : Act AsyncEnd := do
  let eng := smmEngine i.w
  if eng = 3 then return .fault 2
  let th := i.thresh (← look)
  if smmGrouped i.w then
    gmmRun i (smmProd eng th) (countSmm i.core (smmBalGrouped i.w))
  else
    match (← readOpd i (cAddr i.w 8) true), (← readOpd i (cAddr i.w 16) true), (← readOpd i (cAddr i.w 24)) with
    | .ok a, .ok b, .ok c =>
      if !mmOk i.core a.m b.m c.m then return .fault 2
      runProd i (smmProd eng th a b (prodAB (i.thread (← look)) (mAcc i.w) a b c)) (countSmm i.core (smmBalGrouped i.w))
    | .fault x, _, _ => return .fault x
    | _, .fault x, _ => return .fault x
    | _, _, .fault x => return .fault x

/-- SMM is heavy as MM, or as GMM when GROUPED (R196, R216): a tile without a present product is not walked (R218). -/
def smmHeavy (i : Iss) : Act Bool := do
  if smmGrouped i.w then return true
  let s ← look
  return match peekProd s i with
    | some (a, b, q) => decide (8 ≤ (smmProd (smmEngine i.w) (i.thresh s) a b q).tiles s)
    | none => false

/-! ## SHELL (R225–R227) -/

/-- Where the counters of a Sheller lie (R235). -/
def rShl (sh off : Nat) : Nat := rCmp (sh / 2) (0x3000 + sh % 2 * 0x40 + off)

/-- A dense operand of SHELL lies in the partition; in scratch only its base is checked (R200, R226). -/
def shellIn (s : State) (p : Nat) (m : Mdesc) : Bool :=
  if tierOf m.base = .scratch then belongs s p m.base 1 && (!isMx m.fmt || belongs s p m.scale 1) else m.inPart s p

/-- SRC and DST agree (R226). -/
def shellSame (a b : Mdesc) : Bool := a.rows == b.rows && a.cols == b.cols && a.fmt == b.fmt && a.kcol == b.kcol

/-- The code of an image's element, and its stored scale (R213); an absent block is code 0, an absent unit scale 0x00. -/
def Image.code (s : State) (g : Image) (x k : Nat) : Nat × Nat :=
  let f := g.m.fmt
  let w := fmtBits f
  let u := x / 16
  let v := k / 16
  let stored := if isMx f then g.has s u (v / 2 * 2) || g.has s u (v / 2 * 2 + 1) else g.has s u v
  if !stored then (0, 0)
  else
    let o := g.unitOff s u v
    let sc := if isMx f then imgNat s g.m (o + 2 * blockBytes f + x % 16) 1 else 0
    if !g.has s u v then (0, sc)
    else
      let half := if isMx f then v % 2 * blockBytes f else 0
      let bit := (k % 16) * w
      let lo := o + half + (x % 16) * (2 * w) + bit / 8
      (bitsOf (imgNat s g.m lo ((bit % 8 + w + 7) / 8)) (bit % 8) w, sc)

/-- Write row i of a dense matrix in ascending moves of 64 bytes, each of elements as `code` gives them at its time (R226). -/
def moveRow (dst : Mdesc) (i : Nat) (code : State → Nat → Nat) : Act Unit := do
  for c in List.range ((dst.rowBytes + 63) / 64) do
    let s ← look
    let part := (List.range dst.cols).filter (fun j => j * fmtBits dst.fmt / 512 == c)
    for x in part.map (fun j => (j, code s j)) do
      writeCode dst i x.1 x.2

/-- Write `n` scales in ascending moves of 64 bytes. -/
def moveScales (n : Nat) (scale : State → Nat → Nat) (put : Nat → Nat → Act Unit) : Act Unit := do
  for c in List.range ((n + 63) / 64) do
    let s ← look
    for x in (List.range (min 64 (n - 64 * c))).map (fun d => (64 * c + d, scale s (64 * c + d))) do
      put x.1 x.2

/-- EXPAND (R226): row by row; the scales of a row, or of 32 rows, follow it. -/
def shellExpand (src dst : Mdesc) : Act Unit := do
  let at_ := fun (s : State) (i j : Nat) => if src.kcol then (imageOf s src).code s i j else (imageOf s src).code s j i
  for i in List.range dst.rows do
    moveRow dst i (fun s j => (at_ s i j).1)
    if isMx dst.fmt then
      if dst.kcol then
        moveScales ((dst.cols + 31) / 32) (fun s b => (at_ s i (32 * b)).2) (fun b v => writeScale dst i (32 * b) v)
      else if i % 32 = 0 then
        moveScales dst.cols (fun s j => (at_ s i j).2) (fun j v => writeScale dst i j v)

/-- An element that makes its block present (R227). -/
def packNonZero (s : State) (m : Mdesc) (i j : Nat) : Bool :=
  let c := readCode s m i j
  (isMx m.fmt && readScale s m i j == 0xFF) ||
    (match fpOf m.fmt with
     | some f => c % 2 ^ (f.eb + f.mb) != 0
     | none => c != 0)

/-- Element (x along the non-K axis, k) of a dense matrix. -/
def nonK (m : Mdesc) (x k : Nat) : Nat × Nat := if m.kcol then (x, k) else (k, x)

/-- Block (u, v) of a dense matrix is present in its packed image (R227). -/
def packHas (s : State) (m : Mdesc) (u v : Nat) : Bool :=
  (List.range 16).any (fun x => (List.range 16).any (fun k =>
    let e := nonK m (16 * u + x) (16 * v + k)
    e.1 < m.rows && e.2 < m.cols && packNonZero s m e.1 e.2))

/-- The bits of block (u, v) as a unit stores them: 16 lines of 16 elements. -/
def packBlock (s : State) (m : Mdesc) (u v : Nat) : Nat :=
  let w := fmtBits m.fmt
  (List.range 16).foldl (fun a x => (List.range 16).foldl (fun a k =>
    let e := nonK m (16 * u + x) (16 * v + k)
    if e.1 < m.rows && e.2 < m.cols then a + (readCode s m e.1 e.2) <<< ((16 * x + k) * w) else a) a) 0

/-- The units of line u of a packed image by their places: K-pairs of an MX format, else blocks (R213, R227). -/
def packUnits (s : State) (m : Mdesc) (u : Nat) : List Nat :=
  if isMx m.fmt then (List.range ((m.nv + 1) / 2)).filter (fun j => packHas s m u (2 * j) || packHas s m u (2 * j + 1))
  else (List.range m.nv).filter (packHas s m u)

/-- The bytes of unit j of line u. -/
def packUnit (s : State) (m : Mdesc) (u j : Nat) : List Byte :=
  let bb := blockBytes m.fmt
  if isMx m.fmt then
    natBytes bb (packBlock s m u (2 * j)) ++ natBytes bb (packBlock s m u (2 * j + 1)) ++ (List.range 16).map (fun x =>
      let e := nonK m (16 * u + x) (32 * j)
      if e.1 < m.rows && e.2 < m.cols then BitVec.ofNat 8 (readScale s m e.1 e.2) else 0)
  else natBytes bb (packBlock s m u j)

/-- The parts of the packed image of a dense matrix, with their offsets: header, bitmap, line pointers, units (R212, R227). -/
def packParts (s : State) (m : Mdesc) : List (Nat × List Byte) :=
  let up := fun (n : Nat) => (n + 63) / 64 * 64
  let words := (m.nv + 63) / 64
  let rptr := up (64 + 8 * m.nu * words)
  let data := up (rptr + 4 * (m.nu + 1))
  let units := (List.range m.nu).map (packUnits s m)
  let below := fun (u : Nat) => (units.take u).foldl (fun a l => a + l.length) 0
  [(0, natBytes 64 (64 ||| rptr <<< 32 ||| data <<< 64 ||| below m.nu <<< 96)),
    (64, (List.range m.nu).flatMap (fun u =>
      natBytes (8 * words) ((List.range m.nv).foldl (fun a v => if packHas s m u v then a + 1 <<< v else a) 0))),
    (rptr, (List.range (m.nu + 1)).flatMap (fun u => natBytes 4 (below u))),
    (data, units.zipIdx.flatMap (fun l => l.1.flatMap (packUnit s m l.2)))]

/-- PACK (R227): the parts of the image in ascending moves of 64 bytes, each as SRC gives it at its time (R226). -/
def shellPack (src dst : Mdesc) : Act Unit := do
  for x in (packParts (← look) src).zipIdx do
    for c in List.range ((x.1.2.length + 63) / 64) do
      match (packParts (← look) src)[x.2]? with
      | some y => putWrapped dst.base (y.1 + 64 * c) ((y.2.drop (64 * c)).take 64)
      | none => pure ()

/-- ROWS (R226): list entry i to DST row i. -/
def shellRows (list : Nat) (dst : Mdesc) (count : Nat) : Act Unit := do
  for i in List.range count do
    let a := memNat (← look) (list + 8 * i) 8 % 2 ^ 52
    let src : Mdesc := { dst with base := a, scale := a + dst.rowBytes, rows := 1 }
    moveRow dst i (fun s j => if a = 0 then 0 else readCode s src 0 j)
    if isMx dst.fmt then
      moveScales ((dst.cols + 31) / 32) (fun s b => if a = 0 then 0 else (memAt s (src.scale + b)).toNat)
        (fun b v => writeScale dst i (32 * b) v)

/-- The bytes that EXPAND and PACK read of their source (R213, R373). -/
def shellRuns (s : State) (src : Mdesc) : List (Nat × Nat) :=
  let o : Opd := { m := { src with pmask := 0 }, tr := src.rows, tc := src.cols }
  o.lineRuns s 0 src.nu ++ o.runs s false 0 src.rows 0 src.cols

/-- ROWS (R226): its checks and its copy. -/
def shellRowsBody (i : Iss) (dst : Mdesc) (sa count : Nat) : Act AsyncEnd := do
  if dst.blocked then return .fault 3
  if count = 0 || dst.rows < count then return .fault 2
  if !shellIn (← look) i.p dst || !belongs (← look) i.p sa (8 * count) then return .fault 4
  if !(← coreReads i [(sa, 8 * count)]) then return .fault 6
  let n := dst.rowBytes + if isMx dst.fmt then (dst.cols + 31) / 32 else 0
  let s ← look
  let rows := ((List.range count).map (fun k => memNat s (sa + 8 * k) 8 % 2 ^ 52)).filter (· != 0)
  if rows.any (fun a => !belongs s i.p a n) then return .fault 4
  if !(← coreReads i (rows.map (fun a => (a, n)))) then return .fault 6
  shellRows sa dst count
  ctr64 (rShl (i.core / 32) 0) (count * n)
  return .flags 0

/-- EXPAND (R214, R226): its checks and its copy. -/
def shellExpandBody (i : Iss) (src dst : Mdesc) : Act AsyncEnd := do
  let scratch := tierOf src.base = .scratch
  let s ← look
  if (scratch && !belongs s i.p src.base 1) || !shellIn s i.p dst then return .fault 4
  match (← imageCheck i src scratch) with
  | some c => return .fault c
  | none =>
    let s ← look
    if !(← coreReads i (shellRuns s src)) then return .fault 6
    if (List.range src.nu).any (fun u => !(imageOf s src).lineOk s u) then return .fault 3
    shellExpand src dst
    ctr64 (rShl (i.core / 32) 0) (dst.rows * dst.rowBytes)
    return .flags 0

/-- PACK (R226, R227): its checks and its copy. -/
def shellPackBody (i : Iss) (src dst : Mdesc) : Act AsyncEnd := do
  let s ← look
  let fits := if tierOf dst.base = .scratch then belongs s i.p dst.base 1
    else (packParts s src).all (fun x => x.2.isEmpty || belongs s i.p (dst.base + x.1) x.2.length)
  if !shellIn s i.p src || !fits then return .fault 4
  if !(← coreReads i (shellRuns s src)) then return .fault 6
  shellPack src dst
  ctr64 (rShl (i.core / 32) 0) (src.rows * src.rowBytes)
  return .flags 0

/-- SHELL (R226). -/
def shellBody (i : Iss) : Act AsyncEnd := do
  let mode := cf i.w 4 0 2
  let sa := cAddr i.w 8
  if mode = 3 then return .fault 2
  match (← readMdesc i (cAddr i.w 16)) with
  | .fault c => return .fault c
  | .ok dst =>
    if mode = 2 then shellRowsBody i dst sa (cf i.w 24 0 32)
    else
      match (← readMdesc i sa) with
      | .fault c => return .fault c
      | .ok src =>
        if !shellSame src dst then return .fault 2
        if (if mode = 0 then dst else src).blocked then return .fault 3
        if !(if mode = 0 then src else dst).blocked then return .fault 2
        if mode = 0 then shellExpandBody i src dst else shellPackBody i src dst

/-! ## Hummock (R232, R233) -/

/-- A record of a run: its key and the address of its values. -/
abbrev MRec := Nat × Nat

/-- The records of a run up to the first key below its predecessor; and whether there is one (R233). -/
def mergeRun (s : State) (a n sz : Nat) : List MRec × Bool :=
  (List.range n).foldl (fun st k =>
    if st.2 then st
    else
      let key := memNat s (a + k * sz) 8
      match st.1.getLast? with
      | some r => if key < r.1 then (st.1, true) else (st.1 ++ [(key, a + k * sz + 8)], false)
      | none => ([(key, a + k * sz + 8)], false)) ([], false)

/-- Distinct keys in ascending order. -/
def distinctKeys (l : List Nat) : List Nat :=
  (sortBy (fun a b => decide (a ≤ b)) l).foldr (fun k acc => match acc with
    | [] => [k]
    | x :: _ => if x = k then acc else k :: acc) []

/-- MERGE (R232, R233). -/
def mergeBody (i : Iss) : Act AsyncEnd := do
  let nruns := cf i.w 4 0 4 + 1
  let W := cf i.w 6 0 16
  let runs := cAddr i.w 8
  let out := cAddr i.w 16
  let cap := cf i.w 24 0 32
  let die := i.core / 64
  let un := i.core % 64
  let sz := 8 + 4 * W
  if W = 0 || 256 < W then return .fault 2
  if !belongs (← look) i.p runs 264 then return .fault 4
  if !(← consume die un (some i.p) runs 264) then return .fault 6
  let s ← look
  let tab := (List.range nruns).map (fun r => (memNat s (runs + 16 * r) 8 % 2 ^ 52, memNat s (runs + 16 * r + 8) 4))
  let stat := memNat s (runs + 256) 8 % 2 ^ 52
  if tab.any (fun r => r.2 != 0 && !belongs s i.p r.1 (r.2 * sz)) then return .fault 4
  if !belongs s i.p stat 8 || (cap != 0 && !belongs s i.p out 1) then return .fault 4
  let mut good := true
  for r in tab do
    if !(← consume die un (some i.p) r.1 (r.2 * sz)) then good := false
  if !(← aliveRuns die un (some i.p) [(stat, 8)]) then good := false
  if !good then return .fault 6
  let s ← look
  let parsed := tab.map (fun r => mergeRun s r.1 r.2 sz)
  let unsorted := parsed.any (·.2)
  -- the command stops when the key below its predecessor becomes the head of its run
  let stop : Option Nat := parsed.foldl (fun a r => if r.2 then
      let k := (r.1.getLast?.getD (0, 0)).1
      some (match a with
        | some b => min b k
        | none => k) else a) none
  let recs := (parsed.flatMap (·.1)).filter (fun r => match stop with
    | some k => r.1 < k
    | none => true)
  let keys := distinctKeys (recs.map (·.1))
  if !belongs s i.p out (min cap keys.length * sz) && min cap keys.length != 0 then return .fault 4
  if !(← aliveRuns die un (some i.p) [(out, min cap keys.length * sz)]) then return .fault 6
  let mut f : Flags := 0
  for k in keys.zipIdx do
    if k.2 < cap then
      putNat (out + k.2 * sz) 8 k.1
      let mine := recs.filter (fun r => r.1 == k.1)
      for e in List.range W do
        let v := mine.foldl (fun (a : BitVec 32 × Flags) r =>
          let x := BitVec.ofNat 32 (memNat s (r.2 + 4 * e) 4)
          let y := accAdd a.1 [(ofF32 x, den32 x)]
          (y.1, a.2 ||| y.2)) (0, 0)
        putNat (out + k.2 * sz + 8 + 4 * e) 4 v.1.toNat
        f := f ||| v.2
  let written := min cap keys.length
  let drop := keys.length - written
  ctr64 (rCmp die 0x3080) recs.length
  ctr64 (rCmp die 0x3088) written
  ctr32 (rCmp die 0x3090) drop
  if unsorted then ctr32 (rCmp die 0x3094)
  putNat stat 8 (written % 2 ^ 32 ||| (if drop = 0 then 0 else 1) <<< 32 ||| (if unsorted then 1 else 0) <<< 33)
  return .flags f

/-- SMM (R216). -/
def execSmm (th : Thr) (w : Cmd) (s : State) : Host.Outcome State Fault Refusal :=
  finishIf (opIs 0x30 w) (asyncCmd th w (mPclass w) smmHeavy (fun i _ => smmBody i)) s
/-- SHELL (R226). -/
def execShell (th : Thr) (w : Cmd) (s : State) : Host.Outcome State Fault Refusal :=
  finishIf (opIs 0x31 w) (asyncCmd th w (mPclass w) (fun _ => return false) (fun i _ => shellBody i)) s
/-- MERGE (R232, R233). -/
def execMerge (th : Thr) (w : Cmd) (s : State) : Host.Outcome State Fault Refusal :=
  finishIf (opIs 0x32 w) (asyncCmd th w (mPclass w) (fun _ => return false) (fun i _ => mergeBody i)) s

end Sys2Proof.Machine
end

