-- ==== Sys2Proof/Machine/Vector.lean ====
section
/-!
DEFINITION. The vector engine (R236–R247): moves between scratch and the tile buffers, element-wise commands, reductions, conversions
and arrangements. Commands of one core run in issue order, each whole (R238).
-/

namespace Sys2Proof.Machine

/-! ## Buffers (R236) -/

/-- One buffer element: its code in the buffer's format. -/
abbrev VElem := BitVec 32

/-- Element (i, j) of a buffer. -/
def VBuf.at (b : VBuf) (i j : Nat) : VElem := b.data.getD (i * b.cols + j) 0

/-- The format code of R144 of a buffer format. -/
def vfmtCode (f : Nat) : Nat := if f = 0 then 0 else if f = 1 then 1 else 0xA

/-- The value of a buffer element, and DEN. -/
def vNum (f : Nat) (x : VElem) : Num × Flags := elemNum (vfmtCode f) x.toNat 0x7F

/-- A number in a float buffer format, one rounding RNE (R159). -/
def vOut (f : Nat) (x : Num) : VElem × Flags :=
  let r := if f = 0 then encFp fp32 rne false x else encFp bf16 rne false x
  (BitVec.ofNat 32 r.1, r.2)

/-- A buffer of `rows` by `cols` elements, row by row, with the flags. -/
def vMake (f rows cols : Nat) (g : Nat → Nat → VElem × Flags) : VBuf × Flags :=
  let l := (List.range rows).flatMap (fun i => (List.range cols).map (fun j => g i j))
  ({ fmt := f, rows, cols, data := l.map (·.1) }, l.foldl (fun a x => a ||| x.2) 0)

def vD (w : Cmd) : Nat := cf w 4 0 2
def vA (w : Cmd) : Nat := cf w 4 2 2
def vB (w : Cmd) : Nat := cf w 4 4 2
def vC (w : Cmd) : Nat := cf w 4 6 2

/-- A buffer of the issuing core's context. -/
def vGet (s : State) (i : Iss) (b : Nat) : VBuf := vbufOf s (vbKey i.p i.ctx i.core b)
def vPut (i : Iss) (b : Nat) (v : VBuf) : Act Unit := eff (.vbuf (vbKey i.p i.ctx i.core b) v)

/-- Where the vector counters of a core lie (R247). -/
def rVec (core off : Nat) : Nat := rCmp (core / 64) (0x5000 + core % 64 * 0x20 + off)

/-- Count a command with its cycles or bytes (R247). How long it waited on buffer order or scratch banks is a free amount (R237, log
entry 117). -/
def vCount (core off n : Nat) : Act Unit := do
  ctr64 (rVec core off) n
  ctr32 (rVec core 0x18)
  let f ← drawFree
  ctr64 (rVec core 0x10) f.toNat

/-- Count an ALU command of `p` passes over a buffer (R237, R247). -/
def vAlu (core : Nat) (a : VBuf) (p : Nat) : Act Unit := do
  let lanes := if a.fmt = 1 then 256 else 128
  vCount core 0 (max 4 ((a.rows * a.cols + lanes - 1) / lanes) * p)

/-! ## Element operations (R241, R242) -/

/-- MAX and MIN (R241): −0 below +0, NaN gives the canonical NaN. -/
def vMaxMin (isMax : Bool) (x y : Num) : Num :=
  if x.isNan || y.isNan then .nan
  else
    let lt := ltNum x y || (x.isZero && y.isZero && x.signBit && !y.signBit)
    if isMax then (if lt then y else x) else (if lt then x else y)

/-- A float operation of VBIN (R241). -/
def vBinF (f op : Nat) (x y : VElem) : Option (VElem × Flags) :=
  let a := vNum f x
  let b := vNum f y
  let d := a.2 ||| b.2
  let fin := fun (n : Num × Flags) => let r := vOut f n.1; some (r.1, d ||| n.2 ||| r.2)
  match op with
  | 0 => fin (sumNum [a.1, b.1])
  | 1 => fin (sumNum [a.1, b.1.neg])
  | 2 => fin (mulNum a.1 b.1)
  | 3 => fin (vMaxMin true a.1 b.1, 0)
  | 4 => fin (vMaxMin false a.1 b.1, 0)
  | 10 => fin (if ltNum b.1 a.1 then .fin false 1 0 else .fin false 0 0, 0)
  | _ => none

/-- Saturate to INT32 (R159). -/
def satI32 (v : Int) : VElem × Flags :=
  if v < -2 ^ 31 then (0x80000000, fSat) else if 2 ^ 31 - 1 < v then (0x7FFFFFFF, fSat) else (BitVec.ofInt 32 v, 0)

/-- An INT32 operation of VBIN (R241). -/
def vBinI (op : Nat) (x y : VElem) : Option (VElem × Flags) :=
  match op with
  | 0 => some (x + y, 0)
  | 1 => some (x - y, 0)
  | 2 => some (x * y, 0)
  | 3 => some (if x.slt y then y else x, 0)
  | 4 => some (if x.slt y then x else y, 0)
  | 5 => some (satI32 (x.toInt + y.toInt))
  | 6 => some (satI32 (x.toInt - y.toInt))
  | 7 => some (x &&& y, 0)
  | 8 => some (x ||| y, 0)
  | 9 => some (x ^^^ y, 0)
  | 10 => some (if y.slt x then 1 else 0, 0)
  | _ => none

def vBinOp (f op : Nat) (x y : VElem) : Option (VElem × Flags) := if f = 2 then vBinI op x y else vBinF f op x y

/-- The function of an OP of VUN (R242). -/
def vFunOf (op : Nat) : Fun1 :=
  match op with
  | 3 => .exp
  | 4 => .log
  | 5 => .recip
  | 6 => .rsqrt
  | 7 => .sigmoid
  | 8 => .tanh
  | _ => .silu

/-- A function of VUN on an FP32 value, within 2 ulp (R159, R242, log entry 3). -/
def vFun (op : Nat) (x : BitVec 32) : BitVec 32 × Flags := funAt 2 (vFunOf op) (Config.vecFun op x) x

/-- An operation of VUN (R242). -/
def vUnOp (f op : Nat) (x : VElem) : Option (VElem × Flags) :=
  if f = 2 then
    match op with
    | 0 => some (x, 0)
    | 1 => some (0 - x, 0)
    | 2 => some (if x.slt 0 then 0 - x else x, 0)
    | _ => none
  else
    let a := vNum f x
    let fin := fun (n : Num) => let r := vOut f n; some (r.1, a.2 ||| r.2)
    match op with
    | 0 => fin a.1
    | 1 => fin a.1.neg
    | 2 => fin a.1.abs
    | 3 | 4 | 5 | 6 | 7 | 8 | 9 =>
      let r := vFun op (toF32 a.1).1
      if f = 0 then some (r.1, a.2 ||| r.2)
      else
        let q := vOut f (ofF32 r.1)
        some (q.1, a.2 ||| r.2 ||| q.2)
    | _ => none

/-- B of VBIN and VFMA by BSRC (R241): none where its shape or format does not fit A. -/
def vBsrc (s : State) (i : Iss) (a : VBuf) : Option (Nat → Nat → VElem) :=
  let b := vGet s i (vB i.w)
  match cf i.w 6 0 2 with
  | 0 => if b.fmt = a.fmt && b.rows = a.rows && b.cols = a.cols then some (fun r c => b.at r c) else none
  | 1 =>
    let g := cb i.w 7
    if 31 < g then none
    else
      let lo : BitVec 32 := BitVec.setWidth 32 (gOf (i.thread s) g)
      let v : VElem := if a.fmt = 1 then BitVec.ofNat 32 (encFp bf16 rne false (ofF32 lo)).1 else lo
      some (fun _ _ => v)
  | 2 => if b.fmt = a.fmt && b.rows = 1 && b.cols = a.cols then some (fun _ c => b.at 0 c) else none
  | _ => if b.fmt = a.fmt && b.cols = 1 && b.rows = a.rows then some (fun r _ => b.at r 0) else none

/-- Flags of the scalar of BSRC = 1 for a BF16 A: its rounding to BF16, and DEN of the FP32 value (R151, R160, R241). -/
def vBflags (s : State) (i : Iss) (a : VBuf) : Flags :=
  if cf i.w 6 0 2 = 1 && a.fmt = 1 then
    let lo : BitVec 32 := BitVec.setWidth 32 (gOf (i.thread s) (cb i.w 7))
    den32 lo ||| (encFp bf16 rne false (ofF32 lo)).2
  else 0

/-- BSRC reads buffer B, which must hold something (R236). -/
def vBempty (s : State) (i : Iss) : Bool := cf i.w 6 0 2 != 1 && (vGet s i (vB i.w)).rows == 0

/-- VBIN (R241). -/
def vbinBody (i : Iss) : Act AsyncEnd := do
  let s ← look
  let a := vGet s i (vA i.w)
  let op := cb i.w 5
  if a.rows = 0 || vBempty s i then return .fault 3
  match vBsrc s i a with
  | none => return .fault 2
  | some b =>
    if (vBinOp a.fmt op 0 0).isNone then return .fault 2
    let r := vMake a.fmt a.rows a.cols (fun x y => (vBinOp a.fmt op (a.at x y) (b x y)).getD (0, 0))
    vPut i (vD i.w) r.1
    vAlu i.core a 1
    return .flags (r.2 ||| vBflags s i a)

/-- VUN (R242). -/
def vunBody (i : Iss) : Act AsyncEnd := do
  let a := vGet (← look) i (vA i.w)
  let op := cb i.w 5
  if a.rows = 0 then return .fault 3
  if (vUnOp a.fmt op 0).isNone then return .fault 2
  let r := vMake a.fmt a.rows a.cols (fun x y => (vUnOp a.fmt op (a.at x y)).getD (0, 0))
  vPut i (vD i.w) r.1
  vAlu i.core a (if op ≤ 2 then 1 else 2)
  return .flags r.2

/-- VFMA (R239): A × B + C with one rounding; INT32 wraps. -/
def vfmaBody (i : Iss) : Act AsyncEnd := do
  let s ← look
  let a := vGet s i (vA i.w)
  let c := vGet s i (vC i.w)
  if a.rows = 0 || c.rows = 0 || vBempty s i then return .fault 3
  if c.fmt ≠ a.fmt || c.rows ≠ a.rows || c.cols ≠ a.cols then return .fault 2
  match vBsrc s i a with
  | none => return .fault 2
  | some b =>
    let one := fun (x y z : VElem) =>
      if a.fmt = 2 then (x * y + z, (0 : Flags))
      else
        let p := vNum a.fmt x
        let q := vNum a.fmt y
        let t := vNum a.fmt z
        let m := mulNum p.1 q.1
        let n := sumNum [m.1, t.1]
        let r := vOut a.fmt n.1
        (r.1, p.2 ||| q.2 ||| t.2 ||| m.2 ||| n.2 ||| r.2)
    let r := vMake a.fmt a.rows a.cols (fun x y => one (a.at x y) (b x y) (c.at x y))
    vPut i (vD i.w) r.1
    vAlu i.core a 1
    return .flags (r.2 ||| vBflags s i a)

/-! ## Reductions (R243) -/

/-- One level of the pairwise tree; an odd element passes up unchanged. -/
def treeLevel (f op : Nat) : List (VElem × Flags) → List (VElem × Flags)
  | x :: y :: rest =>
    let r := (vBinOp f op x.1 y.1).getD (0, 0)
    (r.1, x.2 ||| y.2 ||| r.2) :: treeLevel f op rest
  | l => l

/-- The pairwise tree over a list. -/
def treeReduce (f op : Nat) : Nat → List (VElem × Flags) → VElem × Flags
  | 0, l => l.headD (0, 0)
  | n + 1, l => if l.length ≤ 1 then l.headD (0, 0) else treeReduce f op n (treeLevel f op l)

/-- Reduction in ascending order. -/
def seqReduce (f op : Nat) : List (VElem × Flags) → VElem × Flags
  | [] => (0, 0)
  | x :: l => l.foldl (fun a y =>
      let r := (vBinOp f op a.1 y.1).getD (0, 0)
      (r.1, a.2 ||| y.2 ||| r.2)) x

/-- VRED (R243). -/
def vredBody (i : Iss) : Act AsyncEnd := do
  let a := vGet (← look) i (vA i.w)
  let op := cb i.w 5
  if a.rows = 0 then return .fault 3
  if 3 < op then return .fault 2
  let bin := if op = 1 then 3 else if op = 2 then 4 else 0
  let elem := fun (r c : Nat) =>
    let x := a.at r c
    if op = 3 then (vBinOp a.fmt 2 x x).getD (0, 0) else (x, if a.fmt = 2 then 0 else (vNum a.fmt x).2)
  let r := if cf i.w 6 4 1 = 0 then
      vMake a.fmt a.rows 1 (fun x _ => treeReduce a.fmt bin 9 ((List.range a.cols).map (fun c => elem x c)))
    else vMake a.fmt 1 a.cols (fun _ y => seqReduce a.fmt bin ((List.range a.rows).map (fun x => elem x y)))
  vPut i (vD i.w) r.1
  vAlu i.core a 1
  return .flags r.2

/-! ## Conversions and arrangements (R244) -/

/-- A conversion of a number to a buffer format under RMODE. -/
def vConv (dst : Nat) (t : Thread) (idx : Nat) (x : Num × Flags) : VElem × Flags :=
  let rd : Round := { mode := if rmodeOf t.numCtrl = 3 then 0 else rmodeOf t.numCtrl, draw := srDraw t.numSeed (srStreamOf t.numCtrl) idx }
  let r := toFmt (vfmtCode dst) rd x.1
  (BitVec.ofNat 32 r.1, x.2 ||| r.2)

/-- VCVT (R244). -/
def vcvtBody (i : Iss) : Act AsyncEnd := do
  let s ← look
  let a := vGet s i (vA i.w)
  let dst := cf i.w 6 2 2
  if a.rows = 0 then return .fault 3
  if dst = 3 || (dst ≠ 1 && a.fmt = 1 && 128 < a.cols) then return .fault 2
  let t := i.thread s
  let r := vMake dst a.rows a.cols (fun x y => vConv dst t (x * a.cols + y) (vNum a.fmt (a.at x y)))
  vPut i (vD i.w) r.1
  vAlu i.core a 1
  return .flags r.2

/-- An index of an INT32 buffer; none outside `n`. -/
def vIdx (x : VElem) (n : Nat) : Option Nat := if 0 ≤ x.toInt && x.toInt < n then some x.toInt.toNat else none

/-- VPERM (R244). -/
def vpermBody (i : Iss) : Act AsyncEnd := do
  let s ← look
  let a := vGet s i (vA i.w)
  let b := vGet s i (vB i.w)
  let mode := cb i.w 5
  if a.rows = 0 then return .fault 3
  if 2 < mode then return .fault 2
  if mode = 0 then
    if 64 < a.rows || 64 < a.cols then return .fault 2
    vPut i (vD i.w) (vMake a.fmt a.cols a.rows (fun x y => (a.at y x, 0))).1
  else
    if b.rows = 0 then return .fault 3
    if b.fmt ≠ 2 then return .fault 2
    if mode = 1 then
      vPut i (vD i.w) (vMake a.fmt b.rows a.cols (fun x y => match vIdx (b.at x 0) a.rows with
        | some r => (a.at r y, 0)
        | none => (0, 0))).1
    else
      vPut i (vD i.w) (vMake a.fmt a.rows b.cols (fun x y => match vIdx (b.at 0 y) a.cols with
        | some c => (a.at x c, 0)
        | none => (0, 0))).1
  vAlu i.core a 1
  return .flags 0

/-- VPACK (R244): columns between A's last and column 128 are not stated, so they hold free values (log entry 2). -/
def vpackBody (i : Iss) : Act AsyncEnd := do
  let s ← look
  let a := vGet s i (vA i.w)
  let b := vGet s i (vB i.w)
  if a.rows = 0 || b.rows = 0 then return .fault 3
  if a.fmt ≠ 0 || b.fmt ≠ 0 || a.rows ≠ b.rows || a.cols ≠ b.cols then return .fault 2
  let t := i.thread s
  let f0 := s.freeIdx
  for _ in List.range (a.rows * (128 - a.cols)) do
    let _ ← drawFree
  let cols := 128 + b.cols
  let r := vMake 1 a.rows cols (fun x y =>
    if y < a.cols then vConv 1 t (x * cols + y) (vNum 0 (a.at x y))
    else if y < 128 then (BitVec.setWidth 32 (BitVec.setWidth 16 (Config.freeWord (f0 + x * (128 - a.cols) + (y - a.cols)))), 0)
    else vConv 1 t (x * cols + y) (vNum 0 (b.at x (y - 128))))
  vPut i (vD i.w) r.1
  vCount i.core 0 64
  return .flags r.2

/-- A BF16 element widened to FP32 (R147, R154). -/
def vWide (x : VElem) : VElem × Flags :=
  let n := vNum 1 x
  ((toF32 n.1).1, n.2)

/-- VUNPACK (R244). -/
def vunpackBody (i : Iss) : Act AsyncEnd := do
  let a := vGet (← look) i (vA i.w)
  if a.rows = 0 then return .fault 3
  if a.fmt ≠ 1 || a.cols ≤ 128 then return .fault 2
  let lo := vMake 0 a.rows 128 (fun x y => vWide (a.at x y))
  let hi := vMake 0 a.rows (a.cols - 128) (fun x y => vWide (a.at x (128 + y)))
  vPut i (vD i.w) lo.1
  vPut i (vC i.w) hi.1
  vAlu i.core a 1
  return .flags (lo.2 ||| hi.2)

/-! ## Moves (R240) -/

def vRow0 (w : Cmd) : Nat := cf w 16 0 24
def vCol0 (w : Cmd) : Nat := cf w 19 0 24

/-- The operand of VLD and VST, in the issuing core's scratch. -/
def vOperand (i : Iss) : Act OpdRes := do
  match (← readOpd i (cAddr i.w 8)) with
  | .fault c => return .fault c
  | .ok o =>
    if !inScratch i.core o.m.base then return .fault 2
    if o.m.rows ≤ vRow0 i.w || o.m.cols ≤ vCol0 i.w then return .fault 2
    return .ok o

/-- VLD (R240, R245). -/
def vldBody (i : Iss) : Act AsyncEnd := do
  let vf := cf i.w 6 2 2
  if vf = 3 then return .fault 2
  match (← vOperand i) with
  | .fault c => return .fault c
  | .ok o =>
    let isFloat := o.m.fmt ≤ 7
    if (isFloat && vf = 2) || (!isFloat && vf ≠ 2) || o.m.fmt = 0xB then return .fault 2
    let r0 := vRow0 i.w
    let c0 := vCol0 i.w
    let rows := min 64 (o.m.rows - r0)
    let cols := min (if vf = 1 then 256 else 128) (o.m.cols - c0)
    let masks ← coreReads i (o.maskRuns r0 rows c0 cols)
    let cells ← coreReads i (o.runs (← look) false r0 rows c0 cols)
    if !(masks && cells) then
      vPut i (vD i.w) {}
      return .fault 6
    let s ← look
    let t := i.thread s
    let r := vMake vf rows cols (fun x y =>
      if o.rowOn s (r0 + x) && o.colOn s (c0 + y) then
        if o.m.fmt = vfmtCode vf then (BitVec.ofNat 32 (readCode s o.m (r0 + x) (c0 + y)), 0)
        else vConv vf t (x * cols + y) (readElem s o.m (r0 + x) (c0 + y))
      else (0, 0))
    vPut i (vD i.w) r.1
    vCount i.core 8 (rows * cols * fmtBits o.m.fmt / 8)
    return .flags r.2

/-- VST (R240): the elements of the rectangle that the buffer holds. -/
def vstBody (i : Iss) : Act AsyncEnd := do
  let a := vGet (← look) i (vA i.w)
  match (← vOperand i) with
  | .fault c => return .fault c
  | .ok o =>
    if a.rows = 0 then return .fault 3
    let r0 := vRow0 i.w
    let c0 := vCol0 i.w
    if isMx o.m.fmt && (if o.m.kcol then c0 else r0) % 32 ≠ 0 then return .fault 2
    let rows := min a.rows (min 64 (o.m.rows - r0))
    let cols := min a.cols (o.m.cols - c0)
    if !(← coreReads i (o.maskRuns r0 rows c0 cols)) then return .fault 6
    if !(← aliveRuns (i.core / 64) (i.core % 64) (some i.p) (o.runs (← look) false r0 rows c0 cols)) then return .fault 6
    let s ← look
    let t := i.thread s
    let vals := (List.range rows).map (fun x => (List.range cols).map (fun y => (vNum a.fmt (a.at x y)).1))
    let on := fun x y => o.rowOn s x && o.colOn s y
    let same := o.m.fmt = vfmtCode a.fmt
    let den := if same then 0 else (List.range rows).foldl (fun f x => (List.range cols).foldl (fun f y =>
      if on (r0 + x) (c0 + y) then f ||| (vNum a.fmt (a.at x y)).2 else f) f) 0
    if same then
      for x in List.range rows do
        for y in List.range cols do
          if on (r0 + x) (c0 + y) then writeCode o.m (r0 + x) (c0 + y) (a.at x y).toNat
      vCount i.core 8 (rows * cols * fmtBits o.m.fmt / 8)
      return .flags 0
    let f ← writeRect o.m r0 c0 vals on t.numCtrl t.numSeed false
    vCount i.core 8 (rows * cols * fmtBits o.m.fmt / 8)
    return .flags (f ||| den)

/-- A vector command (R239); it is heavy only with LEAVE. -/
def vecCmd (th : Thr) (w : Cmd) (body : Iss → Act AsyncEnd) : Act Unit :=
  asyncCmd th w 0 (fun _ => return false) (fun i _ => body i)

/-- VLD (R240). -/
def execVld (th : Thr) (w : Cmd) (s : State) : Host.Outcome State Fault Refusal := finishIf (opIs 0x40 w) (vecCmd th w vldBody) s
/-- VST (R240). -/
def execVst (th : Thr) (w : Cmd) (s : State) : Host.Outcome State Fault Refusal := finishIf (opIs 0x41 w) (vecCmd th w vstBody) s
/-- VBIN (R241). -/
def execVbin (th : Thr) (w : Cmd) (s : State) : Host.Outcome State Fault Refusal := finishIf (opIs 0x42 w) (vecCmd th w vbinBody) s
/-- VUN (R242). -/
def execVun (th : Thr) (w : Cmd) (s : State) : Host.Outcome State Fault Refusal := finishIf (opIs 0x43 w) (vecCmd th w vunBody) s
/-- VFMA (R239). -/
def execVfma (th : Thr) (w : Cmd) (s : State) : Host.Outcome State Fault Refusal := finishIf (opIs 0x44 w) (vecCmd th w vfmaBody) s
/-- VRED (R243). -/
def execVred (th : Thr) (w : Cmd) (s : State) : Host.Outcome State Fault Refusal := finishIf (opIs 0x45 w) (vecCmd th w vredBody) s
/-- VCVT (R244). -/
def execVcvt (th : Thr) (w : Cmd) (s : State) : Host.Outcome State Fault Refusal := finishIf (opIs 0x46 w) (vecCmd th w vcvtBody) s
/-- VPERM (R244). -/
def execVperm (th : Thr) (w : Cmd) (s : State) : Host.Outcome State Fault Refusal := finishIf (opIs 0x47 w) (vecCmd th w vpermBody) s
/-- VPACK (R244). -/
def execVpack (th : Thr) (w : Cmd) (s : State) : Host.Outcome State Fault Refusal := finishIf (opIs 0x48 w) (vecCmd th w vpackBody) s
/-- VUNPACK (R244). -/
def execVunpack (th : Thr) (w : Cmd) (s : State) : Host.Outcome State Fault Refusal := finishIf (opIs 0x49 w) (vecCmd th w vunpackBody) s

end Sys2Proof.Machine
end

