-- ==== Sys2Proof/Machine/Grants.lean ====
section
/-!
DEFINITION. The power grant unit (R345–R354): grants, reservations, pauses and resumptions, core wakes, and the cap.
-/

namespace Sys2Proof.Machine

/-! ## The cap (R347, R348) -/

/-- CAP_EFF in mW (R348). -/
def capEff (s : State) : Nat :=
  let sag := if fieldOf s 0x040020 0 1 = 1 then fieldOf s 0x040010 48 7 else 100
  let flow := if fieldOf s 0x040020 7 1 = 1 then fieldOf s 0x040028 16 7 else 100
  fieldOf s 0x040000 0 13 * 1000 * sag * flow * (20 - fieldOf s 0x040020 8 4) / 200000

def baseW (s : State) : Nat := fieldOf s 0x040018 48 16

/-- GR in force at time `x` or in the 20 µs before it, at its least (R347). -/
def minGr (s : State) (x : Nat) : Nat :=
  let start := match s.pw.hist.find? (fun e => e.1 + 20000 ≤ x) with
    | some e => e.2
    | none => 0
  (s.pw.hist.filter (fun e => x < e.1 + 20000)).foldl (fun a e => min a e.2) start

/-- The earliest time from now at which a request of `mw` fits the rise limit; none where the cap has no room for it (R347). -/
def fitTime (s : State) (mw : Nat) : Option Nat :=
  let now := s.time.now
  if baseW s * 1000 + grOf s + mw ≤ capEff s then
    (now :: ((s.pw.hist.map (fun e => e.1 + 20000)).filter (now < ·)).reverse).find? (fun x =>
      grOf s + mw ≤ minGr s x + fieldOf s 0x040008 0 10 * 1000)
  else none

/-! ## Pauses (R352) -/

/-- The command of a grant's holder. -/
def grantCmd (s : State) (g : Grant) : Option Cmd :=
  match g.who with
  | .cmd k slot => ((threadOf s k).asyncs.find? (fun e => e.1 == slot)).map (fun e => e.2.w)
  | .sync k => (threadOf s k).cur
  | _ => none

/-- A holder that may be paused: windows, wakes, reservations and vector commands are not. -/
def pausable (s : State) (g : Grant) : Bool :=
  match g.who with
  | .window _ _ _ => false
  | .wake _ => false
  | .reservation _ => false
  | .ringCopy _ _ => true
  | _ => match grantCmd s g with
    | some w => !(0x40 ≤ hOpcode w && hOpcode w ≤ 0x49)
    | none => true

/-- The present priority of a request (R189). -/
def grantPrio (s : State) (g : Grant) : Nat :=
  match g.who with
  | .cmd k _ => (threadOf s k).prio.toNat
  | .sync k => (threadOf s k).prio.toNat
  | .ringCopy r _ => fieldOf s (rRing r 2) 16 4
  | _ => g.prio

/-- A pause of a matrix command ends: the cycles of 1.80 GHz since it began are counted, less those up to the next tile boundary or column
group, one tile time at most, at which the work stopped; that part is a free amount (R209, R211, R352, log entry 117). -/
def countThrottle (g : Grant) : Act Unit := do
  if g.paused then
    match g.who with
    | .cmd k _ =>
      let s ← look
      match grantCmd s g with
      | some w =>
        if engineOf w = 3 || engineOf w = 4 then
          let n := (s.time.now - g.pausedAt) * 9 / 5
          let f ← drawFree
          ctr64 (rCore (k / 16 % 2048) 0x18) (n - f.toNat % 513)
      | none => return
    | _ => return

/-- The next holder to pause: lowest priority, then the most recently granted. -/
def nextPause (s : State) (f : Grant → Bool) : Option Grant :=
  (s.pw.held.filter (fun g => !g.paused && pausable s g && f g)).foldl (fun a g => match a with
    | none => some g
    | some b => if grantPrio s g ≤ grantPrio s b then some g else a) none

/-- Pause one holder. -/
def pauseOne (g : Grant) (hot : Bool) : Act Unit := do
  let now := (← look).time.now
  modPw (fun p => { p with held := p.held.map (fun x => if x.who == g.who then { x with paused := true, hot := hot, pausedAt := now } else x) })
  ctr32 0x040210
  noteGr

/-- CAP_EFF_W shows the cap, and holders pause until BASE_W + GR lies within it (R348, R352). -/
def holdCap : Act Unit := do
  wrF 0x040020 32 13 (capEff (← look) / 1000)
  for _ in (← look).pw.held do
    let s ← look
    if capEff s < baseW s * 1000 + grOf s then
      match nextPause s (fun _ => true) with
      | some g => pauseOne g false
      | none => pure ()

/-- Pause holders of at least `mw` in all, where there are that many. -/
def pauseWatts (mw : Nat) (f : Grant → Bool) (hot : Bool) : Act Unit := do
  let goal := grOf (← look) - mw
  for _ in (← look).pw.held do
    let s ← look
    if goal < grOf s then
      match nextPause s f with
      | some g => pauseOne g hot
      | none => pure ()

/-! ## Grants (R345, R347, R349, R350) -/

/-- What an asynchronous command does, by its opcode (R174, R186, R194, R216, R226, R232, R239, R85). -/
def asyncBody (i : Iss) (slot : Nat) : Act AsyncEnd :=
  match hOpcode i.w with
  | 0x10 => tileBody i slot
  | 0x11 => tileBody i slot
  | 0x12 => dmaBody i slot
  | 0x14 => fabStBody i slot
  | 0x20 => mmBody i
  | 0x21 => convBody i
  | 0x22 => mvBody i
  | 0x23 => gmmBody i
  | 0x30 => smmBody i
  | 0x31 => shellBody i
  | 0x32 => mergeBody i
  | 0x40 => vldBody i
  | 0x41 => vstBody i
  | 0x42 => vbinBody i
  | 0x43 => vunBody i
  | 0x44 => vfmaBody i
  | 0x45 => vredBody i
  | 0x46 => vcvtBody i
  | 0x47 => vpermBody i
  | 0x48 => vpackBody i
  | 0x49 => vunpackBody i
  | 0x60 => routeSubmitBody i slot
  | 0x62 => sampleBody i slot
  | _ => return .flags 0

/-- A command that starts after its issue fails: its thread faults; an error of its operands leaves it, at the place where it stopped, to a
RESUME (R171, R209, R298). -/
def asyncFault (i : Iss) (slot cause : Nat) (a : AsyncCmd) : Act Unit := do
  dropGrant (.cmd i.key slot)
  if cause = 6 then putAsync i.key slot { a with phase := .stopped } else dropAsync i.key slot
  modThread i.key (fun t => { t with st := .faulted, faultCause := BitVec.ofNat 8 cause })
  if cause ≠ 6 then raise 0x8001 2 (i.core / 64) (i.core % 64) (some i.p) 0 (faultDetail cause i.tc i.ctx)

/-- A command that waited starts, or goes on from its cursor; one whose tiles are all done has only its completion left (R209, R210). -/
def startAsync (k slot : Nat) (a : AsyncCmd) : Act Unit := do
  let i : Iss := { issOfKey k a.w with held := a.held, cur := a.cur }
  if (a.cur.map (·.fin)) = some true then putAsync k slot { w := a.w, phase := .done, flags := a.flags }
  else
    putAsync k slot { w := a.w, phase := .running }
    match (← asyncBody i slot) with
    | .flags f => putAsync k slot { w := a.w, phase := .done, flags := f }
    | .later => return
    | .more cur => putAsync k slot { a with phase := .running, seq := 0, cur := some cur }
    | .stop c cur => asyncFault i slot c { a with cur := some cur }
    | .fault c => asyncFault i slot c a

/-- A command may start now: its context runs and is not being switched, its grant is not paused (R296, R352), and no command to its engine
keeps it back. A Sheller and a Hummock go on whichever context runs (R294). -/
def startable (s : State) (k slot : Nat) (a : AsyncCmd) : Bool :=
  let d := partOf s (k / 16 / 2048 / 16)
  a.phase == .queued && !engineAhead s k a.w a.seq && !s.pw.held.any (fun g => g.who == .cmd k slot && g.paused) &&
    (engineOf a.w == 5 || engineOf a.w == 6 || (d.running == some (k / 16 / 2048 % 16) && d.switching == .none))

/-- A command that waits for nothing but its turn at an engine of the thread `kc`'s core, core group or die, and may start: the earliest
(R169, R197, R225, R232, R238). -/
def nextQueued (s : State) (kc : Nat) : Option (Nat × Nat × AsyncCmd) :=
  (s.threads.flatMap (fun t =>
    (t.2.asyncs.filter (fun a => (t.1 / 16 == kc / 16 || sameEngine (engineOf a.2.w) t.1 kc) && startable s t.1 a.1 a.2)).map
      (fun a => (t.1, a.1, a.2)))).foldl
    (fun b x => match b with
      | none => some x
      | some y => if x.2.2.seq < y.2.2.seq then some x else b) none

/-- Commands that are no longer behind another start in their order. -/
def startQueued : Nat → Nat → Act Unit
  | 0, _ => pure ()
  | fuel + 1, kc => do
    match nextQueued (← look) kc with
    | none => pure ()
    | some (k, slot, a) =>
      startAsync k slot a
      startQueued fuel kc

/-- ASYNC_COMMAND_DONE (R161, R169, R172): a command that has done its work completes, and those behind it start. A command with items of its
work list left takes the next of them instead (R206, log entry 141). A paused holder waits (R209, R352). -/
def asyncDoneAct (th : Thr) (slot : Nat) : Act Unit := do
  let s ← look
  match thrOf s th with
  | none => return
  | some i =>
    match (threadOf s i.key).asyncs.find? (fun e => e.1 == slot) with
    | none => return
    | some (_, a) =>
      if !s.pw.held.any (fun g => g.who == .cmd i.key slot && g.paused) then
        if a.phase == .done then
          asyncDone i.key slot
          startQueued 257 i.key
        else if a.phase == .running && a.cur.isSome && (partOf s i.p).switching == .none then startAsync i.key slot a

/-- ASYNC_COMMAND_DONE (R161, R169, R172). -/
def execAsyncCommandDone (th : Thr) (slot : Fin 16) (s : State) : Host.Outcome State Fault Refusal := finish (asyncDoneAct th slot) s

/-- A heavy command has its grant (R172): it starts, unless an earlier command to its engine has not; those behind it follow. -/
def startGranted (k slot : Nat) : Act Unit := do
  match (threadOf (← look) k).asyncs.find? (fun e => e.1 == slot) with
  | none => dropGrant (.cmd k slot)
  | some (_, a) =>
    putAsync k slot { a with phase := .queued }
    startQueued 257 k

/-- A core wakes, at most 64 in a microsecond (R354). -/
def wakeCore (c : Nat) : Act Unit := do
  let s ← look
  let slot := max (s.time.now / 1000) s.pw.wakes.1
  let n := if slot = s.pw.wakes.1 then s.pw.wakes.2 else 0
  let slot := if 64 ≤ n then slot + 1 else slot
  let n := if 64 ≤ n then 1 else n + 1
  advanceTo (slot * 1000)
  modPw (fun p => { p with wakes := (slot, n), awake := (p.awake.filter (· < c)) ++ c :: p.awake.filter (c < ·) })

/-- What a grant lets start. -/
def grantStarts (who : Holder) : Act Unit :=
  match who with
  | .cmd k slot => startGranted k slot
  | .sync k => reissue k
  | .ringCopy r idx => modRing r (fun g => { g with entries := g.entries.map (fun e => if e.idx == idx then { e with grant := 2 } else e) })
  | .wake c => wakeCore c
  | .window _ _ _ => return
  | .reservation _ => return

/-- A waiting request is granted; `res` is the reservation that it takes over. -/
def giveGrant (g : Grant) (res : Option Grant) : Act Unit := do
  let s ← look
  modPw (fun p => { p with waiting := p.waiting.filter (fun x => x.who != g.who)
                           held := (p.held.filter (fun x => some x.who != res.map (·.who))) ++ [g] })
  ctr64 0x040200
  ctr64 0x040208 (s.time.now - g.askedAt)
  noteGr
  grantStarts g.who

/-- The die of a request grants no heavy operation (R359, R366). -/
def dieBarred (s : State) (g : Grant) : Bool :=
  match g.die with
  | none => false
  | some d => d < 32 && (fieldOf s (0x040800 + 8 * d) 39 1 == 1 || fieldOf s (0x040800 + 8 * d) 41 1 == 1)

/-- The context of a thread runs. -/
def ctxRuns (s : State) (k : Nat) : Bool := (partOf s (k / 16 / 2048 / 16)).running == some (k / 16 / 2048 % 16)

/-- A request takes part in the arbitration: its context runs, and its die is not barred. -/
def eligible (s : State) (g : Grant) : Bool :=
  !dieBarred s g && (match g.who with
    | .cmd k _ => ctxRuns s k
    | .sync k => ctxRuns s k
    | _ => true)

/-- Place among requests of one cycle: the core, then the thread context (R189). -/
def grantPlace (g : Grant) : Nat :=
  match g.who with
  | .cmd k _ => k / 16 % 2048 * 16 + k % 16
  | .sync k => k / 16 % 2048 * 16 + k % 16
  | .wake c => c * 16
  | _ => 0

/-- The arbiter's order (R189, R349). -/
def grantBefore (s : State) (a b : Grant) : Bool :=
  grantPrio s b < grantPrio s a || (grantPrio s a == grantPrio s b &&
    (a.askedAt < b.askedAt || (a.askedAt == b.askedAt && grantPlace a < grantPlace b)))

/-- The head request. -/
def headGrant (s : State) : Option Grant :=
  (s.pw.waiting.filter (eligible s)).foldl (fun a g => match a with
    | none => some g
    | some b => if grantBefore s g b then some g else a) none

/-- The paused holder that resumes next: original grant order (R353). -/
def nextResume (s : State) : Option Grant := if s.pw.peak then none else s.pw.held.find? (fun g => g.paused && !g.hot)

/-- A held reservation that a request may take over (R350). -/
def reservationFor (s : State) (g : Grant) : Option Grant :=
  match g.who with
  | .wake _ => none
  | .reservation _ => none
  | _ => s.pw.held.find? (fun r => r.who == .reservation g.part && g.mw ≤ r.mw)

/-- PGU_GRANT (R345–R350): a request takes over its partition's reservation, or the head request is granted once it fits. -/
def pguGrantAct : Act Unit := do
  let s ← look
  match (s.pw.waiting.filter (fun g => eligible s g && (reservationFor s g).isSome)).foldl (fun (a : Option Grant) g => match a with
      | none => some g
      | some b => if grantBefore s g b then some g else a) none with
  | some g => giveGrant g (reservationFor s g)
  | none =>
    match headGrant s with
    | none => return
    | some g =>
      let behind := match nextResume s with
        | some x => grantPrio s g ≤ grantPrio s x
        | none => false
      if !behind then
        match fitTime s g.mw with
        | none => return
        | some t =>
          advanceTo t
          giveGrant g none

/-- PGU_GRANT (R347). -/
def execPguGrant (s : State) : Host.Outcome State Fault Refusal := finish pguGrantAct s

/-- CORE_WAKE (R354): the wake of a core that heads the queue. -/
def execCoreWake (core : Fin 2048) (s : State) : Host.Outcome State Fault Refusal :=
  finish (do
    let s ← look
    match headGrant s with
    | none => return
    | some g =>
      if g.who = .wake core then
        match fitTime s g.mw with
        | none => return
        | some t =>
          advanceTo t
          giveGrant g none) s

/-- PGU_RESUME (R353): a resumption is a grant. -/
def resumeAct : Act Unit := do
  let s ← look
  match nextResume s with
  | none => return
  | some x =>
    let ahead := match headGrant s with
      | some g => grantPrio s x < grantPrio s g
      | none => false
    if !ahead then
      match fitTime s x.mw with
      | none => return
      | some t =>
        advanceTo t
        countThrottle x
        modPw (fun p => { p with held := p.held.map (fun g => if g.who == x.who then { g with paused := false } else g) })
        ctr64 0x040200
        noteGr

/-- PGU_RESUME (R353). -/
def execPguResume (s : State) : Host.Outcome State Fault Refusal := finish resumeAct s

/-- PGU_RESERVATION_EXPIRY (R350): not taken over by FIRE_FT + LEAD_US. -/
def execPguReservationExpiry (p : Fin 64) (s : State) : Host.Outcome State Fault Refusal :=
  finish (do
    let s ← look
    match (s.pw.held ++ s.pw.waiting).find? (fun g => g.who == .reservation p.val) with
    | none => return
    | some g =>
      advanceFt g.until_
      dropGrant (.reservation p.val)) s

/-- Measured input power below 6,600 W ends a peak (R352). -/
def notePower (w : Nat) : Act Unit := do
  wrF 0x040018 16 16 w
  if w < 6600 then modPw (fun p => { p with peak := false })

/-- PGU_BASE_UPDATE (R345, R347): every 100 µs; wakes give their watts back. -/
def baseUpdate (w avg : Nat) : Act Unit := do
  let s ← look
  advanceTo ((s.time.now + 100000) / 100000 * 100000)
  notePower w
  wrF 0x040018 48 16 (max (fieldOf s 0x040008 40 16) (w - avg))
  modPw (fun p => { p with held := p.held.filter (fun g => match g.who with
    | .wake _ => false
    | _ => true) })
  noteGr
  holdCap

/-- PGU_BASE_UPDATE (R347). -/
def execPguBaseUpdate (measuredW avgGr : BitVec 16) (s : State) : Host.Outcome State Fault Refusal :=
  finish (baseUpdate measuredW.toNat avgGr.toNat) s

/-- PWR_PEAK (R352): above 6,600 W on two samples; holders pause for the excess. -/
def execPwrPeak (measuredW : BitVec 16) (s : State) : Host.Outcome State Fault Refusal :=
  finish (do
    let w := measuredW.toNat
    notePower w
    if 6600 < w then
      if !(← look).pw.peak then
        modPw (fun p => { p with peak := true })
        setEvent 0x040020 2 2
        ctr32 0x040218
        raise 0x0404 0 diePC 0
      pauseWatts ((w - 6600) * 1000 + 1) (fun _ => true) false) s

/-! ## Cores that wake and sleep (R302, R354) -/

/-- Ask to wake the partition's sleeping cores. -/
def askWakes (p : Nat) : Act Unit := do
  let s ← look
  for c in partCores s p do
    if !s.pw.awake.contains c && !s.pw.waiting.any (fun g => g.who == .wake c) then
      askGrant { who := .wake c, mw := fieldOf s 0x040008 24 16, prio := 15, part := p }

/-- Cores sleep that a predicate names. -/
def sleepCores (f : Nat → Bool) : Act Unit := do
  modPw (fun p => { p with awake := p.awake.filter (fun c => !f c) })
  dropGrants (fun g => match g.who with
    | .wake c => f c
    | _ => false)

end Sys2Proof.Machine
end

