-- ==== Sys2Proof/Machine/Exchange.lean ====
section
/-!
DEFINITION. Exchange groups and the dispatch and return exchanges: commits (R88, R89), launches (R97, R100–R103), windows and rounds
(R91–R96), frames and acknowledgements (R104–R108), and the routed-token gather (R228–R231).
-/

namespace Sys2Proof.Machine

/-! ## Group commits (R88, R89) -/

/-- A write of NET_XG_COMMIT (R89). -/
def xgCommitWrite (w : Wr) : Act Unit := do
  if w.half ≠ .high then wrF 0x440010 0 8 (wrBits w 0 8)
  let h ← rdF 0x440010 0 8
  if wrBits w 8 1 = 1 then
    let g := groupOf (← look) h
    if g.state = 1 || BitVec.ofNat 32 (wrBits w 32 32) ≠ nextGen g.gen then ownDenied
    else modGroup h (fun g => { g with state := 1 })
  showXg

/-- The conditions of R88 and R89 on a descriptor and its member table. -/
def xgOk (s : State) (d : Item) (m : List Nat) : Bool :=
  ibits d 16 14 < 16384 && dRank d ≤ ibits d 16 14 && ibits d 64 64 != 0 && !(dMesh d && 65 < dN d) && 100 ≤ dGuard d &&
    (if dMesh d then dN d == 1 || (List.range (dN d - 1)).all (fun c => (meshPorts d c).any (fun p => p < 64 && dPortEn d p))
     else (List.range (nround d)).all (fun r => (roundSends d (r + 1)).all (fun x => x.2.any (dPortEn d)))) &&
    decide m.Nodup && m.all (· != 0xFFFF) && m[dRank d]? == some (netNode s)

/-- XG_CHECK_DONE (R89, R374): the staged descriptor is read and checked. While a window still holds a generation older than the one in
force, the commit waits (R26). -/
def xgCheckAct (h : Nat) : Act Unit := do
  let s ← look
  let g := groupOf s h
  if g.state = 1 then
    let a := stagedXg s h
    let good ← consume (dieND 0) h none a 64
    if !good then
      modGroup h (fun g => { g with state := 3, desc := g.desc &&& ~~~((1 : Item) <<< 6) })
      raise 0x0006 3 (dieND 0) h none a
    else
      let d := memItem (← look) a
      let goodT ← consume (dieND 0) h none (dMembers d) (2 * dN d)
      let s ← look
      let m := (List.range (dN d)).map (fun r => memNat s (dMembers d + 2 * r) 2)
      if goodT && xgOk s d m then
        modGroup h (fun g => { g with state := 2, gen := nextGen g.gen })
        if xgHeld (← look) h then modGroup h (fun g => { g with next := some (d, m) }) else xgInForce h (d, m)
      else
        modGroup h (fun g => { g with state := 3 })
        raiseGroup 0x4003 2 h (some (dPart d))
    showXg

/-- XG_COMMIT_GO (R89, R90). -/
def execXgCommitGo (w : Wr) (s : State) : Host.Outcome State Fault Refusal := finish (ownerWrite w.path (xgCommitWrite w)) s
/-- XG_CHECK_DONE (R89). -/
def execXgCheckDone (h : Fin 256) (s : State) : Host.Outcome State Fault Refusal := finish (xgCheckAct h) s

/-! ## Launch (R97, R100) -/

/-- The armed EXCH_WINDOW_OPEN entry of a group. -/
def windowEntry (s : State) (h p : Nat) : Option Nat :=
  (List.range 1024).find? (fun e => fieldOf s (rSet e 2) 0 5 == 0x11 && fieldOf s (rSet e 2) 8 6 == p && fieldOf s (rSet e 2) 16 16 == h)

/-- The handed-over contexts of a set agree on what the exchange as a whole needs (DEDUCED, log entry 21). -/
def setAgrees (subs : List Submit) (c : Item) : Bool :=
  subs.all (fun u => rcGroup u.cfg == rcGroup c && rcTb u.cfg == rcTb c && rcElastic u.cfg == rcElastic c)

/-- CAPACITY on SE0–SE3 of a set. -/
def setCaps (subs : List Submit) : List Nat :=
  (List.range 4).map (fun d => match subs.find? (fun u => u.rctx / 256 == d) with
    | some u => rcCap u.cfg
    | none => 0)

/-- The validation of R100. -/
def launchOk (s : State) (p : Nat) (subs : List Submit) (c : Item) : Bool :=
  let h := rcGroup c
  let d := (groupOf s h).desc
  let n := (setCaps subs).foldl (· + ·) 0
  setAgrees subs c && groupOn s h && dPart d == p &&
    (match windowEntry s h p with
     | none => false
     | some e => windowLen s d (rcElastic c) (n * (8 + rcTb c)) ≤ fieldOf s (rSet e 1) 0 40) &&
    n ≤ 65535 && n * rcTb c ≤ 2 ^ 30 && (!dVer2 d || subs.all (fun u => [1, 3, 4].contains (mdescOf u.payload).fmt)) &&
    dJobGen d == jobGen s p && jobState s p == 2

/-- Windows that the submit of a set spans (R71, R96). -/
def setWindows (subs : List Submit) (elastic : Bool) : Nat :=
  if elastic then subs.foldl (fun a u => u.picks.foldl (fun a k => if k.gap.isNone then max a (k.win + 1) else a) a) 1 else 1

/-- EXCH_LAUNCH (R97, R100): a ninth launch of a group waits. -/
def launchAct (p setId tag : Nat) : Act Unit := do
  let s ← look
  let subs := (setSubmits s p setId tag).filter (·.phase == .handed)
  match subs with
  | [] => return
  | u :: _ =>
    if !(exchangeOf s p setId tag).isEmpty then return
    let c := u.cfg
    let h := rcGroup c
    if !launchOk s p subs c then
      raiseGroup 0x4003 2 h (some p)
      failExchange p setId tag
    else if 8 ≤ ((launchesOf s h).filter (fun l => l.win == 0 && (l.phase == .queued || l.phase == .allocated || l.phase == .ready))).length then return
    else
      let n := setWindows subs (rcElastic c)
      let ls := (List.range n).map (fun w =>
        ({ h, part := p, setId, tag, kind := .dispatch, phase := .queued, elastic := rcElastic c, tokenBytes := rcTb c
           smax := (setCaps subs).foldl (· + ·) 0 * (8 + rcTb c)
           caps := setCaps subs, win := w, windows := n } : Launch))
      modLaunches (fun l => l ++ ls)

/-- EXCH_LAUNCH (R100). -/
def execExchLaunch (p : Fin 64) (setId : BitVec 8) (tag : BitVec 32) (s : State) : Host.Outcome State Fault Refusal :=
  finish (launchAct p setId.toNat tag.toNat) s

/-! ## Allocation (R101, R204, R207, R229, R266) -/

/-- The gather check of R229. -/
def gatherOk (l : Launch) (plan ga : Item) : Act Bool := do
  let s ← look
  if gaMask ga = 0 then return true
  let a := gaTmpl ga
  if a % 64 ≠ 0 || !belongs s l.part a 64 then return false
  if !(← consume (dieND 0) l.h (some l.part) a 64) then return false
  let s ← look
  let t := mdescOf (memItem s a)
  let row := t.rowBytes + (if isMx t.fmt then (t.cols + 31) / 32 else 0)
  let d := (genOf s l).1
  return ({ t with scale := 1 } : Mdesc).ok && t.kcol && t.rows == 64 && row ≤ l.tokenBytes &&
    (List.range 64).all (fun g => !(bitsOf (gaMask ga) g 1 == 1) || bitsOf (partOf s l.part).map.cg.toNat g 1 == 1) &&
    coreOfPart s l.part (gaHdrCore ga) &&
    (if gaAlloc ga then l.elastic && plWlAlloc plan else (dN d * capSum l + 63) / 64 + 512 ≤ gaItems ga)

/-- The positions that rank `r` sends in the window, as this device knows them. -/
def rxPositions (l : Launch) (r : Nat) : List Nat := dieN l ((tget [] l.counts r).drop 1 |>.zipIdx.filter (fun x => x.2 % 2 == 0) |>.map (·.1)) ((tget [] l.counts r).drop 1 |>.zipIdx.filter (fun x => x.2 % 2 == 1) |>.map (·.1))

/-- Positions of rank `r`'s share: the CAPACITY sum in Reserved mode, the true count in Elastic mode. -/
def rxCount (l : Launch) (r : Nat) : Nat := if l.elastic then (rxPositions l r).foldl (· + ·) 0 else capSum l

/-- The receive share of a rank, its buffer taken. -/
def newRx (l : Launch) (r buf n : Nat) : RxShare :=
  { src := r, buf, npos := n, bytes := n * (8 + l.tokenBytes)
    need := if l.elastic && (tget [] l.counts r).isEmpty then [0] else List.range ((8 * n + 8191) / 8192) }

/-- The buffers the receive side needs: each rank that has positions; with the list and the gather area where the device allocates them. -/
def rxSizes (l : Launch) (n : Nat) : List (Nat × Nat) :=
  ((List.range n).map (fun r => (r, rxCount l r))).filter (fun x => x.2 != 0)

/-- A launch fails for its buffers or its plan (R101, R229). -/
def allocFail (l : Launch) (nobuf : Bool) : Act Unit := do
  if nobuf then
    ctr32 (rXg l.h 0x28)
    raiseGroup 0x4005 2 l.h (some l.part)
  else raiseGroup 0x4003 2 l.h (some l.part)
  failExchange l.part l.setId l.tag

/-- Receive buffers, work list and gather area of one window as the batch gave them: the plan's tables are written (R204, R207, R228). -/
def takeRx (l : Launch) (plan ga : Item) (want : List (Nat × Nat)) (bufs : List Nat) : Act Unit := do
  let s ← look
  let d := (genOf s l).1
  let bufOf := fun (r : Nat) => match want.zipIdx.find? (fun x => x.1.1 == r) with
    | some x => bufs.getD x.2 0
    | none => 0
  let wlOn := l.elastic && plWlAlloc plan
  let wl := if wlOn then bufs.getD want.length 0 else 0
  let area := if wlOn && gaMask ga ≠ 0 && gaAlloc ga then bufs.getD (want.length + 1) 0 else 0
  for r in List.range (dN d) do
    putNat (plBufTab plan + 8 * r) 8 (bufOf r)
  if wlOn then
    let a := planAddr s l.part l.h + 24
    putNat a 8 (setBits (memNat (← look) a 8) 0 52 wl)
  if area ≠ 0 then
    let a := gatherAddr s l.part l.h + 8
    putNat a 8 (setBits (memNat (← look) a 8) 0 52 area)
  modL l (fun x => { x with plan := plan, gather := ga, wl := wl, area := area, rx := (List.range (dN d)).map (fun r => newRx l r (bufOf r) (rxCount l r)) })

/-- Sizes of the list and the area (R207, R229): `n` the positions of the window. -/
def listSizes (s : State) (l : Launch) (plan ga : Item) (n : Nat) : List Nat :=
  let items := (n + 63) / 64 + 512
  if l.elastic && plWlAlloc plan then
    (64 + 32 * items) :: (if gaMask ga ≠ 0 && gaAlloc ga then [items * itemBytes (mdescOf (memItem s (gaTmpl ga)))] else [])
  else []

/-- The plan and gather entry of a launch, read as it takes its receive buffers; none where one cannot be read or fails its check. -/
def readPlan (l : Launch) : Act (Option (Item × Item)) := do
  let s ← look
  let pa := planAddr s l.part l.h
  let ga := gatherAddr s l.part l.h
  let good ← consume (dieND 0) l.h (some l.part) pa 64
  let shell := fieldOf s (rPart l.part 0x128) 14 38 != 0
  let good2 ← if shell then consume (dieND 0) l.h (some l.part) ga 64 else pure true
  let s ← look
  let plan := memItem s pa
  let gat := if shell then memItem s ga else 0
  if good && good2 then
    if ← gatherOk l plan gat then return some (plan, gat)
  return none

/-- EXCH_ALLOCATION (R101, R266): the oldest launch of the group that has no buffers, all its windows. -/
def allocAct (h : Nat) : Act Unit := do
  let s ← look
  match (launchesOf s h).find? (fun l => l.phase == .queued) with
  | none => return
  | some l =>
    let d := (groupOf s h).desc
    let sibs := (exchangeOf s l.part l.setId l.tag).filter (fun x => x.phase == .queued && x.kind == .dispatch)
    let n := dN d
    let ranks := List.range n
    if l.elastic then
      let want := sibs.flatMap (fun x => (ranks.map (fun r => (x.win, r, (dieN x (ownCounts s x r) x.caps).foldl (· + ·) 0))).filter (fun y => y.2.2 != 0))
      match (← poolBatch l.part (want.map (fun y => y.2.2 * l.tokenBytes))) with
      | none => allocFail l true
      | some bufs =>
        for x in sibs do
          modL x (fun x => { x with phase := .allocated, retBufs := (want.zip bufs).filterMap (fun y => if y.1.1 == x.win then some (x.win, y.1.2.1, y.2) else none) })
          askWindow x
    else
      match (← readPlan l) with
      | none => allocFail l false
      | some (plan, ga) =>
        let c := capSum l
        match (← poolBatch l.part (ranks.map (fun _ => c * (8 + l.tokenBytes)) ++ ranks.map (fun _ => c * l.tokenBytes))) with
        | none => allocFail l true
        | some bufs =>
          modL l (fun x => { x with phase := .allocated, retBufs := ranks.map (fun r => (0, r, bufs.getD (n + r) 0)) })
          takeRx l plan ga (rxSizes l n) (bufs.take n)
          askWindow l

/-- EXCH_ALLOCATION (R266). -/
def execExchAllocation (h : Fin 256) (s : State) : Host.Outcome State Fault Refusal := finish (allocAct h) s

/-- EXCH_LAUNCH_DONE (R97, R351): the oldest launch with buffers whose window grant is held. -/
def execExchLaunchDone (h : Fin 256) (s : State) : Host.Outcome State Fault Refusal :=
  finish (do
    let s ← look
    match (launchesOf s h).find? (fun l => l.phase == .allocated && holdsGrant s (windowHolder l)) with
    | none => return
    | some l =>
      if l.missed then ctr32 (rXg h 0x24)
      modL l (fun x => { x with phase := .ready })) s

/-! ## Windows (R90, R95, R97) -/

/-- The shares of a dispatch window to its destinations (R98); nothing goes where no byte would. -/
def dispatchTx (s : State) (l : Launch) : List TxShare :=
  let d := (genOf s l).1
  (List.range (dN d)).filterMap (fun r =>
    if r = dRank d then none else
      let pos := sharePos s l r
      let fs := shareFrames (8 * pos.length) pos.length l.tokenBytes (validPos pos)
      if fs.isEmpty then none else some { dst := r, frames := fs })

/-- The share to this device itself is copied (R91, R95). -/
def selfCopy (l : Launch) : Act Unit := do
  let s ← look
  let d := (genOf s l).1
  let me := dRank d
  match (← nowL l).rx.find? (fun x => x.src == me) with
  | none => return
  | some x =>
    match l.kind with
    | .dispatch =>
      let pos := sharePos s l me
      match (← shareBytes l (dieND 0) l.h pos 0 (pos.length * (8 + l.tokenBytes))) with
      | none => modRx l me (fun x => { x with discarded := true })
      | some b =>
        if b.length ≤ x.bytes then putBytes x.buf b
        deliver l me
    | .ret =>
      match l.tx.find? (fun t => t.dst == me) with
      | none => deliver l me
      | some t =>
        modTx l me (fun t => { t with acked := t.frames })
        if ← consume (dieND 0) l.h (some l.part) t.addr t.len then
          putBytes x.buf (memBytes (← look) t.addr t.len)
          deliver l me
        else modRx l me (fun x => { x with discarded := true })
    | .coll => return

/-- A window of a group opens (R90, R95): the launch it is meant for takes it, with the group's newest generation (R23); one that is not ready
is deferred, and no later launch goes ahead of it (R97). -/
def openWindow (h p fireFt period : Nat) : Act Unit := do
  let s ← look
  let g := groupOf s h
  let d := g.desc
  if !groupOn s h || dPart d ≠ p then raiseGroup 0x4003 2 h (some p)
  else
    let w := fireFt / period % 2 ^ 32
    let runs := jobState s p == 2 && fieldOf s (rSre 0 (0x108 + 0x10 * p)) 32 3 != 4
    let addWin := fun (due : Nat) => modGroup h (fun g => { g with wins := (g.wins.filter (fun x => ftNs s < x.2)) ++ [(w, due)] })
    match (if runs then nextLaunch s h else none) with
    | none => addWin (fireFt + dGrace d)
    | some l =>
      if l.phase = .ready then
        let wEnd := fireFt + windowLen s d l.elastic l.smax
        addWin (wEnd + dGrace d)
        modL l (fun x => { x with phase := .opened, window := w, openFt := fireFt, slotNs := slotT s d l.smax, wEnd := wEnd, deadline := wEnd + dGrace d
                                  held := some ((d, g.members), g.used), tx := if l.kind = .dispatch then dispatchTx s l else x.tx })
        unless l.elastic do selfCopy (← nowL l)
      else
        addWin (fireFt + dGrace d)
        modL l (fun x => { x with missed := true })

/-- XG_COUNT_ROUND (R96): the count frames of one count round leave, on one port each; only the first window of a submit sends them. -/
def countRound (l : Launch) (c : Nat) : Act Unit := do
  let s ← look
  let d := (genOf s l).1
  advanceFt (l.openFt + (c - 1) * countT d)
  for g in List.range 64 do
    let o := (c - 1) * 64 + g + 1
    if o ≤ dN d - 1 then
      let dst := (dRank d + o) % dN d
      let s ← look
      let xg := genOf s l
      match usable s l.h xg dst (if dMesh d then meshPorts d (o - 1) else [g]) with
      | [] => unless hasPath s l.h xg dst do lostPath l.h xg dst
      | port :: _ =>
        let cnt := ownCounts s l dst
        let v := (partOf s l.part).stepNo.toNat ||| l.windows <<< 48 ||| dRank d <<< 64 |||
          (List.range 4).foldl (fun a k => a ||| cnt.getD k 0 <<< (96 + 64 * k) ||| l.caps.getD k 0 <<< (128 + 64 * k)) 0
        sendOxt port 6 { ver2 := dVer2 d, typ := 3, dst := genNode xg dst, xgroup := l.h, jobGen := jobGen s l.part, part := l.part
                         round := c, window := l.window, udpSrc := some (0xC000 + port), payload := natBytes 64 v }
        ctr64 (rXg l.h 0)

/-- XG_COUNT_ROUND (R96). -/
def execXgCountRound (h : Fin 256) (round : BitVec 16) (s : State) : Host.Outcome State Fault Refusal :=
  finish (do
    let s ← look
    match currentL s h with
    | some l =>
      if l.kind = .dispatch && l.elastic && l.win = 0 && 1 ≤ round.toNat && round.toNat ≤ countRounds (genOf s l).1 then countRound l round.toNat
    | none => return) s

/-- A count frame comes (R96, R107). -/
def countFrame (f : Frame) : Act Unit := do
  if ← netRx f [6] then
    match (← acceptFrame f false) with
    | none => return
    | some (l, r) =>
      let h := l.h
      let b := leNat f.payload
      if f.payload.length ≠ 64 || !l.elastic || l.win ≠ 0 || l.kind ≠ .dispatch || l.rx ≠ [] then ctr32 (rXg h 0x20)
      else if tget [] l.counts r ≠ [] then ctr32 (rXg h 0x14)
      else
        let c := max 1 (bitsOf b 48 16) :: (List.range 4).flatMap (fun k => [bitsOf b (96 + 64 * k) 32, bitsOf b (128 + 64 * k) 16])
        modL l (fun x => { x with counts := tput [] x.counts r c })
        ctr64 (rXg h 8)

/-- OXT_COUNT_RX (R96, R107). -/
def execOxtCountRx (f : Frame) (s : State) : Host.Outcome State Fault Refusal := finishIf (oxtIs 3 f) (countFrame f) s

/-- XG_ALLOC_END (R96, R101, R207): the receive buffers of an Elastic window, from the counts; a source that counts more windows than this
device's submit makes the launch as long (log entry 22). -/
def allocEnd (l : Launch) : Act Unit := do
  let s ← look
  let d := (genOf s l).1
  advanceFt (l.openFt + countRounds d * countT d)
  if l.win = 0 then
    let s ← look
    let own := l.windows :: (List.range 4).flatMap (fun k => [(ownCounts s l (dRank d)).getD k 0, l.caps.getD k 0])
    let counts := tput [] l.counts (dRank d) own
    let n := counts.foldl (fun a x => max a (x.2.headD 1)) 1
    let extra := (List.range (n - l.windows)).map (fun k => ({ l with phase := .allocated, win := l.windows + k, tx := [], rx := [], counts, retBufs := [], held := none } : Launch))
    modLaunches (fun ls => ls.flatMap (fun x =>
      let x' : Launch := if x.part == l.part && x.setId == l.setId && x.tag == l.tag && x.kind == .dispatch then { x with counts := counts } else x
      if sameL x { l with win := l.windows - 1 } then x' :: extra else [x']))
    for x in extra do
      askWindow x
  let l ← nowL l
  match (← readPlan l) with
  | none => allocFail l false
  | some (plan, ga) =>
    let s ← look
    let want := rxSizes l (dN d)
    let total := want.foldl (fun a x => a + x.2) 0
    match (← poolBatch l.part (want.map (fun x => x.2 * (8 + l.tokenBytes)) ++ listSizes s l plan ga total)) with
    | none => allocFail l true
    | some bufs =>
      takeRx l plan ga want bufs
      selfCopy (← nowL l)
      for r in List.range (dN d) do
        checkDelivered l r

/-- XG_ALLOC_END (R96). -/
def execXgAllocEnd (h : Fin 256) (s : State) : Host.Outcome State Fault Refusal :=
  finish (do
    match currentL (← look) h with
    | some l => if l.kind = .dispatch && l.elastic && l.rx.isEmpty then allocEnd l
    | none => return) s

/-- XG_ROUND_START (R91, R95); Elastic data rounds wait for the receive buffers (R101). -/
def execXgRoundStart (h : Fin 256) (round : BitVec 16) (s : State) : Host.Outcome State Fault Refusal :=
  finish (do
    let s ← look
    match currentL s h with
    | some l =>
      let d := (genOf s l).1
      if 1 ≤ round.toNat && round.toNat ≤ nround d && !(l.elastic && l.kind == .dispatch && l.rx.isEmpty) then
        advanceFt (l.openFt + dataStart d l.elastic + (round.toNat - 1) * l.slotNs)
        roundStart l round.toNat
    | none => return) s

/-- XG_SLOT_END (R105): a SACK for each share of the round with frames still missing. -/
def execXgSlotEnd (h : Fin 256) (round : BitVec 16) (s : State) : Host.Outcome State Fault Refusal :=
  finish (do
    let s ← look
    match currentL s h with
    | some l =>
      let d := (genOf s l).1
      if 1 ≤ round.toNat && round.toNat ≤ nround d then
        advanceFt (slotEnd d l round.toNat)
        for x in l.rx do
          if x.src ≠ dRank d && roundOfSrc d x.src = round.toNat && !x.delivered && !x.discarded then sendAck l x.src 2 round.toNat
    | none => return) s

/-- Frames of a share that may go again (R106): owed, and retransmitted fewer than RETX_MAX times. -/
def dueFrames (s : State) (t : TxShare) : List Nat := (owed t).filter (fun k => tget 0 t.tries k < retxMax s)

/-- XG_WINDOW_END (R106): what is not acknowledged becomes the tail. -/
def execXgWindowEnd (h : Fin 256) (s : State) : Host.Outcome State Fault Refusal :=
  finish (do
    match (launchesOf (← look) h).find? (fun l => l.phase == .opened) with
    | some l =>
      advanceFt l.wEnd
      let s ← look
      modL l (fun x => { x with phase := .closed, tailAt := s.time.now })
      for t in l.tx do
        sendTail l t.dst (dueFrames s t)
    | none => return) s

/-- OXT_TAIL_RETX_TIMER (R106): tail frames still owed go again, up to RETX_MAX times each. -/
def execOxtTailRetxTimer (h : Fin 256) (s : State) : Host.Outcome State Fault Refusal :=
  finish (do
    let s ← look
    match (launchesOf s h).find? (fun l => l.phase == .closed && l.tx.any (fun t => !(dueFrames s t).isEmpty)) with
    | some l =>
      advanceTo (l.tailAt + ackTo s)
      let now := (← look).time.now
      modL l (fun x => { x with tailAt := now })
      for t in l.tx do
        sendTail l t.dst (dueFrames s t)
    | none => return) s

/-- XG_DELIVERY_DEADLINE (R72, R106, R107): incomplete shares are discarded whole and their sources are DEAD; the window's grant ends (R345). -/
def deadlineAct (l : Launch) : Act Unit := do
  let s ← look
  let d := (genOf s l).1
  advanceFt l.deadline
  modL l (fun x => { x with past := true })
  for x in l.rx do
    if !x.delivered && !x.discarded && x.src ≠ dRank d then
      modRx l x.src (fun x => { x with discarded := true })
      ctr32 (rXg l.h 0x30)
      markDead l.part l.h (genNode (genOf s l) x.src) x.src (if l.kind = .coll then 2 else 0)
  dropGrant (windowHolder l)
  match l.kind with
  | .ret => finishExchange l.part l.setId l.tag
  | .dispatch => pure ()
  | .coll =>
    if l.rx.any (fun x => !x.delivered && x.src != dRank d) then
      modColls (fun cs => cs.map (fun c => if c.h == l.h && c.pass == l.win && ibits c.desc 320 32 == l.tag && c.status.isNone then { c with status := some 1 } else c))
    dropL l
  xgRelease l.h

/-- XG_DELIVERY_DEADLINE (R107). -/
def execXgDeliveryDeadline (h : Fin 256) (s : State) : Host.Outcome State Fault Refusal :=
  finish (do
    match (launchesOf (← look) h).find? (fun l => l.phase == .closed && !l.past && !l.stream) with
    | some l => deadlineAct l
    | none => return) s

/-! ## The return exchange (R103, R204) -/

/-- The return shares this device sends for a dispatch window (R103): the payload area of each delivered share. -/
def returnTx (s : State) (l : Launch) : List TxShare :=
  l.rx.filterMap (fun x =>
    let v := (validEntries s x).map (·.1)
    if x.delivered && !v.isEmpty then
      some { dst := x.src, frames := shareFrames 0 x.npos l.tokenBytes v, addr := x.buf + 8 * x.npos, len := x.npos * l.tokenBytes }
    else none)

/-- The returns this device awaits: its own routes of the window. -/
def returnRx (s : State) (l : Launch) : List RxShare :=
  l.retBufs.filterMap (fun b =>
    let pos := sharePos s l b.2.1
    let v := validPos pos
    if v.isEmpty then none
    else some { src := b.2.1, buf := b.2.2, npos := pos.length, bytes := pos.length * l.tokenBytes, form := 1
                need := shareFrames 0 pos.length l.tokenBytes v })

/-- RETURN_LAUNCH (R103, R204, R207). -/
def returnAct (h : Nat) : Act Unit := do
  let s ← look
  let pipKeyOf := fun (l : Launch) => pipKey l.part (fieldOf s (rPart l.part 0x28) 0 4) (plDoneCore l.plan) (plDonePip l.plan)
  match (launchesOf s h).find? (fun l => l.kind == .dispatch && !l.retLaunched && !l.rx.isEmpty && (l.phase == .opened || l.phase == .closed) &&
      plDoneCount l.plan ≤ (pipOf s (pipKeyOf l)).toNat) with
  | none => return
  | some l =>
    eff (.pip (pipKeyOf l) (BitVec.ofNat 16 ((pipOf s (pipKeyOf l)).toNat - plDoneCount l.plan)))
    freeAll l.part (listBufs l)
    let s ← look
    modL l (fun x => { x with retLaunched := true, wl := 0, area := 0 })
    let r : Launch := { h, part := l.part, setId := l.setId, tag := l.tag, kind := .ret, phase := .allocated, tokenBytes := l.tokenBytes, smax := l.smax
                        caps := l.caps, win := l.win, windows := l.windows, tx := returnTx s l, rx := returnRx s l }
    modLaunches (fun ls => ls ++ [r])
    askWindow r

/-- RETURN_LAUNCH (R103). -/
def execReturnLaunch (h : Fin 256) (s : State) : Host.Outcome State Fault Refusal := finish (returnAct h) s

/-! ## The routed-token gather (R230, R231) -/

/-- A counter of the Sheller of core group `g` (R235). -/
def rShell (g off : Nat) : Nat := rCmp (g / 2) (0x3000 + g % 2 * 0x40 + off)

/-- The core group whose Sheller takes rank `r`'s share (R230). -/
def shellerOf (mask r : Nat) : Nat :=
  let gs := (List.range 64).filter (fun g => bitsOf mask g 1 == 1)
  gs.getD (r % gs.length) 0

/-- The gather area of a launch. -/
def areaOf (l : Launch) : Nat := if l.area ≠ 0 then l.area else gaArea l.gather

/-- Gather one position (R230); poison in it leaves it out (R374). -/
def gatherPosition (l : Launch) (x : RxShare) (t : Mdesc) (g i e : Nat) : Act Unit := do
  let a := x.buf + 8 * x.npos + i * l.tokenBytes
  let mxb := if isMx t.fmt then (t.cols + 31) / 32 else 0
  if !(← consume (g / 2) (64 + g % 2) (some l.part) a (t.rowBytes + mxb)) then return
  let l ← nowL l
  let slot := bitsOf e 0 9
  let row := tget 0 l.slotRows slot
  let items := if row % 64 = 0 then l.items ++ [(slot, row / 64)] else l.items
  let it := (items.zipIdx.find? (fun y => y.1 == (slot, row / 64))).elim 0 (·.2)
  modL l (fun y => { y with slotRows := tput 0 y.slotRows slot (row + 1), items := items, rowmap := y.rowmap ++ [(slot, row, a)] })
  let ib := itemBytes t
  let base := areaOf l + it * ib
  let j := row % 64
  if ← unitWrite (g / 2) (64 + g % 2) l.part base ib then
    let s ← look
    putBytes (base + j * t.stride) (memBytes s a t.rowBytes)
    if mxb ≠ 0 then putBytes (base + 64 * t.stride + j * t.sstride) (memBytes s (a + t.rowBytes) mxb)
    putNat (base + ib - 512 + 8 * j) 8 a
  ctr64 (rShell g 0) (t.rowBytes + mxb)
  ctr64 (rShell g 8)

/-- SHELLER_GATHER (R230): the Sheller of a delivered share gathers its positions. -/
def execShellerGather (h : Fin 256) (rank : BitVec 14) (s : State) : Host.Outcome State Fault Refusal :=
  finish (do
    let s ← look
    match (launchesOf s h).find? (fun l => l.kind == .dispatch && gaMask l.gather != 0 && !l.gatherClosed &&
        l.rx.any (fun x => x.src == rank.toNat && x.delivered && !x.gathered)) with
    | none => return
    | some l =>
      match l.rx.find? (fun x => x.src == rank.toNat) with
      | none => return
      | some x =>
        let t := mdescOf (memItem s (gaTmpl l.gather))
        for e in validEntries s x do
          gatherPosition l x t (shellerOf (gaMask l.gather) rank.toNat) e.1 e.2
        modRx l rank.toNat (fun x => { x with gathered := true })) s

/-- GATHER_CLOSE (R231): items, the work-list header, and the header pip. -/
def execGatherClose (h : Fin 256) (s : State) : Host.Outcome State Fault Refusal :=
  finish (do
    let s ← look
    match (launchesOf s h).find? (fun l => l.kind == .dispatch && gaMask l.gather != 0 && !l.gatherClosed && !l.rx.isEmpty &&
        l.rx.all (fun x => x.discarded || (x.delivered && x.gathered))) with
    | none => return
    | some l =>
      let t := mdescOf (memItem s (gaTmpl l.gather))
      let wl := if l.wl ≠ 0 then l.wl else plWl l.plan
      let ib := itemBytes t
      let g0 := shellerOf (gaMask l.gather) 0
      for x in l.items.zipIdx do
        let rows := min 64 (tget 0 l.slotRows x.1.1 - 64 * x.1.2)
        let base := areaOf l + x.2 * ib
        for j in List.range 64 do
          if rows ≤ j then putNat (base + ib - 512 + 8 * j) 8 0
        putNat (wl + 64 + 32 * x.2) 32 (rows ||| x.1.1 <<< 16 ||| base <<< 64 ||| (base + ib - 512) <<< 128)
        ctr32 (rShell g0 0x10)
      putNat wl 64 (l.items.length ||| gaSlotTab l.gather <<< 128 ||| plDoneCore l.plan <<< 192 ||| plDonePip l.plan <<< 208)
      modL l (fun x => { x with gatherClosed := true })
      unitSignal (g0 / 2) (64 + g0 % 2) l.part (gaHdrCore l.gather) (gaHdrPip l.gather) (plDoneCount l.plan)) s

end Sys2Proof.Machine
end

