-- ==== Sys2Proof/Machine/Collective.lean ====
section
/-!
DEFINITION. Collectives (R114–R116) and the exact reduction (R109–R113, R382), with the frames that carry shares (R105, R107).
-/

namespace Sys2Proof.Machine

/-! ## The descriptor (R114) -/

def coOp (x : Item) : Nat := ibits x 0 3
def coRed (x : Item) : Nat := ibits x 3 2
def coStream (x : Item) : Bool := ibits x 5 1 == 1
def coIn (x : Item) : Nat := ibits x 8 4
def coOut (x : Item) : Nat := ibits x 12 4
def coRoot (x : Item) : Nat := ibits x 16 14
def coGroup (x : Item) : Nat := ibits x 32 16
def coPip (x : Item) : Nat := ibits x 48 6
def coCore (x : Item) : Nat := ibits x 64 11
def coCount (x : Item) : Nat := ibits x 96 32
def coSrc (x : Item) : Nat := ibits x 128 52
def coDst (x : Item) : Nat := ibits x 192 52
def coStatus (x : Item) : Nat := ibits x 256 52
def coTag (x : Item) : Nat := ibits x 320 32

/-- The operation sums or compares. -/
def reduces (x : Item) : Bool := coOp x ≤ 1

/-- A second pass follows: the reduced chunks go to the ranks that need them (R108, R115). -/
def twoPasses (g : XgGen) (x : Item) : Bool := coOp x = 0 || (coOp x = 1 && dVer2 g.1)

/-! ## Chunks and frames (R108, R109, R115) -/

/-- First element and length of chunk `c`: ⌈COUNT ÷ (32 N)⌉ blocks of ALL_REDUCE, COUNT elements of REDUCE_SCATTER. -/
def chunkOf (x : Item) (n c : Nat) : Nat × Nat :=
  if coOp x = 1 then (c * coCount x, coCount x)
  else
    let len := (coCount x + 32 * n - 1) / (32 * n) * 32
    let a := min (c * len) (coCount x)
    (a, min len (coCount x - a))

/-- The ranks that reduce (R108): in a version 2 group the Moquin ones, of which this device is one. -/
def moquinRanks (g : XgGen) : List Nat := (List.range (dN g.1)).filter (fun r => !dVer2 g.1 || r == dRank g.1 || Config.isMoquin (genNode g r))

/-- The rank that reduces chunk `c`: dealt in rotation over those ranks, in rank order (R108). -/
def reducerOf (g : XgGen) (c : Nat) : Nat :=
  let m := moquinRanks g
  m.getD (c % m.length) 0

/-- The chunks that rank `r` reduces. -/
def chunksOf (g : XgGen) (r : Nat) : List Nat := (List.range (dN g.1)).filter (fun c => reducerOf g c == r)

/-- Blocks of a chunk of `len` elements. -/
def blocksOf (len : Nat) : Nat := (len + 31) / 32

/-- The blocks that rank `r` reduces: first element, and elements that are not padding. -/
def redBlocks (g : XgGen) (x : Item) (r : Nat) : List (Nat × Nat) :=
  (chunksOf g r).flatMap (fun c =>
    let (a, len) := chunkOf x (dN g.1) c
    (List.range (blocksOf len)).map (fun b => (a + 32 * b, min 32 (len - 32 * b))))

/-- Blocks in a full REDUCE frame (R109). -/
def bpf (fmt : Nat) : Nat := if elBytes fmt = 2 then 126 else 63

/-- Bytes of exponents ahead of `k` blocks, padded to 8 bytes; none for INT32 (R109, R110). -/
def expBytes (fmt k : Nat) : Nat := if fmt = 0xA then 0 else (k + 7) / 8 * 8

/-- Bytes of a frame of `k` blocks, and of a full one. -/
def redLen (fmt k : Nat) : Nat := expBytes fmt k + k * 32 * elBytes fmt
def redFull (fmt : Nat) : Nat := redLen fmt (bpf fmt)

/-- Frames that `n` blocks take, the blocks of frame `k`, and the bytes of the whole share. -/
def redFrames (fmt n : Nat) : Nat := (n + bpf fmt - 1) / bpf fmt
def frameBlocks (fmt k : Nat) (bs : List (Nat × Nat)) : List (Nat × Nat) := (bs.drop (k * bpf fmt)).take (bpf fmt)
def redBytes (fmt n : Nat) : Nat := (List.range (redFrames fmt n)).foldl (fun a k => a + redLen fmt (min (bpf fmt) (n - k * bpf fmt))) 0

/-- The 32 codes of a block of the source at `a`; a final partial block is padded with +0. -/
def blockCodes (s : State) (fmt a : Nat) (b : Nat × Nat) : List Nat :=
  (List.range 32).map (fun i => if i < b.2 then memNat s (a + (b.1 + i) * elBytes fmt) (elBytes fmt) else 0)

/-- The bytes of a frame of contributions (R109). -/
def redFrame (s : State) (fmt a : Nat) (bs : List (Nat × Nat)) : List Byte :=
  let codes := bs.map (blockCodes s fmt a)
  let eb := expBytes fmt bs.length
  (codes.map (fun c => BitVec.ofNat 8 (blockExp fmt c)) ++ List.replicate (eb - bs.length) 0).take eb ++
    codes.flatMap (fun c => c.flatMap (natBytes (elBytes fmt)))

/-! ## Passes (R115) -/

/-- The launch that carries a collective's running pass. -/
def collLaunch (s : State) (c : Coll) : Option Launch :=
  (launchesOf s c.h).find? (fun l => l.kind == .coll && l.win == c.pass && l.tag == coTag c.desc)

def modColl (h : Nat) (f : Coll → Coll) : Act Unit := modColls (fun l => l.map (fun c => if c.h == h then f c else c))

/-- The running pass reduces. -/
def passReduces (c : Coll) : Bool := reduces c.desc && c.pass == 0

/-- The generation that a collective works by. -/
def collGen (s : State) (c : Coll) : XgGen :=
  match collLaunch s c with
  | some l => genOf s l
  | none => newGen s c.h

/-- A share of the bytes of a list, in frames of 8,192. -/
def dataShare (dst typ : Nat) (bs : List Byte) : TxShare :=
  let ks := List.range ((bs.length + 8191) / 8192)
  { dst, typ, frames := ks, data := ks.map (fun k => (k, (bs.drop (8192 * k)).take 8192)) }

/-- A share of runs of bytes in memory; an error in the source stops it (R374). -/
def plainShare (h p dst : Nat) (runs : List (Nat × Nat)) : Act TxShare := do
  let good ← if runs.isEmpty then pure true else consumeRuns (dieND 0) h (some p) runs
  let s ← look
  return { dataShare dst 0 (runs.flatMap (fun r => memBytes s r.1 r.2)) with stopped := !good }

/-- Where the reduced chunks of rank `r` lie in DST of an ALL_REDUCE. -/
def gatherRuns (g : XgGen) (x : Item) (r : Nat) : List (Nat × Nat) :=
  ((chunksOf g r).map (chunkOf x (dN g.1))).filterMap (fun y =>
    if y.2 = 0 then none else some (coDst x + y.1 * elBytes (coOut x), y.2 * elBytes (coOut x)))

/-- The contributions to the blocks that rank `r` reduces. -/
def redShare (c : Coll) (g : XgGen) (r : Nat) : Act (Option TxShare) := do
  let x := c.desc
  let fi := coIn x
  let bs := redBlocks g x r
  if bs.isEmpty then return none
  let good ← consumeRuns (dieND 0) c.h (some c.part) (bs.map (fun b => (coSrc x + b.1 * elBytes fi, b.2 * elBytes fi)))
  let s ← look
  let ks := List.range (redFrames fi bs.length)
  return some { dst := r, typ := if dVer2 g.1 then 0 else 4, frames := ks, stopped := !good
                data := ks.map (fun k => (k, redFrame s fi (coSrc x) (frameBlocks fi k bs))) }

/-- What the running pass sends. -/
def passTx (c : Coll) (g : XgGen) : Act (List TxShare) := do
  let x := c.desc
  let es := elBytes (coIn x)
  let own := [(coSrc x, coCount x * es)]
  let others := othersOf g
  if passReduces c then
    let l ← others.mapM (redShare c g)
    return l.filterMap id
  else
    match coOp x with
    | 0 =>
      let runs := gatherRuns g x (dRank g.1)
      if runs.isEmpty then return []
      others.mapM (fun r => plainShare c.h c.part r runs)
    | 1 => return ((chunksOf g (dRank g.1)).filter (· != dRank g.1)).map (fun r =>
        dataShare r 0 ((List.range (coCount x)).flatMap (fun i => natBytes (elBytes (coOut x)) (tget 0 c.kept (r * coCount x + i)))))
    | 2 => others.mapM (fun r => plainShare c.h c.part r own)
    | 3 => if coRoot x = dRank g.1 then others.mapM (fun r => plainShare c.h c.part r own) else return []
    | 4 =>
      let b ← drawBytes 64
      return others.map (fun r => { dst := r, frames := [0], data := [(0, b)] })
    | _ => return []

/-- A share of plain bytes to come, into the pieces of memory that take it. -/
def plainRx (r : Nat) (runs : List (Nat × Nat)) : RxShare :=
  let n := (runs.map (·.2)).foldl (· + ·) 0
  { src := r, buf := (runs.map (·.1)).headD 0, npos := 0, bytes := n, form := 2, pieces := if runs.length ≤ 1 then [] else runs
    need := List.range ((n + 8191) / 8192) }

/-- What the running pass receives: source, bytes, frames, form, and where it goes; a reduction's buffers come from the pools. -/
def passRx (c : Coll) (g : XgGen) : List RxShare :=
  let x := c.desc
  let me := dRank g.1
  let others := othersOf g
  let es := elBytes (coIn x)
  let nb := (redBlocks g x me).length
  if passReduces c then
    if nb = 0 then [] else
      others.map (fun r => { src := r, buf := 0, npos := 0, bytes := redBytes (coIn x) nb, form := 4, need := List.range (redFrames (coIn x) nb) })
  else
    match coOp x with
    | 0 => (others.map (fun r => plainRx r (gatherRuns g x r))).filter (fun y => y.bytes != 0)
    | 1 => if reducerOf g me = me then [] else [plainRx (reducerOf g me) [(coDst x, coCount x * elBytes (coOut x))]]
    | 2 => others.map (fun r => plainRx r [(coDst x + r * coCount x * es, coCount x * es)])
    | 3 => if coRoot x = me then [] else [plainRx (coRoot x) [(coDst x, coCount x * es)]]
    | 4 => others.map (fun r => { src := r, buf := 0, npos := 0, bytes := 64, form := 3, need := [0] })
    | _ => []

/-- The bytes a rank keeps for itself: its own part of ALL_GATHER and BROADCAST. -/
def passSelf (c : Coll) (g : XgGen) : Act Unit := do
  let x := c.desc
  let d := g.1
  let n := coCount x * elBytes (coIn x)
  let target := if coOp x = 2 then some (coDst x + dRank d * n) else if coOp x = 3 && coRoot x = dRank d then some (coDst x) else none
  match target with
  | none => return
  | some a =>
    if ← consume (dieND 0) c.h (some c.part) (coSrc x) n then putBytes a (memBytes (← look) (coSrc x) n)
    else modColl c.h (fun c => { c with status := some 1 })

/-! ## The reduction of a frame's blocks -/

/-- Where element `e` of a reduction goes: into DST, or on to the rank whose chunk it is (R108). -/
def putReduced (c : Coll) (g : XgGen) (e v : Nat) : Act Unit := do
  let x := c.desc
  let os := elBytes (coOut x)
  if coOp x = 0 then putNat (coDst x + e * os) os v
  else if e / coCount x = dRank g.1 then putNat (coDst x + (e - dRank g.1 * coCount x) * os) os v
  else modColl c.h (fun c => { c with kept := tput 0 c.kept e v })

/-- Reduce one block, the `b`-th of frame `k` with `nb` blocks (R109–R112); a block with a second mismatch is not written (R116). Answers
whether it is. -/
def reduceOne (c : Coll) (l : Launch) (g : XgGen) (k nb b : Nat) (blk : Nat × Nat) (us : List Upset) : Act Bool := do
  let s ← look
  let x := c.desc
  let fi := coIn x
  let at_ := fun (r : RxShare) => r.buf + redFull fi * k
  let own := blockCodes s fi (coSrc x) blk
  let parts := own :: l.rx.map (fun r => (List.range 32).map (fun i => memNat s (at_ r + expBytes fi nb + (b * 32 + i) * elBytes fi) (elBytes fi)))
  let big := (l.rx.map (fun r => if fi = 0xA then 0 else (memAt s (at_ r + b)).toNat)).foldl max (blockExp fi own)
  let res := reduceBlock (coRed x) fi (coOut x) big blk.1 blk.2 us parts
  for y in res.zipIdx do
    reportSum c.h c.part (blk.1 + y.2) y.1.2
  partFlags c.part (res.foldl (fun a y => a ||| y.1.2) 0)
  if res.any (fun y => y.2 == .failed) then return false
  for y in res.zipIdx do
    putReduced c g (blk.1 + y.2) y.1.1.1
  return true

/-- Reduce the blocks of frame `k` of this rank's chunks. -/
def reduceFrame (c : Coll) (l : Launch) (g : XgGen) (k : Nat) (us : List Upset) : Act Unit := do
  let x := c.desc
  let fi := coIn x
  let bs := frameBlocks fi k (redBlocks g x (dRank g.1))
  modColl c.h (fun c => { c with reduced := c.reduced ++ [k] })
  let own := bs.map (fun b => (coSrc x + b.1 * elBytes fi, b.2 * elBytes fi))
  let come := l.rx.map (fun r => (r.buf + redFull fi * k, redLen fi bs.length))
  if !(← consumeRuns (dieND 0) c.h (some c.part) (own ++ come)) then
    modColl c.h (fun c => { c with status := some 1 })
  else
    for y in bs.zipIdx do
      if !(← reduceOne c l g k bs.length y.2 y.1 us) then modColl c.h (fun c => { c with status := some 2 })

/-- Reduce every frame whose contributions are all here. -/
def reduceReady (h : Nat) (us : List Upset) : Act Unit := do
  let s ← look
  match s.colls.find? (fun c => c.h == h && c.status.isNone) with
  | none => return
  | some c =>
    match collLaunch s c with
    | none => return
    | some l =>
      if passReduces c then
        let g := genOf s l
        for k in List.range (redFrames (coIn c.desc) (redBlocks g c.desc (dRank g.1)).length) do
          if !c.reduced.contains k && l.rx.all (fun x => x.placed.contains k) then reduceFrame c l g k us

/-- A pass begins: its buffers, then a launch for its window, or its frames at once on VC5 (R115). A STREAMED pass takes the group's newest
generation (R23). -/
def startPass (h : Nat) (us : List Upset) : Act Unit := do
  let s ← look
  match s.colls.find? (fun c => c.h == h) with
  | none => return
  | some c =>
    let g := newGen s h
    let want := passRx c g
    let take := passReduces c
    let got ← if take then poolBatch c.part (want.map (·.bytes)) else pure (some [])
    match got with
    | none =>
      ctr32 (rXg h 0x28)
      raiseGroup 0x4005 2 h (some c.part)
      modColl h (fun c => { c with status := some 3 })
    | some bufs =>
      modColl h (fun c => { c with bufs := c.bufs ++ bufs })
      let rx : List RxShare := if take then want.zipIdx.map (fun y => { y.1 with buf := bufs.getD y.2 0 }) else want
      let tx : List TxShare ← passTx c g
      passSelf c g
      let txLen := fun (t : TxShare) => (t.data.map (fun (y : Nat × List Byte) => y.2.length)).foldl (· + ·) 0
      let smax := (tx.map txLen ++ rx.map (fun (x : RxShare) => x.bytes)).foldl max 0
      let l : Launch := { h, part := c.part, setId := 0, tag := coTag c.desc, kind := .coll, phase := if coStream c.desc then .closed else .allocated
                          stream := coStream c.desc, smax, win := c.pass, windows := 1, tx, rx, tailAt := (← look).time.now
                          held := if coStream c.desc then some (g, (groupOf s h).used) else none }
      modLaunches (fun ls => ls.filter (fun y => !(y.h == h && y.kind == .coll)) ++ [l])
      if coStream c.desc then
        for t in tx do
          let ps := usable (← look) h g t.dst (portsTo g.1 t.dst)
          if ps.isEmpty then lostPath h g t.dst else sendOver l t.dst ps t.frames 0 false
      else askWindow l
      reduceReady h us

/-- The checks on a descriptor (R88, R100, R114, R116, R290). -/
def collOk (s : State) (h : Nat) (x : Item) : Bool :=
  let d := (groupOf s h).desc
  let p := dPart d
  let fok := fun (f : Nat) => f ≤ 2 || f == 0xA
  let n := dN d
  let es := elBytes (coIn x)
  let os := elBytes (coOut x)
  let c := coCount x
  groupOn s h && coOp x ≤ 4 && coGroup x == h && dJobGen d == jobGen s p && jobState s p == 2 && belongs s p (coStatus x) 8 &&
    coRed x != 3 && fok (coIn x) && fok (coOut x) && (coOut x != 0xA || coIn x == 0xA) &&
    (coOp x == 4 ||
      (c != 0 && (coOp x != 3 || coRoot x < n) &&
        ((coOp x == 3 && coRoot x != dRank d) || belongs s p (coSrc x) (c * es * (if coOp x = 1 then n else 1))) &&
        belongs s p (coDst x) (if coOp x = 2 then n * c * es else if coOp x = 3 then c * es else c * os)))

/-- The network die takes a descriptor for group `h` from the queue `q` (R88, R114): its own, but for one that names another enabled group of the
same queue; a group that is not enabled takes only what names it, from the queue of its last descriptor. -/
def collMine (s : State) (h q : Nat) (x : Item) : Bool :=
  let k := coGroup x
  if k = h then true
  else groupOn s h && !(groupOn s k && dCollQ (groupOf s k).desc == q)

/-- COLLECTIVE_START (R88, R114, R116): the network die takes one descriptor of the group at a time from COLL_Q. -/
def collStartAct (h : Nat) (us : List Upset) : Act Unit := do
  let s ← look
  let d := (groupOf s h).desc
  let q := dCollQ d
  if !qEn s q || qCons s q ≠ 2 || qPart s q ≠ dPart d || s.colls.any (fun c => c.h == h) ||
      !((queueOf s q).items.head?).any (fun it => it.gap || collMine s h q it.data) then return
  match (← qPopItem q (dieND (qCunit s q))) with
  | none => return
  | some it =>
    if it.gap then return
    let s ← look
    let x := it.data
    let bad := !collOk s h x
    modColls (fun l => l ++ [{ h, part := dPart d, desc := x, startAt := s.time.now, status := if bad then some 4 else none }])
    if bad then raiseGroup 0x4003 2 h (some (dPart d)) else startPass h us

/-- COLLECTIVE_START (R114). -/
def execCollectiveStart (x : CollStart) (s : State) : Host.Outcome State Fault Refusal := finish (collStartAct x.h x.upsets) s

/-- The running pass is over at this rank: everything has come and been reduced, and what it sent is acknowledged or its window is past. -/
def passOver (s : State) (c : Coll) : Bool :=
  match collLaunch s c with
  | none => true
  | some l =>
    let g := genOf s l
    l.rx.all (·.delivered) && l.tx.all (fun t => (owed t).isEmpty) &&
      (!passReduces c || (List.range (redFrames (coIn c.desc) (redBlocks g c.desc (dRank g.1)).length)).all (fun k => c.reduced.contains k))

/-- A collective is over: buffers, launch and grant go back, the status word is written, NOTIFY_PIP is signalled (R116). -/
def collFinish (c : Coll) (status : Nat) : Act Unit := do
  let s ← look
  match collLaunch s c with
  | some l => dropGrant (windowHolder l)
  | none => pure ()
  modLaunches (fun ls => ls.filter (fun l => !(l.h == c.h && l.kind == .coll)))
  modColls (fun l => l.filter (fun y => y.h != c.h))
  xgRelease c.h
  freeAll c.part c.bufs
  let a := coStatus c.desc
  if ← unitWrite (dieND 0) c.h c.part a 8 then putNat a 8 (status ||| coTag c.desc <<< 32)
  unitSignal (dieND 0) c.h c.part (coCore c.desc) (coPip c.desc)

/-- COLLECTIVE_COMPLETE (R115, R116): ALL_REDUCE goes on with its all-gather; else the collective ends. -/
def collCompleteAct (h : Nat) : Act Unit := do
  let s ← look
  match s.colls.find? (fun c => c.h == h) with
  | none => return
  | some c =>
    match c.status with
    | some st => collFinish c st
    | none =>
      if passOver s c then
        if twoPasses (collGen s c) c.desc && c.pass = 0 then
          match collLaunch s c with
          | some l => dropGrant (windowHolder l)
          | none => pure ()
          modColl h (fun c => { c with pass := 1 })
          startPass h []
        else collFinish c 0

/-- COLLECTIVE_COMPLETE (R116). -/
def execCollectiveComplete (h : Fin 256) (s : State) : Host.Outcome State Fault Refusal := finish (collCompleteAct h) s

/-- The members that have not delivered all they owe to a collective (R116): whoever is to send in a pass still to come, or has not in the one
that runs. -/
def collLate (g : XgGen) (c : Coll) (l : Launch) : List Nat :=
  let now := (l.rx.filter (fun x => !x.delivered)).map (·.src)
  if twoPasses g c.desc && c.pass = 0 then
    othersOf g |>.filter (fun r => now.contains r || (passRx { c with pass := 1 } g).any (fun x => x.src == r))
  else now

/-- COLL_TIMEOUT (R116): a STREAMED collective whose member has not delivered fails with PEER_DEAD. -/
def collTimeoutAct (h : Nat) : Act Unit := do
  let s ← look
  match s.colls.find? (fun c => c.h == h && coStream c.desc && c.status.isNone) with
  | none => return
  | some c =>
    advanceTo (c.startAt + dCollTo (collGen s c).1)
    match collLaunch (← look) c with
    | none => return
    | some l =>
      let g := genOf s l
      let late := collLate g c l
      for r in late do
        markDead c.part h (genNode g r) r 2
      unless late.isEmpty do modColl h (fun c => { c with status := some 1 })

/-- COLL_TIMEOUT (R116). -/
def execCollTimeout (h : Fin 256) (s : State) : Host.Outcome State Fault Refusal := finish (collTimeoutAct h) s

/-! ## Frames that carry shares (R105, R107) -/

/-- A frame of a share: placed, counted, acknowledged; delivery and reduction follow. -/
def shareFrameRx (f : Frame) (red : Bool) (us : List Upset) : Act Unit := do
  if ← netRx f [5, 6] then
    match (← acceptFrame f (f.pcp.val == 5)) with
    | none => return
    | some (l, r) =>
      let fits := fun (x : RxShare) => x.src == r && (if x.form = 4 then red || f.ver2 else !red)
      match l.rx.find? fits with
      | none => ctr32 (rXg l.h 0x20)
      | some x =>
        if ← placeFrame l x f then
          checkDelivered l r
          let done := ((← nowL l).rx.find? (fun y => y.src == r)).elim false (·.delivered)
          if f.last || f.retx || (done && !x.delivered) then sendAck l r 1 f.round.toNat
          reduceReady l.h us

/-- OXT_DATA_RX (R99, R105, R107). -/
def execOxtDataRx (x : ShareFrame) (s : State) : Host.Outcome State Fault Refusal :=
  finishIf (oxtIs 0 x.frame) (shareFrameRx x.frame false x.upsets) s
/-- OXT_REDUCE_RX (R109–R112): faults of the adder come with the frame that completes the contributions. -/
def execOxtReduceRx (f : Frame) (upsets : List Upset) (s : State) : Host.Outcome State Fault Refusal :=
  finishIf (oxtIs 4 f) (shareFrameRx f true upsets) s

end Sys2Proof.Machine
end

