-- ==== Sys2Proof/Machine/Sched.lean ====
section
/-!
DEFINITION. Steps, statistics snapshots and the Scheduled Event Table (R35–R47).
-/

namespace Sys2Proof.Machine

/-! ## Snapshots (R46, R47) -/

def snapBase (s : State) (p : Nat) : Nat := fieldOf s 0x060040 27 25 * 2 ^ 27 + p * 0x200000

/-- Offset of a counter word in the bank of partition `p`; none where its owner does not belong to `p` (R47). -/
def snapSlot (s : State) (p off : Nat) : Option Nat :=
  let cg := fun k => bitsOf (partOf s p).map.cg.toNat k 1 == 1
  let inP := off - rPart p 0
  if off / 0x100000 = 8 then
    let d := (off - 0x800000) / 0x8000
    let o := off % 0x8000
    let core := fun k => d * 64 + k
    if o / 0x1000 = 2 then (if coreOfPart s p (core (o % 0x1000 / 0x40)) then some (0x40000 + core (o % 0x1000 / 0x40) * 0x80 + o % 0x40) else none)
    else if o / 0x1000 = 4 then (if coreOfPart s p (core (o % 0x1000 / 0x20)) then some (0x40040 + core (o % 0x1000 / 0x20) * 0x80 + o % 0x20) else none)
    else if o / 0x1000 = 5 then (if coreOfPart s p (core (o % 0x1000 / 0x20)) then some (0x40060 + core (o % 0x1000 / 0x20) * 0x80 + o % 0x20) else none)
    else if o / 0x80 = 0x60 then (if cg (2 * d + o % 0x80 / 0x40) then some (0x80000 + (2 * d + o % 0x80 / 0x40) * 0x40 + o % 0x40) else none)
    else if o / 0x80 = 0x61 then
      let other := (List.range 64).any (fun x => x != p && bitsOf (partOf s x).map.cg.toNat (2 * d) 1 == 1)
      if cg (2 * d) || (cg (2 * d + 1) && !other) then some (0x81000 + d * 0x20 + o % 0x20) else none
    else none
  else if 0x2C0000 ≤ off && off < 0x2E0000 then
    let q := (off - 0x2C0000) / 0x20
    if qPart s q = p then some (0x20000 + q * 0x20 + off % 0x20) else none
  else if 0x320000 + p * 0x40 ≤ off && off < 0x320040 + p * 0x40 then some (0x400 + off % 0x40)
  else if 0x450000 ≤ off && off < 0x458000 then
    let h := (off - 0x450000) / 0x80
    if dPart (groupOf s h).desc = p then some (0x1000 + h * 0x80 + off % 0x80) else none
  else if off / 0x100000 = 6 then
    let d := (off - 0x600000) / 0x10000
    let o := off % 0x10000
    if 0x8000 ≤ o then
      let r := d * 256 + (o - 0x8000) / 0x40 % 256
      if rcPart (rcfgOf s r) = p && (o - 0x8000) / 0x40 < 256 then some (0x10000 + r * 0x40 + o % 0x40) else none
    else if d = p % 4 && 0x1800 + p * 0x10 ≤ o && o < 0x1810 + p * 0x10 then some (0x440 + o % 0x10)
    else none
  else if rPart p 0 ≤ off then
    if 0x900 ≤ inP && inP < 0x980 && inP ≠ 0x938 then some (0x100 + (inP - 0x900))
    else if 0x400 ≤ inP && inP < 0x590 then some (0x200 + (inP - 0x400))
    else none
  else none

/-- The bits of a counter word that are step-latched (R313). -/
def snapMask (p off : Nat) : Nat := if off = rPart p 0x930 then 0xFFFFFFFF else 0xFFFFFFFFFFFFFFFF

/-- A STAT_LATCH for partition `p` (R46). -/
def latchStats (p : Nat) : Act Unit := do
  let s ← look
  let base := snapBase s p
  let bank := if (partOf s p).bankB then base else base + 0x100000
  if inSram base then
    let seq := memNat s bank 8
    putNat bank 8 (seq + 1)
    zeroMem (bank + 8) (0x100000 - 8)
    putNat (bank + 8) 8 (ftNs s)
    putNat (bank + 16) 8 (partOf s p).stepNo.toNat
    for e in s.regs do
      match snapSlot s p e.1 with
      | some o => putNat (bank + o) 8 (e.2.toNat &&& snapMask p e.1)
      | none => pure ()
    putNat bank 8 (seq + 2)
  let kept ← rdF (rPart p 0x930) 32 32
  eff (.regsKeep (fun off => (snapSlot s p off).isNone))
  wrF (rPart p 0x930) 32 32 kept
  modPart p (fun d => { d with bankB := !d.bankB })

/-! ## Step boundaries (R41–R45) -/

def execModeOf (s : State) (p : Nat) : Nat := (partOf s p).execMode.toNat
def paced (s : State) (p : Nat) : Bool := bitsOf (execModeOf s p) 0 1 == 1
def stepGap (s : State) (p : Nat) : Nat := bitsOf (execModeOf s p) 16 24

/-- Steps run: the job runs and the placement copies agree (R300, R381). A STEP_BOUNDARY firing or a decision point of a partition whose
steps do not run takes no boundary and counts nothing: R41 and R300 do not say so (DESIGN CHOICE, log entry 130). -/
def steps (s : State) (p : Nat) : Bool := jobState s p == 2 && (partOf s p).td == .none && eptState s p != 4

/-- A step boundary is taken (R23, R26, R43–R45, R65, R67, R73, R82, R84, R307). -/
def boundary (p : Nat) : Act Unit := do
  if bitsOf (execModeOf (← look) p) 2 1 = 1 then latchStats p
  sendTokens p
  let s ← look
  modPart p (fun d => { d with stepNo := d.stepNo + 1, lastBoundary := s.time.now, held := false, tokPsn := [], staleSrc := []
                               execMode := regOf s (rPart p 0x100), sreStep := stepRegs s p, dead := deadNodes s p })
  eptFirstUse p
  eptCompare p
  let s ← look
  eff (.loads (s.loads.filterMap (fun x =>
    if rcPart (rcfgOf s x.1) = p then (if x.2.2.1 = 0 then none else some (x.1, x.2.1, 0, x.2.2.1)) else some x)))
  batchCommit p

/-- A STEP_BOUNDARY firing (R41, R42). -/
def stepFire (p : Nat) : Act Unit := do
  let s ← look
  if !paced s p && steps s p then
    if !(partOf s p).held && workDone s p then boundary p
    else
      modPart p (fun d => { d with held := true })
      ctr32 (rPart p 0x940)

/-- STEP_DECISION_POINT (R41): every 125 ns. -/
def decisionPoint (p : Nat) : Act Unit := do
  let s ← look
  if paced s p && steps s p then
    let last := (partOf s p).lastBoundary
    let from_ := if s.time.now ≤ last then last + 1 else s.time.now
    advanceTo ((from_ + 124) / 125 * 125)
    let s ← look
    if workDone s p && last + stepGap s p ≤ s.time.now then boundary p

/-- HELD_BOUNDARY_TAKE (R42). -/
def heldTake (p : Nat) : Act Unit := do
  let s ← look
  if (partOf s p).held && steps s p && workDone s p then boundary p

/-- STEP_DECISION_POINT (R41). -/
def execStepDecisionPoint (p : Fin 64) (s : State) : Host.Outcome State Fault Refusal := finish (decisionPoint p) s
/-- HELD_BOUNDARY_TAKE (R42). -/
def execHeldBoundaryTake (p : Fin 64) (s : State) : Host.Outcome State Fault Refusal := finish (heldTake p) s

/-! ## The Scheduled Event Table (R35–R40) -/

def setFire (s : State) (e : Nat) : Nat := (regOf s (rSet e 0)).toNat
def setPeriod (s : State) (e : Nat) : Nat := fieldOf s (rSet e 1) 0 40
def setCount (s : State) (e : Nat) : Nat := fieldOf s (rSet e 1) 40 24
def setAction (s : State) (e : Nat) : Nat := fieldOf s (rSet e 2) 0 4
def setArmed (s : State) (e : Nat) : Bool := fieldOf s (rSet e 2) 4 1 == 1
def setPart (s : State) (e : Nat) : Nat := fieldOf s (rSet e 2) 8 6
def setTarget (s : State) (e : Nat) : Nat := fieldOf s (rSet e 2) 16 16
def setArg (s : State) (e : Nat) : Nat := fieldOf s (rSet e 2) 32 32

/-- A QUEUE_KICK (R40). -/
def kick (p q : Nat) : Act Unit := do
  let s ← look
  if q < 4096 && qEn s q && qPart s q = p then
    match qCons s q with
    | 0 =>
      modQueue q (fun d => { d with since := s.time.now, staleFired := false })
      qStale q
    | 1 => modQueue q (fun d => { d with kicked := true })
    | 2 =>
      if isOutQ s q then
        for _ in (queueOf s q).items do
          tokenItem q
        sendTokens p
      for g in s.groups do
        if dCollQ g.2.desc = q then collStartAct g.1 []
    | _ => return

/-- What a firing of entry `e` does (R35). -/
def setAct (e : Nat) : Act Unit := do
  let s ← look
  let p := setPart s e
  match setAction s e with
  | 1 => openWindow (setTarget s e) p (setFire s e) (setPeriod s e)
  | 2 => stepFire p
  | 3 => latchStats p
  | 4 =>
    let c := bitsOf (setArg s e) 0 3
    let lead := max 1 (bitsOf (setArg s e) 16 16)
    askGrant { who := .reservation p, mw := classMw s c, prio := 15, part := p, until_ := setFire s e + 1000 * lead }
  | 5 => kick p (setTarget s e)
  | 6 => unitSignal diePC e p (setTarget s e) (bitsOf (setArg s e) 0 6)
  | _ => return

/-- The entry after its firing (R36): the last firing clears EN and leaves COUNT as it is; any other counts. -/
def setAdvance (e : Nat) : Act Unit := do
  let s ← look
  let fire := setFire s e
  let period := setPeriod s e
  let count := setCount s e
  if period = 0 || count = 1 then wrF (rSet e 2) 4 1 0
  else
    let n := if ftNs s < fire then 1 else (ftNs s - fire) / period + 1
    wrReg (rSet e 0) ((fire + n * period) % 2 ^ 64)
    if 1 < n then ctr32 0x060048 (n - 1)
    if count ≠ 0 then wrF (rSet e 1) 40 24 (count - 1)

/-- Armed entries without an action of the table (none, or a reserved code) that have come due: they have no row of their own. -/
def noneDue (s : State) : List Nat :=
  ((s.regs.filter (fun x => 0x068000 ≤ x.1 && x.1 < 0x070000 && x.1 % 0x20 == 16)).map (fun x => (x.1 - 0x068000) / 0x20)).filter (fun e =>
    s.time.running && setArmed s e && (setAction s e == 0 || 6 < setAction s e) && decide (setFire s e ≤ ftNs s))

/-- Such an entry has fired whenever FT reached its FIRE_FT, up to now: it did nothing, and advanced (R35, R36, log entry 31). -/
def settleOne (e : Nat) : Act Unit := do
  let s ← look
  let fire := setFire s e
  let period := setPeriod s e
  let count := setCount s e
  wrF (rSet e 2) 5 1 0
  if period = 0 then wrF (rSet e 2) 4 1 0
  else
    let k := (ftNs s - fire) / period + 1
    if count ≠ 0 && count ≤ k then
      wrReg (rSet e 0) ((fire + (count - 1) * period) % 2 ^ 64)
      wrF (rSet e 1) 40 24 1
      wrF (rSet e 2) 4 1 0
    else
      wrReg (rSet e 0) ((fire + k * period) % 2 ^ 64)
      if count ≠ 0 then wrF (rSet e 1) 40 24 (count - k)

/-- The entries without an action that are due have fired. -/
def settleNone : Act Unit := do
  for e in noneDue (← look) do
    settleOne e

/-- One nanosecond with no command: the clocks run, and entries without an action fire as they come due (log entry 1). -/
def idle : Act Unit := do
  advance 1
  settleNone

/-- A place in the firing order of a 10 ns interval (R37): 64 entries fire in an interval, which begins at a multiple of 10 ns of FT (log
entry 128); with 64 fired already, the firing comes in the next one. Answers whether LATE is set. -/
def fireSlot (fire : Nat) : Act Bool := do
  let s ← look
  let iv := ftNs s / 10
  if s.time.fired.1 = iv && 64 ≤ s.time.fired.2 then
    advanceFt ((iv + 1) * 10)
    let now := ftNs (← look)
    modTime (fun t => { t with fired := (now / 10, 1) })
    return true
  else
    modTime (fun t => { t with fired := (iv, if t.fired.1 = iv then t.fired.2 + 1 else 1) })
    return fire + 10 < ftNs s

/-- One firing. -/
def setFireOne (e : Nat) (late : Bool) : Act Unit := do
  wrF (rSet e 2) 5 1 (if late then 1 else 0)
  setAct e
  setAdvance e

/-- Place of an action in the order of R37. -/
def actionRank (a : Nat) : Nat := [6, 3, 2, 1, 0, 4, 5].getD a 6

/-- An entry fires ahead of another that is due at the same FT (R37). -/
def firesBefore (s : State) (a b : Nat) : Bool :=
  setFire s a < setFire s b || (setFire s a == setFire s b &&
    (actionRank (setAction s a) < actionRank (setAction s b) || (setAction s a == setAction s b && a < b)))

/-- Armed entries in the order in which they fire. -/
def armedIn (s : State) (f : Nat → Bool) : List Nat :=
  sortBy (fun a b => a == b || firesBefore s a b) ((List.range 1024).filter (fun e => setArmed s e && f e))

/-- A firing of entry `e` with a given action (R36, R37): entries due at the same FT that R37 puts ahead of it fire first, 64 in
each 10 ns interval. -/
def setFiring (e action : Nat) : Act Unit := do
  let s ← look
  if setArmed s e && setAction s e = action then
    let fire := setFire s e
    advanceFt fire
    settleNone
    let s ← look
    if fire ≤ ftNs s then
      for x in armedIn s (fun x => setFire s x == fire && (x == e || firesBefore s x e)) do
        let late ← fireSlot fire
        setFireOne x late

/-- EXCH_WINDOW_OPEN (R35, R39, R95). -/
def execExchWindowOpen (e : Fin 1024) (s : State) : Host.Outcome State Fault Refusal := finish (setFiring e 1) s
/-- STEP_BOUNDARY (R41, R42). -/
def execStepBoundary (e : Fin 1024) (s : State) : Host.Outcome State Fault Refusal := finish (setFiring e 2) s
/-- STAT_LATCH (R46). -/
def execStatLatch (e : Fin 1024) (s : State) : Host.Outcome State Fault Refusal := finish (setFiring e 3) s
/-- PGU_PREPARE (R350). -/
def execPguPrepare (e : Fin 1024) (s : State) : Host.Outcome State Fault Refusal := finish (setFiring e 4) s
/-- QUEUE_KICK (R40). -/
def execQueueKick (e : Fin 1024) (s : State) : Host.Outcome State Fault Refusal := finish (setFiring e 5) s
/-- USER_PIP (R35). -/
def execUserPip (e : Fin 1024) (s : State) : Host.Outcome State Fault Refusal := finish (setFiring e 6) s

/-- The arming check of R39. -/
def armOk (s : State) (e : Nat) : Bool :=
  setAction s e != 1 || (2000 ≤ setPeriod s e && setPeriod s e ≤ 100000000 && setTarget s e < 256)

/-- A write of a word of an entry (R35, R38, R39). -/
def setEntryWriteAct (e word : Nat) (w : Wr) : Act Unit := do
  settleNone
  let old ← rdReg (rSet e word)
  wrReg (rSet e word) (plainWrite (rSet e word) old w)
  let s ← look
  if setArmed s e then
    if armOk s e then
      if s.time.running && setFire s e < ftNs s then setFireOne e true
    else
      wrReg (rSet e word) old
      wrF (rSet e 2) 4 1 0
      raise 0x4003 2 diePC e (some (setPart s e))

/-- SET_ENTRY_WRITE (R38, R39). -/
def execSetEntryWrite (e : Fin 1024) (word : Fin 4) (w : Wr) (s : State) : Host.Outcome State Fault Refusal :=
  finish (ownerWrite w.path (setEntryWriteAct e word w)) s

end Sys2Proof.Machine
end

