-- ==== Sys2Proof/Machine/Job.lean ====
section
/-!
DEFINITION. Partitions (R289–R291), contexts and their switches (R293–R299), jobs (R300–R302, R312, R313).
-/

namespace Sys2Proof.Machine

/-! ## Contexts as their registers hold them (R312) -/

def ctxState (s : State) (p c : Nat) : Nat := fieldOf s (rCtx p c 0) 56 3
def ctxEn (s : State) (p c : Nat) : Bool := fieldOf s (rCtx p c 0) 52 1 == 1
def ctxEntry (s : State) (p c : Nat) : Nat := fieldOf s (rCtx p c 1) 0 52
/-- SLICE_US in ns; 0 acts as 1. -/
def sliceNs (s : State) (p c : Nat) : Nat := max 1 (fieldOf s (rCtx p c 2) 0 16) * 1000
def setCtxState (p c st : Nat) : Act Unit := wrF (rCtx p c 0) 56 3 st

/-- The threads of a context that a table lists. -/
def ctxThreads (s : State) (p c : Nat) : List (Nat × Thread) := s.threads.filter (fun e => e.1 / 16 / 2048 == ctxKey p c)

/-- The first READY context behind the one that ran last, in round-robin order (R294). -/
def nextReady (s : State) (p : Nat) : Option Nat :=
  ((List.range 16).map (fun k => ((partOf s p).lastRun + 1 + k) % 16)).find? (fun c => ctxState s p c == 1)

/-- A READY context begins to be restored when nothing runs (R294, R296). -/
def schedule (p : Nat) : Act Unit := do
  let s ← look
  let d := partOf s p
  if jobState s p = 2 && d.td == .none && d.running.isNone && d.switching == .none then
    match nextReady s p with
    | none => return
    | some c => modPart p (fun d => { d with incoming := some c, switching := .restoring })

/-- The running context begins to be saved (R296); it becomes `st` once it is. -/
def switchOut (p st : Nat) : Act Unit := modPart p (fun d => { d with switching := .saving, outState := st })

/-! ## The partition map (R23–R26, R289) -/

/-- Ranges of a staged map: base and bytes. -/
def stagedRanges (s : State) (p : Nat) : List (Nat × Nat) :=
  (List.range 16).filterMap (fun i =>
    let b := fieldOf s (rPart p (0x600 + 0x10 * i)) 16 36 * 2 ^ 16
    let n := fieldOf s (rPart p (0x608 + 0x10 * i)) 0 32 * 2 ^ 16
    if n = 0 then none else some (b, n))

def stagedMap (s : State) (p : Nat) : PartMap :=
  { cg := regOf s (rPart p 0), ranges := stagedRanges s p, training := fieldOf s (rPart p 0x10) 34 1 == 1 }

def meets (a b : Nat × Nat) : Bool := a.1 < b.1 + b.2 && b.1 < a.1 + a.2

/-- No two ranges of a list meet. -/
def apart : List (Nat × Nat) → Bool
  | [] => true
  | a :: l => !l.any (meets a) && apart l

/-- A range lies wholly within tier 1, tier 2, the mapped part of tier 3 or shared SRAM (R289). -/
def rangeOk (s : State) (r : Nat × Nat) : Bool :=
  let a := tierOf r.1
  let b := tierOf (r.1 + r.2 - 1)
  a == b && (a == .t1 || a == .t2 || a == .sram ||
    (a == .t3 && (List.range (r.2 / 2 ^ 30 + 2)).all (fun k => t3Mapped s (min (r.1 + r.2 - 1) (r.1 + k * 2 ^ 30)))))

/-- Every byte of a range lies in some range of a list. -/
def coveredBy (l : List (Nat × Nat)) (r : Nat × Nat) : Bool :=
  r.1 + r.2 ≤ (List.range 40).foldl (fun e _ => l.foldl (fun x y => if y.1 ≤ x && x < y.1 + y.2 then y.1 + y.2 else x) e) r.1

/-- The maps of another partition, current, waiting and staged (R289). -/
def otherMaps (s : State) (q : Nat) : List PartMap :=
  [(partOf s q).map, stagedMap s q] ++ (partOf s q).mapNext.toList

/-- The commit check of R289. -/
def mapOk (s : State) (p : Nat) : Bool :=
  let m := stagedMap s p
  let cur := (partOf s p).mapNext.getD (partOf s p).map
  let others := ((List.range 64).filter (· != p)).flatMap (otherMaps s)
  m.cg != 0 && !others.any (fun o => o.cg &&& m.cg != 0) && apart m.ranges && m.ranges.all (rangeOk s) &&
    !m.ranges.any (fun r => others.any (fun o => o.ranges.any (meets r))) &&
    (!(jobState s p == 2 || jobState s p == 3) || (cur.cg &&& m.cg == cur.cg && cur.ranges.all (coveredBy m.ranges)))

/-- A committed map takes effect: cores that left sleep, those that came in wake for a running job. -/
def applyMap (p : Nat) : Act Unit := do
  match (partOf (← look) p).mapNext with
  | none => return
  | some m =>
    modPart p (fun d => { d with map := m, mapNext := none })
    wrF (rPart p 8) 34 1 0
    let s ← look
    sleepCores (fun c => !(List.range 64).any (fun q => coreOfPart s q c))
    if jobState s p = 2 then askWakes p

/-- No context of the partition runs, comes or goes. -/
def partIdle (s : State) (p : Nat) : Bool :=
  (partOf s p).running.isNone && (partOf s p).incoming.isNone && (partOf s p).switching == .none

/-- GO of PART_MAP_COMMIT (R24, R26, R289). -/
def mapCommitAct (p : Nat) (w : Wr) : Act Unit := do
  if wrBits w 35 1 = 1 then
    let s ← look
    if BitVec.ofNat 32 (wrBits w 0 32) ≠ nextGen (BitVec.ofNat 32 (fieldOf s (rPart p 8) 0 32)) then ownDenied
    else if mapOk s p then
      let m := stagedMap s p
      if (partOf s p).mapNext.isSome || jobState s p = 3 then wrF (rPart p 8) 34 1 1
      modPart p (fun d => { d with mapNext := some m })
      wrF (rPart p 8) 0 34 (wrBits w 0 32 ||| 2 <<< 32)
      if partIdle s p && jobState s p ≠ 3 then applyMap p
    else
      wrF (rPart p 8) 32 2 3
      raise 0xC002 0 dieMG 0 (some p)

/-- PART_MAP_COMMIT (R289). -/
def execPartMapCommit (p : Fin 64) (w : Wr) (s : State) : Host.Outcome State Fault Refusal :=
  finish (ownerWrite w.path (mapCommitAct p w)) s

/-- A write of a staged word of the map; while PENDING is set it is discarded and counted (R26). -/
def mapStageWrite (p off : Nat) (w : Wr) : Act Unit := do
  if (← rdF (rPart p 8) 34 1) = 1 then ownDenied else storeWord off w

/-! ## Time slices (R294, R296) -/

/-- The running context is switched out at its slice's end when another is READY or a map waits (R294). -/
def sliceEnd (p : Nat) : Act Unit := do
  let s ← look
  let d := partOf s p
  match d.running with
  | none => return
  | some c =>
    if d.switching == .none && d.td == .none && (nextReady s p).isSome || d.switching == .none && d.td == .none && d.mapNext.isSome then
      advanceTo (d.sliceStart + sliceNs s p c)
      switchOut p 1

/-- CTX_SLICE_END (R294). -/
def execCtxSliceEnd (p : Fin 64) (s : State) : Host.Outcome State Fault Refusal := finish (sliceEnd p) s

/-- A thread that keeps no context on its cores: FREE, WAITING on a pip, or FAULTED (R294). -/
def atRest (t : Thread) : Bool :=
  match t.st with
  | .free => true
  | .faulted => true
  | .ready => false
  | .waiting =>
    match t.wait with
    | .header _ => true
    | .pip _ _ _ _ => true
    | _ => false

/-- CTX_EARLY_SWITCH (R294). -/
def execCtxEarlySwitch (p : Fin 64) (s : State) : Host.Outcome State Fault Refusal :=
  finish (do
    let s ← look
    let d := partOf s p
    match d.running with
    | none => return
    | some c =>
      if d.switching == .none && d.td == .none && (nextReady s p).isSome && (ctxThreads s p c).all (fun e => atRest e.2) then
        switchOut p 1) s

/-- SAVE_SCRATCH of a context (R296). -/
def savesScratch (s : State) (p c : Nat) : Bool := fieldOf s (rCtx p c 0) 53 1 == 1

/-- An address lies in the scratch of a core of the partition (R165). -/
def inPartScratch (s : State) (p a : Nat) : Bool := scratchBase 0 ≤ a && coreOfPart s p ((a - scratchBase 0) / 0x200000)

/-- What the scratch of the partition's cores holds. -/
def scratchNow (s : State) (p : Nat) : SavedScratch :=
  { bytes := s.mem.filter (fun e => inPartScratch s p e.1), poison := s.mem2.poison.filter (fun g => inPartScratch s p (64 * g))
    ue := s.mem2.ue.filter (fun g => inPartScratch s p (64 * g)) }

/-- The saved scratch of a partition's contexts once context `c` is saved (R293, R296). -/
def scratchSaved (s : State) (p c : Nat) : Tbl SavedScratch :=
  let l := (partOf s p).scratch
  if savesScratch s p c then l.filter (fun e => e.1 < c) ++ (c, scratchNow s p) :: l.filter (fun e => c < e.1) else l

/-- The scratch of a context comes back; without SAVE_SCRATCH it stays as the outgoing context left it (R296). -/
def restoreScratch (p c : Nat) : Act Unit := do
  let s ← look
  if savesScratch s p c then
    let x := tget {} (partOf s p).scratch c
    eff (.memKeep (fun a => !inPartScratch s p a))
    for e in (x.bytes.filter (fun e => inPartScratch s p e.1)).reverse do
      eff (.mem e.1 e.2)
    modMem2 (fun m => { m with poison := m.poison.filter (fun g => !inPartScratch s p (64 * g)) ++ x.poison
                               ue := m.ue.filter (fun g => !inPartScratch s p (64 * g)) ++ x.ue })

/-- Vector commands of a context are running: its switch waits until they complete (R245, R296). -/
def vecBusy (s : State) (p c : Nat) : Bool :=
  (ctxThreads s p c).any (fun e => e.2.asyncs.any (fun a => engineOf a.2.w == 7 && (a.2.phase == .running || a.2.phase == .done)))

/-- The matrix commands of a thread that are under way. -/
def tilesUnderWay (t : Thread) : Tbl AsyncCmd :=
  t.asyncs.filter (fun a => (engineOf a.2.w == 3 || engineOf a.2.w == 4) && (a.2.phase == .done || (a.2.phase == .running && a.2.cur.isSome)))

/-- The array, the sparse unit and the Reed path stop for a context switch (R209, R210): a command with tiles left keeps its cursor, gives its
grant back and asks for it again later. Whether a command whose tiles the model has all run had reached its last one is a free choice (log
entry 141). -/
def stopTiles (k : Nat) (t : Thread) : Act Unit := do
  for a in tilesUnderWay t do
    let f ← drawFree
    if a.2.phase == .running || f.getLsbD 0 then
      ctr32 (rCore (k / 16 % 2048) 0x28)
      let s ← look
      let grant := holdsGrant s (.cmd k a.1)
      for g in s.pw.held.filter (fun g => g.who == .cmd k a.1) do
        countThrottle g
      dropGrant (.cmd k a.1)
      putAsync k a.1 { a.2 with phase := .stopped, grant, cur := some (a.2.cur.getD { fin := true }) }

/-- CTX_SWITCH_SAVED (R296): once the running vector commands have completed, the matrix units stop and the outgoing context is saved; the
next is restored, or a waiting map takes effect. -/
def switchSaved (p : Nat) : Act Unit := do
  let s ← look
  let d := partOf s p
  if d.switching == .saving then
    match d.running with
    | none => return
    | some c =>
      if vecBusy s p c then return
      for e in ctxThreads s p c do
        stopTiles e.1 e.2
      setCtxState p c d.outState
      modPart p (fun d => { d with running := none, switching := .none, outState := 1, lastRun := c, scratch := scratchSaved s p c })
      ctr32 (rPart p 0x930)
      if (nextReady (← look) p).isNone then applyMap p
      schedule p

/-- CTX_SWITCH_SAVED (R296). -/
def execCtxSwitchSaved (p : Fin 64) (s : State) : Host.Outcome State Fault Refusal := finish (switchSaved p) s

/-- The cores of a context on which commands wait for their turn. -/
def queuedCores (s : State) (p c : Nat) : List Nat :=
  (((ctxThreads s p c).filter (fun e => e.2.asyncs.any (fun a => a.2.phase == .queued))).map (fun e => e.1 / 16)).eraseDups

/-- PCLASS of an asynchronous command (R187, R194); a command without one acts at class 0. -/
def cmdClass (w : Cmd) : Nat :=
  let o := hOpcode w
  if o = 0x10 || o = 0x11 then cf w 30 0 3
  else if o = 0x12 then cf w 28 0 3
  else if 0x20 ≤ o && o ≤ 0x32 then mPclass w
  else 0

/-- The stopped commands of a thread wait for their turn again, with a new request where they take a grant (R210, R298). -/
def restartStopped (k : Nat) (t : Thread) : Act Unit := do
  for a in t.asyncs.filter (fun a => a.2.phase == .stopped) do
    putAsync k a.1 { a.2 with phase := if a.2.grant then .waitGrant else .queued }
    if a.2.grant then
      askGrant { who := .cmd k a.1, mw := classMw (← look) (cmdClass a.2.w), prio := t.prio.toNat, part := k / 16 / 2048 / 16
                 die := some (k / 16 % 2048 / 64) }

/-- CTX_SWITCH_RESTORED (R296): a map that waits for the switch takes effect; issue resumes, and stopped commands go on or ask for their
grant again (R209, R210, R298). -/
def switchRestored (p : Nat) : Act Unit := do
  let d := partOf (← look) p
  if d.switching == .restoring then
    match d.incoming with
    | none => return
    | some c =>
      restoreScratch p c
      applyMap p
      setCtxState p c 2
      let now := (← look).time.now
      modPart p (fun d => { d with running := some c, incoming := none, switching := .none, sliceStart := now })
      for e in ctxThreads (← look) p c do
        restartStopped e.1 e.2
      for kc in queuedCores (← look) p c do
        startQueued 257 (16 * kc)

/-- CTX_SWITCH_RESTORED (R296). -/
def execCtxSwitchRestored (p : Fin 64) (s : State) : Host.Outcome State Fault Refusal := finish (switchRestored p) s

/-! ## Faults and the owner's commands (R297–R299) -/

/-- Every command under way in a context has completed, but those that an error of their operands stopped (R297, R298). -/
def quiet (s : State) (p c : Nat) : Bool := (ctxThreads s p c).all (fun e => e.2.asyncs.all (fun a => a.2.phase == .stopped))

/-- The running context is being saved and will be FAULTED (R297). -/
def goesFaulted (d : Part) : Bool := d.switching == .saving && d.outState == 4

/-- CTX_FAULT (R297). -/
def ctxFaultAct (p c : Nat) : Act Unit := do
  let s ← look
  let d := partOf s p
  if ctxState s p c ≠ 4 && !(d.running = some c && goesFaulted d) then
    match (ctxThreads s p c).find? (fun e => e.2.st == .faulted) with
    | none => return
    | some (k, t) =>
      if quiet s p c then
        let core := k / 16 % 2048
        raise 0xC001 2 (core / 64) (core % 64) (some p) 0 (faultDetail t.faultCause.toNat (k % 16) c)
        if d.running = some c then switchOut p 4 else setCtxState p c 4

/-- CTX_FAULT (R297). -/
def execCtxFault (p : Fin 64) (c : Fin 16) (s : State) : Host.Outcome State Fault Refusal := finish (ctxFaultAct p c) s

/-- Every FAULTED thread of a context has cause 6 (R298). -/
def resumable (s : State) (p c : Nat) : Bool := (ctxThreads s p c).all (fun e => e.2.st != .faulted || e.2.faultCause == 6)

/-- A thread of a resumed context goes on (R298, R299): commands that were stopped start again. -/
def resumeThread (k : Nat) (t : Thread) : Act Unit := do
  let again := t.asyncs.filter (fun a => a.2.phase == .stopped)
  restartStopped k t
  if t.st == .faulted then
    modThread k (fun t => { t with st := if t.wait == .none then .ready else .waiting, faultCause := 0, hdrDone := again.isEmpty })

/-- CMD = 1 (R299). -/
def ctxResumeAct (p c : Nat) : Act Unit := do
  let s ← look
  let st := ctxState s p c
  if st = 3 then
    setCtxState p c 1
    schedule p
  else if st = 4 && resumable s p c then
    for e in ctxThreads s p c do
      resumeThread e.1 e.2
    setCtxState p c 1
    schedule p
  else ownDenied

/-- A completion posted ABORTED for a thread that has not halted (R326). -/
def abortRef (r : LaunchRef) : Act Unit := do
  if r.src = 0 then
    retireEntry r.ring r.idx
    if ringEn (← look) r.ring then postCqe r.ring { tag := r.tag, src := 0, status := 8, noCqe := r.noCqe } else ctr32 0x148004

/-- The state of a context's threads, pips and buffers goes (R293, R299, R301, R326). -/
def dropCtx (p c : Nat) : Act Unit := do
  let s ← look
  let mine := fun (k : Nat) => k / 16 / 2048 == ctxKey p c
  for e in ctxThreads s p c do
    match e.2.ref with
    | some r => abortRef r
    | none => pure ()
  dropGrants (fun g => match g.who with
    | .cmd k _ => mine k
    | .sync k => mine k
    | _ => false)
  for e in s.queues do
    if e.2.waiters.any (fun x => mine x.1) || e.2.submits.any (fun x => mine x.1) then
      modQueue e.1 (fun d => { d with waiters := d.waiters.filter (fun x => !mine x.1), submits := d.submits.filter (fun x => !mine x.1) })
  modSubmits (fun l => (l.filter (fun u => !(mine u.thread && u.phase == .waiting))).map (fun u =>
    if mine u.thread then { u with thread := 2 ^ 40 } else u))
  eff (.samples ((← look).samples.filter (fun x => !mine x.thread)))
  modFab (fun f => { f with reqs := f.reqs.filter (fun r => r.op == 4 || !mine r.thread), moves := f.moves.filter (fun m => !mine m.thread) })
  eff (.threadsKeep (fun k => !mine k))
  eff (.pipsKeep (fun k => k / 64 / 2048 != ctxKey p c))
  eff (.vbufsKeep (fun k => k / 4 / 2048 != ctxKey p c))

/-- CMD = 2 (R299). -/
def ctxResetAct (p c : Nat) : Act Unit := do
  dropCtx p c
  let s ← look
  let cp := BitVec.ofNat 52 (ctxEntry s p c)
  for x in (partCores s p).zipIdx do
    for tc in List.range 16 do
      eff (.thread (thrKey p c x.1 tc)
        { st := .ready, cp := cp, g := tput 0 (tput 0 [] 0 (BitVec.ofNat 64 x.2)) 1 (BitVec.ofNat 64 tc)
          ref := some { ring := p * 16, tag := 0, noCqe := false, src := 1 } })
  setCtxState p c (if ctxEn s p c then 1 else 0)
  modPart p (fun d => { d with running := if d.running = some c then none else d.running
                               incoming := if d.incoming = some c then none else d.incoming
                               switching := if d.running = some c || d.incoming = some c then .none else d.switching })
  if partIdle (← look) p then applyMapIdle p
  schedule p
where
  /-- A map that waited for this context's switch takes effect now that no context runs. -/
  applyMapIdle (p : Nat) : Act Unit := do
    if (← rdF (rPart p 0x10) 32 2) ≠ 3 then applyMap p

/-- CMD = 3 (R299). -/
def ctxStopAct (p c : Nat) : Act Unit := do
  let s ← look
  let d := partOf s p
  if ctxState s p c = 1 then
    setCtxState p c 3
    if d.incoming = some c then
      modPart p (fun d => { d with incoming := none, switching := .none })
      schedule p
  else if ctxState s p c = 2 && !goesFaulted d then switchOut p 3
  else ownDenied

/-- A write of word 0 of PART_CTX_c: its fields, then CMD (R299, R312). -/
def ctxWord0Write (p c : Nat) (w : Wr) : Act Unit := do
  storeWord (rCtx p c 0) w
  match wrBits w 61 3 with
  | 1 => ctxResumeAct p c
  | 2 => ctxResetAct p c
  | 3 => ctxStopAct p c
  | _ => return

/-- CTX_RESUME (R299). -/
def execCtxResume (p : Fin 64) (c : Fin 16) (w : Wr) (s : State) : Host.Outcome State Fault Refusal :=
  finish (ownerWrite w.path (ctxWord0Write p c w)) s

/-- CTX_RESET (R299). -/
def execCtxReset (p : Fin 64) (c : Fin 16) (w : Wr) (s : State) : Host.Outcome State Fault Refusal :=
  finish (ownerWrite w.path (ctxWord0Write p c w)) s

/-- CTX_STOP (R299). -/
def execCtxStop (p : Fin 64) (c : Fin 16) (w : Wr) (s : State) : Host.Outcome State Fault Refusal :=
  finish (ownerWrite w.path (ctxWord0Write p c w)) s

/-! ## Teardown (R301) -/

/-- DRAIN_US in ns; 0 acts as 1. -/
def drainNs (s : State) (p : Nat) : Nat := max 1 (fieldOf s (rPart p 0x10) 48 16) * 1000

/-- The fence, and the final records of the sequences (R301). -/
def teardownAct (p : Nat) : Act Unit := do
  let s ← look
  if jobState s p = 1 || jobState s p = 2 then
    wrF (rPart p 0x10) 32 2 3
    modPart p (fun d => { d with td := .drain, tdAt := s.time.now, startAt := none })
    for e in List.range 1024 do
      if setPart s e = p && setArmed s e then wrF (rSet e 2) 4 1 0
    let s ← look
    for i in btRange s p do
      let x := btEntry s i
      if beState x = 1 || beState x = 2 then
        addRecord p (beNode x) (recordOf (outItem (beSeq x) (bePos x) 0 0 4 (partOf s p).stepNo.toNat (beNode x) (beStream x) i))
    sendTokens p

/-- A write of PART_JOB (R301, R312). -/
def partJobWrite (p : Nat) (w : Wr) : Act Unit := do
  let s ← look
  let new := plainWrite (rPart p 0x10) (regOf s (rPart p 0x10)).toNat w
  let held := fieldOf s (rPart p 8) 34 1 == 1 && bitsOf new 34 1 != fieldOf s (rPart p 0x10) 34 1
  if held then
    ownDenied
    wrReg (rPart p 0x10) (setBits new 34 1 (1 - bitsOf new 34 1))
  else wrReg (rPart p 0x10) new
  if wrBits w 35 1 = 1 then teardownAct p

/-- PART_TEARDOWN (R301). -/
def execPartTeardown (p : Fin 64) (w : Wr) (s : State) : Host.Outcome State Fault Refusal :=
  finish (ownerWrite w.path (partJobWrite p w)) s

/-- The drain is complete (R301). -/
def drained (s : State) (p : Nat) : Bool :=
  !s.launches.any (fun l => l.part == p && (l.phase == .opened || l.phase == .closed) && !l.past && !l.stream) &&
    !s.fab.reqs.any (fun r => r.part == p && r.op != 4) && (partOf s p).tokFrames.isEmpty

/-- The end of the drain: what is in flight is dropped (R301). -/
def dropJob (p : Nat) : Act Unit := do
  let s ← look
  for q in (List.range 4096).filter (fun q => qPart s q == p) do
    if !(queueOf s q).items.isEmpty then
      let _ ← qFlushAll q
      qShow q
  for c in List.range 16 do
    dropCtx p c
    setCtxState p c 0
  modSubmits (fun l => l.filter (fun u => u.part != p))
  let s ← look
  eff (.tagsDone (s.tagsDone.filter (fun t => rcPart (rcfgOf s t.rctx) != p)))
  eff (.samples (s.samples.filter (fun x => x.part != p)))
  modLaunches (fun l => l.filter (fun x => x.part != p))
  modColls (fun l => l.filter (fun x => x.part != p))
  for h in (List.range 256).filter (fun h => dPart (groupOf s h).desc == p) do
    if !(groupOf s h).wins.isEmpty then modGroup h (fun g => { g with wins := [] })
    xgRelease h
  dropGrants (fun g => g.part == p && (match g.who with
    | .wake _ => false
    | .ringCopy _ _ => false
    | _ => true))
  for i in btRange s p do
    putBt i 32 3 0
  for e in s.host.qps.filter (fun e => e.2.part == p) do
    for x in e.2.sends ++ e.2.recvs do
      retireEntry x.ring x.idx
      postCqe e.2.ring { tag := x.tag, src := 0, status := 8, noCqe := x.noCqe }
  modHost (fun h => { h with qps := h.qps.filter (fun e => e.2.part != p), mrs := h.mrs.filter (fun e => e.2.part != p) })
  modPart p (fun d => { d with td := .wipe, running := none, incoming := none, switching := .none, outState := 1, held := false, seqs := []
                               reqs := [], toks := [], tokFrames := [], tokPsn := [] })

/-- TEARDOWN_DRAIN_DONE (R301). -/
def execTeardownDrainDone (p : Fin 64) (s : State) : Host.Outcome State Fault Refusal :=
  finish (do
    let s ← look
    if (partOf s p).td == .drain && drained s p then dropJob p) s

/-- TEARDOWN_DRAIN_TIMEOUT (R301). -/
def execTeardownDrainTimeout (p : Fin 64) (s : State) : Host.Outcome State Fault Refusal :=
  finish (do
    let s ← look
    if (partOf s p).td == .drain then
      advanceTo ((partOf s p).tdAt + drainNs s p)
      if !drained (← look) p then ctr32 (rPart p 0x938)
      dropJob p) s

/-- TEARDOWN_WIPE_DONE (R301): ranges and scratch are 0, tier-3 ranges are wiped in the background (R258), the pools are new, the generation moves on. -/
def wipeDone (p : Nat) : Act Unit := do
  let s ← look
  if (partOf s p).td == .wipe then
    let rs := (partOf s p).map.ranges
    for r in rs.filter (fun r => tierOf r.1 != .t3) do
      zeroMem r.1 r.2
    modMem2 (fun m => { m with t3Part := m.t3Part ++ rs.filter (fun r => tierOf r.1 == .t3) })
    for c in partCores s p do
      zeroMem (scratchBase c) 0x200000
    for c in List.range 12 do
      poolInitAct p c false
    wrF (rPart p 0x10) 0 32 (nextGen (BitVec.ofNat 32 (jobGen s p))).toNat
    wrF (rPart p 0x10) 32 2 0
    modPart p (fun d => { d with td := .none, scratch := [] })
    setEvent (rPart p 0x10) 36 5
    sleepCores (fun c => coreOfPart s p c)
    applyMap p

/-- TEARDOWN_WIPE_DONE (R301). -/
def execTeardownWipeDone (p : Fin 64) (s : State) : Host.Outcome State Fault Refusal := finish (wipeDone p) s

/-! ## Starts (R302) -/

/-- NH mod 1,000 in ns (R302). -/
def startOffset (s : State) : Nat := netNode s * 2654435761 % 2 ^ 32 % 1000 * 1000

/-- The life-cycle state lets jobs start (R391): DEPLOYED any, SERVICE training only. -/
def mayStart (s : State) (p : Nat) : Bool :=
  match s.nv.lcState with
  | 2 => true
  | 3 => (partOf s p).map.training
  | _ => false

/-- A write of PART_JOB_START (R302). -/
def jobStartAct (p : Nat) (w : Wr) : Act Unit := do
  let s ← look
  let gen := fieldOf s (rPart p 0x20) 0 32
  if jobState s p ≠ 0 || fieldOf s (rPart p 8) 0 32 = 0 || !genNewer (BitVec.ofNat 32 gen) (BitVec.ofNat 32 (jobGen s p)) || !mayStart s p then ownDenied
  else
    wrF (rPart p 0x10) 0 32 gen
    wrF (rPart p 0x10) 32 2 1
    modPart p (fun d => { d with startAt := some (wrVal w + startOffset s) })

/-- PART_JOB_START (R302). -/
def execPartJobStart (p : Fin 64) (w : Wr) (s : State) : Host.Outcome State Fault Refusal :=
  finish (ownerWrite w.path (jobStartAct p w)) s

/-- JOB_START_FIRE (R302): FT_START has come. -/
def jobFire (p : Nat) : Act Unit := do
  let s ← look
  if jobState s p = 1 then
    match (partOf s p).startAt with
    | none => return
    | some t =>
      advanceFt t
      modPart p (fun d => { d with startAt := none })
      wrF (rPart p 0x10) 32 2 2
      eptFirstUse p
      for c in (List.range 16).filter (ctxEn s p) do
        ctxResetAct p c
      askWakes p
      schedule p

/-- JOB_START_FIRE (R302). -/
def execJobStartFire (p : Fin 64) (s : State) : Host.Outcome State Fault Refusal := finish (jobFire p) s

end Sys2Proof.Machine
end

