-- ==== Sys2Proof/Machine/Rings.lean ====
section
/-!
DEFINITION. Descriptor rings (R319–R334): descriptors, doorbells, fetching, the entries NOP, LAUNCH, COPY, QPUSH and PIPSIG, completions
and their notification, and the PCIe events (R314, R318). The unit of a ring's reports is ring r of IO0 (log entry 19).
-/

namespace Sys2Proof.Machine

/-! ## The descriptor (R319–R321) -/

def rHif (r off : Nat) : Nat := 0x140000 + r * 0x20 + off
def rgPart (r : Nat) : Nat := r / 16
def rgSqLog (s : State) (r : Nat) : Nat := fieldOf s (rRing r 2) 0 4
def rgCqLog (s : State) (r : Nat) : Nat := fieldOf s (rRing r 2) 4 4
def rgSqHost (s : State) (r : Nat) : Bool := fieldOf s (rRing r 2) 8 1 == 1
def rgCqHost (s : State) (r : Nat) : Bool := fieldOf s (rRing r 2) 9 1 == 1
def rgFunc (s : State) (r : Nat) : Bool := fieldOf s (rRing r 2) 10 1 == 1
def rgDbSrc (s : State) (r : Nat) : Nat := fieldOf s (rRing r 2) 12 2
def rgPrio (s : State) (r : Nat) : Nat := fieldOf s (rRing r 2) 16 4
def rgNotify (s : State) (r : Nat) : Nat := fieldOf s (rRing r 2) 20 2
def rgVec (s : State) (r : Nat) : Nat := fieldOf s (rRing r 2) 22 10
def rgIrqCount (s : State) (r : Nat) : Nat := max 1 (fieldOf s (rRing r 2) 32 8)
def rgHoldNs (s : State) (r : Nat) : Nat := fieldOf s (rRing r 2) 40 16 * 1000
def rgNtfCore (s : State) (r : Nat) : Nat := fieldOf s (rRing r 2) 56 8 + 256 * fieldOf s (rRing r 3) 0 3
def rgNtfPip (s : State) (r : Nat) : Nat := fieldOf s (rRing r 3) 4 6
def rgSqTail (s : State) (r : Nat) : Nat := fieldOf s (rRing r 3) 16 16
def rgSqHead (s : State) (r : Nat) : Nat := fieldOf s (rRing r 3) 32 16
def rgCqTail (s : State) (r : Nat) : Nat := fieldOf s (rRing r 3) 48 16
def rgCqHead (s : State) (r : Nat) : Nat := fieldOf s (rRing r 4) 0 16
/-- A ring base: bits [11:0] ignored, a device address in [51:0]. -/
def rgBase (s : State) (r word : Nat) (host : Bool) : Nat :=
  (regOf s (rRing r word)).toNat / 4096 * 4096 % (if host then 2 ^ 64 else 2 ^ 52)
def rgSqBase (s : State) (r : Nat) : Nat := rgBase s r 0 (rgSqHost s r)
def rgCqBase (s : State) (r : Nat) : Nat := rgBase s r 1 (rgCqHost s r)

/-- The difference of two free-running indices (R319). -/
def idxSub (a b : Nat) : Nat := (a + 2 ^ 16 - b) % 2 ^ 16

/-- A device-memory ring lies wholly in shared SRAM or tier 1 within the partition (R321). -/
def ringPlaceOk (s : State) (r a n : Nat) : Bool :=
  (tierOf a == .sram || tierOf a == .t1) && tierOf (a + n - 1) == tierOf a && belongs s (rgPart r) a n

/-- The enable check (R321). -/
def ringCheck (s : State) (r : Nat) : Bool :=
  4 ≤ rgSqLog s r && 4 ≤ rgCqLog s r && rgNotify s r != 3 && (if rgFunc s r then rgVec s r ≤ 15 else 64 ≤ rgVec s r) &&
    (!rgFunc s r || rgPart r < s.host.numVfs) &&
    (rgSqHost s r || ringPlaceOk s r (rgSqBase s r) (64 * 2 ^ rgSqLog s r)) &&
    (rgCqHost s r || ringPlaceOk s r (rgCqBase s r) (32 * 2 ^ rgCqLog s r)) &&
    (rgNotify s r != 2 || coreOfPart s (rgPart r) (rgNtfCore s r))

/-- A ring error: ERR_EVT, HIF_RING_ERR. -/
def ringErr (r : Nat) : Act Unit := do
  wrF (rRing r 4) 16 1 1
  raise 0x1001 0 (dieIO 0) r (some (rgPart r))

/-- Entries not yet fetched are discarded (R321). -/
def ringDiscard (r : Nat) : Act Unit := do
  let s ← look
  let n := idxSub (rgSqTail s r) (rgSqHead s r)
  if n ≠ 0 then ctr32 (rHif r 0x18) n

/-- A ring is disabled (R318, R321). -/
def ringDisable (r : Nat) : Act Unit := do
  if ringEn (← look) r then
    wrF (rRing r 2) 11 1 0
    ringDiscard r

/-- Fields of descriptor word 2 that may change while EN = 1: EN, PRIO, IRQ_COUNT, IRQ_HOLDOFF_US. -/
def ringLive : Nat := fm 11 1 ||| fm 16 4 ||| fm 32 24

/-- The word `new` arrives for word `word` of a descriptor (R321). -/
def ringPut (r word new : Nat) : Act Unit := do
  let s ← look
  let old := (regOf s (rRing r word)).toNat
  if word < 4 && ringEn s r then
    let live := if word = 2 then ringLive else 0
    if (old ^^^ new) &&& (0xFFFFFFFFFFFFFFFF ^^^ live) ≠ 0 then ownDenied
    wrReg (rRing r word) ((new &&& live) ||| (old &&& (0xFFFFFFFFFFFFFFFF ^^^ live)))
    if !ringEn (← look) r then ringDiscard r
  else
    wrReg (rRing r word) new
    if word = 2 && bitsOf new 11 1 = 1 then
      if ringCheck (← look) r then
        wrF (rRing r 3) 16 48 0
        wrF (rRing r 4) 0 16 0
      else
        wrF (rRing r 2) 11 1 0
        ringErr r

/-- A write by the VF of the ring's partition: the tenant fields (R317, R320). -/
def ringVfWrite (r word : Nat) (w : Wr) : Act Unit := do
  let off := rRing r word
  let rw := match regRow off with
    | some x => x.rw &&& halfMask w.half
    | none => 0
  let new := plainWrite off (← rdReg off) { w with val := w.val }
  let low := word == 2 && w.half != .high
  if rw = 0 || 3 < word then ownDenied
  else if low && 15 < bitsOf new 22 10 then ownDenied
  else ringPut r word (if low then setBits new 10 1 1 else new)

/-- A write of a word of a ring descriptor (R320, R337). -/
def ringDescWriteAct (r word : Nat) (w : Wr) : Act Unit := do
  match w.path with
  | .vf n => if pathUp (← look) w.path && rgPart r == n.val then ringVfWrite r word w
  | p => ownerWrite p (do ringPut r word (plainWrite (rRing r word) (← rdReg (rRing r word)) w))

/-- RING_DESC_WRITE (R320, R321). -/
def execRingDescWrite (r : Fin 1024) (word : Fin 8) (w : Wr) (s : State) : Host.Outcome State Fault Refusal :=
  finish (ringDescWriteAct r word w) s

/-! ## Doorbells (R322, R323) -/

/-- A doorbell value arrives; `src` is 1 for PCIe and 2 for the fabric. -/
def doorbell (src r : Nat) (cq full : Bool) (v : Nat) : Act Unit := do
  let s ← look
  if bitsOf (rgDbSrc s r) (src - 1) 1 = 0 then ctr32 (rHif r 0x14)
  else
    let ok := full && v < 2 ^ 16 && ringEn s r &&
      (if cq then idxSub v (rgCqHead s r) ≤ idxSub (rgCqTail s r) (rgCqHead s r)
       else idxSub v (rgSqTail s r) ≤ 2 ^ rgSqLog s r - idxSub (rgSqTail s r) (rgSqHead s r))
    if ok then
      if cq then wrF (rRing r 4) 0 16 v else wrF (rRing r 3) 16 16 v
    else
      ctr32 (rHif r 0x10)
      if fieldOf s (rRing r 4) 16 1 = 0 then ringErr r

/-- A doorbell over PCIe: the PF's pages hold every ring, a VF's page those of its partition (R315, R322). -/
def pcieDoorbell (p : Path) (r : Nat) (cq full : Bool) (v : Nat) : Act Unit := do
  let s ← look
  let own := match p with
    | .host => true
    | .vf n => rgPart r == n.val
    | _ => false
  if own && pathUp s p then doorbell 1 r cq full v

/-- SQ_TAIL_DOORBELL (R322). -/
def execSqTailDoorbell (path : Path) (r : Fin 1024) (full : Bool) (val : Word) (s : State) : Host.Outcome State Fault Refusal :=
  finish (pcieDoorbell path r false full val.toNat) s

/-- CQ_HEAD_DOORBELL (R322). -/
def execCqHeadDoorbell (path : Path) (r : Fin 1024) (full : Bool) (val : Word) (s : State) : Host.Outcome State Fault Refusal :=
  finish (pcieDoorbell path r true full val.toNat) s

/-! ## Fetching (R324) -/

/-- Entries a fetch brings: up to four, up to 256 outstanding. -/
def fetchCount (s : State) (r : Nat) : Nat :=
  min 4 (min (idxSub (rgSqTail s r) (rgSqHead s r)) (256 - (ringOf s r).entries.length))

/-- A ring with entries to fetch. -/
def fetchable (s : State) (r : Nat) : Bool := ringEn s r && (!rgSqHost s r || hostUp s) && 0 < fetchCount s r

/-- A ring of higher PRIO has entries to fetch (R189, R324; log entry 91). -/
def ringAhead (s : State) (r : Nat) : Bool := (List.range 1024).any (fun q => fetchable s q && rgPrio s r < rgPrio s q)

/-- One fetched entry joins the ring. -/
def takeEntry (r : Nat) (x : Item) (bad : Bool) : Act Unit := do
  let s ← look
  modRing r (fun g => { g with entries := g.entries ++ [{ idx := g.seq, bytes := x, bad := bad }], seq := g.seq + 1 })
  wrF (rRing r 3) 32 16 ((rgSqHead s r + 1) % 2 ^ 16)
  ctr64 (rHif r 0)

/-- RING_FETCH (R324); `hostBytes` is what the host's memory answers. -/
def ringFetchAct (r : Nat) (hostBytes : List Byte) : Act Unit := do
  let s ← look
  if fetchable s r && !ringAhead s r then
    for k in List.range (fetchCount s r) do
      let s ← look
      if rgSqHost s r then takeEntry r (BitVec.ofNat 512 (leNat ((hostBytes.drop (64 * k)).take 64))) false
      else
        let a := rgSqBase s r + 64 * (rgSqHead s r % 2 ^ rgSqLog s r)
        let good ← consume (dieIO 0) r (some (rgPart r)) a 64
        takeEntry r (memItem (← look) a) (!good)

/-- RING_FETCH (R324). -/
def execRingFetch (r : Fin 1024) (hostBytes : List Byte) (s : State) : Host.Outcome State Fault Refusal :=
  finishIf (fetchOk hostBytes) (ringFetchAct r hostBytes) s

/-! ## Entries in general (R324, R325, R330) -/

/-- `len` bits from bit `lo` of byte `byte` of an entry. -/
def eb (e : RingEntry) (byte lo len : Nat) : Nat := ibits e.bytes (8 * byte + lo) len
def eType (e : RingEntry) : Nat := eb e 0 0 8
def eFence (e : RingEntry) : Bool := eb e 1 0 1 == 1
def eNoCqe (e : RingEntry) : Bool := eb e 1 1 1 == 1
def eTag (e : RingEntry) : Nat := eb e 4 0 32

/-- How an entry's work goes on. -/
inductive EntryEnd where
  | done (status result : Nat)
  /-- Another event completes it. -/
  | later
  /-- It has not started. -/
  | wait
  deriving DecidableEq, Repr

/-- An entry completes (R324, R331). -/
def endEntry (r : Nat) (e : RingEntry) (status result : Nat) : Act Unit := do
  retireEntry r e.idx
  unless status = 0 && eNoCqe e do postCqe r { tag := eTag e, src := 0, status := status, result := result }

/-- The next entry to start: entries start in index order, behind a FENCE when every earlier one is complete, and none while a completion
waits for a slot (R324, R332). -/
def nextEntry (s : State) (r : Nat) : Option RingEntry :=
  let g := ringOf s r
  match g.entries.find? (fun e => !e.started) with
  | none => none
  | some e => if cqStalled s r || (eFence e && (g.entries.head?.map (·.idx)) != some e.idx) then none else some e

/-- What the job's state does to an entry (R330): none where it runs, some false where it is held, some true where it is ABORTED. -/
def jobGate (s : State) (r : Nat) (e : RingEntry) : Option Bool :=
  let t := eType e
  match jobState s (rgPart r) with
  | 0 => if t = 1 || t = 3 || t = 4 then some true else none
  | 1 => if t = 1 || t = 3 || t = 4 then some false else none
  | 2 => none
  | _ => if t = 0 || 8 < t then none else some true

/-- Start the next entry of a ring where its type is one of the row's (R324, R325, R330, R331). -/
def startEntry (r : Nat) (types : Nat → Bool) (body : RingEntry → Act EntryEnd) : Act Unit := do
  let s ← look
  match nextEntry s r with
  | none => return
  | some e =>
    if e.bad then endEntry r e 9 0
    else if types (eType e) then
      match jobGate s r e with
      | some false => return
      | some true => endEntry r e 8 0
      | none =>
        match (← body e) with
        | .done st res => endEntry r e st res
        | .later => modRing r (fun g => { g with entries := g.entries.map (fun x => if x.idx = e.idx then { x with started := true } else x) })
        | .wait => return

/-- ENTRY_NOP (R325): also an entry of an unknown type, which completes BAD_ENTRY. -/
def execEntryNop (r : Fin 1024) (s : State) : Host.Outcome State Fault Refusal :=
  finish (startEntry r (fun t => t == 0 || 8 < t) (fun e => return if eType e = 0 then .done 0 0 else .done 3 0)) s

/-! ## LAUNCH (R326) -/

def launchBody (r : Nat) (e : RingEntry) : Act EntryEnd := do
  let s ← look
  let p := rgPart r
  let core := eb e 8 0 11
  let tc := eb e 10 0 4
  let c := eb e 10 4 4
  let cp := eb e 12 0 52
  let k := thrKey p c core tc
  if !ctxEn s p c then return .done 3 0
  if !coreOfPart s p core || !belongs s p cp 32 then return .done 4 0
  if (threadOf s k).st != .free then return .done 2 0
  let g := (List.range 4).foldl (fun (g : Tbl Word) n => tput 0 g n (BitVec.ofNat 64 (eb e (24 + 8 * n) 0 64))) []
  eff (.thread k { st := .ready, cp := BitVec.ofNat 52 cp, prio := BitVec.ofNat 4 (eb e 11 0 4), g := g
                   ref := some { ring := r, idx := e.idx, tag := eTag e, noCqe := eNoCqe e, src := 0 } })
  return .later

/-- LAUNCH (R326). -/
def execLaunch (r : Fin 1024) (s : State) : Host.Outcome State Fault Refusal :=
  finish (startEntry r (· == 1) (launchBody r)) s

/-! ## COPY (R327) -/

def cpSrcHost (e : RingEntry) : Bool := eb e 28 0 1 == 1
def cpDstHost (e : RingEntry) : Bool := eb e 28 1 1 == 1
def cpFill (e : RingEntry) : Bool := eb e 28 2 1 == 1
def cpLen (e : RingEntry) : Nat := eb e 24 0 32
/-- SRC or DST: a host bus address, or a device address in [51:0]. -/
def cpAddr (e : RingEntry) (byte : Nat) (host : Bool) : Nat := if host then eb e byte 0 64 else eb e byte 0 52

/-- The staged copies whose commit is PENDING, which must not be rewritten (R26): address and length. -/
def stagedHeld (s : State) : List (Nat × Nat) :=
  (s.groups.filter (fun e => e.2.next.isSome)).map (fun e => (stagedXg s e.1, 64)) ++
    (s.parts.filter (fun e => e.2.eptNext != e.2.eptGen)).map (fun e => (e.2.eptStaged, imageLen (min 4096 (nlayerAt s e.2.eptStaged))))

/-- A ring writes memory; bytes of a staged copy whose commit is PENDING are discarded, and the write counts in OWN_DENIED (R26). -/
def copyPut (a : Nat) (bs : List Byte) : Act Unit := do
  let held := (stagedHeld (← look)).filter (fun r => a < r.1 + r.2 && r.1 < a + bs.length)
  if held.isEmpty then putBytes a bs
  else
    for x in bs.zipIdx do
      unless held.any (fun r => r.1 ≤ a + x.2 && a + x.2 < r.1 + r.2) do putBytes (a + x.2) [x.1]
    ownDenied

/-- The bytes move in ascending 64-byte chunks; an error on either side ends the entry with the bytes moved so far. -/
def copyRun (r : Nat) (e : RingEntry) (hostBytes : Option (List Byte)) : Act EntryEnd := do
  let s ← look
  let p := rgPart r
  let n := cpLen e
  let src := cpAddr e 8 (cpSrcHost e)
  let dst := cpAddr e 16 (cpDstHost e)
  let hostSide := (cpSrcHost e && !cpFill e) || cpDstHost e
  if hostSide && !hostUp s then return .done 5 0
  let have_ := if cpSrcHost e && !cpFill e then min n ((hostBytes.getD []).length) else n
  let mut moved := 0
  let mut bad := false
  for k in List.range ((n + 63) / 64) do
    let m := min 64 (have_ - 64 * k)
    if !bad && m ≠ 0 then
      let read ← if cpSrcHost e || cpFill e then pure true else consume (dieIO 0) r (some p) (src + 64 * k) m
      let good ← if !read || cpDstHost e then pure read else aliveRuns (dieIO 0) r (some p) [(dst + 64 * k, m)]
      if good then
        let s ← look
        let bs := if cpFill e then (List.range m).map (fun j => BitVec.ofNat 8 (eb e (8 + j % 8) 0 8))
          else if cpSrcHost e then ((hostBytes.getD []).drop (64 * k)).take m
          else memBytes s (src + 64 * k) m
        if cpDstHost e then emit (.hostWrite (dst + 64 * k) bs) else copyPut (dst + 64 * k) bs
        moved := moved + m
      else bad := true
  return if bad then .done 9 moved else if moved < n then .done 5 moved else .done 0 moved

/-- A COPY of 64 KiB or more to or from tier 2. -/
def copyHeavy (e : RingEntry) : Bool :=
  (!cpDstHost e && 65536 ≤ t2Bytes [(cpAddr e 16 false, cpLen e)]) ||
    (!cpFill e && !cpSrcHost e && 65536 ≤ t2Bytes [(cpAddr e 8 false, cpLen e)])

def copyBody (r : Nat) (hostBytes : Option (List Byte)) (e : RingEntry) : Act EntryEnd := do
  let s ← look
  let p := rgPart r
  let n := cpLen e
  let sides := (if cpDstHost e then [] else [cpAddr e 16 false]) ++ (if cpFill e || cpSrcHost e then [] else [cpAddr e 8 false])
  if n = 0 || (cpSrcHost e && cpDstHost e) then return .done 3 0
  if !sides.all (fun a => belongs s p a n) then return .done 4 0
  if sides.any (fun a => t3BusyRun s a n) then return .wait
  if copyHeavy e then
    askGrant { who := .ringCopy r e.idx, mw := classMw s (eb e 28 4 3), prio := rgPrio s r, part := p }
    modRing r (fun g => { g with entries := g.entries.map (fun x => if x.idx = e.idx then { x with grant := 1 } else x) })
    return .later
  copyRun r e hostBytes

/-- COPY: one that has its grant moves its bytes, else the next entry starts (R327). -/
def copyAct (r : Nat) (hostBytes : Option (List Byte)) : Act Unit := do
  let s ← look
  match (ringOf s r).entries.find? (fun e => e.started && e.grant = 2 &&
      !s.pw.held.any (fun g => g.who == .ringCopy r e.idx && g.paused)) with
  | some e =>
    match (← copyRun r e hostBytes) with
    | .done st res =>
      dropGrant (.ringCopy r e.idx)
      endEntry r e st res
    | _ => return
  | none => startEntry r (· == 2) (copyBody r hostBytes)

/-- COPY (R327); `hostBytes` is what a read of the host answers: none for an error, fewer bytes than LENGTH where it breaks off. -/
def execCopy (r : Fin 1024) (hostBytes : Option (List Byte)) (s : State) : Host.Outcome State Fault Refusal :=
  finish (copyAct r hostBytes) s

/-! ## QPUSH and PIPSIG (R328) -/

def qpushBody (r : Nat) (hostBytes : List Byte) (e : RingEntry) : Act EntryEnd := do
  let s ← look
  let p := rgPart r
  let q := eb e 8 0 12
  let fromHost := eb e 10 2 1 == 1
  let a := eb e 16 0 52
  if !mayPush s p q then return .done 3 0
  if fromHost then
    if !hostUp s || hostBytes.length ≠ 64 then return .done 5 0
  else
    if !belongs s p a 64 then return .done 4 0
    if t3Busy s a then return .wait
    if !(← consume (dieIO 0) r (some p) a 64) then return .done 9 0
  let s ← look
  let x := if fromHost then BitVec.ofNat 512 (leNat hostBytes) else memItem s a
  let ok ← qPushItem q x (eb e 10 0 1 == 1) (eb e 10 1 1 == 1) (dieIO 0)
  return if ok then .done 0 0 else .done 6 0

/-- QPUSH (R328); `hostBytes` is the item where it lies in host memory, empty where the read fails. -/
def execQpush (r : Fin 1024) (hostBytes : List Byte) (s : State) : Host.Outcome State Fault Refusal :=
  finish (startEntry r (· == 3) (qpushBody r hostBytes)) s

def pipsigBody (r : Nat) (e : RingEntry) : Act EntryEnd := do
  let p := rgPart r
  let core := eb e 8 0 16
  let n := eb e 12 0 16
  if !coreOfPart (← look) p core then return .done 4 0
  addPip p (eb e 11 0 4) core (eb e 10 0 6) (if n = 0 then 1 else n)
  return .done 0 0

/-- PIPSIG (R328). -/
def execPipsig (r : Fin 1024) (s : State) : Host.Outcome State Fault Refusal :=
  finish (startEntry r (· == 4) (pipsigBody r)) s

/-! ## Completions (R331–R333) -/

/-- A completion in the layout of R331. -/
def cqeBytes (s : State) (r : Nat) (c : Cqe) : List Byte :=
  let phase := 1 - rgCqTail s r / 2 ^ rgCqLog s r % 2
  natBytes 32 (c.tag % 2 ^ 32 ||| rgSqHead s r <<< 32 ||| (r % 16) <<< 48 ||| rgPart r <<< 56 ||| (c.src % 4) <<< 62 |||
    (c.status % 256) <<< 64 ||| (c.detail % 256) <<< 72 ||| (c.result % 2 ^ 32) <<< 96 ||| (c.result64 % 2 ^ 64) <<< 128 ||| phase <<< 255)

/-- The notification of a ring (R333). -/
def ringNotify (r : Nat) : Act Unit := do
  let s ← look
  modRing r (fun g => { g with unnotified := 0, firstAt := none })
  if rgNotify s r = 1 then sendVec (!rgFunc s r) (if rgFunc s r then rgPart r else 0) (rgVec s r)
  else if rgNotify s r = 2 then unitSignal (dieIO 0) r (rgPart r) (rgNtfCore s r) (rgNtfPip s r)

/-- A completion has been written: the notification may fire (R333). -/
def ringCount (r : Nat) : Act Unit := do
  let s ← look
  if rgNotify s r ≠ 0 then
    modRing r (fun g => { g with unnotified := g.unnotified + 1, firstAt := if g.firstAt.isNone then some s.time.now else g.firstAt })
    if rgIrqCount s r ≤ (ringOf (← look) r).unnotified then ringNotify r

/-- Threads whose HALT waits for room in the holding buffer go on (R332). -/
def cqRoom (r : Nat) : Act Unit := do
  for e in (← look).threads do
    match e.2.wait with
    | .cqRoom st => if (e.2.ref.map (·.ring)) = some r then haltEnd e.1 st
    | _ => pure ()

/-- CQE_WRITE (R318, R332): the oldest waiting completion takes a free slot; with the host link down it is lost. -/
def cqeWriteAct (r : Nat) : Act Unit := do
  let s ← look
  match (ringOf s r).hold with
  | [] => return
  | c :: rest =>
    if rgCqHost s r && !hostUp s then
      modRing r (fun g => { g with hold := rest })
      ctr32 0x148000
      cqRoom r
    else if !cqFull s r 0 then
      let bs := cqeBytes s r c
      let a := rgCqBase s r + 32 * (rgCqTail s r % 2 ^ rgCqLog s r)
      modRing r (fun g => { g with hold := rest })
      if rgCqHost s r then emit (.hostWrite a bs) else putBytes a bs
      wrF (rRing r 3) 48 16 ((rgCqTail s r + 1) % 2 ^ 16)
      ctr64 (rHif r 8)
      ringCount r
      cqRoom r

/-- CQE_WRITE (R332). -/
def execCqeWrite (r : Fin 1024) (s : State) : Host.Outcome State Fault Refusal := finish (cqeWriteAct r) s

/-- RING_IRQ_HOLDOFF (R333). -/
def execRingIrqHoldoff (r : Fin 1024) (s : State) : Host.Outcome State Fault Refusal :=
  finish (do
    let s ← look
    match (ringOf s r).firstAt with
    | none => return
    | some t =>
      if rgHoldNs s r ≠ 0 && rgNotify s r ≠ 0 then
        advanceTo (t + rgHoldNs s r)
        ringNotify r) s

/-! ## PCIe events (R314, R318, R333, R414) -/

/-- A queue pair goes; its work completes ABORTED where a completion can be written (R318, R329). -/
def dropQp (n : Nat) (q : Qp) : Act Unit := do
  modHost (fun h => { h with qps := h.qps.filter (fun e => e.1 != n) })
  for x in q.sends ++ q.recvs do
    retireEntry x.ring x.idx
    postCqe q.ring { tag := x.tag, src := 0, status := 8 }

/-- Rings of the first 1,024 that a predicate names are disabled. -/
def ringsOff (f : State → Nat → Bool) : Act Unit := do
  for r in List.range 1024 do
    let s ← look
    if ringEn s r && f s r then ringDisable r

/-- FLR of a VF (R318). -/
def vfReset (n : Nat) : Act Unit := do
  let s ← look
  for e in s.host.qps do
    if rgPart e.2.ring == n && rgFunc s e.2.ring then dropQp e.1 e.2
  ringsOff (fun s r => rgPart r == n && rgFunc s r)

/-- VF_FLR (R318). -/
def execVfFlr (n : Fin 64) (s : State) : Host.Outcome State Fault Refusal := finish (vfReset n) s

/-- VF_ENABLE_CLEAR (R318): an FLR of every VF. -/
def execVfEnableClear (s : State) : Host.Outcome State Fault Refusal :=
  finish (do
    for n in List.range 64 do
      vfReset n
    modHost (fun h => { h with numVfs := 0 })) s

/-- PCIE_LINK_DOWN (R318, R414): also hot reset and PERST_L. -/
def execPcieLinkDown (s : State) : Host.Outcome State Fault Refusal :=
  finish (do
    if hostUp (← look) then
      wrF 0x110000 0 9 0
      wrF 0x110000 32 1 1
      raise 0x4001 0 (dieIO 0) 0
    ringsOff (fun s r => rgSqHost s r || rgCqHost s r)) s

/-- PCIE_LINK_UP (R314): a link that trains at no width is reported down; the link works only in a trained module; the host enables its VFs (log entry 33). -/
def execPcieLinkUp (rate : BitVec 3) (width : BitVec 5) (s : State) : Host.Outcome State Fault Refusal :=
  finish (do
    let s ← look
    let w := width.toNat
    if s.mod.phase != .diag && s.mod.phase != .off && s.mod.phase != .held && 1 ≤ rate.toNat && rate.toNat ≤ 6 &&
        [1, 2, 4, 8, 16].contains w then
      wrF 0x110000 0 9 (1 ||| rate.toNat <<< 1 ||| w <<< 4)
      modHost (fun h => { h with numVfs := 64 })
    else if w = 0 && (s.mod.phase == .boot || s.mod.phase == .ready) then raise 0x4001 0 (dieIO 0) 0) s

/-- MSIX_VECTOR_UNMASK (R333): a held message is sent. -/
def execMsixVectorUnmask (pf : Bool) (fn : Fin 64) (vec : BitVec 10) (s : State) : Host.Outcome State Fault Refusal :=
  finish (do
    let s ← look
    let k := (pf, fn.val, vec.toNat)
    modHost (fun h => { h with masked := h.masked.filter (· != k), msixPending := h.msixPending.filter (· != k) })
    if s.host.msixPending.contains k then sendVec pf fn vec.toNat) s

end Sys2Proof.Machine
end

