-- ==== Sys2Proof/Machine/Owner.lean ====
section
/-!
DEFINITION. Ownership of the set-up registers (R335–R340, R422).
-/

namespace Sys2Proof.Machine

def ownState (s : State) : Nat := fieldOf s 0x010020 2 2
def ownerOf (s : State) : Nat := fieldOf s 0x010020 0 2
/-- OWN_HB_TIMEOUT in force, in ns. -/
def hbNs (s : State) : Nat := s.own.hbMs * 1000000
def claimOf (s : State) (c : Nat) : Option Claim := (s.own.claims.find? (fun e => e.1 == c)).map (·.2)

/-- A candidate's claim stands (R335). -/
def stands (s : State) (c : Nat) : Bool :=
  match claimOf s c with
  | some x => x.standing && s.time.now < x.writtenAt + hbNs s
  | none => false

/-- OWN_CAND_c shows the claims (R340). -/
def showCands : Act Unit := do
  let s ← look
  for c in [1, 2, 3] do
    match claimOf s c with
    | none => wrReg (0x010028 + 8 * c) 0xFFFFFFFF0000
    | some x =>
      wrReg (0x010028 + 8 * c) (x.prio % 16 ||| (if stands s c then 16 else 0) |||
        min 0xFFFFFFFF ((s.time.now - x.writtenAt) / 1000000) <<< 16)

/-- An owner change is signalled (R422). -/
def ownerChanged : Act Unit := do
  if (← rdF 0x010020 8 1) = 0 then
    wrF 0x010020 8 1 1
    sendVec true 0 1
  emit (.ibi 1)

/-- The owner becomes candidate `c` with its claim, and the heartbeat period starts. -/
def makeOwner (c : Nat) (x : Claim) : Act Unit := do
  wrF 0x010020 0 2 c
  wrF 0x010020 2 2 2
  wrF 0x010020 4 4 x.prio
  let now := (← look).time.now
  modOwn (fun o => { o with nonce := x.nonce, settleAt := none, hbAt := now })
  ownerChanged

/-- A claim by a path (R335, R336). -/
def claimAct (code cand prio nonce : Nat) : Act Unit := do
  if cand = 0 && code ≠ 0 then return
  if code = 0 || cand ≠ code then ownDenied
  else
    let now := (← look).time.now
    let x : Claim := { prio := prio, nonce := nonce, writtenAt := now, standing := true }
    modOwn (fun o => { o with claims := o.claims.filter (fun e => e.1 < cand) ++ (cand, x) :: o.claims.filter (fun e => cand < e.1) })
    if ownState (← look) = 0 then
      wrF 0x010020 2 2 1
      modOwn (fun o => { o with settleAt := some (now + 1000000) })
    showCands

/-- A write of OWN_CLAIM (R335). -/
def claimWrite (w : Wr) : Act Unit := do
  if pathUp (← look) w.path then claimAct (pathCode w.path) (wrBits w 0 2) (wrBits w 4 4) (wrBits w 32 32)

/-- OWN_CLAIM (R335, R336). -/
def execOwnClaim (w : Wr) (s : State) : Host.Outcome State Fault Refusal := finish (claimWrite w) s

/-- The standing claim that wins: the highest PRIO, then FABRIC, BMC, HOST (R336). -/
def winner (s : State) : Option (Nat × Claim) :=
  [1, 2, 3].foldl (fun a c => match claimOf s c with
    | none => a
    | some x =>
      if !stands s c then a
      else match a with
        | none => some (c, x)
        | some b => if b.2.prio ≤ x.prio then some (c, x) else a) none

/-- The election settles (R336). -/
def settleAct : Act Unit := do
  let s ← look
  match s.own.settleAt with
  | none => return
  | some t =>
    if ownState s = 1 then
      advanceTo t
      let s ← look
      match winner s with
      | none =>
        wrF 0x010020 2 2 0
        modOwn (fun o => { o with settleAt := none })
      | some (c, x) =>
        makeOwner c x
        ctr64 0x010068
        for k in [1, 2, 3] do
          if stands s k then emit (.notice 0 k)
      showCands

/-- OWN_ELECTION_SETTLE (R336). -/
def execOwnElectionSettle (s : State) : Host.Outcome State Fault Refusal := finish settleAct s

/-- OWN_CLAIM_EXPIRY (R335). -/
def execOwnClaimExpiry (cand : Fin 4) (s : State) : Host.Outcome State Fault Refusal :=
  finish (do
    let s ← look
    match claimOf s cand with
    | none => return
    | some x =>
      if x.standing then
        advanceTo (x.writtenAt + hbNs s)
        modOwn (fun o => { o with claims := o.claims.map (fun e => if e.1 = cand.val then (e.1, { e.2 with standing := false }) else e) })
        showCands) s

/-- A write by the owner's path with the owner nonce (R338–R340). -/
def nonceWrite (w : Wr) (a : Act Unit) : Act Unit := do
  let s ← look
  if pathUp s w.path then
    if ownState s = 2 && isOwner s w.path && wrBits w 32 32 = s.own.nonce then a else ownDenied

/-- OWN_HB_TIMEOUT as written, within its range (R340). -/
def hbCfg (s : State) : Nat := min 600000 (max 100 (fieldOf s 0x010018 0 32))

/-- A heartbeat (R338); the timeout written to OWN_CFG comes into force. -/
def heartbeatWrite (w : Wr) : Act Unit :=
  nonceWrite w (do
    let s ← look
    modOwn (fun o => { o with hbAt := s.time.now, hbMs := hbCfg s }))

/-- OWN_HEARTBEAT (R338). -/
def execOwnHeartbeat (w : Wr) (s : State) : Host.Outcome State Fault Refusal := finish (heartbeatWrite w) s

/-- Ownership lapses (R339). -/
def lapse : Act Unit := do
  wrF 0x010020 0 2 0
  wrF 0x010020 4 4 0
  modOwn (fun o => { o with nonce := 0 })
  ownerChanged
  let s ← look
  if [1, 2, 3].any (stands s) then
    wrF 0x010020 2 2 1
    modOwn (fun o => { o with settleAt := some (s.time.now + 1000000) })
  else wrF 0x010020 2 2 0

/-- OWN_LAPSE (R339): the heartbeat timeout. -/
def execOwnLapse (s : State) : Host.Outcome State Fault Refusal :=
  finish (do
    let s ← look
    if ownState s = 2 then
      advanceTo (s.own.hbAt + hbNs s)
      lapse) s

/-- A write of OWN_CTRL (R339, R340). -/
def ownCtrlWrite (w : Wr) : Act Unit :=
  nonceWrite w (do
    let s ← look
    let to_ := wrBits w 2 2
    if wrBits w 0 1 = 1 then
      if wrBits w 1 1 = 1 then ownDenied else lapse
    else if wrBits w 1 1 = 1 then
      match claimOf s to_ with
      | none => ownDenied
      | some x => if stands s to_ && to_ ≠ ownerOf s then makeOwner to_ x else ownDenied)

/-- OWN_RELEASE (R339). -/
def execOwnRelease (w : Wr) (s : State) : Host.Outcome State Fault Refusal := finish (ownCtrlWrite w) s

/-- OWN_HANDOVER (R340). -/
def execOwnHandover (w : Wr) (s : State) : Host.Outcome State Fault Refusal := finish (ownCtrlWrite w) s

/-- PF_FLR (R318, R339). -/
def execPfFlr (s : State) : Host.Outcome State Fault Refusal :=
  finish (do
    ringsOff (fun s r => !rgFunc s r)
    let s ← look
    if ownState s = 2 && ownerOf s = 1 then lapse) s

end Sys2Proof.Machine
end

