-- ==== Sys2Proof/Machine/Reset.lean ====
section
/-!
DEFINITION. What a reset stops and clears (R384, R385, R409), holding the module in reset, the fuses and flash it loads (R6, R124, R400),
and DIAG (R388).
-/

namespace Sys2Proof.Machine

/-- Everything that runs stops at once, with no drain (R385); tables that no register shows are empty afterwards. -/
def stopWork : Act Unit := do
  eff (.threadsKeep (fun _ => false))
  for c in (← look).turns do
    eff (.turn c.1 15)
  eff (.pipsKeep (fun _ => false))
  eff (.vbufsKeep (fun _ => false))
  eff (.queuesKeep (fun _ => false))
  eff (.partsKeep (fun _ => false))
  eff (.poolsKeep (fun _ => false))
  eff (.groupsKeep (fun _ => false))
  eff (.portsKeep (fun _ => false))
  eff (.eptKeep (fun _ => false))
  eff (.submits [])
  eff (.tagsDone [])
  eff (.samples [])
  eff (.loads [])
  eff (.launches [])
  eff (.colls [])
  eff (.fab {})
  eff (.host {})

/-- A register that a warm reset keeps (R409). -/
def warmKeeps (off : Nat) : Bool :=
  off < 0x020008 || off = 0x020010 || off = 0x040038 || off = 0x040050 || (0x040200 ≤ off && off < 0x050000) ||
    (0x060000 ≤ off && off < 0x060020) || off = 0x060048 || off = 0x080000 || off = 0x080008 || off = 0x080010 || off = 0x080020 ||
    (0x082000 ≤ off && off < 0x090000) || (0x200000 ≤ off && off < 0x280000 && off ≠ 0x200010)

/-- GLB_ID of the unit (R6). -/
def glbId (s : State) : Nat :=
  0x0110_9400 ||| (if s.nv.gradeH then 1 <<< 16 ||| 0x780 <<< 32 else 0x800 <<< 32)

/-- LCS_STATUS as fuses and flash have it; READY, DIAG, FW_FALLBACK, SVN_IMAGE and FW_ERR stay (R400). -/
def showLcs : Act Unit := do
  let n := (← look).nv
  wrF 0x020000 0 3 n.lcState
  wrF 0x020000 7 1 (if n.lcPending.isSome then 1 else 0)
  wrF 0x020000 8 6 n.svnFused
  wrF 0x020000 24 7 n.lcLeft

/-- Fields marked fuse or flash are loaded (R6, R124, R363, R383, R400, R409). -/
def loadFuses : Act Unit := do
  let s ← look
  wrReg 0x000000 (glbId s)
  for d in List.range 32 do
    wrReg (0x000100 + 8 * d) (tget 0xFFFFFFFFFFFFFFFF s.nv.coreEn d).toNat
  for n in List.range 64 do
    wrReg (rPort n 0x18) ((s.nv.macBase.toNat + n) % 2 ^ 48)
  showLcs
  wrF 0x040050 0 32 s.nv.opHours.toNat
  showFatalLog

/-- The clearing of a cold reset (R384, R409): what the MG and PC dies hold goes too, but for the cause and the memory of the power stage. -/
def coldClear : Act Unit := do
  let s ← look
  stopWork
  eff (.regsKeep (fun off => off = 0x040038))
  eff (.own {})
  eff (.pw { railLatched := s.pw.railLatched })
  eff (.err { fatalNew := s.err.fatalNew })
  modTime (fun _ => {})
  modMem2 (fun m => { m with cxlFailed := [], t3Next := none, t3Part := [], caps := [0, 0, 0, 0] })

/-- LCS_STATUS.DIAG: the boot stops, and the PCIe and CXL links are down (R388). -/
def enterDiag (site : Option Nat) : Act Unit := do
  modMod (fun m => { m with phase := .diag, diagSite := site })
  wrF 0x110000 0 9 0
  for n in List.range 4 do
    wrF (0x200020 + 8 * n) 0 6 0
  wrF 0x020000 4 1 1

/-- The module stops and is held in reset with a cause (R344, R356–R361); the sag thresholds and die temperatures stay in force until the
reset itself (log entry 36). -/
def enterHold (cause rail : Nat) : Act Unit := do
  let s ← look
  if s.mod.phase != .off then
    stopWork
    eff (.regsKeep (fun off => (0x040000 ≤ off && off < 0x050000) || off = 0x020000 || off = 0x020010 ||
      off = 0x200010))
    eff (.own {})
    eff (.pw { railLatched := s.pw.railLatched, senseFail := s.pw.senseFail })
    eff (.err { fatalNew := s.err.fatalNew })
    modTime (fun _ => {})
    wrF 0x020000 3 2 0
    wrReg 0x040038 (cause % 16 ||| (rail % 256) <<< 8)
    modMod (fun m => { m with phase := .held, coldReq := none, warmReq := false, fwBusy := false, fwStaged := none })
    loadFuses

/-- A cold reset is asked for (R385); one in progress takes it in. -/
def askCold (cause : Nat) : Act Unit := do
  let s ← look
  match s.mod.phase with
  | .off => return
  | .boot => return
  | _ => modMod (fun m => { m with coldReq := some cause })

end Sys2Proof.Machine
end

