-- ==== Sys2Proof/Machine/Supply.lean ====
section
/-!
DEFINITION. The 48 V input, sag, rails and sensors (R344, R355–R358), thermal limits and neighbouring regions (R359–R361), ageing and the
margin planner (R362–R366).
-/

namespace Sys2Proof.Machine

/-! ## The input (R344, R355, R356) -/

/-- The sampled input voltage, in mV; PWR_STATUS shows it. -/
def senseInput (mv10 : Nat) : Act Nat := do
  wrF 0x040018 0 16 mv10
  return 10 * mv10

def sagWarnMv (s : State) : Nat := fieldOf s 0x040010 0 16
def sagResetMv (s : State) : Nat := fieldOf s 0x040010 16 16
def sagClearMv (s : State) : Nat := fieldOf s 0x040010 32 16
def sagActive (s : State) : Bool := fieldOf s 0x040020 0 1 == 1
/-- The device is out of reset (or booting), so that its supply rules act. -/
def running (s : State) : Bool := s.mod.phase == .ready || s.mod.phase == .boot || s.mod.phase == .warm

/-- SAG_WARN becomes active (R355). -/
def sagOn : Act Unit := do
  if !sagActive (← look) then
    wrF 0x040020 0 1 1
    emit (.sagPin true)
    setEvent 0x040020 1 2
    ctr32 0x040214
    raise 0x0401 0 diePC 0
    holdCap

/-- SAG_WARN (R355). -/
def execSagWarn (mv10 : BitVec 16) (s : State) : Host.Outcome State Fault Refusal :=
  finish (do
    let v ← senseInput mv10.toNat
    let s ← look
    if running s && v < sagWarnMv s then sagOn) s

/-- SAG_WARN_CLEAR (R355). -/
def execSagWarnClear (mv10 : BitVec 16) (s : State) : Host.Outcome State Fault Refusal :=
  finish (do
    let v ← senseInput mv10.toNat
    let s ← look
    if running s && sagActive s && !s.pw.senseFail && sagWarnMv s + 1000 ≤ v then
      wrF 0x040020 0 1 0
      emit (.sagPin false)
      holdCap) s

/-- SAG_RESET (R356). -/
def execSagReset (mv10 : BitVec 16) (s : State) : Host.Outcome State Fault Refusal :=
  finish (do
    let v ← senseInput mv10.toNat
    let s ← look
    if (running s || s.mod.phase == .diag) && v < sagResetMv s then
      raise 0x0402 4 diePC 0
      enterHold 1 0) s

/-- The module is held in reset with a cause. -/
def heldBy (s : State) (cause : Nat) : Bool := s.mod.phase == .held && fieldOf s 0x040038 0 4 == cause

/-- SAG_RESET_RELEASE (R356). -/
def execSagResetRelease (mv10 : BitVec 16) (s : State) : Host.Outcome State Fault Refusal :=
  finish (do
    let v ← senseInput mv10.toNat
    let s ← look
    if heldBy s 1 && sagClearMv s < v then askCold 1) s

/-- INPUT_OV (R344). -/
def execInputOv (mv10 : BitVec 16) (s : State) : Host.Outcome State Fault Refusal :=
  finish (do
    let v ← senseInput mv10.toNat
    let s ← look
    if (running s || s.mod.phase == .diag) && 62000 < v then
      raise 0x0403 4 diePC 0
      enterHold 2 0) s

/-- INPUT_OV_RELEASE (R344). -/
def execInputOvRelease (mv10 : BitVec 16) (s : State) : Host.Outcome State Fault Refusal :=
  finish (do
    let v ← senseInput mv10.toNat
    if heldBy (← look) 2 && v < 60000 then askCold 2) s

/-- INPUT_POWER_LOSS (R344, R367): below 30 V even the management dies lose power; fuses and flash stay. -/
def execInputPowerLoss (mv10 : BitVec 16) (s : State) : Host.Outcome State Fault Refusal :=
  finish (do
    if 10 * mv10.toNat < 30000 then
      coldClear
      eff (.regsKeep (fun _ => false))
      eff (.memKeep (fun _ => false))
      eff (.mod { phase := .off })) s

/-- INPUT_POWER_UP (R344, R357): the module leaves reset, unless a rail is latched off. -/
def execInputPowerUp (mv10 : BitVec 16) (s : State) : Host.Outcome State Fault Refusal :=
  finish (do
    let s ← look
    if s.mod.phase == .off && 30000 ≤ 10 * mv10.toNat then
      let v ← senseInput mv10.toNat
      eff (.mod { phase := .held })
      loadFuses
      let s ← look
      if sagClearMv s < v && !s.pw.railLatched then askCold 0
    else if heldBy s 0 then
      let v ← senseInput mv10.toNat
      if sagClearMv s < v && !s.pw.railLatched then askCold 0) s

/-- A write of PWR_SAG (R356): clamped, then the order of the thresholds is checked. -/
def sagWrite (w : Wr) : Act Unit := do
  let new := plainWrite 0x040010 (← rdReg 0x040010) w
  let cl := fun (lo len low high : Nat) => min high (max low (bitsOf new lo len))
  let warn := cl 0 16 40000 46000
  let rst := cl 16 16 36000 40000
  let clr := cl 32 16 42000 48000
  if rst < warn && warn < clr then
    wrReg 0x040010 (warn ||| rst <<< 16 ||| clr <<< 32 ||| cl 48 7 30 100 <<< 48)
    holdCap
  else raise 0x040D 0 diePC 0

/-- PWR_SAG_WRITE (R356). -/
def execPwrSagWrite (w : Wr) (s : State) : Host.Outcome State Fault Refusal := finish (ownerWrite w.path (sagWrite w)) s

/-! ## Rails (R357) -/

/-- A rail is at fault: it is latched off and the module held in reset. -/
def railFaultAct (rail : Nat) : Act Unit := do
  let s ← look
  if running s || s.mod.phase == .diag then
    raise 0x0405 4 diePC 0
    enterHold 3 rail
    modPw (fun p => { p with railLatched := true })

/-- RAIL_FAULT (R357). -/
def execRailFault (rail : BitVec 8) (s : State) : Host.Outcome State Fault Refusal := finish (railFaultAct rail.toNat) s

/-- RAIL_LATCH_CLEAR (R357): the input has stayed below 30 V for 1 s. -/
def execRailLatchClear (s : State) : Host.Outcome State Fault Refusal :=
  finish (do
    if (← look).mod.phase == .off then modPw (fun p => { p with railLatched := false })) s

/-! ## Temperature (R358–R361) -/

def rDie (d : Nat) : Nat := 0x040800 + 8 * d
def throttleC (s : State) : Nat := min 100 (max 85 (fieldOf s 0x040028 0 8))

/-- A die counts as at THROTTLE_C whatever it reads: no working sensor, or the hotter of two neighbours too far apart (R358, R361). -/
def forcedHot (s : State) (d : Nat) : Bool := s.pw.noSensor.contains d || s.pw.hotPairs.any (fun x => x.1 == d)

/-- The temperature a die counts as having. -/
def dieTemp (s : State) (d : Nat) : Nat :=
  let t := fieldOf s (rDie d) 0 8
  if forcedHot s d then max t (throttleC s) else t

/-- A die has been below THROTTLE_C for 1 ms, or since it started (R359). -/
def coolLong (s : State) (d : Nat) : Bool :=
  match s.pw.belowSince.find? (fun e => e.1 == d) with
  | some e => decide (e.2 + 1000000 ≤ s.time.now)
  | none => true

/-- A die's latest temperature is judged (R359). -/
def judgeTemp (d : Nat) : Act Unit := do
  let s ← look
  let now := s.time.now
  let t := dieTemp s d
  let hot := s.pw.hotSince.any (fun e => e.1 == d)
  if throttleC s ≤ t then
    if !hot then
      if coolLong s d then
        raise 0x0408 0 d 0
        setEvent 0x040020 3 3
        ctr32 0x04021C
      modPw (fun p => { p with hotSince := (d, now) :: p.hotSince })
      wrF (rDie d) 41 1 1
    modPw (fun p => { p with coolSince := p.coolSince.filter (fun e => e.1 != d), belowSince := p.belowSince.filter (fun e => e.1 != d) })
  else
    if hot then
      modPw (fun p => { p with hotSince := p.hotSince.filter (fun e => e.1 != d) })
      wrF (rDie d) 41 1 0
    if !s.pw.belowSince.any (fun e => e.1 == d) && hot then modPw (fun p => { p with belowSince := (d, now) :: p.belowSince })
    if t + 3 ≤ throttleC s then
      if !s.pw.coolSince.any (fun e => e.1 == d) then modPw (fun p => { p with coolSince := (d, now) :: p.coolSince })
    else modPw (fun p => { p with coolSince := p.coolSince.filter (fun e => e.1 != d) })

/-- THERM_SAMPLE (R359, R360). -/
def sampleTemp (d t : Nat) : Act Unit := do
  let s ← look
  if s.mod.phase != .off then
    wrF (rDie d) 0 8 t
    let n := (s.pw.tripSeen.filter (· == d)).length
    modPw (fun p => { p with tripSeen := p.tripSeen.filter (· != d) ++ (if 110 ≤ t then List.replicate (min 2 (n + 1)) d else []) })
    if running s then judgeTemp d

/-- THERM_SAMPLE (R359). -/
def execThermSample (die : Fin 100) (temp : BitVec 8) (s : State) : Host.Outcome State Fault Refusal :=
  finish (sampleTemp die temp.toNat) s

/-- Watts held on a die, paused or not. -/
def dieMw (s : State) (d : Nat) (f : Grant → Bool) : Nat :=
  (s.pw.held.filter (fun g => g.die == some d && f g)).foldl (fun a g => a + g.mw) 0

/-- Holders of a die that the temperature paused may resume, oldest grant first, up to `goal` mW in all. -/
def unheat (d goal : Nat) : Act Unit := do
  let s ← look
  let step := fun (a : Nat × List Grant) (g : Grant) =>
    if g.die = some d && g.paused && g.hot && a.1 < goal then (a.1 + g.mw, a.2 ++ [{ g with hot := false }]) else (a.1, a.2 ++ [g])
  modPw (fun p => { p with held := (s.pw.held.foldl step (0, [])).2 })

/-- The time a timer of a die runs from. -/
def timerOf (t : Tbl Nat) (d : Nat) : Option Nat := (t.find? (fun e => e.1 == d)).map (·.2)
def restart (t : Tbl Nat) (d now : Nat) : Tbl Nat := t.map (fun e => if e.1 = d then (d, now) else e)

/-- THERM_STEP (R359). -/
def thermStepAct (d : Nat) : Act Unit := do
  let s ← look
  let period := if d < 32 then 100000 else 1000000
  if running s then
    match timerOf s.pw.hotSince d with
    | some t =>
      advanceTo (t + period)
      let now := (← look).time.now
      modPw (fun p => { p with hotSince := restart p.hotSince d now })
      if d < 32 then pauseWatts (dieMw s d (fun _ => true) / 4) (fun g => g.die == some d) true
      else
        let n := fieldOf s 0x040020 8 4
        wrF 0x040020 8 4 (min 8 (n + 1))
        holdCap
    | none =>
      match timerOf s.pw.coolSince d with
      | none => return
      | some t =>
        advanceTo (t + period)
        let now := (← look).time.now
        modPw (fun p => { p with coolSince := restart p.coolSince d now })
        if d < 32 then unheat d (max 1 (dieMw s d (fun _ => true) / 4))
        else
          wrF 0x040020 8 4 (fieldOf s 0x040020 8 4 - 1)
          holdCap

/-- THERM_STEP (R359). -/
def execThermStep (die : Fin 100) (s : State) : Host.Outcome State Fault Refusal := finish (thermStepAct die) s

/-- THERM_TRIP (R360). -/
def execThermTrip (die : Fin 100) (s : State) : Host.Outcome State Fault Refusal :=
  finish (do
    let s ← look
    if (running s || s.mod.phase == .diag) && 2 ≤ (s.pw.tripSeen.filter (· == die.val)).length then
      raise 0x0409 4 die 0
      enterHold 4 0) s

/-- A write of PWR_TRIP_CLR (R360), by any party. -/
def tripClrWrite (w : Wr) : Act Unit := do
  let s ← look
  if wrBits w 0 1 = 1 && heldBy s 4 && w.path == .bmc && (List.range 100).all (fun d => fieldOf s (rDie d) 0 8 ≤ 85) then askCold 4

/-- PWR_TRIP_CLR (R360). -/
def execPwrTripClr (w : Wr) (s : State) : Host.Outcome State Fault Refusal := finish (tripClrWrite w) s

/-- REGION_CHECK of two neighbours, the hotter first (R361). -/
def regionAct (a b dT dV ratio : Nat) : Act Unit := do
  let s ← look
  if running s && a ≠ b then
    let k := (min a b, max a b)
    let volt := 120 < dV || 200 < ratio
    if 30 < dT || 180 < dV || 300 < ratio then
      raise 0x040B 4 a 0
      enterHold 5 0
      askCold 5
    else
      let beyond := 20 < dT || volt
      if beyond && !s.pw.pairs.contains k then
        raise 0x040A 0 a 0
        setEvent 0x040020 4 3
        ctr32 0x040220
        modPw (fun p => { p with pairs := k :: p.pairs })
      let was := s.pw.hotPairs.contains (a, b)
      modPw (fun p => { p with hotPairs := (if 20 < dT || (was && 17 < dT) then [(a, b)] else []) ++
                                 p.hotPairs.filter (fun x => x != (a, b) && x != (b, a)) })
      if !beyond && dT ≤ 17 then modPw (fun p => { p with pairs := p.pairs.filter (· != k) })
      judgeTemp a
      if s.pw.hotPairs.contains (b, a) then judgeTemp b
      if volt && s.pw.vPairs.contains k then
        let v ← drawFree
        railFaultAct (v.toNat % 256)
      else modPw (fun p => { p with vPairs := p.vPairs.filter (· != k) ++ (if volt then [k] else []) })

/-- REGION_CHECK (R361). -/
def execRegionCheck (a b : Fin 100) (dTemp dMv : BitVec 8) (ratioPct : BitVec 10) (s : State) : Host.Outcome State Fault Refusal :=
  finish (regionAct a b dTemp.toNat dMv.toNat ratioPct.toNat) s

/-! ## Coolant and sensors (R358) -/

def flowMin (s : State) : Nat := max 0x3C (fieldOf s 0x040028 8 8)
def coolantActive (s : State) : Bool := fieldOf s 0x040020 7 1 == 1

/-- COOLANT_LOW becomes active. -/
def coolantOn : Act Unit := do
  if !coolantActive (← look) then
    wrF 0x040020 7 1 1
    setEvent 0x040020 5 3
    raise 0x0407 0 diePC 0
    holdCap

/-- The inlet temperature and the flow as they are taken (R358), with PWR_COOLANT. -/
def senseCoolant (inlet flow : Nat) : Act (Nat × Nat) := do
  let s ← look
  let i := if fieldOf s 0x040030 36 1 = 1 then 450 else inlet
  let f := if fieldOf s 0x040030 38 1 = 1 then 0 else flow
  wrF 0x040030 0 12 i
  wrF 0x040030 24 12 f
  return (i, f)

/-- COOLANT_LOW (R358). -/
def execCoolantLow (inlet flow : BitVec 12) (s : State) : Host.Outcome State Fault Refusal :=
  finish (do
    if running (← look) then
      let x ← senseCoolant inlet.toNat flow.toNat
      if x.2 < flowMin (← look) || 450 < x.1 then coolantOn) s

/-- COOLANT_LOW_CLEAR (R358). -/
def execCoolantLowClear (inlet flow : BitVec 12) (s : State) : Host.Outcome State Fault Refusal :=
  finish (do
    if running (← look) then
      let x ← senseCoolant inlet.toNat flow.toNat
      let s ← look
      if coolantActive s && flowMin s + 5 ≤ x.2 && x.1 ≤ 450 then
        wrF 0x040020 7 1 0
        holdCap) s

/-- A detection sets SENSOR_EVT and is raised once (R358). -/
def sensorEvt (die : Nat) : Act Unit := do
  setEvent 0x040020 6 3
  raise 0x0406 0 die 0

/-- SENSOR_FAULT (R358). -/
def sensorAct (x : Sensor) : Act Unit := do
  let s ← look
  if running s then
    match x with
    | .dieJunction d last =>
      if !s.pw.noSensor.contains d.val then
        sensorEvt d
        if last then
          modPw (fun p => { p with noSensor := d.val :: p.noSensor })
          wrF (rDie d) 40 1 1
          judgeTemp d
    | .inlet =>
      if fieldOf s 0x040030 36 1 = 0 then
        wrF 0x040030 36 1 1
        wrF 0x040030 0 12 450
        sensorEvt diePC
    | .outlet =>
      if fieldOf s 0x040030 37 1 = 0 then
        wrF 0x040030 37 1 1
        sensorEvt diePC
    | .flow =>
      if fieldOf s 0x040030 38 1 = 0 then
        wrF 0x040030 38 1 1
        wrF 0x040030 24 12 0
        sensorEvt diePC
        coolantOn
    | .inputSense =>
      if !s.pw.senseFail then
        modPw (fun p => { p with senseFail := true })
        sensorEvt diePC
        sagOn

/-- SENSOR_FAULT (R358). -/
def execSensorFault (x : Sensor) (s : State) : Host.Outcome State Fault Refusal := finish (sensorAct x) s

/-! ## Ageing (R362–R366) -/

/-- Monitors of a die (R362). -/
def monitorsOf (d : Nat) : Nat := if d < 32 then 64 else if d < 44 || 76 ≤ d then 16 else 0
/-- The dies that carry monitors, in index order. -/
def monitored : List Nat := (List.range 100).filter (fun d => monitorsOf d != 0)

def slackTgt (s : State) : Nat := fieldOf s 0x040048 8 6
def slackMin (s : State) : Nat := min (slackTgt s) (fieldOf s 0x040048 16 6)
def vmaxAdd (s : State) : Nat := min 40 (fieldOf s 0x040048 0 6)
def fminMhz (s : State) : Nat := min 1800 (max 1200 (fieldOf s 0x040048 32 12)) / 25 * 25

/-- A die is to have a planner pass. -/
def wantPlan (d : Nat) : Act Unit := do
  if !(← look).pw.planWanted.contains d then
    modPw (fun p => { p with planWanted := p.planWanted.filter (· < d) ++ d :: p.planWanted.filter (d < ·) })

/-- A pass over every die is wanted. -/
def planAll : Act Unit := modPw (fun p => { p with planWanted := monitored })

/-- A die is at END_OF_MARGIN (R362, R364), raised once. -/
def endOfMargin (d : Nat) : Act Unit := do
  if (← rdF (rDie d) 38 1) = 0 then
    wrF (rDie d) 38 1 1
    wrF 0x040050 62 1 1
    raise 0x040C 0 d 0

/-- AGE_MONITOR_REPORT (R362, R363). -/
def monitorAct (d m slack : Nat) : Act Unit := do
  let s ← look
  if running s && m < monitorsOf d && slack ≤ 100 then
    let k := d * 64 + m
    let old := tget (0, 100) s.pw.monitors k
    let run := if 10 ≤ old.1 then 10 else if slack = 0 || slack = 100 then old.1 + 1 else 0
    modPw (fun p => { p with monitors := tput (0, 100) p.monitors k (run, slack) })
    let s ← look
    let ms := (List.range (monitorsOf d)).map (fun j => tget (0, 100) s.pw.monitors (d * 64 + j))
    let good := ms.filter (fun x => x.1 < 10)
    wrF (rDie d) 32 6 (min 63 (good.foldl (fun a x => min a x.2) 100))
    if good.isEmpty then endOfMargin d
    if run < 10 && slack < slackMin s then wantPlan d

/-- AGE_MONITOR_REPORT (R362). -/
def execAgeMonitorReport (die : Fin 100) (monitor : BitVec 6) (slack : BitVec 7) (s : State) : Host.Outcome State Fault Refusal :=
  finish (monitorAct die monitor.toNat slack.toNat) s

/-- The planner's loops over one die (R364): `slacks` are the die's least slacks as the pass measures them, the last one standing for any
further measurement. No step can break a limit of R361 (log entry 40). -/
def planSteps : Nat → Nat → List Nat → Act Nat
  | 0, _, l => return l.headD 0
  | fuel + 1, d, l => do
    let s ← look
    let x := l.headD 0
    let rest := if l.length ≤ 1 then l else l.drop 1
    let v := fieldOf s (rDie d) 8 6
    let f := fieldOf s (rDie d) 14 12
    if slackTgt s ≤ x then return x
    else if v + 5 ≤ vmaxAdd s then
      wrF (rDie d) 8 6 (v + 5)
      ctr32 0x040224
      advance 10000
      planSteps fuel d rest
    else if d < 32 && fminMhz s + 25 ≤ f then
      wrF (rDie d) 14 12 (f - 25)
      ctr32 0x040228
      planSteps fuel d rest
    else return x

/-- The planner takes a die next: the lowest that waits, or at once one whose slack is below SLACK_MIN (R363). -/
def planNext (s : State) (d : Nat) : Bool :=
  s.pw.planWanted.head? == some d || (s.pw.planWanted.contains d && s.mod.phase == .ready && fieldOf s (rDie d) 32 6 < slackMin s)

/-- MARGIN_PLANNER_PASS over one die (R363–R366). -/
def plannerAct (d : Nat) (slacks : List Nat) : Act Unit := do
  let s ← look
  if running s && planNext s d then
    let x ← planSteps 40 d slacks
    wrF (rDie d) 32 6 (min 63 x)
    let s ← look
    if x < slackTgt s then endOfMargin d
    let s ← look
    if x < slackMin s && fieldOf s (rDie d) 38 1 = 1 then wrF (rDie d) 39 1 1
    modPw (fun p => { p with planWanted := p.planWanted.filter (· != d) })
    if (← look).pw.planWanted.isEmpty then
      wrF 0x040050 32 16 ((← rdF 0x040050 32 16) + 1)
      modMod (fun m => { m with planned := true })

/-- MARGIN_PLANNER_PASS (R364). -/
def execMarginPlannerPass (die : Fin 100) (slacks : List (BitVec 6)) (s : State) : Host.Outcome State Fault Refusal :=
  finishIf (slacksOk slacks) (plannerAct die (slacks.map (·.toNat))) s

/-- A write of PWR_AGE_CFG (R363, R367). -/
def ageCfgWrite (w : Wr) : Act Unit := do
  storeWord 0x040048 w
  clampF 0x040048 0 6 0 40
  let s ← look
  wrF 0x040048 32 12 (fminMhz s)
  if wrBits w 48 1 = 1 then planAll

/-- PLAN_NOW (R363). -/
def execPlanNow (w : Wr) (s : State) : Host.Outcome State Fault Refusal := finish (ownerWrite w.path (ageCfgWrite w)) s

/-- OP_HOURS_TICK (R363): an hour out of reset has passed. -/
def execOpHoursTick (s : State) : Host.Outcome State Fault Refusal :=
  finish (do
    let s ← look
    if s.mod.phase == .ready then
      modNv (fun n => { n with opHours := n.opHours + 1 })
      let h := (s.nv.opHours + 1).toNat
      wrF 0x040050 0 32 h
      if h % 720 = 0 then planAll) s

end Sys2Proof.Machine
end

