-- ==== Sys2Proof/Machine/Boot.lean ====
section
/-!
DEFINITION. The mirrors (R16), cold and warm reset and the boot (R48, R254, R380, R384–R388), firmware update (R390) and the life cycle
(R391–R393).
-/

namespace Sys2Proof.Machine

/-! ## Mirrors (R16) -/

/-- The active die of a pair, its mirror, and which of the two work. -/
def pairDies : Pair → Nat × Nat
  | .mg => (dieMG, dieMG + 1)
  | .pc => (diePC, diePC + 1)

def pairUp (s : State) : Pair → Bool × Bool
  | .mg => s.mod.mgUp
  | .pc => s.mod.pcUp

def setPair (x : Pair) (v : Bool × Bool) : Act Unit :=
  modMod (fun m => match x with
    | .mg => { m with mgUp := v }
    | .pc => { m with pcUp := v })

/-- MIRROR_TAKEOVER (R16, R371): the mirror of a failed active die goes on with its state. -/
def execMirrorTakeover (pair : Pair) (s : State) : Host.Outcome State Fault Refusal :=
  finish (do
    let s ← look
    if s.mod.phase != .off && pairUp s pair == (true, true) then
      setPair pair (false, true)
      raise 0x0001 1 (pairDies pair).2 0) s

/-- MIRROR_LOST (R16, R371): both dies have failed; the module is held in reset. -/
def execMirrorLost (pair : Pair) (s : State) : Host.Outcome State Fault Refusal :=
  finish (do
    let s ← look
    if s.mod.phase != .off && pairUp s pair != (false, false) then
      setPair pair (false, false)
      raise 0x0007 4 (pairDies pair).1 0
      enterHold 9 0) s

/-! ## The configuration image (R380) -/

/-- The contents that two intact copies share. -/
def cfgMajority : List Nat → Option Nat
  | [] => none
  | x :: rest => if rest.contains x then some x else cfgMajority rest

/-- The check of the three copies. -/
def checkConfig : Act Unit := do
  let c := (← look).nv.cfg
  let good := (c.filter (·.1)).map (·.2)
  if good.length ≤ 1 then
    raise 0x0004 4 dieMG 0
    enterDiag none
  else
    match cfgMajority good with
    | none =>
      raise 0x0003 4 dieMG 0
      enterDiag none
    | some v =>
      if c.any (fun x => !x.1 || x.2 != v) then
        raise 0x0002 1 dieMG 0
        modNv (fun n => { n with cfg := n.cfg.take 1 ++ (n.cfg.drop 1).map (fun _ => (true, v)) })

/-! ## Cold reset (R384–R386, R393, R409) -/

/-- DEPLOYED to SERVICE or back: it burns a fuse of LC_LEFT (R392). -/
def lcBurns (a b : Nat) : Bool := (a == 2 && b == 3) || (a == 3 && b == 2)

/-- The pending transition is applied (R393). -/
def applyLifecycle : Act Unit := do
  match (← look).nv.lcPending with
  | none => return
  | some t =>
    modNv (fun n => { n with lcState := t, lcLeft := if lcBurns n.lcState t then n.lcLeft - 1 else n.lcLeft
                             lcPending := none, caks := [], mgmtKeys := [], lastSeq := [], sealedIn := none
                             udsBlown := n.udsBlown || t == 4
                             ownerKeysFused := n.ownerKeysFused || (n.lcState == 1 && t == 2), wipeMark := some 0 })

/-- MG0 opens the key store (R395): one that is sealed in another state does not open, and is empty from then on. -/
def openKeyStore : Act Unit := do
  let n := (← look).nv
  if n.sealedIn.any (· != n.lcState) then
    modNv (fun n => { n with caks := [], mgmtKeys := [], lastSeq := [], sealedIn := none })
    raise 0x0201 1 dieMG 0

/-- FATAL_LOGGED as R383 gives it. -/
def showFatalLogged : Act Unit := do
  if (← look).err.fatalNew then
    wrF 0x080028 1 1 1
    modErr (fun e => { e with fatalNew := false })

/-- COLD_RESET: the reset that was asked for, up to the check of the configuration image. -/
def coldResetAct : Act Unit := do
  let s ← look
  match s.mod.coldReq with
  | none => return
  | some c =>
    let inter := fieldOf s 0x200010 0 1 == 1
    applyLifecycle
    coldClear
    wrReg 0x040038 (if s.nv.lcPending.isSome then 8 else c % 16)
    showFatalLogged
    modMem2 (fun m => { m with interleave := inter })
    eff (.mod { phase := .boot, mgUp := s.mod.mgUp, pcUp := s.mod.pcUp })
    loadFuses
    wrF 0x020000 5 1 (if s.nv.activeSlotB then 1 else 0)
    let v ← drawFree
    wrReg 0x020010 v.toNat
    openKeyStore
    checkConfig

/-- COLD_RESET (R384, R386, R395). -/
def execColdReset (s : State) : Host.Outcome State Fault Refusal := finish coldResetAct s

/-! ## Warm reset (R384, R385, R409) -/

def warmResetAct : Act Unit := do
  let s ← look
  if s.mod.warmReq && s.mod.coldReq.isNone && s.mod.phase == .ready then
    stopWork
    eff (.regsKeep warmKeeps)
    wrF 0x020000 3 1 0
    wrReg 0x080018 (← rdReg 0x080010)
    showFatalLogged
    eff (.pw { railLatched := s.pw.railLatched, hotSince := s.pw.hotSince, coolSince := s.pw.coolSince, belowSince := s.pw.belowSince
               tripSeen := s.pw.tripSeen, noSensor := s.pw.noSensor, monitors := s.pw.monitors, planWanted := s.pw.planWanted
               pairs := s.pw.pairs, hotPairs := s.pw.hotPairs, vPairs := s.pw.vPairs, senseFail := s.pw.senseFail })
    wrReg 0x040038 7
    modMod (fun m => { m with phase := .warm, warmReq := false, aligned := false, alignAt := none, alignFails := 0
                              readyDies := [], latRecorded := false, fwBusy := false, fwStaged := none })

/-- WARM_RESET (R384). -/
def execWarmReset (s : State) : Host.Outcome State Fault Refusal := finish warmResetAct s

/-- A write of LCS_RESET (R384, R385): by the owner, and in DIAG by any party (R388). -/
def lcsResetWrite (w : Wr) : Act Unit := do
  let act : Act Unit := do
    if wrBits w 0 1 = 1 then askCold 6
    else if wrBits w 1 1 = 1 then
      if (← look).mod.phase == .ready then modMod (fun m => { m with warmReq := true })
  if (← look).mod.phase == .diag && w.path == .bmc then act else ownerWrite w.path act

/-- LCS_RESET_COLD (R384). -/
def execLcsResetCold (w : Wr) (s : State) : Host.Outcome State Fault Refusal := finish (lcsResetWrite w) s

/-- LCS_RESET_WARM (R384). -/
def execLcsResetWarm (w : Wr) (s : State) : Host.Outcome State Fault Refusal := finish (lcsResetWrite w) s

/-! ## Firmware (R387, R390) -/

/-- An image is accepted (R387, R391). -/
def fwAccepted (s : State) (i : FwImage) : Bool :=
  i.headerOk && i.digestOk && i.sigsOk && i.keysOk && s.nv.svnFused ≤ i.svn.toNat && s.nv.lcState != 4

/-- FW_IMAGE_CHECK: the active slot, then the other one (R387). -/
def fwCheckAct (i : FwImage) : Act Unit := do
  let s ← look
  if s.mod.phase == .boot && !s.mod.fwDone then
    let slotB := if s.mod.fwTried = 0 then s.nv.activeSlotB else !s.nv.activeSlotB
    if fwAccepted s i then
      wrF 0x020000 5 1 (if slotB then 1 else 0)
      wrF 0x020000 6 1 (if s.mod.fwTried = 0 then 0 else 1)
      wrF 0x020000 16 6 i.svn.toNat
      modMod (fun m => { m with fwDone := true, fwSlotB := slotB, fwDigest := i.digest })
    else if s.mod.fwTried = 0 then
      raise 0x0201 1 dieMG 0
      modMod (fun m => { m with fwTried := 1 })
    else
      raise 0x0202 4 dieMG 0
      enterDiag none

/-- FW_IMAGE_CHECK (R387). -/
def execFwImageCheck (img : FwImage) (s : State) : Host.Outcome State Fault Refusal := finish (fwCheckAct img) s

/-- An update or an activation meets MG0 busy with an update (R390). -/
def fwFree (a : Act Unit) : Act Unit := do
  if (← look).mod.fwBusy then ownDenied else a

/-- LCS_CTRL.FW_WRITE: `img` is what MG0 finds at LCS_FW_ADDR, in tier 1. -/
def fwWriteAct (img : FwImage) : Act Unit :=
  fwFree (do
    let s ← look
    if fwAccepted s img && tierOf (fieldOf s 0x020028 12 40 * 4096) == .t1 then
      modMod (fun m => { m with fwBusy := true, fwStaged := some (img.digest, img.svn.toNat) })
    else wrF 0x020000 31 1 1)

/-- LCS_CTRL.ACTIVATE: the boot record names the slot that does not run. -/
def fwActivateAct : Act Unit := fwFree (do
  let b := (← look).mod.fwSlotB
  modNv (fun n => { n with activeSlotB := !b }))

/-- LCS_CTRL.SVN_COMMIT. -/
def svnCommitAct : Act Unit := do
  let v ← rdF 0x020000 16 6
  modNv (fun n => { n with svnFused := max n.svnFused v })
  showLcs

/-- A write of LCS_CTRL (R390, R400). -/
def lcsCtrlWrite (w : Wr) (img : FwImage) : Act Unit := do
  storeWord 0x020020 w
  clampF 0x020020 16 32 60 86400
  if wrBits w 0 1 = 1 then fwWriteAct img
  if wrBits w 1 1 = 1 then fwActivateAct
  if wrBits w 2 1 = 1 then svnCommitAct

/-- An image whose checks a write of LCS_CTRL that names no image may find either way (log entry 2). -/
def anyImage : Act FwImage := do
  let v ← drawFree
  let d ← drawFree
  return { headerOk := v.getLsbD 0, digestOk := v.getLsbD 1, sigsOk := v.getLsbD 2, keysOk := v.getLsbD 3
           svn := v.extractLsb' 8 6, digest := BitVec.ofNat 384 d.toNat }

/-- FW_WRITE (R390). -/
def execFwWrite (w : Wr) (img : FwImage) (s : State) : Host.Outcome State Fault Refusal :=
  finish (ownerWrite w.path (lcsCtrlWrite w img)) s

/-- LCS_CTRL without a named image. -/
def lcsCtrlPlain (w : Wr) : Act Unit := do
  let i ← anyImage
  lcsCtrlWrite w i

/-- FW_ACTIVATE (R390). -/
def execFwActivate (w : Wr) (s : State) : Host.Outcome State Fault Refusal := finish (ownerWrite w.path (lcsCtrlPlain w)) s

/-- SVN_COMMIT (R390). -/
def execSvnCommit (w : Wr) (s : State) : Host.Outcome State Fault Refusal := finish (ownerWrite w.path (lcsCtrlPlain w)) s

/-- FW_WRITE_DONE (R390): the image lies in the slot that does not run, or the read-back failed. -/
def fwWriteDoneAct (ok : Bool) : Act Unit := do
  let s ← look
  match s.mod.fwStaged with
  | none => return
  | some x =>
    if ok then
      modNv (fun n => if s.mod.fwSlotB then { n with slotA := x } else { n with slotB := x })
    else wrF 0x020000 31 1 1
    modMod (fun m => { m with fwBusy := false, fwStaged := none })

/-- FW_WRITE_DONE (R390). -/
def execFwWriteDone (ok : Bool) (s : State) : Host.Outcome State Fault Refusal := finish (fwWriteDoneAct ok) s

/-! ## Life cycle (R392) -/

/-- The transitions that exist, with LC_LEFT (R392). -/
def lcAllowed (a b left : Nat) : Bool :=
  b == 4 || (a == 0 && b == 1) || (a == 1 && b == 2) || (lcBurns a b && left != 0)

/-- LCS_REQ with GO: `authOk` is the outcome of the check of the signed authorisation. -/
def lcsReqAct (v : Nat) (authOk : Bool) : Act Unit := do
  if bitsOf v 3 1 = 1 then
    let s ← look
    let n ← drawFree
    wrReg 0x020010 n.toNat
    let t := bitsOf v 0 3
    if s.nv.lcPending.isNone && authOk && inSram (bitsOf v 12 52) && lcAllowed s.nv.lcState t s.nv.lcLeft then
      modNv (fun n => { n with lcPending := some t })
      showLcs
    else ownDenied

/-- LCS_REQ (R392). -/
def execLcsReq (w : Wr) (authOk : Bool) (s : State) : Host.Outcome State Fault Refusal :=
  finish (ownerWrite w.path (lcsReqAct (wrVal w) authOk)) s

/-- A write of LCS_REQ that does not say how its authorisation checks (log entry 2). -/
def lcsReqPlain (w : Wr) : Act Unit := do
  let v ← drawFree
  lcsReqAct (wrVal w) (v.getLsbD 0)

/-! ## Reset alignment (R48) -/

/-- The module is aligning. -/
def aligning (s : State) : Bool :=
  ((s.mod.phase == .boot && s.mod.fwDone) || s.mod.phase == .warm) && !s.mod.aligned

/-- DIE_READY_REPORT: the last report is the origin, and PC0 selects the first tick at least 1 µs later. -/
def dieReadyAct (d : Nat) : Act Unit := do
  let s ← look
  if aligning s && !s.mod.readyDies.contains d then
    let l := d :: s.mod.readyDies
    let t := s.time.now + 1000
    modMod (fun m => { m with readyDies := l, alignAt := if l.length = 100 then some ((t + 10239) / 10240 * 10240) else none })

/-- DIE_READY_REPORT (R48). -/
def execDieReadyReport (die : Fin 100) (s : State) : Host.Outcome State Fault Refusal := finish (dieReadyAct die) s

/-- ALIGN_TICK: at a cold reset FT starts counting from 0. -/
def alignTickAct : Act Unit := do
  let s ← look
  match s.mod.alignAt with
  | none => return
  | some t =>
    advanceTo t
    modMod (fun m => { m with aligned := true, alignAt := none, alignedAt := t })
    if s.mod.phase == .boot then modTime (fun x => { x with ft := 0, running := true })

/-- ALIGN_TICK (R48). -/
def execAlignTick (s : State) : Host.Outcome State Fault Refusal := finish alignTickAct s

/-- ALIGN_LATENCY_RECORD: sending die, receiving die and cycles of each crossing. -/
def alignRecordAct (l : List (Nat × Nat × Nat)) : Act Unit := do
  let s ← look
  if s.mod.aligned && !s.mod.latRecorded then
    advanceTo (s.mod.alignedAt + 1000)
    modMod (fun m => { m with latRecorded := true })
    for n in List.range 512 do
      match l[n]? with
      | some (a, b, c) => wrReg (0x061000 + 8 * n) (a ||| b <<< 8 ||| c <<< 16 ||| 1 <<< 32)
      | none => wrReg (0x061000 + 8 * n) 0

/-- ALIGN_LATENCY_RECORD (R48, R408). -/
def execAlignLatencyRecord (crossings : List (Fin 100 × Fin 100 × BitVec 16)) (s : State) : Host.Outcome State Fault Refusal :=
  finishIf (crossingsOk crossings) (alignRecordAct (crossings.map (fun x => (x.1.val, x.2.1.val, x.2.2.toNat)))) s

/-- ALIGN_READY_TIMEOUT: PC0 repeats; after the third failure DIAG with the site of the lowest die that is not ready. -/
def alignTimeoutAct : Act Unit := do
  let s ← look
  if aligning s && s.mod.alignAt.isNone then
    if s.mod.alignFails = 2 then
      modMod (fun m => { m with alignFails := 3 })
      enterDiag ((List.range 100).find? (fun d => !s.mod.readyDies.contains d))
    else modMod (fun m => { m with alignFails := m.alignFails + 1, readyDies := [] })

/-- ALIGN_READY_TIMEOUT (R48). -/
def execAlignReadyTimeout (s : State) : Host.Outcome State Fault Refusal := finish alignTimeoutAct s

/-! ## Training, wipes, READY (R254, R255, R386, R393) -/

/-- The tier-3 wipe that a transition began, or a reset interrupted, runs from its last recorded boundary. -/
def startT3Wipe : Act Unit := do
  let s ← look
  if s.mem2.t3Next.isNone then
    match s.nv.wipeMark with
    | none => return
    | some k =>
      let nx := nextT3 s k
      modMem2 (fun m => { m with t3Next := nx })

/-- MEM_TRAINING; a stack that fails for good reads so in MEM_T1_STATUS. -/
def trainAct (ok : Bool) (site : Nat) : Act Unit := do
  let s ← look
  if s.mod.phase == .boot && s.mod.fwDone && s.mod.aligned && !s.mod.trained then
    if ok then
      modMod (fun m => { m with trained := true })
      planAll
      startT3Wipe
    else if s.mod.trainFails = 2 then
      modMod (fun m => { m with trainFails := 3 })
      if 60 ≤ site && site < 76 then wrF 0x200000 (site - 60) 1 0
      raise 0x2005 4 site 0
      enterDiag (some site)
    else modMod (fun m => { m with trainFails := m.trainFails + 1 })

/-- MEM_TRAINING (R254). -/
def execMemTraining (ok : Bool) (site : Fin 100) (s : State) : Host.Outcome State Fault Refusal := finish (trainAct ok site) s

/-- All but tier 3 reads 0 (R384). -/
def wipeMemory : Act Unit := do
  eff (.memKeep (fun a => tierOf a == .t3))
  let keep := fun g => tierOf (64 * g) == .t3
  modMem2 (fun m => { m with poison := m.poison.filter keep, ue := m.ue.filter keep })

/-- The boot has come as far as the wipes (R386). -/
def wipesDue (s : State) : Bool :=
  (s.mod.phase == .boot && s.mod.fwDone && s.mod.aligned && s.mod.trained && s.mod.planned) || (s.mod.phase == .warm && s.mod.aligned)

/-- BOOT_READY: the wipes have ended. -/
def bootReadyAct (wiped : Bool) : Act Unit := do
  let s ← look
  if wipesDue s then
    if wiped then
      wipeMemory
      startT3Wipe
      loadFuses
      wrF 0x020000 3 1 1
      modMod (fun m => { m with phase := .ready })
      sendVec true 0 7
      emit (.ibi 7)
    else
      raise 0x0203 4 dieMG 0
      enterDiag none

/-- BOOT_READY (R386). -/
def execBootReady (wiped : Bool) (s : State) : Host.Outcome State Fault Refusal := finish (bootReadyAct wiped) s

end Sys2Proof.Machine
end

