-- ==== Sys2Proof/Machine/Clock.lean ====
section
/-!
DEFINITION. The fabric time base: its sources, corrections and error bound (R29–R34), and PPS_OUT (R415).
-/

namespace Sys2Proof.Machine

def ftbState (s : State) : Nat := fieldOf s 0x060008 0 3
def ftbSource (s : State) : Nat := fieldOf s 0x060008 4 3
def srcSel (s : State) : Nat := if 3 < fieldOf s 0x060000 0 3 then 0 else fieldOf s 0x060000 0 3
def ptpPort (s : State) : Nat := fieldOf s 0x060000 8 6

/-- The source in use follows the sources at hand and SRC_SEL (R32, R33). A FTB_SET_TIME value that waits for a PPS edge is dropped when
SOURCE changes: R34 does not say what becomes of it (DESIGN CHOICE, log entry 129). -/
def reselect : Act Unit := do
  let s ← look
  let sel := srcSel s
  let cand := if (sel = 0 || sel = 1) && s.time.ptpUp then 1 else if (sel = 0 || sel = 2) && s.time.ppsUp then 2 else 0
  if cand ≠ 0 then
    if cand ≠ ftbSource s || ftbState s = 0 || ftbState s = 3 then
      if ftbState s = 2 then startHold
      wrF 0x060008 4 3 cand
      wrF 0x060008 0 3 1
      modTime (fun t => { t with pendingSet := none })
  else
    wrF 0x060008 4 3 (if sel = 0 then 3 else sel)
    if ftbSource s ≠ (if sel = 0 then 3 else sel) then modTime (fun t => { t with pendingSet := none })
    if sel = 3 then
      wrF 0x060008 0 3 0
      wrF 0x060008 16 16 0xFFFF
      modTime (fun t => { t with holdFrom := none })
    else if ftbState s = 1 || ftbState s = 2 then
      wrF 0x060008 0 3 3
      startHold

/-- A correction by a measured offset of FT against the source, in 2^-16 ns (R30, R31): a forward step fires the entries that it
skips over. -/
def correctFt (off : Int) : Act Unit := do
  settleNone
  let s ← look
  if s.time.running then
    if off < 0 && fieldOf s 0x060000 17 1 = 1 then
      let was := ftNs s
      modTime (fun t => { t with ft := BitVec.ofNat 80 (t.ft.toNat + off.natAbs), slew := 0 })
      setEvent 0x060008 32 6
      let s ← look
      for e in armedIn s (fun e => was < setFire s e && setFire s e ≤ ftNs s) do
        setFireOne e true
    else modTime (fun t => { t with slew := off })

/-- The lock follows a measurement of the source in use: within 20 ns the FTB is LOCKED (R33, log entry 29). -/
def judge (off : Int) : Act Unit := do
  if off.natAbs ≤ 20 * 65536 then
    wrF 0x060008 0 3 2
    wrF 0x060008 16 16 20
    modTime (fun t => { t with holdFrom := none, unlocked := false })
  else wrF 0x060008 0 3 1

/-- A measurement of the source in use. -/
def measure (off : Int) : Act Unit := do
  judge off
  correctFt off

/-- ROLE of NET_PTP_CFG: 1 time receiver, 2 time transmitter; 3 acts as 0 (R142). -/
def ptpRole (s : State) (n : Nat) : Nat := fieldOf s (rPort n 0x40) 0 2

/-- The message is of the port's domain and transport (R140). -/
def ptpMine (s : State) (n : Nat) (domain : BitVec 8) (udp : Bool) : Bool :=
  fieldOf s (rPort n 0x40) 8 8 == domain.toNat && (fieldOf s (rPort n 0x40) 3 1 == 1) == udp

/-- A measured offset of FT from the source, corrected by ASYM_NS (R140): positive where the path from the transmitter is the longer one
(PRESUMED, log entry 32). -/
def asymFixed (s : State) (n : Nat) (off : Int) : Int := off - (BitVec.ofNat 16 (fieldOf s (rPort n 0x40) 16 16)).toInt * 65536

/-- A port answers a request of the delay measurement (R140), with the FT of its arrival. -/
def ptpAnswer (n kind : Nat) (domain : BitVec 8) (udp : Bool) : Act Unit := do
  emitFrame n none 126 (.ptp kind domain.toNat udp (← look).time.ft.toNat)

/-- PTP_EVENT_RX (R32, R126, R140): a Sync feeds the FTB on PTP_PORT with ROLE = 1; a time transmitter answers the requests of its delay
mechanism. A PTP frame bypasses MACsec while PTP_CLEAR = 1 (R139). -/
def ptpEvent (n : Nat) (w : Wire) (domain : BitVec 8) (udp : Bool) (kind : PtpKind) : Act Unit := do
  let s ← look
  if ← frontRx n 126 w false (fieldOf s (rPort n 0x38) 0 1 == 1 && w.sec.isNone) (!w.ext) then
    countRx n 126
    let s ← look
    if s.time.running && ptpMine s n domain udp then
      match kind with
      | .sync off =>
        if ptpPort s = n && ptpRole s n = 1 then
          showBound
          modTime (fun t => { t with ptpUp := true })
          reselect
          if ftbSource (← look) = 1 then measure (asymFixed s n off)
      | .delayReq => if ptpRole s n = 2 && fieldOf s (rPort n 0x40) 2 1 = 0 then ptpAnswer n 0 domain udp
      | .pdelayReq =>
        if (ptpRole s n = 1 || ptpRole s n = 2) && fieldOf s (rPort n 0x40) 2 1 = 1 then
          ptpAnswer n 1 domain udp
          ptpAnswer n 2 domain udp

/-- PTP_EVENT_RX (R140). -/
def execPtpEventRx (msg : PtpMsg) (kind : PtpKind) (s : State) : Host.Outcome State Fault Refusal :=
  finish (ptpEvent msg.arrival.port msg.arrival.wire msg.domain msg.udp kind) s

/-- PPS_IN_EDGE (R32, R34): a waiting FTB_SET_TIME value becomes the FT of the edge. -/
def ppsEdge (off : Int) : Act Unit := do
  if (← look).time.running then
    showBound
    modTime (fun t => { t with ppsUp := true })
    reselect
    let s ← look
    if ftbSource s = 2 then
      match s.time.pendingSet with
      | some v =>
        modTime (fun t => { t with pendingSet := none })
        measure ((s.time.ft.toNat : Int) - (v.toNat : Int) * 65536)
      | none => measure off

/-- PPS_IN_EDGE (R34). -/
def execPpsInEdge (offset : Int) (s : State) : Host.Outcome State Fault Refusal := finish (ppsEdge offset) s

/-- FTB_SOURCE_LOST (R32, R33). -/
def sourceLost (src : TimeSource) : Act Unit := do
  showBound
  modTime (fun t => match src with
    | .ptp => { t with ptpUp := false }
    | .pps => { t with ppsUp := false })
  reselect

/-- FTB_SOURCE_LOST (R33). -/
def execFtbSourceLost (src : TimeSource) (s : State) : Host.Outcome State Fault Refusal := finish (sourceLost src) s

/-- Nanoseconds from the last count of the bound's growth until the bound exceeds ERR_LIMIT_NS (R33). -/
def unlockAfter (s : State) : Nat :=
  let limit := fieldOf s 0x060000 32 16
  let room := (limit - s.time.holdBase) * 1000000000
  if limit < s.time.holdBase || room < s.time.grown then 0 else (room - s.time.grown) / refPpb s + 1

/-- FT_UNLOCKED (R33): the bound, growing since the source was lost, exceeds ERR_LIMIT_NS. -/
def ftUnlockedAct : Act Unit := do
  let s ← look
  match s.time.holdFrom with
  | none => return
  | some t =>
    if !s.time.unlocked then
      advanceTo (t + unlockAfter s)
      showBound
      modTime (fun t => { t with unlocked := true })
      setEvent 0x060008 33 6
      raise 0x0601 0 diePC 0

/-- FT_UNLOCKED (R33). -/
def execFtUnlocked (s : State) : Host.Outcome State Fault Refusal := finish ftUnlockedAct s

/-- A write of FTB_SET_TIME (R34). -/
def setTimeWrite (w : Wr) : Act Unit := do
  let s ← look
  let v := wrVal w
  match ftbSource s with
  | 2 => modTime (fun t => { t with pendingSet := some (BitVec.ofNat 64 v) })
  | 3 => correctFt ((s.time.ft.toNat : Int) - (v : Int) * 65536)
  | _ => return

/-- FTB_SET_TIME_WRITE (R34). -/
def execFtbSetTimeWrite (w : Wr) (s : State) : Host.Outcome State Fault Refusal := finish (ownerWrite w.path (setTimeWrite w)) s

/-- The registers that follow the time take their present values (R33, R34). -/
def showTime : Act Unit := do
  showBound
  wrReg 0x060010 (ftNs (← look))

/-- A read of FTB_NOW_NS copies the fraction of the same instant (R34). -/
def readNow (p : Path) : Act Unit := do
  let s ← look
  if pathUp s p && pathCode p ≠ 0 then
    wrReg 0x060010 (ftNs s)
    wrReg 0x060018 (s.time.ft.toNat % 65536)
    emit (.regData p (BitVec.ofNat 64 (ftNs s)))

/-- FTB_NOW_NS_READ (R34). -/
def execFtbNowNsRead (path : Path) (s : State) : Host.Outcome State Fault Refusal := finish (readNow path) s

/-- PPS_OUT_EDGE (R415): at each FT that is a multiple of 10^9 ns, high for 100 ms. -/
def ppsOut : Act Unit := do
  let s ← look
  if s.time.running then
    let due := (ftNs s + 1000000000 - 1) / 1000000000 * 1000000000
    let due := if s.time.ppsHigh = due + 100000000 then due + 1000000000 else due
    advanceFt due
    modTime (fun t => { t with ppsHigh := due + 100000000 })
    emit (.ppsOut due)

/-- PPS_OUT_EDGE (R415). -/
def execPpsOutEdge (s : State) : Host.Outcome State Fault Refusal := finish ppsOut s

end Sys2Proof.Machine
end

