-- ==== Sys2Proof/Machine/Rdma.lean ====
section
/-!
DEFINITION. RoCEv2 (R141, R329): queue pairs, memory regions, work requests, incoming packets. PSN arithmetic, acknowledgement and NAK
syndromes are those of the InfiniBand reliable connection (log entry 34).
-/

namespace Sys2Proof.Machine

/-! ## Queue pairs and regions -/

def qpOf (s : State) (n : Nat) : Option Qp := (s.host.qps.find? (fun e => e.1 == n)).map (·.2)
def putQp (n : Nat) (q : Qp) : Act Unit :=
  modHost (fun h => { h with qps := h.qps.filter (fun e => e.1 < n) ++ (n, q) :: h.qps.filter (fun e => n < e.1) })
def modQp (n : Nat) (f : Qp → Qp) : Act Unit :=
  modHost (fun h => { h with qps := h.qps.map (fun e => if e.1 = n then (e.1, f e.2) else e) })

/-- Bytes of a path MTU code. -/
def mtuBytes (q : Qp) : Nat := 1024 * 2 ^ q.pmtu

/-- QP_CTL (R325, R329). -/
def qpCtlBody (r : Nat) (e : RingEntry) : Act EntryEnd := do
  let s ← look
  let n := eb e 10 0 10
  if eb e 8 0 1 = 0 then
    if eb e 15 5 2 = 3 || eb e 15 2 3 = 0 then return .done 3 0
    if (qpOf s n).isSome then return .done 2 n
    putQp n { part := rgPart r, ring := r, remoteQpn := eb e 12 0 24, vc := eb e 15 0 2, retry := eb e 15 2 3, pmtu := eb e 15 5 2
              remoteIp := beNat (natBytes 16 (eb e 16 0 128)), psn := eb e 32 0 24, ePsn := eb e 32 0 24, portMask := eb e 40 0 64 }
    return .done 0 n
  else
    match qpOf s n with
    | none => return .done 3 n
    | some q =>
      if q.part ≠ rgPart r then return .done 3 n
      dropQp n q
      return .done 0 n

/-- QP_CTL (R329). -/
def execQpCtl (r : Fin 1024) (s : State) : Host.Outcome State Fault Refusal :=
  finish (startEntry r (· == 5) (qpCtlBody r)) s

/-- MR_CTL (R325, R329). -/
def mrCtlBody (r : Nat) (e : RingEntry) : Act EntryEnd := do
  let s ← look
  let p := rgPart r
  let n := eb e 10 0 12
  let old := s.host.mrs.find? (fun x => x.1 == n)
  let rest := fun (l : List Mr) => modHost (fun h => { h with
    mrs := h.mrs.filter (fun x => x.1 < n) ++ l.map (fun x => (n, x)) ++ h.mrs.filter (fun x => n < x.1) })
  let other := match old with
    | some x => x.2.part != p
    | none => false
  if other then return .done 3 0
  if eb e 8 0 1 = 1 then
    rest []
    return .done 0 0
  let base := eb e 16 0 64
  let len := eb e 24 0 64
  if len ≠ 0 && !belongs s p base len then return .done 4 0
  rest [{ part := p, rd := eb e 8 1 1 == 1, wr := eb e 8 2 1 == 1, keyTag := eb e 12 0 20, base := base, len := len }]
  return .done 0 0

/-- MR_CTL (R329). -/
def execMrCtl (r : Fin 1024) (s : State) : Host.Outcome State Fault Refusal :=
  finish (startEntry r (· == 6) (mrCtlBody r)) s

/-! ## Sending (R141) -/

/-- The port a RoCEv2 packet leaves by: one of PORT_MASK that is UP, which the spec does not name (log entry 28). -/
def rocePort (q : Qp) : Act (Option Nat) := do
  let s ← look
  let up := (List.range 64).filter (fun n => linkUp s n && bitsOf q.portMask n 1 == 1)
  if up.isEmpty then return none
  let v ← drawFree
  return up[v.toNat % up.length]?

/-- A packet of a queue pair goes out, its length as of log entry 34. -/
def sendRoce (q : Qp) (kind ends psn : Nat) (payload : List Byte) : Act Unit := do
  match (← rocePort q) with
  | none => return
  | some n => pushTx n q.vc (118 + payload.length) (.roce q.remoteIp q.remoteQpn kind ends (psn % 2 ^ 24) payload)

/-- Packets that `len` bytes take. -/
def pktsOf (q : Qp) (len : Nat) : Nat := max 1 ((len + mtuBytes q - 1) / mtuBytes q)

/-- The packets of a work request from PSN offset `from_` on (go-back-N). -/
def sendWork (q : Qp) (x : QpWork) (from_ : Nat) : Act Unit := do
  if x.op = 4 then
    sendRoce q 4 3 (x.psn + from_) (beBytes 8 (x.remote + from_ * mtuBytes q) ++ beBytes 4 x.rkey ++ beBytes 4 (x.len - from_ * mtuBytes q))
  else
    let m := mtuBytes q
    for k in (List.range x.pkts).drop from_ do
      let s ← look
      let last := k + 1 == x.pkts
      let reth := if k = 0 && 2 ≤ x.op then beBytes 8 x.remote ++ beBytes 4 x.rkey ++ beBytes 4 x.len else []
      let imm := if last && x.op % 2 = 1 then beBytes 4 x.imm else []
      sendRoce q x.op ((if k = 0 then 1 else 0) + (if last then 2 else 0)) (x.psn + k)
        (reth ++ imm ++ memBytes s (x.loc + k * m) (min m (x.len - k * m)))

/-- RDMA_WR (R325, R329). -/
def rdmaWrBody (r : Nat) (e : RingEntry) : Act EntryEnd := do
  let s ← look
  let op := eb e 8 0 3
  let len := eb e 24 0 32
  let loc := eb e 16 0 52
  let n := eb e 10 0 10
  if 4 < op || len = 0 || 2 ^ 31 < len then return .done 3 0
  match qpOf s n with
  | none => return .done 3 0
  | some q =>
    if q.part ≠ rgPart r then return .done 3 0
    if !belongs s (rgPart r) loc len then return .done 4 0
    if op ≠ 4 then
      if !(← consume (dieIO 0) r (some (rgPart r)) loc len) then return .done 9 0
    let x : QpWork := { ring := r, idx := e.idx, tag := eTag e, op := op, imm := eb e 12 0 32, loc := loc, len := len
                        remote := eb e 32 0 64, rkey := eb e 40 0 32, noCqe := eNoCqe e, psn := q.psn, pkts := pktsOf q len }
    modQp n (fun q => { q with psn := (q.psn + x.pkts) % 2 ^ 24, sends := q.sends ++ [x] })
    sendWork q x 0
    return .later

/-- RDMA_WR (R329). -/
def execRdmaWr (r : Fin 1024) (s : State) : Host.Outcome State Fault Refusal :=
  finish (startEntry r (· == 7) (rdmaWrBody r)) s

/-- RDMA_RECV (R325, R329). -/
def rdmaRecvBody (r : Nat) (e : RingEntry) : Act EntryEnd := do
  let s ← look
  let n := eb e 10 0 10
  let loc := eb e 16 0 52
  let len := eb e 24 0 32
  match qpOf s n with
  | none => return .done 3 0
  | some q =>
    if q.part ≠ rgPart r then return .done 3 0
    if len ≠ 0 && !belongs s (rgPart r) loc len then return .done 4 0
    modQp n (fun q => { q with recvs := q.recvs ++ [{ ring := r, idx := e.idx, tag := eTag e, op := 8, imm := 0, loc := loc, len := len
                                                      remote := 0, rkey := 0, noCqe := eNoCqe e }] })
    return .later

/-- RDMA_RECV (R329). -/
def execRdmaRecv (r : Fin 1024) (s : State) : Host.Outcome State Fault Refusal :=
  finish (startEntry r (· == 8) (rdmaRecvBody r)) s

/-! ## Completing work -/

/-- A posted request of a queue pair is over. -/
def endWork (q : Qp) (x : QpWork) (status detail result : Nat) : Act Unit := do
  retireEntry x.ring x.idx
  unless status = 0 && x.noCqe do postCqe q.ring { tag := x.tag, src := 0, status := status, detail := detail, result := result }

/-- `a` does not come after `b` in the 24-bit order of PSNs. -/
def psnLe (a b : Nat) : Bool := (b + 2 ^ 24 - a) % 2 ^ 24 < 2 ^ 23

/-- An acknowledgement up to a PSN: requests whose last packet it covers are over; a READ waits for its data. -/
def ackTo24 (n psn : Nat) : Act Unit := do
  match qpOf (← look) n with
  | none => return
  | some q =>
    let hit := fun (x : QpWork) => x.op != 4 && psnLe (x.psn + x.pkts - 1) psn
    modQp n (fun q => { q with sends := q.sends.filter (fun x => !hit x) })
    for x in q.sends.filter hit do
      endWork q x 0 0 x.len

/-- Go back to the oldest request, or give it up once its retries are used (R141). -/
def goBack (n : Nat) : Act Unit := do
  match qpOf (← look) n with
  | none => return
  | some q =>
    match q.sends with
    | [] => return
    | x :: rest =>
      if x.tries < q.retry then
        modQp n (fun q => { q with sends := { x with tries := x.tries + 1 } :: rest })
        for y in x :: rest do
          sendWork q y (if y.op = 4 then y.got / mtuBytes q else 0)
      else
        modQp n (fun q => { q with sends := rest })
        endWork q x 7 0 0

/-- ROCE_RETRY_TIMEOUT (R141). -/
def execRoceRetryTimeout (qpn : Fin 1024) (s : State) : Host.Outcome State Fault Refusal := finish (goBack qpn) s

/-- A NAK (R329, R331): a sequence error or a receiver not ready goes back; any other ends the request it names. -/
def takeNak (n psn syn : Nat) : Act Unit := do
  if syn = 0x60 || (0x20 ≤ syn && syn < 0x40) then goBack n
  else
    match qpOf (← look) n with
    | none => return
    | some q =>
      match q.sends.find? (fun x => psnLe x.psn psn && psnLe psn (x.psn + x.pkts - 1)) with
      | none => return
      | some x =>
        modQp n (fun q => { q with sends := q.sends.erase x })
        endWork q x 7 syn 0

/-! ## Incoming requests (R329) -/

/-- The region an R_KEY names grants a right over a range (R329). -/
def keyOk (s : State) (part key addr len : Nat) (wr : Bool) : Bool :=
  match s.host.mrs.find? (fun e => e.1 == key % 4096) with
  | none => false
  | some (_, m) =>
    m.part == part && m.keyTag == key / 4096 && m.base ≤ addr && addr + len ≤ m.base + m.len && (if wr then m.wr else m.rd)

/-- A request outside its R_KEY's region: a remote access NAK. -/
def keyNak (q : Qp) (psn : Nat) : Act Unit := do
  ctr32 0x14800C
  sendRoce q 6 3 psn [0x62]

/-- No RECV is posted: an RNR NAK. -/
def rnrNak (q : Qp) (psn : Nat) : Act Unit := do
  ctr32 0x148010
  sendRoce q 7 3 psn [0x20]

/-- The oldest RECV is consumed (R329): SRC = 2, the bytes, the immediate. -/
def endRecv (n : Nat) (q : Qp) (bytes imm : Nat) : Act Unit := do
  match q.recvs with
  | [] => return
  | x :: rest =>
    modQp n (fun q => { q with recvs := rest })
    retireEntry x.ring x.idx
    unless x.noCqe do postCqe q.ring { tag := x.tag, src := 2, status := 0, result := bytes, result64 := imm }

/-- A packet of a request is in order: the next PSN is expected, and it is acknowledged. -/
def accepted (n psn : Nat) (q : Qp) : Act Unit := do
  modQp n (fun q => { q with ePsn := (psn + 1) % 2 ^ 24 })
  sendRoce q 5 3 psn [0]

/-- A packet of a request meets the expected PSN (R141): one behind it is acknowledged again, one ahead of it draws a NAK. -/
def inOrder (q : Qp) (psn : Nat) : Act Bool := do
  if psn = q.ePsn then return true
  if psnLe psn q.ePsn then sendRoce q 5 3 (q.ePsn + 2 ^ 24 - 1) [0] else sendRoce q 6 3 q.ePsn [0x60]
  return false

/-- A SEND packet (R329). -/
def rxSend (n : Nat) (q : Qp) (psn : Nat) (first last : Bool) (imm : Nat) (data : List Byte) : Act Unit := do
  if ← inOrder q psn then
    match q.recvs with
    | [] => rnrNak q psn
    | x :: _ =>
      let at_ := if first then 0 else q.rxLen
      if x.len < at_ + data.length || mtuBytes q < data.length then sendRoce q 6 3 psn [0x61]
      else
        putBytes (x.loc + at_) data
        modQp n (fun q => { q with rxLen := at_ + data.length })
        accepted n psn q
        if last then endRecv n q (at_ + data.length) imm

/-- A WRITE packet (R329); one with an immediate consumes a RECV. -/
def rxWrite (n : Nat) (q : Qp) (psn : Nat) (reth : Option (Nat × Nat × Nat)) (last : Bool) (imm : Option Nat) (data : List Byte) : Act Unit := do
  if ← inOrder q psn then
    let s ← look
    let at_ := match reth with
      | some x => x.2.1
      | none => q.rxAt
    let end_ := match reth with
      | some x => x.2.1 + x.2.2
      | none => q.rxEnd
    let ok := match reth with
      | some x => keyOk s q.part x.1 x.2.1 x.2.2 true
      | none => true
    let len := (if reth.isSome then 0 else q.rxLen) + data.length
    if !ok then keyNak q psn
    else if end_ < at_ + data.length || mtuBytes q < data.length then sendRoce q 6 3 psn [0x61]
    else if last && imm.isSome && q.recvs.isEmpty then rnrNak q psn
    else
      putBytes at_ data
      modQp n (fun q => { q with rxAt := at_ + data.length, rxEnd := end_, rxLen := len })
      accepted n psn q
      if last && imm.isSome then endRecv n q len (imm.getD 0)

/-- A READ (R329). -/
def rxRead (nd n : Nat) (q : Qp) (psn key addr len : Nat) : Act Unit := do
  if psn = q.ePsn || psnLe psn q.ePsn then
    if !keyOk (← look) q.part key addr len false then keyNak q psn
    else if !(← consume (dieND (nd / 8)) (nd % 8) (some q.part) addr len) then sendRoce q 6 3 psn [0x63]
    else
      let k := pktsOf q len
      if psn = q.ePsn then modQp n (fun q => { q with ePsn := (psn + k) % 2 ^ 24 })
      for j in List.range k do
        let m := mtuBytes q
        sendRoce q 9 ((if j = 0 then 1 else 0) + (if j + 1 = k then 2 else 0)) (psn + j)
          (memBytes (← look) (addr + j * m) (min m (len - j * m)))
  else sendRoce q 6 3 q.ePsn [0x60]

/-- Data of an own READ (R329). -/
def rxReadData (n : Nat) (q : Qp) (psn : Nat) (data : List Byte) : Act Unit := do
  match q.sends.find? (fun x => x.op == 4 && psnLe x.psn psn && psnLe psn (x.psn + x.pkts - 1)) with
  | none => return
  | some x =>
    ackTo24 n ((x.psn + 2 ^ 24 - 1) % 2 ^ 24)
    let off := (psn + 2 ^ 24 - x.psn) % 2 ^ 24 * mtuBytes q
    if off = x.got && off + data.length ≤ x.len then
      putBytes (x.loc + off) data
      let y := { x with got := off + data.length }
      if y.got = x.len then
        modQp n (fun q => { q with sends := q.sends.erase x })
        endWork q x 0 0 x.len
      else modQp n (fun q => { q with sends := q.sends.map (fun z => if z = x then y else z) })

/-- Bytes of a packet that its buffer takes. -/
def roceLen : RocePkt → Nat
  | .send _ _ _ _ d => 118 + d.length
  | .write _ _ _ _ d => 118 + d.length
  | .readResp _ _ d => 118 + d.length
  | _ => 118

/-- A CNP for an ECN-marked arrival, at most one per QP in 50 µs (R141). -/
def sendCnp (n : Nat) (q : Qp) : Act Unit := do
  let s ← look
  let free : Bool := match q.lastCnp with
    | some t => t + 50000 ≤ s.time.now
    | none => true
  if free then
    modQp n (fun q => { q with lastCnp := some s.time.now })
    sendRoce q 8 3 0 []

/-- A CNP slows the queue pair down (R141): to what rate below the present one is a free value (log entry 34). -/
def slowQp (n : Nat) : Act Unit := do
  let v ← drawFree
  modQp n (fun q => { q with rate := if q.rate < 2 then q.rate else 1 + v.toNat % (q.rate - 1) })

/-- A packet that the port took meets its queue pair (R329). -/
def rocePacket (port n : Nat) (q : Qp) : RocePkt → Act Unit
  | .send psn first last imm d => rxSend n q psn.toNat first last ((imm.map (·.toNat)).getD 0) d
  | .write psn reth last imm d =>
    rxWrite n q psn.toNat (reth.map (fun x => (x.1.toNat, x.2.1, x.2.2))) last (imm.map (·.toNat)) d
  | .read psn key addr len => rxRead port n q psn.toNat key.toNat addr len
  | .readResp psn _ d => rxReadData n q psn.toNat d
  | .ack psn => ackTo24 n psn.toNat
  | .nak psn syn => takeNak n psn.toNat syn.toNat
  | .cnp => slowQp n

/-- ROCE_RX (R126, R128, R141, R329): a packet whose ICRC is wrong is dropped, which go-back-N makes good; an ECN mark draws a CNP. -/
def roceRxAct (port : Nat) (w : Wire) (n : Nat) (icrcOk : Bool) (pkt : RocePkt) : Act Unit := do
  let s ← look
  if ← frontRx port (roceLen pkt) w true false (udpKnown s w 4791 [0, 1, 2, 3]) then
    if ← rxBuffer port w.pcp (roceLen pkt) w.drained then
      if icrcOk then
        match qpOf (← look) n with
        | none => return
        | some q =>
          if w.ecn then sendCnp n q
          rocePacket port n q pkt

/-- ROCE_RX (R329). -/
def execRoceRx (port : Fin 64) (wire : Wire) (qpn : Fin 1024) (icrcOk : Bool) (pkt : RocePkt) (s : State) : Host.Outcome State Fault Refusal :=
  finishIf (roceOk pkt) (roceRxAct port wire qpn icrcOk pkt) s

end Sys2Proof.Machine
end

