-- ==== Sys2Proof/Machine/RegWrite.lean ====
section
/-!
DEFINITION. A register access by its offset in BAR0 (R317, R337, R401–R408): which write rule an offset has, clamped fields, and reads.
-/

namespace Sys2Proof.Machine

/-- OWN_CFG (R340). -/
def ownCfgWrite (w : Wr) : Act Unit := do
  storeWord 0x010018 w
  clampF 0x010018 0 32 100 600000

/-- PWR registers with clamped fields (R367). -/
def pwrWrite (off : Nat) (w : Wr) : Act Unit := do
  match off with
  | 0x040010 => sagWrite w
  | 0x040048 => ageCfgWrite w
  | _ =>
    storeWord off w
    match off with
    | 0x040000 => clampF 0x040000 0 13 1000 5500
    | 0x040008 => clampF 0x040008 0 10 50 400
    | 0x040028 =>
      clampF 0x040028 0 8 85 100
      clampF 0x040028 16 7 30 100
    | _ => pure ()
    holdCap

/-- FTB registers (R34, R35). -/
def ftbWrite (off : Nat) (w : Wr) : Act Unit := do
  if off = 0x060020 then setTimeWrite w
  else if 0x068000 ≤ off then setEntryWriteAct ((off - 0x068000) / 0x20) (off % 0x20 / 8) w
  else
    if off = 0x060000 then showBound
    storeWord off w
    if off = 0x060000 then reselect

/-- The first MiB but for the registers with rules of their own (R337). -/
def lowWrite (off : Nat) (w : Wr) : Act Unit :=
  match off with
  | 0x010018 => ownCfgWrite w
  | 0x020008 => lcsReqPlain w
  | 0x020020 => lcsCtrlPlain w
  | 0x080008 => errCtrlWrite w
  | 0x080018 => errHeadWrite w
  | _ =>
    match off / 0x020000 with
    | 2 => pwrWrite off w
    | 3 => ftbWrite off w
    | _ => storeWord off w

/-- A commit of some group waits for an older generation (R26). -/
def xgPending (s : State) : Bool := s.groups.any (fun e => e.2.next.isSome)

/-- NET registers (R90, R142): while a commit is PENDING the staged descriptors must not be moved (R26). -/
def netWrite (off : Nat) (w : Wr) : Act Unit := do
  if off = 0x440010 then xgCommitWrite w
  else if off = 0x440008 && xgPending (← look) then ownDenied
  else if off < 0x440000 && off % 0x1000 = 0 then portCtrlWrite ((off - 0x400000) / 0x1000) w
  else
    storeWord off w
    if off < 0x440000 && off % 0x1000 = 0x10 then clampF off 0 16 10 10000

/-- A word of SE0's page that reads the same in every page (R407). -/
def mirrorStore (off : Nat) (w : Wr) : Act Unit := do
  wrEptMirror off (plainWrite off (← rdReg off) w)

/-- A partition has no job (R408). -/
def jobIdle (s : State) (p : Nat) : Bool := jobState s p == 0

/-- SRE registers (R57, R65, R84, R407, R408) of the page of die `d`, at `o` within it. -/
def sreWrite (d o : Nat) (w : Wr) : Act Unit := do
  let s ← look
  if o < 0x800 then
    if d ≠ 0 then ownDenied
    else if o = 0 then
      if (List.range 64).all (jobIdle s) then mirrorStore (rSre 0 0) w else ownDenied
    else if o = 8 then liveClrWrite w
    else if o < 0x500 then
      if o % 16 = 0 then eptBaseWrite ((o - 0x100) / 16) w else eptCommitWrite ((o - 0x100) / 16) w
    else if jobIdle s ((o - 0x600) / 8) then mirrorStore (rSre 0 o) w else ownDenied
  else if o < 0x1800 then
    let p := (o - 0x800) / 0x40
    if p % 4 = d then sreStepWriteAct p (o % 0x40 / 8) w
  else if 0x4000 ≤ o && o < 0x8000 then rctxWrite d ((o - 0x4000) / 0x40) (o % 0x40 / 8) w

/-- PART_SERVE_CFG (R312): a page beyond 1 GiB discards KV_TOKEN_BYTES. -/
def serveCfgWrite (p : Nat) (w : Wr) : Act Unit := do
  let off := rPart p 0x30
  let old ← rdF off 32 32
  storeWord off w
  clampF off 8 4 4 12
  let s ← look
  if 2 ^ 30 < 2 ^ fieldOf s off 8 4 * fieldOf s off 32 32 then
    wrF off 32 32 old
    raise 0xC002 0 dieMG 0 (some p)

/-- PART registers of partition `p`, at `o` within its page (R312, R267). -/
def partWrite (p o : Nat) (w : Wr) : Act Unit :=
  match o with
  | 0x00 => mapStageWrite p (rPart p 0) w
  | 0x08 => mapCommitAct p w
  | 0x10 => partJobWrite p w
  | 0x18 => jobStartAct p w
  | 0x30 => serveCfgWrite p w
  | _ =>
    if 0x600 ≤ o && o < 0x700 then mapStageWrite p (rPart p o) w
    else if 0x200 ≤ o && o < 0x380 && o % 0x20 = 0x10 then poolStateWrite p ((o - 0x200) / 0x20) w
    else if 0xA00 ≤ o && o < 0xC00 && o % 0x20 = 0 then ctxWord0Write p ((o - 0xA00) / 0x20) w
    else storeWord (rPart p o) w

/-- The owner writes the word at an offset. -/
def ownerWord (off : Nat) (w : Wr) : Act Unit :=
  match off / 0x100000 with
  | 0 => lowWrite off w
  | 2 => if 0x280000 ≤ off && off < 0x2A0000 then qDescWrite ((off - 0x280000) / 0x20) (off % 0x20 / 8) w else storeWord off w
  | 3 => if off = 0x300010 then domainWrite w else storeWord off w
  | 4 => netWrite off w
  | 6 => sreWrite ((off - 0x600000) / 0x10000) (off % 0x10000) w
  | 12 => partWrite ((off - 0xC00000) / 0x4000) (off % 0x4000) w
  | _ => storeWord off w

/-- OWN_STATUS.CHANGE_EVT is cleared by any party (R406). -/
def changeEvtWrite (w : Wr) : Act Unit := do
  if pathUp (← look) w.path then
    if pathCode w.path = 0 then ownDenied else storeWord 0x010020 w

/-- A write of the word at an offset, by the rules of its register (R337, R406). -/
def barWrite (off : Nat) (w : Wr) : Act Unit :=
  match off with
  | 0x010000 => claimWrite w
  | 0x010008 => heartbeatWrite w
  | 0x010010 => ownCtrlWrite w
  | 0x010020 => changeEvtWrite w
  | 0x020018 => lcsResetWrite w
  | 0x040040 => tripClrWrite w
  | _ =>
    if 0x100000 ≤ off && off < 0x110000 then ringDescWriteAct ((off - 0x100000) / 0x40) (off % 0x40 / 8) w
    else if (regRow off).isSome || pathCode w.path = 0 then ownerWrite w.path (ownerWord off w)
    else pure ()

/-- REGISTER_WRITE (R337, R401, R402): an access that is not aligned changes nothing. -/
def execRegisterWrite (off : BitVec 24) (w : Wr) (s : State) : Host.Outcome State Fault Refusal :=
  finish (if off.toNat % 8 = 0 then barWrite off.toNat w else pure ()) s

/-! ## Reads -/

/-- SRE_STEP_p and the join and request counters lie in one die's page only (R407). -/
def elsewhere (off : Nat) : Bool :=
  let o := off % 0x10000
  let d := (off - 0x600000) / 0x10000
  0x600000 ≤ off && off < 0x640000 &&
    ((0x800 ≤ o && o < 0x1800 && (o - 0x800) / 0x40 % 4 != d) || (0x1800 ≤ o && o < 0x1C00 && (o - 0x1800) / 0x10 % 4 != d))

/-- The word at an offset as a read finds it (R34, R340, R401). -/
def barRead (off : Nat) : Act Word := do
  if 0x060000 ≤ off && off < 0x060020 then showTime
  if off = 0x060048 || (0x068000 ≤ off && off < 0x070000) then settleNone
  if off = 0x060010 then wrReg 0x060018 ((← look).time.ft.toNat % 65536)
  if 0x010030 ≤ off && off < 0x010048 then showCands
  let s ← look
  return if elsewhere off then 0 else regOf s off

end Sys2Proof.Machine
end

