-- ==== Sys2Proof/Machine/Serving.lean ====
section
/-!
DEFINITION. REQUEST messages (R303–R305), DOORBELL frames (R323), and the acknowledgements that come back to this device (R106, R305,
R307).
-/

namespace Sys2Proof.Machine

/-! ## Acknowledging serving frames (R104, R105, R303) -/

/-- The ACK payload of a message: frames from the base on that have been received. -/
def msgAck (s : State) (placed : List Nat) : List Byte :=
  let base := ((List.range (placed.length + 1)).find? (fun k => !placed.contains k)).getD 0
  let map := (placed.filter (fun k => base ≤ k && k < base + 256)).foldl (fun a k => a ||| 1 <<< (k - base)) 0
  natBytes 8 (upMask s) ++ natBytes 4 base ++ natBytes 32 map ++ natBytes 4 0

/-- Acknowledge frames of a serving message on the port the frame came by. -/
def ackMsg (f : Frame) (placed : List Nat) : Act Unit := do
  let s ← look
  let p := f.part.val
  sendOxt f.port (servVc s p) { typ := 1, dst := f.srcNode.toNat, jobGen := jobGen s p, part := p, window := f.window.toNat
                                udpSrc := some (0xC000 + f.port.val), payload := msgAck s placed }

/-- A serving frame of a partition (R127): its virtual channel is SVC (R303), its generation is current (R300). No rule counts one of another
priority (log entry 82). -/
def serveRx (f : Frame) : Act Bool := do
  if !(← netRx f [0, 1, 2, 3]) then return false
  if f.pcp.val ≠ servVc (← look) f.part then return false
  jobCheck f false

/-! ## Requests (R304, R305) -/

/-- MAX_POS of a request header; 0 acts as 16,777,215 (R311). -/
def rqMaxPos (x : Item) : Nat := if ibits x 64 24 = 0 then 16777215 else ibits x 64 24

/-- The header check of R304: KIND, and PROMPT_LEN for it. -/
def rqOk (x : Item) : Bool :=
  match ibits x 32 2 with
  | 0 => 1 ≤ ibits x 40 24 && ibits x 40 24 ≤ rqMaxPos x
  | 1 => ibits x 40 24 == 0
  | _ => false

/-- A refused request: a record with POS 0, TOKEN_ID 0 and REASON FAULT (R305). -/
def refuseReply (p src : Nat) (x : Item) : Act Unit := do
  let s ← look
  addRecord p src (recordOf (outItem (ibits x 0 32) 0 0 0 5 (partOf s p).stepNo.toNat src (ibits x 208 16) 0))

/-- The message number joins the last 4,096 of the partition (R305). -/
def noteMsg (p src msg : Nat) : Act Unit := modPart p (fun d => { d with recent := ((src, msg) :: d.recent).take 4096 })

def sameMsg (src msg : Nat) (m : ReqMsg) : Bool := m.src == src && m.msg == msg
def modMsg (p src msg : Nat) (f : ReqMsg → ReqMsg) : Act Unit :=
  modPart p (fun d => { d with reqs := d.reqs.map (fun m => if sameMsg src msg m then f m else m) })

/-- The item of a complete message (R305). -/
def reqItem (m : ReqMsg) : Item :=
  BitVec.ofNat 512 (setBits (setBits m.header.toNat 288 52 m.buf) 352 16 m.src)

/-- The whole message would be placed with this frame. -/
def completes (m : ReqMsg) (f : Frame) : Bool :=
  let last := if f.last then some f.psn.toNat else m.last
  match last with
  | none => false
  | some n => (List.range (n + 1)).all (fun k => m.placed.contains k || k == f.psn.toNat)

/-- A frame of an accepted message is placed; the one that completes it needs a credit of REQ_Q (R305). -/
def placeMsg (p : Nat) (m : ReqMsg) (f : Frame) : Act Unit := do
  let s ← look
  let k := f.psn.toNat
  let size := if ibits m.header 32 2 = 0 then 64 + 4 * ibits m.header 40 24 else 64
  if m.placed.contains k then ackMsg f m.placed
  else if f.offset.toNat + f.payload.length ≤ size then
    let fin := completes m f
    let q := stReqQ (stepCfg s p)
    if fin && !(qEn s q && qPart s q == p && 1 ≤ qFree s q) then ctr32 (rPart p 0x920)
    else
      if m.buf ≠ 0 then
        let _ ← aliveRuns (ndOf f.port) (f.port.val % 8) (some p) [(m.buf + f.offset.toNat, f.payload.length)]
        putBytes (m.buf + f.offset.toNat) f.payload
      let m' := { m with placed := m.placed ++ [k], last := if f.last then some k else m.last }
      ackMsg f m'.placed
      if fin then
        modPart p (fun d => { d with reqs := d.reqs.filter (fun x => !sameMsg m.src m.msg x) })
        noteMsg p m.src m.msg
        let _ ← qPushItem q (reqItem m') true false (ndOf f.port)
        ctr64 (rPart p 0x900)
      else modMsg p m.src m.msg (fun _ => m')

/-- OXT_REQUEST_RX (R305). -/
def requestRx (f : Frame) : Act Unit := do
  if ← serveRx f then
    let s ← look
    let p := f.part.val
    let src := f.srcNode.toNat
    let msg := f.window.toNat
    if (partOf s p).recent.contains (src, msg) then
      ctr32 (rPart p 0x91C)
      ackMsg f [f.psn.toNat]
    else
      match (partOf s p).reqs.find? (sameMsg src msg) with
      | some m => placeMsg p m f
      | none =>
        if f.psn ≠ 0 || f.offset ≠ 0 then ctr32 (rPart p 0x918)
        else
          let x : Item := BitVec.ofNat 512 (leNat (f.payload.take 64))
          if f.payload.length < 64 || !rqOk x then
            ctr32 (rPart p 0x910)
            noteMsg p src msg
            ackMsg f [0]
            refuseReply p src x
          else
            let m : ReqMsg := { src := src, msg := msg, buf := 0, header := x }
            if ibits x 32 2 = 1 then
              modPart p (fun d => { d with reqs := d.reqs ++ [m] })
              placeMsg p m f
            else
              let r ← poolAllocAct p (64 + 4 * ibits x 40 24)
              if r.1 ≠ 0 then
                ctr32 (rPart p 0x914)
                noteMsg p src msg
                ackMsg f [0]
                refuseReply p src x
              else
                let m := { m with buf := r.2 }
                modPart p (fun d => { d with reqs := d.reqs ++ [m] })
                placeMsg p m f

/-- OXT_REQUEST_RX (R305). -/
def execOxtRequestRx (f : Frame) (s : State) : Host.Outcome State Fault Refusal := finishIf (oxtIs 6 f) (requestRx f) s

/-! ## Doorbells from the fabric (R323) -/

/-- The records of a DOORBELL frame, in order. -/
def dbRecords (p : Nat) : List Byte → Act Unit
  | b0 :: b1 :: b2 :: b3 :: _ :: _ :: _ :: _ :: rest => do
    let x := leNat [b0, b1, b2, b3]
    doorbell 2 (p * 16 + bitsOf x 0 4) (bitsOf x 4 1 == 1) true (bitsOf x 16 16)
    dbRecords p rest
  | _ => return

/-- OXT_DOORBELL_RX (R323). -/
def doorbellRx (f : Frame) : Act Unit := do
  if ← serveRx f then
    let s ← look
    let key := (f.srcNode.toNat, f.window.toNat, f.psn.toNat)
    let n := f.payload.length
    if n % 8 = 0 && 8 ≤ n && n ≤ 512 then
      if !s.host.dbSeen.contains key then
        modHost (fun h => { h with dbSeen := key :: h.dbSeen })
        dbRecords f.part f.payload
      ackMsg f [f.psn.toNat]

/-- OXT_DOORBELL_RX (R323). -/
def execOxtDoorbellRx (f : Frame) (s : State) : Host.Outcome State Fault Refusal := finishIf (oxtIs 5 f) (doorbellRx f) s

/-! ## ACK and SACK (R106, R126, R307) -/

/-- An acknowledgement comes in: on VC0–VC3 of TOKEN_OUT frames, on VC5 and VC6 of an exchange window. -/
def ackRx (f : Frame) (sack : Bool) : Act Unit := do
  if ← netRx f [0, 1, 2, 3, 5, 6] then
    if f.pcp.val < 4 then
      if f.pcp.val = servVc (← look) f.part then
        if ← jobCheck f true then
          if !sack then tokAck f.part f.srcNode.toNat f.window.toNat f.payload
    else
      match (← acceptGroup f true) with
      | none => return
      | some h => takeAck h f.srcNode.toNat f.ver2 (f.pcp.val == 5) f.window.toNat f.payload sack

/-- OXT_ACK_RX (R106, R307). -/
def execOxtAckRx (f : Frame) (s : State) : Host.Outcome State Fault Refusal := finishIf (oxtIs 1 f) (ackRx f false) s

/-- OXT_SACK_RX (R106). -/
def execOxtSackRx (f : Frame) (s : State) : Host.Outcome State Fault Refusal := finishIf (oxtIs 2 f) (ackRx f true) s

end Sys2Proof.Machine
end

