-- ==== Sys2Proof/Machine/Sideband.lean ====
section
/-!
DEFINITION. The BMC's sideband (R341, R342), attestation (R396), and the management channel (R398, R399).
-/

namespace Sys2Proof.Machine

/-! ## I3C (R341, R342) -/

/-- I3C_ENTDAA (R341). -/
def execI3cEntdaa (addr : BitVec 7) (s : State) : Host.Outcome State Fault Refusal :=
  finish (do
    let s ← look
    if s.mod.phase != .off then modMod (fun m => { m with i3cAddr := some addr.toNat })) s

/-- MG0 answers at its dynamic address and at 0x4C. -/
def i3cMine (s : State) (addr : Nat) : Bool := s.mod.phase != .off && (addr == 0x4C || s.mod.i3cAddr == some addr)

/-- A discarded transfer. -/
def i3cBad : Act Unit := ctr32 0x148008

/-- The address byte of a transfer. -/
def addrByte (addr : Nat) (read : Bool) : Byte := BitVec.ofNat 8 (2 * addr + (if read then 1 else 0))

/-- OFFSET of a transfer. -/
def i3cOff (bs : List Byte) : Nat := leNat ((bs.drop 1).take 3)

/-- I3C_WRITE: `bs` is 0x02, OFFSET, DATA and the PEC. -/
def i3cWriteAct (addr : Nat) (bs : List Byte) : Act Unit := do
  if i3cMine (← look) addr then
    let ok := bs.length == 13 && bs.head? == some 0x02 && i3cOff bs % 8 == 0 &&
      crc8 (addrByte addr false :: bs.take 12) == bs.getD 12 0
    if ok then barWrite (i3cOff bs) ⟨.bmc, .all, BitVec.ofNat 64 (leNat ((bs.drop 4).take 8))⟩ else i3cBad

/-- I3C_WRITE (R342). -/
def execI3cWrite (addr : BitVec 7) (bytes : List Byte) (s : State) : Host.Outcome State Fault Refusal :=
  finish (i3cWriteAct addr.toNat bytes) s

/-- What a read over I3C finds: in DIAG the ERR and LCS blocks (R388), other words being free values then (log entry 2). -/
def i3cWord (off : Nat) : Act Word := do
  let s ← look
  if s.mod.phase != .diag || off / 0x10000 = 2 || off / 0x10000 = 8 then barRead off else drawFree

/-- I3C_READ: `bs` is 0x01 and OFFSET. -/
def i3cReadAct (addr : Nat) (bs : List Byte) (stop : Bool) : Act Unit := do
  if i3cMine (← look) addr then
    if bs.length = 4 && bs.head? = some 0x01 && i3cOff bs % 8 = 0 && !stop then
      let v ← i3cWord (i3cOff bs)
      let d := natBytes 8 v.toNat
      emit (.i3c (d ++ [crc8 ([addrByte addr false] ++ bs ++ [addrByte addr true] ++ d)]))
    else
      i3cBad
      emit (.i3c (List.replicate 9 0xFF))

/-- I3C_READ (R342). -/
def execI3cRead (addr : BitVec 7) (bytes : List Byte) (stop : Bool) (s : State) : Host.Outcome State Fault Refusal :=
  finish (i3cReadAct addr.toNat bytes stop) s

/-! ## Attestation (R396) -/

def spdmCode : SpdmPath → Nat
  | .doe => 0
  | .mctp => 1
  | .mgmt => 2

/-- A path of the responder is up: DOE with the host link, MCTP over I3C, the management channel of a READY module. -/
def spdmUp (s : State) : SpdmPath → Bool
  | .doe => s.mod.phase == .ready && hostUp s
  | .mctp => s.mod.phase != .off
  | .mgmt => s.mod.phase == .ready

/-- A request meets the responder: Busy while its path serves another; a malformed one raises ATTEST_FAIL; else it is answered. -/
def spdmAct (kind : Nat) (q : SpdmReq) : Act Unit := do
  if spdmUp (← look) q.path then
    if q.wellFormed then emit (.spdm (spdmCode q.path) kind q.busy) else raise 0x0204 0 dieMG 0

/-- The measurements of R396. -/
def measure396 (s : State) : Emit :=
  .measured s.mod.fwDigest s.mod.fwSlotB s.nv.lcState s.nv.svnFused s.nv.lcLeft (regOf s 0)
    ((List.range 32).map (fun d => regOf s (0x100 + 8 * d)))

/-- A request whose answer holds the measurement report. -/
def measureAct (kind : Nat) (q : SpdmReq) : Act Unit := do
  spdmAct kind q
  let s ← look
  if spdmUp s q.path && q.wellFormed && !q.busy then emit (measure396 s)

/-- GET_VERSION (R396). -/
def execGetVersion (q : SpdmReq) (s : State) : Host.Outcome State Fault Refusal := finish (spdmAct 0 q) s
/-- GET_CAPABILITIES (R396). -/
def execGetCapabilities (q : SpdmReq) (s : State) : Host.Outcome State Fault Refusal := finish (spdmAct 1 q) s
/-- NEGOTIATE_ALGORITHMS (R396). -/
def execNegotiateAlgorithms (q : SpdmReq) (s : State) : Host.Outcome State Fault Refusal := finish (spdmAct 2 q) s
/-- GET_DIGESTS (R396). -/
def execGetDigests (q : SpdmReq) (s : State) : Host.Outcome State Fault Refusal := finish (spdmAct 3 q) s
/-- GET_CERTIFICATE (R396). -/
def execGetCertificate (q : SpdmReq) (s : State) : Host.Outcome State Fault Refusal := finish (spdmAct 4 q) s
/-- CHALLENGE (R396). -/
def execChallenge (q : SpdmReq) (s : State) : Host.Outcome State Fault Refusal := finish (spdmAct 5 q) s
/-- GET_MEASUREMENTS (R396). -/
def execGetMeasurements (q : SpdmReq) (s : State) : Host.Outcome State Fault Refusal := finish (measureAct 6 q) s
/-- SPDM_VENDOR_DEFINED (R396): the same report, signed with ML-DSA-87. -/
def execSpdmVendorDefined (q : SpdmReq) (s : State) : Host.Outcome State Fault Refusal := finish (measureAct 7 q) s

/-! ## The management channel (R398, R399) -/

/-- The last sequence number accepted under a key. -/
def lastSeqOf (s : State) (k : Nat) : Option Nat := (s.nv.lastSeq.find? (fun e => e.1 == k)).map (fun e => e.2.toNat)

/-- The checks of an envelope (R399). -/
def envelopeOk (s : State) (v : Envelope) : Bool :=
  v.sigOk && v.target.toNat == netNode s && ftNs s ≤ v.expiry.toNat && v.expiry.toNat ≤ ftNs s + 10000000000 &&
    (match lastSeqOf s v.keyIdx.toNat with
     | none => true
     | some n => n < v.seq.toNat)

/-- Bytes of an envelope's frame from destination address to FCS (R94, R399); an IPv4 header is 20 bytes shorter. -/
def envLen (v : Envelope) : Nat := 134 + 24 + v.bodyLen + 96 + 4627 - (if v.v4.isSome then 20 else 0)

/-- The row of R126 that names an envelope's frame: OXT, or IPv4 management (R127). -/
def envKnown (s : State) (v : Envelope) : Bool :=
  match v.v4 with
  | none => udpKnown s v.wire (oxtPort s) [7]
  | some a => fieldOf s 0x440030 0 32 != 0 && a.toNat == fieldOf s 0x440030 0 32 && v.wire.udp.toNat == oxtPort s && v.wire.pcp == 7

/-- The answer to an envelope, a MGMT frame on VC7 of the port it came by (R127, R399); what no rule gives of its header and length is free
(log entry 105). -/
def mgmtReply (v : Envelope) (x : Word) : Act Unit := do
  let s ← look
  let b ← drawBytes 25
  let n := (← drawFree).toNat % 8193
  let hdr := (0x3A : Byte) :: b.take 1 ++ beBytes 2 (netNode s) ++ beBytes 2 v.srcNode ++ (b.drop 1).take 22 ++ beBytes 2 n ++ b.drop 23
  let peer : ReplyTo := { v4 := v.v4.isSome, addr := if v.v4.isSome then v.sender.toNat % 2 ^ 32 else v.sender.toNat, udp := v.senderUdp.toNat }
  pushTx v.port 7 (n + (if v.v4.isSome then 114 else 134)) (.mgmt peer hdr v.seq.toNat x)

/-- An envelope arrives at a port of a READY module (R127, R128, R399): a refused one is discarded and counted; an accepted one acts and is
answered. -/
def envelopeAct (v : Envelope) (body : Act Word) : Act Unit := do
  let s ← look
  if pathUp s .fabric then
    if ← frontRx v.port (envLen v) v.wire true false (envKnown s v) then
      if ← rxBuffer v.port 7 (envLen v) v.wire.drained then
        if envelopeOk (← look) v then
          let k := v.keyIdx.toNat
          modNv (fun n => { n with lastSeq := n.lastSeq.filter (fun e => e.1 != k) ++ [(k, v.seq)] })
          let x ← body
          mgmtReply v x
        else ownDenied

/-- MGMT_REG_WRITE (R399, R402). -/
def execMgmtRegWrite (v : Envelope) (off : BitVec 24) (val : Word) (s : State) : Host.Outcome State Fault Refusal :=
  finishIf (envIs 1 v) (envelopeAct v (do
    if off.toNat % 8 = 0 then barWrite off.toNat ⟨.fabric, .all, val⟩
    return 0)) s

/-- MGMT_REG_READ (R399, R402). -/
def execMgmtRegRead (v : Envelope) (off : BitVec 24) (s : State) : Host.Outcome State Fault Refusal :=
  finishIf (envIs 2 v) (envelopeAct v (do
    if off.toNat % 8 = 0 then
      let x ← barRead off.toNat
      return x
    else drawFree)) s

/-- MGMT_OWN_CLAIM (R335, R399). -/
def execMgmtOwnClaim (v : Envelope) (val : Word) (s : State) : Host.Outcome State Fault Refusal :=
  finishIf (envIs 3 v) (envelopeAct v (do
    claimWrite ⟨.fabric, .all, val⟩
    return 0)) s

/-- A key goes into the key store, which is sealed in the state the device is in (R395); the pair of slot 0 only by an envelope signed with it
(R399). -/
def installKey (keyIdx : Nat) : KeyBody → Act Unit
  | .cak i key => modNv (fun n => { n with caks := n.caks.filter (fun e => e.1 != i.toNat) ++ [(i.toNat, key)], sealedIn := some n.lcState })
  | .mgmtPair slot pair =>
    if slot.val = 0 && keyIdx ≠ 0 then ownDenied
    else modNv (fun n => { n with mgmtKeys := n.mgmtKeys.filter (fun e => e.1 != slot.val) ++ [(slot.val, pair)], sealedIn := some n.lcState })

/-- KEY_INSTALL (R398). -/
def execKeyInstall (v : Envelope) (body : KeyBody) (s : State) : Host.Outcome State Fault Refusal :=
  finishIf (envIs 4 v) (envelopeAct v (do
    installKey v.keyIdx.toNat body
    return 0)) s

/-- MGMT_LCS_REQ (R392, R399). -/
def execMgmtLcsReq (v : Envelope) (val : Word) (authOk : Bool) (s : State) : Host.Outcome State Fault Refusal :=
  finishIf (envIs 5 v) (envelopeAct v (do
    ownerWrite .fabric (lcsReqAct val.toNat authOk)
    return 0)) s

/-- MGMT_SPDM (R396, R399): an SPDM message on the management path. -/
def execMgmtSpdm (v : Envelope) (q : SpdmReq) (s : State) : Host.Outcome State Fault Refusal :=
  finishIf (envIs 6 v) (envelopeAct v (do
    spdmAct 8 { q with path := .mgmt }
    return 0)) s

end Sys2Proof.Machine
end

