-- ==== Sys2Proof/Machine/Dispatch.lean ====
section
/-!
DEFINITION. One arm per command of the opcode table, in the order of Sys2Proof.Instr.
-/

namespace Sys2Proof.Machine

/-- The effect of a command on everything but the queue of waiting commands. -/
def exec (i : Instr) (s : State) : Host.Outcome State Fault Refusal :=
  match i with
  | .mirrorTakeover pair => Sys2Proof.Machine.execMirrorTakeover pair s
  | .mirrorLost pair => Sys2Proof.Machine.execMirrorLost pair s
  | .dieReadyReport die => Sys2Proof.Machine.execDieReadyReport die s
  | .alignTick => Sys2Proof.Machine.execAlignTick s
  | .alignLatencyRecord crossings => Sys2Proof.Machine.execAlignLatencyRecord crossings s
  | .alignReadyTimeout => Sys2Proof.Machine.execAlignReadyTimeout s
  | .ptpEventRx msg kind => Sys2Proof.Machine.execPtpEventRx msg kind s
  | .ppsInEdge offset => Sys2Proof.Machine.execPpsInEdge offset s
  | .ftbSourceLost src => Sys2Proof.Machine.execFtbSourceLost src s
  | .ftUnlocked => Sys2Proof.Machine.execFtUnlocked s
  | .ftbSetTimeWrite w => Sys2Proof.Machine.execFtbSetTimeWrite w s
  | .ftbNowNsRead path => Sys2Proof.Machine.execFtbNowNsRead path s
  | .setEntryWrite e word w => Sys2Proof.Machine.execSetEntryWrite e word w s
  | .exchWindowOpen e => Sys2Proof.Machine.execExchWindowOpen e s
  | .stepBoundary e => Sys2Proof.Machine.execStepBoundary e s
  | .statLatch e => Sys2Proof.Machine.execStatLatch e s
  | .pguPrepare e => Sys2Proof.Machine.execPguPrepare e s
  | .queueKick e => Sys2Proof.Machine.execQueueKick e s
  | .userPip e => Sys2Proof.Machine.execUserPip e s
  | .stepDecisionPoint p => Sys2Proof.Machine.execStepDecisionPoint p s
  | .heldBoundaryTake p => Sys2Proof.Machine.execHeldBoundaryTake p s
  | .eptStaleReload se p => Sys2Proof.Machine.execEptStaleReload se p s
  | .routeContextWrite se c word w => Sys2Proof.Machine.execRouteContextWrite se c word w s
  | .sreStepWrite p word w => Sys2Proof.Machine.execSreStepWrite p word w s
  | .eptCommitGo p w => Sys2Proof.Machine.execEptCommitGo p w s
  | .eptPrepareDone se p => Sys2Proof.Machine.execEptPrepareDone se p s
  | .eptLayerLoad se p layer => Sys2Proof.Machine.execEptLayerLoad se p layer s
  | .routeSubmit th w => Sys2Proof.Machine.execRouteSubmit th w s
  | .submitItemLand q => Sys2Proof.Machine.execSubmitItemLand q s
  | .sreSubmitItemRead se q => Sys2Proof.Machine.execSreSubmitItemRead se q s
  | .sreLogitPacket se q => Sys2Proof.Machine.execSreLogitPacket se q s
  | .sendListHandoff p setId tag => Sys2Proof.Machine.execSendListHandoff p setId tag s
  | .combine p set tag => Sys2Proof.Machine.execCombine p set tag s
  | .combineWait th w => Sys2Proof.Machine.execCombineWait th w s
  | .sampleSubmit th w => Sys2Proof.Machine.execSampleSubmit th w s
  | .sampleDone th => Sys2Proof.Machine.execSampleDone th s
  | .scRequestTake p => Sys2Proof.Machine.execScRequestTake p s
  | .scCancel p => Sys2Proof.Machine.execScCancel p s
  | .sreLiveClrWrite w => Sys2Proof.Machine.execSreLiveClrWrite w s
  | .xgCommitGo w => Sys2Proof.Machine.execXgCommitGo w s
  | .xgCheckDone h => Sys2Proof.Machine.execXgCheckDone h s
  | .exchLaunch p setId tag => Sys2Proof.Machine.execExchLaunch p setId tag s
  | .exchAllocation h => Sys2Proof.Machine.execExchAllocation h s
  | .exchLaunchDone h => Sys2Proof.Machine.execExchLaunchDone h s
  | .xgCountRound h round => Sys2Proof.Machine.execXgCountRound h round s
  | .xgAllocEnd h => Sys2Proof.Machine.execXgAllocEnd h s
  | .xgRoundStart h round => Sys2Proof.Machine.execXgRoundStart h round s
  | .xgSlotEnd h round => Sys2Proof.Machine.execXgSlotEnd h round s
  | .xgWindowEnd h => Sys2Proof.Machine.execXgWindowEnd h s
  | .oxtTailRetxTimer h => Sys2Proof.Machine.execOxtTailRetxTimer h s
  | .xgDeliveryDeadline h => Sys2Proof.Machine.execXgDeliveryDeadline h s
  | .oxtDataRx x => Sys2Proof.Machine.execOxtDataRx x s
  | .oxtAckRx f => Sys2Proof.Machine.execOxtAckRx f s
  | .oxtSackRx f => Sys2Proof.Machine.execOxtSackRx f s
  | .oxtCountRx f => Sys2Proof.Machine.execOxtCountRx f s
  | .oxtReduceRx f upsets => Sys2Proof.Machine.execOxtReduceRx f upsets s
  | .returnLaunch h => Sys2Proof.Machine.execReturnLaunch h s
  | .collectiveStart x => Sys2Proof.Machine.execCollectiveStart x s
  | .collectiveComplete h => Sys2Proof.Machine.execCollectiveComplete h s
  | .collTimeout h => Sys2Proof.Machine.execCollTimeout h s
  | .portFrameChoice port => Sys2Proof.Machine.execPortFrameChoice port s
  | .netPortCtrlWrite port w => Sys2Proof.Machine.execNetPortCtrlWrite port w s
  | .portCntClr port w => Sys2Proof.Machine.execPortCntClr port w s
  | .laserLoss path => Sys2Proof.Machine.execLaserLoss path s
  | .laserRestored port => Sys2Proof.Machine.execLaserRestored port s
  | .signalDetected x => Sys2Proof.Machine.execSignalDetected x s
  | .linkTrained port => Sys2Proof.Machine.execLinkTrained port s
  | .linkLocked port => Sys2Proof.Machine.execLinkLocked port s
  | .linkSecured port => Sys2Proof.Machine.execLinkSecured port s
  | .linkAttemptExpiry port => Sys2Proof.Machine.execLinkAttemptExpiry port s
  | .trainingTimeout port => Sys2Proof.Machine.execTrainingTimeout port s
  | .lockingTimeout port => Sys2Proof.Machine.execLockingTimeout port s
  | .securingTimeout port => Sys2Proof.Machine.execSecuringTimeout port s
  | .linkLos port rx => Sys2Proof.Machine.execLinkLos port rx s
  | .linkLockLoss port => Sys2Proof.Machine.execLinkLockLoss port s
  | .fecUcwExceeded x => Sys2Proof.Machine.execFecUcwExceeded x s
  | .remoteFault port => Sys2Proof.Machine.execRemoteFault port s
  | .optMeasure port laser rxmin => Sys2Proof.Machine.execOptMeasure port laser rxmin s
  | .pfcRx at_ vc xoff => Sys2Proof.Machine.execPfcRx at_ vc xoff s
  | .pfcXoffRepeat x vc => Sys2Proof.Machine.execPfcXoffRepeat x vc s
  | .pfcXon x vc => Sys2Proof.Machine.execPfcXon x vc s
  | .neighborSolicitRx at_ ns => Sys2Proof.Machine.execNeighborSolicitRx at_ ns s
  | .arpRx at_ target => Sys2Proof.Machine.execArpRx at_ target s
  | .roceRx port wire qpn icrcOk pkt => Sys2Proof.Machine.execRoceRx port wire qpn icrcOk pkt s
  | .unclassifiedFrameRx at_ len => Sys2Proof.Machine.execUnclassifiedFrameRx at_ len s
  | .mkaRx at_ peer reportsNewSa => Sys2Proof.Machine.execMkaRx at_ peer reportsNewSa s
  | .sakRekey port => Sys2Proof.Machine.execSakRekey port s
  | .oldSaExpiry port => Sys2Proof.Machine.execOldSaExpiry port s
  | .mkaPeerTimeout port peer => Sys2Proof.Machine.execMkaPeerTimeout port peer s
  | .cmdFetch th => Sys2Proof.Machine.execCmdFetch th s
  | .nop th w => Sys2Proof.Machine.execNop th w s
  | .br th w => Sys2Proof.Machine.execBr th w s
  | .loop th w => Sys2Proof.Machine.execLoop th w s
  | .waitPip th w => Sys2Proof.Machine.execWaitPip th w s
  | .waitPipTimeout th => Sys2Proof.Machine.execWaitPipTimeout th s
  | .sigPip th w => Sys2Proof.Machine.execSigPip th w s
  | .credGet th w => Sys2Proof.Machine.execCredGet th w s
  | .credPut th w => Sys2Proof.Machine.execCredPut th w s
  | .yield th w => Sys2Proof.Machine.execYield th w s
  | .halt th w => Sys2Proof.Machine.execHalt th w s
  | .pset th w => Sys2Proof.Machine.execPset th w s
  | .threadWake th => Sys2Proof.Machine.execThreadWake th s
  | .asyncCommandDone th slot => Sys2Proof.Machine.execAsyncCommandDone th slot s
  | .loadTile th w => Sys2Proof.Machine.execLoadTile th w s
  | .storeTile th w => Sys2Proof.Machine.execStoreTile th w s
  | .dma th w => Sys2Proof.Machine.execDma th w s
  | .fabLd th w => Sys2Proof.Machine.execFabLd th w s
  | .fabSt th w => Sys2Proof.Machine.execFabSt th w s
  | .fabAtom th w => Sys2Proof.Machine.execFabAtom th w s
  | .poolAlloc th w => Sys2Proof.Machine.execPoolAlloc th w s
  | .poolFree th w => Sys2Proof.Machine.execPoolFree th w s
  | .qPush th w => Sys2Proof.Machine.execQPush th w s
  | .qPop th w => Sys2Proof.Machine.execQPop th w s
  | .qDroppkt th w => Sys2Proof.Machine.execQDroppkt th w s
  | .qFlush th w => Sys2Proof.Machine.execQFlush th w s
  | .qStaleTimeout q => Sys2Proof.Machine.execQStaleTimeout q s
  | .hqDescWrite q word w => Sys2Proof.Machine.execHqDescWrite q word w s
  | .mm th w => Sys2Proof.Machine.execMm th w s
  | .conv th w => Sys2Proof.Machine.execConv th w s
  | .mv th w => Sys2Proof.Machine.execMv th w s
  | .gmm th w => Sys2Proof.Machine.execGmm th w s
  | .smm th w => Sys2Proof.Machine.execSmm th w s
  | .shell th w => Sys2Proof.Machine.execShell th w s
  | .merge th w => Sys2Proof.Machine.execMerge th w s
  | .shellerGather h rank => Sys2Proof.Machine.execShellerGather h rank s
  | .gatherClose h => Sys2Proof.Machine.execGatherClose h s
  | .vld th w => Sys2Proof.Machine.execVld th w s
  | .vst th w => Sys2Proof.Machine.execVst th w s
  | .vbin th w => Sys2Proof.Machine.execVbin th w s
  | .vun th w => Sys2Proof.Machine.execVun th w s
  | .vfma th w => Sys2Proof.Machine.execVfma th w s
  | .vred th w => Sys2Proof.Machine.execVred th w s
  | .vcvt th w => Sys2Proof.Machine.execVcvt th w s
  | .vperm th w => Sys2Proof.Machine.execVperm th w s
  | .vpack th w => Sys2Proof.Machine.execVpack th w s
  | .vunpack th w => Sys2Proof.Machine.execVunpack th w s
  | .poolInit p c w => Sys2Proof.Machine.execPoolInit p c w s
  | .poolRefill p c => Sys2Proof.Machine.execPoolRefill p c s
  | .cxlLinkDown port => Sys2Proof.Machine.execCxlLinkDown port s
  | .t3WipeChunk => Sys2Proof.Machine.execT3WipeChunk s
  | .tierRecalibration tier2 unit => Sys2Proof.Machine.execTierRecalibration tier2 unit s
  | .patrolScrub addr result => Sys2Proof.Machine.execPatrolScrub addr result s
  | .fabReqLoad f => Sys2Proof.Machine.execFabReqLoad f s
  | .fabReqStore f => Sys2Proof.Machine.execFabReqStore f s
  | .fabReqAtomic f => Sys2Proof.Machine.execFabReqAtomic f s
  | .fabReqInval f => Sys2Proof.Machine.execFabReqInval f s
  | .fabReqPing f => Sys2Proof.Machine.execFabReqPing f s
  | .fabRspRx f => Sys2Proof.Machine.execFabRspRx f s
  | .fabRetxTimer id => Sys2Proof.Machine.execFabRetxTimer id s
  | .fabTimeout id => Sys2Proof.Machine.execFabTimeout id s
  | .fabPingTimer => Sys2Proof.Machine.execFabPingTimer s
  | .fabLeaseExpiry member => Sys2Proof.Machine.execFabLeaseExpiry member s
  | .fabInvalTimeout id => Sys2Proof.Machine.execFabInvalTimeout id s
  | .fabRspCacheExpiry => Sys2Proof.Machine.execFabRspCacheExpiry s
  | .fabDomainGo w => Sys2Proof.Machine.execFabDomainGo w s
  | .fabDomainCommit => Sys2Proof.Machine.execFabDomainCommit s
  | .partMapCommit p w => Sys2Proof.Machine.execPartMapCommit p w s
  | .ctxSliceEnd p => Sys2Proof.Machine.execCtxSliceEnd p s
  | .ctxEarlySwitch p => Sys2Proof.Machine.execCtxEarlySwitch p s
  | .ctxSwitchSaved p => Sys2Proof.Machine.execCtxSwitchSaved p s
  | .ctxSwitchRestored p => Sys2Proof.Machine.execCtxSwitchRestored p s
  | .ctxFault p c => Sys2Proof.Machine.execCtxFault p c s
  | .ctxResume p c w => Sys2Proof.Machine.execCtxResume p c w s
  | .ctxReset p c w => Sys2Proof.Machine.execCtxReset p c w s
  | .ctxStop p c w => Sys2Proof.Machine.execCtxStop p c w s
  | .partTeardown p w => Sys2Proof.Machine.execPartTeardown p w s
  | .teardownDrainDone p => Sys2Proof.Machine.execTeardownDrainDone p s
  | .teardownDrainTimeout p => Sys2Proof.Machine.execTeardownDrainTimeout p s
  | .teardownWipeDone p => Sys2Proof.Machine.execTeardownWipeDone p s
  | .partJobStart p w => Sys2Proof.Machine.execPartJobStart p w s
  | .jobStartFire p => Sys2Proof.Machine.execJobStartFire p s
  | .oxtRequestRx f => Sys2Proof.Machine.execOxtRequestRx f s
  | .tokenOutItem q => Sys2Proof.Machine.execTokenOutItem q s
  | .tokenOutRetxTimer p node psn => Sys2Proof.Machine.execTokenOutRetxTimer p node psn s
  | .oxtDoorbellRx f => Sys2Proof.Machine.execOxtDoorbellRx f s
  | .sqTailDoorbell path r full val => Sys2Proof.Machine.execSqTailDoorbell path r full val s
  | .cqHeadDoorbell path r full val => Sys2Proof.Machine.execCqHeadDoorbell path r full val s
  | .ringDescWrite r word w => Sys2Proof.Machine.execRingDescWrite r word w s
  | .ringFetch r hostBytes => Sys2Proof.Machine.execRingFetch r hostBytes s
  | .entryNop r => Sys2Proof.Machine.execEntryNop r s
  | .launch r => Sys2Proof.Machine.execLaunch r s
  | .copy r hostBytes => Sys2Proof.Machine.execCopy r hostBytes s
  | .qpush r hostBytes => Sys2Proof.Machine.execQpush r hostBytes s
  | .pipsig r => Sys2Proof.Machine.execPipsig r s
  | .qpCtl r => Sys2Proof.Machine.execQpCtl r s
  | .mrCtl r => Sys2Proof.Machine.execMrCtl r s
  | .rdmaWr r => Sys2Proof.Machine.execRdmaWr r s
  | .rdmaRecv r => Sys2Proof.Machine.execRdmaRecv r s
  | .cqeWrite r => Sys2Proof.Machine.execCqeWrite r s
  | .ringIrqHoldoff r => Sys2Proof.Machine.execRingIrqHoldoff r s
  | .vfFlr n => Sys2Proof.Machine.execVfFlr n s
  | .pfFlr => Sys2Proof.Machine.execPfFlr s
  | .vfEnableClear => Sys2Proof.Machine.execVfEnableClear s
  | .pcieLinkDown => Sys2Proof.Machine.execPcieLinkDown s
  | .ownClaim w => Sys2Proof.Machine.execOwnClaim w s
  | .ownElectionSettle => Sys2Proof.Machine.execOwnElectionSettle s
  | .ownClaimExpiry cand => Sys2Proof.Machine.execOwnClaimExpiry cand s
  | .ownHeartbeat w => Sys2Proof.Machine.execOwnHeartbeat w s
  | .ownLapse => Sys2Proof.Machine.execOwnLapse s
  | .ownRelease w => Sys2Proof.Machine.execOwnRelease w s
  | .ownHandover w => Sys2Proof.Machine.execOwnHandover w s
  | .i3cEntdaa addr => Sys2Proof.Machine.execI3cEntdaa addr s
  | .i3cWrite addr bytes => Sys2Proof.Machine.execI3cWrite addr bytes s
  | .i3cRead addr bytes stop => Sys2Proof.Machine.execI3cRead addr bytes stop s
  | .getVersion q => Sys2Proof.Machine.execGetVersion q s
  | .getCapabilities q => Sys2Proof.Machine.execGetCapabilities q s
  | .negotiateAlgorithms q => Sys2Proof.Machine.execNegotiateAlgorithms q s
  | .getDigests q => Sys2Proof.Machine.execGetDigests q s
  | .getCertificate q => Sys2Proof.Machine.execGetCertificate q s
  | .challenge q => Sys2Proof.Machine.execChallenge q s
  | .getMeasurements q => Sys2Proof.Machine.execGetMeasurements q s
  | .spdmVendorDefined q => Sys2Proof.Machine.execSpdmVendorDefined q s
  | .mgmtRegWrite v off val => Sys2Proof.Machine.execMgmtRegWrite v off val s
  | .mgmtRegRead v off => Sys2Proof.Machine.execMgmtRegRead v off s
  | .mgmtOwnClaim v val => Sys2Proof.Machine.execMgmtOwnClaim v val s
  | .keyInstall v body => Sys2Proof.Machine.execKeyInstall v body s
  | .mgmtLcsReq v val authOk => Sys2Proof.Machine.execMgmtLcsReq v val authOk s
  | .mgmtSpdm v q => Sys2Proof.Machine.execMgmtSpdm v q s
  | .inputPowerUp mv10 => Sys2Proof.Machine.execInputPowerUp mv10 s
  | .inputOv mv10 => Sys2Proof.Machine.execInputOv mv10 s
  | .inputOvRelease mv10 => Sys2Proof.Machine.execInputOvRelease mv10 s
  | .sagWarn mv10 => Sys2Proof.Machine.execSagWarn mv10 s
  | .sagWarnClear mv10 => Sys2Proof.Machine.execSagWarnClear mv10 s
  | .sagReset mv10 => Sys2Proof.Machine.execSagReset mv10 s
  | .sagResetRelease mv10 => Sys2Proof.Machine.execSagResetRelease mv10 s
  | .pwrSagWrite w => Sys2Proof.Machine.execPwrSagWrite w s
  | .pguGrant => Sys2Proof.Machine.execPguGrant s
  | .pguBaseUpdate measuredW avgGr => Sys2Proof.Machine.execPguBaseUpdate measuredW avgGr s
  | .pwrPeak measuredW => Sys2Proof.Machine.execPwrPeak measuredW s
  | .pguResume => Sys2Proof.Machine.execPguResume s
  | .pguReservationExpiry p => Sys2Proof.Machine.execPguReservationExpiry p s
  | .coreWake core => Sys2Proof.Machine.execCoreWake core s
  | .railFault rail => Sys2Proof.Machine.execRailFault rail s
  | .railLatchClear => Sys2Proof.Machine.execRailLatchClear s
  | .sensorFault x => Sys2Proof.Machine.execSensorFault x s
  | .coolantLow inlet flow => Sys2Proof.Machine.execCoolantLow inlet flow s
  | .coolantLowClear inlet flow => Sys2Proof.Machine.execCoolantLowClear inlet flow s
  | .thermSample die temp => Sys2Proof.Machine.execThermSample die temp s
  | .thermStep die => Sys2Proof.Machine.execThermStep die s
  | .thermTrip die => Sys2Proof.Machine.execThermTrip die s
  | .pwrTripClr w => Sys2Proof.Machine.execPwrTripClr w s
  | .regionCheck a b dTemp dMv ratioPct => Sys2Proof.Machine.execRegionCheck a b dTemp dMv ratioPct s
  | .ageMonitorReport die monitor slack => Sys2Proof.Machine.execAgeMonitorReport die monitor slack s
  | .marginPlannerPass die slacks => Sys2Proof.Machine.execMarginPlannerPass die slacks s
  | .planNow w => Sys2Proof.Machine.execPlanNow w s
  | .opHoursTick => Sys2Proof.Machine.execOpHoursTick s
  | .errorReport => Sys2Proof.Machine.execErrorReport s
  | .errRecordClose => Sys2Proof.Machine.execErrRecordClose s
  | .erqIrqHoldoffEnd => Sys2Proof.Machine.execErqIrqHoldoffEnd s
  | .errCtrlErqEn w => Sys2Proof.Machine.execErrCtrlErqEn w s
  | .errFirstClr w => Sys2Proof.Machine.execErrFirstClr w s
  | .errDeviceClr w => Sys2Proof.Machine.execErrDeviceClr w s
  | .errErqHeadWrite w => Sys2Proof.Machine.execErrErqHeadWrite w s
  | .coldReset => Sys2Proof.Machine.execColdReset s
  | .warmReset => Sys2Proof.Machine.execWarmReset s
  | .lcsResetCold w => Sys2Proof.Machine.execLcsResetCold w s
  | .lcsResetWarm w => Sys2Proof.Machine.execLcsResetWarm w s
  | .fwImageCheck img => Sys2Proof.Machine.execFwImageCheck img s
  | .memTraining ok site => Sys2Proof.Machine.execMemTraining ok site s
  | .bootReady wiped => Sys2Proof.Machine.execBootReady wiped s
  | .fwWrite w img => Sys2Proof.Machine.execFwWrite w img s
  | .fwWriteDone ok => Sys2Proof.Machine.execFwWriteDone ok s
  | .fwActivate w => Sys2Proof.Machine.execFwActivate w s
  | .svnCommit w => Sys2Proof.Machine.execSvnCommit w s
  | .lcsReq w authOk => Sys2Proof.Machine.execLcsReq w authOk s
  | .registerWrite off w => Sys2Proof.Machine.execRegisterWrite off w s
  | .pcieLinkUp rate width => Sys2Proof.Machine.execPcieLinkUp rate width s
  | .cxlLinkUp port width capGib => Sys2Proof.Machine.execCxlLinkUp port width capGib s
  | .inputPowerLoss mv10 => Sys2Proof.Machine.execInputPowerLoss mv10 s
  | .ppsOutEdge => Sys2Proof.Machine.execPpsOutEdge s
  | .msixVectorUnmask pf fn vec => Sys2Proof.Machine.execMsixVectorUnmask pf fn vec s
  | .roceRetryTimeout qpn => Sys2Proof.Machine.execRoceRetryTimeout qpn s

end Sys2Proof.Machine
end

