-- ==== Sys2Proof/Safety.lean ====
section
/-!
DEFINITION. What counts as a safe state and a safe step, and the other terms the statements use: every sparse table of the state is in
its canonical form, so that equal contents are equal data; a step answers a next state; which pieces of the state a command leaves as
they were; the state after a write of one place.
-/

namespace Sys2Proof.Machine

/-- The canonical form of a sparse table: keys strictly rising, no entry equal to what an unlisted key reads as. -/
def tblWf {α : Type} [DecidableEq α] (d : Nat → α) (t : Tbl α) : Bool :=
  decide (t.Pairwise (fun a b => a.1 < b.1)) && t.all (fun e => decide (e.2 ≠ d e.1))

/-- The canonical form of device memory. -/
def Memory.wf (m : List Host.Cell) : Bool := tblWf (fun _ => (0 : Byte)) m

/-- Every sparse table of a state is in its canonical form. -/
abbrev Canon (s : State) : Prop :=
  tblWf resetWord s.regs = true ∧ Memory.wf s.mem = true ∧ tblWf (fun _ => {}) s.threads = true ∧
    tblWf (fun _ => 0) s.pips = true ∧ tblWf (fun _ => {}) s.vbufs = true ∧ tblWf (fun _ => {}) s.queues = true ∧
    tblWf (fun _ => {}) s.parts = true ∧ tblWf (fun _ => {}) s.pools = true ∧ tblWf (fun _ => {}) s.groups = true ∧
    tblWf (fun _ => {}) s.ports = true ∧ tblWf (fun _ => []) s.eptSlots = true ∧ tblWf (fun _ => 15) s.turns = true

/-- A step is safe when it answers a next state: the model neither stops on an ill-formed command nor lacks a meaning. -/
def SafeStep (s : State) : Prop := ∃ t, step s = .next t

/-! ## Terms of the statements -/

/-- The command answers a next state, and what it holds. -/
def Answers (c : Instr) (s : State) (P : State → Prop) : Prop := ∃ t, exec c s = .next t ∧ P t

/-- What a statement says of one case: where it applies, and what then holds. -/
structure Clause where
  pre : Prop
  post : Prop

/-- The clause holds. -/
def Clause.Holds (c : Clause) : Prop := c.pre → c.post

/-- The pieces of a state. -/
inductive Piece where
  | regs | mem | mem2 | time | mod | nv | own | err | pw | host | fab | threads | pips | vbufs | queues | parts | pools
  | groups | ports | eptSlots | submits | tagsDone | samples | loads | launches | colls | freeIdx | out
  deriving DecidableEq, Repr

/-- A piece is as it was: every register and every byte of memory reads as before, every other piece is the same data. With the threads go
the places of the issue units in their round robin (R167). -/
def Piece.Same (s t : State) : Piece → Prop
  | .regs => ∀ off, regOf t off = regOf s off
  | .mem => ∀ a, memAt t a = memAt s a
  | .mem2 => t.mem2 = s.mem2
  | .time => t.time = s.time
  | .mod => t.mod = s.mod
  | .nv => t.nv = s.nv
  | .own => t.own = s.own
  | .err => t.err = s.err
  | .pw => t.pw = s.pw
  | .host => t.host = s.host
  | .fab => t.fab = s.fab
  | .threads => t.threads = s.threads ∧ t.turns = s.turns
  | .pips => t.pips = s.pips
  | .vbufs => t.vbufs = s.vbufs
  | .queues => t.queues = s.queues
  | .parts => t.parts = s.parts
  | .pools => t.pools = s.pools
  | .groups => t.groups = s.groups
  | .ports => t.ports = s.ports
  | .eptSlots => t.eptSlots = s.eptSlots
  | .submits => t.submits = s.submits
  | .tagsDone => t.tagsDone = s.tagsDone
  | .samples => t.samples = s.samples
  | .loads => t.loads = s.loads
  | .launches => t.launches = s.launches
  | .colls => t.colls = s.colls
  | .freeIdx => t.freeIdx = s.freeIdx
  | .out => t.out = s.out

/-- Every piece but those listed is as it was. -/
def OnlyChanges (s t : State) (may : List Piece) : Prop := ∀ x : Piece, x ∉ may → x.Same s t

/-- Every register but those listed reads as before. -/
def RegsBut (s t : State) (offs : List Nat) : Prop := ∀ off, off ∉ offs → regOf t off = regOf s off

/-- Every byte of memory outside the `n` bytes from `a` reads as before. -/
def MemBut (s t : State) (a n : Nat) : Prop := ∀ x, x < a ∨ a + n ≤ x → memAt t x = memAt s x

/-- The state after the write of one word of BAR0. -/
def State.setReg (s : State) (off v : Nat) : State := (Effect.reg off (BitVec.ofNat 64 v)).apply s

/-- The state after the write of one field of a register. -/
def State.setField (s : State) (off lo len v : Nat) : State := s.setReg off (setBits (regOf s off).toNat lo len v)

def State.setThread (s : State) (k : Nat) (v : Thread) : State := (Effect.thread k v).apply s
def State.setPip (s : State) (k : Nat) (v : BitVec 16) : State := (Effect.pip k v).apply s
def State.setVbuf (s : State) (k : Nat) (v : VBuf) : State := (Effect.vbuf k v).apply s
def State.setQueue (s : State) (k : Nat) (v : Queue) : State := (Effect.queue k v).apply s
def State.setPart (s : State) (k : Nat) (v : Part) : State := (Effect.part k v).apply s
def State.setPool (s : State) (k : Nat) (v : Pool) : State := (Effect.pool k v).apply s
def State.setGroup (s : State) (k : Nat) (v : Group) : State := (Effect.group k v).apply s
def State.setPort (s : State) (k : Nat) (v : Port) : State := (Effect.port k v).apply s

/-- A path that is up and the owner's (R335, R337). -/
abbrev ByOwner (s : State) (p : Path) : Prop := pathUp s p = true ∧ isOwner s p = true

/-- No power request or grant is held or waits under a name. -/
abbrev NoGrant (s : State) (who : Holder) : Prop :=
  (∀ g ∈ s.pw.held, g.who ≠ who) ∧ (∀ g ∈ s.pw.waiting, g.who ≠ who)

/-- A command of a thread that issues with nothing set in its header (R172). -/
abbrev Plain (s : State) (th : Thr) (w : Cmd) (i : Iss) : Prop :=
  canIssue s th w = some i ∧ hWait w = false ∧ hPredEn w = false ∧ hSig w = false ∧ hLeave w = false ∧ NoGrant s (.sync i.key)

/-- The state in which a thread is the one last issued on its core (R167). -/
def State.issued (s : State) (i : Iss) : State := (Effect.turn i.core i.tc).apply s

/-- The state in which a thread's synchronous command is complete and nothing but the thread has changed (R167, R172). -/
def State.moved (s : State) (i : Iss) (target : Option Nat) (f : Thread → Thread) : State :=
  (s.issued i).setThread i.key (moveOn target (f (threadOf s i.key)))

/-- The report an error adds to those on their way to MG0 (R375). -/
abbrev Reported (s t : State) (code sev die unit : Nat) (part : Option Nat) (addr detail : Nat) : Prop :=
  t.err = { s.err with inflight := s.err.inflight ++ [{ code, sev, die, unit, part, addr, detail, ft := ftNs s }] }

/-- The two words of ERR_SRC of a die (R375, R383). -/
def errSrc (die : Nat) : List Nat := [0x081000 + 0x10 * die, 0x081008 + 0x10 * die]

end Sys2Proof.Machine
end

