-- ==== Sys2Proof/Certificates/Slice0/Obligations.lean ====
section
/-!
DEFINITION. The statements for the provers. A clause of namespace Sys2Proof.Claims says of one command where it applies and what state
it answers; an obligation says that clauses hold, for every state and all operands. `w` is the command's word of R171, `i` the command as
it issues (partition, context, core, thread context).
-/

open Sys2Proof Sys2Proof.Machine

/-! ## The queue of waiting commands, and the form of every outcome -/

/-- A step with a command at the front of the queue is that command on the state with the rest of the queue. -/
def Obligations.StepRunsFrontCommand : Prop :=
  ∀ (s : State) (c : Instr) (rest : List Instr), step { s with pending := c :: rest } = exec c { s with pending := rest }

/-- The model's choice (log entry 1): with nothing waiting a step lets the clocks run for one nanosecond, and changes nothing else, but for
the words of armed entries without an action that come due (R36, log entry 31). FT moves with the module clock while it runs, and slews
towards its source by SLEW_PPM, the fraction of a 2^-16 ns left over counting in the next nanosecond (R29, R30, R34). -/
def Obligations.IdleStepIsOneNanosecond : Prop :=
  ∀ s : State, s.pending = [] → ∃ t, step s = .next t ∧ t.time.now = s.time.now + 1 ∧ t.pending = [] ∧ OnlyChanges s t [.time, .regs] ∧
    (noneDue { s with time := t.time } = [] → t.regs = s.regs) ∧
    (s.time.running = false → t.time.ft = s.time.ft) ∧
    (s.time.running = true → s.time.slew = 0 → t.time.ft = s.time.ft + 65536) ∧
    (s.time.running = true → 0 < s.time.slew →
      t.time.ft = s.time.ft + 65536 - BitVec.ofNat 80 (min (slewRoom s 1 / 1000000) s.time.slew.natAbs) ∧
      t.time.slew = s.time.slew - min (slewRoom s 1 / 1000000 : Nat) s.time.slew.natAbs) ∧
    (s.time.running = true → s.time.slew < 0 →
      t.time.ft = s.time.ft + 65536 + BitVec.ofNat 80 (min (slewRoom s 1 / 1000000) s.time.slew.natAbs) ∧
      t.time.slew = s.time.slew + min (slewRoom s 1 / 1000000 : Nat) s.time.slew.natAbs)

/-- A command whose term is well formed answers a next state, in every state; any other stops as illFormed. -/
def Obligations.WellFormedCommandsAnswer : Prop :=
  ∀ (c : Instr) (s : State),
    (c.wellFormed = true → ∃ t, exec c s = .next t) ∧ (c.wellFormed = false → exec c s = .fault .illFormed)

/-- No command touches the queue of waiting commands, sets the module clock back, takes back what has left the module, or draws a free
value twice. -/
def Obligations.CommandsOnlyAddToWhatIsPast : Prop :=
  ∀ (c : Instr) (s t : State), exec c s = .next t →
    t.pending = s.pending ∧ s.time.now ≤ t.time.now ∧ s.out <+: t.out ∧ s.freeIdx ≤ t.freeIdx

/-- Every sparse table of the state keeps its canonical form over every step. -/
def Obligations.StepKeepsCanonicalForm : Prop :=
  ∀ s t : State, Canon s → step s = .next t → Canon t

/-- The state after reset is in canonical form, with the module clock and FT at 0, nothing waiting and memory with nothing listed. -/
def Obligations.ResetStateIsCanonical : Prop :=
  Canon State.reset ∧ State.reset.pending = [] ∧ State.reset.mem = [] ∧ State.reset.time.ft = 0 ∧ State.reset.threads = [] ∧
    State.reset.queues = [] ∧ State.reset.err.inflight = []

/-! ## Threads: the command header and the control commands (R166–R175) -/

namespace Sys2Proof.Claims

/-- The commands of a thread. -/
def threadCmds (th : Thr) (w : Cmd) : List Instr :=
  [.nop th w, .br th w, .loop th w, .waitPip th w, .sigPip th w, .credGet th w, .credPut th w, .yield th w, .halt th w, .pset th w,
   .loadTile th w, .storeTile th w, .dma th w, .fabLd th w, .fabSt th w, .fabAtom th w, .poolAlloc th w, .poolFree th w,
   .qPush th w, .qPop th w, .qDroppkt th w, .qFlush th w, .mm th w, .conv th w, .mv th w, .gmm th w, .smm th w, .shell th w,
   .merge th w, .vld th w, .vst th w, .vbin th w, .vun th w, .vfma th w, .vred th w, .vcvt th w, .vperm th w, .vpack th w,
   .vunpack th w, .routeSubmit th w, .combineWait th w, .sampleSubmit th w]

/-- The synchronous ones whose body has no part before it in which LEAVE does not matter (R169). -/
def syncCmds (th : Thr) (w : Cmd) : List Instr :=
  [.nop th w, .br th w, .loop th w, .waitPip th w, .sigPip th w, .credGet th w, .credPut th w, .yield th w, .halt th w, .pset th w,
   .fabLd th w, .fabAtom th w, .poolAlloc th w, .poolFree th w, .qPush th w, .qPop th w, .qDroppkt th w, .qFlush th w,
   .combineWait th w]

/-- The asynchronous ones with their power class (R169, R187, R194). -/
def asyncCmds (th : Thr) (w : Cmd) : List (Instr × Nat) :=
  [(.loadTile th w, cf w 30 0 3), (.storeTile th w, cf w 30 0 3), (.dma th w, cf w 28 0 3), (.mm th w, cf w 5 0 3),
   (.conv th w, cf w 5 0 3), (.mv th w, cf w 5 0 3), (.gmm th w, cf w 5 0 3), (.smm th w, cf w 5 0 3), (.shell th w, cf w 5 0 3),
   (.merge th w, cf w 5 0 3), (.vld th w, 0), (.vst th w, 0), (.vbin th w, 0), (.vun th w, 0), (.vfma th w, 0), (.vred th w, 0),
   (.vcvt th w, 0), (.vperm th w, 0), (.vpack th w, 0), (.vunpack th w, 0), (.routeSubmit th w, 0), (.sampleSubmit th w, 0)]

/-- A thread that waits with the command it will issue again or complete. -/
abbrev waiting (s : State) (i : Iss) (why : Wait) : State :=
  (s.issued i).setThread i.key { threadOf s i.key with st := .waiting, wait := why, cur := some i.w, since := s.time.now }

/-- A request for watts at the end of the PGU's queue (R345). -/
abbrev asking (s : State) (g : Grant) : State := { s with pw := { s.pw with waiting := s.pw.waiting ++ [g] } }

/-- A thread is FAULTED with a cause, and CMD_INVALID is on its way (R171, R423); nothing else changes but the thread and its die's error
status. -/
abbrev FaultedAs (s t : State) (i : Iss) (cause : Nat) : Prop :=
  t.threads = (s.setThread i.key { threadOf s i.key with st := .faulted, faultCause := BitVec.ofNat 8 cause, cur := none, wait := .none }).threads ∧
    Reported s t 0x8001 2 (i.core / 64) (i.core % 64) (some i.p) 0 (faultDetail cause i.tc i.ctx) ∧
    RegsBut s t (errSrc (i.core / 64)) ∧ OnlyChanges s t [.threads, .regs, .err]

/-- A command of a context that does not run, of a core that is asleep or not the partition's, or of a thread that is not READY, does
not issue. -/
abbrev cannotIssue (s : State) (th : Thr) (w : Cmd) (c : Instr) : Clause :=
  ⟨c ∈ threadCmds th w ∧ c.wellFormed = true ∧ canIssue s th w = none, exec c s = .next s⟩

/-- Priority is strict: while a thread of its core has a higher PRIO and is READY, a thread issues nothing (R167). -/
abbrev lowerWaits (s : State) (th : Thr) (w : Cmd) (i : Iss) (c : Instr) (e : Nat × Thread) : Clause :=
  ⟨c ∈ threadCmds th w ∧ c.wellFormed = true ∧ canRun s th w = some i ∧ e ∈ s.threads ∧ e.1 / 16 = i.key / 16 ∧ e.2.st = .ready ∧
      (threadOf s i.key).prio < e.2.prio,
    exec c s = .next s⟩

/-- Among threads of equal PRIO the issue unit goes round: while another thread of its core comes earlier behind the thread last issued and is
READY, a thread issues nothing (R167). -/
abbrev turnWaits (s : State) (th : Thr) (w : Cmd) (i : Iss) (c : Instr) (e : Nat × Thread) : Clause :=
  ⟨c ∈ threadCmds th w ∧ c.wellFormed = true ∧ canRun s th w = some i ∧ e ∈ s.threads ∧ e.1 / 16 = i.key / 16 ∧ e.2.st = .ready ∧
      e.2.prio = (threadOf s i.key).prio ∧ turnPlace s e.1 < turnPlace s i.key,
    exec c s = .next s⟩

/-- WAIT with its pip at 0: the thread waits, and the command issues again (R172 step 1). -/
abbrev headerWait (s : State) (th : Thr) (w : Cmd) (i : Iss) (c : Instr) : Clause :=
  ⟨c ∈ threadCmds th w ∧ c.wellFormed = true ∧ canIssue s th w = some i ∧ hWait w = true ∧ (threadOf s i.key).hdrDone = false ∧
      pipOf s (pipKey i.p i.ctx i.core (hWpip w)) = 0 ∧ Canon s,
    exec c s = .next (waiting s i (.header (hWpip w)))⟩

/-- A predicate that does not hold: the command is skipped (R172 step 2). -/
abbrev headerSkip (s : State) (th : Thr) (w : Cmd) (i : Iss) (c : Instr) : Clause :=
  ⟨c ∈ threadCmds th w ∧ c.wellFormed = true ∧ canIssue s th w = some i ∧ hWait w = false ∧ hPredEn w = true ∧
      pOf (threadOf s i.key) (hPred w) = (hPneg w == 1) ∧ hSig w = false,
    exec c s = .next (s.moved i none id)⟩

/-- LEAVE on a synchronous command: the thread waits for a grant of power class 0 (R172, R345). -/
abbrev syncLeave (s : State) (th : Thr) (w : Cmd) (i : Iss) (c : Instr) : Clause :=
  ⟨c ∈ syncCmds th w ∧ c.wellFormed = true ∧ canIssue s th w = some i ∧ hWait w = false ∧ hPredEn w = false ∧ hLeave w = true ∧
      holdsGrant s (.sync i.key) = false,
    exec c s = .next (waiting (asking s { who := .sync i.key, mw := classMw s 0, prio := (threadOf s i.key).prio.toNat, part := i.p,
                                          die := some (i.core / 64), askedAt := s.time.now }) i .grant)⟩

/-- LEAVE on an asynchronous command: it takes the lowest free slot, its request goes to the PGU, and the thread goes on to its next
command (R169, R172, R345). -/
abbrev asyncLeave (s : State) (th : Thr) (w : Cmd) (i : Iss) (slot : Nat) (c : Instr × Nat) : Clause :=
  ⟨c ∈ asyncCmds th w ∧ c.1.wellFormed = true ∧ canIssue s th w = some i ∧ hWait w = false ∧ hPredEn w = false ∧ hLeave w = true ∧
      freeSlot (threadOf s i.key) = some slot ∧ Canon s,
    exec c.1 s = .next ((asking s { who := .cmd i.key slot, mw := classMw s c.2, prio := (threadOf s i.key).prio.toNat, part := i.p,
                                    die := some (i.core / 64), askedAt := s.time.now }).moved i none
      (fun t => { t with asyncs := t.asyncs.filter (fun e => e.1 < slot) ++ (slot, heldBack s i true) ::
                                     t.asyncs.filter (fun e => slot < e.1) }))⟩

/-- The asynchronous commands that need no grant of their own (R169, R196). -/
def lightCmds (th : Thr) (w : Cmd) : List Instr :=
  [.mv th w, .shell th w, .merge th w, .vld th w, .vst th w, .vbin th w, .vun th w, .vfma th w, .vred th w, .vcvt th w, .vperm th w,
   .vpack th w, .vunpack th w, .routeSubmit th w, .sampleSubmit th w]

/-- An asynchronous command that another command keeps from its engine waits behind it in its slot, with what it reads at its
issue; the thread goes on to its next command (R169, R197, R225, R238). -/
abbrev asyncBehind (s : State) (th : Thr) (w : Cmd) (i : Iss) (slot : Nat) (c : Instr) : Clause :=
  ⟨c ∈ lightCmds th w ∧ c.wellFormed = true ∧ canIssue s th w = some i ∧ hWait w = false ∧ hPredEn w = false ∧ hLeave w = false ∧
      freeSlot (threadOf s i.key) = some slot ∧ engineFree s i = false ∧ Canon s,
    exec c s = .next (s.moved i none
      (fun t => { t with asyncs := t.asyncs.filter (fun e => e.1 < slot) ++ (slot, heldBack s i false) ::
                                     t.asyncs.filter (fun e => slot < e.1) }))⟩

/-- A seventeenth outstanding command: the thread waits for room (R169). -/
abbrev asyncFull (s : State) (th : Thr) (w : Cmd) (i : Iss) (c : Instr × Nat) : Clause :=
  ⟨c ∈ asyncCmds th w ∧ c.1.wellFormed = true ∧ canIssue s th w = some i ∧ hWait w = false ∧ hPredEn w = false ∧
      freeSlot (threadOf s i.key) = none,
    exec c.1 s = .next (waiting s i .asyncRoom)⟩

/-- NOP with SIG: the pip of the issuing core and context increments, saturating (R172 step 5, R173). -/
abbrev nopSignals (s : State) (th : Thr) (w : Cmd) (i : Iss) : Clause :=
  ⟨opIs 0x00 w = true ∧ canIssue s th w = some i ∧ hWait w = false ∧ hPredEn w = false ∧ hSig w = true ∧ hLeave w = false ∧
      NoGrant s (.sync i.key) ∧ pipWaiters (s.moved i none id) i.p i.ctx i.core (hSpip w) = [] ∧
      (pipOf s (pipKey i.p i.ctx i.core (hSpip w))).toNat < 0xFFFF,
    exec (.nop th w) s = .next ((s.moved i none id).setPip (pipKey i.p i.ctx i.core (hSpip w))
      (pipOf s (pipKey i.p i.ctx i.core (hSpip w)) + 1))⟩

end Sys2Proof.Claims

open Sys2Proof.Claims in
/-- The header of R171 and R172, for every command of a thread: when it does not issue, waits behind a thread of higher PRIO or
behind one of its own PRIO that is first in the round robin, waits on a pip, is skipped, waits for a grant, behind commands to its engine or for
one of the sixteen slots. -/
def Obligations.CommandHeaderForms : Prop :=
  ∀ (s : State) (th : Thr) (w : Cmd) (i : Iss) (slot : Nat) (c : Instr) (ca : Instr × Nat) (e : Nat × Thread),
    (cannotIssue s th w c).Holds ∧ (lowerWaits s th w i c e).Holds ∧ (turnWaits s th w i c e).Holds ∧ (headerWait s th w i c).Holds ∧ (headerSkip s th w i c).Holds ∧
      (syncLeave s th w i c).Holds ∧ (asyncLeave s th w i slot ca).Holds ∧ (asyncBehind s th w i slot c).Holds ∧
      (asyncFull s th w i ca).Holds ∧ (nopSignals s th w i).Holds

namespace Sys2Proof.Claims

/-- NOP (R174). -/
abbrev nop (s : State) (th : Thr) (w : Cmd) (i : Iss) : Clause :=
  ⟨Plain s th w i ∧ opIs 0x00 w = true, exec (.nop th w) s = .next (s.moved i none id)⟩

/-- YIELD completes and gives its issue slot away (R168). -/
abbrev yield (s : State) (th : Thr) (w : Cmd) (i : Iss) : Clause :=
  ⟨Plain s th w i ∧ opIs 0x07 w = true ∧ Canon s,
    exec (.yield th w) s = .next (s.moved i none (fun t => { t with st := .waiting, wait := .met }))⟩

/-- BR goes to its target (R175). -/
abbrev br (s : State) (th : Thr) (w : Cmd) (i : Iss) (a : Nat) : Clause :=
  ⟨Plain s th w i ∧ opIs 0x01 w = true ∧ brTarget s i (cf w 4 0 1 == 1) = some a,
    exec (.br th w) s = .next (s.moved i (some a) id)⟩

/-- LOOP counts its register down and jumps while it is not 0; a register of 0 stays 0 and falls through (R175). -/
abbrev loop (s : State) (th : Thr) (w : Cmd) (i : Iss) (a : Nat) : Clause :=
  let g := gOf (threadOf s i.key) (cb w 4)
  ⟨Plain s th w i ∧ opIs 0x02 w = true ∧ cb w 4 ≤ 31 ∧ brTarget s i (cf w 5 0 1 == 1) = some a ∧ Canon s,
    exec (.loop th w) s = .next (s.moved i (if g.toNat ≤ 1 then none else some a) (if g = 0 then id else setG (cb w 4) (g - 1)))⟩

/-- WAIT_PIP on a pip that has its count subtracts it and writes 1 to the result predicate (R175). -/
abbrev waitPipMet (s : State) (th : Thr) (w : Cmd) (i : Iss) : Clause :=
  let k := pipKey i.p i.ctx i.core (cf w 4 0 6)
  ⟨Plain s th w i ∧ opIs 0x03 w = true ∧ cf w 6 0 16 ≤ (pipOf s k).toNat ∧ Canon s,
    exec (.waitPip th w) s = .next ((s.setPip k (BitVec.ofNat 16 ((pipOf s k).toNat - cf w 6 0 16))).moved i none (setP (cf w 5 0 3) true))⟩

/-- WAIT_PIP on a pip below its count waits, with its timeout where TIMEOUT_NS is not 0 (R175). -/
abbrev waitPipWaits (s : State) (th : Thr) (w : Cmd) (i : Iss) : Clause :=
  ⟨Plain s th w i ∧ opIs 0x03 w = true ∧ (pipOf s (pipKey i.p i.ctx i.core (cf w 4 0 6))).toNat < cf w 6 0 16,
    exec (.waitPip th w) s = .next (waiting s i (.pip (cf w 4 0 6) (cf w 6 0 16) (cf w 5 0 3)
      (if cf w 8 0 32 = 0 then none else some (s.time.now + cf w 8 0 32))))⟩

/-- SIG_PIP adds its count, at least 1, to a pip of its own or another core that no thread waits on; 0xFFFF is the most a pip holds, and
PIP_SAT of the pip's core counts a signal that would pass it (R173, R175). -/
abbrev sigPip (s : State) (th : Thr) (w : Cmd) (i : Iss) (core n : Nat) : Clause :=
  let k := pipKey i.p i.ctx core (cf w 4 0 6)
  ⟨Plain s th w i ∧ opIs 0x04 w = true ∧ core = (if cf w 8 0 16 = 0xFFFF then i.core else cf w 8 0 16) ∧ coreOfPart s i.p core = true ∧
      n = (if cf w 6 0 16 = 0 then 1 else cf w 6 0 16) ∧ pipWaiters s i.p i.ctx core (cf w 4 0 6) = [] ∧ Canon s,
    Answers (.sigPip th w) s (fun t => pipOf t k = BitVec.ofNat 16 (min 0xFFFF ((pipOf s k).toNat + n)) ∧
      (∀ k', k' ≠ k → pipOf t k' = pipOf s k') ∧ t.threads = (s.moved i none id).threads ∧
      fieldOf t (rCore core 0x38) 0 32 =
        (if 0xFFFF < (pipOf s k).toNat + n then min 0xFFFFFFFF (fieldOf s (rCore core 0x38) 0 32 + 1) else fieldOf s (rCore core 0x38) 0 32) ∧
      fieldOf t (rCore core 0x38) 32 32 = fieldOf s (rCore core 0x38) 32 32 ∧ RegsBut s t [rCore core 0x38] ∧
      OnlyChanges s t [.pips, .threads, .regs])⟩

/-- SIG_PIP that brings a pip to what one thread waits for in a header: the pip gives its 1, and that thread's command issues again past its wait
(R172, R173). -/
abbrev sigPipWakes (s : State) (th : Thr) (w : Cmd) (i : Iss) (tc : Nat) : Clause :=
  let k := pipKey i.p i.ctx i.core (cf w 4 0 6)
  let k2 := thrKey i.p i.ctx i.core tc
  ⟨Plain s th w i ∧ opIs 0x04 w = true ∧ cf w 8 0 16 = 0xFFFF ∧ coreOfPart s i.p i.core = true ∧ cf w 6 0 16 = 1 ∧ pipOf s k = 0 ∧
      pipWaiters s i.p i.ctx i.core (cf w 4 0 6) = [(tc, 1)] ∧ (threadOf s k2).wait = .header (cf w 4 0 6) ∧ tc ≠ i.tc ∧ tc < 16 ∧
      i.tc < 16 ∧ Canon s,
    exec (.sigPip th w) s = .next ((s.setThread k2 { threadOf s k2 with wait := .met, hdrDone := true }).moved i none id)⟩

/-- HALT with nothing outstanding frees a thread that no ring entry started (R175). -/
abbrev halt (s : State) (th : Thr) (w : Cmd) (i : Iss) : Clause :=
  ⟨Plain s th w i ∧ opIs 0x08 w = true ∧ (threadOf s i.key).asyncs = [] ∧ (threadOf s i.key).ref = none ∧ Canon s,
    exec (.halt th w) s = .next (s.moved i none (fun t => { t with st := .free, wait := .none, since := s.time.now }))⟩

/-- HALT of a thread that a LAUNCH entry started posts its STATUS, and the entry is outstanding no longer (R175, R326, R331). -/
abbrev haltPosts (s : State) (th : Thr) (w : Cmd) (i : Iss) (r : LaunchRef) : Clause :=
  ⟨Plain s th w i ∧ opIs 0x08 w = true ∧ (threadOf s i.key).asyncs = [] ∧ (threadOf s i.key).ref = some r ∧ r.src = 0 ∧
      r.noCqe = false ∧ (ringOf s r.ring).hold.length < 256 ∧ cqFull s r.ring (ringOf s r.ring).hold.length = false ∧ Canon s,
    Answers (.halt th w) s (fun t =>
      t.threads = (s.moved i none (fun t => { t with st := .free, wait := .none, ref := none, since := s.time.now })).threads ∧
      (ringOf t r.ring).hold = (ringOf s r.ring).hold ++ [{ tag := r.tag, src := 0, status := 0, result := cf w 4 0 32, result64 := ftNs s }] ∧
      (ringOf t r.ring).entries = (ringOf s r.ring).entries.filter (fun e => e.idx != r.idx) ∧ OnlyChanges s t [.threads, .host])⟩

/-- HALT waits for the commands that are outstanding (R175). -/
abbrev haltDrains (s : State) (th : Thr) (w : Cmd) (i : Iss) : Clause :=
  ⟨Plain s th w i ∧ opIs 0x08 w = true ∧ (threadOf s i.key).asyncs ≠ [] ∧ Canon s,
    exec (.halt th w) s = .next (waiting s i (.drain (cf w 4 0 32)))⟩

/-- PSET CMP compares two scalars and writes a predicate; p0 ignores it (R166, R175). -/
abbrev psetCmpC (s : State) (th : Thr) (w : Cmd) (i : Iss) (r : Bool) : Clause :=
  let t := threadOf s i.key
  let src : Word := if cf w 8 7 1 == 1 then BitVec.ofNat 64 (cf w 16 0 64) else gOf t (cb w 7)
  ⟨Plain s th w i ∧ opIs 0x09 w = true ∧ cb w 4 = 0 ∧ cb w 5 ≤ 7 ∧ cb w 6 ≤ 31 ∧ (cf w 8 7 1 = 0 → cb w 7 ≤ 31) ∧
      psetCmp (cf w 8 0 4) (gOf t (cb w 6)) src = some r ∧ Canon s,
    exec (.pset th w) s = .next (s.moved i none (setP (cb w 5) r))⟩

/-- PSET PLOG combines two predicates (R175). -/
abbrev psetLogC (s : State) (th : Thr) (w : Cmd) (i : Iss) (r : Bool) : Clause :=
  let t := threadOf s i.key
  ⟨Plain s th w i ∧ opIs 0x09 w = true ∧ cb w 4 = 1 ∧ cb w 5 ≤ 7 ∧ cb w 6 ≤ 7 ∧ cb w 7 ≤ 7 ∧
      psetLog (cf w 8 0 4) (pOf t (cb w 6)) (pOf t (cb w 7)) = some r ∧ Canon s,
    exec (.pset th w) s = .next (s.moved i none (setP (cb w 5) r))⟩

/-- PSET MOV, ADD, TRD and PRD write a scalar (R175). -/
abbrev psetG (s : State) (th : Thr) (w : Cmd) (i : Iss) : Clause :=
  let t := threadOf s i.key
  let imm := cf w 8 7 1 == 1
  let v : Word := BitVec.ofNat 64 (cf w 16 0 64)
  ⟨Plain s th w i ∧ opIs 0x09 w = true ∧ cb w 5 ≤ 31 ∧ Canon s ∧
      ((cb w 4 = 2 ∧ (imm = false → cb w 6 ≤ 31)) ∨ (cb w 4 = 3 ∧ cb w 6 ≤ 31 ∧ (imm = false → cb w 7 ≤ 31)) ∨ cb w 4 = 4 ∨
        (cb w 4 = 6 ∧ cb w 6 ≤ 63)),
    exec (.pset th w) s = .next (s.moved i none (setG (cb w 5)
      (if cb w 4 = 2 then (if imm then v else gOf t (cb w 6))
       else if cb w 4 = 3 then gOf t (cb w 6) + (if imm then v else gOf t (cb w 7))
       else if cb w 4 = 4 then threadReg s i (cb w 6)
       else BitVec.setWidth 64 (pipOf s (pipKey i.p i.ctx i.core (cb w 6))))))⟩

/-- PSET TWR writes a thread register: FLAGS bits written 1 clear, NUM_CTRL, NUM_SEED and PRIO take the value, any other number writes
nothing (R162, R175). -/
abbrev psetTwr (s : State) (th : Thr) (w : Cmd) (i : Iss) : Clause :=
  let v := gOf (threadOf s i.key) (cb w 6)
  ⟨Plain s th w i ∧ opIs 0x09 w = true ∧ cb w 4 = 5 ∧ cb w 6 ≤ 31 ∧ Canon s,
    exec (.pset th w) s = .next (s.moved i none (fun t =>
      if cb w 5 = 0 then { t with flags := t.flags &&& ~~~(BitVec.setWidth 6 v) }
      else if cb w 5 = 1 then { t with numCtrl := v &&& 0xFFFF0007 }
      else if cb w 5 = 2 then { t with numSeed := v }
      else if cb w 5 = 3 then { t with prio := BitVec.setWidth 4 v } else t))⟩

/-- A branch to an address that is no multiple of 32, a scalar or predicate beyond the last, or a reserved OP or COND faults its thread with
cause 2 (R171, R174, R175). -/
abbrev badControlOperand (s : State) (th : Thr) (w : Cmd) (i : Iss) (c : Instr) : Clause :=
  ⟨Plain s th w i ∧ Canon s ∧
      ((c = .br th w ∧ opIs 0x01 w = true ∧ brTarget s i (cf w 4 0 1 == 1) = none) ∨
       (c = .loop th w ∧ opIs 0x02 w = true ∧ (31 < cb w 4 ∨ brTarget s i (cf w 5 0 1 == 1) = none)) ∨
       (c = .sigPip th w ∧ opIs 0x04 w = true ∧ coreOfPart s i.p (if cf w 8 0 16 = 0xFFFF then i.core else cf w 8 0 16) = false) ∨
       (c = .pset th w ∧ opIs 0x09 w = true ∧ (6 < cb w 4 ∨ (cb w 4 ≤ 1 ∧ 7 < cb w 5)))),
    Answers c s (fun t => FaultedAs s t i 2)⟩

end Sys2Proof.Claims

open Sys2Proof.Claims in
/-- NOP, YIELD, BR and LOOP: what each does to its thread, and that it changes nothing else. -/
def Obligations.ControlFlowCommands : Prop :=
  ∀ (s : State) (th : Thr) (w : Cmd) (i : Iss) (a : Nat) (c : Instr),
    (nop s th w i).Holds ∧ (yield s th w i).Holds ∧ (br s th w i a).Holds ∧ (loop s th w i a).Holds ∧ (badControlOperand s th w i c).Holds

open Sys2Proof.Claims in
/-- WAIT_PIP and SIG_PIP. -/
def Obligations.PipCommands : Prop :=
  ∀ (s : State) (th : Thr) (w : Cmd) (i : Iss) (core n tc : Nat),
    (waitPipMet s th w i).Holds ∧ (waitPipWaits s th w i).Holds ∧ (sigPip s th w i core n).Holds ∧ (sigPipWakes s th w i tc).Holds

open Sys2Proof.Claims in
/-- PSET and HALT. -/
def Obligations.PsetAndHalt : Prop :=
  ∀ (s : State) (th : Thr) (w : Cmd) (i : Iss) (b : Bool) (r : LaunchRef),
    (psetCmpC s th w i b).Holds ∧ (psetLogC s th w i b).Holds ∧ (psetG s th w i).Holds ∧ (psetTwr s th w i).Holds ∧
      (halt s th w i).Holds ∧ (haltPosts s th w i r).Holds ∧ (haltDrains s th w i).Holds

namespace Sys2Proof.Claims

/-- No granule is poisoned or holds an error, no tier-3 port has failed, and no wipe of tier 3 goes on. -/
abbrev CleanMem (s : State) : Prop :=
  s.mem2.poison = [] ∧ s.mem2.ue = [] ∧ s.mem2.cxlFailed = [] ∧ s.mem2.t3Next = none ∧ s.mem2.t3Part = []

/-- CMD_FETCH takes up to eight commands from CP on, as far as its thread may fetch (R170). -/
abbrev cmdFetch (s : State) (th : Thr) (i : Iss) : Clause :=
  let t := threadOf s i.key
  ⟨canRun s th 0 = some i ∧ t.fetched = [] ∧ fetchFault s i.p i.core t.cp.toNat = none ∧ CleanMem s ∧
      knownOpcode (memNat s t.cp.toNat 1) = true ∧ Canon s,
    exec (.cmdFetch th) s = .next (s.setThread i.key { t with
      fetched := List.map (fun k => BitVec.ofNat 256 (memNat s (t.cp.toNat + 32 * k) 32))
        ((List.range 8).takeWhile (fun k => (fetchFault s i.p i.core (t.cp.toNat + 32 * k)).isNone)) })⟩

/-- CMD_FETCH at an address its thread may not fetch from faults the thread with the cause of R170. -/
abbrev cmdFetchFaults (s : State) (th : Thr) (i : Iss) (cause : Nat) : Clause :=
  ⟨canRun s th 0 = some i ∧ fetchFault s i.p i.core (threadOf s i.key).cp.toNat = some cause ∧ Canon s,
    Answers (.cmdFetch th) s (fun t => FaultedAs s t i cause)⟩

/-- WAIT_PIP_TIMEOUT: the timeout has passed, the command completes with its result predicate 0 and its pip as it was (R175). -/
abbrev waitPipTimeout (s : State) (th : Thr) (i : Iss) (pip c rp d : Nat) (w : Cmd) : Clause :=
  ⟨thrOf s th = some i ∧ (threadOf s i.key).st = .waiting ∧ (threadOf s i.key).wait = .pip pip c rp (some d) ∧
      (threadOf s i.key).cur = some w ∧ hSig w = false ∧ NoGrant s (.sync i.key) ∧ Canon s,
    Answers (.waitPipTimeout th) s (fun t =>
      threadOf t i.key = moveOn none (setP rp false { threadOf s i.key with wait := .met }) ∧
      (∀ k, k ≠ i.key → threadOf t k = threadOf s k) ∧ t.time.now = max s.time.now d ∧ OnlyChanges s t [.threads, .time])⟩

/-- THREAD_WAKE: a thread whose condition has come is READY again (R168). -/
abbrev threadWake (s : State) (th : Thr) (i : Iss) : Clause :=
  ⟨thrOf s th = some i ∧ (threadOf s i.key).st = .waiting ∧ (threadOf s i.key).wait = .met,
    exec (.threadWake th) s = .next (s.setThread i.key { threadOf s i.key with st := .ready, wait := .none })⟩

/-- No command but that of one slot waits for its turn at an engine. -/
abbrev NoneQueued (s : State) (key slot : Nat) : Prop :=
  ∀ e ∈ s.threads, ∀ a ∈ e.2.asyncs, e.1 = key ∧ a.1 = slot ∨ a.2.phase ≠ .queued

/-- ASYNC_COMMAND_DONE: the slot is free and the command's flags are in FLAGS (R161, R169). -/
abbrev asyncCommandDone (s : State) (th : Thr) (slot : Fin 16) (i : Iss) (a : AsyncCmd) : Clause :=
  ⟨thrOf s th = some i ∧ (threadOf s i.key).asyncs.find? (fun e => e.1 == slot.val) = some (slot.val, a) ∧ a.phase = .done ∧
      hSig a.w = false ∧ NoGrant s (.cmd i.key slot) ∧ (threadOf s i.key).wait = .none ∧ NoneQueued s i.key slot ∧ Canon s,
    exec (.asyncCommandDone th slot) s = .next (s.setThread i.key { threadOf s i.key with
      asyncs := (threadOf s i.key).asyncs.filter (fun e => e.1 != slot.val), flags := (threadOf s i.key).flags ||| a.flags })⟩

end Sys2Proof.Claims

open Sys2Proof.Claims in
/-- Command fetch and the events of a thread. -/
def Obligations.ThreadEvents : Prop :=
  ∀ (s : State) (th : Thr) (i : Iss) (slot : Fin 16) (a : AsyncCmd) (w : Cmd) (pip c rp d cause : Nat),
    (cmdFetch s th i).Holds ∧ (cmdFetchFaults s th i cause).Holds ∧ (waitPipTimeout s th i pip c rp d w).Holds ∧
      (threadWake s th i).Holds ∧ (asyncCommandDone s th slot i a).Holds

/-! ## Hardware queues and pools (R178–R188, R259–R268) -/

namespace Sys2Proof.Claims

/-- Q_STATUS of a queue (R185). -/
def qWord (d : Queue) : Nat := d.items.length % 2 ^ 17 ||| (d.reserved % 2 ^ 17) <<< 32

/-- A queue and its Q_STATUS. -/
abbrev putQ (s : State) (q : Nat) (d : Queue) : State := (s.setQueue q d).setReg (0x2A0000 + q * 0x10) (qWord d)


/-- CRED_GET on an enabled queue of its partition that has the room reserves it (R181). -/
abbrev credGet (s : State) (th : Thr) (w : Cmd) (i : Iss) : Clause :=
  let q := cQueue w
  let d := queueOf s q
  ⟨Plain s th w i ∧ opIs 0x05 w = true ∧ qEn s q = true ∧ qPart s q = i.p ∧ 1 ≤ cf w 6 0 16 ∧ cf w 6 0 16 ≤ qDepth s q - 1 ∧
      cf w 6 0 16 ≤ qFree s q ∧ Canon s,
    exec (.credGet th w) s = .next ((putQ s q { d with reserved := d.reserved + cf w 6 0 16 }).moved i none (setP (cf w 9 0 3) true))⟩

/-- Without the room, CRED_GET with NOWAIT writes 0 to its predicate; without NOWAIT it waits its turn (R181). -/
abbrev credGetNoRoom (s : State) (th : Thr) (w : Cmd) (i : Iss) : Clause :=
  let q := cQueue w
  let d := queueOf s q
  ⟨Plain s th w i ∧ opIs 0x05 w = true ∧ qEn s q = true ∧ qPart s q = i.p ∧ qFree s q < cf w 6 0 16 ∧
      cf w 6 0 16 ≤ qDepth s q - 1 ∧ Canon s,
    exec (.credGet th w) s = .next
      (if cf w 8 0 1 = 1 then s.moved i none (setP (cf w 9 0 3) false)
       else waiting (s.setQueue q { d with waiters := d.waiters ++ [(i.key, cf w 6 0 16, cf w 9 0 3)] }) i
              (.cred q (cf w 6 0 16) (cf w 9 0 3)))⟩

/-- CRED_PUT gives credits back where nobody waits for them (R181). -/
abbrev credPut (s : State) (th : Thr) (w : Cmd) (i : Iss) : Clause :=
  let q := cQueue w
  let d := queueOf s q
  ⟨Plain s th w i ∧ opIs 0x06 w = true ∧ qEn s q = true ∧ qPart s q = i.p ∧ cf w 6 0 16 ≤ d.reserved ∧ d.waiters = [] ∧ Canon s,
    exec (.credPut th w) s = .next ((putQ s q { d with reserved := d.reserved - cf w 6 0 16 }).moved i none id)⟩

/-- CRED_PUT of more than is reserved leaves 0 and counts the excess in Q_CRED_ERR, which stays at its top (R181). -/
abbrev credPutTooMany (s : State) (th : Thr) (w : Cmd) (i : Iss) : Clause :=
  let q := cQueue w
  let d := queueOf s q
  ⟨Plain s th w i ∧ opIs 0x06 w = true ∧ qEn s q = true ∧ qPart s q = i.p ∧ d.reserved < cf w 6 0 16 ∧ d.waiters = [] ∧ Canon s,
    Answers (.credPut th w) s (fun t => queueOf t q = { d with reserved := 0 } ∧
      fieldOf t (rQcnt q 0x18) 32 32 = min 0xFFFFFFFF (fieldOf s (rQcnt q 0x18) 32 32 + (cf w 6 0 16 - d.reserved)) ∧
      t.threads = (s.moved i none id).threads ∧ RegsBut s t [rQcnt q 0x18, 0x2A0000 + q * 0x10] ∧
      OnlyChanges s t [.queues, .regs, .threads])⟩

/-- CRED_PUT that makes room for the one thread that waits: the credits are that thread's, and its CRED_GET completes (R181). -/
abbrev credPutServes (s : State) (th : Thr) (w : Cmd) (i : Iss) (k n rp : Nat) (w2 : Cmd) : Clause :=
  let q := cQueue w
  let d := queueOf s q
  ⟨Plain s th w i ∧ opIs 0x06 w = true ∧ qEn s q = true ∧ qPart s q = i.p ∧ cf w 6 0 16 ≤ d.reserved ∧ d.waiters = [(k, n, rp)] ∧
      n ≤ qDepth s q - 1 - d.items.length - (d.reserved - cf w 6 0 16) ∧ k ≠ i.key ∧ (threadOf s k).cur = some w2 ∧ hSig w2 = false ∧
      NoGrant s (.sync k) ∧ Canon s,
    Answers (.credPut th w) s (fun t => queueOf t q = { d with reserved := d.reserved - cf w 6 0 16 + n, waiters := [] } ∧
      threadOf t k = moveOn none (setP rp true { threadOf s k with wait := .met }) ∧ threadOf t i.key = moveOn none (threadOf s i.key) ∧
      (∀ k', k' ≠ k → k' ≠ i.key → threadOf t k' = threadOf s k') ∧ RegsBut s t [0x2A0000 + q * 0x10] ∧ OnlyChanges s t [.queues, .regs, .threads])⟩

/-- Where a Q_PUSH takes its item from: eight scalars, or 64 bytes of the partition's memory (R187). -/
abbrev PushFrom (s : State) (i : Iss) : Prop :=
  (cf i.w 6 2 1 = 1 ∧ cb i.w 7 % 8 = 0 ∧ cb i.w 7 ≤ 24) ∨
    (cf i.w 6 2 1 = 0 ∧ belongs s i.p (cAddr i.w 8) 64 = true ∧ t3Busy s (cAddr i.w 8) = false)

/-- The item as it stands in the queue, with bit 511 set (R179). -/
def pushItem (s : State) (i : Iss) : Item :=
  (if cf i.w 6 2 1 = 1 then regItem (threadOf s i.key) (cb i.w 7) else memItem s (cAddr i.w 8)) ||| ((1 : Item) <<< 511)

/-- The thread of a queue command after it; one that names memory of tier 2 or 3 gives its issue slot away (R168). -/
def queueThread (slow : Bool) (f : Thread → Thread) (t : Thread) : Thread :=
  if slow then { f t with st := .waiting, wait := .met } else f t

/-- The push goes to its queue now: the queue is one that a thread pushes to, and no submit item of the thread is on its way (R86, R187). -/
abbrev Pushes (s : State) (th : Thr) (w : Cmd) (i : Iss) : Prop :=
  Plain s th w i ∧ opIs 0x18 w = true ∧ mayPush s i.p (cQueue w) = true ∧ PushFrom s i ∧
    (∀ e ∈ (queueOf s (cQueue w)).submits, e.1 ≠ i.key) ∧ s.fab.dir = [] ∧ CleanMem s ∧ Canon s

/-- A push with LAST to a queue with ARR_EN signals its arrival pip, that no thread waits on, in BOUND_CTX (R182, R295). -/
abbrev ArrivesTo (s : State) (w : Cmd) (q ctx : Nat) : Prop :=
  ctx = fieldOf s (rPart (qPart s q) 0x28) 0 4 ∧
    (cf w 6 0 1 = 1 → qArrEn s q = true → coreOfPart s (qPart s q) (qArrCore s q) = true ∧
      pipWaiters s (qPart s q) ctx (qArrCore s q) (qArrPip s q) = [] ∧
      (pipOf s (pipKey (qPart s q) ctx (qArrCore s q) (qArrPip s q))).toNat < 0xFFFF)

/-- The arrival pip has its signal, and no other pip has changed. -/
abbrev Arrived (s t : State) (w : Cmd) (q ctx : Nat) : Prop :=
  ∀ k, pipOf t k = pipOf s k +
    (if cf w 6 0 1 = 1 ∧ qArrEn s q = true ∧ k = pipKey (qPart s q) ctx (qArrCore s q) (qArrPip s q) then 1 else 0)

/-- A push that names USE_CRED takes a credit where one is reserved; where none is, Q_CRED_ERR counts it (R181). -/
abbrev CreditUsed (s t : State) (w : Cmd) (q : Nat) : Prop :=
  fieldOf t (rQcnt q 0x18) 32 32 = (if cf w 6 1 1 = 1 ∧ (queueOf s q).reserved = 0 then min 0xFFFFFFFF (fieldOf s (rQcnt q 0x18) 32 32 + 1)
    else fieldOf s (rQcnt q 0x18) 32 32) ∧ fieldOf t (rQcnt q 0x18) 0 32 = fieldOf s (rQcnt q 0x18) 0 32

/-- Q_PUSH with a credit, or into a queue with room: the item joins the tail and stands in its slot, its arrival is signalled, and the predicate is
1 (R179, R181, R182, R187). -/
abbrev qPush (s : State) (th : Thr) (w : Cmd) (i : Iss) (ctx : Nat) : Clause :=
  let q := cQueue w
  let d := queueOf s q
  let x := pushItem s i
  let a := qBase s q + 64 * ((d.head + d.items.length) % qDepth s q)
  let cred := decide (cf w 6 1 1 = 1 ∧ 0 < d.reserved)
  ⟨Pushes s th w i ∧ d.dropping = false ∧ (cred = true ∨ 1 ≤ qFree s q) ∧ ArrivesTo s w q ctx,
    Answers (.qPush th w) s (fun t =>
      queueOf t q = { d with items := d.items ++ [{ data := x, last := cf w 6 0 1 == 1, gap := false, at_ := s.time.now }],
                             since := if d.items.isEmpty then s.time.now else d.since, reserved := d.reserved - cred.toNat } ∧
      memItem t a = x ∧ MemBut s t a 64 ∧ regOf t (rQcnt q 0) = regOf s (rQcnt q 0) + 1 ∧ CreditUsed s t w q ∧ Arrived s t w q ctx ∧
      t.threads = (s.moved i none (queueThread (cf w 6 2 1 == 0 && slowTier (cAddr w 8)) (setP (cf w 16 0 3) true))).threads ∧
      RegsBut s t [rQcnt q 0, rQcnt q 0x18, 0x2A0000 + q * 0x10] ∧ OnlyChanges s t [.queues, .mem, .regs, .threads, .pips])⟩

/-- Q_PUSH into a queue that goes on discarding: the item is counted in Q_PKT_DISCARD, one with LAST ends the discarding, and the predicate is 1
(R183). -/
abbrev qPushDropping (s : State) (th : Thr) (w : Cmd) (i : Iss) : Clause :=
  let q := cQueue w
  let d := queueOf s q
  let cred := decide (cf w 6 1 1 = 1 ∧ 0 < d.reserved)
  ⟨Pushes s th w i ∧ d.dropping = true,
    Answers (.qPush th w) s (fun t =>
      queueOf t q = { d with reserved := d.reserved - cred.toNat, dropping := cf w 6 0 1 != 1 } ∧ CreditUsed s t w q ∧
      fieldOf t (rQcnt q 0x10) 32 32 = min 0xFFFFFFFF (fieldOf s (rQcnt q 0x10) 32 32 + 1) ∧
      fieldOf t (rQcnt q 0x10) 0 32 = fieldOf s (rQcnt q 0x10) 0 32 ∧
      t.threads = (s.moved i none (queueThread (cf w 6 2 1 == 0 && slowTier (cAddr w 8)) (setP (cf w 16 0 3) true))).threads ∧
      RegsBut s t [rQcnt q 0x10, rQcnt q 0x18, 0x2A0000 + q * 0x10] ∧ OnlyChanges s t [.queues, .regs, .threads])⟩

/-- Q_PUSH into a queue without room and without a credit: a gap marker of one item takes the last slot, Q_GAP is reported, the drop is
counted, and the predicate is 0 (R179, R187). -/
abbrev qPushNoRoom (s : State) (th : Thr) (w : Cmd) (i : Iss) (ctx : Nat) : Clause :=
  let q := cQueue w
  let d := queueOf s q
  let n := d.items.length
  ⟨Pushes s th w i ∧ d.dropping = false ∧ (cf w 6 1 1 = 0 ∨ d.reserved = 0) ∧ qFree s q = 0 ∧ n + d.reserved < qDepth s q ∧
      (∀ e ∈ d.items, e.gap = false) ∧ ArrivesTo s w q ctx,
    Answers (.qPush th w) s (fun t =>
      queueOf t q = { d with items := d.items ++ [{ data := gapItem 1 (ftNs s) (ftNs s), last := cf w 6 0 1 == 1, gap := true, at_ := s.time.now }],
                             since := if d.items.isEmpty then s.time.now else d.since } ∧
      fieldOf t (rQcnt q 0x10) 0 32 = min 0xFFFFFFFF (fieldOf s (rQcnt q 0x10) 0 32 + 1) ∧
      fieldOf t (rQcnt q 0x10) 32 32 = fieldOf s (rQcnt q 0x10) 32 32 ∧ CreditUsed s t w q ∧ Arrived s t w q ctx ∧
      Reported s t 0x200B 0 (i.core / 64) q (some (qPart s q)) 0 0 ∧
      t.threads = (s.moved i none (queueThread (cf w 6 2 1 == 0 && slowTier (cAddr w 8)) (setP (cf w 16 0 3) false))).threads ∧
      MemBut s t (qBase s q + 64 * ((d.head + n) % qDepth s q)) 64 ∧
      RegsBut s t ([rQcnt q 0x10, rQcnt q 0x18, 0x2A0000 + q * 0x10] ++ errSrc (i.core / 64)) ∧
      OnlyChanges s t [.queues, .mem, .regs, .threads, .err, .pips])⟩

/-- A further drop joins the gap marker at the tail, or, where no slot is left for another, the last one there is: its count and its last time
follow, and so does LAST (R179). -/
abbrev qPushJoins (s : State) (th : Thr) (w : Cmd) (i : Iss) (l r : List QItem) (m : QItem) (ctx : Nat) : Clause :=
  let q := cQueue w
  let d := queueOf s q
  ⟨Pushes s th w i ∧ d.dropping = false ∧ (cf w 6 1 1 = 0 ∨ d.reserved = 0) ∧ qFree s q = 0 ∧ d.items = l ++ m :: r ∧ m.gap = true ∧
      (∀ e ∈ r, e.gap = false) ∧ (r = [] ∨ qDepth s q ≤ d.items.length + d.reserved) ∧ ArrivesTo s w q ctx,
    Answers (.qPush th w) s (fun t =>
      queueOf t q = { d with items := l ++ QItem.mk (gapItem (ibits m.data 0 32 + 1) (ibits m.data 64 64) (ftNs s)) (m.last || cf w 6 0 1 == 1) true false
                                         (if m.last then m.at_ else s.time.now) :: r } ∧
      fieldOf t (rQcnt q 0x10) 0 32 = min 0xFFFFFFFF (fieldOf s (rQcnt q 0x10) 0 32 + 1) ∧
      t.threads = (s.moved i none (queueThread (cf w 6 2 1 == 0 && slowTier (cAddr w 8)) (setP (cf w 16 0 3) false))).threads ∧
      MemBut s t (qBase s q + 64 * ((d.head + l.length) % qDepth s q)) 64 ∧ CreditUsed s t w q ∧
      (∀ k, pipOf t k = pipOf s k + (if cf w 6 0 1 = 1 ∧ m.last = false ∧ qArrEn s q = true ∧
        k = pipKey (qPart s q) ctx (qArrCore s q) (qArrPip s q) then 1 else 0)) ∧
      RegsBut s t [rQcnt q 0x10, rQcnt q 0x18, 0x2A0000 + q * 0x10] ∧ OnlyChanges s t [.queues, .mem, .regs, .threads, .pips])⟩

/-- In a queue with no slot left, and no gap marker, a drop is only counted (R179). -/
abbrev qPushLost (s : State) (th : Thr) (w : Cmd) (i : Iss) : Clause :=
  let q := cQueue w
  let d := queueOf s q
  ⟨Pushes s th w i ∧ d.dropping = false ∧ (cf w 6 1 1 = 0 ∨ d.reserved = 0) ∧ qDepth s q ≤ d.items.length + d.reserved ∧
      (∀ e ∈ d.items, e.gap = false),
    Answers (.qPush th w) s (fun t => queueOf t q = d ∧ CreditUsed s t w q ∧
      fieldOf t (rQcnt q 0x10) 0 32 = min 0xFFFFFFFF (fieldOf s (rQcnt q 0x10) 0 32 + 1) ∧
      t.threads = (s.moved i none (queueThread (cf w 6 2 1 == 0 && slowTier (cAddr w 8)) (setP (cf w 16 0 3) false))).threads ∧
      RegsBut s t [rQcnt q 0x10, rQcnt q 0x18, 0x2A0000 + q * 0x10] ∧ OnlyChanges s t [.queues, .regs, .threads])⟩

/-- Q_PUSH by a thread whose submit item is on its way to the queue waits, to keep their order (R86). -/
abbrev qPushBehind (s : State) (th : Thr) (w : Cmd) (i : Iss) : Clause :=
  ⟨Plain s th w i ∧ opIs 0x18 w = true ∧ mayPush s i.p (cQueue w) = true ∧ PushFrom s i ∧
      (∃ e ∈ (queueOf s (cQueue w)).submits, e.1 = i.key),
    exec (.qPush th w) s = .next (waiting s i (.submitItem (cQueue w)))⟩

/-- Slots that no item takes and no credit reserves, after a queue holds `n` items (R181). -/
abbrev freeAt (s : State) (q n : Nat) : Nat := qDepth s q - 1 - n - (queueOf s q).reserved

/-- The credit waiters that freed slots are offered to: nobody is served, as nobody's count fits (R181). -/
abbrev NoneServed (s : State) (q n : Nat) : Prop := ∀ e ∈ (queueOf s q).waiters, freeAt s q n < e.2.1

/-- The waiter ahead of all others, by PRIO and then the order of arrival, is served, and nobody after it (R181, R189). -/
abbrev OneServed (s : State) (q n : Nat) (i : Iss) (e : Nat × Nat × Nat) (l r : List (Nat × Nat × Nat)) (w2 : Cmd) : Prop :=
  (queueOf s q).waiters = l ++ e :: r ∧ (∀ x ∈ l, x ≠ e ∧ (threadOf s x.1).prio < (threadOf s e.1).prio) ∧
    (∀ x ∈ r, (threadOf s x.1).prio ≤ (threadOf s e.1).prio) ∧ e.2.1 ≤ freeAt s q n ∧
    (∀ x ∈ l ++ r, freeAt s q n - e.2.1 < x.2.1) ∧ e.1 ≠ i.key ∧ (threadOf s e.1).cur = some w2 ∧ hSig w2 = false ∧ NoGrant s (.sync e.1)

/-- Its CRED_GET has completed, and no other thread but the one that issues has changed. -/
abbrev Served1 (s t : State) (i : Iss) (e : Nat × Nat × Nat) : Prop :=
  threadOf t e.1 = moveOn none (setP e.2.2 true { threadOf s e.1 with wait := .met }) ∧
    (∀ k, k ≠ e.1 → k ≠ i.key → threadOf t k = threadOf s k)

/-- Where a Q_POP puts its item: eight scalars, or 64 bytes of the partition's memory (R187). -/
abbrev PopTo (s : State) (i : Iss) : Prop :=
  (cf i.w 6 0 1 = 1 ∧ cb i.w 7 % 8 = 0 ∧ cb i.w 7 ≤ 24) ∨
    (cf i.w 6 0 1 = 0 ∧ belongs s i.p (cAddr i.w 8) 64 = true ∧ t3Busy s (cAddr i.w 8) = false)

/-- The thread of a Q_POP that took the item `x` with status `st`. -/
def popThread (w : Cmd) (x : Item) (st : Nat) : Thread → Thread :=
  queueThread (cf w 6 0 1 == 0 && slowTier (cAddr w 8)) (fun t =>
    setG (cb w 16) (BitVec.ofNat 64 st) (if cf w 6 0 1 = 1 then putItem (cb w 7) x t else t))

/-- Memory holds the item where the command names memory, and is as before elsewhere. -/
abbrev PopMem (s t : State) (w : Cmd) (x : Item) : Prop :=
  if cf w 6 0 1 = 1 then (∀ a, memAt t a = memAt s a) else memItem t (cAddr w 8) = x ∧ MemBut s t (cAddr w 8) 64

/-- The status of a pop (R180). -/
def popStatus (x : QItem) : Nat := 1 ||| (if x.last then 2 else 0) ||| (if x.gap then 4 ||| (ibits x.data 0 32) <<< 32 else 0)

/-- A Q_POP of a queue that its thread may pop from. -/
abbrev Pops (s : State) (th : Thr) (w : Cmd) (i : Iss) : Prop :=
  Plain s th w i ∧ opIs 0x19 w = true ∧ mayPop s i.p (cQueue w) = true ∧ PopTo s i ∧ cb w 16 ≤ 31 ∧ s.fab.dir = [] ∧ CleanMem s ∧ Canon s

/-- Q_POP takes the item at the head; the status register says what it is (R180, R187). -/
abbrev qPop (s : State) (th : Thr) (w : Cmd) (i : Iss) (x : QItem) (rest : List QItem) : Clause :=
  let q := cQueue w
  let d := queueOf s q
  ⟨Pops s th w i ∧ d.items = x :: rest ∧ NoneServed s q rest.length,
    Answers (.qPop th w) s (fun t =>
      queueOf t q = { d with items := rest, head := (d.head + 1) % qDepth s q, since := s.time.now, staleFired := false } ∧
      t.threads = (s.moved i none (popThread w x.data (popStatus x))).threads ∧ PopMem s t w x.data ∧
      regOf t (rQcnt q 8) = regOf s (rQcnt q 8) + 1 ∧ RegsBut s t [rQcnt q 8, 0x2A0000 + q * 0x10] ∧
      OnlyChanges s t [.queues, .regs, .threads, .mem])⟩

/-- The slot that it frees goes to the thread that waits for credits ahead of the others (R181). -/
abbrev qPopServes (s : State) (th : Thr) (w w2 : Cmd) (i : Iss) (x : QItem) (rest : List QItem) (e : Nat × Nat × Nat)
    (l r : List (Nat × Nat × Nat)) : Clause :=
  let q := cQueue w
  let d := queueOf s q
  ⟨Pops s th w i ∧ d.items = x :: rest ∧ OneServed s q rest.length i e l r w2,
    Answers (.qPop th w) s (fun t =>
      queueOf t q = { d with items := rest, head := (d.head + 1) % qDepth s q, since := s.time.now, staleFired := false
                             waiters := l ++ r, reserved := d.reserved + e.2.1 } ∧
      Served1 s t i e ∧ threadOf t i.key = moveOn none (popThread w x.data (popStatus x) (threadOf s i.key)) ∧ PopMem s t w x.data ∧
      regOf t (rQcnt q 8) = regOf s (rQcnt q 8) + 1 ∧ RegsBut s t [rQcnt q 8, 0x2A0000 + q * 0x10] ∧
      OnlyChanges s t [.queues, .regs, .threads, .mem])⟩

/-- A pop that finds its queue empty returns an item of zeros and writes status 0 (R180). -/
abbrev qPopEmpty (s : State) (th : Thr) (w : Cmd) (i : Iss) : Clause :=
  ⟨Pops s th w i ∧ (queueOf s (cQueue w)).items = [],
    Answers (.qPop th w) s (fun t => t.threads = (s.moved i none (popThread w 0 0)).threads ∧ PopMem s t w 0 ∧ OnlyChanges s t [.threads, .mem])⟩

/-- A Q_PUSH or Q_POP of tier-3 memory that a wipe has not reached waits (R258, R301). -/
abbrev queueMemBusy (s : State) (th : Thr) (w : Cmd) (i : Iss) (c : Instr) : Clause :=
  let a := cAddr w 8
  ⟨Plain s th w i ∧ belongs s i.p a 64 = true ∧ t3Busy s a = true ∧
      ((c = .qPush th w ∧ opIs 0x18 w = true ∧ mayPush s i.p (cQueue w) = true ∧ cf w 6 2 1 = 0) ∨
       (c = .qPop th w ∧ opIs 0x19 w = true ∧ mayPop s i.p (cQueue w) = true ∧ cf w 6 0 1 = 0 ∧ cb w 16 ≤ 31)),
    exec c s = .next (waiting s i (.t3 (t3Gib a)))⟩

/-- What Q_DROPPKT leaves in a queue: what follows its next item with LAST (R183). -/
def keptItems (d : Queue) : List QItem := (d.items.dropWhile (fun x => !x.last)).drop 1

/-- Q_DROPPKT has discarded: the items counted, and the queue goes on discarding where it found no LAST (R183). -/
abbrev Discarded (s t : State) (q : Nat) : Prop :=
  let d := queueOf s q
  (queueOf t q).items = keptItems d ∧ (queueOf t q).dropping = (d.dropping || d.items.all (fun x => !x.last)) ∧
    fieldOf t (rQcnt q 0x10) 32 32 = (if d.items = [] then fieldOf s (rQcnt q 0x10) 32 32
      else min 0xFFFFFFFF (fieldOf s (rQcnt q 0x10) 32 32 + (d.items.length - (keptItems d).length))) ∧
    fieldOf t (rQcnt q 0x10) 0 32 = fieldOf s (rQcnt q 0x10) 0 32 ∧ (∀ q', q' ≠ q → queueOf t q' = queueOf s q')

/-- Q_DROPPKT discards up to and including the next item with LAST; without one it empties the queue and goes on discarding what arrives
(R183). -/
abbrev qDroppkt (s : State) (th : Thr) (w : Cmd) (i : Iss) : Clause :=
  let q := cQueue w
  ⟨Plain s th w i ∧ opIs 0x1A w = true ∧ mayPop s i.p q = true ∧ qDepth s q ≤ 256 ∧ NoneServed s q (keptItems (queueOf s q)).length ∧ Canon s,
    Answers (.qDroppkt th w) s (fun t => Discarded s t q ∧ (queueOf t q).reserved = (queueOf s q).reserved ∧
      (queueOf t q).waiters = (queueOf s q).waiters ∧ t.threads = (s.moved i none id).threads ∧
      RegsBut s t [rQcnt q 0x10, 0x2A0000 + q * 0x10] ∧ OnlyChanges s t [.queues, .regs, .threads])⟩

/-- The slots that it frees go to the thread that waits for credits ahead of the others (R181). -/
abbrev qDroppktServes (s : State) (th : Thr) (w w2 : Cmd) (i : Iss) (e : Nat × Nat × Nat) (l r : List (Nat × Nat × Nat)) : Clause :=
  let q := cQueue w
  ⟨Plain s th w i ∧ opIs 0x1A w = true ∧ mayPop s i.p q = true ∧ qDepth s q ≤ 256 ∧
      OneServed s q (keptItems (queueOf s q)).length i e l r w2 ∧ Canon s,
    Answers (.qDroppkt th w) s (fun t => Discarded s t q ∧ (queueOf t q).reserved = (queueOf s q).reserved + e.2.1 ∧
      (queueOf t q).waiters = l ++ r ∧ Served1 s t i e ∧ threadOf t i.key = moveOn none (threadOf s i.key) ∧
      RegsBut s t [rQcnt q 0x10, 0x2A0000 + q * 0x10] ∧ OnlyChanges s t [.queues, .regs, .threads])⟩

/-- A Q_FLUSH of a queue deeper than 256 that its thread feeds or empties. -/
abbrev Flushes (s : State) (th : Thr) (w : Cmd) (i : Iss) : Prop :=
  let q := cQueue w
  Plain s th w i ∧ opIs 0x1B w = true ∧ qEn s q = true ∧ qPart s q = i.p ∧ (qProd s q = 0 ∨ qCons s q = 0) ∧ 256 < qDepth s q ∧ cb w 6 ≤ 31 ∧
    Canon s

/-- The word Q_FLUSH gives: the number of items and of items with LAST (R183). -/
def flushWord (d : Queue) : Word := BitVec.ofNat 64 (d.items.length % 2 ^ 32 ||| ((d.items.filter (·.last)).length % 2 ^ 32) <<< 32)

/-- Q_FLUSH empties its queue, counts the items and gives their numbers (R183). -/
abbrev qFlush (s : State) (th : Thr) (w : Cmd) (i : Iss) : Clause :=
  let q := cQueue w
  let d := queueOf s q
  ⟨Flushes s th w i ∧ NoneServed s q 0,
    Answers (.qFlush th w) s (fun t => queueOf t q = { d with items := [], staleFired := false } ∧
      fieldOf t (rQcnt q 0x18) 0 32 = min 0xFFFFFFFF (fieldOf s (rQcnt q 0x18) 0 32 + d.items.length) ∧
      t.threads = (s.moved i none (setG (cb w 6) (flushWord d))).threads ∧
      RegsBut s t [rQcnt q 0x18, 0x2A0000 + q * 0x10] ∧ OnlyChanges s t [.queues, .regs, .threads])⟩

/-- The slots that it frees go to the thread that waits for credits ahead of the others (R181). -/
abbrev qFlushServes (s : State) (th : Thr) (w w2 : Cmd) (i : Iss) (e : Nat × Nat × Nat) (l r : List (Nat × Nat × Nat)) : Clause :=
  let q := cQueue w
  let d := queueOf s q
  ⟨Flushes s th w i ∧ OneServed s q 0 i e l r w2,
    Answers (.qFlush th w) s (fun t =>
      queueOf t q = { d with items := [], staleFired := false, waiters := l ++ r, reserved := d.reserved + e.2.1 } ∧
      fieldOf t (rQcnt q 0x18) 0 32 = min 0xFFFFFFFF (fieldOf s (rQcnt q 0x18) 0 32 + d.items.length) ∧ Served1 s t i e ∧
      threadOf t i.key = moveOn none (setG (cb w 6) (flushWord d) (threadOf s i.key)) ∧
      RegsBut s t [rQcnt q 0x18, 0x2A0000 + q * 0x10] ∧ OnlyChanges s t [.queues, .regs, .threads])⟩

/-- A queue that its thread may not use so, a scalar register that there is not, or a depth the command does not take: cause 2. Memory that is not
the partition's: cause 4 (R171, R183, R187). -/
abbrev badQueueOperand (s : State) (th : Thr) (w : Cmd) (i : Iss) (c : Instr) (cause : Nat) : Clause :=
  let q := cQueue w
  let Regs := cb w 7 % 8 = 0 ∧ cb w 7 ≤ 24
  let out := belongs s i.p (cAddr w 8) 64 = false
  ⟨Plain s th w i ∧ Canon s ∧
      ((cause = 2 ∧ c = .qPush th w ∧ opIs 0x18 w = true ∧ (mayPush s i.p q = false ∨ (cf w 6 2 1 = 1 ∧ ¬Regs))) ∨
       (cause = 2 ∧ c = .qPop th w ∧ opIs 0x19 w = true ∧ (mayPop s i.p q = false ∨ (cf w 6 0 1 = 1 ∧ ¬Regs) ∨ 31 < cb w 16)) ∨
       (cause = 2 ∧ c = .qDroppkt th w ∧ opIs 0x1A w = true ∧ (mayPop s i.p q = false ∨ 256 < qDepth s q)) ∨
       (cause = 2 ∧ c = .qFlush th w ∧ opIs 0x1B w = true ∧ (qEn s q = false ∨ qPart s q ≠ i.p ∨ (qProd s q ≠ 0 ∧ qCons s q ≠ 0) ∨
         qDepth s q ≤ 256 ∨ 31 < cb w 6)) ∨
       (cause = 4 ∧ c = .qPush th w ∧ opIs 0x18 w = true ∧ mayPush s i.p q = true ∧ cf w 6 2 1 = 0 ∧ out) ∨
       (cause = 4 ∧ c = .qPop th w ∧ opIs 0x19 w = true ∧ mayPop s i.p q = true ∧ cf w 6 0 1 = 0 ∧ cb w 16 ≤ 31 ∧ out)),
    Answers c s (fun t => FaultedAs s t i cause)⟩

/-- Q_STALE_TIMEOUT of a queue that has stood non-empty without a pop signals its notify pip once, in BOUND_CTX (R184, R295). -/
abbrev qStaleTimeout (s : State) (q : Fin 4096) : Clause :=
  let d := queueOf s q
  let k := pipKey (qPart s q) (fieldOf s (rPart (qPart s q) 0x28) 0 4) (qNtfCore s q) (qNtfPip s q)
  ⟨qEn s q = true ∧ qStaleNs s q ≠ 0 ∧ d.items ≠ [] ∧ d.staleFired = false ∧ coreOfPart s (qPart s q) (qNtfCore s q) = true ∧
      pipWaiters s (qPart s q) (fieldOf s (rPart (qPart s q) 0x28) 0 4) (qNtfCore s q) (qNtfPip s q) = [] ∧
      (pipOf s k).toNat < 0xFFFF ∧ Canon s,
    Answers (.qStaleTimeout q) s (fun t => t.time.now = max s.time.now (d.since + qStaleNs s q) ∧
      queueOf t q = { d with staleFired := true } ∧ pipOf t k = pipOf s k + 1 ∧ (∀ k', k' ≠ k → pipOf t k' = pipOf s k') ∧
      OnlyChanges s t [.time, .queues, .pips])⟩

/-- HQ_DESC_WRITE of words 1 to 3 of a disabled queue stores the writable bits (R178, R404). -/
abbrev hqDescWrite (s : State) (q : Fin 4096) (word : Fin 4) (w : Wr) : Clause :=
  ⟨ByOwner s w.path ∧ qEn s q = false ∧ word.val ≠ 0,
    exec (.hqDescWrite q word w) s = .next (s.setReg (rQueue q word) (plainWrite (rQueue q word) (regOf s (rQueue q word)).toNat w))⟩

/-- HQ_DESC_WRITE of word 0 with EN = 1 on a disabled queue whose descriptor passes the check enables it empty; a descriptor that does not
pass leaves EN 0 and reports Q_CFG_INVALID (R178). -/
abbrev hqEnable (s : State) (q : Fin 4096) (w : Wr) : Clause :=
  let s1 := s.setReg (rQueue q 0) (plainWrite (rQueue q 0) (regOf s (rQueue q 0)).toNat w)
  ⟨ByOwner s w.path ∧ qEn s q = false ∧ qEn s1 q = true ∧ qCheck s1 q = true ∧ Canon s,
    exec (.hqDescWrite q 0 w) s = .next (putQ s1 q {})⟩

/-- A descriptor that does not pass the check leaves EN at 0, and Q_CFG_INVALID is reported (R178). -/
abbrev hqEnableRefused (s : State) (q : Fin 4096) (w : Wr) : Clause :=
  let s1 := s.setReg (rQueue q 0) (plainWrite (rQueue q 0) (regOf s (rQueue q 0)).toNat w)
  ⟨ByOwner s w.path ∧ qEn s q = false ∧ qEn s1 q = true ∧ qCheck s1 q = false ∧ Canon s,
    Answers (.hqDescWrite q 0 w) s (fun t => qEn t q = false ∧ queueOf t q = queueOf s q ∧
      Reported s t 0x200C 0 96 q (some (qPart s q)) 0 0 ∧ RegsBut s t ([rQueue q 0] ++ errSrc 96) ∧ OnlyChanges s t [.regs, .err])⟩

/-- While a queue is enabled, a write of its descriptor that changes a field other than EN is discarded (R178). -/
abbrev hqHeld (s : State) (q : Fin 4096) (word : Fin 4) (w : Wr) : Clause :=
  let old := (regOf s (rQueue q word)).toNat
  let new := plainWrite (rQueue q word) old w
  ⟨ByOwner s w.path ∧ qEn s q = true ∧ (word.val ≠ 0 ∨ setBits new 61 1 0 ≠ setBits old 61 1 0),
    exec (.hqDescWrite q word w) s = .next s⟩

end Sys2Proof.Claims

open Sys2Proof.Claims in
/-- CRED_GET and CRED_PUT: the credits of a queue, and who waits for them. -/
def Obligations.CreditCommands : Prop :=
  ∀ (s : State) (th : Thr) (w w2 : Cmd) (i : Iss) (k n rp : Nat),
    (credGet s th w i).Holds ∧ (credGetNoRoom s th w i).Holds ∧ (credPut s th w i).Holds ∧ (credPutTooMany s th w i).Holds ∧
      (credPutServes s th w i k n rp w2).Holds

open Sys2Proof.Claims in
/-- Q_PUSH, Q_POP, Q_DROPPKT and Q_FLUSH: the items of the queue, the slot written, the counters, the registers, memory, who waits for the
room, when they fault, and what stays. -/
def Obligations.QueueCommands : Prop :=
  ∀ (s : State) (th : Thr) (w w2 : Cmd) (i : Iss) (x : QItem) (rest rest2 : List QItem) (e : Nat × Nat × Nat)
    (l r : List (Nat × Nat × Nat)) (c : Instr) (ctx cause : Nat),
    (qPush s th w i ctx).Holds ∧ (qPushDropping s th w i).Holds ∧ (qPushNoRoom s th w i ctx).Holds ∧ (qPushJoins s th w i rest rest2 x ctx).Holds ∧
      (qPushLost s th w i).Holds ∧ (qPushBehind s th w i).Holds ∧ (qPop s th w i x rest).Holds ∧ (qPopServes s th w w2 i x rest e l r).Holds ∧ (qPopEmpty s th w i).Holds ∧
      (queueMemBusy s th w i c).Holds ∧ (qDroppkt s th w i).Holds ∧ (qDroppktServes s th w w2 i e l r).Holds ∧ (qFlush s th w i).Holds ∧
      (qFlushServes s th w w2 i e l r).Holds ∧ (badQueueOperand s th w i c cause).Holds

open Sys2Proof.Claims in
/-- The descriptor of a queue. -/
def Obligations.QueueDescriptors : Prop :=
  ∀ (s : State) (q : Fin 4096) (word : Fin 4) (w : Wr),
    (hqDescWrite s q word w).Holds ∧ (hqEnable s q w).Holds ∧ (hqEnableRefused s q w).Holds ∧
      (hqHeld s q word w).Holds

namespace Sys2Proof.Claims

/-- The thread of a pool command after it: two registers written, and its issue slot given away (R168, R188). -/
def poolThread (g gs : Nat) (v st : Nat) (t : Thread) : Thread :=
  { setG gs (BitVec.ofNat 64 st) (setG g (BitVec.ofNat 64 v) t) with st := .waiting, wait := .met }

/-- POOL_ALLOC from a class whose untouched region has a buffer and whose stack and free list are empty: the next buffer of the region, its header
zeroed (R261–R263, R188). -/
abbrev poolAllocFresh (s : State) (th : Thr) (w : Cmd) (i : Iss) (c : Nat) : Clause :=
  let d := poolOf s (poolKey i.p c)
  let a := d.base + poolWater s i.p c * classSize c
  ⟨Plain s th w i ∧ opIs 0x16 w = true ∧ cf w 8 0 64 ≠ 0 ∧ cb w 4 ≤ 31 ∧ cb w 5 ≤ 31 ∧ classFor (cf w 8 0 64) = some c ∧ i.p < 64 ∧
      d.stack = [] ∧ d.freeLen = 0 ∧ poolWater s i.p c < d.count ∧ d.count < 2 ^ 32 ∧ s.fab.dir = [] ∧ CleanMem s ∧ Canon s,
    Answers (.poolAlloc th w) s (fun t => t.threads = (s.moved i none (poolThread (cb w 4) (cb w 5) a 0)).threads ∧
      (∀ k, k < 16 → memAt t (a + k) = 0) ∧ MemBut s t a 16 ∧ poolWater t i.p c = poolWater s i.p c + 1 ∧
      poolOut t i.p c = (poolOut s i.p c + 1) % 2 ^ 32 ∧ regOf t (rPoolCnt i.p c 0) = regOf s (rPoolCnt i.p c 0) + 1 ∧
      RegsBut s t [rPool i.p c 0x10, rPool i.p c 0x18, rPoolCnt i.p c 0] ∧ OnlyChanges s t [.threads, .mem, .regs])⟩

/-- POOL_ALLOC from a class whose prefetch stack holds buffers: the one on top (R261). -/
abbrev poolAllocStack (s : State) (th : Thr) (w : Cmd) (i : Iss) (c a : Nat) (rest : List Nat) : Clause :=
  let d := poolOf s (poolKey i.p c)
  ⟨Plain s th w i ∧ opIs 0x16 w = true ∧ cf w 8 0 64 ≠ 0 ∧ cb w 4 ≤ 31 ∧ cb w 5 ≤ 31 ∧ classFor (cf w 8 0 64) = some c ∧ i.p < 64 ∧
      d.stack = a :: rest ∧ s.fab.dir = [] ∧ CleanMem s ∧ Canon s,
    Answers (.poolAlloc th w) s (fun t => t.threads = (s.moved i none (poolThread (cb w 4) (cb w 5) a 0)).threads ∧
      poolOf t (poolKey i.p c) = { d with stack := rest } ∧ MemBut s t a 16 ∧ poolOut t i.p c = (poolOut s i.p c + 1) % 2 ^ 32 ∧
      regOf t (rPoolCnt i.p c 0) = regOf s (rPoolCnt i.p c 0) + 1 ∧
      RegsBut s t [rPool i.p c 0x10, rPool i.p c 0x18, rPoolCnt i.p c 0] ∧ OnlyChanges s t [.threads, .pools, .mem, .regs])⟩

/-- POOL_ALLOC of more than the largest class: status 2, POOL_TOO_LARGE, nothing taken (R263, R268). -/
abbrev poolAllocTooLarge (s : State) (th : Thr) (w : Cmd) (i : Iss) : Clause :=
  ⟨Plain s th w i ∧ opIs 0x16 w = true ∧ cb w 4 ≤ 31 ∧ cb w 5 ≤ 31 ∧ 2 ^ 30 < cf w 8 0 64 ∧ i.p < 64 ∧ Canon s,
    Answers (.poolAlloc th w) s (fun t => t.threads = (s.moved i none (poolThread (cb w 4) (cb w 5) 0 2)).threads ∧
      fieldOf t (rPoolSet i.p 0) 0 32 = min 0xFFFFFFFF (fieldOf s (rPoolSet i.p 0) 0 32 + 1) ∧
      Reported s t 0x2008 0 (dieIO (i.p % 4)) 0 (some i.p) 0 0 ∧ RegsBut s t ([rPoolSet i.p 0] ++ errSrc (dieIO (i.p % 4))) ∧
      OnlyChanges s t [.threads, .regs, .err])⟩

/-- POOL_FREE of a buffer that is in use, to a pool without a stack: it heads the free list, its header names the next and carries the check word
(R262, R264). -/
abbrev poolFree (s : State) (th : Thr) (w : Cmd) (i : Iss) (c : Nat) : Clause :=
  let a := (gOf (threadOf s i.key) (cb w 4)).toNat % 2 ^ 52
  let d := poolOf s (poolKey i.p c)
  ⟨Plain s th w i ∧ opIs 0x17 w = true ∧ cb w 4 ≤ 31 ∧ cb w 5 ≤ 31 ∧ i.p < 64 ∧ c < 12 ∧ poolAt s i.p a = some c ∧ (a - d.base) % classSize c = 0 ∧
      (a - d.base) / classSize c < poolWater s i.p c ∧ memNat s (a + 8) 8 ≠ checkWord s i.p c ∧ d.prefetch = false ∧
      d.freeHead < 2 ^ 64 ∧ 1 ≤ poolOut s i.p c ∧ s.fab.dir = [] ∧ CleanMem s ∧ Canon s,
    Answers (.poolFree th w) s (fun t =>
      t.threads = (s.moved i none (fun t => { setG (cb w 5) 0 t with st := .waiting, wait := .met })).threads ∧
      poolOf t (poolKey i.p c) = { d with freeHead := a, freeLen := d.freeLen + 1 } ∧
      memNat t a 8 = (if d.freeLen = 0 then 0 else d.freeHead) ∧ memNat t (a + 8) 8 = checkWord s i.p c ∧ MemBut s t a 16 ∧
      poolOut t i.p c = poolOut s i.p c - 1 ∧ regOf t (rPoolCnt i.p c 8) = regOf s (rPoolCnt i.p c 8) + 1 ∧
      RegsBut s t [rPool i.p c 0x10, rPool i.p c 0x18, rPoolCnt i.p c 8] ∧ OnlyChanges s t [.threads, .pools, .mem, .regs])⟩

/-- POOL_FREE of a buffer whose header already carries the check word: status 4, POOL_DOUBLE_FREE, the pool as it was (R264). -/
abbrev poolFreeTwice (s : State) (th : Thr) (w : Cmd) (i : Iss) (c : Nat) : Clause :=
  let a := (gOf (threadOf s i.key) (cb w 4)).toNat % 2 ^ 52
  let d := poolOf s (poolKey i.p c)
  ⟨Plain s th w i ∧ opIs 0x17 w = true ∧ cb w 4 ≤ 31 ∧ cb w 5 ≤ 31 ∧ i.p < 64 ∧ c < 12 ∧ poolAt s i.p a = some c ∧ (a - d.base) % classSize c = 0 ∧
      (a - d.base) / classSize c < poolWater s i.p c ∧ memNat s (a + 8) 8 = checkWord s i.p c ∧ CleanMem s ∧ Canon s,
    Answers (.poolFree th w) s (fun t =>
      t.threads = (s.moved i none (fun t => { setG (cb w 5) 4 t with st := .waiting, wait := .met })).threads ∧
      Reported s t 0x200A 0 (dieIO (i.p % 4)) 0 (some i.p) a 0 ∧ OnlyChanges s t [.threads, .regs, .err])⟩

/-- POOL_INIT of a pool with no buffer out whose configuration passes the checks: an empty pool of COUNT untouched buffers under the next
generation (R260, R267). -/
abbrev poolInit (s : State) (p : Fin 64) (c : Fin 12) (w : Wr) : Clause :=
  let n := fieldOf s (rPool p c 8) 0 32
  ⟨ByOwner s w.path ∧ wrBits w 63 1 = 1 ∧ poolOut s p c = 0 ∧ poolCfgOk s p c = true ∧ Canon s,
    Answers (.poolInit p c w) s (fun t =>
      poolOf t (poolKey p c) = { base := fieldOf s (rPool p c 0) 0 52, count := n, prefetch := fieldOf s (rPool p c 8) 32 1 == 1 } ∧
      poolGen t p c = (poolGen s p c + 1) % 2 ^ 16 ∧ regOf t (rPool p c 0x18) = 0 ∧ fieldOf t (rPool p c 0x10) 0 32 = n ∧
      RegsBut s t [rPool p c 0x10, rPool p c 0x18] ∧ OnlyChanges s t [.pools, .regs])⟩

/-- POOL_INIT of a pool whose configuration fails: an empty pool, its generation as it was, and POOL_CFG_INVALID (R260). -/
abbrev poolInitBad (s : State) (p : Fin 64) (c : Fin 12) (w : Wr) : Clause :=
  ⟨ByOwner s w.path ∧ wrBits w 63 1 = 1 ∧ poolOut s p c = 0 ∧ poolCfgOk s p c = false ∧ Canon s,
    Answers (.poolInit p c w) s (fun t => poolOf t (poolKey p c) = {} ∧ poolGen t p c = poolGen s p c ∧
      Reported s t 0x2006 0 (dieIO (p % 4)) 0 (some p.val) (fieldOf s (rPool p c 0) 0 52) 0 ∧ OnlyChanges s t [.pools, .regs, .err])⟩

/-- POOL_REFILL moves the next untouched buffer onto a stack below its mark when the free list is empty; its header carries the check
word (R261, R262). -/
abbrev poolRefill (s : State) (p : Fin 64) (c : Fin 12) : Clause :=
  let d := poolOf s (poolKey p c)
  let a := d.base + poolWater s p c * classSize c
  ⟨d.prefetch = true ∧ d.stack.length < 16384 ∧ d.freeLen = 0 ∧ poolWater s p c < d.count ∧ d.count < 2 ^ 32 ∧ s.fab.dir = [] ∧
      CleanMem s ∧ Canon s,
    Answers (.poolRefill p c) s (fun t => poolOf t (poolKey p c) = { d with stack := a :: d.stack } ∧
      poolWater t p c = poolWater s p c + 1 ∧ poolOut t p c = poolOut s p c ∧ memNat t (a + 8) 8 = checkWord s p c ∧ MemBut s t a 16 ∧
      RegsBut s t [rPool p c 0x10, rPool p c 0x18] ∧ OnlyChanges s t [.pools, .mem, .regs])⟩

end Sys2Proof.Claims

open Sys2Proof.Claims in
/-- POOL_ALLOC, POOL_FREE, POOL_INIT and POOL_REFILL. -/
def Obligations.PoolCommands : Prop :=
  ∀ (s : State) (th : Thr) (w : Cmd) (i : Iss) (c a : Nat) (rest : List Nat) (p : Fin 64) (k : Fin 12) (v : Wr),
    (poolAllocFresh s th w i c).Holds ∧ (poolAllocStack s th w i c a rest).Holds ∧ (poolAllocTooLarge s th w i).Holds ∧
      (poolFree s th w i c).Holds ∧ (poolFreeTwice s th w i c).Holds ∧ (poolInit s p k v).Holds ∧ (poolInitBad s p k v).Holds ∧
      (poolRefill s p k).Holds

/-! ## Vector, matrix, sparse and move commands (R186–R247) -/

namespace Sys2Proof.Claims

/-- An asynchronous command in its slot. -/
def asyncPut (slot : Nat) (a : AsyncCmd) (t : Thread) : Thread :=
  { t with asyncs := t.asyncs.filter (fun e => e.1 < slot) ++ (slot, a) :: t.asyncs.filter (fun e => slot < e.1) }

/-- An asynchronous command that issues without a grant into a slot, its engine free of earlier commands that have not started (R169,
R172). -/
abbrev Issues (s : State) (th : Thr) (w : Cmd) (i : Iss) (slot : Nat) : Prop :=
  Plain s th w i ∧ freeSlot (threadOf s i.key) = some slot ∧ engineFree s i = true ∧ Canon s

/-- The command has run: its slot holds it done, with the flags it will give at ASYNC_COMMAND_DONE, and its thread has moved on. -/
abbrev Ran (s t : State) (i : Iss) (slot : Nat) (f : Flags) : Prop :=
  t.threads = (s.moved i none (asyncPut slot { w := i.w, phase := .done, flags := f })).threads ∧ t.turns = (s.issued i).turns

/-- A matrix command has run: its tiles have given their flags to its thread, its slot holds it done, and its thread has moved on (R161). -/
abbrev RanTiles (s t : State) (i : Iss) (slot : Nat) (f : Flags) : Prop :=
  t.threads = (s.moved i none (fun u => asyncPut slot { w := i.w, phase := .done } (orFlags f u))).threads ∧ t.turns = (s.issued i).turns

/-- A vector command wrote its result to its destination buffer, and nothing else but its thread and the counters of its core (R236,
R247): the cycles it waited are a free amount (log entry 117). -/
abbrev VecRan (s t : State) (i : Iss) (slot : Nat) (r : VBuf × Flags) (cycles : Nat) : Prop :=
  Ran s t i slot r.2 ∧ vbufOf t (vbKey i.p i.ctx i.core (vD i.w)) = r.1 ∧
    (∀ k, k ≠ vbKey i.p i.ctx i.core (vD i.w) → vbufOf t k = vbufOf s k) ∧
    regOf t (rVec i.core 0) = regOf s (rVec i.core 0) + BitVec.ofNat 64 cycles ∧
    fieldOf t (rVec i.core 0x18) 0 32 = min 0xFFFFFFFF (fieldOf s (rVec i.core 0x18) 0 32 + 1) ∧
    RegsBut s t [rVec i.core 0, rVec i.core 0x10, rVec i.core 0x18] ∧ OnlyChanges s t [.threads, .vbufs, .regs, .freeIdx]

/-- Cycles of a vector command of `p` passes over a buffer (R237). -/
def vCycles (a : VBuf) (p : Nat) : Nat :=
  max 4 ((a.rows * a.cols + (if a.fmt = 1 then 256 else 128) - 1) / (if a.fmt = 1 then 256 else 128)) * p

/-- VBIN applies its operation element by element; B is a buffer, a scalar register rounded to A's format, a row or a column (R151, R160, R241). -/
abbrev vbin (s : State) (th : Thr) (w : Cmd) (i : Iss) (slot : Nat) : Clause :=
  let a := vGet s i (vA w)
  let b := (vBsrc s i a).getD (fun _ _ => 0)
  ⟨Issues s th w i slot ∧ opIs 0x42 w = true ∧ a.rows ≠ 0 ∧ vBempty s i = false ∧ (vBsrc s i a).isSome = true ∧
      (vBinOp a.fmt (cb w 5) 0 0).isSome = true,
    Answers (.vbin th w) s (fun t =>
      let r := vMake a.fmt a.rows a.cols (fun x y => (vBinOp a.fmt (cb w 5) (a.at x y) (b x y)).getD (0, 0))
      VecRan s t i slot (r.1, r.2 ||| vBflags s i a) (vCycles a 1))⟩

/-- VBIN on INT32 buffers of one shape: ADD wraps, and AND is the bits in common (R241). -/
abbrev vbinInt (s : State) (th : Thr) (w : Cmd) (i : Iss) (slot : Nat) : Clause :=
  let a := vGet s i (vA w)
  let b := vGet s i (vB w)
  ⟨Issues s th w i slot ∧ opIs 0x42 w = true ∧ cf w 6 0 2 = 0 ∧ (cb w 5 = 0 ∨ cb w 5 = 7) ∧ a.fmt = 2 ∧ b.fmt = 2 ∧ a.rows ≠ 0 ∧
      b.rows = a.rows ∧ b.cols = a.cols,
    Answers (.vbin th w) s (fun t => ∀ x, x < a.rows → ∀ y, y < a.cols →
      (vbufOf t (vbKey i.p i.ctx i.core (vD w))).at x y = (if cb w 5 = 0 then a.at x y + b.at x y else a.at x y &&& b.at x y))⟩

/-- VUN applies its operation element by element; the functions from EXP on take two passes (R237, R242). -/
abbrev vun (s : State) (th : Thr) (w : Cmd) (i : Iss) (slot : Nat) : Clause :=
  let a := vGet s i (vA w)
  ⟨Issues s th w i slot ∧ opIs 0x43 w = true ∧ a.rows ≠ 0 ∧ (vUnOp a.fmt (cb w 5) 0).isSome = true,
    Answers (.vun th w) s (fun t => VecRan s t i slot
      (vMake a.fmt a.rows a.cols (fun x y => (vUnOp a.fmt (cb w 5) (a.at x y)).getD (0, 0))) (vCycles a (if cb w 5 ≤ 2 then 1 else 2)))⟩

/-- VFMA of INT32 buffers multiplies and adds, wrapping (R239). -/
abbrev vfmaInt (s : State) (th : Thr) (w : Cmd) (i : Iss) (slot : Nat) : Clause :=
  let a := vGet s i (vA w)
  let b := (vBsrc s i a).getD (fun _ _ => 0)
  let c := vGet s i (vC w)
  ⟨Issues s th w i slot ∧ opIs 0x44 w = true ∧ a.fmt = 2 ∧ c.fmt = 2 ∧ a.rows ≠ 0 ∧ c.rows = a.rows ∧ c.cols = a.cols ∧
      vBempty s i = false ∧ (vBsrc s i a).isSome = true,
    Answers (.vfma th w) s (fun t => VecRan s t i slot
      (vMake 2 a.rows a.cols (fun x y => (a.at x y * b x y + c.at x y, 0))) (vCycles a 1))⟩

/-- VFMA of float buffers rounds the exact product and sum once (R239). -/
abbrev vfmaFloat (s : State) (th : Thr) (w : Cmd) (i : Iss) (slot : Nat) : Clause :=
  let a := vGet s i (vA w)
  let b := (vBsrc s i a).getD (fun _ _ => 0)
  let c := vGet s i (vC w)
  ⟨Issues s th w i slot ∧ opIs 0x44 w = true ∧ a.fmt ≠ 2 ∧ c.fmt = a.fmt ∧ a.rows ≠ 0 ∧ c.rows = a.rows ∧ c.cols = a.cols ∧
      vBempty s i = false ∧ (vBsrc s i a).isSome = true,
    Answers (.vfma th w) s (fun t => ∀ x, x < a.rows → ∀ y, y < a.cols →
      (vbufOf t (vbKey i.p i.ctx i.core (vD w))).at x y =
        (vOut a.fmt (sumNum [(mulNum (vNum a.fmt (a.at x y)).1 (vNum a.fmt (b x y)).1).1, (vNum a.fmt (c.at x y)).1]).1).1)⟩

/-- VRED along rows reduces each row by the pairwise tree to one column; along columns in ascending order to one row (R243). -/
abbrev vred (s : State) (th : Thr) (w : Cmd) (i : Iss) (slot : Nat) : Clause :=
  let a := vGet s i (vA w)
  let op := cb w 5
  let bin := if op = 1 then 3 else if op = 2 then 4 else 0
  let elem := fun (r c : Nat) =>
    if op = 3 then (vBinOp a.fmt 2 (a.at r c) (a.at r c)).getD (0, 0) else (a.at r c, if a.fmt = 2 then 0 else (vNum a.fmt (a.at r c)).2)
  ⟨Issues s th w i slot ∧ opIs 0x45 w = true ∧ a.rows ≠ 0 ∧ op ≤ 3,
    Answers (.vred th w) s (fun t => VecRan s t i slot
      (if cf w 6 4 1 = 0 then vMake a.fmt a.rows 1 (fun x _ => treeReduce a.fmt bin 9 ((List.range a.cols).map (fun c => elem x c)))
       else vMake a.fmt 1 a.cols (fun _ y => seqReduce a.fmt bin ((List.range a.rows).map (fun x => elem x y)))) (vCycles a 1))⟩

/-- VCVT converts each element under RMODE; a NaN becomes canonical, in its own format as well (R147, R148, R244). -/
abbrev vcvt (s : State) (th : Thr) (w : Cmd) (i : Iss) (slot : Nat) : Clause :=
  let a := vGet s i (vA w)
  let dst := cf w 6 2 2
  ⟨Issues s th w i slot ∧ opIs 0x46 w = true ∧ a.rows ≠ 0 ∧ dst ≤ 2 ∧ (dst ≠ 1 → a.fmt = 1 → a.cols ≤ 128),
    Answers (.vcvt th w) s (fun t => VecRan s t i slot
      (vMake dst a.rows a.cols (fun x y => vConv dst (threadOf s i.key) (x * a.cols + y) (vNum a.fmt (a.at x y)))) (vCycles a 1))⟩

/-- VPERM MODE 0 transposes a buffer of at most 64 by 64 (R244). -/
abbrev vpermTranspose (s : State) (th : Thr) (w : Cmd) (i : Iss) (slot : Nat) : Clause :=
  let a := vGet s i (vA w)
  ⟨Issues s th w i slot ∧ opIs 0x47 w = true ∧ cb w 5 = 0 ∧ 1 ≤ a.rows ∧ a.rows ≤ 64 ∧ a.cols ≤ 64,
    Answers (.vperm th w) s (fun t => VecRan s t i slot
      ((vMake a.fmt a.cols a.rows (fun x y => (a.at y x, 0))).1, 0) (vCycles a 1))⟩

/-- VPERM MODE 1 and 2 pick rows or columns by the INT32 indexes of B; an index outside gives +0 (R244). -/
abbrev vpermPick (s : State) (th : Thr) (w : Cmd) (i : Iss) (slot : Nat) : Clause :=
  let a := vGet s i (vA w)
  let b := vGet s i (vB w)
  ⟨Issues s th w i slot ∧ opIs 0x47 w = true ∧ (cb w 5 = 1 ∨ cb w 5 = 2) ∧ a.rows ≠ 0 ∧ b.rows ≠ 0 ∧ b.fmt = 2,
    Answers (.vperm th w) s (fun t => VecRan s t i slot
      ((if cb w 5 = 1 then vMake a.fmt b.rows a.cols (fun x y =>
          (if 0 ≤ (b.at x 0).toInt ∧ (b.at x 0).toInt < a.rows then a.at (b.at x 0).toInt.toNat y else 0, 0))
        else vMake a.fmt a.rows b.cols (fun x y =>
          (if 0 ≤ (b.at 0 y).toInt ∧ (b.at 0 y).toInt < a.cols then a.at x (b.at 0 y).toInt.toNat else 0, 0))).1, 0) (vCycles a 1))⟩

/-- VPACK puts the BF16 values of A at column 0 and those of B at column 128 of one buffer; the columns between are free values where A is
narrower (R244, log entry 2). -/
abbrev vpack (s : State) (th : Thr) (w : Cmd) (i : Iss) (slot : Nat) : Clause :=
  let a := vGet s i (vA w)
  let b := vGet s i (vB w)
  ⟨Issues s th w i slot ∧ opIs 0x48 w = true ∧ a.rows ≠ 0 ∧ a.fmt = 0 ∧ b.fmt = 0 ∧ b.rows = a.rows ∧ b.cols = a.cols ∧ a.cols ≤ 128,
    Answers (.vpack th w) s (fun t =>
      let d := vbufOf t (vbKey i.p i.ctx i.core (vD w))
      d.fmt = 1 ∧ d.rows = a.rows ∧ d.cols = 128 + a.cols ∧
      (∀ x, x < a.rows → ∀ y, y < a.cols →
        d.at x y = (vConv 1 (threadOf s i.key) (x * d.cols + y) (vNum 0 (a.at x y))).1 ∧
        d.at x (128 + y) = (vConv 1 (threadOf s i.key) (x * d.cols + (128 + y)) (vNum 0 (b.at x y))).1) ∧
      (∀ k, k ≠ vbKey i.p i.ctx i.core (vD w) → vbufOf t k = vbufOf s k) ∧
      RegsBut s t [rVec i.core 0, rVec i.core 0x10, rVec i.core 0x18] ∧ OnlyChanges s t [.threads, .vbufs, .regs, .freeIdx])⟩

/-- VUNPACK gives columns 0 to 127 of a BF16 buffer to D and the rest to C, widened exactly, with DEN of a subnormal (R147, R154,
R244). -/
abbrev vunpack (s : State) (th : Thr) (w : Cmd) (i : Iss) (slot : Nat) : Clause :=
  let a := vGet s i (vA w)
  ⟨Issues s th w i slot ∧ opIs 0x49 w = true ∧ a.rows ≠ 0 ∧ a.fmt = 1 ∧ 128 < a.cols ∧ vD w ≠ vC w,
    Answers (.vunpack th w) s (fun t =>
      let lo := vMake 0 a.rows 128 (fun x y => vWide (a.at x y))
      let hi := vMake 0 a.rows (a.cols - 128) (fun x y => vWide (a.at x (128 + y)))
      Ran s t i slot (lo.2 ||| hi.2) ∧
      vbufOf t (vbKey i.p i.ctx i.core (vD w)) = lo.1 ∧ vbufOf t (vbKey i.p i.ctx i.core (vC w)) = hi.1 ∧
      (∀ k, k ≠ vbKey i.p i.ctx i.core (vD w) → k ≠ vbKey i.p i.ctx i.core (vC w) → vbufOf t k = vbufOf s k) ∧
      RegsBut s t [rVec i.core 0, rVec i.core 0x10, rVec i.core 0x18] ∧ OnlyChanges s t [.threads, .vbufs, .regs, .freeIdx])⟩

/-- An empty buffer as source faults the thread with cause 3 (R171, R236). -/
abbrev vecEmpty (s : State) (th : Thr) (w : Cmd) (i : Iss) (slot : Nat) (c : Instr) : Clause :=
  ⟨Issues s th w i slot ∧ c.wellFormed = true ∧ c ∈ [.vbin th w, .vun th w, .vfma th w, .vred th w, .vcvt th w, .vperm th w, .vpack th w, .vunpack th w] ∧
      (vGet s i (vA w)).rows = 0 ∧ (∀ e ∈ (threadOf s i.key).asyncs, e.1 < slot),
    Answers c s (fun t => FaultedAs s t i 3)⟩

/-- A matrix descriptor that a command may name: in the partition, well formed, dense, without a mask or bucket, its matrix in the
core's scratch (R176, R177). -/
abbrev PlainOpd (s : State) (i : Iss) (a : Nat) (m : Mdesc) : Prop :=
  a % 64 = 0 ∧ belongs s i.p a 64 = true ∧ mdescOf (memItem s a) = m ∧ m.ok = true ∧ m.blocked = false ∧ m.pmask = 0 ∧ m.bucket = 0 ∧
    inScratch i.core m.base = true

/-- All rows and columns of a matrix in the core's scratch, its scales there as well (R200). -/
def whole (i : Iss) (m : Mdesc) : Opd := { m := m.ownScale i.core, tr := m.rows, tc := m.cols }

/-- VLD fills its buffer with a rectangle of up to 64 rows and 128 columns (256 of BF16), converted where the formats differ (R240, R245). -/
abbrev vld (s : State) (th : Thr) (w : Cmd) (i : Iss) (slot : Nat) (m : Mdesc) : Clause :=
  let vf := cf w 6 2 2
  let o := (whole i m).m
  let r0 := cf w 16 0 24
  let c0 := cf w 19 0 24
  let rows := min 64 (m.rows - r0)
  let cols := min (if vf = 1 then 256 else 128) (m.cols - c0)
  ⟨Issues s th w i slot ∧ opIs 0x40 w = true ∧ vf ≤ 2 ∧ PlainOpd s i (cAddr w 8) m ∧ r0 < m.rows ∧ c0 < m.cols ∧
      ((m.fmt ≤ 7 ∧ vf ≠ 2) ∨ ((m.fmt = 8 ∨ m.fmt = 10) ∧ vf = 2)) ∧ CleanMem s,
    Answers (.vld th w) s (fun t => Ran s t i slot
        (vMake vf rows cols (fun x y => if m.fmt = vfmtCode vf then (BitVec.ofNat 32 (readCode s o (r0 + x) (c0 + y)), 0)
          else vConv vf (threadOf s i.key) (x * cols + y) (readElem s o (r0 + x) (c0 + y)))).2 ∧
      vbufOf t (vbKey i.p i.ctx i.core (vD w)) =
        (vMake vf rows cols (fun x y => if m.fmt = vfmtCode vf then (BitVec.ofNat 32 (readCode s o (r0 + x) (c0 + y)), 0)
          else vConv vf (threadOf s i.key) (x * cols + y) (readElem s o (r0 + x) (c0 + y)))).1 ∧
      (∀ k, k ≠ vbKey i.p i.ctx i.core (vD w) → vbufOf t k = vbufOf s k) ∧
      regOf t (rVec i.core 8) = regOf s (rVec i.core 8) + BitVec.ofNat 64 (rows * cols * fmtBits m.fmt / 8) ∧
      RegsBut s t [rVec i.core 8, rVec i.core 0x10, rVec i.core 0x18] ∧ OnlyChanges s t [.threads, .vbufs, .regs, .freeIdx])⟩

/-- A matrix descriptor that is not well formed faults the thread with cause 3; the command leaves its slot (R171, R177). -/
abbrev badDescriptor (s : State) (th : Thr) (w : Cmd) (i : Iss) (slot : Nat) : Clause :=
  ⟨Issues s th w i slot ∧ opIs 0x40 w = true ∧ cf w 6 2 2 ≤ 2 ∧
      (cAddr w 8 % 64 ≠ 0 ∨ (belongs s i.p (cAddr w 8) 64 = true ∧ (mdescOf (memItem s (cAddr w 8))).ok = false)) ∧ CleanMem s ∧
      (∀ e ∈ (threadOf s i.key).asyncs, e.1 < slot),
    Answers (.vld th w) s (fun t => FaultedAs s t i 3)⟩

/-- VST to a matrix of its buffer's own format writes the elements that fit, as they are, and no other byte (R240). -/
abbrev vst (s : State) (th : Thr) (w : Cmd) (i : Iss) (slot : Nat) (m : Mdesc) : Clause :=
  let a := vGet s i (vA w)
  let r0 := cf w 16 0 24
  let c0 := cf w 19 0 24
  let rows := min a.rows (min 64 (m.rows - r0))
  let cols := min a.cols (m.cols - c0)
  ⟨Issues s th w i slot ∧ opIs 0x41 w = true ∧ PlainOpd s i (cAddr w 8) m ∧ r0 < m.rows ∧ c0 < m.cols ∧ a.rows ≠ 0 ∧
      m.fmt = vfmtCode a.fmt ∧ (m.rows - 1) * m.stride + m.rowBytes ≤ 0x200000 ∧ s.fab.dir = [] ∧ CleanMem s,
    Answers (.vst th w) s (fun t => Ran s t i slot 0 ∧
      (∀ x, x < rows → ∀ y, y < cols → readCode t m (r0 + x) (c0 + y) = (a.at x y).toNat % 2 ^ fmtBits m.fmt) ∧
      (∀ b, (∀ x, x < rows → ∀ y, y < cols → ∀ k, k < fmtBits m.fmt / 8 → b ≠ wrapAddr (m.elemAddr (r0 + x) (c0 + y)) k) →
        memAt t b = memAt s b) ∧
      RegsBut s t [rVec i.core 8, rVec i.core 0x10, rVec i.core 0x18] ∧ OnlyChanges s t [.threads, .mem, .regs, .freeIdx])⟩

end Sys2Proof.Claims

open Sys2Proof.Claims in
/-- The element-wise vector commands and the reductions. -/
def Obligations.VectorArithmetic : Prop :=
  ∀ (s : State) (th : Thr) (w : Cmd) (i : Iss) (slot : Nat) (c : Instr),
    (vbin s th w i slot).Holds ∧ (vbinInt s th w i slot).Holds ∧ (vun s th w i slot).Holds ∧ (vfmaInt s th w i slot).Holds ∧
      (vfmaFloat s th w i slot).Holds ∧ (vred s th w i slot).Holds ∧ (vecEmpty s th w i slot c).Holds

open Sys2Proof.Claims in
/-- Conversions, arrangements and the moves between scratch and the vector buffers. -/
def Obligations.VectorConversionsAndMoves : Prop :=
  ∀ (s : State) (th : Thr) (w : Cmd) (i : Iss) (slot : Nat) (m : Mdesc),
    (vcvt s th w i slot).Holds ∧ (vpermTranspose s th w i slot).Holds ∧ (vpermPick s th w i slot).Holds ∧ (vpack s th w i slot).Holds ∧
      (vunpack s th w i slot).Holds ∧ (vld s th w i slot m).Holds ∧ (vst s th w i slot m).Holds ∧
      (badDescriptor s th w i slot).Holds

namespace Sys2Proof.Claims

/-- The one accumulator of a product of one row by one column, from C or 0 on, over the tiles of K, and its flags (R192, R202). -/
def oneDot (s : State) (q : Prod) : BitVec 32 × Flags :=
  (List.range q.nK).foldl (fun d kt =>
    let r := tileDot s s q (kt * q.kTile) (min q.kTile (q.K - kt * q.kTile)) (q.tile s 0 0 (kt * q.kTile) == .skip) d.1 0 0
    (r.1, d.2 ||| r.2)) (q.init s 0 0)

/-- The code that it leaves in C (R195), rounded once to C's format under RMODE, and the flags of that. -/
def oneStored (s : State) (i : Iss) (q : Prod) (c : Mdesc) : Nat × Flags :=
  let d := (oneDot s q).1
  toFmt c.fmt (roundAt c (i.thread s).numCtrl (i.thread s).numSeed 0 0) (if q.int8 then .fin (d.toInt < 0) d.toInt.natAbs 0 else ofF32 d)

/-- C holds the product of one row by one column, and nothing else in memory has changed (R192, R195). -/
abbrev OneStored (s t : State) (i : Iss) (q : Prod) (c : Mdesc) : Prop :=
  readCode t c 0 0 = (oneStored s i q c).1 ∧ MemBut s t c.base 4

/-- Operands of MM, MV and SMM whose C is one element of FP32 or INT32 that does not wrap at the end of scratch, of fewer than 8 tiles. -/
abbrev OneByOne (s : State) (th : Thr) (w : Cmd) (i : Iss) (slot : Nat) (a b c : Mdesc) : Prop :=
  Issues s th w i slot ∧ PlainOpd s i (cAddr w 8) a ∧ PlainOpd s i (cAddr w 16) b ∧ PlainOpd s i (cAddr w 24) c ∧
    mmShapeOk a b c = true ∧ c.rows = 1 ∧ c.cols = 1 ∧ (c.fmt = 0 ∨ c.fmt = 10) ∧ c.base % 0x200000 + 4 ≤ 0x200000 ∧
    (bKN b).1 ≤ 7 * kch a.fmt b.fmt ∧ s.fab.dir = [] ∧ CleanMem s

/-- The product of MM, MV and SMM on three matrices in the core's scratch. -/
abbrev prod3 (s : State) (i : Iss) (w : Cmd) (a b c : Mdesc) : Machine.Prod := prodAB (i.thread s) (mAcc w) (whole i a) (whole i b) (whole i c)

/-- MM of one row by one column: C holds their inner product (R161, R192, R195). -/
abbrev mm (s : State) (th : Thr) (w : Cmd) (i : Iss) (slot : Nat) (a b c : Mdesc) : Clause :=
  let q := prod3 s i w a b c
  ⟨OneByOne s th w i slot a b c ∧ opIs 0x20 w = true,
    Answers (.mm th w) s (fun t => OneStored s t i q c ∧ RanTiles s t i slot ((oneDot s q).2 ||| (oneStored s i q c).2) ∧
      RegsBut s t [rCore i.core 0, rCore i.core 8, rCore i.core 0x10] ∧ OnlyChanges s t [.threads, .mem, .regs, .freeIdx])⟩

/-- MV of one row by one column, on BF16 or FP16 operands (R208). -/
abbrev mv (s : State) (th : Thr) (w : Cmd) (i : Iss) (slot : Nat) (a b c : Mdesc) : Clause :=
  let q := prod3 s i w a b c
  ⟨OneByOne s th w i slot a b c ∧ opIs 0x22 w = true ∧ (a.fmt = 1 ∨ a.fmt = 2) ∧ c.fmt = 0,
    Answers (.mv th w) s (fun t => OneStored s t i q c ∧ RanTiles s t i slot ((oneDot s q).2 ||| (oneStored s i q c).2) ∧
      regOf t (rCore i.core 0x20) = regOf s (rCore i.core 0x20) + BitVec.ofNat 64 ((q.K + 511) / 512 + 64) ∧
      RegsBut s t [rCore i.core 0x20] ∧ OnlyChanges s t [.threads, .mem, .regs])⟩

/-- SMM of one row by one column of dense operands on the array; a tile without a present product counts nowhere (R216, R218). -/
abbrev smm (s : State) (th : Thr) (w : Cmd) (i : Iss) (slot : Nat) (a b c : Mdesc) : Clause :=
  let q := smmProd 1 (fieldOf s (rPart i.p 0x0120) 0 9) (whole i a) (whole i b) (prod3 s i w a b c)
  ⟨OneByOne s th w i slot a b c ∧ opIs 0x30 w = true ∧ smmEngine w = 1 ∧ smmGrouped w = false,
    Answers (.smm th w) s (fun t => OneStored s t i q c ∧ RanTiles s t i slot ((oneDot s q).2 ||| (oneStored s i q c).2) ∧
      RegsBut s t [rCore i.core 0, rCore i.core 8, rCore i.core 0x10, rSpu i.core 0, rSpu i.core 8] ∧
      OnlyChanges s t [.threads, .mem, .regs, .freeIdx])⟩

/-- CONV with one output element: the sum of the filter over the pixels of the image that it covers (R203). -/
abbrev conv (s : State) (th : Thr) (w : Cmd) (i : Iss) (slot : Nat) (x f y : Mdesc) : Clause :=
  let g := geoOf (memItem s (cAddr w 24))
  let q := prodConv (i.thread s) (mAcc w) g (whole i x) (whole i f) (whole i y)
  ⟨Issues s th w i slot ∧ opIs 0x21 w = true ∧ belongs s i.p (cAddr w 24) 64 = true ∧ PlainOpd s i (cAddr w 8) x ∧
      PlainOpd s i (cAddr w 16) f ∧ PlainOpd s i g.y y ∧ convOk g x f y = true ∧ y.rows = 1 ∧ y.cols = 1 ∧ (y.fmt = 0 ∨ y.fmt = 10) ∧
      y.base % 0x200000 + 4 ≤ 0x200000 ∧ (bKN f).1 ≤ 7 * kch x.fmt f.fmt ∧ s.fab.dir = [] ∧ CleanMem s,
    Answers (.conv th w) s (fun t => OneStored s t i q y ∧ RanTiles s t i slot ((oneDot s q).2 ||| (oneStored s i q y).2) ∧
      RegsBut s t [rCore i.core 0, rCore i.core 8, rCore i.core 0x10] ∧ OnlyChanges s t [.threads, .mem, .regs, .freeIdx])⟩

/-- GMM always asks for a grant (R196): issued without LEAVE it takes its slot and its request of its power class waits at the PGU. -/
abbrev gmm (s : State) (th : Thr) (w : Cmd) (i : Iss) (slot : Nat) : Clause :=
  ⟨Issues s th w i slot ∧ opIs 0x23 w = true,
    exec (.gmm th w) s = .next ((asking s { who := .cmd i.key slot, mw := classMw s (cf w 5 0 3), prio := (threadOf s i.key).prio.toNat,
                                             part := i.p, die := some (i.core / 64), askedAt := s.time.now }).moved i none
      (asyncPut slot (heldBack s i true)))⟩

/-- SHELL ROWS of one listed row copies it to row 0 of the destination (R226). -/
abbrev shellRow (s : State) (th : Thr) (w : Cmd) (i : Iss) (slot : Nat) (m : Mdesc) : Clause :=
  let a := memNat s (cAddr w 8) 8 % 2 ^ 52
  let n := m.rowBytes
  ⟨Issues s th w i slot ∧ opIs 0x31 w = true ∧ cf w 4 0 2 = 2 ∧ cf w 24 0 32 = 1 ∧ PlainOpd s i (cAddr w 16) m ∧ isMx m.fmt = false ∧
      belongs s i.p m.base 1 = true ∧ belongs s i.p (cAddr w 8) 8 = true ∧ a ≠ 0 ∧ belongs s i.p a n = true ∧
      (tierOf a = .scratch → a % 0x200000 + n ≤ 0x200000) ∧ m.base % 0x200000 + n ≤ 0x200000 ∧ (a + n ≤ m.base ∨ m.base + n ≤ a) ∧
      s.fab.dir = [] ∧ CleanMem s,
    Answers (.shell th w) s (fun t =>
      (∀ j, j < m.cols → readCode t m 0 j = readCode s { m with base := a, rows := 1 } 0 j) ∧ MemBut s t m.base n ∧
      Ran s t i slot 0 ∧ regOf t (rShl (i.core / 32) 0) = regOf s (rShl (i.core / 32) 0) + BitVec.ofNat 64 n ∧
      RegsBut s t [rShl (i.core / 32) 0] ∧ OnlyChanges s t [.threads, .mem, .regs])⟩

/-- MERGE of one run of one record with one value: the record is written, and the status word says one record (R232, R233). -/
abbrev mergeOne (s : State) (th : Thr) (w : Cmd) (i : Iss) (slot : Nat) : Clause :=
  let runs := cAddr w 8
  let out := cAddr w 16
  let r := memNat s runs 8 % 2 ^ 52
  let stat := memNat s (runs + 256) 8 % 2 ^ 52
  ⟨Issues s th w i slot ∧ opIs 0x32 w = true ∧ cf w 4 0 4 = 0 ∧ cf w 6 0 16 = 1 ∧ 1 ≤ cf w 24 0 32 ∧ belongs s i.p runs 264 = true ∧
      memNat s (runs + 8) 4 = 1 ∧ belongs s i.p r 12 = true ∧ belongs s i.p stat 8 = true ∧ belongs s i.p out 12 = true ∧
      belongs s i.p out 1 = true ∧ (stat + 8 ≤ out ∨ out + 12 ≤ stat) ∧ s.fab.dir = [] ∧ CleanMem s,
    Answers (.merge th w) s (fun t => memNat t out 8 = memNat s r 8 ∧
      memNat t (out + 8) 4 =
        (accAdd 0 [(ofF32 (BitVec.ofNat 32 (memNat s (r + 8) 4)), den32 (BitVec.ofNat 32 (memNat s (r + 8) 4)))]).1.toNat ∧
      memNat t stat 8 = 1 ∧ (∀ a, (a < out ∨ out + 12 ≤ a) → (a < stat ∨ stat + 8 ≤ a) → memAt t a = memAt s a) ∧
      (∃ f, Ran s t i slot f) ∧ regOf t (rCmp (i.core / 64) 0x3080) = regOf s (rCmp (i.core / 64) 0x3080) + 1 ∧
      regOf t (rCmp (i.core / 64) 0x3088) = regOf s (rCmp (i.core / 64) 0x3088) + 1 ∧
      RegsBut s t [rCmp (i.core / 64) 0x3080, rCmp (i.core / 64) 0x3088, rCmp (i.core / 64) 0x3090] ∧
      OnlyChanges s t [.threads, .mem, .regs])⟩

end Sys2Proof.Claims

open Sys2Proof.Claims in
/-- MM, MV, SMM, CONV and GMM. -/
def Obligations.MatrixCommands : Prop :=
  ∀ (s : State) (th : Thr) (w : Cmd) (i : Iss) (slot : Nat) (a b c : Mdesc),
    (mm s th w i slot a b c).Holds ∧ (mv s th w i slot a b c).Holds ∧ (smm s th w i slot a b c).Holds ∧
      (conv s th w i slot a b c).Holds ∧ (gmm s th w i slot).Holds

open Sys2Proof.Claims in
/-- SHELL and MERGE. -/
def Obligations.ShellAndMerge : Prop :=
  ∀ (s : State) (th : Thr) (w : Cmd) (i : Iss) (slot : Nat) (m : Mdesc),
    (shellRow s th w i slot m).Holds ∧ (mergeOne s th w i slot).Holds

namespace Sys2Proof.Claims

/-- DMA with FILL repeats its 8-byte pattern over the destination (R187). -/
abbrev dmaFills (s : State) (th : Thr) (w : Cmd) (i : Iss) (slot : Nat) : Clause :=
  ⟨Issues s th w i slot ∧ opIs 0x12 w = true ∧ dmaFill w = true ∧ 1 ≤ dmaLen w ∧ dmaLen w < 65536 ∧
      belongs s i.p (dmaDst w) (dmaLen w) = true ∧ isRack (dmaDst w) = false ∧ s.fab.moves = [] ∧ s.fab.reqs = [] ∧ s.fab.dir = [] ∧ CleanMem s,
    Answers (.dma th w) s (fun t => (∀ k, k < dmaLen w → memAt t (dmaDst w + k) = BitVec.ofNat 8 (cb w (8 + k % 8))) ∧
      MemBut s t (dmaDst w) (dmaLen w) ∧ Ran s t i slot 0 ∧ OnlyChanges s t [.threads, .mem])⟩

/-- DMA copies its bytes from a source that does not overlap the destination (R187). -/
abbrev dmaCopies (s : State) (th : Thr) (w : Cmd) (i : Iss) (slot : Nat) : Clause :=
  ⟨Issues s th w i slot ∧ opIs 0x12 w = true ∧ dmaFill w = false ∧ 1 ≤ dmaLen w ∧ dmaLen w < 65536 ∧
      belongs s i.p (dmaDst w) (dmaLen w) = true ∧ belongs s i.p (dmaSrc w) (dmaLen w) = true ∧ isRack (dmaDst w) = false ∧
      isRack (dmaSrc w) = false ∧ (dmaSrc w + dmaLen w ≤ dmaDst w ∨ dmaDst w + dmaLen w ≤ dmaSrc w) ∧ s.fab.moves = [] ∧
      s.fab.reqs = [] ∧ s.fab.dir = [] ∧ CleanMem s,
    Answers (.dma th w) s (fun t => (∀ k, k < dmaLen w → memAt t (dmaDst w + k) = memAt s (dmaSrc w + k)) ∧
      MemBut s t (dmaDst w) (dmaLen w) ∧ Ran s t i slot 0 ∧ OnlyChanges s t [.threads, .mem])⟩

/-- Tile moves between a matrix of the partition's memory and scratch, of one format without scales, that do not overlap. -/
abbrev TileMove (s : State) (th : Thr) (w : Cmd) (i : Iss) (slot : Nat) (x : Tile) : Prop :=
  Issues s th w i slot ∧ x = tileOf w (memItem s (cAddr w 8)) (memItem s (cAddr w 16)) ∧
    cAddr w 8 % 64 = 0 ∧ belongs s i.p (cAddr w 8) 64 = true ∧ cAddr w 16 % 64 = 0 ∧ belongs s i.p (cAddr w 16) 64 = true ∧
    x.t.ok = true ∧ x.o.ok = true ∧ x.t.blocked = false ∧ x.o.blocked = false ∧ x.t.fmt = x.o.fmt ∧ x.t.kcol = x.o.kcol ∧
    isMx x.t.fmt = false ∧ inScratch i.core x.t.base = true ∧ x.t2 < 65536 ∧
    (x.t.rows - 1) * x.t.stride + x.t.rowBytes ≤ 0x200000 ∧ tierOf x.o.base ≠ .scratch ∧
    (∀ r ∈ runsOf x.reads ++ runsOf x.writes, belongs s i.p r.1 r.2 = true ∧ isRack r.1 = false) ∧ (∀ a ∈ x.writes, a ∉ x.reads) ∧
    s.fab.moves = [] ∧ s.fab.reqs = [] ∧ s.fab.dir = [] ∧ CleanMem s

/-- LOAD_TILE copies the rectangle from (ROW0, COL0) on into the tile; what lies outside the matrix is +0 (R187). -/
abbrev loadTile (s : State) (th : Thr) (w : Cmd) (i : Iss) (slot : Nat) (x : Tile) : Clause :=
  ⟨TileMove s th w i slot x ∧ opIs 0x10 w = true,
    Answers (.loadTile th w) s (fun t => (∀ r, r < x.t.rows → ∀ c, c < x.t.cols →
        readCode t x.t r c = if x.inside r c then readCode s x.o (x.r0 + r) (x.c0 + c) else 0) ∧
      (∀ a, a ∉ x.writes → memAt t a = memAt s a) ∧ Ran s t i slot 0 ∧ OnlyChanges s t [.threads, .mem])⟩

/-- STORE_TILE copies the elements of the tile that lie in the matrix to (ROW0, COL0) on (R187). -/
abbrev storeTile (s : State) (th : Thr) (w : Cmd) (i : Iss) (slot : Nat) (x : Tile) : Clause :=
  ⟨TileMove s th w i slot x ∧ opIs 0x11 w = true,
    Answers (.storeTile th w) s (fun t => (∀ r, r < x.t.rows → ∀ c, c < x.t.cols → x.inside r c = true →
        readCode t x.o (x.r0 + r) (x.c0 + c) = readCode s x.t r c) ∧
      (∀ a, a ∉ x.writes → memAt t a = memAt s a) ∧ Ran s t i slot 0 ∧ OnlyChanges s t [.threads, .mem])⟩

end Sys2Proof.Claims

open Sys2Proof.Claims in
/-- LOAD_TILE, STORE_TILE and DMA on this device. -/
def Obligations.MoveCommands : Prop :=
  ∀ (s : State) (th : Thr) (w : Cmd) (i : Iss) (slot : Nat) (x : Tile),
    (dmaFills s th w i slot).Holds ∧ (dmaCopies s th w i slot).Holds ∧ (loadTile s th w i slot x).Holds ∧
      (storeTile s th w i slot x).Holds

/-! ## The memory-semantic fabric (R188, R269–R288) -/

namespace Sys2Proof.Claims

/-- MACsec passes a frame (R128, R139): its association is installed, it lies in the replay window, and its packet number is not the last. -/
def secOk (s : State) (n : Nat) (w : Wire) : Bool :=
  match w.sec with
  | none => false
  | some t => t.icvOk && (portOf s n).rxSas.contains t.an.val && t.pn.toNat < lastPn &&
      tget 0 (portOf s n).rxPn t.an.val ≤ t.pn.toNat + fieldOf s (rPort n 0x38) 16 32

/-- A frame of `len` bytes passes checks 1 to 4 of R128 at port `n`: its class is tagged or not, and bypasses MACsec or not. -/
abbrev Passes (s : State) (n len : Nat) (w : Wire) (mustTag clear : Bool) : Prop :=
  hears s n = true ∧ w.fcsOk = true ∧ len ≤ 9216 ∧ tagOk s n w mustTag = true ∧ (clear = true ∨ secOk s n w = true)

/-- The packet number of a frame is the highest of its association, or below it (R139). -/
def pnSeen (d : Port) (w : Wire) : Port :=
  match w.sec with
  | none => d
  | some t => { d with rxPn := tput 0 d.rxPn t.an.val (max (tget 0 d.rxPn t.an.val) (t.pn.toNat + 1)) }

/-- A port whose receive buffer has given up what the frame says, and has taken `len` bytes of virtual channel `v` (R137). -/
def buffered (d : Port) (v len : Nat) (w : Wire) : Port :=
  let u := afterDrain d.rxUsed w.drained
  { d with rxUsed := tput 0 u v (tget 0 u v + len) }

/-- The receive buffer takes the frame without an XOFF (R137, R138). -/
def roomFor (s : State) (n v len : Nat) (w : Wire) : Bool :=
  let s' := s.setPort n { portOf s n with rxUsed := afterDrain (portOf s n).rxUsed w.drained }
  (!pfcEn s n v || 9216 ≤ sharedFree s' n || (portOf s n).xoff.contains v) && rxRoom s' n v len

/-- The port of a frame of virtual channel `v` that it has taken. -/
abbrev tookPort (s : State) (n v len : Nat) (w : Wire) : Port := buffered (pnSeen (portOf s n) w) v len w

/-- A port has taken a frame. -/
abbrev tookFrame (s : State) (n v len : Nat) (w : Wire) : State := s.setPort n (tookPort s n v len w)

/-- An OXT frame of one of some priorities meets every check of R128 at its port. -/
abbrev Heard (s : State) (f : Sys2Proof.Frame) (pcps : List Nat) : Prop :=
  Passes s f.port (frameLen f) f.wire true false ∧ udpKnown s f.wire (oxtPort s) pcps = true ∧
    roomFor s f.port f.pcp (frameLen f) f.wire = true

/-- The state once its port has taken an OXT frame, but for the counters. -/
abbrev heard (s : State) (f : Sys2Proof.Frame) : State := tookFrame s f.port f.pcp (frameLen f) f.wire

/-- An OXT frame of a TYPE on a priority that meets the receive checks of R128 and the generation check of R300. -/
abbrev FrameTaken (s : State) (f : Sys2Proof.Frame) (typ pcp : Nat) (ack : Bool) : Prop :=
  oxtIs typ f = true ∧ f.pcp.val = pcp ∧ Heard s f [pcp] ∧ jobCurrent s f.part f.jobGen.toNat ack = true ∧ Canon s

/-- The counters of a received frame (R143): frames and bytes of the port, corrected and uncorrectable codewords. -/
def portRxRegs (n : Nat) : List Nat := [rPort n 0x110, rPort n 0x118, rPort n 0x120, rPort n 0x128]

/-- They and the frames of its virtual channel. -/
def rxRegs (n v : Nat) : List Nat := rVc n v 8 :: portRxRegs n

/-- A frame of `len` bytes has been accepted at port `n`, with the codewords that came since the one before (R143). -/
abbrev PortRx (s t : State) (n len : Nat) (w : Wire) : Prop :=
  regOf t (rPort n 0x110) = regOf s (rPort n 0x110) + 1 ∧ regOf t (rPort n 0x118) = regOf s (rPort n 0x118) + BitVec.ofNat 64 len ∧
    regOf t (rPort n 0x120) = regOf s (rPort n 0x120) + BitVec.ofNat 64 w.corr.toNat ∧
    fieldOf t (rPort n 0x128) 0 32 = min 0xFFFFFFFF (fieldOf s (rPort n 0x128) 0 32 + w.uncorr.toNat) ∧
    fieldOf t (rPort n 0x128) 32 32 = fieldOf s (rPort n 0x128) 32 32

/-- They count one OXT frame. -/
abbrev RxCounted (s t : State) (f : Sys2Proof.Frame) : Prop :=
  PortRx s t f.port (frameLen f) f.wire ∧ regOf t (rVc f.port f.pcp 8) = regOf s (rVc f.port f.pcp 8) + 1

/-- Only one port has changed. -/
abbrev PortSet (s t : State) (n : Nat) (d : Port) : Prop := portOf t n = d ∧ (∀ k, k ≠ n → portOf t k = portOf s k)

/-- One frame of `len` bytes has left the port with its headers (R123, R124, R143). -/
abbrev Sent (s t : State) (n : Nat) (vc : Option Nat) (len : Nat) (m : Msg) : Prop :=
  regOf t (rPort n 0x100) = regOf s (rPort n 0x100) + 1 ∧ regOf t (rPort n 0x108) = regOf s (rPort n 0x108) + BitVec.ofNat 64 len ∧
    t.out = s.out ++ [.frame n (txHdr s n vc m) m]

/-- The registers it changes. -/
def txRegs (n : Nat) : List Nat := [rPort n 0x100, rPort n 0x108]

/-- A frame has been counted and is in its port's receive buffer, and no other port has changed. -/
abbrev RxTaken (s t : State) (f : Sys2Proof.Frame) : Prop :=
  RxCounted s t f ∧ PortSet s t f.port (tookPort s f.port f.pcp (frameLen f) f.wire)

/-- A port's transmit queue has one frame more, and nothing else of any port has changed. -/
abbrev Queued (s t : State) (n vc : Nat) (x : Oxt) : Prop :=
  PortSet s t n { portOf s n with txq := (portOf s n).txq ++ [{ vc, len := oxtLen x, msg := .oxt x }] }

/-- The FAB_RSP to a request frame (R276). -/
def rspTo (s : State) (f : Sys2Proof.Frame) (status : Nat) (nocache : Bool) (data : List Byte) : Oxt :=
  { typ := 9, dst := f.srcNode.toNat, jobGen := jobGen s f.part, part := f.part, psn := f.psn.toNat,
    payload := natBytes 1 status ++ natBytes 1 (if nocache then 1 else 0) ++ beBytes 2 data.length ++ [0, 0, 0, 0] ++ data }

/-- A request that its home serves at once: permitted, well formed, nothing else in its way (R269, R275, R276, R280). -/
abbrev Served (s : State) (f : Sys2Proof.Frame) : Prop :=
  FrameTaken s f 8 4 false ∧ belongs s f.part (homeOf f).1.off (homeOf f).1.len = true ∧ homeFormOk (homeOf f).1 (homeOf f).2 = true ∧
    s.fab.homeOps = [] ∧ s.fab.moves = [] ∧ s.fab.dir = [] ∧ s.fab.rsp = [] ∧ fieldOf s 0x300038 23 29 ≠ 0 ∧ CleanMem s

/-- A LOAD that is not coherent is answered with the bytes of its range (R275, R276). -/
abbrev fabReqLoad (s : State) (f : Sys2Proof.Frame) : Clause :=
  let h := (homeOf f).1
  ⟨Served s f ∧ pb f 0 = 0 ∧ h.coh = false,
    Answers (.fabReqLoad f) s (fun t => RxCounted s t f ∧ Queued (heard s f) t f.port 4 (rspTo s f 0 true (memBytes s h.off h.len)) ∧
      regOf t 0x321000 = regOf s 0x321000 + 1 ∧ RegsBut s t (rxRegs f.port 4 ++ [0x321000]) ∧ OnlyChanges s t [.regs, .ports])⟩

/-- A LOAD of the GiB of an interleaved tier 3 that the wipe comes to next is held until it is wiped, and answered with zeros (R258). -/
abbrev fabReqLoadWiped (s : State) (f : Sys2Proof.Frame) (k : Nat) : Clause :=
  let h := (homeOf f).1
  let a := 4 * 2 ^ 40 + k * 2 ^ 30
  ⟨FrameTaken s f 8 4 false ∧ belongs s f.part h.off h.len = true ∧ homeFormOk h (homeOf f).2 = true ∧ pb f 0 = 0 ∧ h.coh = false ∧
      tierOf h.off = .t3 ∧ a ≤ h.off ∧ h.off + h.len ≤ a + 2 ^ 30 ∧ s.mem2.t3Next = some k ∧ s.mem2.t3Part = [] ∧ s.mem2.interleave = true ∧
      s.mem2.poison = [] ∧ s.mem2.ue = [] ∧ s.mem2.cxlFailed = [] ∧ s.fab.homeOps = [] ∧ s.fab.moves = [] ∧ s.fab.dir = [] ∧
      (∀ e ∈ s.threads, e.2.wait ≠ .t3 k),
    Answers (.fabReqLoad f) s (fun t => RxCounted s t f ∧ Queued (heard s f) t f.port 4 (rspTo s f 0 true (List.replicate h.len 0)) ∧
      (∀ x, a ≤ x → x < a + 2 ^ 30 → memAt t x = 0) ∧ MemBut s t a (2 ^ 30) ∧ t.mem2 = { s.mem2 with t3Next := nextT3 s (k + 1) } ∧
      RegsBut s t (rxRegs f.port 4 ++ [0x321000, 0x200020, 0x200028, 0x200030, 0x200038]) ∧
      OnlyChanges s t [.regs, .ports, .mem, .mem2, .nv])⟩

/-- A LOAD or STORE that meets a failed CXL port is an uncorrectable error at the network die, and is refused (R258, R275). -/
abbrev fabReqDead (s : State) (f : Sys2Proof.Frame) (c : Instr) (x : Nat) : Clause :=
  let h := (homeOf f).1
  let p := f.port.val
  ⟨FrameTaken s f 8 4 false ∧ belongs s f.part h.off h.len = true ∧ homeFormOk h (homeOf f).2 = true ∧ h.coh = false ∧
      ((c = .fabReqLoad f ∧ pb f 0 = 0) ∨ (c = .fabReqStore f ∧ pb f 0 = 1)) ∧ t3Dead s h.off h.len = some x ∧ s.mem2.t3Next = none ∧
      s.mem2.t3Part = [] ∧ s.mem2.poison = [] ∧ s.mem2.ue = [] ∧ s.fab.homeOps = [] ∧ s.fab.moves = [] ∧ s.fab.dir = [] ∧ s.fab.rsp = [] ∧
      fieldOf s 0x300038 23 29 ≠ 0,
    Answers c s (fun t => RxCounted s t f ∧ Queued (heard s f) t f.port 4 (rspTo s f 1 true []) ∧
      Reported s t 0x2002 2 (ndOf p) (p % 8) (some f.part.val) x 0 ∧ fieldOf t 0x321010 0 32 = min 0xFFFFFFFF (fieldOf s 0x321010 0 32 + 1) ∧
      RegsBut s t (0x321010 :: rxRegs f.port 4 ++ errSrc (ndOf p)) ∧ OnlyChanges s t [.regs, .ports, .err])⟩

/-- A STORE writes its bytes, is answered, and its answer is kept (R275, R276, R284). -/
abbrev fabReqStore (s : State) (f : Sys2Proof.Frame) : Clause :=
  let h := (homeOf f).1
  ⟨Served s f ∧ pb f 0 = 1,
    Answers (.fabReqStore f) s (fun t => RxCounted s t f ∧ Queued (heard s f) t f.port 4 (rspTo s f 0 true []) ∧
      memBytes t h.off h.len = h.data.take h.len ∧ MemBut s t h.off h.len ∧
      t.fab = { s.fab with rsp := [{ src := f.srcNode.toNat, id := f.psn.toNat, performedAt := s.time.now, status := 0, data := [] }] } ∧
      RegsBut s t (rxRegs f.port 4 ++ [0x321000]) ∧ OnlyChanges s t [.regs, .ports, .mem, .fab])⟩

/-- An ATOMIC replaces its word by the operation's result and is answered with the old word (R188, R276, R284). -/
abbrev fabReqAtomic (s : State) (f : Sys2Proof.Frame) : Clause :=
  let h := (homeOf f).1
  let old := memNat s h.off h.len
  ⟨Served s f ∧ pb f 0 = 2,
    Answers (.fabReqAtomic f) s (fun t => RxCounted s t f ∧ Queued (heard s f) t f.port 4 (rspTo s f 0 true (natBytes h.len old)) ∧
      memNat t h.off h.len =
        atomNew h.atomOp (8 * h.len) old (leNat (h.data.take h.len)) (leNat ((h.data.drop h.len).take h.len)) % 2 ^ (8 * h.len) ∧
      MemBut s t h.off h.len ∧ RegsBut s t (rxRegs f.port 4 ++ [0x321000]) ∧ OnlyChanges s t [.regs, .ports, .mem, .fab])⟩

/-- A request that the home does not permit is answered with status 1 and counted, and changes no memory (R275). -/
abbrev fabReqRefused (s : State) (f : Sys2Proof.Frame) : Clause :=
  ⟨FrameTaken s f 8 4 false ∧ (belongs s f.part (homeOf f).1.off (homeOf f).1.len = false ∨ homeFormOk (homeOf f).1 (homeOf f).2 = false) ∧
      pb f 0 = 0 ∧ s.fab.moves = [],
    Answers (.fabReqLoad f) s (fun t => RxCounted s t f ∧ Queued (heard s f) t f.port 4 (rspTo s f 1 true []) ∧
      fieldOf t 0x321010 0 32 = min 0xFFFFFFFF (fieldOf s 0x321010 0 32 + 1) ∧ RegsBut s t (rxRegs f.port 4 ++ [0x321010]) ∧
      OnlyChanges s t [.regs, .ports])⟩

/-- An INVAL drops this device's copies of its line and is acknowledged (R280, R281). -/
abbrev fabReqInval (s : State) (f : Sys2Proof.Frame) : Clause :=
  let line := (homeOf f).1.off / 128
  ⟨FrameTaken s f 8 4 false ∧ pb f 0 = 3 ∧ s.fab.moves = [],
    Answers (.fabReqInval f) s (fun t => RxCounted s t f ∧ Queued (heard s f) t f.port 4 (rspTo s f 0 true []) ∧
      (∀ x ∈ t.fab.lines, ¬ (x.node = f.srcNode.toNat ∧ x.line = line)) ∧
      (∀ x ∈ s.fab.lines, ¬ (x.node = f.srcNode.toNat ∧ x.line = line) → x ∈ t.fab.lines) ∧
      (∀ r ∈ t.fab.reqs, r.coh = true → r.op = 0 → r.node = f.srcNode.toNat → r.off / 128 = line → r.crossed = true) ∧
      RegsBut s t (rxRegs f.port 4 ++ [0x321000]) ∧ OnlyChanges s t [.regs, .ports, .fab])⟩

/-- A PING of a member that owes no acknowledgement is answered (R282). -/
abbrev fabReqPing (s : State) (f : Sys2Proof.Frame) : Clause :=
  ⟨FrameTaken s f 8 4 false ∧ pb f 0 = 4 ∧ s.fab.homeOps = [] ∧ s.fab.moves = [],
    Answers (.fabReqPing f) s (fun t => RxCounted s t f ∧ Queued (heard s f) t f.port 4 (rspTo s f 0 true []) ∧ RegsBut s t (rxRegs f.port 4 ++ [0x321000]) ∧
      OnlyChanges s t [.regs, .ports])⟩

/-- A response with status 0 to the load a thread waits for: its registers take the data, the request is over and the thread may wake (R276–R278). -/
abbrev fabRspRx (s : State) (f : Sys2Proof.Frame) (r : FabReq) (w : Cmd) : Clause :=
  let d := (f.payload.drop 8).take r.len
  ⟨FrameTaken s f 9 4 true ∧ pb f 0 = 0 ∧ s.fab.reqs = [r] ∧ r.id = f.psn.toNat ∧ r.port.isSome = true ∧ r.op = 0 ∧ r.coh = false ∧ r.rack = none ∧
      s.fab.moves = [] ∧ (threadOf s r.thread).cur = some w ∧ hSig w = false ∧ NoGrant s (.sync r.thread) ∧
      (∀ e ∈ s.threads, e.2.wait ≠ .fabRoom),
    Answers (.fabRspRx f) s (fun t => RxTaken s t f ∧ t.fab = { s.fab with reqs := [] } ∧
      threadOf t r.thread = moveOn none { putRegs r.dstG d (threadOf s r.thread) with wait := .met } ∧
      (∀ k, k ≠ r.thread → threadOf t k = threadOf s k) ∧
      regOf t (rFab r.part 8) = regOf s (rFab r.part 8) + BitVec.ofNat 64 r.len ∧
      RegsBut s t (rxRegs f.port 4 ++ [rFab r.part 8]) ∧ OnlyChanges s t [.regs, .ports, .fab, .threads])⟩

/-- A response that answers nothing is counted (R284). -/
abbrev fabRspStray (s : State) (f : Sys2Proof.Frame) : Clause :=
  ⟨FrameTaken s f 9 4 true ∧ s.fab.reqs = [] ∧ s.fab.homeOps = [] ∧ s.fab.moves = [],
    Answers (.fabRspRx f) s (fun t => RxTaken s t f ∧
      fieldOf t (rFab f.part 0x28) 32 32 = min 0xFFFFFFFF (fieldOf s (rFab f.part 0x28) 32 32 + 1) ∧
      RegsBut s t (rxRegs f.port 4 ++ [rFab f.part 0x28]) ∧ OnlyChanges s t [.regs, .ports])⟩

end Sys2Proof.Claims

open Sys2Proof.Claims in
/-- Requests of other devices at their home, and responses: what is answered, what memory holds, what stays. -/
def Obligations.FabricFrames : Prop :=
  ∀ (s : State) (f : Sys2Proof.Frame) (r : FabReq) (w : Cmd) (k x : Nat) (c : Instr),
    (fabReqLoad s f).Holds ∧ (fabReqLoadWiped s f k).Holds ∧ (fabReqDead s f c x).Holds ∧ (fabReqStore s f).Holds ∧ (fabReqAtomic s f).Holds ∧ (fabReqRefused s f).Holds ∧
      (fabReqInval s f).Holds ∧ (fabReqPing s f).Holds ∧ (fabRspRx s f r w).Holds ∧ (fabRspStray s f).Holds

namespace Sys2Proof.Claims

/-- A load whose thread has waited LOAD_TO_US since it was sent fails: FABRIC_TIMEOUT, the error value in its registers and p7 set (R285). -/
abbrev fabTimeout (s : State) (id : BitVec 32) (r : FabReq) (n : Nat) (w : Cmd) : Clause :=
  ⟨s.fab.reqs = [r] ∧ r.id = id.toNat ∧ r.port = some n ∧ r.op = 0 ∧ r.rack = none ∧ s.fab.moves = [] ∧
      r.sentAt + loadToNs s ≤ s.time.now ∧ (threadOf s r.thread).cur = some w ∧ hSig w = false ∧ NoGrant s (.sync r.thread) ∧
      (∀ e ∈ s.threads, e.2.wait ≠ .fabRoom) ∧ Canon s,
    Answers (.fabTimeout id) s (fun t => t.fab = { s.fab with reqs := [] } ∧
      threadOf t r.thread = moveOn none { putError r.dstG r.len (threadOf s r.thread) with wait := .met } ∧
      Reported s t 0x3001 2 (ndOf n) (n % 8) (some r.part) (r.node <<< 48 ||| r.off) 0 ∧
      fieldOf t (rFab r.part 0x18) 32 32 = min 0xFFFFFFFF (fieldOf s (rFab r.part 0x18) 32 32 + 1) ∧
      RegsBut s t (rFab r.part 0x18 :: errSrc (ndOf n)) ∧ OnlyChanges s t [.regs, .fab, .threads, .err])⟩

/-- A request without an answer is sent again, with TRIES one higher, on the port that R283 picks (R284). -/
abbrev fabRetxTimer (s : State) (id : BitVec 32) (r : FabReq) (n src : Nat) : Clause :=
  ⟨s.fab.reqs = [r] ∧ r.id = id.toNat ∧ r.port.isSome = true ∧ r.lastSent + retxNs s ≤ s.time.now ∧ netNode s ≠ 0xFFFF ∧
      fabRoute s r.node r.off r.id (r.tries + 1) = some (n, src) ∧ Canon s,
    Answers (.fabRetxTimer id) s (fun t =>
      Queued s t n 4 { typ := 8, dst := r.node, jobGen := jobGen s r.part, part := r.part, psn := r.id, udpSrc := some src,
                       payload := fabSub r.op r.size (r.tries + 1) r.coh r.atomOp r.off (if r.size = 7 then r.len else 0) ++ r.data } ∧
      t.fab = { s.fab with reqs := [{ r with port := some n, tries := r.tries + 1, lastSent := s.time.now }] } ∧
      RegsBut s t [rFab r.part 0x18] ∧ OnlyChanges s t [.regs, .fab, .ports])⟩

/-- An INVAL that is not acknowledged goes to its member again, for its line, with TRIES one higher (R281, R284). -/
abbrev fabInvalRetx (s : State) (id : BitVec 32) (o : HomeOp) (w : Inval) (n src : Nat) : Clause :=
  let node := s.fab.domain.getD w.member 0
  ⟨s.fab.reqs = [] ∧ s.fab.homeOps = [o] ∧ o.waitFor = [w] ∧ w.id = id.toNat ∧ w.lastSent + retxNs s ≤ s.time.now ∧ netNode s ≠ 0xFFFF ∧
      fabRoute s node (128 * w.line) w.id (w.tries + 1) = some (n, src) ∧ Canon s,
    Answers (.fabRetxTimer id) s (fun t =>
      Queued s t n 4 { typ := 8, dst := node, jobGen := jobGen s o.part, part := o.part, psn := w.id, udpSrc := some src,
                       payload := fabSub 3 0 (w.tries + 1) false 0 (128 * w.line) 0 } ∧
      t.fab = { s.fab with homeOps := [{ o with waitFor := [{ w with tries := w.tries + 1, lastSent := s.time.now }] }] } ∧
      fieldOf t (rFab o.part 0x18) 0 32 = min 0xFFFFFFFF (fieldOf s (rFab o.part 0x18) 0 32 + 1) ∧
      RegsBut s t [rFab o.part 0x18] ∧ OnlyChanges s t [.regs, .fab, .ports])⟩

/-- FAB_PING_TIMER sends a PING to the one other live member of the domain (R282). -/
abbrev fabPingTimer (s : State) (node n src : Nat) : Clause :=
  let id := s.fab.nextId.toNat
  ⟨domainOn s = true ∧ s.fab.domain = [netNode s, node] ∧ memberLive s 0 = true ∧ memberLive s 1 = true ∧ node ≠ netNode s ∧
      netNode s ≠ 0xFFFF ∧ s.fab.pingAt = [] ∧ s.fab.reqs = [] ∧ fabRoute s node 0 id 0 = some (n, src) ∧ Canon s,
    Answers .fabPingTimer s (fun t =>
      Queued s t n 4 { typ := 8, dst := node, jobGen := jobGen s 0, part := 0, psn := id, udpSrc := some src,
                       payload := fabSub 4 0 0 false 0 0 0 } ∧
      t.fab = { s.fab with nextId := s.fab.nextId + 1, pingAt := tput 0 [] 1 s.time.now,
                           reqs := [{ id, part := 0, thread := 0, op := 4, node, off := 0, port := some n, sentAt := s.time.now,
                                      lastSent := s.time.now }] } ∧
      OnlyChanges s t [.fab, .ports])⟩

/-- A lease that runs out takes this device's copies of its member's lines with it (R282). -/
abbrev fabLeaseExpiry (s : State) (j : Fin 8) : Clause :=
  ⟨tget 0 s.fab.lease j ≠ 0 ∧ tget 0 s.fab.lease j ≤ s.time.now ∧ Canon s,
    Answers (.fabLeaseExpiry j) s (fun t =>
      t.fab = { s.fab with lease := tput 0 s.fab.lease j 0, lines := s.fab.lines.filter (fun x => some x.node != s.fab.domain[j.val]?) } ∧
      fieldOf t 0x321010 32 32 = min 0xFFFFFFFF (fieldOf s 0x321010 32 32 + 1) ∧ RegsBut s t [0x321010] ∧ OnlyChanges s t [.regs, .fab])⟩

/-- A member that has not acknowledged an INVAL of a local write for LOAD_TO_US is no longer live; the write no longer waits for it, and
DOMAIN_LOST is reported (R282). -/
abbrev fabInvalTimeout (s : State) (id : BitVec 32) (o : HomeOp) (j line tries sent : Nat) : Clause :=
  ⟨s.fab.homeOps = [o] ∧ o.op = 5 ∧ o.started = true ∧ o.port = none ∧
      o.waitFor = [{ member := j, id := id.toNat, line, tries, lastSent := sent }] ∧ j < 8 ∧ s.fab.moves = [] ∧
      o.sentAt + loadToNs s ≤ s.time.now ∧ Canon s,
    Answers (.fabInvalTimeout id) s (fun t => fieldOf t 0x300028 j 1 = 0 ∧ t.fab.homeOps = [] ∧
      (∀ e ∈ t.fab.dir, e.2.getLsbD j = false) ∧ Reported s t 0x3003 1 36 0 (some o.part) o.off 0 ∧
      RegsBut s t ([0x300028, 0x321018] ++ errSrc 36) ∧ OnlyChanges s t [.regs, .fab, .err])⟩

/-- The oldest kept response leaves the response cache after LOAD_TO_US (R284). -/
abbrev fabRspCacheExpiry (s : State) (e : RspEntry) (rest : List RspEntry) : Clause :=
  ⟨s.fab.rsp = e :: rest,
    Answers .fabRspCacheExpiry s (fun t => t.fab = { s.fab with rsp := rest } ∧
      t.time.now = max s.time.now (e.performedAt + loadToNs s) ∧ OnlyChanges s t [.time, .fab])⟩

/-- FAB_DOMAIN.GO makes the staged list pending (R279, R287). -/
abbrev fabDomainGo (s : State) (w : Wr) : Clause :=
  ⟨ByOwner s w.path ∧ wrBits w 7 1 = 1 ∧ Canon s,
    Answers (.fabDomainGo w) s (fun t => t.fab = { s.fab with goPending := true } ∧ fieldOf t 0x300010 8 2 = 1 ∧
      RegsBut s t [0x300010] ∧ OnlyChanges s t [.regs, .fab])⟩

/-- Once no coherent request is out, the staged list is the domain, every member is live, and leases and copies are gone; a list whose own entry is
not this device leaves the domain as it was (R279, R287). -/
abbrev fabDomainCommit (s : State) : Clause :=
  ⟨s.fab.goPending = true ∧ s.fab.reqs = [] ∧ (stagedDomain s)[fieldOf s 0x300010 4 3]? = some (netNode s) ∧ Canon s,
    Answers .fabDomainCommit s (fun t =>
      t.fab = { s.fab with goPending := false, lines := [], domain := stagedDomain s, lease := [], pingAt := [] } ∧
      (∀ j, j < (stagedDomain s).length → memberLive t j = true) ∧ fieldOf t 0x300010 8 2 = 2 ∧ RegsBut s t [0x300010, 0x300028] ∧
      OnlyChanges s t [.regs, .fab])⟩

/-- A domain that does not name this device in the place SELF gives is not committed: STATE shows FAILED (R279). -/
abbrev fabDomainRefused (s : State) : Clause :=
  ⟨s.fab.goPending = true ∧ s.fab.reqs = [] ∧ (stagedDomain s)[fieldOf s 0x300010 4 3]? ≠ some (netNode s) ∧ Canon s,
    Answers .fabDomainCommit s (fun t => t.fab = { s.fab with goPending := false } ∧ fieldOf t 0x300010 8 2 = 3 ∧
      RegsBut s t [0x300010] ∧ OnlyChanges s t [.regs, .fab])⟩

end Sys2Proof.Claims

open Sys2Proof.Claims in
/-- The timers of the fabric and the coherence domain. -/
def Obligations.FabricTimersAndDomain : Prop :=
  ∀ (s : State) (id : BitVec 32) (r : FabReq) (n src node j line tries sent : Nat) (w : Cmd) (m : Fin 8) (o : HomeOp) (e : RspEntry) (rest : List RspEntry)
    (v : Wr) (y : Inval),
    (fabTimeout s id r n w).Holds ∧ (fabRetxTimer s id r n src).Holds ∧ (fabInvalRetx s id o y n src).Holds ∧
      (fabPingTimer s node n src).Holds ∧ (fabLeaseExpiry s m).Holds ∧
      (fabInvalTimeout s id o j line tries sent).Holds ∧ (fabRspCacheExpiry s e rest).Holds ∧ (fabDomainGo s v).Holds ∧ (fabDomainCommit s).Holds ∧
      (fabDomainRefused s).Holds

namespace Sys2Proof.Claims

/-- A fabric command of a thread whose target is this device's own memory, in form and permitted, nothing else under way (R188, R269, R273). -/
abbrev OwnTarget (s : State) (th : Thr) (w : Cmd) (i : Iss) (a off n op : Nat) : Prop :=
  Plain s th w i ∧ a = netNode s * 2 ^ 48 + off ∧ off < 2 ^ 48 ∧ netNode s ≠ 0xFFFF ∧ off % n = 0 ∧ fatOk s i.p (netNode s) off n op = true ∧
    tierOf off ≠ .rack ∧ belongs s i.p off n = true ∧ fabRegionOk off op = true ∧ t3Busy s off = false ∧ s.fab.homeOps = [] ∧
    s.fab.reqs = [] ∧ s.fab.dir = [] ∧ (∀ e ∈ s.threads, e.2.wait ≠ .fabRoom) ∧ CleanMem s ∧ Canon s

/-- FAB_LD of this device's own memory: the registers take the bytes, zero-extended (R188). -/
abbrev fabLdOwn (s : State) (th : Thr) (w : Cmd) (i : Iss) (off : Nat) : Clause :=
  let n := 2 ^ cf w 5 0 3
  ⟨OwnTarget s th w i (cf w 8 0 64) off n 0 ∧ opIs 0x13 w = true ∧ cf w 6 0 1 = 0 ∧ cf w 5 0 3 ≤ 6 ∧ cb w 4 + regCount n ≤ 32 ∧
      cb w 4 % regCount n = 0,
    Answers (.fabLd th w) s (fun t => t.threads = (s.moved i none (fun t =>
        { putRegs (cb w 4) (memBytes s off n) t with st := .waiting, wait := .met, since := s.time.now })).threads ∧
      t.fab = { s.fab with nextId := s.fab.nextId + 1 } ∧ regOf t (rFab i.p 0) = regOf s (rFab i.p 0) + 1 ∧
      regOf t (rFab i.p 8) = regOf s (rFab i.p 8) + BitVec.ofNat 64 n ∧ RegsBut s t [rFab i.p 0, rFab i.p 8] ∧
      OnlyChanges s t [.threads, .regs, .fab])⟩

/-- FAB_LD of another device: the request frame is queued and the thread waits for its response (R276–R278, R283). -/
abbrev fabLdFar (s : State) (th : Thr) (w : Cmd) (i : Iss) (node off port src : Nat) : Clause :=
  let n := 2 ^ cf w 5 0 3
  let id := s.fab.nextId.toNat
  ⟨Plain s th w i ∧ opIs 0x13 w = true ∧ cf w 6 0 1 = 0 ∧ cf w 5 0 3 ≤ 6 ∧ cb w 4 + regCount n ≤ 32 ∧ cb w 4 % regCount n = 0 ∧
      cf w 8 0 64 = node * 2 ^ 48 + off ∧ off < 2 ^ 48 ∧ node ≠ 0xFFFF ∧ node ≠ netNode s ∧ netNode s ≠ 0xFFFF ∧ off % n = 0 ∧
      fatOk s i.p node off n 0 = true ∧ domainOn s = false ∧ s.fab.reqs = [] ∧ fabRoute s node off id 0 = some (port, src) ∧ Canon s,
    Answers (.fabLd th w) s (fun t => t.threads = (waiting s i (.fab id)).threads ∧
      Queued s t port 4 { typ := 8, dst := node, jobGen := jobGen s i.p, part := i.p, psn := id, udpSrc := some src,
                          payload := fabSub 0 (cf w 5 0 3) 0 false 0 off 0 } ∧
      t.fab = { s.fab with nextId := s.fab.nextId + 1,
                           reqs := [{ id, part := i.p, thread := i.key, op := 0, node, off, size := cf w 5 0 3, len := n, dstG := cb w 4,
                                      port := some port, sentAt := s.time.now, lastSent := s.time.now }] } ∧
      RegsBut s t [rFab i.p 0] ∧ OnlyChanges s t [.threads, .regs, .fab, .ports])⟩

/-- FAB_ST to this device's own memory writes its registers' bytes; the thread gives its issue slot away (R168, R188). -/
abbrev fabStOwn (s : State) (th : Thr) (w : Cmd) (i : Iss) (off slot : Nat) : Clause :=
  let n := 2 ^ cf w 5 0 3
  ⟨OwnTarget s th w i (cf w 8 0 64) off n 1 ∧ opIs 0x14 w = true ∧ cf w 6 0 1 = 0 ∧ cf w 5 0 3 ≤ 6 ∧ cb w 4 + regCount n ≤ 32 ∧
      cb w 4 % regCount n = 0 ∧ freeSlot (threadOf s i.key) = some slot ∧ engineFree s i = true,
    Answers (.fabSt th w) s (fun t => memBytes t off n = getRegs (cb w 4) n (threadOf s i.key) ∧ MemBut s t off n ∧
      t.threads = (s.moved i none (fun t =>
        { asyncPut slot { w, phase := .done } t with st := .waiting, wait := .met })).threads ∧
      RegsBut s t [rFab i.p 0, rFab i.p 8] ∧ OnlyChanges s t [.threads, .mem, .regs, .fab])⟩

/-- FAB_ATOM on this device's own memory: the word takes the operation's result, the register the old word (R188). -/
abbrev fabAtomOwn (s : State) (th : Thr) (w : Cmd) (i : Iss) (off : Nat) : Clause :=
  let n := if cf w 5 4 1 = 0 then 4 else 8
  let g := threadOf s i.key
  ⟨OwnTarget s th w i (cf w 8 0 64) off n 2 ∧ opIs 0x15 w = true ∧ cf w 5 0 4 ≤ 9 ∧ cb w 4 ≤ 31 ∧ cb w 6 ≤ 31 ∧ cb w 7 ≤ 31,
    Answers (.fabAtom th w) s (fun t =>
      memNat t off n = atomNew (cf w 5 0 4) (8 * n) (memNat s off n) ((gOf g (cb w 6)).toNat % 2 ^ (8 * n))
        ((gOf g (cb w 7)).toNat % 2 ^ (8 * n)) % 2 ^ (8 * n) ∧ MemBut s t off n ∧
      t.threads = (s.moved i none (fun t =>
        { putRegs (cb w 4) (natBytes n (memNat s off n)) t with st := .waiting, wait := .met, since := s.time.now })).threads ∧
      RegsBut s t [rFab i.p 0, rFab i.p 8] ∧ OnlyChanges s t [.threads, .mem, .regs, .fab])⟩

/-- An access that no FAT entry permits faults the thread with cause 4 and is counted (R273, R288). -/
abbrev fabNotPermitted (s : State) (th : Thr) (w : Cmd) (i : Iss) : Clause :=
  let n := 2 ^ cf w 5 0 3
  let a := cf w 8 0 64
  ⟨Plain s th w i ∧ opIs 0x13 w = true ∧ cf w 6 0 1 = 0 ∧ cf w 5 0 3 ≤ 6 ∧ cb w 4 + regCount n ≤ 32 ∧ cb w 4 % regCount n = 0 ∧
      a / 2 ^ 48 ≠ 0xFFFF ∧ a % 2 ^ 48 % n = 0 ∧ fatOk s i.p (a / 2 ^ 48) (a % 2 ^ 48) n 0 = false ∧ Canon s,
    Answers (.fabLd th w) s (fun t => (threadOf t i.key).st = .faulted ∧ (threadOf t i.key).faultCause = 4 ∧
      fieldOf t (rFab i.p 0x20) 32 32 = min 0xFFFFFFFF (fieldOf s (rFab i.p 0x20) 32 32 + 1) ∧
      RegsBut s t (rFab i.p 0x20 :: errSrc (i.core / 64)) ∧ OnlyChanges s t [.threads, .regs, .err])⟩

end Sys2Proof.Claims

open Sys2Proof.Claims in
/-- FAB_LD, FAB_ST and FAB_ATOM of a thread. -/
def Obligations.FabricCommandsOfThreads : Prop :=
  ∀ (s : State) (th : Thr) (w : Cmd) (i : Iss) (node off port src slot : Nat),
    (fabLdOwn s th w i off).Holds ∧ (fabLdFar s th w i node off port src).Holds ∧ (fabStOwn s th w i off slot).Holds ∧
      (fabAtomOwn s th w i off).Holds ∧ (fabNotPermitted s th w i).Holds

/-! ## Memory tiers and fabric time (R29–R34, R248–R258, R372, R373, R415) -/

namespace Sys2Proof.Claims

/-- CXL_LINK_UP at x4 or wider on a module past its boot: the link is up, with its width and capacity (R256). -/
abbrev cxlLinkUp (s : State) (n : Fin 4) (width : BitVec 5) (cap : BitVec 16) : Clause :=
  let r := 0x200020 + 8 * n.val
  ⟨4 ≤ width.toNat ∧ s.mod.phase ≠ .boot ∧ Canon s,
    Answers (.cxlLinkUp n width cap) s (fun t => fieldOf t r 0 1 = 1 ∧ fieldOf t r 1 5 = min 16 width.toNat ∧
      fieldOf t r 12 12 = min 2048 cap.toNat ∧ fieldOf t r 24 40 = fieldOf s r 24 40 ∧ RegsBut s t [r] ∧ OnlyChanges s t [.regs])⟩

/-- During the boot the capacity also goes into the decoded map (R257). -/
abbrev cxlLinkUpBoot (s : State) (n : Fin 4) (width : BitVec 5) (cap : BitVec 16) : Clause :=
  let caps := s.mem2.caps.set n (min 2048 cap.toNat)
  ⟨4 ≤ width.toNat ∧ s.mod.phase = .boot ∧ mappedGib s.mem2.interleave caps < 2 ^ 16 ∧ Canon s,
    Answers (.cxlLinkUp n width cap) s (fun t => t.mem2 = { s.mem2 with caps := caps } ∧ fieldOf t (0x200020 + 8 * n.val) 0 1 = 1 ∧
      fieldOf t 0x200018 0 16 = mappedGib s.mem2.interleave caps ∧ RegsBut s t [0x200020 + 8 * n.val, 0x200018] ∧
      OnlyChanges s t [.regs, .mem2])⟩

/-- A CXL link narrower than x4 stays down, and LINK_DOWN is reported (R256). -/
abbrev cxlLinkUpNarrow (s : State) (n : Fin 4) (width : BitVec 5) (cap : BitVec 16) : Clause :=
  ⟨width.toNat < 4 ∧ Canon s,
    Answers (.cxlLinkUp n width cap) s (fun t => fieldOf t (0x200020 + 8 * n.val) 0 6 = 0 ∧ Reported s t 0x4001 0 (92 + n.val) 1 none 0 0 ∧
      RegsBut s t ((0x200020 + 8 * n.val) :: errSrc (92 + n.val)) ∧ OnlyChanges s t [.regs, .err])⟩

/-- A CXL link that goes down after the boot takes its port's memory with it until the next cold reset (R258). -/
abbrev cxlLinkDown (s : State) (n : Fin 4) : Clause :=
  ⟨fieldOf s (0x200020 + 8 * n.val) 0 1 = 1 ∧ s.mod.phase ≠ .boot ∧ n.val ∉ s.mem2.cxlFailed ∧ Canon s,
    Answers (.cxlLinkDown n) s (fun t => t.mem2 = { s.mem2 with cxlFailed := s.mem2.cxlFailed ++ [n.val] } ∧
      fieldOf t (0x200020 + 8 * n.val) 0 6 = 0 ∧ Reported s t 0x4001 0 (92 + n.val) 1 none 0 0 ∧
      RegsBut s t ((0x200020 + 8 * n.val) :: errSrc (92 + n.val)) ∧ OnlyChanges s t [.regs, .err, .mem2])⟩

/-- T3_WIPE_CHUNK wipes the next GiB of an interleaved tier 3: every byte of it reads 0, every other byte reads as before (R258). -/
abbrev t3WipeChunk (s : State) (k : Nat) : Clause :=
  let a := 4 * 2 ^ 40 + k * 2 ^ 30
  ⟨s.mem2.t3Next = some k ∧ s.mem2.t3Part = [] ∧ s.mem2.interleave = true ∧ s.fab.dir = [] ∧ s.mem2.poison = [] ∧ s.mem2.ue = [] ∧
       (∀ e ∈ s.threads, e.2.wait ≠ .t3 k) ∧ Canon s,
    Answers .t3WipeChunk s (fun t => (∀ x, a ≤ x → x < a + 2 ^ 30 → memAt t x = 0) ∧ MemBut s t a (2 ^ 30) ∧
      t.mem2 = { s.mem2 with t3Next := nextT3 s (k + 1) } ∧
      t.nv = (if nextT3 s (k + 1) = none then { s.nv with wipeMark := none }
              else if (k + 1) % 64 = 0 then { s.nv with wipeMark := some (k + 1) } else s.nv) ∧
      (∀ n, n < 4 → fieldOf t (0x200020 + 8 * n) 32 16 = (k + 1) / 4 % 2 ^ 16) ∧
      RegsBut s t [0x200020, 0x200028, 0x200030, 0x200038] ∧ OnlyChanges s t [.mem, .mem2, .nv, .regs])⟩

/-- T3_WIPE_CHUNK of a torn-down job's tier-3 range of up to one GiB: every byte of it reads 0, every other byte reads as before (R258, R301). -/
abbrev t3WipeTornDown (s : State) (b n : Nat) : Clause :=
  ⟨s.mem2.t3Next = none ∧ s.mem2.t3Part = [(b, n)] ∧ 4 * 2 ^ 40 ≤ b ∧ b / 2 ^ 30 = (b + n - 1) / 2 ^ 30 ∧ 1 ≤ n ∧ s.fab.dir = [] ∧
      s.mem2.poison = [] ∧ s.mem2.ue = [] ∧ (∀ e ∈ s.threads, e.2.wait ≠ .t3 (t3Gib b)) ∧ Canon s,
    Answers .t3WipeChunk s (fun t => (∀ x, b ≤ x → x < b + n → memAt t x = 0) ∧ MemBut s t b n ∧ t.mem2 = { s.mem2 with t3Part := [] } ∧
      OnlyChanges s t [.mem, .mem2])⟩

/-- Recalibration of a tier changes no bits (R253). -/
abbrev tierRecalibration (s : State) (tier2 : Bool) (u : BitVec 10) : Clause :=
  ⟨True, exec (.tierRecalibration tier2 u) s = .next s⟩

/-- The patrol scrub: a clean word, or one outside the memories the device scrubs, changes nothing; a corrected error is reported; an uncorrectable
one poisons its 64 bytes and is reported (R372, R373). -/
abbrev patrolScrub (s : State) (a : BitVec 52) (r : ScrubResult) : Clause :=
  let src := memSource a.toNat
  ⟨a.toNat / 64 ∉ s.mem2.poison ∧ Canon s,
    Answers (.patrolScrub a r) s (fun t =>
      if scrubbed a.toNat = false ∨ r = .clean then t = s
      else RegsBut s t (errSrc src.1) ∧ OnlyChanges s t [.regs, .err, .mem2] ∧
        (r = .corrected → t.mem2 = s.mem2 ∧ Reported s t 0x2001 1 src.1 src.2 none a.toNat 0) ∧
        (r = .uncorrectable → a.toNat / 64 ∈ t.mem2.poison ∧ a.toNat / 64 ∉ t.mem2.ue ∧
          Reported s t 0x2002 2 src.1 src.2 none (64 * (a.toNat / 64)) 0))⟩

end Sys2Proof.Claims

open Sys2Proof.Claims in
/-- CXL links, the tier-3 wipe, recalibration and the patrol scrub. -/
def Obligations.MemoryTierEvents : Prop :=
  ∀ (s : State) (n : Fin 4) (width : BitVec 5) (cap : BitVec 16) (k : Nat) (b : Bool) (u : BitVec 10) (a : BitVec 52) (r : ScrubResult) (base len : Nat),
    (cxlLinkUp s n width cap).Holds ∧ (cxlLinkUpBoot s n width cap).Holds ∧ (cxlLinkUpNarrow s n width cap).Holds ∧
      (cxlLinkDown s n).Holds ∧ (t3WipeChunk s k).Holds ∧ (t3WipeTornDown s base len).Holds ∧ (tierRecalibration s b u).Holds ∧
      (patrolScrub s a r).Holds

namespace Sys2Proof.Claims

/-- A PTP message that bypasses MACsec (R139). -/
abbrev ptpClear (s : State) (n : Nat) (w : Wire) : Bool := fieldOf s (rPort n 0x38) 0 1 == 1 && w.sec.isNone

/-- A PTP event message meets the receive checks (R126, R128, R139). -/
abbrev PtpCame (s : State) (n : Nat) (w : Wire) : Prop := Passes s n 126 w false (ptpClear s n w) ∧ w.ext = false ∧ Canon s

/-- It has been counted, and no port has changed but for the packet number of the frame (R139, R143). -/
abbrev PtpTaken (s t : State) (n : Nat) (w : Wire) : Prop :=
  PortRx s t n 126 w ∧ PortSet s t n (if ptpClear s n w then portOf s n else pnSeen (portOf s n) w)

/-- It is a Sync of the port's domain and transport, on PTP_PORT with ROLE = 1 (R140). -/
abbrev PtpSync (s : State) (n : Nat) (dom : BitVec 8) (udp : Bool) : Prop :=
  s.time.running = true ∧ ptpPort s = n ∧ ptpRole s n = 1 ∧ ptpMine s n dom udp = true ∧ srcSel s ≤ 1 ∧ ftbSource s = 1

/-- A correction of FT that does not step it. -/
abbrev NoStep (s : State) (off : Int) : Prop := 0 ≤ off ∨ fieldOf s 0x060000 17 1 = 0

/-- A measurement within 20 ns of the source in use, corrected by ASYM_NS, locks the FTB with a bound of 20 ns and starts the slew towards the
source (R30, R33, R140; the sign of ASYM_NS is the model's, log entry 32). -/
abbrev ptpEventLocks (s : State) (n : Fin 64) (w : Wire) (dom : BitVec 8) (udp : Bool) (m : Int) : Clause :=
  let off := asymFixed s n m
  ⟨PtpCame s n w ∧ PtpSync s n dom udp ∧ (ftbState s = 1 ∨ ftbState s = 2) ∧ off.natAbs ≤ 20 * 65536 ∧ NoStep s off ∧ noneDue s = [],
    Answers (.ptpEventRx ⟨⟨n, w⟩, dom, udp⟩ (.sync m)) s (fun t => ftbState t = 2 ∧ ftbSource t = 1 ∧ fieldOf t 0x060008 16 16 = 20 ∧
      t.time = { s.time with ptpUp := true, holdFrom := none, unlocked := false, slew := off
                             grown := match s.time.holdFrom with
                               | some from_ => grownNow s from_
                               | none => s.time.grown } ∧
      PtpTaken s t n w ∧ RegsBut s t (0x060008 :: portRxRegs n) ∧ OnlyChanges s t [.regs, .ports, .time])⟩

/-- Beyond 20 ns the FTB acquires (R33). -/
abbrev ptpEventAcquires (s : State) (n : Fin 64) (w : Wire) (dom : BitVec 8) (udp : Bool) (m : Int) : Clause :=
  let off := asymFixed s n m
  ⟨PtpCame s n w ∧ PtpSync s n dom udp ∧ ftbState s = 1 ∧ 20 * 65536 < off.natAbs ∧ NoStep s off ∧ s.time.holdFrom = none ∧ noneDue s = [],
    Answers (.ptpEventRx ⟨⟨n, w⟩, dom, udp⟩ (.sync m)) s (fun t => ftbState t = 1 ∧ fieldOf t 0x060008 16 16 = fieldOf s 0x060008 16 16 ∧
      t.time = { s.time with ptpUp := true, slew := off } ∧ PtpTaken s t n w ∧ RegsBut s t (0x060008 :: portRxRegs n) ∧
      OnlyChanges s t [.regs, .ports, .time])⟩

/-- With STEP_EN, an FT behind its source steps forward by the whole offset; no armed entry lies in the time skipped (R30, R31). -/
abbrev ptpEventSteps (s : State) (n : Fin 64) (w : Wire) (dom : BitVec 8) (udp : Bool) (m : Int) : Clause :=
  let off := asymFixed s n m
  let t1 := { s.time with ptpUp := true, ft := BitVec.ofNat 80 (s.time.ft.toNat + off.natAbs), slew := 0 }
  ⟨PtpCame s n w ∧ PtpSync s n dom udp ∧ ftbState s = 1 ∧ off < 0 ∧ 20 * 65536 < off.natAbs ∧ fieldOf s 0x060000 17 1 = 1 ∧
      s.time.holdFrom = none ∧ fieldOf s 0x060008 32 1 = 1 ∧ (∀ e, e < 1024 → setArmed s e = false) ∧ noneDue s = [],
    Answers (.ptpEventRx ⟨⟨n, w⟩, dom, udp⟩ (.sync m)) s (fun t => t.time = t1 ∧ PtpTaken s t n w ∧ RegsBut s t (0x060008 :: portRxRegs n) ∧
      OnlyChanges s t [.regs, .ports, .time])⟩

/-- At a port that is not PTP_PORT or no time receiver, or in another domain or over another transport, a Sync only counts as received (R140,
R143). -/
abbrev ptpEventElsewhere (s : State) (n : Fin 64) (w : Wire) (dom : BitVec 8) (udp : Bool) (m : Int) : Clause :=
  ⟨PtpCame s n w ∧ (ptpPort s ≠ n ∨ ptpRole s n ≠ 1 ∨ ptpMine s n dom udp = false),
    Answers (.ptpEventRx ⟨⟨n, w⟩, dom, udp⟩ (.sync m)) s (fun t => PtpTaken s t n w ∧ RegsBut s t (portRxRegs n) ∧ OnlyChanges s t [.regs, .ports])⟩

/-- A port with ROLE = 2 and DELAY = 0 answers a delay request with the FT of its arrival (R140). -/
abbrev ptpDelayAnswer (s : State) (n : Fin 64) (w : Wire) (dom : BitVec 8) (udp : Bool) : Clause :=
  let m : Msg := .ptp 0 dom.toNat udp s.time.ft.toNat
  ⟨PtpCame s n w ∧ s.time.running = true ∧ ptpRole s n = 2 ∧ ptpMine s n dom udp = true ∧ fieldOf s (rPort n 0x40) 2 1 = 0 ∧
      fieldOf s (rPort n 0x38) 0 1 = 1 ∧ fieldOf s (rPort n 0) 2 1 = 0,
    Answers (.ptpEventRx ⟨⟨n, w⟩, dom, udp⟩ .delayReq) s (fun t => PtpTaken s t n w ∧ Sent s t n none 126 m ∧
      RegsBut s t (portRxRegs n ++ txRegs n) ∧ OnlyChanges s t [.regs, .ports, .out])⟩

/-- With DELAY = 1 a port in either role answers a peer delay request with its two messages (R140). -/
abbrev ptpPeerAnswer (s : State) (n : Fin 64) (w : Wire) (dom : BitVec 8) (udp : Bool) : Clause :=
  let m := fun (k : Nat) => Msg.ptp k dom.toNat udp s.time.ft.toNat
  ⟨PtpCame s n w ∧ s.time.running = true ∧ (ptpRole s n = 1 ∨ ptpRole s n = 2) ∧ ptpMine s n dom udp = true ∧
      fieldOf s (rPort n 0x40) 2 1 = 1 ∧ fieldOf s (rPort n 0x38) 0 1 = 1 ∧ fieldOf s (rPort n 0) 2 1 = 0,
    Answers (.ptpEventRx ⟨⟨n, w⟩, dom, udp⟩ .pdelayReq) s (fun t => PtpTaken s t n w ∧
      t.out = s.out ++ [.frame n (txHdr s n none (m 1)) (m 1), .frame n (txHdr s n none (m 2)) (m 2)] ∧
      regOf t (rPort n 0x100) = regOf s (rPort n 0x100) + 2 ∧ regOf t (rPort n 0x108) = regOf s (rPort n 0x108) + 252 ∧
      RegsBut s t (portRxRegs n ++ txRegs n) ∧ OnlyChanges s t [.regs, .ports, .out])⟩

/-- A PPS edge of the source in use is a measurement; a FTB_SET_TIME value that waits for it becomes the FT of the edge (R32, R34). -/
abbrev ppsInEdge (s : State) (off : Int) : Clause :=
  let o : Int := match s.time.pendingSet with
    | some v => (s.time.ft.toNat : Int) - (v.toNat : Int) * 65536
    | none => off
  ⟨s.time.running = true ∧ srcSel s = 2 ∧ ftbSource s = 2 ∧ (ftbState s = 1 ∨ ftbState s = 2) ∧ o.natAbs ≤ 20 * 65536 ∧ NoStep s o ∧ noneDue s = [] ∧ Canon s,
    Answers (.ppsInEdge off) s (fun t => ftbState t = 2 ∧ fieldOf t 0x060008 16 16 = 20 ∧
      t.time = { s.time with ppsUp := true, holdFrom := none, unlocked := false, slew := o, pendingSet := none } ∧
      RegsBut s t [0x060008] ∧ OnlyChanges s t [.regs, .time])⟩

/-- The loss of the only source puts a locked FTB into HOLDOVER, from which its bound grows (R32, R33). -/
abbrev ftbSourceLost (s : State) : Clause :=
  ⟨srcSel s = 0 ∧ ftbSource s = 1 ∧ (ftbState s = 1 ∨ ftbState s = 2) ∧ s.time.ppsUp = false ∧ s.time.holdFrom = none ∧ Canon s,
    Answers (.ftbSourceLost .ptp) s (fun t => ftbState t = 3 ∧ ftbSource t = 3 ∧
      t.time = { s.time with ptpUp := false, pendingSet := none, holdFrom := some s.time.now,
                              holdBase := fieldOf s 0x060008 16 16, grown := 0 } ∧ RegsBut s t [0x060008] ∧
      OnlyChanges s t [.regs, .time])⟩

/-- FT_UNLOCKED: the bound has passed its limit, its event bit is set and FT_UNLOCKED is reported (R33). -/
abbrev ftUnlocked (s : State) (h : Nat) : Clause :=
  ⟨s.time.holdFrom = some h ∧ s.time.unlocked = false ∧
      h + unlockAfter s ≤ s.time.now ∧ Canon s,
    Answers .ftUnlocked s (fun t => fieldOf t 0x060008 33 1 = 1 ∧
      fieldOf t 0x060008 16 16 = boundOf s.time.holdBase (s.time.grown + refPpb s * (s.time.now - h)) ∧ t.time.unlocked = true ∧
      t.time.ft = s.time.ft ∧ Reported s t 0x0601 0 98 0 none 0 0 ∧ RegsBut s t (0x060008 :: errSrc 98) ∧
      OnlyChanges s t [.regs, .time, .err, .out, .host])⟩

/-- FTB_SET_TIME while PPS is the source waits for the next edge; while there is no source it sets FT by a correction; else it does nothing
(R34). -/
abbrev ftbSetTimeWrite (s : State) (w : Wr) : Clause :=
  let off : Int := (s.time.ft.toNat : Int) - (wrVal w : Int) * 65536
  ⟨ByOwner s w.path ∧ NoStep s off ∧ noneDue s = [],
    exec (.ftbSetTimeWrite w) s = .next (if ftbSource s = 2 then { s with time := { s.time with pendingSet := some (BitVec.ofNat 64 (wrVal w)) } }
      else if ftbSource s = 3 ∧ s.time.running = true then { s with time := { s.time with slew := off } } else s)⟩

/-- A read of FTB_NOW_NS gives the whole nanoseconds and latches the fraction of the same instant (R34). -/
abbrev ftbNowNsRead (s : State) (p : Path) : Clause :=
  ⟨pathUp s p = true ∧ pathCode p ≠ 0 ∧ ftNs s < 2 ^ 64 ∧ Canon s,
    Answers (.ftbNowNsRead p) s (fun t => t.out = s.out ++ [.regData p (BitVec.ofNat 64 (ftNs s))] ∧
      regOf t 0x060010 = BitVec.ofNat 64 (ftNs s) ∧ regOf t 0x060018 = BitVec.ofNat 64 (s.time.ft.toNat % 65536) ∧
      RegsBut s t [0x060010, 0x060018] ∧ OnlyChanges s t [.regs, .out])⟩

/-- PPS_OUT rises at the next FT that is a multiple of 10^9 ns, for 100 ms (R415). -/
abbrev ppsOutEdge (s : State) : Clause :=
  let due := (ftNs s + 999999999) / 1000000000 * 1000000000
  ⟨s.time.running = true ∧ s.time.slew = 0 ∧ s.time.ppsHigh ≠ due + 100000000 ∧ s.time.ft.toNat + 2000000000 * 65536 < 2 ^ 80,
    Answers .ppsOutEdge s (fun t => t.out = s.out ++ [.ppsOut due] ∧ ftNs t = due ∧ t.time.ppsHigh = due + 100000000 ∧
      t.time.now = s.time.now + (due - ftNs s) ∧ OnlyChanges s t [.time, .out])⟩

end Sys2Proof.Claims

open Sys2Proof.Claims in
/-- The fabric time base: its sources, its lock, its error bound, its registers and PPS_OUT. -/
def Obligations.FabricTimeBase : Prop :=
  ∀ (s : State) (n : Fin 64) (wire : Wire) (dom : BitVec 8) (udp : Bool) (off : Int) (h : Nat) (w : Wr) (p : Path),
    (ptpEventLocks s n wire dom udp off).Holds ∧ (ptpEventAcquires s n wire dom udp off).Holds ∧ (ptpEventSteps s n wire dom udp off).Holds ∧
      (ptpEventElsewhere s n wire dom udp off).Holds ∧ (ptpDelayAnswer s n wire dom udp).Holds ∧ (ptpPeerAnswer s n wire dom udp).Holds ∧
      (ppsInEdge s off).Holds ∧ (ftbSourceLost s).Holds ∧ (ftUnlocked s h).Holds ∧ (ftbSetTimeWrite s w).Holds ∧
      (ftbNowNsRead s p).Holds ∧ (ppsOutEdge s).Holds

/-! ## Steps and scheduled events (R35–R47) -/

namespace Sys2Proof.Claims

/-- The words of a SET entry that a firing may write (R36). -/
def setRegs (e : Nat) : List Nat := [rSet e 0, rSet e 1, rSet e 2]

/-- Fewer than 64 entries have fired in the present 10 ns interval (R37). -/
abbrev RoomToFire (s : State) : Prop := s.time.fired.1 ≠ ftNs s / 10 ∨ s.time.fired.2 < 64

/-- The time base after one firing: it counts in its interval (R37). -/
abbrev firedTime (s : State) : Time :=
  { s.time with fired := (ftNs s / 10, if s.time.fired.1 = ftNs s / 10 then s.time.fired.2 + 1 else 1) }

/-- A single-shot entry is due now, alone, and not late (R36, R37). -/
abbrev Fires (s : State) (e a : Nat) : Prop :=
  setArmed s e = true ∧ setAction s e = a ∧ setPeriod s e = 0 ∧ setFire s e ≤ ftNs s ∧ ftNs s ≤ setFire s e + 10 ∧
    armedIn s (fun x => setFire s x == setFire s e && (x == e || firesBefore s x e)) = [e] ∧ noneDue s = [] ∧ RoomToFire s ∧ Canon s

/-- It is armed no longer, was not late, and its COUNT stays (R36). -/
abbrev Fired (s t : State) (e : Nat) : Prop :=
  setArmed t e = false ∧ fieldOf t (rSet e 2) 5 1 = 0 ∧ setCount t e = setCount s e ∧ setAction t e = setAction s e ∧
    t.time = firedTime s

/-- Nothing but the counting of the step happens at this boundary: no snapshot, no TOKEN_OUT record, no new EPT generation, no batch
table. -/
abbrev QuietStep (s : State) (p : Nat) : Prop :=
  bitsOf (execModeOf s p) 2 1 = 0 ∧ (partOf s p).toks = [] ∧ (partOf s p).eptGen = (partOf s p).eptNext ∧ eptWinner s p = 0 ∧
    s.loads = [] ∧ inSram (btBase s) = false

/-- The partition after the boundary of such a step: the next step number, and what takes effect at a boundary (R41, R45, R73, R84). -/
abbrev stepTaken (s : State) (p now : Nat) : Part :=
  { partOf s p with stepNo := (partOf s p).stepNo + 1, lastBoundary := now, held := false, tokPsn := [], staleSrc := [],
                    execMode := regOf s (rPart p 0x100), sreStep := stepRegs s p, dead := deadNodes s p }

/-- A word of a SET entry is written; the entry stays unarmed, or is armed for a time to come (R35, R39). -/
abbrev setEntryWrite (s : State) (e : Fin 1024) (word : Fin 4) (w : Wr) : Clause :=
  let t := s.setReg (rSet e word) (plainWrite (rSet e word) (regOf s (rSet e word)).toNat w)
  ⟨ByOwner s w.path ∧ (setArmed t e = false ∨ armOk t e = true ∧ (s.time.running = false ∨ ftNs s ≤ setFire t e)) ∧ noneDue s = [],
    exec (.setEntryWrite e word w) s = .next t⟩

/-- An entry that may not be armed is not: the word keeps its value, ARMED is 0, and EXCH_PARAM is reported (R39). -/
abbrev setEntryRefused (s : State) (e : Fin 1024) (word : Fin 4) (w : Wr) : Clause :=
  let t := s.setReg (rSet e word) (plainWrite (rSet e word) (regOf s (rSet e word)).toNat w)
  ⟨ByOwner s w.path ∧ setArmed t e = true ∧ armOk t e = false ∧ noneDue s = [] ∧ Canon s,
    Answers (.setEntryWrite e word w) s (fun u => regOf u (rSet e word) =
        (if word = 2 then BitVec.ofNat 64 (setBits (regOf s (rSet e word)).toNat 4 1 0) else regOf s (rSet e word)) ∧
      setArmed u e = false ∧ Reported s u 0x4003 2 98 e (some (setPart t e)) 0 0 ∧
      RegsBut s u (rSet e word :: rSet e 2 :: errSrc 98) ∧ OnlyChanges s u [.regs, .err])⟩

/-- An entry armed for a time that has passed fires at once, with LATE (R38): here one whose action signals a pip. -/
abbrev setEntryLate (s : State) (e : Fin 1024) (w : Wr) : Clause :=
  let t := s.setReg (rSet e 2) (plainWrite (rSet e 2) (regOf s (rSet e 2)).toNat w)
  let p := setPart t e
  let k := pipKey p (fieldOf s (rPart p 0x28) 0 4) (setTarget t e) (bitsOf (setArg t e) 0 6)
  ⟨ByOwner s w.path ∧ setArmed t e = true ∧ setAction t e = 6 ∧ s.time.running = true ∧ setFire t e < ftNs s ∧ setPeriod t e = 0 ∧
      coreOfPart s p (setTarget t e) = true ∧ (pipOf s k).toNat + 1 < 2 ^ 16 ∧
      pipWaiters s p (fieldOf s (rPart p 0x28) 0 4) (setTarget t e) (bitsOf (setArg t e) 0 6) = [] ∧ noneDue s = [] ∧ Canon s,
    Answers (.setEntryWrite e 2 w) s (fun u => pipOf u k = pipOf s k + 1 ∧ (∀ k', k' ≠ k → pipOf u k' = pipOf s k') ∧
      setArmed u e = false ∧ fieldOf u (rSet e 2) 5 1 = 1 ∧ RegsBut s u (setRegs e) ∧ OnlyChanges s u [.regs, .pips])⟩

/-- A periodic entry goes on to the first time of its series that has not passed; the times it passed over are counted as missed (R36,
R38): here one whose action names no queue of its partition. -/
abbrev setPeriodic (s : State) (e : Fin 1024) : Clause :=
  let n := (ftNs s - setFire s e) / setPeriod s e + 1
  ⟨setArmed s e = true ∧ setAction s e = 5 ∧ qEn s (setTarget s e) = false ∧ 0 < setPeriod s e ∧ setCount s e = 0 ∧ setFire s e ≤ ftNs s ∧
      setFire s e + n * setPeriod s e < 2 ^ 64 ∧
      armedIn s (fun x => setFire s x == setFire s e && (x == e.val || firesBefore s x e)) = [e.val] ∧ noneDue s = [] ∧ RoomToFire s ∧ Canon s,
    Answers (.queueKick e) s (fun t => setFire t e = setFire s e + n * setPeriod s e ∧ ftNs s < setFire t e ∧ setArmed t e = true ∧
      fieldOf t 0x060048 0 32 = min 0xFFFFFFFF (fieldOf s 0x060048 0 32 + (n - 1)) ∧
      (fieldOf t (rSet e 2) 5 1 = 1 ↔ setFire s e + 10 < ftNs s) ∧ RegsBut s t (0x060048 :: setRegs e) ∧ t.time = firedTime s ∧
      OnlyChanges s t [.regs, .time])⟩

/-- STEP_BOUNDARY: the step's work is complete, and the boundary is taken (R41, R42). -/
abbrev stepBoundary (s : State) (e : Fin 1024) : Clause :=
  let p := setPart s e
  ⟨Fires s e 2 ∧ paced s p = false ∧ steps s p = true ∧ (partOf s p).held = false ∧ workDone s p = true ∧ QuietStep s p,
    Answers (.stepBoundary e) s (fun t => partOf t p = stepTaken s p s.time.now ∧ (∀ q, q ≠ p → partOf t q = partOf s q) ∧ Fired s t e ∧
      RegsBut s t (setRegs e) ∧ OnlyChanges s t [.time, .regs, .parts])⟩

/-- STEP_BOUNDARY while the step's work is not complete: the boundary is held, and counted (R42). -/
abbrev stepBoundaryHeld (s : State) (e : Fin 1024) : Clause :=
  let p := setPart s e
  ⟨Fires s e 2 ∧ paced s p = false ∧ steps s p = true ∧ ((partOf s p).held = true ∨ workDone s p = false),
    Answers (.stepBoundary e) s (fun t => partOf t p = { partOf s p with held := true } ∧ (∀ q, q ≠ p → partOf t q = partOf s q) ∧
      fieldOf t (rPart p 0x940) 0 32 = min 0xFFFFFFFF (fieldOf s (rPart p 0x940) 0 32 + 1) ∧ Fired s t e ∧
      RegsBut s t (rPart p 0x940 :: setRegs e) ∧ OnlyChanges s t [.time, .regs, .parts])⟩

/-- A held boundary is taken once the step's work is complete (R42). -/
abbrev heldBoundaryTake (s : State) (p : Fin 64) : Clause :=
  ⟨(partOf s p).held = true ∧ steps s p = true ∧ workDone s p = true ∧ QuietStep s p ∧ Canon s,
    exec (.heldBoundaryTake p) s = .next (s.setPart p (stepTaken s p s.time.now))⟩

/-- STEP_DECISION_POINT in PACED mode: at the next multiple of 125 ns the boundary is taken, with the work complete and STEP_MIN_GAP_NS
passed since the last one (R41). -/
abbrev stepDecisionPoint (s : State) (p : Fin 64) : Clause :=
  let due := (s.time.now + 124) / 125 * 125
  ⟨paced s p = true ∧ steps s p = true ∧ workDone s p = true ∧ (partOf s p).lastBoundary < s.time.now ∧
      (partOf s p).lastBoundary + stepGap s p ≤ due ∧ QuietStep s p ∧ Canon s,
    Answers (.stepDecisionPoint p) s (fun t => partOf t p = stepTaken s p due ∧ t.time.now = due ∧ due % 125 = 0 ∧
      (∀ q, q ≠ p.val → partOf t q = partOf s q) ∧ OnlyChanges s t [.parts, .time])⟩

/-- Before STEP_MIN_GAP_NS has passed, or with work left, it is not (R41). -/
abbrev stepDecisionWaits (s : State) (p : Fin 64) : Clause :=
  let due := (s.time.now + 124) / 125 * 125
  ⟨paced s p = true ∧ steps s p = true ∧ (partOf s p).lastBoundary < s.time.now ∧
      (workDone s p = false ∨ due < (partOf s p).lastBoundary + stepGap s p),
    Answers (.stepDecisionPoint p) s (fun t => t.time.now = due ∧ OnlyChanges s t [.time])⟩

/-- STAT_LATCH: the inactive bank holds the fabric time, the step number and the counters of the partition, here the one that is not 0;
they restart from 0, no byte outside the bank changes, and the banks swap (R46, R47). -/
abbrev statLatch (s : State) (e : Fin 1024) (off : Nat) (v : Word) : Clause :=
  let p := setPart s e
  let bank := if (partOf s p).bankB then snapBase s p else snapBase s p + 0x100000
  ⟨Fires s e 3 ∧ inSram (snapBase s p) = true ∧ s.regs.filter (fun x => (snapSlot s p x.1).isSome) = [(off, v)] ∧ off ≠ rPart p 0x930 ∧
      s.fab.dir = [] ∧ CleanMem s ∧ memNat s bank 8 + 2 < 2 ^ 64 ∧ ftNs s < 2 ^ 64,
    Answers (.statLatch e) s (fun t => memNat t bank 8 = memNat s bank 8 + 2 ∧ memNat t (bank + 8) 8 = ftNs s ∧
      memNat t (bank + 16) 8 = (partOf s p).stepNo.toNat ∧ memNat t (bank + (snapSlot s p off).getD 0) 8 = v.toNat ∧
      MemBut s t bank 0x100000 ∧ regOf t off = resetWord off ∧ RegsBut s t (off :: setRegs e) ∧
      partOf t p = { partOf s p with bankB := !(partOf s p).bankB } ∧ (∀ q, q ≠ p → partOf t q = partOf s q) ∧ Fired s t e ∧
      OnlyChanges s t [.time, .regs, .mem, .parts])⟩

/-- PGU_PREPARE asks for a reservation of its class's watts for its partition, until LEAD_US after its time (R350). -/
abbrev pguPrepare (s : State) (e : Fin 1024) : Clause :=
  let a := setArg s e
  ⟨Fires s e 4,
    Answers (.pguPrepare e) s (fun t =>
      t.pw = (asking s { who := .reservation (setPart s e), mw := classMw s (bitsOf a 0 3), prio := 15, part := setPart s e,
                         until_ := setFire s e + 1000 * max 1 (bitsOf a 16 16), askedAt := s.time.now }).pw ∧ Fired s t e ∧
      RegsBut s t (setRegs e) ∧ OnlyChanges s t [.time, .regs, .pw])⟩

/-- QUEUE_KICK of a queue bound to a Sedge die: its next complete packet goes ahead of the other queues (R40). -/
abbrev queueKick (s : State) (e : Fin 1024) : Clause :=
  let q := setTarget s e
  ⟨Fires s e 5 ∧ q < 4096 ∧ qEn s q = true ∧ qPart s q = setPart s e ∧ qCons s q = 1,
    Answers (.queueKick e) s (fun t => queueOf t q = { queueOf s q with kicked := true } ∧ (∀ k, k ≠ q → queueOf t k = queueOf s k) ∧
      Fired s t e ∧ RegsBut s t (setRegs e) ∧ OnlyChanges s t [.time, .regs, .queues])⟩

/-- USER_PIP adds 1 to its pip in the partition's bound context (R35, R295). -/
abbrev userPip (s : State) (e : Fin 1024) : Clause :=
  let p := setPart s e
  let k := pipKey p (fieldOf s (rPart p 0x28) 0 4) (setTarget s e) (bitsOf (setArg s e) 0 6)
  ⟨Fires s e 6 ∧ coreOfPart s p (setTarget s e) = true ∧ (pipOf s k).toNat + 1 < 2 ^ 16 ∧
      pipWaiters s p (fieldOf s (rPart p 0x28) 0 4) (setTarget s e) (bitsOf (setArg s e) 0 6) = [],
    Answers (.userPip e) s (fun t => pipOf t k = pipOf s k + 1 ∧ (∀ k', k' ≠ k → pipOf t k' = pipOf s k') ∧ Fired s t e ∧
      RegsBut s t (setRegs e) ∧ OnlyChanges s t [.time, .regs, .pips])⟩

/-- A USER_PIP at a core that is not the partition's changes no pip: MEM_UNMAPPED is reported (R295). -/
abbrev userPipOutside (s : State) (e : Fin 1024) : Clause :=
  ⟨Fires s e 6 ∧ coreOfPart s (setPart s e) (setTarget s e) = false,
    Answers (.userPip e) s (fun t => Reported s t 0x2004 2 98 e (some (setPart s e)) (scratchBase (setTarget s e)) 0 ∧ Fired s t e ∧
      RegsBut s t (setRegs e ++ errSrc 98) ∧ OnlyChanges s t [.time, .regs, .err])⟩

end Sys2Proof.Claims

open Sys2Proof.Claims in
/-- The scheduled event table: its writes, its firings, and what each action does. -/
def Obligations.ScheduledEvents : Prop :=
  ∀ (s : State) (e : Fin 1024) (word : Fin 4) (w : Wr) (off : Nat) (v : Word),
    (setEntryWrite s e word w).Holds ∧ (setEntryRefused s e word w).Holds ∧ (setEntryLate s e w).Holds ∧ (setPeriodic s e).Holds ∧
      (statLatch s e off v).Holds ∧ (pguPrepare s e).Holds ∧ (queueKick s e).Holds ∧ (userPip s e).Holds ∧ (userPipOutside s e).Holds

open Sys2Proof.Claims in
/-- Step boundaries in both modes: taken, held, and not yet due. -/
def Obligations.StepBoundaries : Prop :=
  ∀ (s : State) (e : Fin 1024) (p : Fin 64),
    (stepBoundary s e).Holds ∧ (stepBoundaryHeld s e).Holds ∧ (heldBoundaryTake s p).Holds ∧ (stepDecisionPoint s p).Holds ∧
      (stepDecisionWaits s p).Holds

/-! ## The expert placement table (R63–R66, R381) -/

namespace Sys2Proof.Claims

/-- A register write that is refused: counted in OWN_DENIED and recorded at INFO (R337). -/
abbrev Denied (s t : State) : Prop :=
  fieldOf t 0x010060 0 32 = min 0xFFFFFFFF (fieldOf s 0x010060 0 32 + 1) ∧ Reported s t 0x0101 0 96 0 none 0 0 ∧
    RegsBut s t (0x010060 :: errSrc 96) ∧ OnlyChanges s t [.regs, .err]

/-- The words of SRE_EPT_COMMIT_p in the four Sedge blocks. -/
def eptRegs (p : Nat) : List Nat := [rEptCommit p, rEptCommit p + 0x10000, rEptCommit p + 0x20000, rEptCommit p + 0x30000]

/-- The generation that a commit of partition `p` makes. -/
def eptNextGen (s : State) (p : Nat) : Nat := (nextGen (BitVec.ofNat 32 (eptGenOf s p))).toNat

/-- An image that passes the checks of a die (R64, R65). -/
abbrev ImageOk (s : State) (base : Nat) : Prop :=
  nlayerAt s base ≠ 0 ∧ nlayerAt s base ≤ 4096 ∧ (∀ l, l < nlayerAt s base → layerCrcOk s base l = true)

/-- Checksum of an image. -/
def imageSum (s : State) (base : Nat) : Nat := (crc32c (memBytes s base (imageLen (nlayerAt s base)))).toNat

/-- EPT_COMMIT_GO with the next generation and a new base: the commit begins (R24, R65). -/
abbrev eptCommitGo (s : State) (p : Fin 64) (w : Wr) : Clause :=
  ⟨ByOwner s w.path ∧ wrBits w 36 1 = 1 ∧ eptState s p ≠ 1 ∧ wrBits w 0 32 = eptNextGen s p ∧
      (eptGenOf s p = 0 ∨ eptStagedBase s p ≠ (partOf s p).eptBase) ∧ Canon s,
    Answers (.eptCommitGo p w) s (fun t => partOf t p = { partOf s p with eptPrep := eptStagedBase s p, eptDone := [] } ∧
      (∀ q, q ≠ p.val → partOf t q = partOf s q) ∧ (∀ d, d < 4 → fieldOf t (rEptCommit p + d * 0x10000) 32 3 = 1) ∧
      RegsBut s t (eptRegs p) ∧ OnlyChanges s t [.regs, .parts])⟩

/-- With another generation, or while a commit is under way, the write is refused (R24, R65). -/
abbrev eptCommitRefused (s : State) (p : Fin 64) (w : Wr) : Clause :=
  ⟨ByOwner s w.path ∧ wrBits w 36 1 = 1 ∧ (eptState s p = 1 ∨ wrBits w 0 32 ≠ eptNextGen s p) ∧ Canon s,
    Answers (.eptCommitGo p w) s (Denied s)⟩

/-- A die whose image passes the checks writes its record as PREPARED, with its checksum, while others are still to prepare (R65, R66). -/
abbrev eptPrepareDone (s : State) (se : Fin 4) (p : Fin 64) : Clause :=
  let gen := eptNextGen s p
  ⟨eptState s p = 1 ∧ se.val ∉ (partOf s p).eptDone ∧ ImageOk s (partOf s p).eptPrep ∧
      (∃ d, d < 4 ∧ d ≠ se.val ∧ d ∉ (partOf s p).eptDone) ∧ CleanMem s ∧ Canon s,
    Answers (.eptPrepareDone se p) s (fun t => recState t se p = 1 ∧ recGen t se p = gen ∧ recSum t se p = imageSum s (partOf s p).eptPrep ∧
      partOf t p = { partOf s p with eptDone := (partOf s p).eptDone ++ [se.val] } ∧ (∀ q, q ≠ p.val → partOf t q = partOf s q) ∧
      RegsBut s t [rEptRec se p, rEptRec se p + 8] ∧ OnlyChanges s t [.regs, .parts])⟩

/-- The last of the four commits the generation: every record is COMMITTED, GEN is the new one, and while the job runs it waits for the next
step boundary (R65, R66). -/
abbrev eptCommits (s : State) (se : Fin 4) (p : Fin 64) : Clause :=
  let gen := eptNextGen s p
  let d := partOf s p
  ⟨eptState s p = 1 ∧ se.val ∉ d.eptDone ∧ ImageOk s d.eptPrep ∧
      (∀ k, k < 4 → k ≠ se.val → k ∈ d.eptDone ∧ recSum s k p = imageSum s d.eptPrep) ∧
      d.eptNext = d.eptGen ∧ jobState s p = 2 ∧ CleanMem s ∧ Canon s,
    Answers (.eptPrepareDone se p) s (fun t =>
      (∀ k, k < 4 → recState t k p = 2 ∧ recGen t k p = gen ∧ recSum t k p = imageSum s d.eptPrep) ∧ eptState t p = 2 ∧
      eptGenOf t p = gen ∧ partOf t p = { d with eptNext := BitVec.ofNat 32 gen, eptStaged := d.eptPrep, eptDone := d.eptDone ++ [se.val] } ∧ (∀ q, q ≠ p.val → partOf t q = partOf s q) ∧
      RegsBut s t (eptRegs p ++ (List.range 4).flatMap (fun k => [rEptRec k p, rEptRec k p + 8])) ∧ OnlyChanges s t [.regs, .parts])⟩

/-- An image without layers, or with more than 4,096, fails the commit: EPT_CRC is reported and nothing is prepared (R65). -/
abbrev eptPrepareFails (s : State) (se : Fin 4) (p : Fin 64) : Clause :=
  ⟨eptState s p = 1 ∧ se.val ∉ (partOf s p).eptDone ∧
      (nlayerAt s (partOf s p).eptPrep = 0 ∨ 4096 < nlayerAt s (partOf s p).eptPrep) ∧ Canon s,
    Answers (.eptPrepareDone se p) s (fun t => (∀ d, d < 4 → fieldOf t (rEptCommit p + d * 0x10000) 32 3 = 3) ∧
      Reported s t 0x6001 2 (32 + se.val) 0 (some p.val) 0 0 ∧ RegsBut s t (eptRegs p ++ errSrc (32 + se.val)) ∧ OnlyChanges s t [.regs, .err])⟩

/-- A stale die reads its image again and takes the generation of the others (R66, R381). -/
abbrev eptStaleReload (s : State) (se : Fin 4) (p : Fin 64) : Clause :=
  let base := eptStagedBase s p
  let sum := (crc32c (memBytes s base (imageLen (min 4096 (nlayerAt s base))))).toNat
  ⟨eptStale s se p = true ∧ (∀ d, d < 4 → d ≠ se.val → eptStale s d p = false ∧ recSum s d p = sum) ∧ Canon s,
    Answers (.eptStaleReload se p) s (fun t => recState t se p = 2 ∧ recGen t se p = eptWinner s p ∧ recSum t se p = sum ∧
      eptStale t se p = false ∧ RegsBut s t [rEptRec se p, rEptRec se p + 8] ∧ OnlyChanges s t [.regs])⟩

/-- A commit that failed and is begun again is prepared anew by every die, also by one whose record is PREPARED for that generation
(R65, R66). -/
abbrev eptPrepareAgain (s : State) (se : Fin 4) (p : Fin 64) : Clause :=
  ⟨eptState s p = 1 ∧ recState s se p = 1 ∧ recGen s se p = eptNextGen s p ∧ (partOf s p).eptDone = [] ∧ ImageOk s (partOf s p).eptPrep ∧
      CleanMem s ∧ Canon s,
    Answers (.eptPrepareDone se p) s (fun t => recState t se p = 1 ∧ recGen t se p = eptNextGen s p ∧
      recSum t se p = imageSum s (partOf s p).eptPrep ∧ (partOf t p).eptDone = [se.val] ∧ OnlyChanges s t [.regs, .parts])⟩

/-- A load that finds every slot of its die pinned waits, and the wait counts once (R64, R77). -/
abbrev eptLayerWaits (s : State) (se : Fin 4) (p : Fin 64) (layer : BitVec 16) (u : Submit) : Clause :=
  let off := rRcnt (u.rctx / 256) (u.rctx % 256) 0x28
  ⟨s.submits.find? (fun x => x.phase == .reading && x.rctx / 256 == se.val && x.part == p.val && x.layer == layer.toNat && !layerReady s x) = some u ∧
      16 ≤ (slotsOf s se).length ∧ (∀ x ∈ slotsOf s se, slotPinned s se x = true) ∧ Canon s,
    Answers (.eptLayerLoad se p layer) s (fun t =>
      fieldOf t off 0 32 = (if u.waited then fieldOf s off 0 32 else min 0xFFFFFFFF (fieldOf s off 0 32 + 1)) ∧
      t.eptSlots = s.eptSlots ∧ RegsBut s t [off] ∧ OnlyChanges s t [.regs, .submits])⟩

/-- If its checksum then differs, the commit shows MISMATCH, and EPT_DISAGREE is reported (R381). -/
abbrev eptMismatch (s : State) (se : Fin 4) (p : Fin 64) : Clause :=
  let base := eptStagedBase s p
  let sum := (crc32c (memBytes s base (imageLen (min 4096 (nlayerAt s base))))).toNat
  ⟨eptStale s se p = true ∧ (∀ d, d < 4 → d ≠ se.val → eptStale s d p = false ∧ recSum s d p ≠ sum) ∧ eptState s p ≠ 4 ∧ Canon s,
    Answers (.eptStaleReload se p) s (fun t => recState t se p = 2 ∧ recGen t se p = eptWinner s p ∧ eptState t p = 4 ∧
      Reported s t 0x6003 2 32 0 (some p.val) 0 0 ∧ RegsBut s t ([rEptRec se p, rEptRec se p + 8] ++ eptRegs p ++ errSrc 32) ∧
      OnlyChanges s t [.regs, .err])⟩

/-- A layer that a submit waits for is loaded into a free slot of its die (R64). -/
abbrev eptLayerLoad (s : State) (se : Fin 4) (p : Fin 64) (layer : BitVec 16) (u : Submit) : Clause :=
  ⟨s.submits = [u] ∧ u.phase = .reading ∧ u.rctx / 256 = se.val ∧ u.part = p ∧ u.layer = layer.toNat ∧ layerReady s u = false ∧
      (slotsOf s se).length < 16 ∧ layer.toNat < nlayerAt s u.eptBase ∧ layerCrcOk s u.eptBase layer.toNat = true ∧
      CleanMem s ∧ Canon s,
    Answers (.eptLayerLoad se p layer) s (fun t =>
      slotsOf t se = slotsOf s se ++ [{ part := p.val, gen := u.eptGen, layer := layer.toNat, data := layerData s u.eptBase layer.toNat }] ∧
      (∀ d, d ≠ se.val → slotsOf t d = slotsOf s d) ∧ layerReady t u = true ∧ OnlyChanges s t [.eptSlots])⟩

/-- A layer that cannot be read twice makes the submit's tokens unroutable, and EPT_CRC is reported (R64, R374). -/
abbrev eptLayerBad (s : State) (se : Fin 4) (p : Fin 64) (layer : BitVec 16) (u : Submit) : Clause :=
  ⟨s.submits = [u] ∧ u.phase = .reading ∧ u.rctx / 256 = se.val ∧ u.part = p ∧ u.layer = layer.toNat ∧ layerReady s u = false ∧
      (slotsOf s se).length < 16 ∧ nlayerAt s u.eptBase ≤ layer.toNat ∧ CleanMem s ∧ Canon s,
    Answers (.eptLayerLoad se p layer) s (fun t => t.submits = [{ u with eptBad := true }] ∧
      Reported s t 0x6001 2 (32 + se.val) 0 (some p.val) 0 0 ∧ RegsBut s t (errSrc (32 + se.val)) ∧
      OnlyChanges s t [.submits, .regs, .err])⟩

end Sys2Proof.Claims

open Sys2Proof.Claims in
/-- The two-phase commit of the expert placement table, its copies, and its resident layers. -/
def Obligations.ExpertPlacementTable : Prop :=
  ∀ (s : State) (se : Fin 4) (p : Fin 64) (w : Wr) (layer : BitVec 16) (u : Submit),
    (eptCommitGo s p w).Holds ∧ (eptCommitRefused s p w).Holds ∧ (eptPrepareDone s se p).Holds ∧ (eptCommits s se p).Holds ∧
      (eptPrepareFails s se p).Holds ∧ (eptPrepareAgain s se p).Holds ∧ (eptLayerWaits s se p layer u).Holds ∧
      (eptStaleReload s se p).Holds ∧ (eptMismatch s se p).Holds ∧
      (eptLayerLoad s se p layer u).Holds ∧ (eptLayerBad s se p layer u).Holds

/-! ## Serving (R78–R84, R303–R313) -/

namespace Sys2Proof.Claims

/-- The item at the head of a queue that nobody waits for has gone. -/
abbrev Popped (s t : State) (q : Nat) (rest : List QItem) : Prop :=
  queueOf t q = { queueOf s q with items := rest, head := ((queueOf s q).head + 1) % qDepth s q, since := s.time.now, staleFired := false }

/-- The registers that a pop changes. -/
def popRegs (q : Nat) : List Nat := [rQcnt q 8, 0x2A0000 + q * 0x10]

/-- SRE_STEP_WRITE stores a word of the step controller's set-up; one that leaves STEP_MAX_TOKENS below STEP_MAX_SEQS changes nothing but
raises EXCH_PARAM (R84). -/
abbrev sreStepWrite (s : State) (p : Fin 64) (word : Fin 8) (w : Wr) : Clause :=
  let off := rSre (p % 4) (0x800 + p * 0x40 + 8 * word)
  let new := plainWrite off (regOf s off).toNat w
  let ws := (stepRegs s p).set word (BitVec.ofNat 64 new)
  let x : Item := BitVec.ofNat 512 ((List.range 8).foldl (fun a k => a ||| (ws.getD k 0).toNat <<< (64 * k)) 0)
  ⟨ByOwner s w.path ∧ Canon s,
    Answers (.sreStepWrite p word w) s (fun t =>
      if stMaxTokens x < stMaxSeqs x then
        Reported s t 0x4003 2 (32 + p.val % 4) 0 (some p.val) 0 0 ∧ RegsBut s t (errSrc (32 + p.val % 4)) ∧ OnlyChanges s t [.regs, .err]
      else t = s.setReg off new)⟩

/-- The arbiter of a Sedge die takes this queue next, and no kick is in force (R40, R189, R190). -/
abbrev FirstInLine (s : State) (se q : Nat) : Prop := mayTake s se q = true ∧ (∀ e ∈ s.queues, e.2.kicked = false)

/-- REQ_Q waits like every other input queue of its die while a queue that goes ahead of it holds a packet that the die can take (R189,
R190). -/
abbrev scWaits (s : State) (p : Fin 64) (e : Fin 4096) (c : Instr) : Clause :=
  let q := stReqQ (stepCfg s p)
  ⟨(c = .scRequestTake p ∨ c = .scCancel p) ∧ e.val ≠ q ∧ sreReady s (p % 4) e = true ∧ sreAhead s e q = true, exec c s = .next s⟩

/-- SC_REQUEST_TAKE: a NEW item takes the lowest FREE entry as WAITING with the next ARRIVAL number, and its KV page table is a buffer of the
pools, here the one on top of its class's stack, with the prompt in its header and no page (R81, R306, R308). -/
abbrev scRequestTake (s : State) (p : Fin 64) (x : QItem) (rest : List QItem) (i c a : Nat) (more : List Nat) : Clause :=
  let q := stReqQ (stepCfg s p)
  let maxPos := if ibits x.data 64 24 = 0 then 16777215 else ibits x.data 64 24
  let n := 64 + 8 * ((maxPos + pageTokens s p - 1) / pageTokens s p)
  let e := btBase s + 64 * i
  ⟨reqHead s p = some x ∧ (queueOf s q).items = x :: rest ∧ x.gap = false ∧ FirstInLine s (p % 4) q ∧ ibits x.data 32 2 = 0 ∧ (queueOf s q).waiters = [] ∧
      (btRange s p).find? (fun i => beState (btEntry s i) == 0) = some i ∧ classFor n = some c ∧
      (poolOf s (poolKey p c)).stack = a :: more ∧ a < 2 ^ 52 ∧ (a + n ≤ e ∨ e + 64 ≤ a) ∧ s.fab.dir = [] ∧ CleanMem s ∧ Canon s,
    Answers (.scRequestTake p) s (fun t => Popped s t q rest ∧ beState (btEntry t i) = 1 ∧ beSeq (btEntry t i) = ibits x.data 0 32 ∧
      bePrio (btEntry t i) = ibits x.data 36 4 ∧ bePos (btEntry t i) = 0 ∧ beLeft (btEntry t i) = ibits x.data 40 24 ∧
      beMaxPos (btEntry t i) = maxPos ∧ beArrival (btEntry t i) = (partOf s p).arrival ∧ beKv (btEntry t i) = a ∧
      beNode (btEntry t i) = ibits x.data 352 16 ∧ beStream (btEntry t i) = ibits x.data 208 16 ∧
      memNat t a 8 = ibits x.data 288 52 ∧ memNat t (a + 8) 8 = ibits x.data 40 24 ∧ (∀ k, k < n → 16 ≤ k → memAt t (a + k) = 0) ∧
      (∀ y, (y < a ∨ a + n ≤ y) → (y < e ∨ e + 64 ≤ y) → memAt t y = memAt s y) ∧
      partOf t p = { partOf s p with arrival := (partOf s p).arrival + 1, seqs := tput {} (partOf s p).seqs i {} } ∧
      poolOf t (poolKey p c) = { poolOf s (poolKey p c) with stack := more } ∧
      RegsBut s t (popRegs q ++ [rPool p c 0x10, rPool p c 0x18, rPoolCnt p c 0]) ∧ OnlyChanges s t [.queues, .regs, .mem, .pools, .parts])⟩

/-- A request that finds no FREE entry is discarded, counted, and, with OUT_Q disabled, answered by nothing (R81). -/
abbrev scRequestFull (s : State) (p : Fin 64) (x : QItem) (rest : List QItem) : Clause :=
  let q := stReqQ (stepCfg s p)
  ⟨reqHead s p = some x ∧ (queueOf s q).items = x :: rest ∧ x.gap = false ∧ FirstInLine s (p % 4) q ∧ ibits x.data 32 2 = 0 ∧ (queueOf s q).waiters = [] ∧
      (∀ i ∈ btRange s p, beState (btEntry s i) ≠ 0) ∧ ibits x.data 288 52 = 0 ∧ qEn s (stOutQ (stepCfg s p)) = false ∧ CleanMem s ∧ Canon s,
    Answers (.scRequestTake p) s (fun t => Popped s t q rest ∧
      fieldOf t (rJoin p 0) 32 32 = min 0xFFFFFFFF (fieldOf s (rJoin p 0) 32 32 + 1) ∧ RegsBut s t (rJoin p 0 :: popRegs q) ∧
      OnlyChanges s t [.queues, .regs])⟩

/-- SC_CANCEL of an ACTIVE sequence marks it for the next boundary (R81). -/
abbrev scCancel (s : State) (p : Fin 64) (x : QItem) (rest : List QItem) (i : Nat) : Clause :=
  let q := stReqQ (stepCfg s p)
  ⟨reqHead s p = some x ∧ (queueOf s q).items = x :: rest ∧ x.gap = false ∧ FirstInLine s (p % 4) q ∧ ibits x.data 32 2 ≠ 0 ∧ (queueOf s q).waiters = [] ∧
      (btRange s p).find? (fun i => beState (btEntry s i) != 0 && beSeq (btEntry s i) == ibits x.data 0 32) = some i ∧
      beState (btEntry s i) = 2 ∧ CleanMem s ∧ Canon s,
    Answers (.scCancel p) s (fun t => Popped s t q rest ∧ seqOf t p i = { seqOf s p i with cancel := true } ∧
      partOf t p = { partOf s p with seqs := tput {} (partOf s p).seqs i { seqOf s p i with cancel := true } } ∧
      RegsBut s t (popRegs q) ∧ OnlyChanges s t [.queues, .regs, .parts])⟩

/-- A cancel of a sequence that has no entry is counted in SRE_BAD_CANCEL (R81). -/
abbrev scCancelUnknown (s : State) (p : Fin 64) (x : QItem) (rest : List QItem) : Clause :=
  let q := stReqQ (stepCfg s p)
  ⟨reqHead s p = some x ∧ (queueOf s q).items = x :: rest ∧ x.gap = false ∧ FirstInLine s (p % 4) q ∧ ibits x.data 32 2 ≠ 0 ∧ (queueOf s q).waiters = [] ∧
      (∀ i ∈ btRange s p, beState (btEntry s i) = 0 ∨ beSeq (btEntry s i) ≠ ibits x.data 0 32) ∧ CleanMem s ∧ Canon s,
    Answers (.scCancel p) s (fun t => Popped s t q rest ∧
      fieldOf t (rJoin p 8) 0 32 = min 0xFFFFFFFF (fieldOf s (rJoin p 8) 0 32 + 1) ∧ RegsBut s t (rJoin p 8 :: popRegs q) ∧
      OnlyChanges s t [.queues, .regs])⟩

/-- SAMPLE_SUBMIT of its partition's Sedge die with well-formed logits starts a sampling, and its thread goes on (R78, R85, R86). -/
abbrev sampleSubmit (s : State) (th : Thr) (w : Cmd) (i : Iss) (slot : Nat) (m : Mdesc) : Clause :=
  let n := cf w 8 0 32
  ⟨Issues s th w i slot ∧ opIs 0x62 w = true ∧ cf w 4 0 16 = i.p % 4 ∧ 1 ≤ n ∧ n ≤ 65536 ∧ PlainOpd s i (cAddr w 12) m ∧
      m.inPart s i.p = true ∧ m.fmt ≤ 1 ∧ n ≤ m.rows ∧ m.cols ≤ 1048576 ∧ belongs s i.p (cAddr w 20) (2 * n) = true ∧ CleanMem s,
    exec (.sampleSubmit th w) s = .next
      (({ s with samples := s.samples ++ [{ thread := i.key, slot := slot, se := i.p % 4, part := i.p, logits := memItem s (cAddr w 12) }] } :
        State).moved i none (asyncPut slot { w, phase := .running }))⟩

/-- SAMPLE_DONE of one row, greedy (TEMPERATURE 0): the sequence moves on past its take, its token is the one of R78 and goes out with its new
position in an item of OUT_Q, whose probability is a free value; the command is done (R78, R79, R83). -/
abbrev sampleDone (s : State) (th : Thr) (x : Sample) (a : AsyncCmd) : Clause :=
  let m := mdescOf x.logits
  let row := memNat s (cAddr a.w 20) 2
  let ent := btEntry s row
  let e := btBase s + 64 * row
  let ls := (List.range m.cols).map (fun j => (widen m.fmt (readCode s m 0 j) 0x7F).1)
  let tok := (sampleRow ls 0 (BitVec.ofNat 32 (ibits ent 224 32)) (ibits ent 192 16) 0).1
  let pos := min 16777215 (bePos ent + (seqOf s x.part row).take)
  let q := stOutQ (stepCfg s x.part)
  let d := queueOf s q
  let slotA := qBase s q + 64 * ((d.head + d.items.length) % qDepth s q)
  let item := outItem (beSeq ent) pos tok ((Config.freeWord s.freeIdx).toNat % 2 ^ 32) 0 (partOf s x.part).stepNo.toNat (beNode ent) (beStream ent) row
  ⟨s.samples = [x] ∧ x.part = th.part ∧ x.thread / 16 % 2048 = th.core.val ∧ x.thread % 16 = th.tc.val ∧
      (threadOf s x.thread).asyncs = [(x.slot, a)] ∧ cf a.w 8 0 32 = 1 ∧ m.fmt = 0 ∧ 1 ≤ m.cols ∧ m.cols < 2 ^ 20 ∧ tierOf m.base = .scratch ∧
      (btRange s x.part).contains row = true ∧ beState ent = 2 ∧ ibits ent 160 32 = 0 ∧ (tok ≠ ibits ent 128 32 ∨ tok = 0xFFFFFFFF) ∧
      pos < beMaxPos ent ∧ pos < 16777215 ∧ (seqOf s x.part row).cancel = false ∧ serveFaulted s x.part = false ∧
      qEn s q = true ∧ d.dropping = false ∧ 1 ≤ qFree s q ∧ (e + 64 ≤ slotA ∨ slotA + 64 ≤ e) ∧ s.fab.dir = [] ∧ CleanMem s ∧ Canon s,
    Answers (.sampleDone th) s (fun t => bePos (btEntry t row) = pos ∧ beLeft (btEntry t row) = beLeft ent - (seqOf s x.part row).take ∧
      (queueOf t q).items = d.items ++ [{ data := item ||| ((1 : Item) <<< 511), last := false, gap := false, at_ := s.time.now }] ∧
      seqOf t x.part row = { seqOf s x.part row with sampled := true, reason := 0 } ∧
      t.threads = (s.setThread x.thread { threadOf s x.thread with asyncs := [(x.slot, { a with phase := .done, flags := 0 })] }).threads ∧
      t.samples = [] ∧ t.freeIdx = s.freeIdx + 1 ∧
      (∀ y, (y < e ∨ e + 64 ≤ y) → (y < slotA ∨ slotA + 64 ≤ y) → memAt t y = memAt s y) ∧
      RegsBut s t [rPart x.part 0x108, rQcnt q 0, 0x2A0000 + q * 0x10] ∧
      OnlyChanges s t [.samples, .mem, .parts, .queues, .regs, .threads, .freeIdx])⟩

/-- TOKEN_OUT_ITEM: the network die takes an item of OUT_Q, and its record joins the records of its node (R307). -/
abbrev tokenOutItem (s : State) (q : Fin 4096) (x : QItem) (rest : List QItem) : Clause :=
  let p := qPart s q
  let node := ibits x.data 192 16
  ⟨isOutQ s q = true ∧ (queueOf s q).items = x :: rest ∧ x.gap = false ∧ (queueOf s q).waiters = [] ∧
      ((partOf s p).toks.filter (fun r => r.node == node)).length < 255 ∧ CleanMem s ∧ Canon s,
    Answers (.tokenOutItem q) s (fun t => Popped s t q rest ∧
      partOf t p = { partOf s p with
        toks := (partOf s p).toks ++ [⟨node, natBytes 24 (ibits x.data 0 192) ++ natBytes 2 (ibits x.data 208 16) ++ List.replicate 6 0⟩] } ∧
      (∀ k, k ≠ p → partOf t k = partOf s k) ∧ RegsBut s t (popRegs q) ∧ OnlyChanges s t [.queues, .regs, .parts])⟩

/-- A TOKEN_OUT frame without its acknowledgement after ACK_TO_NS goes again, and is counted (R307); it leaves by the one port that is UP. -/
abbrev tokenOutRetxTimer (s : State) (p : Fin 64) (f : TokFrame) (n : Nat) : Clause :=
  let g : TokFrame := { f with tries := f.tries + 1, sentAt := s.time.now }
  ⟨(partOf s p).tokFrames = [f] ∧ f.node < 2 ^ 16 ∧ f.psn < 2 ^ 32 ∧ f.sentAt + ackTo s ≤ s.time.now ∧ f.tries < retxMax s ∧
      (List.range 64).filter (linkUp s) = [n] ∧ netNode s ≠ 0xFFFF ∧ Canon s,
    Answers (.tokenOutRetxTimer p (BitVec.ofNat 16 f.node) (BitVec.ofNat 32 f.psn)) s (fun t =>
      partOf t p = { partOf s p with tokFrames := [g] } ∧
      Queued s t n (servVc s p) { typ := 7, dst := f.node, jobGen := jobGen s p, part := p, window := f.window, psn := f.psn, offset := f.offset,
                                  flags := 2, payload := f.payload } ∧
      fieldOf t (rPart p 0x920) 32 32 = min 0xFFFFFFFF (fieldOf s (rPart p 0x920) 32 32 + 1) ∧ RegsBut s t [rPart p 0x920] ∧
      OnlyChanges s t [.parts, .ports, .regs, .freeIdx])⟩

/-- After RETX_MAX retransmissions its records are lost and counted (R307). -/
abbrev tokenOutLost (s : State) (p : Fin 64) (f : TokFrame) : Clause :=
  ⟨(partOf s p).tokFrames = [f] ∧ f.node < 2 ^ 16 ∧ f.psn < 2 ^ 32 ∧ f.sentAt + ackTo s ≤ s.time.now ∧ retxMax s ≤ f.tries ∧
      btRange s p = [] ∧ Canon s,
    Answers (.tokenOutRetxTimer p (BitVec.ofNat 16 f.node) (BitVec.ofNat 32 f.psn)) s (fun t =>
      partOf t p = { partOf s p with tokFrames := [] } ∧
      fieldOf t (rPart p 0x928) 0 32 = min 0xFFFFFFFF (fieldOf s (rPart p 0x928) 0 32 + f.records) ∧ RegsBut s t [rPart p 0x928] ∧
      OnlyChanges s t [.parts, .regs])⟩

/-- The acknowledgement of a serving frame on the port it came by (R104, R303). -/
def ackOf (s : State) (f : Sys2Proof.Frame) (placed : List Nat) : Oxt :=
  { typ := 1, dst := f.srcNode.toNat, jobGen := jobGen s f.part, part := f.part, window := f.window.toNat,
    udpSrc := some (0xC000 + f.port.val), payload := msgAck s placed }

/-- Frame 0 of a NEW request of more than one frame: a prompt buffer is taken, here from its class's stack, the frame is placed at its start
and acknowledged (R305). -/
abbrev oxtRequestFirst (s : State) (f : Sys2Proof.Frame) (c a : Nat) (more : List Nat) : Clause :=
  let x : Item := BitVec.ofNat 512 (leNat (f.payload.take 64))
  let p := f.part.val
  ⟨FrameTaken s f 6 (servVc s p) false ∧ (partOf s p).reqs = [] ∧ (f.srcNode.toNat, f.window.toNat) ∉ (partOf s p).recent ∧
      f.psn = 0 ∧ f.offset = 0 ∧ f.last = false ∧ 64 ≤ f.payload.length ∧ rqOk x = true ∧ ibits x 32 2 = 0 ∧
      f.payload.length ≤ 64 + 4 * ibits x 40 24 ∧ classFor (64 + 4 * ibits x 40 24) = some c ∧
      (poolOf s (poolKey p c)).stack = a :: more ∧ a ≠ 0 ∧ s.fab.dir = [] ∧ CleanMem s,
    Answers (.oxtRequestRx f) s (fun t => RxCounted s t f ∧ Queued (heard s f) t f.port (servVc s p) (ackOf s f [0]) ∧
      partOf t p = { partOf s p with reqs := [{ src := f.srcNode.toNat, msg := f.window.toNat, buf := a, header := x, placed := [0] }] } ∧
      memBytes t a f.payload.length = f.payload ∧ MemBut s t a f.payload.length ∧
      poolOf t (poolKey p c) = { poolOf s (poolKey p c) with stack := more } ∧
      RegsBut s t (rxRegs f.port (servVc s p) ++ [rPool p c 0x10, rPool p c 0x18, rPoolCnt p c 0]) ∧
      OnlyChanges s t [.regs, .ports, .parts, .mem, .pools])⟩

/-- A CANCEL message is one frame; placed whole, it is an item of REQ_Q with the node it came from (R304, R305). -/
abbrev oxtRequestRx (s : State) (f : Sys2Proof.Frame) : Clause :=
  let x : Item := BitVec.ofNat 512 (leNat (f.payload.take 64))
  let p := f.part.val
  let q := stReqQ (stepCfg s p)
  let d := queueOf s q
  let item : Item := BitVec.ofNat 512 (setBits (setBits x.toNat 288 52 0) 352 16 f.srcNode.toNat)
  ⟨FrameTaken s f 6 (servVc s p) false ∧ (partOf s p).reqs = [] ∧ (f.srcNode.toNat, f.window.toNat) ∉ (partOf s p).recent ∧
      f.psn = 0 ∧ f.offset = 0 ∧ f.last = true ∧ f.payload.length = 64 ∧ ibits x 32 2 = 1 ∧ ibits x 40 24 = 0 ∧
      qEn s q = true ∧ qPart s q = p ∧ qArrEn s q = false ∧ d.dropping = false ∧ 1 ≤ qFree s q ∧ s.fab.dir = [] ∧ CleanMem s,
    Answers (.oxtRequestRx f) s (fun t => RxCounted s t f ∧ Queued (heard s f) t f.port (servVc s p) (ackOf s f [0]) ∧
      (queueOf t q).items = d.items ++ [{ data := item ||| ((1 : Item) <<< 511), last := true, gap := false, at_ := s.time.now }] ∧
      partOf t p = { partOf s p with recent := ((f.srcNode.toNat, f.window.toNat) :: (partOf s p).recent).take 4096 } ∧
      regOf t (rPart p 0x900) = regOf s (rPart p 0x900) + 1 ∧
      RegsBut s t (rxRegs f.port (servVc s p) ++ [rPart p 0x900, rQcnt q 0, 0x2A0000 + q * 0x10]) ∧
      OnlyChanges s t [.regs, .ports, .parts, .mem, .queues])⟩

/-- A header that fails its checks is counted, acknowledged, and answered by a TOKEN_OUT record with REASON FAULT (R305). -/
abbrev oxtRequestBad (s : State) (f : Sys2Proof.Frame) : Clause :=
  let x : Item := BitVec.ofNat 512 (leNat (f.payload.take 64))
  let p := f.part.val
  ⟨FrameTaken s f 6 (servVc s p) false ∧ (partOf s p).reqs = [] ∧ (f.srcNode.toNat, f.window.toNat) ∉ (partOf s p).recent ∧
      f.psn = 0 ∧ f.offset = 0 ∧ (f.payload.length < 64 ∨ rqOk x = false) ∧
      ((partOf s p).toks.filter (fun r => r.node == f.srcNode.toNat)).length < 255,
    Answers (.oxtRequestRx f) s (fun t => RxCounted s t f ∧ Queued (heard s f) t f.port (servVc s p) (ackOf s f [0]) ∧
      partOf t p = { partOf s p with
        recent := ((f.srcNode.toNat, f.window.toNat) :: (partOf s p).recent).take 4096,
        toks := (partOf s p).toks ++ [⟨f.srcNode.toNat, recordOf (outItem (ibits x 0 32) 0 0 0 5 (partOf s p).stepNo.toNat f.srcNode.toNat
                  (ibits x 208 16) 0)⟩] } ∧
      fieldOf t (rPart p 0x910) 0 32 = min 0xFFFFFFFF (fieldOf s (rPart p 0x910) 0 32 + 1) ∧
      RegsBut s t (rxRegs f.port (servVc s p) ++ [rPart p 0x910]) ∧ OnlyChanges s t [.regs, .ports, .parts])⟩

/-- A frame of a message that is already queued is acknowledged again and counted (R305). -/
abbrev oxtRequestDup (s : State) (f : Sys2Proof.Frame) : Clause :=
  let p := f.part.val
  ⟨FrameTaken s f 6 (servVc s p) false ∧ (f.srcNode.toNat, f.window.toNat) ∈ (partOf s p).recent,
    Answers (.oxtRequestRx f) s (fun t => RxCounted s t f ∧ Queued (heard s f) t f.port (servVc s p) (ackOf s f [f.psn.toNat]) ∧
      fieldOf t (rPart p 0x918) 32 32 = min 0xFFFFFFFF (fieldOf s (rPart p 0x918) 32 32 + 1) ∧
      RegsBut s t (rxRegs f.port (servVc s p) ++ [rPart p 0x918]) ∧ OnlyChanges s t [.regs, .ports])⟩

/-- An ACK of a TOKEN_OUT frame ends its retransmission and counts its records as sent (R307). -/
abbrev oxtAckServing (s : State) (f : Sys2Proof.Frame) (g : TokFrame) : Clause :=
  let p := f.part.val
  ⟨FrameTaken s f 1 (servVc s p) true ∧ (partOf s p).tokFrames = [g] ∧ g.node = f.srcNode.toNat ∧ g.window = f.window.toNat ∧
      ackHas f.payload g.psn = true,
    Answers (.oxtAckRx f) s (fun t => RxTaken s t f ∧ partOf t p = { partOf s p with tokFrames := [] } ∧
      regOf t (rPart p 0x908) = regOf s (rPart p 0x908) + BitVec.ofNat 64 g.records ∧ RegsBut s t (rxRegs f.port f.pcp ++ [rPart p 0x908]) ∧
      OnlyChanges s t [.regs, .ports, .parts])⟩

end Sys2Proof.Claims

open Sys2Proof.Claims in
/-- The step controller's set-up, requests, cancels and sampling: the batch entry, the queues, and what stays. -/
def Obligations.StepController : Prop :=
  ∀ (s : State) (p : Fin 64) (word : Fin 8) (w : Wr) (x : QItem) (rest : List QItem) (i c a : Nat) (more : List Nat) (th : Thr) (v : Cmd)
    (k : Iss) (slot : Nat) (m : Mdesc) (y : Sample) (b : AsyncCmd) (e : Fin 4096) (cmd : Instr),
    (sreStepWrite s p word w).Holds ∧ (scRequestTake s p x rest i c a more).Holds ∧ (scRequestFull s p x rest).Holds ∧
      (scCancel s p x rest i).Holds ∧ (scCancelUnknown s p x rest).Holds ∧ (scWaits s p e cmd).Holds ∧ (sampleSubmit s th v k slot m).Holds ∧ (sampleDone s th y b).Holds

open Sys2Proof.Claims in
/-- Request messages, TOKEN_OUT records and frames, and their acknowledgements. -/
def Obligations.ServingMessages : Prop :=
  ∀ (s : State) (q : Fin 4096) (x : QItem) (rest : List QItem) (p : Fin 64) (g : TokFrame) (f : Sys2Proof.Frame) (n c a : Nat) (more : List Nat),
    (tokenOutItem s q x rest).Holds ∧ (tokenOutRetxTimer s p g n).Holds ∧ (tokenOutLost s p g).Holds ∧ (oxtRequestFirst s f c a more).Holds ∧
      (oxtRequestRx s f).Holds ∧ (oxtRequestBad s f).Holds ∧ (oxtRequestDup s f).Holds ∧ (oxtAckServing s f g).Holds

/-! ## Expert routing (R53–R77, R85, R86) -/

namespace Sys2Proof.Claims

/-- ROUTE_CONTEXT_WRITE stores a word of a context that stays disabled or passes the check of R57. -/
abbrev routeContextWrite (s : State) (se : Fin 4) (c : Fin 256) (word : Fin 8) (w : Wr) : Clause :=
  let off := rRctx se c word
  let new := plainWrite off (regOf s off).toNat w
  let r := se.val * 256 + c.val
  let cfg : Item := BitVec.ofNat 512 (setBits (rcfgOf s r).toNat (64 * word) 64 new)
  ⟨ByOwner s w.path ∧ (rcEn cfg = false ∨ rctxOk s r cfg = true),
    exec (.routeContextWrite se c word w) s = .next (s.setReg off new)⟩

/-- A context that does not pass it keeps the word, is disabled, and raises EXCH_PARAM (R57). -/
abbrev routeContextRefused (s : State) (se : Fin 4) (c : Fin 256) (word : Fin 8) (w : Wr) : Clause :=
  let off := rRctx se c word
  let new := plainWrite off (regOf s off).toNat w
  let r := se.val * 256 + c.val
  let cfg : Item := BitVec.ofNat 512 (setBits (rcfgOf s r).toNat (64 * word) 64 new)
  ⟨ByOwner s w.path ∧ rcEn cfg = true ∧ rctxOk s r cfg = false ∧ Canon s,
    Answers (.routeContextWrite se c word w) s (fun t => rcEn (rcfgOf t r) = false ∧ (word ≠ 0 → regOf t off = regOf s off) ∧
      Reported s t 0x4003 2 (32 + se.val) c (some (rcPart cfg)) 0 0 ∧ RegsBut s t (rRctx se c 0 :: errSrc (32 + se.val)) ∧
      OnlyChanges s t [.regs, .err])⟩

/-- A submit as ROUTE_SUBMIT makes it (R53, R86). -/
abbrev submitOf (s : State) (i : Iss) (slot : Nat) : Submit :=
  { rctx := cf i.w 4 0 10, tag := cf i.w 28 0 32, part := i.p, layer := cf i.w 6 0 16, ntok := cf i.w 8 0 32,
    payload := memItem s (cAddr i.w 12), out := memItem s (cAddr i.w 20), thread := i.key, slot := slot, phase := .waiting,
    cfg := rcfgOf s (cf i.w 4 0 10) }

/-- A submit item stands at the tail of its queue (R56, R179). -/
abbrev Landed (s t : State) (q : Nat) (x : Item) (waits : List (Nat × Nat × Item)) : Prop :=
  let d := queueOf s q
  queueOf t q = { d with items := d.items ++ [{ data := x ||| ((1 : Item) <<< 511), last := true, gap := false, sub := true, at_ := s.time.now }], submits := waits,
                         since := if d.items.isEmpty then s.time.now else d.since } ∧
    MemBut s t (qBase s q + 64 * ((d.head + d.items.length) % qDepth s q)) 64 ∧ regOf t (rQcnt q 0) = regOf s (rQcnt q 0) + 1

/-- ROUTE_SUBMIT on an enabled context of its partition: its submit item enters the context's queue, and the command completes when the
send list is handed over (R53, R56, R86). -/
abbrev routeSubmit (s : State) (th : Thr) (w : Cmd) (i : Iss) (slot : Nat) (pay out : Mdesc) : Clause :=
  let c := rcfgOf s (cf w 4 0 10)
  let q := rcInQ c
  ⟨Issues s th w i slot ∧ opIs 0x60 w = true ∧ 1 ≤ cf w 8 0 32 ∧ cf w 8 0 32 ≤ 16777215 ∧ PlainOpd s i (cAddr w 12) pay ∧
      PlainOpd s i (cAddr w 20) out ∧ pay.inPart s i.p = true ∧ out.inPart s i.p = true ∧ rcPart c = i.p ∧ rcEn c = true ∧ groupOn s (rcGroup c) = true ∧ qEn s q = true ∧
      qCons s q = 1 ∧ qCunit s q = cf w 4 0 10 / 256 ∧ out.fmt ≤ 1 ∧ out.cols * (fmtBits (rcRetFmt c) / 8) ≤ rcTb c ∧ 1 ≤ qFree s q ∧
      (queueOf s q).submits = [] ∧ qArrEn s q = false ∧ s.fab.dir = [] ∧ CleanMem s,
    Answers (.routeSubmit th w) s (fun t => t.submits = s.submits ++ [submitOf s i slot] ∧ t.tagsDone = s.tagsDone.filter (fun d => !(d.rctx == cf w 4 0 10 && d.tag == cf w 28 0 32)) ∧ Landed s t q (submitItem i) [] ∧
      t.threads = (s.moved i none (asyncPut slot { w, phase := .running })).threads ∧ RegsBut s t [rQcnt q 0, 0x2A0000 + q * 0x10] ∧
      OnlyChanges s t [.submits, .tagsDone, .queues, .mem, .regs, .threads])⟩

/-- A submit item that has to wait does so behind its queue (R86). -/
abbrev routeSubmitWaits (s : State) (th : Thr) (w : Cmd) (i : Iss) (slot : Nat) (pay out : Mdesc) : Clause :=
  let c := rcfgOf s (cf w 4 0 10)
  let q := rcInQ c
  ⟨Issues s th w i slot ∧ opIs 0x60 w = true ∧ 1 ≤ cf w 8 0 32 ∧ cf w 8 0 32 ≤ 16777215 ∧ PlainOpd s i (cAddr w 12) pay ∧
      PlainOpd s i (cAddr w 20) out ∧ pay.inPart s i.p = true ∧ out.inPart s i.p = true ∧ rcPart c = i.p ∧ rcEn c = true ∧ groupOn s (rcGroup c) = true ∧ qEn s q = true ∧
      qCons s q = 1 ∧ qCunit s q = cf w 4 0 10 / 256 ∧ out.fmt ≤ 1 ∧ out.cols * (fmtBits (rcRetFmt c) / 8) ≤ rcTb c ∧ qFree s q = 0 ∧
      CleanMem s,
    Answers (.routeSubmit th w) s (fun t => t.submits = s.submits ++ [submitOf s i slot] ∧ t.tagsDone = s.tagsDone.filter (fun d => !(d.rctx == cf w 4 0 10 && d.tag == cf w 28 0 32)) ∧
      queueOf t q = { queueOf s q with submits := (queueOf s q).submits ++ [(i.key, slot, submitItem i)] } ∧
      t.threads = (s.moved i none (asyncPut slot { w, phase := .running })).threads ∧ OnlyChanges s t [.submits, .tagsDone, .queues, .threads])⟩

/-- ROUTE_SUBMIT on a context that is disabled or another partition's completes at once and raises EXCH_PARAM (R57, R85). -/
abbrev routeSubmitBad (s : State) (th : Thr) (w : Cmd) (i : Iss) (slot : Nat) (pay out : Mdesc) : Clause :=
  let r := cf w 4 0 10
  ⟨Issues s th w i slot ∧ opIs 0x60 w = true ∧ 1 ≤ cf w 8 0 32 ∧ cf w 8 0 32 ≤ 16777215 ∧ PlainOpd s i (cAddr w 12) pay ∧
      PlainOpd s i (cAddr w 20) out ∧ pay.inPart s i.p = true ∧ out.inPart s i.p = true ∧ (rcPart (rcfgOf s r) ≠ i.p ∨ rcEn (rcfgOf s r) = false) ∧
      CleanMem s,
    Answers (.routeSubmit th w) s (fun t => Ran s t i slot 0 ∧ Reported s t 0x4003 2 (32 + r / 256) (r % 256) (some i.p) 0 0 ∧
      RegsBut s t (errSrc (32 + r / 256)) ∧ OnlyChanges s t [.threads, .regs, .err])⟩

/-- One whose context names no enabled group, or whose outputs do not fit, is refused, and its tag has failed (R75, R88). -/
abbrev routeSubmitRefused (s : State) (th : Thr) (w : Cmd) (i : Iss) (slot : Nat) (pay out : Mdesc) : Clause :=
  let r := cf w 4 0 10
  let c := rcfgOf s r
  let q := rcInQ c
  ⟨Issues s th w i slot ∧ opIs 0x60 w = true ∧ 1 ≤ cf w 8 0 32 ∧ cf w 8 0 32 ≤ 16777215 ∧ PlainOpd s i (cAddr w 12) pay ∧
      PlainOpd s i (cAddr w 20) out ∧ pay.inPart s i.p = true ∧ out.inPart s i.p = true ∧ rcPart c = i.p ∧ rcEn c = true ∧ qEn s q = true ∧
      qCons s q = 1 ∧ qCunit s q = r / 256 ∧
      (groupOn s (rcGroup c) = false ∨ 1 < out.fmt ∨ rcTb c < out.cols * (fmtBits (rcRetFmt c) / 8)) ∧
      (∀ e ∈ s.threads, ∀ r tg g, e.2.wait ≠ .combine r tg g) ∧ CleanMem s,
    Answers (.routeSubmit th w) s (fun t => Ran s t i slot 0 ∧ t.submits = s.submits ∧
      t.tagsDone = s.tagsDone.filter (fun d => !(d.rctx == r && d.tag == cf w 28 0 32)) ++
        [{ rctx := r, tag := cf w 28 0 32, status := 2, flags := 0 }] ∧
      Reported s t 0x4003 2 (32 + r / 256) (r % 256) (some i.p) 0 0 ∧
      RegsBut s t (errSrc (32 + r / 256)) ∧ OnlyChanges s t [.threads, .tagsDone, .regs, .err])⟩

/-- SUBMIT_ITEM_LAND: with room, the submit item that waits longest lands; a Q_PUSH of its thread that waited behind it may go on (R86). -/
abbrev submitItemLand (s : State) (q : Fin 4096) (k slot : Nat) (x : Item) : Clause :=
  ⟨(queueOf s q).submits = [(k, slot, x)] ∧ 1 ≤ qFree s q ∧ qArrEn s q = false ∧ s.fab.dir = [] ∧ CleanMem s ∧ Canon s,
    Answers (.submitItemLand q) s (fun t => Landed s t q x [] ∧
      threadOf t k = (if (threadOf s k).wait = .submitItem q then { threadOf s k with wait := .met, hdrDone := true, cur := none } else threadOf s k) ∧
      (∀ j, j ≠ k → threadOf t j = threadOf s j) ∧ RegsBut s t [rQcnt q 0, 0x2A0000 + q.val * 0x10] ∧
      OnlyChanges s t [.queues, .mem, .regs, .threads])⟩

/-- A Sedge die may read a queue of its own, of a partition whose job runs; no kick is in force, and no queue that goes ahead is bound to the
die (R189, R190). -/
abbrev SreReads (s : State) (se q : Nat) : Prop :=
  boundTo s se q = true ∧ (∀ e ∈ s.queues, e.2.kicked = false ∧ (boundTo s se e.1 = true → e.1 = q ∨ sreAhead s e.1 q = false)) ∧
    (partOf s (qPart s q)).td = .none ∧ jobState s (qPart s q) = 2 ∧
    (queueOf s q).waiters = [] ∧ CleanMem s ∧ Canon s

/-- SRE_SUBMIT_ITEM_READ: the submit now reads its logit packets from the queue, with its context and EPT generation as they stand (R23, R53,
R56). -/
abbrev sreSubmitItemRead (s : State) (se : Fin 4) (q : Fin 4096) (x : QItem) (rest : List QItem) (u : Submit) : Clause :=
  let c := rcfgOf s u.rctx
  let d := partOf s u.part
  let v : Submit := { u with phase := .reading, cfg := c, eptGen := d.eptGen, eptBase := d.eptBase }
  ⟨SreReads s se q ∧ (queueOf s q).items = x :: rest ∧ x.sub = true ∧ x.gap = false ∧ s.submits = [u] ∧ u.phase = .waiting ∧
      u.rctx = ibits x.data 32 10 ∧ u.tag = ibits x.data 224 32 ∧ rcEn c = true ∧ rcPart c = u.part ∧ rcInQ c = q ∧
      (layerReady s v = false ∧ (slotsOf s se).length < 16 ∨ u.eptBad = false ∧ d.eptGen = 0 ∧ slotsOf s se = []),
    Answers (.sreSubmitItemRead se q) s (fun t => t.submits = [v] ∧ Popped s t q rest ∧ RegsBut s t (popRegs q) ∧
      OnlyChanges s t [.submits, .queues, .regs])⟩

/-- The input arbiter serves the queue of the highest PRIO that holds a complete packet it can take: one of a lower PRIO waits (R190). -/
abbrev sreLowerWaits (s : State) (se : Fin 4) (q e : Fin 4096) (c : Instr) : Clause :=
  ⟨(c = .sreSubmitItemRead se q ∨ c = .sreLogitPacket se q) ∧ e ≠ q ∧ sreReady s se e = true ∧ (queueOf s q).kicked = false ∧
      qPrio s q < qPrio s e,
    exec c s = .next s⟩

/-- Of two queues of equal PRIO the one whose packet came later waits, and of two that came in the same cycle the one of the higher number
(R189). -/
abbrev sreLaterWaits (s : State) (se : Fin 4) (q e : Fin 4096) (c : Instr) : Clause :=
  ⟨(c = .sreSubmitItemRead se q ∨ c = .sreLogitPacket se q) ∧ e ≠ q ∧ sreReady s se e = true ∧ (queueOf s q).kicked = false ∧
      qPrio s q = qPrio s e ∧ (packetAt s e < packetAt s q ∨ packetAt s e = packetAt s q ∧ e < q),
    exec c s = .next s⟩

/-- The counters that the routing of one token may change (R77, R161). -/
def routeRegs (se r p q : Nat) : List Nat := popRegs q ++ [rRcnt se r 0, rRcnt se r 8, rRcnt se r 0x18, rPart p 0x108]

/-- SRE_LOGIT_PACKET of a well-formed packet, without expert groups: the token gets K picks of K different experts, ranked from 0, each
placed or marked unroutable (R56, R59–R67). -/
abbrev sreLogitPacket (s : State) (se : Fin 4) (q : Fin 4096) (u : Submit) : Clause :=
  let its := (queueOf s q).items
  let row := ibits (its.headD { data := 0, last := true, gap := true }).data 32 24
  ⟨SreReads s se q ∧ s.submits = [u] ∧ u.phase = .reading ∧ rcInQ u.cfg = q ∧ u.rctx / 256 = se.val ∧ layerReady s u = true ∧
      eptStale s se u.part = false ∧ headPacket s q = some its ∧ its.length = 1 + logitItems u.cfg ∧
      (∀ x ∈ its, x.gap = false ∧ x.sub = false) ∧ rcNgroup u.cfg < 2 ∧ rcK u.cfg ≤ rcE u.cfg,
    Answers (.sreLogitPacket se q) s (fun t =>
      let ks := (t.submits.headD u).picks.drop u.picks.length
      (queueOf t q).items = [] ∧
      t.submits = [{ u with picks := u.picks ++ ks, taken := u.taken + 1, phase := if u.taken + 1 = u.ntok then .built else .reading }] ∧
      ks.length = rcK u.cfg ∧ ks.map (·.rank) = List.range (rcK u.cfg) ∧ (ks.map (·.expert)).Nodup ∧
      (∀ k ∈ ks, k.tok = row ∧ k.expert < rcE u.cfg ∧ (k.gap = none ∨ k.gap = some 1)) ∧
      RegsBut s t (routeRegs se (u.rctx % 256) u.part q) ∧ OnlyChanges s t [.submits, .queues, .regs, .loads])⟩

/-- A packet of the wrong length is counted as malformed, and its token gets K missing picks (R56, R70). -/
abbrev sreLogitBad (s : State) (se : Fin 4) (q : Fin 4096) (u : Submit) : Clause :=
  let its := (queueOf s q).items
  let row := ibits (its.headD { data := 0, last := true, gap := true }).data 32 24
  ⟨SreReads s se q ∧ s.submits = [u] ∧ u.phase = .reading ∧ rcInQ u.cfg = q ∧ u.rctx / 256 = se.val ∧ layerReady s u = true ∧
      eptStale s se u.part = false ∧ headPacket s q = some its ∧ its.length ≠ 1 + logitItems u.cfg ∧
      (∀ x ∈ its, x.gap = false ∧ x.sub = false),
    Answers (.sreLogitPacket se q) s (fun t => (queueOf t q).items = [] ∧
      t.submits = [{ u with
        picks := u.picks ++ (List.range (rcK u.cfg)).map (fun k => { tok := row, rank := k, expert := 0, weight := 0, gap := some 2 }),
        taken := u.taken + 1, phase := if u.taken + 1 = u.ntok then .built else .reading }] ∧
      fieldOf t (rRcnt se (u.rctx % 256) 0x10) 0 32 = min 0xFFFFFFFF (fieldOf s (rRcnt se (u.rctx % 256) 0x10) 0 32 + 1) ∧
      RegsBut s t (rRcnt se (u.rctx % 256) 0x10 :: popRegs q) ∧ OnlyChanges s t [.submits, .queues, .regs])⟩

/-- A packet whose header is itself a gap marker is counted as malformed, and its token, whose row nothing names, gets K missing picks (R20,
R56, log entry 134). -/
abbrev sreLogitNoHeader (s : State) (se : Fin 4) (q : Fin 4096) (u : Submit) (x : QItem) : Clause :=
  ⟨SreReads s se q ∧ s.submits = [u] ∧ u.phase = .reading ∧ rcInQ u.cfg = q ∧ u.rctx / 256 = se.val ∧ layerReady s u = true ∧
      eptStale s se u.part = false ∧ (queueOf s q).items = [x] ∧ x.last = true ∧ x.gap = true ∧ x.sub = false,
    Answers (.sreLogitPacket se q) s (fun t => (queueOf t q).items = [] ∧ t.freeIdx = s.freeIdx + 1 ∧
      (∃ row, row < 2 ^ 24 ∧ t.submits = [{ u with
        picks := u.picks ++ (List.range (rcK u.cfg)).map (fun k => { tok := row, rank := k, expert := 0, weight := 0, gap := some 2 }),
        taken := u.taken + 1, phase := if u.taken + 1 = u.ntok then .built else .reading }]) ∧
      fieldOf t (rRcnt se (u.rctx % 256) 0x10) 0 32 = min 0xFFFFFFFF (fieldOf s (rRcnt se (u.rctx % 256) 0x10) 0 32 + 1) ∧
      RegsBut s t (rRcnt se (u.rctx % 256) 0x10 :: popRegs q) ∧ OnlyChanges s t [.submits, .queues, .regs, .freeIdx])⟩

/-- The send records of a submit: every pick once, in ascending order of the 64-bit keys (R68). -/
abbrev sendOrder (ps : List Pick) : Clause :=
  ⟨True, (sortByKey ps).Perm ps ∧ ((sortByKey ps).map sendKey).Pairwise (· ≤ ·)⟩

/-- With destinations below 0x3FFF the gap markers come after every admitted route (R68). -/
abbrev sendGapsLast (ps : List Pick) (i j : Nat) (a b : Pick) : Clause :=
  ⟨(∀ k ∈ ps, k.dest < 0x3FFF ∧ k.expert < 2 ^ 16 ∧ k.tok < 2 ^ 24 ∧ k.rank < 16) ∧ (sortByKey ps)[i]? = some a ∧ (sortByKey ps)[j]? = some b ∧
      a.gap.isSome = true ∧ b.gap = none, j < i⟩

/-- The picks that hold a place at one destination. -/
def placedAt (ps : List Pick) (dest : Nat) : List Pick := ps.filter (fun k => k.gap.isNone && k.dest == dest)

/-- Admission in Reserved mode: a destination gets its first CAPACITY picks in the order of R70, at positions 0, 1, …; the others are marked as
capacity drops, and no pick is lost (R70). -/
abbrev admission (c : Item) (ps : List Pick) (dest : Nat) : Clause :=
  ⟨rcElastic c = false,
    (placedAt (admitPicks c ps) dest).map (·.pos) = List.range (min (rcCap c) (placedAt ps dest).length) ∧ (admitPicks c ps).length = ps.length ∧
      (placedAt (admitPicks c ps) dest).map (fun k => (k.tok, k.rank)) =
        ((placedAt (sortBy admitsBefore ps) dest).take (rcCap c)).map (fun k => (k.tok, k.rank))⟩

/-- Admission in Elastic mode: every pick has a place, CAPACITY of them in each window (R71). -/
abbrev admissionElastic (c : Item) (ps : List Pick) (dest : Nat) : Clause :=
  ⟨rcElastic c = true ∧ 1 ≤ rcCap c,
    (placedAt (admitPicks c ps) dest).map (fun k => k.win * rcCap c + k.pos) = List.range (placedAt ps dest).length ∧
      (∀ k ∈ placedAt (admitPicks c ps) dest, k.pos < rcCap c)⟩

/-- SEND_LIST_HANDOFF of a set whose one context has built its list, without a capacity drop: the list is handed over and the ROUTE_SUBMIT is
complete (R53, R54, R70). -/
abbrev sendListHandoff (s : State) (p : Fin 64) (setId : BitVec 8) (tag : BitVec 32) (u : Submit) : Clause :=
  let ps := sortByKey (admitPicks u.cfg u.picks)
  ⟨s.submits = [u] ∧ u.part = p ∧ u.tag = tag.toNat ∧ rcSet u.cfg = setId.toNat ∧ u.phase = .built ∧
      setContexts s p setId.toNat = [u.rctx] ∧ pendingLaunches s (rcGroup u.cfg) < 8 ∧ (partOf s p).td = .none ∧
      (∀ k ∈ ps, k.gap ≠ some 0 ∧ k.win = 0) ∧ Canon s,
    Answers (.sendListHandoff p setId tag) s (fun t => t.submits = [{ u with picks := ps, send := ps.map sendRecord, phase := .handed }] ∧
      threadOf t u.thread = { threadOf s u.thread with
        asyncs := (threadOf s u.thread).asyncs.map (fun e => if e.1 = u.slot then (e.1, { e.2 with phase := .done, flags := 0 }) else e) } ∧
      (∀ k, k ≠ u.thread → threadOf t k = threadOf s k) ∧ OnlyChanges s t [.submits, .threads])⟩

/-- COMBINE of one token with one pick whose return is here: the output row is the weighted return, the tag has its outcome, and nothing else in
memory changes (R74, R86). -/
abbrev combine (s : State) (p : Fin 64) (setId : BitVec 8) (tag : BitVec 32) (u : Submit) (k : Pick) (a : Nat) : Clause :=
  let o := mdescOf u.out
  let fmt := rcRetFmt u.cfg
  let w := sumF32 [k.weight]
  let f := if policyOf s u.cfg = 1 then (if (ofF32 w.1).isZero then 0 else (divNum (ofF32 w.1) (ofF32 w.1)).1) else 0x3F800000
  let row := wrapAddr o.base (k.tok * o.stride)
  ⟨s.submits = [u] ∧ u.part = p ∧ u.tag = tag.toNat ∧ rcSet u.cfg = setId.toNat ∧ u.phase = .handed ∧ returnsIn s p setId.toNat tag.toNat = true ∧
      (∀ l ∈ s.launches, l.past = false) ∧ u.picks = [k] ∧ k.gap = none ∧ rcK u.cfg * u.ntok = 1 ∧
      returnAddr s p setId.toNat tag.toNat (u.rctx / 256) k = some a ∧ a + o.cols * (fmtBits fmt / 8) ≤ 0x0D0000000000 ∧
      rcAccum u.cfg = false ∧ k.tok < o.rows ∧ o.fmt = 0 ∧ o.rowBytes ≤ o.stride ∧ tierOf o.base = .scratch ∧
      o.base % 0x200000 + k.tok * o.stride + o.rowBytes ≤ 0x200000 ∧ belongs s p row o.rowBytes = true ∧
      (∀ e ∈ s.threads, ∀ r tg g, e.2.wait ≠ .combine r tg g) ∧ s.fab.dir = [] ∧ CleanMem s ∧ Canon s,
    Answers (.combine p ⟨setId, []⟩ tag) s (fun t => t.submits = [] ∧
      (∀ j, j < o.cols → readCode t o k.tok j = (toFmt 0 rne (ofF32 (combineElem s fmt f [(k, a)] 0 j).1)).1) ∧
      (∃ fl, t.tagsDone = s.tagsDone.filter (fun d => !(d.rctx == u.rctx && d.tag == u.tag)) ++
        [{ rctx := u.rctx, tag := u.tag, status := 0, flags := fl }]) ∧ MemBut s t row o.rowBytes ∧
      RegsBut s t [rPart p 0x108] ∧ OnlyChanges s t [.submits, .tagsDone, .mem, .regs])⟩

/-- A pick whose expert is split: its partial outputs are summed exactly into its return, and the row is the weighted sum (R74, R111). -/
abbrev combineSplit (s : State) (p : Fin 64) (setId : BitVec 8) (tag : BitVec 32) (u : Submit) (k : Pick) (a : Nat) (x : SplitSum) : Clause :=
  let o := mdescOf u.out
  let fmt := rcRetFmt u.cfg
  let bytes := (splitSums u x).flatMap (fun y => natBytes (elBytes fmt) y.1.1)
  let w := sumF32 [k.weight]
  let f := if policyOf s u.cfg = 1 then (if (ofF32 w.1).isZero then 0 else (divNum (ofF32 w.1) (ofF32 w.1)).1) else 0x3F800000
  let row := wrapAddr o.base (k.tok * o.stride)
  ⟨(combine s p setId tag u k a).pre ∧ u.rctx / 256 = x.se ∧ k.tok = x.tok ∧ k.rank = x.rank ∧ (∀ y ∈ splitSums u x, y.2 = .good) ∧
      (a + bytes.length ≤ row ∨ row + o.rowBytes ≤ a),
    Answers (.combine p ⟨setId, [x]⟩ tag) s (fun t => t.submits = [] ∧ memBytes t a bytes.length = bytes ∧
      (∃ m, memBytes m a bytes.length = bytes ∧ MemBut s m a bytes.length ∧
        ∀ j, j < o.cols → readCode t o k.tok j = (toFmt 0 rne (ofF32 (combineElem m fmt f [(k, a)] 0 j).1)).1) ∧
      (∃ fl, t.tagsDone = s.tagsDone.filter (fun d => !(d.rctx == u.rctx && d.tag == u.tag)) ++
        [{ rctx := u.rctx, tag := u.tag, status := 0, flags := fl }]) ∧
      (∀ y, (y < a ∨ a + bytes.length ≤ y) → (y < row ∨ row + o.rowBytes ≤ y) → memAt t y = memAt s y) ∧
      RegsBut s t [rPart p 0x108] ∧ OnlyChanges s t [.submits, .tagsDone, .mem, .regs])⟩

/-- A second residue mismatch in the sum fails the combine of the route tag: COMBINE_WAIT will get status 2, RESIDUE_MISMATCH is raised with the
element, and no output row is written (R20, R112, R382). -/
abbrev combineSplitFails (s : State) (p : Fin 64) (setId : BitVec 8) (tag : BitVec 32) (u : Submit) (k : Pick) (a : Nat) (x : SplitSum)
    (y : Nat × Flags) : Clause :=
  let h := rcGroup u.cfg
  let n := k.tok * (mdescOf u.out).cols
  let r := fun (code sev : Nat) => ({ code, sev, die := 36, unit := h, part := some p.val, addr := 0, detail := n, ft := ftNs s } : Report)
  ⟨(combine s p setId tag u k a).pre ∧ u.rctx / 256 = x.se ∧ k.tok = x.tok ∧ k.rank = x.rank ∧ splitSums u x = [(y, .failed)],
    Answers (.combine p ⟨setId, [x]⟩ tag) s (fun t => t.submits = [] ∧
      t.tagsDone = s.tagsDone.filter (fun d => !(d.rctx == u.rctx && d.tag == u.tag)) ++
        [{ rctx := u.rctx, tag := u.tag, status := 2, flags := 0 }] ∧
      t.err = { s.err with inflight := s.err.inflight ++ [r 0x4007 1, r 0x4008 2] } ∧
      fieldOf t (rXg h 0x28) 32 32 = min 0xFFFFFFFF (fieldOf s (rXg h 0x28) 32 32 + 1) ∧ MemBut s t a (elBytes (rcRetFmt u.cfg)) ∧
      RegsBut s t (rPart p 0x108 :: rXg h 0x28 :: errSrc 36) ∧ OnlyChanges s t [.submits, .tagsDone, .mem, .regs, .err])⟩

/-- COMBINE_WAIT for a tag that has its outcome: the status and the flags go to the thread, and the outcome stays for a
later COMBINE_WAIT (R86, R162). -/
abbrev combineWait (s : State) (th : Thr) (w : Cmd) (i : Iss) (d : TagDone) : Clause :=
  ⟨Plain s th w i ∧ opIs 0x61 w = true ∧ cb w 6 ≤ 31 ∧ s.tagsDone = [d] ∧ d.rctx = cf w 4 0 10 ∧ d.tag = cf w 28 0 32 ∧
      rcPart (rcfgOf s d.rctx) = i.p ∧ Canon s,
    Answers (.combineWait th w) s (fun t => t.threads = (s.moved i none (fun t => { orFlags d.flags (setG (cb w 6) (BitVec.ofNat 64 d.status) t) with st := .waiting, wait := .met })).threads ∧
      OnlyChanges s t [.threads])⟩

/-- For a tag that is outstanding the thread waits; for one that is neither, the status is 2 and EXCH_PARAM is raised (R86). -/
abbrev combineWaitWaits (s : State) (th : Thr) (w : Cmd) (i : Iss) (u : Submit) : Clause :=
  ⟨Plain s th w i ∧ opIs 0x61 w = true ∧ cb w 6 ≤ 31 ∧ s.tagsDone = [] ∧ s.submits = [u] ∧ u.rctx = cf w 4 0 10 ∧ u.tag = cf w 28 0 32 ∧
      u.part = i.p,
    exec (.combineWait th w) s = .next (waiting s i (.combine u.rctx u.tag (cb w 6)))⟩

/-- COMBINE_WAIT of a route tag that is not known writes status 2, and EXCH_PARAM is reported (R86). -/
abbrev combineWaitUnknown (s : State) (th : Thr) (w : Cmd) (i : Iss) : Clause :=
  let r := cf w 4 0 10
  ⟨Plain s th w i ∧ opIs 0x61 w = true ∧ cb w 6 ≤ 31 ∧ s.tagsDone = [] ∧ s.submits = [] ∧ Canon s,
    Answers (.combineWait th w) s (fun t =>
      t.threads = (s.moved i none (fun t => { setG (cb w 6) 2 t with st := .waiting, wait := .met })).threads ∧
      Reported s t 0x4003 2 (32 + r / 256) (r % 256) (some i.p) 0 0 ∧ RegsBut s t (errSrc (32 + r / 256)) ∧
      OnlyChanges s t [.threads, .regs, .err])⟩

/-- SRE_LIVE_CLR clears the DEAD bit of one node in a partition's liveness bitmap, or all of it with ALL (R72, R408). -/
abbrev sreLiveClr (s : State) (w : Wr) : Clause :=
  let b := liveBase s (wrBits w 16 6)
  let n := wrBits w 0 16
  ⟨ByOwner s w.path ∧ wrBits w 24 1 = 0 ∧ n ≠ 0xFFFF ∧ inSram b = true ∧ s.fab.dir = [] ∧ CleanMem s ∧ Canon s,
    Answers (.sreLiveClrWrite w) s (fun t => deadBit t (wrBits w 16 6) n = false ∧
      (∀ m, m ≠ n → m < 2 ^ 16 → deadBit t (wrBits w 16 6) m = deadBit s (wrBits w 16 6) m) ∧ MemBut s t (b + n / 8) 1 ∧
      OnlyChanges s t [.mem])⟩

/-- SRE_LIVE_CLR with ALL clears the whole bitmap of the partition (R73). -/
abbrev sreLiveClrAll (s : State) (w : Wr) : Clause :=
  let b := liveBase s (wrBits w 16 6)
  ⟨ByOwner s w.path ∧ wrBits w 24 1 = 1 ∧ inSram b = true ∧ s.fab.dir = [] ∧ CleanMem s ∧ Canon s,
    Answers (.sreLiveClrWrite w) s (fun t => (∀ n, n < 2 ^ 16 → deadBit t (wrBits w 16 6) n = false) ∧ MemBut s t b 8192 ∧
      OnlyChanges s t [.mem])⟩

end Sys2Proof.Claims

open Sys2Proof.Claims in
/-- Route contexts and submits, up to the queue of the Sedge die. -/
def Obligations.RouteSubmits : Prop :=
  ∀ (s : State) (se : Fin 4) (c : Fin 256) (word : Fin 8) (v : Wr) (th : Thr) (w : Cmd) (i : Iss) (slot : Nat) (pay out : Mdesc) (q : Fin 4096)
    (k : Nat) (x : Item) (y : QItem) (rest : List QItem) (u : Submit) (e : Fin 4096) (cmd : Instr),
    (routeContextWrite s se c word v).Holds ∧ (routeContextRefused s se c word v).Holds ∧ (routeSubmit s th w i slot pay out).Holds ∧
      (routeSubmitWaits s th w i slot pay out).Holds ∧ (routeSubmitBad s th w i slot pay out).Holds ∧ (routeSubmitRefused s th w i slot pay out).Holds ∧ (submitItemLand s q k slot x).Holds ∧
      (sreSubmitItemRead s se q y rest u).Holds ∧ (sreLowerWaits s se q e cmd).Holds ∧ (sreLaterWaits s se q e cmd).Holds

open Sys2Proof.Claims in
/-- The routing of a token, the admission of its picks, and the hand-over of a send list. -/
def Obligations.RoutingAndAdmission : Prop :=
  ∀ (s : State) (se : Fin 4) (q : Fin 4096) (u : Submit) (c : Item) (ps : List Pick) (dest : Nat) (p : Fin 64) (setId : BitVec 8)
    (tag : BitVec 32) (x : QItem) (k j : Nat) (a b : Pick),
    (sreLogitPacket s se q u).Holds ∧ (sreLogitBad s se q u).Holds ∧ (sreLogitNoHeader s se q u x).Holds ∧ (sendOrder ps).Holds ∧
      (sendGapsLast ps k j a b).Holds ∧ (admission c ps dest).Holds ∧ (admissionElastic c ps dest).Holds ∧
      (sendListHandoff s p setId tag u).Holds

open Sys2Proof.Claims in
/-- The combine of returned contributions, its wait, and the liveness bitmap. -/
def Obligations.CombineAndLiveness : Prop :=
  ∀ (s : State) (p : Fin 64) (setId : BitVec 8) (tag : BitVec 32) (u : Submit) (k : Pick) (a : Nat) (th : Thr) (w : Cmd) (i : Iss) (d : TagDone)
    (v : Wr) (x : SplitSum) (y : Nat × Flags),
    (combine s p setId tag u k a).Holds ∧ (combineSplit s p setId tag u k a x).Holds ∧ (combineSplitFails s p setId tag u k a x y).Holds ∧ (combineWait s th w i d).Holds ∧ (combineWaitWaits s th w i u).Holds ∧
      (combineWaitUnknown s th w i).Holds ∧ (sreLiveClr s v).Holds ∧ (sreLiveClrAll s v).Holds

/-! ## Exchange groups and the dispatch and return exchanges (R88–R108) -/

namespace Sys2Proof.Claims

/-- Port `n`, the only usable one of some ports to a destination of a launch's group (R93). -/
abbrev OnlyPort (s : State) (l : Launch) (dst : Nat) (ports : List Nat) (n : Nat) : Prop :=
  usable s l.h (genOf s l) dst ports = [n] ∧ netNode s ≠ 0xFFFF

/-- Frame `k` of a share of plain bytes as it leaves (R104). -/
def dataFrame (s : State) (l : Launch) (dst typ k n round flags : Nat) (payload : List Byte) : Oxt :=
  { ver2 := dVer2 (genOf s l).1, typ, dst := genNode (genOf s l) dst, xgroup := l.h, jobGen := jobGen s l.part, part := l.part, round,
    window := l.window, psn := k, offset := 8192 * k, flags, udpSrc := some (0xC000 + n), payload }

/-- An ACK (1) or SACK (2) of a share (R104). -/
def ackFrame (s : State) (l : Launch) (x : RxShare) (typ n round : Nat) : Oxt :=
  { ver2 := dVer2 (genOf s l).1, typ, dst := genNode (genOf s l) x.src, xgroup := l.h, jobGen := jobGen s l.part, part := l.part, round,
    window := l.window, udpSrc := some (0xC000 + n), payload := ackBytes s x }

/-- Every other member of a generation has a usable port, once no acknowledgement has said otherwise (R93, R132). -/
abbrev AllReached (s : State) (h : Nat) (g : XgGen) : Prop :=
  dEn g.1 = false ∨ ∀ r ∈ othersOf g, hasPath (s.setGroup h { groupOf s h with ackMask := [] }) h g r = true

/-- A group whose generation `g` new windows take from now on (R23). -/
abbrev inForce (x : Group) (g : XgGen) : Group := { x with desc := g.1, members := g.2, used := x.gen, next := none, ackMask := [] }

/-- XG_COMMIT_GO with the next generation: the group is being checked, and NET_XG_COMMIT shows it (R89, R90). -/
abbrev xgCommitGo (s : State) (w : Wr) : Clause :=
  let h := wrBits w 0 8
  let g := groupOf s h
  ⟨ByOwner s w.path ∧ w.half = .all ∧ wrBits w 8 1 = 1 ∧ g.state ≠ 1 ∧ wrBits w 32 32 = (nextGen g.gen).toNat ∧ Canon s,
    Answers (.xgCommitGo w) s (fun t => groupOf t h = { g with state := 1 } ∧ (∀ k, k ≠ h → groupOf t k = groupOf s k) ∧
      fieldOf t 0x440010 0 8 = h ∧ fieldOf t 0x440010 9 3 = 1 ∧ fieldOf t 0x440010 32 32 = g.gen.toNat ∧ RegsBut s t [0x440010] ∧
      OnlyChanges s t [.regs, .groups])⟩

/-- Another generation, or a commit during a check, is refused (R89). -/
abbrev xgCommitRefused (s : State) (w : Wr) : Clause :=
  let g := groupOf s (wrBits w 0 8)
  ⟨ByOwner s w.path ∧ w.half = .all ∧ wrBits w 8 1 = 1 ∧ (g.state = 1 ∨ wrBits w 32 32 ≠ (nextGen g.gen).toNat) ∧ Canon s,
    Answers (.xgCommitGo w) s (fun t => fieldOf t 0x010060 0 32 = min 0xFFFFFFFF (fieldOf s 0x010060 0 32 + 1) ∧
      Reported s t 0x0101 0 96 0 none 0 0 ∧ RegsBut s t (0x440010 :: 0x010060 :: errSrc 96) ∧ OnlyChanges s t [.regs, .err])⟩

/-- What XG_CHECK_DONE reads: the staged descriptor and its member table (R89). -/
abbrev stagedDesc (s : State) (h : Nat) : Item := memItem s (stagedXg s h)
abbrev stagedMembers (s : State) (d : Item) : List Nat := (List.range (dN d)).map (fun r => memNat s (dMembers d + 2 * r) 2)

/-- A descriptor that passes the check comes into force with its members for the windows that open from now on, where no window holds an older
generation than the last (R23, R26, R88–R90). -/
abbrev xgCheckDone (s : State) (h : Fin 256) : Clause :=
  let d := stagedDesc s h
  let m := stagedMembers s d
  ⟨(groupOf s h).state = 1 ∧ xgOk s d m = true ∧ xgHeld s h = false ∧ AllReached s h (d, m) ∧ inSram (liveBase s (dPart d)) = false ∧
      CleanMem s ∧ Canon s,
    Answers (.xgCheckDone h) s (fun t =>
      groupOf t h = inForce { groupOf s h with gen := nextGen (groupOf s h).gen, state := 2 } (d, m) ∧
      (∀ k, k ≠ h.val → groupOf t k = groupOf s k) ∧ t.launches = s.launches ∧ RegsBut s t [0x440010] ∧ OnlyChanges s t [.regs, .groups])⟩

/-- While a window holds an older generation than the one new windows take, the commit waits, and PENDING is set (R26). -/
abbrev xgCheckWaits (s : State) (h : Fin 256) (l : Launch) (g : XgGen) (u : BitVec 32) : Clause :=
  let d := stagedDesc s h
  let m := stagedMembers s d
  ⟨(groupOf s h).state = 1 ∧ xgOk s d m = true ∧ l ∈ s.launches ∧ l.h = h ∧ l.held = some (g, u) ∧ u ≠ (groupOf s h).used ∧ l.past = false ∧
      fieldOf s 0x440010 0 8 = h ∧ CleanMem s ∧ Canon s,
    Answers (.xgCheckDone h) s (fun t =>
      groupOf t h = { groupOf s h with gen := nextGen (groupOf s h).gen, state := 2, next := some (d, m) } ∧ fieldOf t 0x440010 12 1 = 1 ∧
      (∀ k, k ≠ h.val → groupOf t k = groupOf s k) ∧ RegsBut s t [0x440010] ∧ OnlyChanges s t [.regs, .groups])⟩

/-- While a commit is PENDING, NET_XG_BASE keeps its value, and the write counts in OWN_DENIED (R26). -/
abbrev xgBaseHeld (s : State) (w : Wr) (h : Nat) : Clause :=
  ⟨ByOwner s w.path ∧ (∃ e ∈ s.groups, e.1 = h ∧ e.2.next.isSome = true) ∧ Canon s,
    Answers (.registerWrite 0x440008 w) s (Denied s)⟩

/-- A descriptor that does not pass leaves the group as it was, FAILED, and EXCH_PARAM is raised (R89). -/
abbrev xgCheckFails (s : State) (h : Fin 256) : Clause :=
  let d := stagedDesc s h
  ⟨(groupOf s h).state = 1 ∧ xgOk s d (stagedMembers s d) = false ∧ CleanMem s ∧ Canon s,
    Answers (.xgCheckDone h) s (fun t => groupOf t h = { groupOf s h with state := 3 } ∧ (∀ k, k ≠ h.val → groupOf t k = groupOf s k) ∧
      Reported s t 0x4003 2 36 h (some (dPart d)) 0 0 ∧ RegsBut s t (0x440010 :: errSrc 36) ∧ OnlyChanges s t [.regs, .groups, .err])⟩

/-- EXCH_LAUNCH of a handed-over set that passes the validation: its launch joins its group's (R97, R100). -/
abbrev exchLaunch (s : State) (p : Fin 64) (setId : BitVec 8) (tag : BitVec 32) (u : Submit) : Clause :=
  let c := u.cfg
  ⟨s.submits = [u] ∧ u.part = p ∧ u.tag = tag.toNat ∧ rcSet c = setId.toNat ∧ u.phase = .handed ∧ s.launches = [] ∧
      launchOk s p [u] c = true ∧ rcElastic c = false,
    exec (.exchLaunch p setId tag) s = .next { s with launches :=
      [{ h := rcGroup c, part := p, setId := setId.toNat, tag := tag.toNat, kind := .dispatch, phase := .queued, elastic := false,
         smax := (setCaps [u]).foldl (· + ·) 0 * (8 + rcTb c), tokenBytes := rcTb c, caps := setCaps [u] }] }⟩

/-- A launch that does not pass fails: its submit is over with status 2, and EXCH_PARAM is raised (R100). -/
abbrev exchLaunchFails (s : State) (p : Fin 64) (setId : BitVec 8) (tag : BitVec 32) (u : Submit) : Clause :=
  ⟨s.submits = [u] ∧ u.part = p ∧ u.tag = tag.toNat ∧ rcSet u.cfg = setId.toNat ∧ u.phase = .handed ∧ s.launches = [] ∧
      launchOk s p [u] u.cfg = false ∧ (∀ e ∈ s.threads, ∀ r tg g, e.2.wait ≠ .combine r tg g) ∧ Canon s,
    Answers (.exchLaunch p setId tag) s (fun t => t.submits = [] ∧
      t.tagsDone = s.tagsDone.filter (fun d => !(d.rctx == u.rctx && d.tag == u.tag)) ++
        [{ rctx := u.rctx, tag := u.tag, status := 2, flags := 0 }] ∧
      Reported s t 0x4003 2 36 (rcGroup u.cfg) (some p.val) 0 0 ∧ RegsBut s t (errSrc 36) ∧ OnlyChanges s t [.submits, .tagsDone, .regs, .err])⟩

/-- The window grant that a launch asks for (R345, R351). -/
abbrev windowAsk (s : State) (l : Launch) : State :=
  asking s { who := windowHolder l, mw := classMw s (fieldOf s 0x040008 16 3), prio := 15, part := l.part, askedAt := s.time.now }

/-- EXCH_ALLOCATION of an Elastic launch that sends to one rank: its return buffer is taken, here from its class's stack, and the window's watts
are asked for (R101, R266, R351). -/
abbrev exchAllocation (s : State) (h : Fin 256) (l : Launch) (r n c a : Nat) (more : List Nat) : Clause :=
  let x := { l with phase := .allocated, retBufs := [(l.win, r, a)] }
  ⟨s.launches = [l] ∧ l.h = h ∧ l.phase = .queued ∧ l.kind = .dispatch ∧ l.elastic = true ∧
      ((List.range (dN (groupOf s h).desc)).map (fun r => (l.win, r, (dieN l (ownCounts s l r) l.caps).foldl (· + ·) 0))).filter (fun y => y.2.2 != 0) =
        [(l.win, r, n)] ∧
      classFor (n * l.tokenBytes) = some c ∧ (poolOf s (poolKey l.part c)).stack = a :: more ∧ s.fab.dir = [] ∧ CleanMem s ∧ Canon s,
    Answers (.exchAllocation h) s (fun t => t.launches = [x] ∧ t.pw = (windowAsk s l).pw ∧
      poolOf t (poolKey l.part c) = { poolOf s (poolKey l.part c) with stack := more } ∧ MemBut s t a 16 ∧
      RegsBut s t [rPool l.part c 0x10, rPool l.part c 0x18, rPoolCnt l.part c 0] ∧ OnlyChanges s t [.launches, .pw, .pools, .mem, .regs])⟩

/-- EXCH_LAUNCH_DONE: the launch has its buffers and its grant, and is ready for the next window; one that missed a window is counted (R97,
R351). -/
abbrev exchLaunchDone (s : State) (h : Fin 256) (l : Launch) : Clause :=
  ⟨s.launches = [l] ∧ l.h = h ∧ l.phase = .allocated ∧ holdsGrant s (windowHolder l) = true ∧ Canon s,
    Answers (.exchLaunchDone h) s (fun t => t.launches = [{ l with phase := .ready }] ∧
      fieldOf t (rXg h 0x20) 32 32 = (if l.missed then min 0xFFFFFFFF (fieldOf s (rXg h 0x20) 32 32 + 1) else fieldOf s (rXg h 0x20) 32 32) ∧
      RegsBut s t [rXg h 0x20] ∧ OnlyChanges s t [.launches, .regs])⟩

/-- A periodic entry is due now, alone, and not late (R36, R37). -/
abbrev FiresOn (s : State) (e a : Nat) : Prop :=
  setArmed s e = true ∧ setAction s e = a ∧ 0 < setPeriod s e ∧ setCount s e = 0 ∧ setFire s e ≤ ftNs s ∧ ftNs s ≤ setFire s e + 10 ∧
    ftNs s < setFire s e + setPeriod s e ∧ setFire s e + setPeriod s e < 2 ^ 64 ∧
    armedIn s (fun x => setFire s x == setFire s e && (x == e || firesBefore s x e)) = [e] ∧ noneDue s = [] ∧ RoomToFire s ∧ Canon s

/-- It goes on to its next time. -/
abbrev FiredOn (s t : State) (e : Nat) : Prop := setArmed t e = true ∧ setFire t e = setFire s e + setPeriod s e ∧ fieldOf t (rSet e 2) 5 1 = 0 ∧
  t.time = firedTime s

/-- EXCH_WINDOW_OPEN takes the launch that waits longest, once it is ready: its window number and times are set, and it works by the group's newest
generation from now on (R23, R95, R97, R98). -/
abbrev exchWindowOpen (s : State) (e : Fin 1024) (l : Launch) : Clause :=
  let h := setTarget s e
  let d := (groupOf s h).desc
  let fire := setFire s e
  let wEnd := fire + windowLen s d l.elastic l.smax
  let win := fire / setPeriod s e % 2 ^ 32
  ⟨FiresOn s e 1 ∧ groupOn s h = true ∧ dPart d = setPart s e ∧ s.launches = [l] ∧ l.h = h ∧ l.phase = .ready ∧ l.held = none ∧
      jobState s (setPart s e) = 2 ∧ eptState s (setPart s e) ≠ 4 ∧ (l.elastic = true ∨ ∀ x ∈ l.rx, x.src ≠ dRank d),
    Answers (.exchWindowOpen e) s (fun t =>
      t.launches = [{ l with phase := .opened, window := win, openFt := fire, slotNs := slotT s d l.smax, wEnd := wEnd, deadline := wEnd + dGrace d,
                             held := some (newGen s h, (groupOf s h).used), tx := if l.kind = .dispatch then dispatchTx s l else l.tx }] ∧
      groupOf t h = { groupOf s h with wins := ((groupOf s h).wins.filter (fun x => ftNs s < x.2)) ++ [(win, wEnd + dGrace d)] } ∧
      (∀ k, k ≠ h → groupOf t k = groupOf s k) ∧ FiredOn s t e ∧ RegsBut s t (setRegs e) ∧ OnlyChanges s t [.launches, .groups, .regs, .time])⟩

/-- With no launch waiting, or with the job not RUNNING or its EPT in DISAGREE, the window opens for what comes in only (R97, R381). -/
abbrev exchWindowIdle (s : State) (e : Fin 1024) : Clause :=
  let h := setTarget s e
  let d := (groupOf s h).desc
  let fire := setFire s e
  ⟨FiresOn s e 1 ∧ groupOn s h = true ∧ dPart d = setPart s e ∧
      (nextLaunch s h = none ∨ jobState s (setPart s e) ≠ 2 ∨ eptState s (setPart s e) = 4),
    Answers (.exchWindowOpen e) s (fun t =>
      groupOf t h = { groupOf s h with
        wins := ((groupOf s h).wins.filter (fun x => ftNs s < x.2)) ++ [(fire / setPeriod s e % 2 ^ 32, fire + dGrace d)] } ∧
      (∀ k, k ≠ h → groupOf t k = groupOf s k) ∧ FiredOn s t e ∧ RegsBut s t (setRegs e) ∧ OnlyChanges s t [.groups, .regs, .time])⟩

/-- A launch that is not ready when its window opens is deferred, and a later one does not go ahead of it (R97). -/
abbrev exchWindowDefers (s : State) (e : Fin 1024) (l k : Launch) : Clause :=
  let h := setTarget s e
  let d := (groupOf s h).desc
  let fire := setFire s e
  ⟨FiresOn s e 1 ∧ groupOn s h = true ∧ dPart d = setPart s e ∧ s.launches = [l, k] ∧ l.h = h ∧ (l.phase = .queued ∨ l.phase = .allocated) ∧
      k.h = h ∧ k.phase = .ready ∧ sameL k l = false ∧ jobState s (setPart s e) = 2 ∧ eptState s (setPart s e) ≠ 4,
    Answers (.exchWindowOpen e) s (fun t => t.launches = [{ l with missed := true }, k] ∧
      groupOf t h = { groupOf s h with
        wins := ((groupOf s h).wins.filter (fun x => ftNs s < x.2)) ++ [(fire / setPeriod s e % 2 ^ 32, fire + dGrace d)] } ∧
      (∀ k, k ≠ h → groupOf t k = groupOf s k) ∧ FiredOn s t e ∧ RegsBut s t (setRegs e) ∧ OnlyChanges s t [.launches, .groups, .regs, .time])⟩

/-- A handle that names no enabled group of the partition opens nothing: EXCH_PARAM (R88). -/
abbrev exchWindowBad (s : State) (e : Fin 1024) : Clause :=
  let h := setTarget s e
  ⟨FiresOn s e 1 ∧ (groupOn s h = false ∨ dPart (groupOf s h).desc ≠ setPart s e),
    Answers (.exchWindowOpen e) s (fun t => Reported s t 0x4003 2 36 h (some (setPart s e)) 0 0 ∧ FiredOn s t e ∧
      RegsBut s t (setRegs e ++ errSrc 36) ∧ OnlyChanges s t [.regs, .err, .time])⟩

/-- A window that is open, of a SWITCHED group of two ranks, is the only launch; its times up to `due` have come. -/
abbrev OpenPair (s : State) (h : Nat) (l : Launch) (due : Nat) : Prop :=
  let d := (genOf s l).1
  s.launches = [l] ∧ l.h = h ∧ l.phase = .opened ∧ dMesh d = false ∧ dN d = 2 ∧ dRank d < 2 ∧ due ≤ ftNs s ∧ Canon s

/-- XG_COUNT_ROUND sends the count frame of the submit to the other rank, on one port (R96). -/
abbrev xgCountRound (s : State) (h : Fin 256) (l : Launch) (n : Nat) : Clause :=
  let d := (genOf s l).1
  let dst := (dRank d + 1) % 2
  let cnt := ownCounts s l dst
  let v := (partOf s l.part).stepNo.toNat ||| l.windows <<< 48 ||| dRank d <<< 64 |||
    (List.range 4).foldl (fun a k => a ||| cnt.getD k 0 <<< (96 + 64 * k) ||| l.caps.getD k 0 <<< (128 + 64 * k)) 0
  ⟨OpenPair s h l l.openFt ∧ l.kind = .dispatch ∧ l.elastic = true ∧ l.win = 0 ∧ OnlyPort s l dst [0] n,
    Answers (.xgCountRound h 1) s (fun t =>
      Queued s t n 6 { ver2 := dVer2 d, typ := 3, dst := genNode (genOf s l) dst, xgroup := h, jobGen := jobGen s l.part, part := l.part, round := 1,
                       window := l.window, udpSrc := some (0xC000 + n), payload := natBytes 64 v } ∧
      regOf t (rXg h 0) = regOf s (rXg h 0) + 1 ∧ RegsBut s t [rXg h 0] ∧ OnlyChanges s t [.ports, .regs])⟩

/-- XG_ALLOC_END: the positions that the other rank counted get their receive buffer, here from its class's stack, and the plan's table names it; this
device sends itself nothing, so its own empty share is delivered at once (R96, R101, R204). -/
abbrev xgAllocEnd (s : State) (h : Fin 256) (l : Launch) (n c a : Nat) (more : List Nat) : Clause :=
  let d := (genOf s l).1
  let me := dRank d
  let src := (me + 1) % 2
  let plan := memItem s (planAddr s l.part h)
  let k := pipKey l.part (fieldOf s (rPart l.part 0x28) 0 4) (plArrCore plan) (plArrPip plan)
  ⟨OpenPair s h l (l.openFt + countRounds d * countT d) ∧ l.kind = .dispatch ∧ l.elastic = true ∧ l.win = 1 ∧ l.rx = [] ∧ s.submits = [] ∧
      rxCount l me = 0 ∧ tget [] l.counts me ≠ [] ∧ rxCount l src = n ∧ 1 ≤ n ∧ tget [] l.counts src ≠ [] ∧ plWlAlloc plan = false ∧
      fieldOf s (rPart l.part 0x128) 14 38 = 0 ∧ classFor (n * (8 + l.tokenBytes)) = some c ∧
      (poolOf s (poolKey l.part c)).stack = a :: more ∧ a < 2 ^ 64 ∧ (a + 16 ≤ plBufTab plan ∨ plBufTab plan + 16 ≤ a) ∧
      coreOfPart s l.part (plArrCore plan) = true ∧ (pipOf s k).toNat < 0xFFFF ∧
      pipWaiters s l.part (fieldOf s (rPart l.part 0x28) 0 4) (plArrCore plan) (plArrPip plan) = [] ∧ s.fab.dir = [] ∧ CleanMem s,
    Answers (.xgAllocEnd h) s (fun t =>
      (t.launches.headD l).rx.map (fun x => (x.src, x.buf, x.npos, x.bytes, x.delivered)) =
        (if me = 0 then [(0, 0, 0, 0, true), (1, a, n, n * (8 + l.tokenBytes), false)]
         else [(0, a, n, n * (8 + l.tokenBytes), false), (1, 0, 0, 0, true)]) ∧
      t.launches.length = 1 ∧ memNat t (plBufTab plan + 8 * src) 8 = a ∧ memNat t (plBufTab plan + 8 * me) 8 = 0 ∧
      (∀ y, (y < a ∨ a + 16 ≤ y) → (y < plBufTab plan ∨ plBufTab plan + 16 ≤ y) → memAt t y = memAt s y) ∧
      poolOf t (poolKey l.part c) = { poolOf s (poolKey l.part c) with stack := more } ∧
      pipOf t k = pipOf s k + 1 ∧ (∀ j, j ≠ k → pipOf t j = pipOf s j) ∧
      RegsBut s t [rPool l.part c 0x10, rPool l.part c 0x18, rPoolCnt l.part c 0] ∧
      OnlyChanges s t [.launches, .pools, .mem, .pips, .regs, .freeIdx])⟩

/-- The launch after frame `k` of its one share went out. -/
abbrev sentFrame (l : Launch) (t : TxShare) (k : Nat) : Launch := { l with tx := [{ t with sent := t.sent ++ [k] }] }

/-- XG_ROUND_START of a return window: the frame of the share to the other rank leaves on the usable port, with the bytes of its payload area (R91,
R93, R103, R104). -/
abbrev xgRoundStart (s : State) (h : Fin 256) (l : Launch) (t0 : TxShare) (n : Nat) : Clause :=
  let d := (genOf s l).1
  let dst := (dRank d + 1) % 2
  ⟨OpenPair s h l (l.openFt + dataStart d l.elastic) ∧ l.kind = .ret ∧ l.stream = false ∧ l.tx = [t0] ∧ t0.dst = dst ∧ t0.frames = [0] ∧ t0.sent = [] ∧
      t0.stopped = false ∧ OnlyPort s l dst (portGroup d 0) n ∧ CleanMem s,
    Answers (.xgRoundStart h 1) s (fun t => t.launches = [sentFrame l t0 0] ∧
      Queued s t n 6 (dataFrame s l dst t0.typ 0 n 1 1 (memBytes s t0.addr (min 8192 t0.len))) ∧
      regOf t (rXg h 0) = regOf s (rXg h 0) + 1 ∧ RegsBut s t [rXg h 0] ∧ OnlyChanges s t [.launches, .ports, .regs])⟩

/-- XG_SLOT_END: a share of the round that is not complete is named in a SACK, on the port its last frame came by (R105). -/
abbrev xgSlotEnd (s : State) (h : Fin 256) (l : Launch) (x : RxShare) (n : Nat) : Clause :=
  let d := (genOf s l).1
  ⟨OpenPair s h l (slotEnd d l 1) ∧ l.stream = false ∧ l.rx = [x] ∧ x.src = (dRank d + 1) % 2 ∧ x.delivered = false ∧ x.discarded = false ∧
      x.lastPort = some n ∧ linkUp s n = true ∧ hasPath s h (genOf s l) x.src = true ∧ netNode s ≠ 0xFFFF,
    Answers (.xgSlotEnd h 1) s (fun t => Queued s t n 6 (ackFrame s l x 2 n 1) ∧ OnlyChanges s t [.ports])⟩

/-- A share of which no frame came is named in a SACK too, on a usable port, here the only one (R105; which port is free, log entry 60). -/
abbrev xgSlotEndNone (s : State) (h : Fin 256) (l : Launch) (x : RxShare) (n : Nat) : Clause :=
  let d := (genOf s l).1
  ⟨OpenPair s h l (slotEnd d l 1) ∧ l.stream = false ∧ l.rx = [x] ∧ x.src = (dRank d + 1) % 2 ∧ x.delivered = false ∧ x.discarded = false ∧
      x.lastPort = none ∧ x.placed = [] ∧ OnlyPort s l x.src (portsTo d x.src) n,
    Answers (.xgSlotEnd h 1) s (fun t => Queued s t n 6 (ackFrame s l x 2 n 1) ∧ t.freeIdx = s.freeIdx + 1 ∧
      OnlyChanges s t [.ports, .freeIdx])⟩

/-- XG_WINDOW_END closes the window; what has no acknowledgement becomes the tail, here one frame, sent again with RETX on a usable port (R106). -/
abbrev xgWindowEnd (s : State) (h : Fin 256) (l : Launch) (t0 : TxShare) (n : Nat) : Clause :=
  let d := (genOf s l).1
  let dst := (dRank d + 1) % 2
  ⟨OpenPair s h l l.wEnd ∧ l.kind = .ret ∧ l.stream = false ∧ l.tx = [t0] ∧ t0.dst = dst ∧ t0.frames = [0] ∧ t0.sent = [0] ∧ t0.acked = [] ∧ t0.tries = [] ∧
      t0.stopped = false ∧ OnlyPort s l dst (portsTo d dst) n ∧ CleanMem s,
    Answers (.xgWindowEnd h) s (fun t =>
      t.launches = [{ l with phase := .closed, tailAt := s.time.now, tx := [{ t0 with tries := [(0, 1)] }] }] ∧
      Queued s t n 6 (dataFrame s l dst t0.typ 0 n 0 3 (memBytes s t0.addr (min 8192 t0.len))) ∧
      regOf t (rXg h 0) = regOf s (rXg h 0) + 1 ∧ fieldOf t (rXg h 0x10) 0 32 = min 0xFFFFFFFF (fieldOf s (rXg h 0x10) 0 32 + 1) ∧
      RegsBut s t [rXg h 0, rXg h 0x10] ∧ OnlyChanges s t [.launches, .ports, .regs])⟩

/-- With everything acknowledged the window only closes. -/
abbrev xgWindowEndClean (s : State) (h : Fin 256) (l : Launch) : Clause :=
  ⟨OpenPair s h l l.wEnd ∧ (∀ t ∈ l.tx, owed t = []),
    exec (.xgWindowEnd h) s = .next { s with launches := [{ l with phase := .closed, tailAt := s.time.now }] }⟩

/-- A closed launch, its tail timer run out. -/
abbrev TailDue (s : State) (h : Nat) (l : Launch) : Prop :=
  s.launches = [l] ∧ l.h = h ∧ l.phase = .closed ∧ l.tailAt + ackTo s ≤ s.time.now ∧ Canon s

/-- OXT_TAIL_RETX_TIMER sends a frame that is still owed again, up to RETX_MAX times (R106). -/
abbrev oxtTailRetxTimer (s : State) (h : Fin 256) (l : Launch) (t0 : TxShare) (n : Nat) : Clause :=
  let d := (genOf s l).1
  ⟨TailDue s h l ∧ l.kind = .ret ∧ l.stream = false ∧ l.tx = [t0] ∧ t0.frames = [0] ∧ t0.sent = [0] ∧ t0.acked = [] ∧ t0.tries = [(0, 1)] ∧ 2 ≤ retxMax s ∧
      t0.stopped = false ∧ OnlyPort s l t0.dst (portsTo d t0.dst) n ∧ CleanMem s,
    Answers (.oxtTailRetxTimer h) s (fun t =>
      t.launches = [{ l with tailAt := s.time.now, tx := [{ t0 with tries := [(0, 2)] }] }] ∧
      Queued s t n 6 (dataFrame s l t0.dst t0.typ 0 n 0 3 (memBytes s t0.addr (min 8192 t0.len))) ∧
      fieldOf t (rXg h 0x10) 0 32 = min 0xFFFFFFFF (fieldOf s (rXg h 0x10) 0 32 + 1) ∧
      RegsBut s t [rXg h 0, rXg h 0x10] ∧ OnlyChanges s t [.launches, .ports, .regs])⟩

/-- A frame that has gone RETX_MAX times goes no more (R106). -/
abbrev oxtTailDone (s : State) (h : Fin 256) (l : Launch) (t0 : TxShare) : Clause :=
  ⟨TailDue s h l ∧ l.tx = [t0] ∧ (∀ k ∈ owed t0, retxMax s ≤ tget 0 t0.tries k), exec (.oxtTailRetxTimer h) s = .next s⟩

/-- A destination that has no usable port gets no more frames of the group, and is DEAD at once: a tail frame that is due finds no path (R28, R132). -/
abbrev tailNoPath (s : State) (h : Fin 256) (l : Launch) (t0 : TxShare) : Clause :=
  let node := genNode (genOf s l) t0.dst
  ⟨TailDue s h l ∧ l.tx = [t0] ∧ dueFrames s t0 ≠ [] ∧ hasPath s h (genOf s l) t0.dst = false ∧ dPart (genOf s l).1 = l.part ∧
      node < 0xFFFF ∧ inSram (liveBase s l.part) = true ∧ deadBit s l.part node = false ∧ s.fab.dir = [] ∧ CleanMem s,
    Answers (.oxtTailRetxTimer h) s (fun t => t.launches = [{ l with tailAt := s.time.now }] ∧ deadBit t l.part node = true ∧
      MemBut s t (liveBase s l.part + node / 8) 1 ∧ Reported s t 0x4006 0 36 h (some l.part) 0 (peerDetail t0.dst h) ∧
      (∀ n, n < 64 → (portOf t n).txq = (portOf s n).txq.filter (fun x => !toNode h node x)) ∧ RegsBut s t (errSrc 36) ∧
      OnlyChanges s t [.launches, .ports, .mem, .regs, .err])⟩

/-- XG_DELIVERY_DEADLINE discards a share that is not complete, and marks its source DEAD (R72, R107). -/
abbrev xgDeliveryDeadline (s : State) (h : Fin 256) (l : Launch) (x : RxShare) : Clause :=
  let d := (genOf s l).1
  let node := genNode (genOf s l) x.src
  ⟨s.launches = [l] ∧ (groupOf s h).next = none ∧ l.h = h ∧ l.phase = .closed ∧ l.past = false ∧ l.stream = false ∧ l.kind = .dispatch ∧ l.deadline ≤ ftNs s ∧ l.rx = [x] ∧
      x.delivered = false ∧ x.discarded = false ∧ x.src ≠ dRank d ∧ node < 0xFFFF ∧ inSram (liveBase s l.part) = true ∧
      deadBit s l.part node = false ∧ NoGrant s (windowHolder l) ∧ s.fab.dir = [] ∧ CleanMem s ∧ Canon s,
    Answers (.xgDeliveryDeadline h) s (fun t => t.launches = [{ l with past := true, rx := [{ x with discarded := true }] }] ∧
      deadBit t l.part node = true ∧ MemBut s t (liveBase s l.part + node / 8) 1 ∧
      Reported s t 0x4006 0 36 h (some l.part) 0 (peerDetail x.src h) ∧
      fieldOf t (rXg h 0x30) 0 32 = min 0xFFFFFFFF (fieldOf s (rXg h 0x30) 0 32 + 1) ∧ RegsBut s t (rXg h 0x30 :: errSrc 36) ∧
      OnlyChanges s t [.launches, .mem, .regs, .err])⟩

/-- With the deadline of the last window of an older generation the pending commit comes into force (R26). -/
abbrev xgPendingComes (s : State) (h : Fin 256) (l : Launch) (g g1 : XgGen) (u : BitVec 32) : Clause :=
  ⟨s.launches = [l] ∧ l.h = h ∧ l.phase = .closed ∧ l.past = false ∧ l.stream = false ∧ l.kind = .dispatch ∧ l.deadline ≤ ftNs s ∧ l.rx = [] ∧
      l.held = some (g, u) ∧ u ≠ (groupOf s h).used ∧ (groupOf s h).next = some g1 ∧ AllReached s h g1 ∧
      inSram (liveBase s (dPart g1.1)) = false ∧ NoGrant s (windowHolder l) ∧ Canon s,
    Answers (.xgDeliveryDeadline h) s (fun t => t.launches = [{ l with past := true }] ∧ groupOf t h = inForce (groupOf s h) g1 ∧
      (∀ k, k ≠ h.val → groupOf t k = groupOf s k) ∧ (fieldOf s 0x440010 0 8 = h → fieldOf t 0x440010 12 1 = 0) ∧ RegsBut s t [0x440010] ∧
      OnlyChanges s t [.launches, .groups, .regs])⟩

/-- An OXT frame of an exchange group that meets the checks of R128 and names a group in its own version, current in its partition's job (R107,
R108, R300). -/
abbrev ForGroup (s : State) (f : Sys2Proof.Frame) (typ h : Nat) : Prop :=
  oxtIs typ f = true ∧ f.pcp.val = 6 ∧ Heard s f [6] ∧ f.xgroup.toNat = h ∧ groupOn s h = true ∧ f.ver2 = dVer2 (groupOf s h).desc ∧
    (f.ver2 = true ∨ f.part.val = dPart (groupOf s h).desc) ∧ jobCurrent s (dPart (groupOf s h).desc) f.jobGen.toNat false = true ∧ Canon s

/-- The window that a frame names: bits [15:0] of its number in version 2 (R108). -/
abbrev names (f : Sys2Proof.Frame) (w : Nat) : Prop := if f.ver2 = true then w % 65536 = f.window.toNat % 65536 else w = f.window.toNat

/-- One that R107 accepts, from rank `r`, for launch `l`. -/
abbrev ForLaunch (s : State) (f : Sys2Proof.Frame) (typ h r : Nat) (l : Launch) : Prop :=
  ForGroup s f typ h ∧ genRank (genOf s l) f.srcNode.toNat = some r ∧ (groupOf s h).wins.getLast?.map (·.1) = some l.window ∧
    names f l.window ∧ s.launches = [l] ∧ l.h = h ∧ (l.phase = .opened ∨ l.phase = .closed) ∧ l.past = false ∧ l.stream = false ∧ s.colls = [] ∧
    dRank (genOf s l).1 ≠ r

/-- OXT_COUNT_RX records a rank's windows, counts and capacities (R96). -/
abbrev oxtCountRx (s : State) (f : Sys2Proof.Frame) (h r : Nat) (l : Launch) : Clause :=
  let b := leNat f.payload
  ⟨ForLaunch s f 3 h r l ∧ f.payload.length = 64 ∧ l.elastic = true ∧ l.win = 0 ∧ l.kind = .dispatch ∧ l.rx = [] ∧ tget [] l.counts r = [],
    Answers (.oxtCountRx f) s (fun t =>
      t.launches = [{ l with counts := tput [] l.counts r (max 1 (bitsOf b 48 16) ::
        (List.range 4).flatMap (fun k => [bitsOf b (96 + 64 * k) 32, bitsOf b (128 + 64 * k) 16])) }] ∧
      RxTaken s t f ∧ regOf t (rXg h 8) = regOf s (rXg h 8) + 1 ∧ RegsBut s t (rXg h 8 :: rxRegs f.port 6) ∧
      OnlyChanges s t [.launches, .ports, .regs])⟩

/-- OXT_DATA_RX of a frame in the middle of a share: its bytes are placed, and nothing is acknowledged yet (R105, R107). -/
abbrev oxtDataRx (s : State) (f : Sys2Proof.Frame) (h r : Nat) (l : Launch) (x : RxShare) : Clause :=
  let at_ := x.buf + f.offset.toNat
  ⟨ForLaunch s f 0 h r l ∧ l.rx = [x] ∧ x.src = r ∧ x.form = 1 ∧ x.discarded = false ∧ x.delivered = false ∧
      f.offset.toNat + f.payload.length ≤ x.bytes ∧ x.placed = [] ∧ f.psn.toNat ∈ x.need ∧ (∃ k, k < 4096 ∧ k ∈ x.need ∧ k ≠ f.psn.toNat) ∧
      f.last = false ∧ f.retx = false ∧ ftNs s ≤ slotEnd (genOf s l).1 l (roundOfSrc (genOf s l).1 r) ∧ s.fab.dir = [] ∧ CleanMem s,
    Answers (.oxtDataRx ⟨f, []⟩) s (fun t => t.launches = [{ l with rx := [{ x with lastPort := some f.port.val, placed := [f.psn.toNat] }] }] ∧
      memBytes t at_ f.payload.length = f.payload ∧ MemBut s t at_ f.payload.length ∧ RxTaken s t f ∧
      regOf t (rXg h 8) = regOf s (rXg h 8) + 1 ∧ RegsBut s t (rXg h 8 :: rxRegs f.port 6) ∧ OnlyChanges s t [.launches, .mem, .ports, .regs])⟩

/-- The frame that completes a share delivers it, and is acknowledged on its port (R99, R105). -/
abbrev oxtDataLast (s : State) (f : Sys2Proof.Frame) (h r : Nat) (l : Launch) (x : RxShare) : Clause :=
  let at_ := x.buf + f.offset.toNat
  let y : RxShare := { x with lastPort := some f.port.val, placed := [f.psn.toNat], delivered := true }
  ⟨ForLaunch s f 0 h r l ∧ l.kind = .ret ∧ linkUp s f.port = true ∧ hasPath s h (genOf s l) r = true ∧ l.rx = [x] ∧ x.src = r ∧ x.form = 1 ∧ x.discarded = false ∧ x.delivered = false ∧
      f.offset.toNat + f.payload.length ≤ x.bytes ∧ x.placed = [] ∧ x.need = [f.psn.toNat] ∧
      ftNs s ≤ slotEnd (genOf s l).1 l (roundOfSrc (genOf s l).1 r) ∧ s.fab.dir = [] ∧ CleanMem s,
    Answers (.oxtDataRx ⟨f, []⟩) s (fun t => t.launches = [{ l with rx := [y] }] ∧
      memBytes t at_ f.payload.length = f.payload ∧ MemBut s t at_ f.payload.length ∧
      Queued (heard s f) t f.port 6 (ackFrame s l y 1 f.port f.round.toNat) ∧ RxCounted s t f ∧
      RegsBut s t (rXg h 8 :: rxRegs f.port 6) ∧ OnlyChanges s t [.launches, .mem, .ports, .regs])⟩

/-- A frame of a window that is neither the last nor within its deadline is dropped and counted (R107). -/
abbrev oxtDataStale (s : State) (f : Sys2Proof.Frame) (h : Nat) : Clause :=
  ⟨ForGroup s f 0 h ∧ (∀ x ∈ (groupOf s h).wins, ¬ names f x.1),
    Answers (.oxtDataRx ⟨f, []⟩) s (fun t => RxTaken s t f ∧
      fieldOf t (rXg h 0x18) 32 32 = min 0xFFFFFFFF (fieldOf s (rXg h 0x18) 32 32 + 1) ∧ RegsBut s t (rXg h 0x18 :: rxRegs f.port 6) ∧
      OnlyChanges s t [.ports, .regs])⟩

/-- One whose job is not the partition's current one counts as stale, before its group is looked at, and is recorded once for its source in a step
(R107, R300). -/
abbrev oxtDataStaleGen (s : State) (f : Sys2Proof.Frame) : Clause :=
  let p := f.part.val
  ⟨oxtIs 0 f = true ∧ f.pcp.val = 6 ∧ Heard s f [6] ∧ f.ver2 = false ∧ jobCurrent s p f.jobGen.toNat false = false ∧
      f.srcNode.toNat ∉ (partOf s p).staleSrc ∧ Canon s,
    Answers (.oxtDataRx ⟨f, []⟩) s (fun t => RxTaken s t f ∧
      fieldOf t (rPart p 0x930) 32 32 = min 0xFFFFFFFF (fieldOf s (rPart p 0x930) 32 32 + 1) ∧
      partOf t p = { partOf s p with staleSrc := (partOf s p).staleSrc ++ [f.srcNode.toNat] } ∧
      Reported s t 0x4009 0 (ndOf f.port) (f.port % 8) (some p) 0 0 ∧
      RegsBut s t (rPart p 0x930 :: rxRegs f.port 6 ++ errSrc (ndOf f.port)) ∧ OnlyChanges s t [.ports, .parts, .regs, .err])⟩

/-- The state once a node has reported its usable ports (R93). -/
abbrev masked (s : State) (h node : Nat) (b : List Byte) : State :=
  s.setGroup h { groupOf s h with ackMask := tput 0xFFFFFFFFFFFFFFFF (groupOf s h).ackMask node (ackMaskOf b) }

/-- Its report leaves the sender with a path, or it is no other member. -/
abbrev PathStays (s : State) (h node : Nat) (b : List Byte) : Prop :=
  ∀ r, genRank (newGen s h) node = some r → hasPath (masked s h node b) h (newGen s h) r = true

/-- OXT_ACK_RX: the frames it names are acknowledged, and its port mask is the destination's (R93, R104, R106). -/
abbrev oxtAckRx (s : State) (f : Sys2Proof.Frame) (h r : Nat) (l : Launch) (t0 : TxShare) : Clause :=
  ⟨ForLaunch s f 1 h r l ∧ l.tx = [t0] ∧ t0.dst = r ∧ PathStays s h f.srcNode.toNat f.payload ∧ (∀ k ∈ t0.frames, k ∈ t0.sent ∧ ackHas f.payload k = true),
    Answers (.oxtAckRx f) s (fun t => t.launches = [{ l with tx := [{ t0 with acked := t0.frames }] }] ∧
      t.groups = (masked s h f.srcNode.toNat f.payload).groups ∧ RxTaken s t f ∧
      RegsBut s t (rxRegs f.port 6) ∧ OnlyChanges s t [.launches, .groups, .ports, .regs])⟩

/-- OXT_SACK_RX after W_END: a frame that it names as missing goes again as a tail frame, on a port of the sender's report (R93, R106). -/
abbrev oxtSackRx (s : State) (f : Sys2Proof.Frame) (h r : Nat) (l : Launch) (t0 : TxShare) (n : Nat) : Clause :=
  let s1 := masked s h f.srcNode.toNat f.payload
  ⟨ForLaunch s f 2 h r l ∧ l.phase = .closed ∧ l.kind = .ret ∧ l.tx = [t0] ∧ t0.dst = r ∧ t0.frames = [0] ∧ t0.sent = [0] ∧ t0.acked = [] ∧
      t0.tries = [] ∧ t0.stopped = false ∧ leNat ((f.payload.drop 8).take 4) = 0 ∧ ackHas f.payload 0 = false ∧
      PathStays s h f.srcNode.toNat f.payload ∧ OnlyPort s1 l r (portsTo (genOf s1 l).1 r) n ∧ CleanMem s,
    Answers (.oxtSackRx f) s (fun t => t.launches = [{ l with tx := [{ t0 with tries := [(0, 1)] }] }] ∧ t.groups = s1.groups ∧
      Queued (heard s f) t n 6 (dataFrame s1 l r t0.typ 0 n 0 3 (memBytes s t0.addr (min 8192 t0.len))) ∧ RxCounted s t f ∧
      fieldOf t (rXg h 0x10) 0 32 = min 0xFFFFFFFF (fieldOf s (rXg h 0x10) 0 32 + 1) ∧
      RegsBut s t (rXg h 0 :: rXg h 0x10 :: rxRegs f.port 6) ∧ OnlyChanges s t [.launches, .groups, .ports, .regs])⟩

/-- Before W_END it only acknowledges: what it names as missing stays owed, and goes when the window ends (R95, R106). -/
abbrev oxtSackEarly (s : State) (f : Sys2Proof.Frame) (h r : Nat) (l : Launch) (t0 : TxShare) : Clause :=
  ⟨ForLaunch s f 2 h r l ∧ l.phase = .opened ∧ l.tx = [t0] ∧ t0.dst = r ∧ PathStays s h f.srcNode.toNat f.payload,
    Answers (.oxtSackRx f) s (fun t =>
      t.launches = [{ l with tx := [{ t0 with
        acked := t0.frames.filter (fun k => t0.acked.contains k || (t0.sent.contains k && ackHas f.payload k)) }] }] ∧
      t.groups = (masked s h f.srcNode.toNat f.payload).groups ∧ RxTaken s t f ∧ RegsBut s t (rxRegs f.port 6) ∧
      OnlyChanges s t [.launches, .groups, .ports, .regs])⟩

/-- An acknowledgement that reports no usable port of its sender leaves it without a path: nothing more goes to it, and it is DEAD at once (R93,
R132). -/
abbrev ackLosesPath (s : State) (f : Sys2Proof.Frame) (h r : Nat) : Clause :=
  let node := f.srcNode.toNat
  let g := newGen s h
  ⟨ForGroup s f 1 h ∧ s.launches = [] ∧ genRank g node = some r ∧ genNode g r = node ∧ r ≠ dRank g.1 ∧ hasPath s h g r = true ∧
      ackMaskOf f.payload = 0 ∧ node < 0xFFFF ∧ inSram (liveBase s (dPart g.1)) = true ∧ deadBit s (dPart g.1) node = false ∧ s.fab.dir = [] ∧
      CleanMem s,
    Answers (.oxtAckRx f) s (fun t => t.groups = (masked s h node f.payload).groups ∧ deadBit t (dPart g.1) node = true ∧
      MemBut s t (liveBase s (dPart g.1) + node / 8) 1 ∧ Reported s t 0x4006 0 36 h (some (dPart g.1)) 0 (peerDetail r h) ∧
      (∀ n, n < 64 → (portOf t n).txq = (portOf s n).txq.filter (fun x => !toNode h node x)) ∧
      RegsBut s t (rxRegs f.port 6 ++ errSrc 36) ∧ OnlyChanges s t [.groups, .ports, .mem, .regs, .err])⟩

/-- The OXT header lies in network byte order, and a frame reads back what was put there (R8, R104, R108). -/
abbrev headerReads (f : Sys2Proof.Frame) (v2 : Bool) (typ flags src dst xg gen part round win psn off : Nat) (b : List Byte) : Clause :=
  ⟨f.bytes = oxtHeader v2 typ flags src dst xg gen part round win psn off b.length ++ b ∧ typ < 16 ∧ part < 64 ∧ b.length < 65536,
    f.typ = typ ∧ f.ver = (if v2 = true then 2 else 3) ∧ f.last = flags.testBit 0 ∧ f.retx = flags.testBit 1 ∧
      f.srcNode = BitVec.ofNat 16 src ∧ f.dstNode = BitVec.ofNat 16 dst ∧ f.xgroup = BitVec.ofNat 16 xg ∧ f.jobGen = BitVec.ofNat 32 gen ∧
      (v2 = false → f.part.val = part ∧ f.round = BitVec.ofNat 16 round ∧ f.window = BitVec.ofNat 32 win) ∧
      (v2 = true → f.window.toNat = win % 65536) ∧ f.psn = BitVec.ofNat 32 psn ∧ f.offset = BitVec.ofNat 32 off ∧
      f.lenField = b.length ∧ f.payload = b ∧ frameLen f = b.length + (if v2 = true then 126 else 134)⟩

/-- RETURN_LAUNCH: with DONE_PIP at its count, the count is subtracted and the return launch asks for its window (R103, R204). -/
abbrev returnLaunch (s : State) (h : Fin 256) (l : Launch) : Clause :=
  let k := pipKey l.part (fieldOf s (rPart l.part 0x28) 0 4) (plDoneCore l.plan) (plDonePip l.plan)
  let r : Launch := { h, part := l.part, setId := l.setId, tag := l.tag, kind := .ret, phase := .allocated, tokenBytes := l.tokenBytes,
                      smax := l.smax, caps := l.caps, win := l.win, windows := l.windows, tx := returnTx s l, rx := returnRx s l }
  ⟨s.launches = [l] ∧ l.h = h ∧ l.kind = .dispatch ∧ l.retLaunched = false ∧ l.rx ≠ [] ∧ (l.phase = .opened ∨ l.phase = .closed) ∧
      plDoneCount l.plan ≤ (pipOf s k).toNat ∧ l.wl = 0 ∧ l.area = 0 ∧ Canon s,
    exec (.returnLaunch h) s = .next
      ({ windowAsk s r with launches := [{ l with retLaunched := true }, r] }.setPip k (BitVec.ofNat 16 ((pipOf s k).toNat - plDoneCount l.plan)))⟩

end Sys2Proof.Claims

open Sys2Proof.Claims in
/-- Commits of exchange groups, and the launch, allocation and readiness of an exchange. -/
def Obligations.ExchangeGroupsAndLaunches : Prop :=
  ∀ (s : State) (w : Wr) (h : Fin 256) (p : Fin 64) (setId : BitVec 8) (tag : BitVec 32) (u : Submit) (l : Launch) (r n c a : Nat)
    (more : List Nat) (g : XgGen) (u32 : BitVec 32),
    (xgCommitGo s w).Holds ∧ (xgCommitRefused s w).Holds ∧ (xgCheckDone s h).Holds ∧ (xgCheckWaits s h l g u32).Holds ∧
      (xgBaseHeld s w r).Holds ∧ (xgCheckFails s h).Holds ∧
      (exchLaunch s p setId tag u).Holds ∧ (exchLaunchFails s p setId tag u).Holds ∧ (exchAllocation s h l r n c a more).Holds ∧
      (exchLaunchDone s h l).Holds ∧ (returnLaunch s h l).Holds

open Sys2Proof.Claims in
/-- Windows: their opening, their rounds, their end, the tail and the delivery deadline. -/
def Obligations.ExchangeWindows : Prop :=
  ∀ (s : State) (e : Fin 1024) (h : Fin 256) (l k : Launch) (t0 : TxShare) (x : RxShare) (n m c a : Nat) (more : List Nat) (g g1 : XgGen)
    (u : BitVec 32),
    (exchWindowOpen s e l).Holds ∧ (exchWindowIdle s e).Holds ∧ (exchWindowDefers s e l k).Holds ∧ (exchWindowBad s e).Holds ∧ (xgCountRound s h l n).Holds ∧
      (xgAllocEnd s h l m c a more).Holds ∧ (xgRoundStart s h l t0 n).Holds ∧ (xgSlotEnd s h l x n).Holds ∧ (xgSlotEndNone s h l x n).Holds ∧
      (xgWindowEnd s h l t0 n).Holds ∧
      (xgWindowEndClean s h l).Holds ∧ (oxtTailRetxTimer s h l t0 n).Holds ∧ (oxtTailDone s h l t0).Holds ∧
      (tailNoPath s h l t0).Holds ∧ (xgDeliveryDeadline s h l x).Holds ∧ (xgPendingComes s h l g g1 u).Holds

open Sys2Proof.Claims in
/-- Frames of an exchange as they are received: counts, shares, acknowledgements. -/
def Obligations.ExchangeFrames : Prop :=
  ∀ (s : State) (f : Sys2Proof.Frame) (h r n : Nat) (l : Launch) (x : RxShare) (t0 : TxShare) (v2 : Bool)
    (typ flags src dst xg gen part round win psn off : Nat) (b : List Byte),
    (headerReads f v2 typ flags src dst xg gen part round win psn off b).Holds ∧ (oxtCountRx s f h r l).Holds ∧ (oxtDataRx s f h r l x).Holds ∧ (oxtDataLast s f h r l x).Holds ∧ (oxtDataStale s f h).Holds ∧
      (oxtDataStaleGen s f).Holds ∧ (oxtAckRx s f h r l t0).Holds ∧ (oxtSackRx s f h r l t0 n).Holds ∧ (oxtSackEarly s f h r l t0).Holds ∧
      (ackLosesPath s f h r).Holds

/-! ## Collectives, the exact reduction, and the routed-token gather (R109–R116, R230, R231, R382) -/

namespace Sys2Proof.Claims

/-- COLL_Q of the group of handle `h` has a descriptor at its head, which the network die takes now for that group (R88, R114). -/
abbrev CollHead (s : State) (h : Nat) (x : QItem) (rest : List QItem) : Prop :=
  let d := (groupOf s h).desc
  let q := dCollQ d
  qEn s q = true ∧ qCons s q = 2 ∧ qPart s q = dPart d ∧ s.colls = [] ∧ s.launches = [] ∧
    (queueOf s q).items = x :: rest ∧ (queueOf s q).waiters = [] ∧ x.gap = false ∧ collMine s h q x.data = true ∧ CleanMem s ∧ Canon s

/-- COLLECTIVE_START of a BARRIER of two ranks: a launch with a frame of 64 bytes, whose content is free, each way asks for its window (R114,
R115). -/
abbrev collectiveStart (s : State) (h : Fin 256) (x : QItem) (rest : List QItem) (us : List Upset) : Clause :=
  let d := (groupOf s h).desc
  let c := x.data
  let peer := (dRank d + 1) % 2
  let l : Launch := { h, part := dPart d, setId := 0, tag := coTag c, kind := .coll, phase := .allocated, smax := 64, tailAt := s.time.now,
                      tx := [{ dst := peer, frames := [0], data := [(0, (List.range 64).map (Config.freeByte s.freeIdx))] }],
                      rx := [{ src := peer, buf := 0, npos := 0, bytes := 64, form := 3, need := [0] }] }
  ⟨CollHead s h x rest ∧ collOk s h c = true ∧ coOp c = 4 ∧ coStream c = false ∧ dN d = 2 ∧ dRank d < 2,
    Answers (.collectiveStart ⟨h, us⟩) s (fun t => Popped s t (dCollQ d) rest ∧
      t.colls = [{ h, part := dPart d, desc := c, startAt := s.time.now }] ∧ t.launches = [l] ∧ t.pw = (windowAsk s l).pw ∧
      t.freeIdx = s.freeIdx + 1 ∧ RegsBut s t (popRegs (dCollQ d)) ∧ OnlyChanges s t [.queues, .colls, .launches, .pw, .freeIdx, .regs])⟩

/-- A descriptor that does not pass the checks, or names a group that is not enabled, ends with status 4, and EXCH_PARAM is raised (R88, R114,
R116). -/
abbrev collectiveBad (s : State) (h : Fin 256) (x : QItem) (rest : List QItem) (us : List Upset) : Clause :=
  let d := (groupOf s h).desc
  ⟨CollHead s h x rest ∧ collOk s h x.data = false,
    Answers (.collectiveStart ⟨h, us⟩) s (fun t => Popped s t (dCollQ d) rest ∧
      t.colls = [{ h, part := dPart d, desc := x.data, startAt := s.time.now, status := some 4 }] ∧ Reported s t 0x4003 2 36 h (some (dPart d)) 0 0 ∧
      RegsBut s t (popRegs (dCollQ d) ++ errSrc 36) ∧ OnlyChanges s t [.queues, .colls, .regs, .err])⟩

/-- COLLECTIVE_COMPLETE writes the status word with the tag, signals NOTIFY_PIP, and the collective is gone (R116). -/
abbrev collectiveComplete (s : State) (h : Fin 256) (c : Coll) (l : Launch) (status : Nat) : Clause :=
  let x := c.desc
  let k := pipKey c.part (fieldOf s (rPart c.part 0x28) 0 4) (coCore x) (coPip x)
  ⟨s.colls = [c] ∧ c.h = h ∧ s.launches = [l] ∧ l.h = h ∧ l.kind = .coll ∧ collLaunch s c = some l ∧ (groupOf s h).next = none ∧ NoGrant s (windowHolder l) ∧ c.bufs = [] ∧
      (c.status = some status ∨ (c.status = none ∧ status = 0 ∧ passOver s c = true ∧
        ¬ (twoPasses (collGen s c) x = true ∧ c.pass = 0))) ∧ status < 5 ∧
      belongs s c.part (coStatus x) 8 = true ∧ coreOfPart s c.part (coCore x) = true ∧ (pipOf s k).toNat < 0xFFFF ∧
      pipWaiters s c.part (fieldOf s (rPart c.part 0x28) 0 4) (coCore x) (coPip x) = [] ∧ s.fab.dir = [] ∧ CleanMem s ∧ Canon s,
    Answers (.collectiveComplete h) s (fun t => t.colls = [] ∧ t.launches = [] ∧ memNat t (coStatus x) 4 = status ∧
      memNat t (coStatus x + 4) 4 = coTag x ∧ MemBut s t (coStatus x) 8 ∧ pipOf t k = pipOf s k + 1 ∧ (∀ j, j ≠ k → pipOf t j = pipOf s j) ∧
      OnlyChanges s t [.colls, .launches, .mem, .pips])⟩

/-- COLL_TIMEOUT of a STREAMED collective: a member that has not delivered all it owes, in this pass or in one still to come, is DEAD, and the
collective fails with status 1 (R72, R116). -/
abbrev collTimeout (s : State) (h : Fin 256) (c : Coll) (l : Launch) (r : Nat) : Clause :=
  let g := genOf s l
  let node := genNode g r
  ⟨s.colls = [c] ∧ c.h = h ∧ coStream c.desc = true ∧ c.status = none ∧ c.startAt + dCollTo g.1 ≤ s.time.now ∧
      collLaunch s c = some l ∧ collLate g c l = [r] ∧ node < 0xFFFF ∧ inSram (liveBase s c.part) = true ∧
      deadBit s c.part node = false ∧ s.fab.dir = [] ∧ CleanMem s ∧ Canon s,
    Answers (.collTimeout h) s (fun t => t.colls = [{ c with status := some 1 }] ∧ deadBit t c.part node = true ∧
      MemBut s t (liveBase s c.part + node / 8) 1 ∧ Reported s t 0x4006 2 36 h (some c.part) 0 (peerDetail r h) ∧ RegsBut s t (errSrc 36) ∧
      OnlyChanges s t [.colls, .mem, .regs, .err])⟩

/-- With nothing owed the collective goes on (R116). -/
abbrev collTimeoutNone (s : State) (h : Fin 256) (c : Coll) (l : Launch) : Clause :=
  ⟨s.colls = [c] ∧ c.h = h ∧ coStream c.desc = true ∧ c.status = none ∧ c.startAt + dCollTo (genOf s l).1 ≤ s.time.now ∧
      collLaunch s c = some l ∧ collLate (genOf s l) c l = [],
    exec (.collTimeout h) s = .next s⟩

/-- A STREAMED all-reduce of two ranks whose first pass is done still owes the reduced part of the other rank: at its time limit that rank is late
(R115, R116). -/
abbrev collLateGather (g : XgGen) (c : Coll) (l : Launch) : Clause :=
  let r := (dRank g.1 + 1) % 2
  ⟨coOp c.desc = 0 ∧ c.pass = 0 ∧ dN g.1 = 2 ∧ dRank g.1 < 2 ∧ dVer2 g.1 = false ∧ (∀ x ∈ l.rx, x.delivered = true) ∧
      (chunkOf c.desc 2 r).2 ≠ 0 ∧ elBytes (coOut c.desc) ≠ 0,
    collLate g c l = [r]⟩

/-- The saturated sum of two INT32 codes (R111). -/
def satSum (a b : Nat) : Nat :=
  (BitVec.ofInt 32 (max (-2 ^ 31) (min (2 ^ 31 - 1) ((BitVec.ofNat 32 a).toInt + (BitVec.ofNat 32 b).toInt)))).toNat

/-- OXT_REDUCE_RX of the one frame of a REDUCE_SCATTER of INT32 sums between two ranks: every element of the destination is the saturated sum of
this rank's and the frame's, and the share is acknowledged (R109–R111, R115). -/
abbrev oxtReduceRx (s : State) (f : Sys2Proof.Frame) (h r : Nat) (l : Launch) (x : RxShare) (c : Coll) : Clause :=
  let d := (genOf s l).1
  let k := c.desc
  let n := coCount k
  let own := coSrc k + dRank d * n * 4
  let y : RxShare := { x with lastPort := some f.port.val, placed := [0], delivered := true }
  ⟨ForLaunch { s with colls := [] } f 4 h r l ∧ f.ver2 = false ∧ dVer2 d = false ∧ linkUp s f.port = true ∧ hasPath s h (genOf s l) r = true ∧
      s.colls = [c] ∧ c.h = h ∧ c.status = none ∧ c.pass = 0 ∧ c.reduced = [] ∧ coOp k = 1 ∧ coRed k = 0 ∧
      coIn k = 0xA ∧ coOut k = 0xA ∧ 0 < n ∧ n ≤ 2016 ∧ n % 32 = 0 ∧ dN d = 2 ∧ dRank d < 2 ∧ l.kind = .coll ∧ l.win = 0 ∧ l.tag = coTag k ∧ l.rx = [x] ∧
      x.src = r ∧ x.form = 4 ∧ x.pieces = [] ∧ x.discarded = false ∧ x.delivered = false ∧ x.placed = [] ∧ x.need = [0] ∧ x.bytes = 4 * n ∧
      f.psn = 0 ∧ f.offset = 0 ∧ f.payload.length = 4 * n ∧ ftNs s ≤ slotEnd d l (roundOfSrc d r) ∧
      (own + 4 * n ≤ x.buf ∨ x.buf + 4 * n ≤ own) ∧ (coDst k + 4 * n ≤ x.buf ∨ x.buf + 4 * n ≤ coDst k) ∧
      (coDst k = own ∨ own + 4 * n ≤ coDst k ∨ coDst k + 4 * n ≤ own) ∧ s.fab.dir = [] ∧ CleanMem s,
    Answers (.oxtReduceRx f []) s (fun t => t.launches = [{ l with rx := [y] }] ∧ t.colls = [{ c with reduced := [0] }] ∧
      (∀ i, i < n → memNat t (coDst k + 4 * i) 4 = satSum (memNat s (own + 4 * i) 4) (leNat ((f.payload.drop (4 * i)).take 4))) ∧
      (∀ a, (a < x.buf ∨ x.buf + 4 * n ≤ a) → (a < coDst k ∨ coDst k + 4 * n ≤ a) → memAt t a = memAt s a) ∧
      Queued (heard s f) t f.port 6 (ackFrame s l y 1 f.port f.round.toNat) ∧ RxCounted s t f ∧
      RegsBut s t (rXg h 8 :: rPart c.part 0x108 :: rxRegs f.port 6) ∧ OnlyChanges s t [.launches, .colls, .mem, .ports, .regs])⟩

/-- The exact sum of contributions that fit, with one fault of the adder that the residue shows: the element is recomputed, and is right (R110,
R112). -/
abbrev residueMends (qs : List Int) (u : Upset) : Clause :=
  ⟨qs.length ≤ 16384 ∧ (∀ q ∈ qs, -2 ^ 48 < q ∧ q < 2 ^ 48) ∧ u.add < qs.length ∧ -2 ^ 62 < u.err ∧ u.err < 2 ^ 62 ∧ u.err % 127 ≠ 0 ∧ u.again = 0,
    sumExact [u] qs = (qs.sum, .recomputed)⟩

/-- A fault that comes again in the recomputation is a second mismatch (R112, R116). -/
abbrev residueFails (qs : List Int) (u : Upset) : Clause :=
  ⟨qs.length ≤ 16384 ∧ (∀ q ∈ qs, -2 ^ 48 < q ∧ q < 2 ^ 48) ∧ u.add < qs.length ∧ -2 ^ 62 < u.err ∧ u.err < 2 ^ 62 ∧ u.err % 127 ≠ 0 ∧
      -2 ^ 62 < u.again ∧ u.again < 2 ^ 62 ∧ u.again % 127 ≠ 0,
    (sumExact [u] qs).2 = .failed⟩

/-- SHELLER_GATHER of a share with one valid position: its row is copied to the first row of a new item, with its address in the item's table
(R230). -/
abbrev shellerGather (s : State) (h : Fin 256) (rank : BitVec 14) (l : Launch) (x : RxShare) (i e : Nat) : Clause :=
  let m := mdescOf (memItem s (gaTmpl l.gather))
  let a := x.buf + 8 * x.npos + i * l.tokenBytes
  let g := shellerOf (gaMask l.gather) rank.toNat
  let base := areaOf l
  let ptr := base + itemBytes m - 512
  let slot := bitsOf e 0 9
  ⟨s.launches = [l] ∧ l.h = h ∧ l.kind = .dispatch ∧ gaMask l.gather ≠ 0 ∧ l.gatherClosed = false ∧ l.rx = [x] ∧ x.src = rank.toNat ∧
      x.delivered = true ∧ x.gathered = false ∧ validEntries s x = [(i, e)] ∧ l.items = [] ∧ l.slotRows = [] ∧ l.rowmap = [] ∧ isMx m.fmt = false ∧
      m.rowBytes ≤ 64 * (m.stride + m.sstride) ∧ belongs s l.part base (itemBytes m) = true ∧ a < 2 ^ 64 ∧ s.fab.dir = [] ∧ CleanMem s ∧ Canon s,
    Answers (.shellerGather h rank) s (fun t =>
      t.launches = [{ l with rx := [{ x with gathered := true }], items := [(slot, 0)], slotRows := [(slot, 1)], rowmap := [(slot, 0, a)] }] ∧
      memBytes t base m.rowBytes = memBytes s a m.rowBytes ∧ memNat t ptr 8 = a ∧
      (∀ y, (y < base ∨ base + m.rowBytes ≤ y) → (y < ptr ∨ ptr + 8 ≤ y) → memAt t y = memAt s y) ∧
      regOf t (rShell g 0) = regOf s (rShell g 0) + BitVec.ofNat 64 m.rowBytes ∧ regOf t (rShell g 8) = regOf s (rShell g 8) + 1 ∧
      RegsBut s t [rShell g 0, rShell g 8] ∧ OnlyChanges s t [.launches, .mem, .regs])⟩

/-- GATHER_CLOSE of one item: its entry and the header of the work list are written, the item's unused addresses are zeroed, and the header pip is
signalled (R231). -/
abbrev gatherClose (s : State) (h : Fin 256) (l : Launch) (x : RxShare) (slot rows n : Nat) : Clause :=
  let m := mdescOf (memItem s (gaTmpl l.gather))
  let base := areaOf l
  let ptr := base + itemBytes m - 512
  let wl := if l.wl ≠ 0 then l.wl else plWl l.plan
  let g := shellerOf (gaMask l.gather) 0
  let k := pipKey l.part (fieldOf s (rPart l.part 0x28) 0 4) (gaHdrCore l.gather) (gaHdrPip l.gather)
  ⟨s.launches = [l] ∧ l.h = h ∧ l.kind = .dispatch ∧ gaMask l.gather ≠ 0 ∧ l.gatherClosed = false ∧ l.rx = [x] ∧ x.discarded = false ∧
      x.delivered = true ∧ x.gathered = true ∧ l.items = [(slot, 0)] ∧ slot < 512 ∧ l.slotRows = [(slot, rows)] ∧ 1 ≤ rows ∧ rows ≤ 64 ∧
      base < 2 ^ 52 ∧ itemBytes m < 2 ^ 40 ∧ (wl + 96 ≤ base ∨ base + itemBytes m ≤ wl) ∧ plDoneCount l.plan = n ∧ 1 ≤ n ∧
      coreOfPart s l.part (gaHdrCore l.gather) = true ∧ (pipOf s k).toNat + n ≤ 0xFFFF ∧
      pipWaiters s l.part (fieldOf s (rPart l.part 0x28) 0 4) (gaHdrCore l.gather) (gaHdrPip l.gather) = [] ∧ s.fab.dir = [] ∧ CleanMem s ∧ Canon s,
    Answers (.gatherClose h) s (fun t => t.launches = [{ l with gatherClosed := true }] ∧
      memNat t wl 4 = 1 ∧ memNat t (wl + 16) 8 = gaSlotTab l.gather ∧ memNat t (wl + 24) 2 = plDoneCore l.plan ∧
      memNat t (wl + 26) 2 = plDonePip l.plan ∧ memNat t (wl + 64) 2 = rows ∧ memNat t (wl + 66) 2 = slot ∧
      memNat t (wl + 72) 8 = base ∧ memNat t (wl + 80) 8 = ptr ∧ (∀ j, rows ≤ j → j < 64 → memNat t (ptr + 8 * j) 8 = 0) ∧
      (∀ y, (y < wl ∨ wl + 96 ≤ y) → (y < ptr + 8 * rows ∨ ptr + 512 ≤ y) → memAt t y = memAt s y) ∧
      pipOf t k = pipOf s k + BitVec.ofNat 16 n ∧ (∀ j, j ≠ k → pipOf t j = pipOf s j) ∧
      fieldOf t (rShell g 0x10) 0 32 = min 0xFFFFFFFF (fieldOf s (rShell g 0x10) 0 32 + 1) ∧ RegsBut s t [rShell g 0x10] ∧
      OnlyChanges s t [.launches, .mem, .pips, .regs])⟩

end Sys2Proof.Claims

open Sys2Proof.Claims in
/-- Collectives: their start, a reduction, their time limit and their end. -/
def Obligations.Collectives : Prop :=
  ∀ (s : State) (h : Fin 256) (q : QItem) (rest : List QItem) (us : List Upset) (c : Coll) (l : Launch) (x : RxShare) (f : Sys2Proof.Frame)
    (g : XgGen) (qs : List Int) (u : Upset) (status r : Nat),
    (collectiveStart s h q rest us).Holds ∧ (collectiveBad s h q rest us).Holds ∧ (collectiveComplete s h c l status).Holds ∧
      (collTimeout s h c l r).Holds ∧ (collTimeoutNone s h c l).Holds ∧ (collLateGather g c l).Holds ∧ (oxtReduceRx s f h r l x c).Holds ∧
      (residueMends qs u).Holds ∧ (residueFails qs u).Holds

/-- The result of a sum does not depend on the order of its contributions, of which a group has at most 16,384, the block exponent covering them
all (R109–R111). -/
def Obligations.ReductionIgnoresOrder : Prop :=
  ∀ (fmt out big : Nat) (a b : List Nat), a.length ≤ 16384 → (fmt = 0xA ∨ ∀ c ∈ a, expOf (widen fmt c 0x7F).1 ≤ big) → a.Perm b →
    reduceElem 0 fmt out big [] a = reduceElem 0 fmt out big [] b

open Sys2Proof.Claims in
/-- The gather of routed tokens into items and their work list. -/
def Obligations.RoutedTokenGather : Prop :=
  ∀ (s : State) (h : Fin 256) (rank : BitVec 14) (l : Launch) (x : RxShare) (i e slot rows n : Nat),
    (shellerGather s h rank l x i e).Holds ∧ (gatherClose s h l x slot rows n).Holds

/-! ## Ports (R120–R143, R397) -/

namespace Sys2Proof.Claims

/-- An event bit is clear and its vector not masked at the PF. -/
abbrev EventReady (s : State) (off bit vec : Nat) : Prop := fieldOf s off bit 1 = 0 ∧ (true, 0, vec) ∉ s.host.masked

/-- What leaves as it is set: the PF's vector over a host link that is up, and the BMC's interrupt (R334, R341). -/
def eventOut (s : State) (vec : Nat) : List Emit := if hostUp s then [.msix true 0 vec, .ibi vec] else [.ibi vec]

/-- The secure associations are gone. -/
abbrev noSas (d : Port) : Port := { d with rxSas := [], rxPn := [], txSa := none, newSa := none, oldSaUntil := none, peers := [] }

/-- The port enters a state (R129). -/
abbrev entered (s : State) (d : Port) : Port := { d with stateAt := s.time.now, locked := false }

/-- The port waits for a signal: an attempt begins (R130). -/
abbrev waits (s : State) (d : Port) : Port := { entered s d with attemptAt := s.time.now }

/-- No bound of FT grows at the rate of this port's clock, or it is not the reference (R33). -/
abbrev BoundStill (s : State) (n : Nat) : Prop := refPort s n = false ∨ s.time.holdFrom = none

/-- What a port that leaves UP discards (R131). -/
abbrev flushed (d : Port) : Port := { d with txq := [], pausedBy := [], xoff := [], deficit := [], turn := 0, failRaised := false }

/-- A port that is UP, with no VC6 frame waiting, whose event bits and bound of FT stand still. -/
abbrev UpReady (s : State) (n : Nat) : Prop :=
  linkUp s n = true ∧ (∀ x ∈ (portOf s n).txq, x.vc ≠ 6) ∧ EventReady s (rPort n 8) 32 4 ∧ BoundStill s n ∧ Canon s

/-- One that no exchange group counts on. -/
abbrev UpAlone (s : State) (n : Nat) : Prop :=
  UpReady s n ∧ ∀ e ∈ s.groups, dEn e.2.desc = false ∨ dPortEn e.2.desc n = false

/-- The registers that leaving UP changes. -/
def downRegs (n : Nat) : List Nat := [rPort n 8, rPort n 0x148, rPort n 0x140, rPort n 0x128]

/-- The counters of leaving UP (R131, R143); whether a frame was being received, and counts in NET_RX_FCS_ERR, is free (log entry 2). -/
abbrev DownCounted (s t : State) (n uncorr : Nat) : Prop :=
  fieldOf t (rPort n 0x148) 32 32 = min 0xFFFFFFFF (fieldOf s (rPort n 0x148) 32 32 + 1) ∧
    fieldOf t (rPort n 0x140) 32 32 = min 0xFFFFFFFF (fieldOf s (rPort n 0x140) 32 32 + (portOf s n).txq.length) ∧
    fieldOf t (rPort n 8) 32 1 = 1 ∧ fieldOf t (rPort n 0x128) 0 32 = min 0xFFFFFFFF (fieldOf s (rPort n 0x128) 0 32 + uncorr) ∧
    fieldOf t (rPort n 0x128) 32 32 = min 0xFFFFFFFF (fieldOf s (rPort n 0x128) 32 32 + (Config.freeWord s.freeIdx).toNat % 2) ∧
    t.freeIdx = s.freeIdx + 1

/-- NET_PORT_CTRL_WRITE of EN: bring-up begins where the laser suffices (R129, R133, R142). -/
abbrev netPortEnable (s : State) (n : Fin 64) (w : Wr) : Clause :=
  let v := plainWrite (rPort n 0) (regOf s (rPort n 0)).toNat w
  ⟨ByOwner s w.path ∧ fieldOf s (rPort n 0) 0 1 = 0 ∧ bitsOf v 0 1 = 1 ∧ wrBits w 4 1 = 0 ∧ BoundStill s n ∧
      s16 (fieldOf s (rPort n 0x48) 0 16) ≤ s16 (fieldOf s (rPort n 0x50) 0 16) ∧ Canon s,
    Answers (.netPortCtrlWrite n w) s (fun t => regOf t (rPort n 0) = BitVec.ofNat 64 v ∧ portState t n = 2 ∧
      fieldOf t (rPort n 8) 16 1 = bitsOf v 1 1 ∧ PortSet s t n (waits s { portOf s n with failRaised := false }) ∧
      RegsBut s t [rPort n 0, rPort n 8] ∧ OnlyChanges s t [.regs, .ports])⟩

/-- Too little laser light leaves the port at NO_LASER, by the cause LASER, with its event (R129, R133). -/
abbrev netPortEnableDark (s : State) (n : Fin 64) (w : Wr) : Clause :=
  let v := plainWrite (rPort n 0) (regOf s (rPort n 0)).toNat w
  ⟨ByOwner s w.path ∧ fieldOf s (rPort n 0) 0 1 = 0 ∧ bitsOf v 0 1 = 1 ∧ wrBits w 4 1 = 0 ∧ BoundStill s n ∧
      s16 (fieldOf s (rPort n 0x50) 0 16) < s16 (fieldOf s (rPort n 0x48) 0 16) ∧ EventReady s (rPort n 8) 34 4 ∧ Canon s,
    Answers (.netPortCtrlWrite n w) s (fun t => regOf t (rPort n 0) = BitVec.ofNat 64 v ∧ portState t n = 1 ∧ fieldOf t (rPort n 8) 4 3 = 2 ∧ fieldOf t (rPort n 8) 34 1 = 1 ∧
      t.out = s.out ++ eventOut s 4 ∧ PortSet s t n (entered s { portOf s n with failRaised := false }) ∧
      RegsBut s t [rPort n 0, rPort n 8] ∧ OnlyChanges s t [.regs, .ports, .out])⟩

/-- EN = 0 takes the port to DISABLED with DOWN_CAUSE ADMIN; from UP it is counted, and raises no error (R129, R131). -/
abbrev netPortDisable (s : State) (n : Fin 64) (w : Wr) : Clause :=
  let v := plainWrite (rPort n 0) (regOf s (rPort n 0)).toNat w
  ⟨ByOwner s w.path ∧ fieldOf s (rPort n 0) 0 1 = 1 ∧ bitsOf v 0 1 = 0 ∧ wrBits w 4 1 = 0 ∧ UpAlone s n,
    Answers (.netPortCtrlWrite n w) s (fun t => regOf t (rPort n 0) = BitVec.ofNat 64 v ∧ portState t n = 0 ∧ fieldOf t (rPort n 8) 4 3 = 7 ∧
      DownCounted s t n 0 ∧ t.out = s.out ++ eventOut s 4 ∧ PortSet s t n (flushed (noSas (entered s (portOf s n)))) ∧
      RegsBut s t (rPort n 0 :: downRegs n) ∧ OnlyChanges s t [.regs, .ports, .out, .freeIdx])⟩

/-- PORT_CNT_CLR: every counter of the port reads as after reset (R143). -/
abbrev portCntClr (s : State) (n : Fin 64) (w : Wr) : Clause :=
  let v := plainWrite (rPort n 0) (regOf s (rPort n 0)).toNat w
  ⟨ByOwner s w.path ∧ wrBits w 4 1 = 1 ∧ bitsOf v 0 1 = fieldOf s (rPort n 0) 0 1 ∧ Canon s,
    Answers (.portCntClr n w) s (fun t => regOf t (rPort n 0) = BitVec.ofNat 64 v ∧ (∀ k, 0x100 ≤ k → k < 0x300 → regOf t (rPort n k) = 0) ∧
      (∀ off, off ≠ rPort n 0 → (off < rPort n 0x100 ∨ rPort n 0x300 ≤ off) → regOf t off = regOf s off) ∧ OnlyChanges s t [.regs])⟩

/-- A port has gone dark (R129). -/
abbrev Dark (s t : State) (n : Nat) : Prop :=
  portState t n = 1 ∧ fieldOf t (rPort n 8) 4 3 = 2 ∧ fieldOf t (rPort n 8) 34 1 = 1 ∧ portOf t n = noSas (entered s (portOf s n))

/-- LASER_LOSS of the fibre of a port that is enabled and not UP (R129). -/
abbrev laserLoss (s : State) (n : Fin 64) : Clause :=
  ⟨2 ≤ portState s n ∧ portState s n < 6 ∧ EventReady s (rPort n 8) 34 4 ∧ BoundStill s n ∧ Canon s,
    Answers (.laserLoss (.fibre n)) s (fun t => Dark s t n ∧ (∀ k, k ≠ n.val → portOf t k = portOf s k) ∧
      t.out = s.out ++ eventOut s 4 ∧ RegsBut s t [rPort n 8] ∧ OnlyChanges s t [.regs, .ports, .out])⟩

/-- A port that is in NO_LASER stays there, by the cause LASER; one that is DISABLED stays DISABLED (R129). -/
abbrev laserLossIdle (s : State) (n : Fin 64) : Clause :=
  ⟨portState s n < 2 ∧ Canon s,
    Answers (.laserLoss (.fibre n)) s (fun t => portState t n = portState s n ∧ (portState s n = 1 → fieldOf t (rPort n 8) 4 3 = 2) ∧
      (portState s n = 0 → regOf t (rPort n 8) = regOf s (rPort n 8)) ∧ RegsBut s t [rPort n 8] ∧ OnlyChanges s t [.regs])⟩

/-- The loss of laser input `m` darkens the eight ports 8m to 8m + 7 of its optical engine, and no others (R121, R133). -/
abbrev laserInputLoss (s : State) (m : Fin 8) : Clause :=
  ⟨(∀ k, k < 8 → portState s (8 * m + k) < 6 ∧ BoundStill s (8 * m + k)) ∧ (true, 0, 4) ∉ s.host.masked ∧ Canon s,
    Answers (.laserLoss (.input m)) s (fun t =>
      (∀ k, k < 8 → if 2 ≤ portState s (8 * m + k) then Dark s t (8 * m + k)
        else portState t (8 * m + k) = portState s (8 * m + k) ∧ portOf t (8 * m + k) = portOf s (8 * m + k)) ∧
      (∀ n, n / 8 ≠ m.val → portOf t n = portOf s n) ∧ RegsBut s t ((List.range 8).map (fun k => rPort (8 * m + k) 8)) ∧
      OnlyChanges s t [.regs, .ports, .out])⟩

/-- LASER_LOSS of a port that is UP takes it down with LINK_DOWN (R129, R131). -/
abbrev laserLossUp (s : State) (n : Fin 64) : Clause :=
  ⟨UpAlone s n ∧ EventReady s (rPort n 8) 34 4,
    Answers (.laserLoss (.fibre n)) s (fun t => portState t n = 1 ∧ fieldOf t (rPort n 8) 4 3 = 2 ∧ DownCounted s t n 0 ∧
      t.out = s.out ++ eventOut s 4 ++ eventOut s 4 ∧ Reported s t 0x4001 0 (ndOf n) (n % 8) none 0 0 ∧
      PortSet s t n (flushed (noSas (entered s (portOf s n)))) ∧ RegsBut s t (downRegs n ++ errSrc (ndOf n)) ∧
      OnlyChanges s t [.regs, .ports, .err, .out, .freeIdx])⟩

/-- A member of an exchange group that only this port could reach is DEAD as soon as the port is down, whether or not a window is open (R28,
R132). -/
abbrev lastPortDown (s : State) (n : Fin 64) (h r : Nat) (x : Group) : Clause :=
  let g : XgGen := (x.desc, x.members)
  let node := genNode g r
  let rep := fun (code die unit : Nat) (part : Option Nat) (detail : Nat) =>
    ({ code, sev := 0, die, unit, part, addr := 0, detail, ft := ftNs s } : Report)
  ⟨UpReady s n ∧ (portOf s n).txq = [] ∧ s.groups = [(h, x)] ∧ dEn g.1 = true ∧ othersOf g = [r] ∧ usable s h g r (portsTo g.1 r) = [n.val] ∧
      node < 0xFFFF ∧ inSram (liveBase s (dPart g.1)) = true ∧ deadBit s (dPart g.1) node = false ∧ s.fab.dir = [] ∧ CleanMem s,
    Answers (.linkLockLoss n) s (fun t => portState t n = 2 ∧ deadBit t (dPart g.1) node = true ∧ MemBut s t (liveBase s (dPart g.1) + node / 8) 1 ∧
      t.err = { s.err with inflight := s.err.inflight ++
        [rep 0x4001 (ndOf n) (n % 8) none 0, rep 0x4006 36 h (some (dPart g.1)) (peerDetail r h)] } ∧
      (∀ k, k < 64 → k ≠ n.val → (portOf t k).txq = (portOf s k).txq.filter (fun y => !toNode h node y)) ∧
      RegsBut s t (downRegs n ++ errSrc (ndOf n) ++ errSrc 36) ∧ OnlyChanges s t [.regs, .ports, .mem, .err, .out, .freeIdx])⟩

/-- LASER_RESTORED: after 100 ms of light the port waits for a signal (R129). -/
abbrev laserRestored (s : State) (n : Fin 64) : Clause :=
  ⟨portState s n = 1 ∧ BoundStill s n ∧ Canon s,
    Answers (.laserRestored n) s (fun t => portState t n = 2 ∧ t.time.now = s.time.now + 100000000 ∧
      PortSet s t n (waits t (portOf s n)) ∧ RegsBut s t [rPort n 8] ∧ OnlyChanges s t [.regs, .ports, .time])⟩

/-- SIGNAL_DETECTED: a signal of 1 ms on every lane begins training (R129, R133). -/
abbrev signalDetected (s : State) (n : Fin 64) (rx : List (BitVec 16)) : Clause :=
  ⟨lanesOk rx = true ∧ losLanes s n rx = 0 ∧ portState s n = 2 ∧ BoundStill s n ∧ Canon s,
    Answers (.signalDetected ⟨n, rx⟩) s (fun t => portState t n = 3 ∧ fieldOf t (rPort n 8) 8 8 = 0 ∧ t.time.now = s.time.now + 1000000 ∧
      PortSet s t n (entered t (portOf s n)) ∧ RegsBut s t [rPort n 8] ∧ OnlyChanges s t [.regs, .ports, .time])⟩

/-- With a lane that has none the port goes on waiting, and LOS_LANES shows which (R129, R133). -/
abbrev signalWeak (s : State) (n : Fin 64) (rx : List (BitVec 16)) : Clause :=
  ⟨lanesOk rx = true ∧ losLanes s n rx ≠ 0 ∧ Canon s,
    Answers (.signalDetected ⟨n, rx⟩) s (fun t => portState t n = portState s n ∧ fieldOf t (rPort n 8) 8 8 = losLanes s n rx ∧
      RegsBut s t [rPort n 8] ∧ OnlyChanges s t [.regs])⟩

/-- A lane has lost its signal below LOS_ASSERT, and has it again from 2.0 dB above on (R133). -/
abbrev losHysteresis (s : State) (n : Fin 64) (rx : List (BitVec 16)) (k : Fin 8) : Clause :=
  let low := s16 (fieldOf s (rPort n 0x48) 16 16)
  let v := (rx.getD k 0).toInt
  ⟨lanesOk rx = true,
    losLanes s n rx < 256 ∧ (v < low → (losLanes s n rx).testBit k = true) ∧ (low + 20 ≤ v → (losLanes s n rx).testBit k = false) ∧
      (low ≤ v → v < low + 20 → (losLanes s n rx).testBit k = (fieldOf s (rPort n 8) 8 8).testBit k)⟩

/-- LINK_TRAINED, and LINK_LOCKED of a port that does not loop back, go on to the next state (R129). -/
abbrev linkStage (s : State) (n : Fin 64) (c : Instr) (st : Nat) : Clause :=
  ⟨((c = .linkTrained n ∧ st = 3) ∨ (c = .linkLocked n ∧ st = 4 ∧ fieldOf s (rPort n 0) 3 1 = 0)) ∧ portState s n = st ∧ BoundStill s n ∧ Canon s,
    Answers c s (fun t => portState t n = st + 1 ∧ PortSet s t n (entered s (portOf s n)) ∧ RegsBut s t [rPort n 8] ∧
      OnlyChanges s t [.regs, .ports])⟩

/-- A port with LOOP = 1 stops at LOCKING once locked (R129). -/
abbrev linkLockedLoop (s : State) (n : Fin 64) : Clause :=
  ⟨portState s n = 4 ∧ fieldOf s (rPort n 0) 3 1 = 1 ∧ Canon s,
    exec (.linkLocked n) s = .next (s.setPort n { portOf s n with locked := true })⟩

/-- LINK_SECURED, with a CAK for the port's key name, installs one transmit and one receive SA, and the port is UP (R129, R139, R397). -/
abbrev linkSecured (s : State) (n : Fin 64) : Clause :=
  ⟨portState s n = 5 ∧ (cakOf s n).isSome = true ∧ s.fab.reqs = [] ∧ BoundStill s n ∧ Canon s,
    Answers (.linkSecured n) s (fun t => linkUp t n = true ∧
      PortSet s t n { entered s (portOf s n) with rxSas := [0], rxPn := [], txSa := some 0, newSa := none, oldSaUntil := none, pn := 0, rekeyAt := s.time.now,
                                                  failRaised := false } ∧
      RegsBut s t [rPort n 8] ∧ OnlyChanges s t [.regs, .ports])⟩

/-- The registers that a failed attempt changes. -/
def failRegs (n : Nat) : List Nat := [rPort n 8, rPort n 0x150]

/-- A failed attempt is counted, with its event (R130). -/
abbrev FailCounted (s t : State) (n : Nat) : Prop :=
  fieldOf t (rPort n 0x150) 0 32 = min 0xFFFFFFFF (fieldOf s (rPort n 0x150) 0 32 + 1) ∧ fieldOf t (rPort n 8) 33 1 = 1 ∧
    t.out = s.out ++ eventOut s 4

/-- LINK_ATTEMPT_EXPIRY, RETRY_MS after the attempt began: counted; the next attempt begins; only the first failure is an error (R130). -/
abbrev linkAttemptExpiry (s : State) (n : Fin 64) : Clause :=
  let d := portOf s n
  let due := d.attemptAt + max 100 (fieldOf s (rPort n 0) 16 16) * 1000000
  ⟨portState s n = 2 ∧ due ≤ s.time.now ∧ EventReady s (rPort n 8) 33 4 ∧ Canon s,
    Answers (.linkAttemptExpiry n) s (fun t => FailCounted s t n ∧ portState t n = 2 ∧
      PortSet s t n { d with attemptAt := due, failRaised := true } ∧
      (if d.failRaised then t.err = s.err else Reported s t 0x4002 0 (ndOf n) (n % 8) none 0 0) ∧
      RegsBut s t (failRegs n ++ errSrc (ndOf n)) ∧ OnlyChanges s t [.regs, .ports, .err, .out])⟩

/-- The limits of TRAINING, LOCKING and SECURING: command, state, milliseconds (R130). -/
def stageLimits (s : State) (n : Fin 64) : List (Instr × Nat × Nat) :=
  [(.trainingTimeout n, 3, min 10000 (max 10 (fieldOf s (rPort n 0x10) 0 16))), (.lockingTimeout n, 4, 10),
   (.securingTimeout n, 5, fieldOf s (rPort n 0x38) 48 16)]

/-- A limit passes: the attempt has failed, and the port waits for a signal (R130). -/
abbrev stageTimeouts (s : State) (n : Fin 64) (c : Instr) (st ms : Nat) : Clause :=
  let d := portOf s n
  ⟨(c, st, ms) ∈ stageLimits s n ∧ portState s n = st ∧ d.locked = false ∧ d.stateAt + ms * 1000000 ≤ s.time.now ∧
      EventReady s (rPort n 8) 33 4 ∧ BoundStill s n ∧ Canon s,
    Answers c s (fun t => FailCounted s t n ∧ portState t n = 2 ∧ PortSet s t n (waits s { noSas d with failRaised := true }) ∧
      (if d.failRaised then t.err = s.err else Reported s t 0x4002 0 (ndOf n) (n % 8) none 0 0) ∧
      RegsBut s t (failRegs n ++ errSrc (ndOf n)) ∧ OnlyChanges s t [.regs, .ports, .err, .out])⟩

/-- LINK_LOS in TRAINING, LOCKING or SECURING returns to WAIT_SIGNAL, counted in NET_LOS only (R129). -/
abbrev linkLos (s : State) (n : Fin 64) (rx : List (BitVec 16)) : Clause :=
  ⟨3 ≤ portState s n ∧ portState s n < 6 ∧ lanesOk rx = true ∧ losLanes s n rx ≠ 0 ∧ BoundStill s n ∧ Canon s,
    Answers (.linkLos n rx) s (fun t => portState t n = 2 ∧
      fieldOf t (rPort n 0x148) 0 32 = min 0xFFFFFFFF (fieldOf s (rPort n 0x148) 0 32 + 1) ∧
      fieldOf t (rPort n 8) 8 8 = losLanes s n rx ∧ PortSet s t n (waits s (noSas (portOf s n))) ∧
      RegsBut s t [rPort n 8, rPort n 0x148] ∧ OnlyChanges s t [.regs, .ports])⟩

/-- What takes an UP port down, with its DOWN_CAUSE and the codewords that it counts (R131, R143). -/
def downCauses (n : Fin 64) (rx : List (BitVec 16)) (u : BitVec 16) : List (Instr × Nat × Nat) :=
  [(.linkLos n rx, 1, 0), (.linkLockLoss n, 3, 0), (.fecUcwExceeded ⟨n, u⟩, 4, u.toNat), (.remoteFault n, 5, 0)]

/-- An UP port goes to WAIT_SIGNAL: LINK_DOWN, its queues flushed and counted, its associations gone (R131). -/
abbrev linkDown (s : State) (n : Fin 64) (rx : List (BitVec 16)) (u : BitVec 16) (c : Instr) (cause k : Nat) : Clause :=
  ⟨(c, cause, k) ∈ downCauses n rx u ∧ (cause = 1 → lanesOk rx = true ∧ losLanes s n rx ≠ 0) ∧ UpAlone s n,
    Answers c s (fun t => portState t n = 2 ∧ fieldOf t (rPort n 8) 4 3 = cause ∧ DownCounted s t n k ∧ t.out = s.out ++ eventOut s 4 ∧
      Reported s t 0x4001 0 (ndOf n) (n % 8) none 0 0 ∧ PortSet s t n (flushed (noSas (waits s (portOf s n)))) ∧
      RegsBut s t (downRegs n ++ errSrc (ndOf n)) ∧ OnlyChanges s t [.regs, .ports, .err, .out, .freeIdx])⟩

/-- OPT_MEASURE updates the optical monitors (R133). -/
abbrev optMeasure (s : State) (n : Fin 64) (laser rxmin : BitVec 16) : Clause :=
  ⟨(laser = 0x8000 ∨ s16 (fieldOf s (rPort n 0x48) 0 16) ≤ laser.toInt) ∧ Canon s,
    Answers (.optMeasure n laser rxmin) s (fun t => fieldOf t (rPort n 0x50) 0 16 = laser.toNat ∧ fieldOf t (rPort n 0x50) 16 16 = rxmin.toNat ∧
      fieldOf t (rPort n 0x50) 32 32 = fieldOf s (rPort n 0x50) 32 32 ∧ RegsBut s t [rPort n 0x50] ∧ OnlyChanges s t [.regs])⟩

/-- A reading below LASER_MIN takes the port to NO_LASER (R129, R133). -/
abbrev optDark (s : State) (n : Fin 64) (laser rxmin : BitVec 16) : Clause :=
  ⟨laser ≠ 0x8000 ∧ laser.toInt < s16 (fieldOf s (rPort n 0x48) 0 16) ∧ 2 ≤ portState s n ∧ portState s n < 6 ∧
      EventReady s (rPort n 8) 34 4 ∧ BoundStill s n ∧ Canon s,
    Answers (.optMeasure n laser rxmin) s (fun t => fieldOf t (rPort n 0x50) 0 16 = laser.toNat ∧ Dark s t n ∧
      (∀ k, k ≠ n.val → portOf t k = portOf s k) ∧ t.out = s.out ++ eventOut s 4 ∧ RegsBut s t [rPort n 8, rPort n 0x50] ∧
      OnlyChanges s t [.regs, .ports, .out])⟩

/-- A frame of the PFC class, which is untagged and bypasses MACsec, meets the receive checks (R126, R128, R139). -/
abbrev PfcHeard (s : State) (n : Nat) (w : Wire) : Prop := Passes s n 64 w false true ∧ w.vid = none

/-- A state whose port `n` has some bytes less in its receive buffer (R137). -/
abbrev drainedState (s : State) (n : Nat) (dr : List Nat) : State :=
  s.setPort n { portOf s n with rxUsed := afterDrain (portOf s n).rxUsed dr }

/-- PFC_RX pauses a priority or ends its pause; with PFC off for it, it is counted and ignored (R138). A port without secure associations
hears it too (R139). -/
abbrev pfcRx (s : State) (n : Fin 64) (w : Wire) (v : Fin 8) (xoff : Bool) : Clause :=
  ⟨PfcHeard s n w ∧ v.val ∉ (portOf s n).pausedBy ∧ Canon s,
    Answers (.pfcRx ⟨n, w⟩ v xoff) s (fun t => PortRx s t n 64 w ∧
      (if pfcEn s n v = false then fieldOf t (rPort n 0x150) 32 32 = min 0xFFFFFFFF (fieldOf s (rPort n 0x150) 32 32 + 1) ∧ t.ports = s.ports
       else if xoff then fieldOf t (rVc n v 0x18) 0 32 = min 0xFFFFFFFF (fieldOf s (rVc n v 0x18) 0 32 + 1) ∧
         PortSet s t n { portOf s n with pausedBy := (portOf s n).pausedBy ++ [v.val] }
       else t.ports = s.ports) ∧
      RegsBut s t ([rPort n 0x150, rVc n v 0x18] ++ portRxRegs n) ∧ OnlyChanges s t [.regs, .ports])⟩

/-- An XON ends the pause of its priority (R138). -/
abbrev pfcXonRx (s : State) (n : Fin 64) (w : Wire) (v : Fin 8) : Clause :=
  ⟨PfcHeard s n w ∧ pfcEn s n v = true ∧ Canon s,
    Answers (.pfcRx ⟨n, w⟩ v false) s (fun t => PortRx s t n 64 w ∧
      PortSet s t n { portOf s n with pausedBy := (portOf s n).pausedBy.filter (· != v.val) } ∧
      RegsBut s t (portRxRegs n) ∧ OnlyChanges s t [.regs, .ports])⟩

/-- While less than 9,216 bytes of non-headroom shared space is free an XOFF goes out again every 10 µs (R138). -/
abbrev pfcXoffRepeat (s : State) (n : Fin 64) (v : Fin 6) (dr : List Nat) : Clause :=
  let s1 := drainedState s n dr
  ⟨hears s n = true ∧ v.val ∈ (portOf s n).xoff ∧ sharedFree s1 n < 9216 ∧ fieldOf s (rPort n 0) 2 1 = 0 ∧ Canon s,
    Answers (.pfcXoffRepeat ⟨n, dr⟩ v) s (fun t => Sent s t n none 64 (.pfc v true) ∧ t.time.now = s.time.now + 10000 ∧ t.ports = s1.ports ∧
      fieldOf t (rVc n v 0x10) 32 32 = min 0xFFFFFFFF (fieldOf s (rVc n v 0x10) 32 32 + 1) ∧
      RegsBut s t (rVc n v 0x10 :: txRegs n) ∧ OnlyChanges s t [.regs, .ports, .time, .out])⟩

/-- Once 64 KiB of it is free, XON ends it (R138). -/
abbrev pfcXon (s : State) (n : Fin 64) (v : Fin 6) (dr : List Nat) : Clause :=
  let s1 := drainedState s n dr
  ⟨hears s n = true ∧ v.val ∈ (portOf s n).xoff ∧ 65536 ≤ sharedFree s1 n ∧ fieldOf s (rPort n 0) 2 1 = 0 ∧ Canon s,
    Answers (.pfcXon ⟨n, dr⟩ v) s (fun t => Sent s t n none 64 (.pfc v false) ∧
      PortSet s t n { portOf s1 n with xoff := (portOf s n).xoff.filter (· != v.val) } ∧ RegsBut s t (txRegs n) ∧
      OnlyChanges s t [.regs, .ports, .out])⟩

/-- Until then the condition stands (R138). -/
abbrev pfcHolds (s : State) (n : Fin 64) (v : Fin 6) (dr : List Nat) : Clause :=
  let s1 := drainedState s n dr
  ⟨sharedFree s1 n < 65536 ∧ Canon s,
    Answers (.pfcXon ⟨n, dr⟩ v) s (fun t => t.ports = s1.ports ∧ OnlyChanges s t [.ports])⟩

/-- A port that has taken a frame of `len` bytes and has an answer to it in its queue, on the virtual channel of the request, or on VC7 for one
that came on VC6 (log entry 49). -/
abbrev Replied (s t : State) (n len : Nat) (w : Wire) (m : Msg) : Prop :=
  PortRx s t n len w ∧ regOf t (rVc n w.pcp 8) = regOf s (rVc n w.pcp 8) + 1 ∧
    PortSet s t n { tookPort s n w.pcp len w with txq := (portOf s n).txq ++ [{ vc := replyVc w.pcp, len, msg := m }] }

/-- NEIGHBOR_SOLICIT_RX for an own port address is answered on the port where it came (R124, R126). -/
abbrev neighborSolicitRx (s : State) (n : Fin 64) (w : Wire) (src target : BitVec 128) : Clause :=
  ⟨Passes s n 126 w true false ∧ w.ext = false ∧ ownAddr s target.toNat = true ∧ roomFor s n w.pcp 126 w = true ∧ Canon s,
    Answers (.neighborSolicitRx ⟨n, w⟩ ⟨src, target⟩) s (fun t => Replied s t n 126 w (.neighborAdv src target) ∧
      RegsBut s t (rxRegs n w.pcp) ∧ OnlyChanges s t [.regs, .ports])⟩

/-- ARP_RX for NET_MGMT_V4 is answered (R126, R127). -/
abbrev arpRx (s : State) (n : Fin 64) (w : Wire) (target : BitVec 32) : Clause :=
  ⟨Passes s n 82 w true false ∧ fieldOf s 0x440030 0 32 = target.toNat ∧ target ≠ 0 ∧ roomFor s n w.pcp 82 w = true ∧ Canon s,
    Answers (.arpRx ⟨n, w⟩ target) s (fun t => Replied s t n 82 w (.arpReply target) ∧ RegsBut s t (rxRegs n w.pcp) ∧
      OnlyChanges s t [.regs, .ports])⟩

/-- A frame of a PFC channel that finds less than 9,216 bytes of non-headroom shared space makes the port send XOFF, and is taken where the
headroom has room for it (R137, R138). -/
abbrev xoffSent (s : State) (n : Fin 64) (w : Wire) (target : BitVec 32) : Clause :=
  let v := w.pcp.val
  let s1 := drainedState s n w.drained
  let s2 := s1.setPort n { portOf s1 n with xoff := (portOf s n).xoff ++ [v] }
  ⟨Passes s n 82 w true false ∧ fieldOf s 0x440030 0 32 = target.toNat ∧ target ≠ 0 ∧ pfcEn s n v = true ∧ sharedFree s1 n < 9216 ∧
      v ∉ (portOf s n).xoff ∧ rxRoom s2 n v 82 = true ∧ fieldOf s (rPort n 0) 2 1 = 0 ∧ Canon s,
    Answers (.arpRx ⟨n, w⟩ target) s (fun t => Sent s t n none 64 (.pfc v true) ∧ PortRx s t n 82 w ∧
      fieldOf t (rVc n v 0x10) 32 32 = min 0xFFFFFFFF (fieldOf s (rVc n v 0x10) 32 32 + 1) ∧
      PortSet s t n { tookPort s n v 82 w with xoff := (portOf s n).xoff ++ [v]
                                               txq := (portOf s n).txq ++ [{ vc := replyVc v, len := 82, msg := .arpReply target }] } ∧
      RegsBut s t (rVc n v 0x10 :: txRegs n ++ rxRegs n v) ∧ OnlyChanges s t [.regs, .ports, .out])⟩

/-- Without space the frame is dropped and counted (R128, R137). -/
abbrev bufferFull (s : State) (n : Fin 64) (w : Wire) (target : BitVec 32) : Clause :=
  let v := w.pcp.val
  let s1 := drainedState s n w.drained
  ⟨Passes s n 82 w true false ∧ fieldOf s 0x440030 0 32 = target.toNat ∧ target ≠ 0 ∧
      (pfcEn s n v = false ∨ 9216 ≤ sharedFree s1 n ∨ v ∈ (portOf s n).xoff) ∧ rxRoom s1 n v 82 = false ∧ Canon s,
    Answers (.arpRx ⟨n, w⟩ target) s (fun t => fieldOf t (rVc n v 0x10) 0 32 = min 0xFFFFFFFF (fieldOf s (rVc n v 0x10) 0 32 + 1) ∧
      PortSet s t n { pnSeen (portOf s n) w with rxUsed := afterDrain (portOf s n).rxUsed w.drained } ∧
      RegsBut s t [rVc n v 0x10, rPort n 0x120, rPort n 0x128] ∧ OnlyChanges s t [.regs, .ports])⟩

/-- The receive buffer of a port (R137): 512 KiB of VC6, 64 KiB of each other channel and 1,088 KiB that VC0 to VC5 share, less the headroom
for a channel that has not sent XOFF. -/
abbrev bufferDivision (s : State) (n v len : Nat) : Clause :=
  let used := tget 0 (portOf s n).rxUsed v
  ⟨v < 8, (v = 6 → (rxRoom s n v len = true ↔ used + len ≤ 524288)) ∧ (v = 7 → (rxRoom s n v len = true ↔ used + len ≤ 65536)) ∧
    (v < 6 → used + len ≤ 65536 → rxRoom s n v len = true) ∧
    (v < 6 → (∀ u, u < 6 → u ≠ v → tget 0 (portOf s n).rxUsed u ≤ 65536) → v ∉ (portOf s n).xoff → 65536 < used + len → 65536 ≤ used →
      (rxRoom s n v len = true ↔ len = 0 ∨ used + len ≤ 65536 + (1114112 - headroom s n)))⟩

/-- The commands of frames that the receive checks of R128 meet: port, bytes, what the frame brings, whether its class is tagged, whether it
bypasses MACsec, and whether a row of R126 names it (R126, R127, R139). -/
def recvClasses (s : State) (n : Fin 64) (w : Wire) (len : BitVec 16) (v : Fin 8) (xoff : Bool) (src target : BitVec 128) (v4 peer : BitVec 32)
    (f : Sys2Proof.Frame) : List (Instr × Nat × Nat × Wire × Bool × Bool × Bool) :=
  [(.unclassifiedFrameRx ⟨n, w⟩ len, n, len.toNat, w, false, w.sec.isNone, false),
   (.neighborSolicitRx ⟨n, w⟩ ⟨src, target⟩, n, 126, w, true, false, !w.ext && ownAddr s target.toNat),
   (.arpRx ⟨n, w⟩ v4, n, 82, w, true, false, fieldOf s 0x440030 0 32 ≠ 0 && fieldOf s 0x440030 0 32 = v4.toNat),
   (.pfcRx ⟨n, w⟩ v xoff, n, 64, w, false, true, w.vid.isNone), (.mkaRx ⟨n, w⟩ peer xoff, n, 126, w, false, true, true),
   (.oxtDataRx ⟨f, []⟩, f.port, frameLen f, f.wire, true, false, udpKnown s f.wire (oxtPort s) [5, 6]),
   (.oxtReduceRx f [], f.port, frameLen f, f.wire, true, false, udpKnown s f.wire (oxtPort s) [5, 6]),
   (.oxtCountRx f, f.port, frameLen f, f.wire, true, false, udpKnown s f.wire (oxtPort s) [6]),
   (.fabReqLoad f, f.port, frameLen f, f.wire, true, false, udpKnown s f.wire (oxtPort s) [4]),
   (.fabRspRx f, f.port, frameLen f, f.wire, true, false, udpKnown s f.wire (oxtPort s) [4])]

/-- The first check of R128 that a frame fails, by the word and bit of its counter (R143). -/
def failsAt (s : State) (n len : Nat) (w : Wire) (mustTag clear known : Bool) : Option (Nat × Nat) :=
  if w.fcsOk = false then some (0x128, 32)
  else if 9216 < len then some (0x130, 0)
  else if tagOk s n w mustTag = false then some (0x130, 32)
  else match (if clear then none else some w.sec) with
    | none => if known then none else some (0x138, 0)
    | some none => some (0x138, 32)
    | some (some t) =>
      if t.icvOk = false ∨ t.an.val ∉ (portOf s n).rxSas then some (0x138, 32)
      else if t.pn.toNat + fieldOf s (rPort n 0x38) 16 32 < tget 0 (portOf s n).rxPn t.an.val then some (0x140, 0)
      else if known then none else some (0x138, 0)

/-- It counts there only, with its codewords; where it passed MACsec its packet number is the highest seen (R128, R139, R143). -/
abbrev CheckFailed (s t : State) (m : Nat) (x : Wire) (clear : Bool) (a : Nat × Nat) : Prop :=
  fieldOf t (rPort m a.1) a.2 32 = min 0xFFFFFFFF (fieldOf s (rPort m a.1) a.2 32 + 1) ∧
    (a.1 ≠ 0x128 → fieldOf t (rPort m a.1) (32 - a.2) 32 = fieldOf s (rPort m a.1) (32 - a.2) 32) ∧
    regOf t (rPort m 0x120) = regOf s (rPort m 0x120) + BitVec.ofNat 64 x.corr.toNat ∧
    fieldOf t (rPort m 0x128) 0 32 = min 0xFFFFFFFF (fieldOf s (rPort m 0x128) 0 32 + x.uncorr.toNat) ∧
    (∀ j, j ≠ m → portOf t j = portOf s j) ∧ portOf t m = (if a = (0x138, 0) ∧ clear = false then pnSeen (portOf s m) x else portOf s m) ∧
    RegsBut s t [rPort m a.1, rPort m 0x120, rPort m 0x128] ∧ OnlyChanges s t [.regs, .ports]

/-- A frame that fails a check counts in the counter of the first one that it fails only, and goes no further (R126, R128). -/
abbrev recvChecks (s : State) (n : Fin 64) (w : Wire) (len : BitVec 16) (v : Fin 8) (xoff : Bool) (src target : BitVec 128) (v4 peer : BitVec 32)
    (f : Sys2Proof.Frame) (c : Instr) (m k : Nat) (x : Wire) (mustTag clear known : Bool) (a : Nat × Nat) : Clause :=
  ⟨(c, m, k, x, mustTag, clear, known) ∈ recvClasses s n w len v xoff src target v4 peer f ∧ c.wellFormed = true ∧ hears s m = true ∧
      failsAt s m k x mustTag clear known = some a ∧ (∀ t ∈ x.sec, t.pn.toNat < lastPn) ∧ Canon s,
    Answers c s (fun t => CheckFailed s t m x clear a)⟩

/-- A new SAK: its SA receives first (R397). -/
abbrev rekeyed (s : State) (d : Port) (sa : Nat) : Port :=
  { d with newSa := some ((sa + 1) % 4), rxSas := d.rxSas.filter (· != (sa + 1) % 4) ++ [(sa + 1) % 4], rxPn := tput 0 d.rxPn ((sa + 1) % 4) 0,
           rekeyAt := s.time.now, peers := d.peers.map (fun e => (e.1, e.2.1, false)) }

/-- MKA_RX of a peer that was not live brings a new SAK (R397). -/
abbrev mkaRx (s : State) (n : Fin 64) (w : Wire) (peer : BitVec 32) (rep : Bool) (sa : Nat) : Clause :=
  let d := portOf s n
  ⟨Passes s n 126 w false true ∧ d.txSa = some sa ∧ d.newSa = none ∧ (∀ e ∈ d.peers, e.1 ≠ peer.toNat) ∧ fieldOf s (rPort n 0) 2 1 = 0 ∧ Canon s,
    Answers (.mkaRx ⟨n, w⟩ peer rep) s (fun t => PortRx s t n 126 w ∧ Sent s t n none 126 (.mka true) ∧
      PortSet s t n (rekeyed s { d with peers := d.peers ++ [(peer.toNat, s.time.now, false)] } sa) ∧
      RegsBut s t (portRxRegs n ++ txRegs n) ∧ OnlyChanges s t [.regs, .ports, .out])⟩

/-- Transmit switches once the one live peer reports the new SA; the old one stays for 5 s (R397). -/
abbrev mkaSwitch (s : State) (n : Fin 64) (w : Wire) (peer : BitVec 32) (x : Nat) : Clause :=
  let d := portOf s n
  ⟨Passes s n 126 w false true ∧ d.newSa = some x ∧ d.peers.map (·.1) = [peer.toNat] ∧ Canon s,
    Answers (.mkaRx ⟨n, w⟩ peer true) s (fun t => PortRx s t n 126 w ∧
      PortSet s t n { d with peers := [(peer.toNat, s.time.now, true)], txSa := some x, newSa := none, pn := 0,
                             oldSaUntil := some (s.time.now + 5000000000) } ∧
      RegsBut s t (portRxRegs n) ∧ OnlyChanges s t [.regs, .ports])⟩

/-- SAK_REKEY after SAK_REKEY_S, or at packet number 2^63 (R397). -/
abbrev sakRekey (s : State) (n : Fin 64) (sa : Nat) : Clause :=
  let d := portOf s n
  ⟨linkUp s n = true ∧ (2 ^ 63 ≤ d.pn ∨ d.rekeyAt + fieldOf s 0x020020 16 32 * 1000000000 ≤ s.time.now) ∧ d.txSa = some sa ∧ d.newSa = none ∧
      fieldOf s (rPort n 0) 2 1 = 0 ∧ Canon s,
    Answers (.sakRekey n) s (fun t => Sent s t n none 126 (.mka true) ∧ PortSet s t n (rekeyed s d sa) ∧ RegsBut s t (txRegs n) ∧
      OnlyChanges s t [.regs, .ports, .out])⟩

/-- OLD_SA_EXPIRY: only the current and the coming SA still receive (R397). -/
abbrev oldSaExpiry (s : State) (n : Fin 64) (due : Nat) : Clause :=
  let d := portOf s n
  ⟨d.oldSaUntil = some due ∧ due ≤ s.time.now ∧ Canon s,
    exec (.oldSaExpiry n) s =
      .next (s.setPort n { d with oldSaUntil := none, rxSas := d.rxSas.filter (fun x => some x == d.txSa || some x == d.newSa) })⟩

/-- MKA_PEER_TIMEOUT of one of several peers: the live list has changed, and a new SAK comes (R397). -/
abbrev mkaPeerTimeout (s : State) (n : Fin 64) (peer : BitVec 32) (e e1 : Nat × Nat × Bool) (sa : Nat) : Clause :=
  let d := portOf s n
  ⟨linkUp s n = true ∧ d.peers = [e, e1] ∧ e.1 = peer.toNat ∧ e1.1 ≠ peer.toNat ∧ e.2.1 + 6000000000 ≤ s.time.now ∧ d.txSa = some sa ∧ d.newSa = none ∧
      fieldOf s (rPort n 0) 2 1 = 0 ∧ Canon s,
    Answers (.mkaPeerTimeout n peer) s (fun t => Sent s t n none 126 (.mka true) ∧ PortSet s t n (rekeyed s { d with peers := [e1] } sa) ∧
      RegsBut s t (txRegs n) ∧ OnlyChanges s t [.regs, .ports, .out])⟩

/-- Without any live peer the port goes down with DOWN_CAUSE SEC (R131, R397). -/
abbrev mkaLastPeer (s : State) (n : Fin 64) (peer : BitVec 32) (e : Nat × Nat × Bool) : Clause :=
  ⟨UpAlone s n ∧ (portOf s n).peers = [e] ∧ e.1 = peer.toNat ∧ e.2.1 + 6000000000 ≤ s.time.now,
    Answers (.mkaPeerTimeout n peer) s (fun t => portState t n = 2 ∧ fieldOf t (rPort n 8) 4 3 = 6 ∧ DownCounted s t n 0 ∧
      Reported s t 0x4001 0 (ndOf n) (n % 8) none 0 0 ∧ PortSet s t n (flushed (noSas (waits s (portOf s n)))) ∧
      RegsBut s t (downRegs n ++ errSrc (ndOf n)) ∧ OnlyChanges s t [.regs, .ports, .err, .out, .freeIdx])⟩

/-- The frame that PORT_FRAME_CHOICE lets go: VC6 before all; else, unless a VC6 round begins within the time of one full frame, VC7 within its
cap; else the channel whose turn it is within its deficit (R134, R135, R138). -/
def chosen (s : State) (n : Nat) (x : TxFrame) : Prop :=
  let round := roundBegins s n (ftNs s) (ftNs s + (if halfRate s n then 94 else 47))
  let d := portOf s n
  headTx s n 6 = some x ∨
    (headTx s n 6 = none ∧ round = false ∧ headTx s n 7 = some x ∧ x.len * 10 ≤ vc7Room s n) ∨
    (headTx s n 6 = none ∧ round = false ∧ (headTx s n 7).all (fun y => vc7Room s n < y.len * 10) = true ∧ headTx s n d.turn = some x ∧
      d.turn < 6 ∧ d.turn ∉ d.pausedBy ∧ x.len ≤ tget 0 d.deficit d.turn)

/-- It leaves with its headers and counters, under the next packet number, and only its channel's allowance has changed (R123, R124, R134, R135,
R139, R143). -/
abbrev portFrameChoice (s : State) (n : Fin 64) (x : TxFrame) : Clause :=
  ⟨linkUp s n = true ∧ chosen s n x ∧ fieldOf s (rPort n 0) 2 1 = 0 ∧ controlled s n x.msg = true ∧
      ((portOf s n).pn + 1 < lastPn ∨ (portOf s n).newSa ≠ none) ∧ Canon s,
    Answers (.portFrameChoice n) s (fun t => Sent s t n (some x.vc) x.len x.msg ∧ regOf t (rVc n x.vc 0) = regOf s (rVc n x.vc 0) + 1 ∧
      (portOf t n).txq = (portOf s n).txq.erase x ∧ (portOf t n).pn = (portOf s n).pn + 1 ∧
      (x.vc = 7 → (portOf t n).cap7 + x.len * 10 = vc7Room s n) ∧
      (x.vc < 6 → (portOf t n).deficit = tput 0 (portOf s n).deficit x.vc (tget 0 (portOf s n).deficit x.vc - x.len)) ∧
      (∀ k, k ≠ n.val → portOf t k = portOf s k) ∧ RegsBut s t (rVc n x.vc 0 :: txRegs n) ∧ OnlyChanges s t [.regs, .ports, .out])⟩

/-- The last packet number of a transmit SA without a new SAK takes the port down as it leaves, with DOWN_CAUSE SEC (R131, R397). -/
abbrev lastPacket (s : State) (n : Fin 64) (x : TxFrame) : Clause :=
  ⟨linkUp s n = true ∧ EventReady s (rPort n 8) 32 4 ∧ BoundStill s n ∧ (∀ e ∈ s.groups, dEn e.2.desc = false ∨ dPortEn e.2.desc n = false) ∧ (portOf s n).txq = [x] ∧
      chosen s n x ∧ fieldOf s (rPort n 0) 2 1 = 0 ∧ controlled s n x.msg = true ∧
      lastPn ≤ (portOf s n).pn + 1 ∧ (portOf s n).newSa = none ∧ Canon s,
    Answers (.portFrameChoice n) s (fun t => portState t n = 2 ∧ fieldOf t (rPort n 8) 4 3 = 6 ∧
      t.out = s.out ++ [.frame n (txHdr s n (some x.vc) x.msg) x.msg] ++ eventOut s 4 ∧
      Reported s t 0x4001 0 (ndOf n) (n % 8) none 0 0 ∧ (portOf t n).txSa = none ∧ (portOf t n).txq = [] ∧
      RegsBut s t (rVc n x.vc 0 :: txRegs n ++ downRegs n ++ errSrc (ndOf n)) ∧ OnlyChanges s t [.regs, .ports, .err, .out, .freeIdx])⟩

/-- On VC6 the frames of the tail go ahead of the data of a round (R106). -/
abbrev tailFirst (s : State) (n : Fin 64) (x : TxFrame) (a b : List TxFrame) : Clause :=
  ⟨(portOf s n).txq = a ++ x :: b ∧ x.vc = 6 ∧ tailTx x = true ∧ netNode s ≠ 0xFFFF ∧ (∀ y ∈ a, y.vc = 6 → tailTx y = false),
    headTx s n 6 = some x⟩

/-- While NET_NODE is 0xFFFF no OXT frame leaves, the ones that wait neither (R125). -/
abbrev noNodeKeeps (s : State) (n : Fin 64) : Clause :=
  ⟨netNode s = 0xFFFF ∧ (∀ x ∈ (portOf s n).txq, maySend s x = false) ∧ Canon s,
    Answers (.portFrameChoice n) s (fun t => (portOf t n).txq = (portOf s n).txq ∧ (∀ k, k ≠ n.val → portOf t k = portOf s k) ∧
      OnlyChanges s t [.ports])⟩

/-- No frame of VC0–VC5 or VC7 starts where it would still be on the wire when a VC6 round begins (R134). -/
abbrev roundKeepsWireFree (s : State) (n : Fin 64) : Clause :=
  ⟨linkUp s n = true ∧ headTx s n 6 = none ∧ roundBegins s n (ftNs s) (ftNs s + (if halfRate s n then 94 else 47)) = true,
    exec (.portFrameChoice n) s = .next s⟩

end Sys2Proof.Claims

open Sys2Proof.Claims in
/-- Bring-up of a port, its limits and its counters. -/
def Obligations.PortBringUp : Prop :=
  ∀ (s : State) (n : Fin 64) (w : Wr) (c : Instr) (st ms : Nat) (laser rxmin : BitVec 16) (rx : List (BitVec 16)) (k : Fin 8),
    (netPortEnable s n w).Holds ∧ (netPortEnableDark s n w).Holds ∧ (netPortDisable s n w).Holds ∧ (portCntClr s n w).Holds ∧
      (laserRestored s n).Holds ∧ (signalDetected s n rx).Holds ∧ (signalWeak s n rx).Holds ∧ (losHysteresis s n rx k).Holds ∧ (linkStage s n c st).Holds ∧ (linkLockedLoop s n).Holds ∧
      (linkSecured s n).Holds ∧ (linkAttemptExpiry s n).Holds ∧ (stageTimeouts s n c st ms).Holds ∧ (optMeasure s n laser rxmin).Holds ∧
      (optDark s n laser rxmin).Holds

open Sys2Proof.Claims in
/-- How a port goes down. -/
def Obligations.PortLoss : Prop :=
  ∀ (s : State) (n : Fin 64) (m : Fin 8) (rx : List (BitVec 16)) (u : BitVec 16) (c : Instr) (cause k h r : Nat) (x : Group) (peer : BitVec 32)
    (e : Nat × Nat × Bool) (y : TxFrame),
    (laserLoss s n).Holds ∧ (laserLossIdle s n).Holds ∧ (laserInputLoss s m).Holds ∧ (laserLossUp s n).Holds ∧ (lastPortDown s n h r x).Holds ∧
      (linkLos s n rx).Holds ∧ (linkDown s n rx u c cause k).Holds ∧ (lastPacket s n y).Holds ∧ (mkaLastPeer s n peer e).Holds

open Sys2Proof.Claims in
/-- Flow control, address resolution, receive checks and the arbiter of a port. -/
def Obligations.PortTraffic : Prop :=
  ∀ (s : State) (n : Fin 64) (w x : Wire) (len : BitVec 16) (v : Fin 8) (u : Fin 6) (dr : List Nat) (xoff : Bool) (src v6 : BitVec 128)
    (v4 peer : BitVec 32) (f : Sys2Proof.Frame) (c : Instr) (m k : Nat) (mustTag clear known : Bool) (a : Nat × Nat) (y : TxFrame)
    (q r : List TxFrame),
    (pfcRx s n w v xoff).Holds ∧ (pfcXonRx s n w v).Holds ∧ (pfcXoffRepeat s n u dr).Holds ∧ (pfcXon s n u dr).Holds ∧ (pfcHolds s n u dr).Holds ∧
      (neighborSolicitRx s n w src v6).Holds ∧ (arpRx s n w v4).Holds ∧ (xoffSent s n w v4).Holds ∧ (bufferFull s n w v4).Holds ∧
      (bufferDivision s n m k).Holds ∧ (recvChecks s n w len v xoff src v6 v4 peer f c m k x mustTag clear known a).Holds ∧
      (portFrameChoice s n y).Holds ∧ (tailFirst s n y q r).Holds ∧ (noNodeKeeps s n).Holds ∧ (roundKeepsWireFree s n).Holds

open Sys2Proof.Claims in
/-- MKA: new keys, the switch of the transmit SA, and peers that go. -/
def Obligations.PortKeys : Prop :=
  ∀ (s : State) (n : Fin 64) (w : Wire) (peer : BitVec 32) (rep : Bool) (sa due : Nat) (e e1 : Nat × Nat × Bool),
    (mkaRx s n w peer rep sa).Holds ∧ (mkaSwitch s n w peer sa).Holds ∧ (sakRekey s n sa).Holds ∧ (oldSaExpiry s n due).Holds ∧
      (mkaPeerTimeout s n peer e e1 sa).Holds

/-! ## Partitions, contexts and jobs (R289–R302) -/

namespace Sys2Proof.Claims

/-- GO of a partition map with the next generation. -/
abbrev MapGo (s : State) (p : Nat) (w : Wr) : Prop :=
  ByOwner s w.path ∧ w.half = .all ∧ wrBits w 35 1 = 1 ∧
    BitVec.ofNat 32 (wrBits w 0 32) = nextGen (BitVec.ofNat 32 (fieldOf s (rPart p 8) 0 32)) ∧ Canon s

/-- A map has come into force: PENDING is clear, and the cores that are no partition's any more sleep (R26, R289, R302). -/
abbrev MapInForce (s t : State) (p : Fin 64) : Prop :=
  (∀ q, q ≠ p.val → partOf t q = partOf s q) ∧ fieldOf t (rPart p 8) 34 1 = 0 ∧
    t.pw.awake = s.pw.awake.filter (fun c => (List.range 64).any (fun q => coreOfPart t q c)) ∧ t.pw.held = s.pw.held ∧
    t.pw.waiting = s.pw.waiting

/-- No core asks for watts to wake, and those of the map that comes into force are awake where the job runs. -/
abbrev NoWakes (s : State) (p : Fin 64) (m : PartMap) : Prop :=
  (∀ c, NoGrant s (.wake c)) ∧ (jobState s p = 2 → ∀ c ∈ partCores (s.setPart p { partOf s p with map := m }) p, c ∈ s.pw.awake)

/-- A staged map that passes the check, of a partition that is idle, comes into force at once: its cores and ranges are the staged ones
(R23, R24, R289). -/
abbrev partMapCommit (s : State) (p : Fin 64) (w : Wr) : Clause :=
  ⟨MapGo s p w ∧ mapOk s p = true ∧ partIdle s p = true ∧ jobState s p ≠ 3 ∧ NoWakes s p (stagedMap s p),
    Answers (.partMapCommit p w) s (fun t => partOf t p = { partOf s p with map := stagedMap s p, mapNext := none } ∧ MapInForce s t p ∧
      fieldOf t (rPart p 8) 0 32 = wrBits w 0 32 ∧ fieldOf t (rPart p 8) 32 2 = 2 ∧
      RegsBut s t [rPart p 8, 0x040018] ∧ OnlyChanges s t [.parts, .regs, .pw])⟩

/-- While a context runs, comes or goes, or the job drains, the map waits; PENDING is set where another waits already, or while the job drains
(R23, R26, R289). -/
abbrev partMapPends (s : State) (p : Fin 64) (w : Wr) : Clause :=
  ⟨MapGo s p w ∧ mapOk s p = true ∧ (partIdle s p = false ∨ jobState s p = 3),
    Answers (.partMapCommit p w) s (fun t => partOf t p = { partOf s p with mapNext := some (stagedMap s p) } ∧
      (∀ q, q ≠ p.val → partOf t q = partOf s q) ∧ fieldOf t (rPart p 8) 0 32 = wrBits w 0 32 ∧ fieldOf t (rPart p 8) 32 2 = 2 ∧
      fieldOf t (rPart p 8) 34 1 = (if (partOf s p).mapNext.isSome = true ∨ jobState s p = 3 then 1 else fieldOf s (rPart p 8) 34 1) ∧
      RegsBut s t [rPart p 8] ∧ OnlyChanges s t [.parts, .regs])⟩

/-- A staged map that fails the check changes nothing but the state, and PART_CFG_INVALID is raised (R289). -/
abbrev partMapFails (s : State) (p : Fin 64) (w : Wr) : Clause :=
  ⟨MapGo s p w ∧ mapOk s p = false,
    Answers (.partMapCommit p w) s (fun t => fieldOf t (rPart p 8) 32 2 = 3 ∧ fieldOf t (rPart p 8) 0 32 = fieldOf s (rPart p 8) 0 32 ∧
      Reported s t 0xC002 0 dieMG 0 (some p) 0 0 ∧ RegsBut s t (rPart p 8 :: errSrc dieMG) ∧ OnlyChanges s t [.regs, .err])⟩

/-- A GO with another generation is refused (R24). -/
abbrev partMapRefused (s : State) (p : Fin 64) (w : Wr) : Clause :=
  ⟨ByOwner s w.path ∧ wrBits w 35 1 = 1 ∧ BitVec.ofNat 32 (wrBits w 0 32) ≠ nextGen (BitVec.ofNat 32 (fieldOf s (rPart p 8) 0 32)) ∧ Canon s,
    Answers (.partMapCommit p w) s (Denied s)⟩

/-- A context runs, and nothing but its time slice may end that. -/
abbrev RunsAlone (s : State) (p c : Nat) : Prop :=
  (partOf s p).running = some c ∧ (partOf s p).switching = .none ∧ (partOf s p).td = .none

/-- The running context begins to be saved, to become `st` (R296). -/
abbrev saving (s : State) (p st : Nat) : State := s.setPart p { partOf s p with switching := .saving, outState := st }

/-- CTX_SLICE_END while another context is READY, or a map waits: at the end of the slice the context begins to be saved (R23, R294). -/
abbrev ctxSliceEnd (s : State) (p : Fin 64) (c : Nat) : Clause :=
  ⟨RunsAlone s p c ∧ ((nextReady s p).isSome = true ∨ (partOf s p).mapNext.isSome = true) ∧ Canon s,
    Answers (.ctxSliceEnd p) s (fun t => t.time.now = max s.time.now ((partOf s p).sliceStart + sliceNs s p c) ∧ t.parts = (saving s p 1).parts ∧
      OnlyChanges s t [.parts, .time])⟩

/-- Otherwise the context goes on (R294). -/
abbrev ctxSliceGoesOn (s : State) (p : Fin 64) : Clause :=
  ⟨nextReady s p = none ∧ (partOf s p).mapNext = none, exec (.ctxSliceEnd p) s = .next s⟩

/-- CTX_EARLY_SWITCH once no thread of the context is READY or under way (R294). -/
abbrev ctxEarlySwitch (s : State) (p : Fin 64) (c : Nat) : Clause :=
  ⟨RunsAlone s p c ∧ (nextReady s p).isSome = true ∧ (∀ e ∈ ctxThreads s p c, atRest e.2 = true),
    exec (.ctxEarlySwitch p) s = .next (saving s p 1)⟩

/-- The context that comes in behind context `c`, which becomes `st`: the next in round-robin order that is READY (R294). -/
def comesIn (s : State) (p c st : Nat) : Option Nat :=
  ((List.range 16).map (fun k => (c + 1 + k) % 16)).find? (fun k => if k = c then st == 1 else ctxState s p k == 1)

/-- A context that is being saved, with no vector command under way (R245, R296). -/
abbrev Saves (s : State) (p c : Nat) : Prop :=
  (partOf s p).switching = .saving ∧ (partOf s p).running = some c ∧ c < 16 ∧ vecBusy s p c = false ∧
    ((partOf s p).outState = 1 ∨ (partOf s p).outState = 3 ∨ (partOf s p).outState = 4) ∧ Canon s

/-- No matrix command of a context is under way (R210). -/
abbrev NoTiles (s : State) (p c : Nat) : Prop := ∀ e ∈ ctxThreads s p c, tilesUnderWay e.2 = []

/-- CTX_SWITCH_SAVED: the outgoing context has its new state, the switch is counted, and the READY context behind it comes in (R294, R296). -/
abbrev ctxSwitchSaved (s : State) (p : Fin 64) (c d : Nat) : Clause :=
  let x := partOf s p
  ⟨Saves s p c ∧ NoTiles s p c ∧ comesIn s p c x.outState = some d ∧ jobState s p = 2 ∧ x.td = .none,
    Answers (.ctxSwitchSaved p) s (fun t => ctxState t p c = x.outState ∧
      partOf t p = { x with running := none, lastRun := c, incoming := some d, switching := .restoring, outState := 1, scratch := scratchSaved s p c } ∧
      (∀ q, q ≠ p.val → partOf t q = partOf s q) ∧
      fieldOf t (rPart p 0x930) 0 32 = min 0xFFFFFFFF (fieldOf s (rPart p 0x930) 0 32 + 1) ∧
      RegsBut s t [rCtx p c 0, rPart p 0x930] ∧ OnlyChanges s t [.parts, .regs])⟩

/-- With no READY context nothing comes in, and a map that waits comes into force (R23, R289, R294). -/
abbrev ctxSwitchSavedLast (s : State) (p : Fin 64) (c : Nat) : Clause :=
  let x := partOf s p
  let m := x.mapNext.getD x.map
  ⟨Saves s p c ∧ NoTiles s p c ∧ comesIn s p c x.outState = none ∧ NoWakes s p m,
    Answers (.ctxSwitchSaved p) s (fun t => ctxState t p c = x.outState ∧
      partOf t p = { x with running := none, lastRun := c, switching := .none, outState := 1, scratch := scratchSaved s p c, map := m, mapNext := none } ∧
      (x.mapNext.isSome = true → MapInForce s t p) ∧ (∀ q, q ≠ p.val → partOf t q = partOf s q) ∧
      fieldOf t (rPart p 0x930) 0 32 = min 0xFFFFFFFF (fieldOf s (rPart p 0x930) 0 32 + 1) ∧
      RegsBut s t [rCtx p c 0, rPart p 0x930, rPart p 8, 0x040018] ∧ OnlyChanges s t [.parts, .regs, .pw])⟩

/-- A context is not saved while a vector command of it runs (R245, R296). -/
abbrev ctxSwitchWaits (s : State) (p : Fin 64) (c : Nat) : Clause :=
  ⟨(partOf s p).switching = .saving ∧ (partOf s p).running = some c ∧ vecBusy s p c = true, exec (.ctxSwitchSaved p) s = .next s⟩

/-- A matrix command with tiles left stops at its cursor, which is saved with its thread, and CMP_ARR_PREEMPT counts it (R209–R211). -/
abbrev ctxSwitchStops (s : State) (p : Fin 64) (c k slot : Nat) (th : Thread) (a : AsyncCmd) : Clause :=
  let r := rCore (k / 16 % 2048) 0x28
  ⟨Saves s p c ∧ ctxThreads s p c = [(k, th)] ∧ th.asyncs = [(slot, a)] ∧ (engineOf a.w = 3 ∨ engineOf a.w = 4) ∧ a.phase = .running ∧
      a.cur.isSome = true ∧ NoGrant s (.cmd k slot) ∧ (partOf s p).mapNext = none,
    Answers (.ctxSwitchSaved p) s (fun t => ctxState t p c = (partOf s p).outState ∧ (partOf t p).running = none ∧
      threadOf t k = { th with asyncs := [(slot, { a with phase := .stopped, grant := false })] } ∧
      (∀ j, j ≠ k → threadOf t j = threadOf s j) ∧ fieldOf t r 0 32 = min 0xFFFFFFFF (fieldOf s r 0 32 + 1) ∧
      fieldOf t r 32 32 = fieldOf s r 32 32 ∧ RegsBut s t [rCtx p c 0, rPart p 0x930, r] ∧ OnlyChanges s t [.parts, .regs, .threads, .freeIdx])⟩

/-- A context that is being restored, none of whose commands was stopped or waits for its turn. -/
abbrev Restores (s : State) (p c : Nat) : Prop :=
  (partOf s p).switching = .restoring ∧ (partOf s p).incoming = some c ∧
    (∀ e ∈ ctxThreads s p c, ∀ a ∈ e.2.asyncs, a.2.phase ≠ .stopped ∧ a.2.phase ≠ .queued) ∧ Canon s

/-- CTX_SWITCH_RESTORED: the context runs, and its slice begins (R294, R296). -/
abbrev ctxSwitchRestored (s : State) (p : Fin 64) (c : Nat) : Clause :=
  let x := partOf s p
  ⟨Restores s p c ∧ x.mapNext = none ∧ savesScratch s p c = false,
    Answers (.ctxSwitchRestored p) s (fun t => ctxState t p c = 2 ∧
      partOf t p = { x with running := some c, incoming := none, switching := .none, sliceStart := s.time.now } ∧
      (∀ q, q ≠ p.val → partOf t q = partOf s q) ∧ RegsBut s t [rCtx p c 0] ∧ OnlyChanges s t [.parts, .regs])⟩

/-- A map that waits for the switch comes into force with it (R23, R289). -/
abbrev ctxSwitchMap (s : State) (p : Fin 64) (c : Nat) (m : PartMap) : Clause :=
  let x := partOf s p
  ⟨Restores s p c ∧ x.mapNext = some m ∧ savesScratch s p c = false ∧ NoWakes s p m,
    Answers (.ctxSwitchRestored p) s (fun t => ctxState t p c = 2 ∧ MapInForce s t p ∧
      partOf t p = { x with running := some c, incoming := none, switching := .none, sliceStart := s.time.now, map := m, mapNext := none } ∧
      RegsBut s t [rCtx p c 0, rPart p 8, 0x040018] ∧ OnlyChanges s t [.parts, .regs, .pw])⟩

/-- A context with SAVE_SCRATCH = 1 is saved with every byte of its cores' scratch (R293, R296). -/
abbrev ctxScratchSaved (s : State) (p : Fin 64) (c : Nat) : Clause :=
  ⟨Saves s p c ∧ NoTiles s p c ∧ savesScratch s p c = true ∧ (partOf s p).mapNext = none,
    Answers (.ctxSwitchSaved p) s (fun t => (∀ a, inPartScratch s p a = true →
        tget 0 (tget {} (partOf t p).scratch c).bytes a = memAt s a ∧ memAt t a = memAt s a) ∧
      (∀ k, k ≠ c → tget {} (partOf t p).scratch k = tget {} (partOf s p).scratch k))⟩

/-- Its restore brings that scratch back, and leaves every other byte (R293, R296). -/
abbrev ctxScratchRestored (s : State) (p : Fin 64) (c : Nat) : Clause :=
  let x := partOf s p
  ⟨Restores s p c ∧ x.mapNext = none ∧ savesScratch s p c = true,
    Answers (.ctxSwitchRestored p) s (fun t => ctxState t p c = 2 ∧
      partOf t p = { x with running := some c, incoming := none, switching := .none, sliceStart := s.time.now } ∧
      (∀ a, memAt t a = if inPartScratch s p a then tget 0 (tget {} x.scratch c).bytes a else memAt s a) ∧
      (∀ q, q ≠ p.val → partOf t q = partOf s q) ∧ RegsBut s t [rCtx p c 0] ∧ OnlyChanges s t [.parts, .regs, .mem, .mem2])⟩

/-- A stopped command with a grant asks for it again once its context is back (R210, R296). -/
abbrev ctxRestoredAsks (s : State) (p : Fin 64) (c k slot : Nat) (th : Thread) (a : AsyncCmd) : Clause :=
  let x := partOf s p
  ⟨x.switching = .restoring ∧ x.incoming = some c ∧ x.mapNext = none ∧ savesScratch s p c = false ∧ ctxThreads s p c = [(k, th)] ∧
      th.asyncs = [(slot, a)] ∧ a.phase = .stopped ∧ a.grant = true ∧ k / 16 / 2048 / 16 = p.val ∧ Canon s,
    Answers (.ctxSwitchRestored p) s (fun t => ctxState t p c = 2 ∧ (partOf t p).running = some c ∧
      threadOf t k = { th with asyncs := [(slot, { a with phase := .waitGrant })] } ∧ (∀ j, j ≠ k → threadOf t j = threadOf s j) ∧
      t.pw = { s.pw with waiting := s.pw.waiting ++ [{ who := .cmd k slot, mw := classMw s (cmdClass a.w), prio := th.prio.toNat, part := p.val,
                                                       die := some (k / 16 % 2048 / 64), askedAt := s.time.now }] } ∧
      RegsBut s t [rCtx p c 0] ∧ OnlyChanges s t [.parts, .regs, .threads, .pw])⟩

/-- One without a grant goes on from its cursor; here its tiles are all done, and it has only its completion left (R209, R210, R296). -/
abbrev ctxRestoredGoesOn (s : State) (p : Fin 64) (c k slot : Nat) (th : Thread) (a : AsyncCmd) (x : Cursor) : Clause :=
  let d := partOf s p
  ⟨d.switching = .restoring ∧ d.incoming = some c ∧ d.mapNext = none ∧ savesScratch s p c = false ∧ s.threads = [(k, th)] ∧
      k / 16 / 2048 = ctxKey p c ∧ c < 16 ∧ th.asyncs = [(slot, a)] ∧ a.phase = .stopped ∧ a.grant = false ∧ a.cur = some x ∧ x.fin = true ∧
      NoGrant s (.cmd k slot) ∧ Canon s,
    Answers (.ctxSwitchRestored p) s (fun t => ctxState t p c = 2 ∧ (partOf t p).running = some c ∧
      threadOf t k = { th with asyncs := [(slot, { w := a.w, phase := .done, flags := a.flags })] } ∧
      RegsBut s t [rCtx p c 0] ∧ OnlyChanges s t [.parts, .regs, .threads])⟩

/-- CTX_FAULT: with a FAULTED thread and nothing under way the running context is switched out as FAULTED, and CTX_FAULT names the thread
(R297). -/
abbrev ctxFault (s : State) (p : Fin 64) (c : Fin 16) (k : Nat) (th : Thread) : Clause :=
  let core := k / 16 % 2048
  ⟨(partOf s p).running = some c.val ∧ ctxState s p c = 2 ∧ goesFaulted (partOf s p) = false ∧
      (ctxThreads s p c).find? (fun e => e.2.st == .faulted) = some (k, th) ∧ quiet s p c = true ∧ Canon s,
    Answers (.ctxFault p c) s (fun t =>
      Reported s t 0xC001 2 (core / 64) (core % 64) (some p) 0 (faultDetail th.faultCause.toNat (k % 16) c) ∧ t.parts = (saving s p 4).parts ∧
      RegsBut s t (errSrc (core / 64)) ∧ OnlyChanges s t [.parts, .regs, .err])⟩

/-- A write of word 0 of a context, as it is stored. -/
abbrev ctxWord (s : State) (p c : Nat) (w : Wr) : Nat := plainWrite (rCtx p c 0) (regOf s (rCtx p c 0)).toNat w

/-- CTX_RESUME makes a SUSPENDED context READY; another one runs (R299). -/
abbrev ctxResume (s : State) (p : Fin 64) (c : Fin 16) (w : Wr) : Clause :=
  ⟨ByOwner s w.path ∧ wrBits w 61 3 = 1 ∧ ctxState s p c = 3 ∧ (partOf s p).running.isSome = true ∧ Canon s,
    Answers (.ctxResume p c w) s (fun t => regOf t (rCtx p c 0) = BitVec.ofNat 64 (setBits (ctxWord s p c w) 56 3 1) ∧
      RegsBut s t [rCtx p c 0] ∧ OnlyChanges s t [.regs])⟩

/-- Where nothing runs, the READY context behind the one that ran last comes in (R294, R299). -/
abbrev ctxResumeComesIn (s : State) (p : Fin 64) (c : Fin 16) (w : Wr) (d : Nat) : Clause :=
  let s1 := s.setReg (rCtx p c 0) (setBits (ctxWord s p c w) 56 3 1)
  ⟨ByOwner s w.path ∧ wrBits w 61 3 = 1 ∧ ctxState s p c = 3 ∧ (partOf s p).running = none ∧ (partOf s p).switching = .none ∧
      (partOf s p).td = .none ∧ jobState s p = 2 ∧ nextReady s1 p = some d ∧ Canon s,
    Answers (.ctxResume p c w) s (fun t => regOf t (rCtx p c 0) = regOf s1 (rCtx p c 0) ∧
      partOf t p = { partOf s p with incoming := some d, switching := .restoring } ∧ (∀ q, q ≠ p.val → partOf t q = partOf s q) ∧
      RegsBut s t [rCtx p c 0] ∧ OnlyChanges s t [.regs, .parts])⟩

/-- CTX_RESUME of a context whose thread has a command that an error stopped: the command waits for its turn again, with a new request where it
takes a grant, and the thread goes on behind it (R210, R298, R299). -/
abbrev ctxResumeStopped (s : State) (p : Fin 64) (c : Fin 16) (w : Wr) (k slot : Nat) (th : Thread) (a : AsyncCmd) : Clause :=
  ⟨ByOwner s w.path ∧ wrBits w 61 3 = 1 ∧ ctxState s p c = 4 ∧ (partOf s p).running.isSome = true ∧ ctxThreads s p c = [(k, th)] ∧
      th.st = .faulted ∧ th.faultCause = 6 ∧ th.asyncs = [(slot, a)] ∧ a.phase = .stopped ∧ th.wait = .none ∧ k / 16 / 2048 / 16 = p.val ∧ Canon s,
    Answers (.ctxResume p c w) s (fun t => ctxState t p c = 1 ∧
      threadOf t k = { th with st := .ready, faultCause := 0, hdrDone := false
                               asyncs := [(slot, { a with phase := if a.grant then .waitGrant else .queued })] } ∧
      (∀ j, j ≠ k → threadOf t j = threadOf s j) ∧
      t.pw = { s.pw with waiting := s.pw.waiting ++ (if a.grant then
        [{ who := .cmd k slot, mw := classMw s (cmdClass a.w), prio := th.prio.toNat, part := p.val, die := some (k / 16 % 2048 / 64)
           askedAt := s.time.now }] else []) } ∧
      RegsBut s t [rCtx p c 0] ∧ OnlyChanges s t [.regs, .threads, .pw])⟩

/-- CTX_RESUME of a FAULTED context whose one thread faulted on poison: the thread issues its command again (R298, R299). -/
abbrev ctxResumeFaulted (s : State) (p : Fin 64) (c : Fin 16) (w : Wr) (k : Nat) (th : Thread) : Clause :=
  ⟨ByOwner s w.path ∧ wrBits w 61 3 = 1 ∧ ctxState s p c = 4 ∧ (partOf s p).running.isSome = true ∧ ctxThreads s p c = [(k, th)] ∧
      th.st = .faulted ∧ th.faultCause = 6 ∧ th.asyncs = [] ∧ th.wait = .none ∧ Canon s,
    Answers (.ctxResume p c w) s (fun t => ctxState t p c = 1 ∧ threadOf t k = { th with st := .ready, faultCause := 0, hdrDone := true } ∧
      (∀ j, j ≠ k → threadOf t j = threadOf s j) ∧ RegsBut s t [rCtx p c 0] ∧ OnlyChanges s t [.regs, .threads])⟩

/-- CTX_STOP of a READY context, which is not coming in, suspends it (R299). -/
abbrev ctxStop (s : State) (p : Fin 64) (c : Fin 16) (w : Wr) : Clause :=
  ⟨ByOwner s w.path ∧ wrBits w 61 3 = 3 ∧ ctxState s p c = 1 ∧ (partOf s p).incoming ≠ some c.val ∧ Canon s,
    Answers (.ctxStop p c w) s (fun t => regOf t (rCtx p c 0) = BitVec.ofNat 64 (setBits (ctxWord s p c w) 56 3 3) ∧
      RegsBut s t [rCtx p c 0] ∧ OnlyChanges s t [.regs])⟩

/-- CTX_STOP of a READY context that is coming in suspends it, and no other is READY (R299). -/
abbrev ctxStopIncoming (s : State) (p : Fin 64) (c : Fin 16) (w : Wr) : Clause :=
  ⟨ByOwner s w.path ∧ wrBits w 61 3 = 3 ∧ ctxState s p c = 1 ∧ (partOf s p).incoming = some c.val ∧ (∀ k, k < 16 → k ≠ c.val → ctxState s p k ≠ 1) ∧
      Canon s,
    Answers (.ctxStop p c w) s (fun t => regOf t (rCtx p c 0) = BitVec.ofNat 64 (setBits (ctxWord s p c w) 56 3 3) ∧
      partOf t p = { partOf s p with incoming := none, switching := .none } ∧ (∀ q, q ≠ p.val → partOf t q = partOf s q) ∧
      RegsBut s t [rCtx p c 0] ∧ OnlyChanges s t [.regs, .parts])⟩

/-- CTX_STOP of the running one switches it out (R299). -/
abbrev ctxStopRunning (s : State) (p : Fin 64) (c : Fin 16) (w : Wr) : Clause :=
  ⟨ByOwner s w.path ∧ wrBits w 61 3 = 3 ∧ ctxState s p c = 2 ∧ goesFaulted (partOf s p) = false ∧ Canon s,
    Answers (.ctxStop p c w) s (fun t => regOf t (rCtx p c 0) = BitVec.ofNat 64 (ctxWord s p c w) ∧ t.parts = (saving s p 3).parts ∧
      RegsBut s t [rCtx p c 0] ∧ OnlyChanges s t [.regs, .parts])⟩

/-- A command that the context's state does not allow is refused (R299). -/
abbrev ctxCmdRefused (s : State) (p : Fin 64) (c : Fin 16) (w : Wr) : Clause :=
  ⟨ByOwner s w.path ∧ ((wrBits w 61 3 = 1 ∧ ctxState s p c < 3) ∨ (wrBits w 61 3 = 3 ∧ (ctxState s p c = 0 ∨ 2 < ctxState s p c))) ∧ Canon s,
    Answers (.ctxResume p c w) s (fun t => fieldOf t 0x010060 0 32 = min 0xFFFFFFFF (fieldOf s 0x010060 0 32 + 1) ∧
      Reported s t 0x0101 0 96 0 none 0 0 ∧ regOf t (rCtx p c 0) = BitVec.ofNat 64 (ctxWord s p c w) ∧
      RegsBut s t (rCtx p c 0 :: 0x010060 :: errSrc 96) ∧ OnlyChanges s t [.regs, .err])⟩

/-- A thread as a reset context has it: READY at ENTRY, with its core's place in the partition and its number in g0 and g1 (R293, R299). -/
def freshThread (s : State) (p c core tc : Nat) : Thread :=
  { st := .ready, cp := BitVec.ofNat 52 (ctxEntry s p c), g := tput 0 (tput 0 [] 0 (BitVec.ofNat 64 core)) 1 (BitVec.ofNat 64 tc),
    ref := some { ring := p * 16, tag := 0, noCqe := false, src := 1 } }

/-- The keys of a context's threads, pips and vector buffers. -/
abbrev inCtx (p c : Nat) (k n : Nat) : Prop := k / n / 2048 = ctxKey p c

/-- Threads, pips and vector buffers of a context as CTX_RESET leaves them; those of the others are as they were (R293, R299). -/
abbrev CtxFresh (s t : State) (p c : Nat) : Prop :=
  (∀ (j core tc : Nat), (partCores s p)[j]? = some core → tc < 16 → threadOf t (thrKey p c core tc) = freshThread s p c j tc) ∧
    (∀ core tc, core < 2048 → tc < 16 → core ∉ partCores s p → threadOf t (thrKey p c core tc) = {}) ∧
    (∀ k, ¬ inCtx p c k 16 → threadOf t k = threadOf s k) ∧
    (∀ k, pipOf t k = if k / 64 / 2048 = ctxKey p c then 0 else pipOf s k) ∧
    (∀ k, vbufOf t k = if k / 4 / 2048 = ctxKey p c then {} else vbufOf s k)

/-- Nothing outside the threads of a context refers to it. -/
abbrev CtxLoose (s : State) (p c : Nat) : Prop :=
  (∀ e ∈ ctxThreads s p c, e.2.ref = none) ∧ s.queues = [] ∧ s.submits = [] ∧ s.samples = [] ∧ s.fab.reqs = [] ∧ s.fab.moves = [] ∧
    s.pw.held = [] ∧ s.pw.waiting = []

/-- CTX_RESET of a context that does not run (R299). -/
abbrev ctxReset (s : State) (p : Fin 64) (c : Fin 16) (w : Wr) (d : Nat) : Clause :=
  ⟨ByOwner s w.path ∧ wrBits w 61 3 = 2 ∧ (partOf s p).running = some d ∧ d ≠ c.val ∧ (partOf s p).incoming = none ∧ CtxLoose s p c ∧ Canon s,
    Answers (.ctxReset p c w) s (fun t => CtxFresh s t p c ∧
      regOf t (rCtx p c 0) = BitVec.ofNat 64 (setBits (ctxWord s p c w) 56 3 (bitsOf (ctxWord s p c w) 52 1)) ∧
      RegsBut s t [rCtx p c 0, 0x040018] ∧ OnlyChanges s t [.threads, .pips, .vbufs, .regs, .pw, .fab])⟩

/-- CTX_RESET of the context that runs: it runs no more, and the READY context behind the one that ran last comes in (R294, R299). -/
abbrev ctxResetRunning (s : State) (p : Fin 64) (c : Fin 16) (w : Wr) (d : Nat) : Clause :=
  let x := partOf s p
  let s1 := s.setReg (rCtx p c 0) (setBits (ctxWord s p c w) 56 3 (bitsOf (ctxWord s p c w) 52 1))
  ⟨ByOwner s w.path ∧ wrBits w 61 3 = 2 ∧ x.running = some c.val ∧ x.incoming = none ∧ x.mapNext = none ∧ x.td = .none ∧ jobState s p = 2 ∧
      nextReady s1 p = some d ∧ CtxLoose s p c ∧ Canon s,
    Answers (.ctxReset p c w) s (fun t => CtxFresh s t p c ∧ regOf t (rCtx p c 0) = regOf s1 (rCtx p c 0) ∧
      partOf t p = { x with running := none, incoming := some d, switching := .restoring } ∧ (∀ q, q ≠ p.val → partOf t q = partOf s q) ∧
      RegsBut s t [rCtx p c 0, 0x040018] ∧ OnlyChanges s t [.threads, .pips, .vbufs, .regs, .pw, .fab, .parts])⟩

/-- PART_TEARDOWN of a running job: DRAINING; its scheduled entries disarm (R301). -/
abbrev partTeardown (s : State) (p : Fin 64) (w : Wr) : Clause :=
  ⟨ByOwner s w.path ∧ wrBits w 35 1 = 1 ∧ (jobState s p = 1 ∨ jobState s p = 2) ∧ fieldOf s (rPart p 8) 34 1 = 0 ∧
      btRange s p = [] ∧ (partOf s p).toks = [] ∧ Canon s,
    Answers (.partTeardown p w) s (fun t => jobState t p = 3 ∧ jobGen t p = jobGen s p ∧
      partOf t p = { partOf s p with td := .drain, tdAt := s.time.now, startAt := none } ∧ (∀ q, q ≠ p.val → partOf t q = partOf s q) ∧
      (∀ e, e < 1024 → setArmed t e = (setArmed s e && setPart s e != p.val)) ∧
      (∀ off, off ≠ rPart p 0x10 → (∀ e, e < 1024 → off ≠ rSet e 2) → regOf t off = regOf s off) ∧ OnlyChanges s t [.parts, .regs])⟩

/-- The drain is over, or its limit has passed. -/
abbrev DrainOver (s : State) (p : Fin 64) (c : Instr) : Prop :=
  (c = .teardownDrainDone p ∧ drained s p = true) ∨ (c = .teardownDrainTimeout p ∧ (partOf s p).tdAt + drainNs s p ≤ s.time.now)

/-- What the end of a drain leaves: contexts DISABLED with no threads, nothing of the partition in flight, and the wipe begins (R301). -/
abbrev teardownDrainEnd (s : State) (p : Fin 64) (c : Instr) : Clause :=
  ⟨(partOf s p).td = .drain ∧ DrainOver s p c ∧ btRange s p = [] ∧ s.host.qps = [] ∧ Canon s,
    Answers c s (fun t => (partOf t p).td = .wipe ∧ (partOf t p).running = none ∧ (partOf t p).incoming = none ∧
      (partOf t p).map = (partOf s p).map ∧ (∀ q, q ≠ p.val → partOf t q = partOf s q) ∧ (∀ k, k < 16 → ctxState t p k = 0) ∧
      (∀ k, k / 16 / 2048 / 16 = p.val → threadOf t k = {}) ∧ (∀ k, k / 16 / 2048 / 16 ≠ p.val → threadOf t k = threadOf s k) ∧
      (∀ k, k / 64 / 2048 / 16 = p.val → pipOf t k = 0) ∧ (∀ q, q < 4096 → qPart s q = p.val → (queueOf t q).items = []) ∧
      (∀ u ∈ t.submits, u.part ≠ p.val) ∧ t.launches = s.launches.filter (fun l => l.part != p.val) ∧
      t.colls = s.colls.filter (fun l => l.part != p.val) ∧ (∀ x ∈ t.samples, x.part ≠ p.val) ∧
      (c = .teardownDrainTimeout p → fieldOf t (rPart p 0x938) 0 32 =
        if drained s p then fieldOf s (rPart p 0x938) 0 32 else min 0xFFFFFFFF (fieldOf s (rPart p 0x938) 0 32 + 1)))⟩

/-- TEARDOWN_WIPE_DONE: every byte of the partition's ranges outside tier 3 and of its cores' scratch is 0, its tier-3 ranges wait for their
wipe, the generation has moved on, the state is IDLE, and its event is set (R258, R301). -/
abbrev teardownWipeDone (s : State) (p : Fin 64) : Clause :=
  let rs := (partOf s p).map.ranges.filter (fun r => tierOf r.1 != .t3)
  ⟨(partOf s p).td = .wipe ∧ (partOf s p).mapNext = none ∧ (∀ c, c < 12 → poolCfgOk s p c = true) ∧ EventReady s (rPart p 0x10) 36 5 ∧
      s.fab.dir = [] ∧ Canon s,
    Answers (.teardownWipeDone p) s (fun t => jobState t p = 0 ∧ BitVec.ofNat 32 (jobGen t p) = nextGen (BitVec.ofNat 32 (jobGen s p)) ∧
      partOf t p = { partOf s p with td := .none, scratch := [] } ∧ fieldOf t (rPart p 0x10) 36 1 = 1 ∧ t.out = s.out ++ eventOut s 5 ∧
      (∀ r ∈ rs, ∀ a, r.1 ≤ a → a < r.1 + r.2 → memAt t a = 0) ∧
      t.mem2.t3Part = s.mem2.t3Part ++ (partOf s p).map.ranges.filter (fun r => tierOf r.1 == .t3) ∧
      (∀ c ∈ partCores s p, ∀ a, scratchBase c ≤ a → a < scratchBase c + 0x200000 → memAt t a = 0) ∧
      (∀ a, (∀ r ∈ rs, a < r.1 ∨ r.1 + r.2 ≤ a) →
        (∀ c ∈ partCores s p, a < scratchBase c ∨ scratchBase c + 0x200000 ≤ a) → memAt t a = memAt s a) ∧
      (∀ c ∈ partCores s p, c ∉ t.pw.awake) ∧ OnlyChanges s t [.regs, .mem, .mem2, .pools, .parts, .pw, .out])⟩

/-- PART_JOB_START of an idle partition with a committed map and a newer generation: STARTING at FT_START and the node's offset (R302). -/
abbrev partJobStart (s : State) (p : Fin 64) (w : Wr) : Clause :=
  let gen := fieldOf s (rPart p 0x20) 0 32
  ⟨ByOwner s w.path ∧ jobState s p = 0 ∧ fieldOf s (rPart p 8) 0 32 ≠ 0 ∧ genNewer (BitVec.ofNat 32 gen) (BitVec.ofNat 32 (jobGen s p)) = true ∧
      mayStart s p = true ∧ Canon s,
    Answers (.partJobStart p w) s (fun t => jobState t p = 1 ∧ jobGen t p = gen ∧
      partOf t p = { partOf s p with startAt := some (wrVal w + netNode s * 2654435761 % 2 ^ 32 % 1000 * 1000) } ∧
      (∀ q, q ≠ p.val → partOf t q = partOf s q) ∧ RegsBut s t [rPart p 0x10] ∧ OnlyChanges s t [.parts, .regs])⟩

/-- Any other start is refused (R302, R389). -/
abbrev partJobStartRefused (s : State) (p : Fin 64) (w : Wr) : Clause :=
  ⟨ByOwner s w.path ∧ (jobState s p ≠ 0 ∨ fieldOf s (rPart p 8) 0 32 = 0 ∨
      genNewer (BitVec.ofNat 32 (fieldOf s (rPart p 0x20) 0 32)) (BitVec.ofNat 32 (jobGen s p)) = false ∨ mayStart s p = false) ∧ Canon s,
    Answers (.partJobStart p w) s (Denied s)⟩

/-- JOB_START_FIRE at FT_START, with context 0 the one enabled and every core awake: the job runs, context 0 is reset and comes in (R293, R294,
R302). -/
abbrev jobStartFire (s : State) (p : Fin 64) (at_ : Nat) : Clause :=
  let x := partOf s p
  ⟨jobState s p = 1 ∧ x.startAt = some at_ ∧ at_ ≤ ftNs s ∧ (∀ c, c < 16 → ctxEn s p c = (c == 0)) ∧ (∀ c, c < 16 → 1 ≤ c → ctxState s p c ≠ 1) ∧
      (∀ c ∈ partCores s p, c ∈ s.pw.awake) ∧ x.running = none ∧ x.incoming = none ∧ x.switching = .none ∧ x.td = .none ∧ x.mapNext = none ∧
      x.eptGen = x.eptNext ∧ CtxLoose s p 0 ∧ Canon s,
    Answers (.jobStartFire p) s (fun t => jobState t p = 2 ∧ jobGen t p = jobGen s p ∧ CtxFresh s t p 0 ∧ ctxState t p 0 = 1 ∧
      partOf t p = { x with startAt := none, incoming := some 0, switching := .restoring } ∧ (∀ q, q ≠ p.val → partOf t q = partOf s q) ∧
      RegsBut s t [rPart p 0x10, rCtx p 0 0, 0x040018] ∧ OnlyChanges s t [.threads, .pips, .vbufs, .regs, .parts, .pw, .fab])⟩

end Sys2Proof.Claims

open Sys2Proof.Claims in
/-- Commits of a partition's map, and the switches between its contexts. -/
def Obligations.PartitionsAndContexts : Prop :=
  ∀ (s : State) (p : Fin 64) (w : Wr) (c d k slot : Nat) (x : Fin 16) (th : Thread) (a : AsyncCmd) (m : PartMap) (cur : Cursor),
    (partMapCommit s p w).Holds ∧ (partMapPends s p w).Holds ∧ (partMapFails s p w).Holds ∧ (partMapRefused s p w).Holds ∧
      (ctxSliceEnd s p c).Holds ∧ (ctxSliceGoesOn s p).Holds ∧ (ctxEarlySwitch s p c).Holds ∧ (ctxSwitchSaved s p c d).Holds ∧
      (ctxSwitchSavedLast s p c).Holds ∧ (ctxSwitchWaits s p c).Holds ∧ (ctxSwitchStops s p c k slot th a).Holds ∧
      (ctxSwitchRestored s p c).Holds ∧ (ctxSwitchMap s p c m).Holds ∧ (ctxScratchSaved s p c).Holds ∧ (ctxScratchRestored s p c).Holds ∧
      (ctxRestoredAsks s p c k slot th a).Holds ∧ (ctxRestoredGoesOn s p c k slot th a cur).Holds ∧ (ctxFault s p x k th).Holds ∧
      (ctxResume s p x w).Holds ∧ (ctxResumeComesIn s p x w d).Holds ∧ (ctxResumeFaulted s p x w k th).Holds ∧
      (ctxResumeStopped s p x w k slot th a).Holds ∧ (ctxStop s p x w).Holds ∧ (ctxStopIncoming s p x w).Holds ∧
      (ctxStopRunning s p x w).Holds ∧ (ctxCmdRefused s p x w).Holds ∧ (ctxReset s p x w d).Holds ∧ (ctxResetRunning s p x w d).Holds

open Sys2Proof.Claims in
/-- The start of a job and its teardown. -/
def Obligations.JobsStartAndTeardown : Prop :=
  ∀ (s : State) (p : Fin 64) (w : Wr) (c : Instr) (at_ : Nat),
    (partJobStart s p w).Holds ∧ (partJobStartRefused s p w).Holds ∧ (jobStartFire s p at_).Holds ∧ (partTeardown s p w).Holds ∧
      (teardownDrainEnd s p c).Holds ∧ (teardownWipeDone s p).Holds

/-! ## Descriptor rings, RoCEv2 and PCIe (R314–R334) -/

namespace Sys2Proof.Claims

/-- The table of rings is in its canonical form. -/
abbrev RingsOk (s : State) : Prop := tblWf (fun _ => {}) s.host.rings = true

/-- Only one ring of the host interface has changed. -/
abbrev RingSet (s t : State) (r : Nat) (g : Ring) : Prop :=
  ringOf t r = g ∧ (∀ k, k ≠ r → ringOf t k = ringOf s k) ∧ t.host = { s.host with rings := t.host.rings }

/-- A word of a descriptor as a write by the owner would leave it. -/
abbrev ringNew (s : State) (r word : Nat) (w : Wr) : Nat := plainWrite (rRing r word) (regOf s (rRing r word)).toNat w

/-- RING_DESC_WRITE of EN = 1 that passes the check of R321: the ring is enabled, its four indices at 0 (R319, R321). -/
abbrev ringEnable (s : State) (r : Fin 1024) (w : Wr) : Clause :=
  let v := ringNew s r 2 w
  ⟨ByOwner s w.path ∧ ringEn s r = false ∧ bitsOf v 11 1 = 1 ∧ ringCheck (s.setReg (rRing r 2) v) r = true ∧ Canon s,
    Answers (.ringDescWrite r 2 w) s (fun t => regOf t (rRing r 2) = BitVec.ofNat 64 v ∧ rgSqTail t r = 0 ∧ rgSqHead t r = 0 ∧ rgCqTail t r = 0 ∧
      rgCqHead t r = 0 ∧ fieldOf t (rRing r 3) 0 16 = fieldOf s (rRing r 3) 0 16 ∧ fieldOf t (rRing r 4) 16 48 = fieldOf s (rRing r 4) 16 48 ∧
      RegsBut s t [rRing r 2, rRing r 3, rRing r 4] ∧ OnlyChanges s t [.regs])⟩

/-- One that does not pass leaves EN at 0, sets ERR_EVT and raises HIF_RING_ERR (R321). -/
abbrev ringEnableFails (s : State) (r : Fin 1024) (w : Wr) : Clause :=
  let v := ringNew s r 2 w
  ⟨ByOwner s w.path ∧ ringEn s r = false ∧ bitsOf v 11 1 = 1 ∧ ringCheck (s.setReg (rRing r 2) v) r = false ∧ Canon s,
    Answers (.ringDescWrite r 2 w) s (fun t => regOf t (rRing r 2) = BitVec.ofNat 64 (setBits v 11 1 0) ∧ fieldOf t (rRing r 4) 16 1 = 1 ∧
      fieldOf t (rRing r 4) 0 16 = fieldOf s (rRing r 4) 0 16 ∧ Reported s t 0x1001 0 92 r (some (rgPart r)) 0 0 ∧
      RegsBut s t (rRing r 2 :: rRing r 4 :: errSrc 92) ∧ OnlyChanges s t [.regs, .err])⟩

/-- While EN = 1, EN, PRIO, IRQ_COUNT and IRQ_HOLDOFF_US may change; a write that would change anything else keeps it and counts as denied
(R321). -/
abbrev ringLiveWrite (s : State) (r : Fin 1024) (w : Wr) : Clause :=
  let v := ringNew s r 2 w
  let live := 2 ^ 11 ||| 15 <<< 16 ||| (2 ^ 24 - 1) <<< 32
  let old := (regOf s (rRing r 2)).toNat
  let kept := 2 ^ 64 - 1 - live
  ⟨ByOwner s w.path ∧ ringEn s r = true ∧ bitsOf v 11 1 = 1 ∧ Canon s,
    Answers (.ringDescWrite r 2 w) s (fun t => regOf t (rRing r 2) = BitVec.ofNat 64 ((v &&& live) ||| (old &&& kept)) ∧
      (if v &&& kept = old &&& kept then RegsBut s t [rRing r 2] ∧ t.err = s.err
       else fieldOf t 0x010060 0 32 = min 0xFFFFFFFF (fieldOf s 0x010060 0 32 + 1) ∧ Reported s t 0x0101 0 96 0 none 0 0 ∧
         RegsBut s t (rRing r 2 :: 0x010060 :: errSrc 96)) ∧
      OnlyChanges s t [.regs, .err])⟩

/-- A ring that rings its doorbell over PCIe, by the PF or by the VF of its partition (R315, R322). -/
abbrev ByDoorbell (s : State) (p : Path) (r : Nat) : Prop :=
  pathUp s p = true ∧ (p = .host ∨ ∃ n : Fin 64, p = .vf n ∧ n.val = rgPart r)

/-- SQ_TAIL_DOORBELL within what the queue has free moves SQ_TAIL (R322). -/
abbrev sqTailDoorbell (s : State) (p : Path) (r : Fin 1024) (v : Word) : Clause :=
  ⟨ByDoorbell s p r ∧ bitsOf (rgDbSrc s r) 0 1 = 1 ∧ v.toNat < 2 ^ 16 ∧ ringEn s r = true ∧
      idxSub v.toNat (rgSqTail s r) ≤ 2 ^ rgSqLog s r - idxSub (rgSqTail s r) (rgSqHead s r),
    exec (.sqTailDoorbell p r true v) s = .next (s.setField (rRing r 3) 16 16 v.toNat)⟩

/-- CQ_HEAD_DOORBELL within what has been written moves CQ_HEAD (R322). -/
abbrev cqHeadDoorbell (s : State) (p : Path) (r : Fin 1024) (v : Word) : Clause :=
  ⟨ByDoorbell s p r ∧ bitsOf (rgDbSrc s r) 0 1 = 1 ∧ v.toNat < 2 ^ 16 ∧ ringEn s r = true ∧
      idxSub v.toNat (rgCqHead s r) ≤ idxSub (rgCqTail s r) (rgCqHead s r),
    exec (.cqHeadDoorbell p r true v) s = .next (s.setField (rRing r 4) 0 16 v.toNat)⟩

/-- Any other value, a partial write or a ring that is not enabled counts in BAD, and raises HIF_RING_ERR once (R322). -/
abbrev doorbellBad (s : State) (p : Path) (r : Fin 1024) (full : Bool) (v : Word) : Clause :=
  ⟨ByDoorbell s p r ∧ bitsOf (rgDbSrc s r) 0 1 = 1 ∧ fieldOf s (rRing r 4) 16 1 = 0 ∧ (full = false ∨ 2 ^ 16 ≤ v.toNat ∨ ringEn s r = false ∨
      2 ^ rgSqLog s r - idxSub (rgSqTail s r) (rgSqHead s r) < idxSub v.toNat (rgSqTail s r)) ∧ Canon s,
    Answers (.sqTailDoorbell p r full v) s (fun t => fieldOf t (rHif r 0x10) 0 32 = min 0xFFFFFFFF (fieldOf s (rHif r 0x10) 0 32 + 1) ∧
      fieldOf t (rRing r 4) 16 1 = 1 ∧ Reported s t 0x1001 0 92 r (some (rgPart r)) 0 0 ∧
      RegsBut s t (rHif r 0x10 :: rRing r 4 :: errSrc 92) ∧ OnlyChanges s t [.regs, .err])⟩

/-- A source that DB_SRC does not allow counts in DENIED, and changes nothing else (R322). -/
abbrev doorbellDenied (s : State) (p : Path) (r : Fin 1024) (full : Bool) (v : Word) : Clause :=
  ⟨ByDoorbell s p r ∧ bitsOf (rgDbSrc s r) 0 1 = 0 ∧ Canon s,
    Answers (.cqHeadDoorbell p r full v) s (fun t => fieldOf t (rHif r 0x10) 32 32 = min 0xFFFFFFFF (fieldOf s (rHif r 0x10) 32 32 + 1) ∧
      fieldOf t (rHif r 0x10) 0 32 = fieldOf s (rHif r 0x10) 0 32 ∧ RegsBut s t [rHif r 0x10] ∧ OnlyChanges s t [.regs])⟩

/-- OXT_DOORBELL_RX of one record applies it once, and is acknowledged (R323). -/
abbrev oxtDoorbellRx (s : State) (f : Sys2Proof.Frame) (r v : Nat) : Clause :=
  let p := f.part.val
  ⟨FrameTaken s f 5 (servVc s p) false ∧ f.payload = natBytes 8 (r % 16 ||| v <<< 16) ∧ r / 16 = p ∧ v < 2 ^ 16 ∧
      (f.srcNode.toNat, f.window.toNat, f.psn.toNat) ∉ s.host.dbSeen ∧ bitsOf (rgDbSrc s r) 1 1 = 1 ∧ ringEn s r = true ∧
      idxSub v (rgSqTail s r) ≤ 2 ^ rgSqLog s r - idxSub (rgSqTail s r) (rgSqHead s r),
    Answers (.oxtDoorbellRx f) s (fun t => RxCounted s t f ∧ Queued (heard s f) t f.port (servVc s p) (ackOf s f [f.psn.toNat]) ∧ rgSqTail t r = v ∧
      t.host = { s.host with dbSeen := (f.srcNode.toNat, f.window.toNat, f.psn.toNat) :: s.host.dbSeen } ∧
      RegsBut s t (rRing r 3 :: rxRegs f.port (servVc s p)) ∧ OnlyChanges s t [.regs, .ports, .host])⟩

/-- A frame that comes again is only acknowledged (R323). -/
abbrev oxtDoorbellAgain (s : State) (f : Sys2Proof.Frame) : Clause :=
  let p := f.part.val
  ⟨FrameTaken s f 5 (servVc s p) false ∧ f.payload.length = 8 ∧ (f.srcNode.toNat, f.window.toNat, f.psn.toNat) ∈ s.host.dbSeen,
    Answers (.oxtDoorbellRx f) s (fun t => RxCounted s t f ∧ Queued (heard s f) t f.port (servVc s p) (ackOf s f [f.psn.toNat]) ∧
      RegsBut s t (rxRegs f.port (servVc s p)) ∧ OnlyChanges s t [.regs, .ports])⟩

/-- RING_FETCH of the one new entry: of host memory what it answers, of device memory what stands there (R324). -/
abbrev ringFetch (s : State) (r : Fin 1024) (bytes : List Byte) : Clause :=
  let g := ringOf s r
  let a := rgSqBase s r + 64 * (rgSqHead s r % 2 ^ rgSqLog s r)
  let x : Item := if rgSqHost s r then BitVec.ofNat 512 (leNat (bytes.take 64)) else memItem s a
  ⟨bytes.length = 256 ∧ ringEn s r = true ∧ (rgSqHost s r = true → hostUp s = true) ∧ idxSub (rgSqTail s r) (rgSqHead s r) = 1 ∧
      ringAhead s r = false ∧ g.entries.length < 256 ∧ CleanMem s ∧ RingsOk s ∧ Canon s,
    Answers (.ringFetch r bytes) s (fun t => RingSet s t r { g with entries := g.entries ++ [{ idx := g.seq, bytes := x }], seq := g.seq + 1 } ∧
      rgSqHead t r = (rgSqHead s r + 1) % 2 ^ 16 ∧ regOf t (rHif r 0) = regOf s (rHif r 0) + 1 ∧ RegsBut s t [rRing r 3, rHif r 0] ∧
      OnlyChanges s t [.regs, .host])⟩

/-- Entry `e` of a type is the one that a ring has, it may start, and its job runs (R324, R330). -/
abbrev Next1 (s : State) (r : Nat) (e : RingEntry) (ty : Nat) : Prop :=
  (ringOf s r).entries = [e] ∧ e.started = false ∧ e.bad = false ∧ eType e = ty ∧ (ringOf s r).hold = [] ∧ cqFull s r 0 = false ∧
    jobState s (rgPart r) = 2 ∧ RingsOk s ∧ Canon s

/-- The ring once it is complete: its completion waits to be written, unless NOCQE drops it (R331). -/
def doneRing (s : State) (r : Nat) (e : RingEntry) (status result : Nat) : Ring :=
  { ringOf s r with entries := [], hold := if status = 0 && eNoCqe e then []
                                           else [{ tag := eTag e, src := 0, status, result, result64 := ftNs s }] }

/-- It is complete, and but for the ring only the pieces listed have changed. -/
abbrev EntryDone (s t : State) (r : Nat) (e : RingEntry) (status result : Nat) (may : List Piece) : Prop :=
  RingSet s t r (doneRing s r e status result) ∧ OnlyChanges s t (.host :: may)

/-- The ring while it is under way. -/
def busyRing (s : State) (r : Nat) (e : RingEntry) : Ring := { ringOf s r with entries := [{ e with started := true }] }

/-- ENTRY_NOP completes; an unknown type completes BAD_ENTRY (R325, R331). -/
abbrev entryNop (s : State) (r : Fin 1024) (e : RingEntry) (ty : Nat) : Clause :=
  ⟨Next1 s r e ty ∧ (ty = 0 ∨ 8 < ty),
    Answers (.entryNop r) s (fun t => EntryDone s t r e (if ty = 0 then 0 else 3) 0 [])⟩

/-- A poisoned entry completes POISON, whatever its type (R331, R374). -/
abbrev entryPoisoned (s : State) (r : Fin 1024) (e : RingEntry) (c : Instr) : Clause :=
  ⟨(c = .entryNop r ∨ c = .launch r ∨ c = .pipsig r ∨ c = .qpCtl r ∨ c = .mrCtl r ∨ c = .rdmaWr r ∨ c = .rdmaRecv r) ∧
      (ringOf s r).entries = [e] ∧ e.started = false ∧ e.bad = true ∧ (ringOf s r).hold = [] ∧ cqFull s r 0 = false ∧ RingsOk s ∧ Canon s,
    Answers c s (fun t => EntryDone s t r e 9 0 [])⟩

/-- Without a running job LAUNCH, QPUSH and PIPSIG end ABORTED (R330). -/
abbrev entryNoJob (s : State) (r : Fin 1024) (e : RingEntry) (c : Instr) (ty : Nat) : Clause :=
  ⟨((c = .launch r ∧ ty = 1) ∨ (c = .pipsig r ∧ ty = 4)) ∧ (ringOf s r).entries = [e] ∧ e.started = false ∧ e.bad = false ∧ eType e = ty ∧
      (ringOf s r).hold = [] ∧ cqFull s r 0 = false ∧ (jobState s (rgPart r) = 0 ∨ jobState s (rgPart r) = 3) ∧ RingsOk s ∧ Canon s,
    Answers c s (fun t => EntryDone s t r e 8 0 [])⟩

/-- LAUNCH starts the thread it names, with its entry point, priority and arguments; its completion waits for HALT (R326). -/
abbrev launch (s : State) (r : Fin 1024) (e : RingEntry) : Clause :=
  let p := rgPart r
  let core := eb e 8 0 11
  let k := thrKey p (eb e 10 4 4) core (eb e 10 0 4)
  let cp := eb e 12 0 52
  ⟨Next1 s r e 1 ∧ ctxEn s p (eb e 10 4 4) = true ∧ coreOfPart s p core = true ∧ belongs s p cp 32 = true ∧ (threadOf s k).st = .free,
    Answers (.launch r) s (fun t => RingSet s t r (busyRing s r e) ∧ (threadOf t k).st = .ready ∧ (threadOf t k).cp = BitVec.ofNat 52 cp ∧
      (threadOf t k).prio = BitVec.ofNat 4 (eb e 11 0 4) ∧ (∀ n, n < 4 → gOf (threadOf t k) n = BitVec.ofNat 64 (eb e (24 + 8 * n) 0 64)) ∧
      (threadOf t k).ref = some { ring := r, idx := e.idx, tag := eTag e, noCqe := eNoCqe e, src := 0 } ∧
      (∀ j, j ≠ k → threadOf t j = threadOf s j) ∧ OnlyChanges s t [.host, .threads])⟩

/-- One that names a busy thread, a core or an entry point outside the partition, or a disabled context completes with that status (R326, R331). -/
abbrev launchBad (s : State) (r : Fin 1024) (e : RingEntry) : Clause :=
  let p := rgPart r
  let core := eb e 8 0 11
  let outside : Bool := !coreOfPart s p core || !belongs s p (eb e 12 0 52) 32
  let busy : Bool := (threadOf s (thrKey p (eb e 10 4 4) core (eb e 10 0 4))).st != .free
  ⟨Next1 s r e 1 ∧ (ctxEn s p (eb e 10 4 4) = false ∨ outside = true ∨ busy = true),
    Answers (.launch r) s (fun t => EntryDone s t r e (if ctxEn s p (eb e 10 4 4) = false then 3 else if outside then 4 else 2) 0 [])⟩

/-- COPY within device memory, of up to one chunk (R327). -/
abbrev copyDevice (s : State) (r : Fin 1024) (e : RingEntry) : Clause :=
  let n := cpLen e
  let src := cpAddr e 8 false
  let dst := cpAddr e 16 false
  ⟨Next1 s r e 2 ∧ cpSrcHost e = false ∧ cpDstHost e = false ∧ cpFill e = false ∧ 1 ≤ n ∧ n ≤ 64 ∧ belongs s (rgPart r) src n = true ∧
      belongs s (rgPart r) dst n = true ∧ t3Busy s src = false ∧ t3Busy s (src + n - 1) = false ∧ t3Busy s dst = false ∧
      t3Busy s (dst + n - 1) = false ∧ (∀ y ∈ stagedHeld s, y.1 + y.2 ≤ dst ∨ dst + n ≤ y.1) ∧ s.fab.dir = [] ∧ CleanMem s,
    Answers (.copy r none) s (fun t => EntryDone s t r e 0 n [.mem] ∧ memBytes t dst n = memBytes s src n ∧ MemBut s t dst n)⟩

/-- A fill repeats its eight bytes (R327). -/
abbrev copyFill (s : State) (r : Fin 1024) (e : RingEntry) : Clause :=
  let n := cpLen e
  let dst := cpAddr e 16 false
  ⟨Next1 s r e 2 ∧ cpSrcHost e = false ∧ cpDstHost e = false ∧ cpFill e = true ∧ 1 ≤ n ∧ n ≤ 64 ∧ belongs s (rgPart r) dst n = true ∧
      t3Busy s dst = false ∧ t3Busy s (dst + n - 1) = false ∧
      (∀ y ∈ stagedHeld s, y.1 + y.2 ≤ dst ∨ dst + n ≤ y.1) ∧ s.fab.dir = [] ∧ CleanMem s,
    Answers (.copy r none) s (fun t => EntryDone s t r e 0 n [.mem] ∧
      (∀ j, j < n → memAt t (dst + j) = BitVec.ofNat 8 (eb e (8 + j % 8) 0 8)) ∧ MemBut s t dst n)⟩

/-- What a COPY would write over the staged copy of a commit that is PENDING is discarded, and counts in OWN_DENIED (R26, and log entry 64). -/
abbrev copyHeld (s : State) (r : Fin 1024) (e : RingEntry) (y : Nat × Nat) : Clause :=
  let n := cpLen e
  let dst := cpAddr e 16 false
  ⟨Next1 s r e 2 ∧ cpSrcHost e = false ∧ cpDstHost e = false ∧ cpFill e = true ∧ 1 ≤ n ∧ n ≤ 64 ∧ belongs s (rgPart r) dst n = true ∧
      t3Busy s dst = false ∧ t3Busy s (dst + n - 1) = false ∧ y ∈ stagedHeld s ∧ y.1 ≤ dst ∧ dst + n ≤ y.1 + y.2 ∧ CleanMem s,
    Answers (.copy r none) s (fun t => EntryDone s t r e 0 n [.regs, .err] ∧ fieldOf t 0x010060 0 32 = min 0xFFFFFFFF (fieldOf s 0x010060 0 32 + 1) ∧
      Reported s t 0x0101 0 96 0 none 0 0 ∧ RegsBut s t (0x010060 :: errSrc 96))⟩

/-- To host memory its bytes go over PCIe (R327). -/
abbrev copyToHost (s : State) (r : Fin 1024) (e : RingEntry) : Clause :=
  let n := cpLen e
  let src := cpAddr e 8 false
  ⟨Next1 s r e 2 ∧ cpSrcHost e = false ∧ cpDstHost e = true ∧ cpFill e = false ∧ 1 ≤ n ∧ n ≤ 64 ∧ hostUp s = true ∧
      belongs s (rgPart r) src n = true ∧ t3Busy s src = false ∧ t3Busy s (src + n - 1) = false ∧ CleanMem s,
    Answers (.copy r none) s (fun t => EntryDone s t r e 0 n [.out] ∧
      t.out = s.out ++ [.hostWrite (eb e 16 0 64) (memBytes s src n)])⟩

/-- A side outside the partition ends it ADDR, a length of 0 BAD_ENTRY, with nothing moved (R327, R331). -/
abbrev copyBad (s : State) (r : Fin 1024) (e : RingEntry) : Clause :=
  let n := cpLen e
  ⟨Next1 s r e 2 ∧ cpSrcHost e = false ∧ cpDstHost e = false ∧ (n = 0 ∨ belongs s (rgPart r) (cpAddr e 16 false) n = false),
    Answers (.copy r none) s (fun t => EntryDone s t r e (if n = 0 then 3 else 4) 0 [])⟩

/-- QPUSH of an item in device memory (R179, R328). -/
abbrev qpush (s : State) (r : Fin 1024) (e : RingEntry) : Clause :=
  let p := rgPart r
  let q := eb e 8 0 12
  let a := eb e 16 0 52
  let d := queueOf s q
  ⟨Next1 s r e 3 ∧ mayPush s p q = true ∧ eb e 10 2 1 = 0 ∧ eb e 10 1 1 = 0 ∧ belongs s p a 64 = true ∧ t3Busy s a = false ∧ d.dropping = false ∧
      1 ≤ qFree s q ∧ qArrEn s q = false ∧ s.fab.dir = [] ∧ CleanMem s,
    Answers (.qpush r []) s (fun t => EntryDone s t r e 0 0 [.queues, .mem, .regs] ∧
      (queueOf t q).items = d.items ++ [{ data := memItem s a ||| ((1 : Item) <<< 511), last := eb e 10 0 1 == 1, gap := false, at_ := s.time.now }] ∧
      regOf t (rQcnt q 0) = regOf s (rQcnt q 0) + 1 ∧ RegsBut s t [rQcnt q 0, 0x2A0000 + q * 0x10])⟩

/-- One to a queue that the partition may not push to ends BAD_ENTRY (R187, R328, R331). -/
abbrev qpushBad (s : State) (r : Fin 1024) (e : RingEntry) : Clause :=
  let q := eb e 8 0 12
  ⟨Next1 s r e 3 ∧ mayPush s (rgPart r) q = false,
    Answers (.qpush r []) s (fun t => EntryDone s t r e 3 0 [])⟩

/-- PIPSIG adds its count, 0 acting as 1, to a pip of a core of the partition (R328). -/
abbrev pipsig (s : State) (r : Fin 1024) (e : RingEntry) : Clause :=
  let p := rgPart r
  let core := eb e 8 0 16
  let n := max 1 (eb e 12 0 16)
  let k := pipKey p (eb e 11 0 4) core (eb e 10 0 6)
  ⟨Next1 s r e 4 ∧ coreOfPart s p core = true ∧ (pipOf s k).toNat + n ≤ 0xFFFF ∧ pipWaiters s p (eb e 11 0 4) core (eb e 10 0 6) = [],
    Answers (.pipsig r) s (fun t => EntryDone s t r e 0 0 [.pips] ∧ pipOf t k = pipOf s k + BitVec.ofNat 16 n ∧
      (∀ j, j ≠ k → pipOf t j = pipOf s j))⟩

/-- A core outside the partition ends it ADDR (R328, R331). -/
abbrev pipsigBad (s : State) (r : Fin 1024) (e : RingEntry) : Clause :=
  ⟨Next1 s r e 4 ∧ coreOfPart s (rgPart r) (eb e 8 0 16) = false, Answers (.pipsig r) s (fun t => EntryDone s t r e 4 0 [])⟩

/-- The host interface besides its rings. -/
abbrev HostBut (s t : State) (qps : Tbl Qp) (mrs : Tbl Mr) : Prop := t.host = { s.host with rings := t.host.rings, qps, mrs }

/-- QP_CTL creates a queue pair (R329). -/
abbrev qpCreate (s : State) (r : Fin 1024) (e : RingEntry) : Clause :=
  let n := eb e 10 0 10
  let q : Qp := { part := rgPart r, ring := r, remoteQpn := eb e 12 0 24, vc := eb e 15 0 2, retry := eb e 15 2 3, pmtu := eb e 15 5 2,
                  remoteIp := beNat (natBytes 16 (eb e 16 0 128)), psn := eb e 32 0 24, ePsn := eb e 32 0 24, portMask := eb e 40 0 64 }
  ⟨Next1 s r e 5 ∧ eb e 8 0 1 = 0 ∧ s.host.qps = [] ∧ eb e 15 5 2 ≠ 3 ∧ eb e 15 2 3 ≠ 0,
    Answers (.qpCtl r) s (fun t => ringOf t r = doneRing s r e 0 n ∧ HostBut s t [(n, q)] s.host.mrs ∧ OnlyChanges s t [.host])⟩

/-- QP_CTL destroys the partition's queue pair, its work ABORTED; here none is posted (R329). -/
abbrev qpDestroy (s : State) (r : Fin 1024) (e : RingEntry) (q : Qp) : Clause :=
  let n := eb e 10 0 10
  ⟨Next1 s r e 5 ∧ eb e 8 0 1 = 1 ∧ s.host.qps = [(n, q)] ∧ q.part = rgPart r ∧ q.sends = [] ∧ q.recvs = [],
    Answers (.qpCtl r) s (fun t => ringOf t r = doneRing s r e 0 n ∧ HostBut s t [] s.host.mrs ∧ OnlyChanges s t [.host])⟩

/-- MR_CTL registers a region within the partition, or removes it (R329). -/
abbrev mrCtl (s : State) (r : Fin 1024) (e : RingEntry) : Clause :=
  let p := rgPart r
  let n := eb e 10 0 12
  let m : Mr := { part := p, rd := eb e 8 1 1 == 1, wr := eb e 8 2 1 == 1, keyTag := eb e 12 0 20, base := eb e 16 0 64, len := eb e 24 0 64 }
  ⟨Next1 s r e 6 ∧ (∀ x ∈ s.host.mrs, x.1 = n ∧ x.2.part = p) ∧ (eb e 8 0 1 = 0 → belongs s p (eb e 16 0 64) (eb e 24 0 64) = true),
    Answers (.mrCtl r) s (fun t => ringOf t r = doneRing s r e 0 0 ∧ HostBut s t s.host.qps (if eb e 8 0 1 = 1 then [] else [(n, m)]) ∧
      OnlyChanges s t [.host])⟩

/-- A region outside the partition ends it ADDR (R329, R331). -/
abbrev mrBad (s : State) (r : Fin 1024) (e : RingEntry) : Clause :=
  ⟨Next1 s r e 6 ∧ eb e 8 0 1 = 0 ∧ s.host.mrs = [] ∧ eb e 24 0 64 ≠ 0 ∧ belongs s (rgPart r) (eb e 16 0 64) (eb e 24 0 64) = false,
    Answers (.mrCtl r) s (fun t => EntryDone s t r e 4 0 [])⟩

/-- A RoCEv2 packet has joined the queue of port `n`, the one of its PORT_MASK that is UP; which port it takes is free among these (R141, and log entry
28). -/
abbrev RoceOut (s t : State) (q : Qp) (n kind ends psn : Nat) (payload : List Byte) : Prop :=
  (portOf t n).txq = (portOf s n).txq ++ [{ vc := q.vc, len := 118 + payload.length, msg := .roce q.remoteIp q.remoteQpn kind ends psn payload }] ∧
    (∀ k, k ≠ n → portOf t k = portOf s k) ∧ t.freeIdx = s.freeIdx + 1

/-- The ports of a queue pair that are UP. -/
abbrev rocePorts (s : State) (q : Qp) : List Nat := (List.range 64).filter (fun n => linkUp s n && bitsOf q.portMask n 1 == 1)

/-- RDMA_WR of a SEND of one packet: it leaves with the next PSN, and its completion waits for the acknowledgement (R141, R329). -/
abbrev rdmaWr (s : State) (r : Fin 1024) (e : RingEntry) (q : Qp) (n : Nat) : Clause :=
  let qn := eb e 10 0 10
  let loc := eb e 16 0 52
  let len := eb e 24 0 32
  let x : QpWork := { ring := r, idx := e.idx, tag := eTag e, op := 0, imm := eb e 12 0 32, loc, len, remote := eb e 32 0 64, rkey := eb e 40 0 32,
                      noCqe := eNoCqe e, psn := q.psn, pkts := 1 }
  ⟨Next1 s r e 7 ∧ eb e 8 0 3 = 0 ∧ 1 ≤ len ∧ len ≤ mtuBytes q ∧ len ≤ 4096 ∧ s.host.qps = [(qn, q)] ∧ q.part = rgPart r ∧ q.psn < 2 ^ 24 ∧
      belongs s (rgPart r) loc len = true ∧ rocePorts s q = [n] ∧ CleanMem s,
    Answers (.rdmaWr r) s (fun t => ringOf t r = busyRing s r e ∧ RoceOut s t q n 0 3 q.psn (memBytes s loc len) ∧
      HostBut s t [(qn, { q with psn := (q.psn + 1) % 2 ^ 24, sends := q.sends ++ [x] })] s.host.mrs ∧
      OnlyChanges s t [.host, .ports, .freeIdx])⟩

/-- RDMA_RECV posts a buffer (R329). -/
abbrev rdmaRecv (s : State) (r : Fin 1024) (e : RingEntry) (q : Qp) : Clause :=
  let qn := eb e 10 0 10
  let loc := eb e 16 0 52
  let len := eb e 24 0 32
  let x : QpWork := { ring := r, idx := e.idx, tag := eTag e, op := 8, imm := 0, loc, len, remote := 0, rkey := 0, noCqe := eNoCqe e }
  ⟨Next1 s r e 8 ∧ s.host.qps = [(qn, q)] ∧ q.part = rgPart r ∧ (len = 0 ∨ belongs s (rgPart r) loc len = true),
    Answers (.rdmaRecv r) s (fun t => ringOf t r = busyRing s r e ∧ HostBut s t [(qn, { q with recvs := q.recvs ++ [x] })] s.host.mrs ∧
      OnlyChanges s t [.host])⟩

/-- A RoCEv2 packet has come to a port, unmarked or with an ECN mark: it meets the checks of R128 and finds room (R126). -/
abbrev RoceCame (s : State) (n : Nat) (w : Wire) (pkt : RocePkt) (qn : Nat) (q : Qp) : Prop :=
  Passes s n (roceLen pkt) w true false ∧ udpKnown s w 4791 [0, 1, 2, 3] = true ∧ roomFor s n w.pcp (roceLen pkt) w = true ∧
    s.host.qps = [(qn, q)] ∧ (ringOf s q.ring).hold = [] ∧ cqFull s q.ring 0 = false ∧ RingsOk s ∧ Canon s

/-- The state once its port has it, but for the counters. -/
abbrev roceTook (s : State) (n : Nat) (w : Wire) (pkt : RocePkt) : State := tookFrame s n w.pcp (roceLen pkt) w

/-- ROCE_RX of an acknowledgement of the one posted request completes it (R329, R331). -/
abbrev roceAck (s : State) (n : Fin 64) (w : Wire) (qn : Fin 1024) (psn : BitVec 24) (q : Qp) (x : QpWork) : Clause :=
  ⟨RoceCame s n w (.ack psn) qn q ∧ w.ecn = false ∧ q.sends = [x] ∧ x.op ≠ 4 ∧ x.pkts = 1 ∧ x.psn = psn.toNat ∧ x.noCqe = false ∧ x.ring = q.ring,
    Answers (.roceRx n w qn true (.ack psn)) s (fun t => PortRx s t n 118 w ∧ t.ports = (roceTook s n w (.ack psn)).ports ∧
      HostBut s t [(qn.val, { q with sends := [] })] s.host.mrs ∧
      ringOf t q.ring = { ringOf s q.ring with
        entries := (ringOf s q.ring).entries.filter (fun e => e.idx != x.idx),
        hold := [{ tag := x.tag, src := 0, status := 0, result := x.len, result64 := ftNs s }] } ∧
      RegsBut s t (rxRegs n w.pcp) ∧ OnlyChanges s t [.host, .regs, .ports])⟩

/-- ROCE_RX of a SEND of one packet with the expected PSN: its bytes go to the oldest RECV, which completes, and it is acknowledged (R329, R331). -/
abbrev roceSend (s : State) (n : Fin 64) (w : Wire) (qn : Fin 1024) (psn : BitVec 24) (data : List Byte) (q : Qp) (x : QpWork) (port : Nat) : Clause :=
  let pkt := RocePkt.send psn true true none data
  ⟨RoceCame s n w pkt qn q ∧ w.ecn = false ∧ q.ePsn = psn.toNat ∧ q.recvs = [x] ∧ data.length ≤ x.len ∧ data.length ≤ mtuBytes q ∧
      data.length ≤ 4096 ∧ x.noCqe = false ∧ x.ring = q.ring ∧ rocePorts s q = [port] ∧ s.fab.dir = [] ∧ CleanMem s,
    Answers (.roceRx n w qn true pkt) s (fun t => PortRx s t n (118 + data.length) w ∧
      memBytes t x.loc data.length = data ∧ MemBut s t x.loc data.length ∧ RoceOut (roceTook s n w pkt) t q port 5 3 psn.toNat [0] ∧
      HostBut s t [(qn.val, { q with rxLen := data.length, ePsn := (psn.toNat + 1) % 2 ^ 24, recvs := [] })] s.host.mrs ∧
      (ringOf t q.ring).hold = [{ tag := x.tag, src := 2, status := 0, result := data.length }] ∧
      RegsBut s t (rxRegs n w.pcp) ∧ OnlyChanges s t [.host, .regs, .mem, .ports, .freeIdx])⟩

/-- One that is marked is delivered just so, and draws a CNP ahead of its acknowledgement, at most one in 50 µs (R141). -/
abbrev roceMarked (s : State) (n : Fin 64) (w : Wire) (qn : Fin 1024) (psn : BitVec 24) (data : List Byte) (q : Qp) (x : QpWork) (port : Nat) : Clause :=
  let pkt := RocePkt.send psn true true none data
  let tx := fun (kind psn : Nat) (b : List Byte) =>
    ({ vc := q.vc, len := 118 + b.length, msg := .roce q.remoteIp q.remoteQpn kind 3 psn b } : TxFrame)
  ⟨RoceCame s n w pkt qn q ∧ w.ecn = true ∧ (∀ a ∈ q.lastCnp, a + 50000 ≤ s.time.now) ∧ q.ePsn = psn.toNat ∧ q.recvs = [x] ∧
      data.length ≤ x.len ∧ data.length ≤ mtuBytes q ∧ data.length ≤ 4096 ∧ x.noCqe = false ∧ x.ring = q.ring ∧ rocePorts s q = [port] ∧
      s.fab.dir = [] ∧ CleanMem s,
    Answers (.roceRx n w qn true pkt) s (fun t => memBytes t x.loc data.length = data ∧ MemBut s t x.loc data.length ∧
      (portOf t port).txq = (portOf s port).txq ++ [tx 8 0 [], tx 5 psn.toNat [0]] ∧
      (∀ k, k ≠ port → portOf t k = portOf (roceTook s n w pkt) k) ∧ t.freeIdx = s.freeIdx + 2 ∧
      HostBut s t [(qn.val, { q with lastCnp := some s.time.now, rxLen := data.length, ePsn := (psn.toNat + 1) % 2 ^ 24, recvs := [] })] s.host.mrs ∧
      RegsBut s t (rxRegs n w.pcp) ∧ OnlyChanges s t [.host, .regs, .mem, .ports, .freeIdx])⟩

/-- A CNP lowers the rate of its queue pair, to a free value below the present one (R141, and log entry 34). -/
abbrev roceSlows (s : State) (n : Fin 64) (w : Wire) (qn : Fin 1024) (q : Qp) : Clause :=
  ⟨RoceCame s n w .cnp qn q ∧ w.ecn = false ∧ 2 ≤ q.rate,
    Answers (.roceRx n w qn true .cnp) s (fun t => (∃ v, v < q.rate ∧ 1 ≤ v ∧ HostBut s t [(qn.val, { q with rate := v })] s.host.mrs) ∧
      t.freeIdx = s.freeIdx + 1 ∧ t.ports = (roceTook s n w .cnp).ports ∧ RegsBut s t (rxRegs n w.pcp) ∧
      OnlyChanges s t [.host, .regs, .ports, .freeIdx])⟩

/-- A packet whose ICRC is wrong does nothing at its queue pair (R141). -/
abbrev roceIcrcBad (s : State) (n : Fin 64) (w : Wire) (qn : Fin 1024) (pkt : RocePkt) : Clause :=
  ⟨roceOk pkt = true ∧ Passes s n (roceLen pkt) w true false ∧ udpKnown s w 4791 [0, 1, 2, 3] = true ∧ roomFor s n w.pcp (roceLen pkt) w = true ∧ Canon s,
    Answers (.roceRx n w qn false pkt) s (fun t => PortRx s t n (roceLen pkt) w ∧ t.ports = (roceTook s n w pkt).ports ∧
      RegsBut s t (rxRegs n w.pcp) ∧ OnlyChanges s t [.regs, .ports])⟩

/-- A WRITE outside its key's region is refused with a remote access NAK, and counted (R329). -/
abbrev roceKeyBad (s : State) (n : Fin 64) (w : Wire) (qn : Fin 1024) (psn : BitVec 24) (key : BitVec 32) (addr len : Nat) (data : List Byte) (q : Qp)
    (port : Nat) : Clause :=
  let pkt := RocePkt.write psn (some (key, addr, len)) true none data
  ⟨RoceCame s n w pkt qn q ∧ w.ecn = false ∧ q.ePsn = psn.toNat ∧ keyOk s q.part key.toNat addr len true = false ∧ data.length ≤ 4096 ∧
      rocePorts s q = [port],
    Answers (.roceRx n w qn true pkt) s (fun t =>
      RoceOut (roceTook s n w pkt) t q port 6 3 psn.toNat [0x62] ∧ fieldOf t 0x148008 32 32 = min 0xFFFFFFFF (fieldOf s 0x148008 32 32 + 1) ∧
      RegsBut s t (0x148008 :: rxRegs n w.pcp) ∧ OnlyChanges s t [.regs, .ports, .freeIdx])⟩

/-- ROCE_RETRY_TIMEOUT of a request whose retries are used ends it RDMA_ERR (R141, R331). -/
abbrev roceGivesUp (s : State) (qn : Fin 1024) (q : Qp) (x : QpWork) : Clause :=
  ⟨s.host.qps = [(qn.val, q)] ∧ q.sends = [x] ∧ q.retry ≤ x.tries ∧ x.ring = q.ring ∧ (ringOf s q.ring).hold = [] ∧ cqFull s q.ring 0 = false ∧
      RingsOk s ∧ Canon s,
    Answers (.roceRetryTimeout qn) s (fun t => HostBut s t [(qn.val, { q with sends := [] })] s.host.mrs ∧
      (ringOf t q.ring).hold = [{ tag := x.tag, src := 0, status := 7, result64 := ftNs s }] ∧ OnlyChanges s t [.host])⟩

/-- One with a retry left goes again (R141). -/
abbrev roceRetryTimeout (s : State) (qn : Fin 1024) (q : Qp) (x : QpWork) (port : Nat) : Clause :=
  ⟨s.host.qps = [(qn.val, q)] ∧ q.sends = [x] ∧ x.tries < q.retry ∧ x.op = 0 ∧ x.pkts = 1 ∧ x.len ≤ mtuBytes q ∧ x.psn < 2 ^ 24 ∧
      rocePorts s q = [port] ∧ Canon s,
    Answers (.roceRetryTimeout qn) s (fun t => RoceOut s t q port 0 3 x.psn (memBytes s x.loc x.len) ∧
      t.host = { s.host with qps := [(qn.val, { q with sends := [{ x with tries := x.tries + 1 }] })] } ∧ OnlyChanges s t [.host, .ports, .freeIdx])⟩

/-- CQE_WRITE writes the oldest completion that waits, in the layout of R331, to a ring in device memory (R331, R332). -/
abbrev cqeWrite (s : State) (r : Fin 1024) (c : Cqe) (rest : List Cqe) : Clause :=
  let a := rgCqBase s r + 32 * (rgCqTail s r % 2 ^ rgCqLog s r)
  ⟨(ringOf s r).hold = c :: rest ∧ rgCqHost s r = false ∧ cqFull s r 0 = false ∧ rgNotify s r = 0 ∧ c.tag < 2 ^ 32 ∧ c.src < 4 ∧ c.status < 256 ∧
      c.detail < 256 ∧ c.result < 2 ^ 32 ∧ c.result64 < 2 ^ 64 ∧ (∀ e ∈ s.threads, ∀ st, e.2.wait ≠ .cqRoom st) ∧ s.fab.dir = [] ∧ CleanMem s ∧
      RingsOk s ∧ Canon s,
    Answers (.cqeWrite r) s (fun t => RingSet s t r { ringOf s r with hold := rest } ∧ memNat t a 4 = c.tag ∧ memNat t (a + 4) 2 = rgSqHead s r ∧
      memNat t (a + 6) 1 = r % 16 ∧ memNat t (a + 7) 1 = rgPart r + 64 * c.src ∧ memNat t (a + 8) 1 = c.status ∧ memNat t (a + 9) 1 = c.detail ∧
      memNat t (a + 10) 2 = 0 ∧ memNat t (a + 12) 4 = c.result ∧ memNat t (a + 16) 8 = c.result64 ∧
      memNat t (a + 24) 8 = (1 - rgCqTail s r / 2 ^ rgCqLog s r % 2) * 2 ^ 63 ∧ MemBut s t a 32 ∧
      rgCqTail t r = (rgCqTail s r + 1) % 2 ^ 16 ∧ regOf t (rHif r 8) = regOf s (rHif r 8) + 1 ∧ RegsBut s t [rRing r 3, rHif r 8] ∧
      OnlyChanges s t [.host, .mem, .regs])⟩

/-- RING_IRQ_HOLDOFF sends the ring's vector (R333). -/
abbrev ringIrqHoldoff (s : State) (r : Fin 1024) (since : Nat) : Clause :=
  let pf := !rgFunc s r
  let fn := if rgFunc s r then rgPart r else 0
  ⟨(ringOf s r).firstAt = some since ∧ rgHoldNs s r ≠ 0 ∧ since + rgHoldNs s r ≤ s.time.now ∧ rgNotify s r = 1 ∧
      (pf, fn, rgVec s r) ∉ s.host.masked ∧ hostUp s = true ∧ RingsOk s ∧ Canon s,
    Answers (.ringIrqHoldoff r) s (fun t => RingSet s t r { ringOf s r with unnotified := 0, firstAt := none } ∧
      t.out = s.out ++ [.msix pf fn (rgVec s r)] ∧ OnlyChanges s t [.host, .out])⟩

/-- VF_FLR disables every ring of the VF's function, and no other (R318). -/
abbrev vfFlr (s : State) (n : Fin 64) : Clause :=
  ⟨s.host.qps = [] ∧ Canon s,
    Answers (.vfFlr n) s (fun t => (∀ r, r < 1024 → ringEn t r = (ringEn s r && !(rgPart r == n && rgFunc s r))) ∧
      (∀ off, (∀ r, r < 1024 → off ≠ rRing r 2 ∧ off ≠ rHif r 0x18) → regOf t off = regOf s off) ∧ OnlyChanges s t [.regs])⟩

/-- VF_ENABLE_CLEAR is an FLR of every VF (R318). -/
abbrev vfEnableClear (s : State) : Clause :=
  ⟨s.host.qps = [] ∧ Canon s,
    Answers .vfEnableClear s (fun t => (∀ r, r < 1024 → ringEn t r = (ringEn s r && !rgFunc s r)) ∧ t.host = { s.host with numVfs := 0 } ∧
      (∀ off, (∀ r, r < 1024 → off ≠ rRing r 2 ∧ off ≠ rHif r 0x18) → regOf t off = regOf s off) ∧ OnlyChanges s t [.regs, .host])⟩

/-- PCIE_LINK_DOWN: the status shows no link, its event is set, LINK_DOWN is raised, and rings with a host side are disabled (R318, R414). -/
abbrev pcieLinkDown (s : State) : Clause :=
  ⟨hostUp s = true ∧ Canon s,
    Answers .pcieLinkDown s (fun t => fieldOf t 0x110000 0 9 = 0 ∧ fieldOf t 0x110000 32 1 = 1 ∧ Reported s t 0x4001 0 92 0 none 0 0 ∧
      (∀ r, r < 1024 → ringEn t r = (ringEn s r && !(rgSqHost s r || rgCqHost s r))) ∧
      (∀ off, off ≠ 0x110000 → off ∉ errSrc 92 → (∀ r, r < 1024 → off ≠ rRing r 2 ∧ off ≠ rHif r 0x18) → regOf t off = regOf s off) ∧
      OnlyChanges s t [.regs, .err])⟩

/-- PCIE_LINK_UP shows the rate and width of the link (R314); that the host then enables its VFs is the model's choice (log entry 33). -/
abbrev pcieLinkUp (s : State) (rate : BitVec 3) (width : BitVec 5) : Clause :=
  ⟨s.mod.phase = .ready ∧ 1 ≤ rate.toNat ∧ rate.toNat ≤ 6 ∧ width.toNat ∈ [1, 2, 4, 8, 16] ∧ Canon s,
    Answers (.pcieLinkUp rate width) s (fun t => hostUp t = true ∧ fieldOf t 0x110000 1 3 = rate.toNat ∧ fieldOf t 0x110000 4 5 = width.toNat ∧
      fieldOf t 0x110000 9 55 = fieldOf s 0x110000 9 55 ∧ t.host = { s.host with numVfs := 64 } ∧ RegsBut s t [0x110000] ∧
      OnlyChanges s t [.regs, .host])⟩

/-- MSIX_VECTOR_UNMASK sends a message that was held (R333). -/
abbrev msixVectorUnmask (s : State) (pf : Bool) (fn : Fin 64) (vec : BitVec 10) : Clause :=
  let k := (pf, fn.val, vec.toNat)
  ⟨hostUp s = true,
    Answers (.msixVectorUnmask pf fn vec) s (fun t =>
      t.host = { s.host with masked := s.host.masked.filter (· != k), msixPending := s.host.msixPending.filter (· != k) } ∧
      t.out = s.out ++ (if k ∈ s.host.msixPending then [.msix pf fn vec.toNat] else []) ∧ OnlyChanges s t [.host, .out])⟩

end Sys2Proof.Claims

open Sys2Proof.Claims in
/-- Ring descriptors, doorbells, fetching, completions and notifications. -/
def Obligations.RingsAndCompletions : Prop :=
  ∀ (s : State) (r : Fin 1024) (w : Wr) (p : Path) (full : Bool) (v : Word) (f : Sys2Proof.Frame) (k n : Nat) (bytes : List Byte) (c : Cqe)
    (rest : List Cqe),
    (ringEnable s r w).Holds ∧ (ringEnableFails s r w).Holds ∧ (ringLiveWrite s r w).Holds ∧ (sqTailDoorbell s p r v).Holds ∧
      (cqHeadDoorbell s p r v).Holds ∧ (doorbellBad s p r full v).Holds ∧ (doorbellDenied s p r full v).Holds ∧
      (oxtDoorbellRx s f k n).Holds ∧ (oxtDoorbellAgain s f).Holds ∧ (ringFetch s r bytes).Holds ∧ (cqeWrite s r c rest).Holds ∧
      (ringIrqHoldoff s r n).Holds

open Sys2Proof.Claims in
/-- The entries NOP, LAUNCH, COPY, QPUSH and PIPSIG. -/
def Obligations.RingEntries : Prop :=
  ∀ (s : State) (r : Fin 1024) (e : RingEntry) (c : Instr) (ty : Nat) (y : Nat × Nat),
    (entryNop s r e ty).Holds ∧ (entryPoisoned s r e c).Holds ∧ (entryNoJob s r e c ty).Holds ∧ (launch s r e).Holds ∧ (launchBad s r e).Holds ∧
      (copyDevice s r e).Holds ∧ (copyFill s r e).Holds ∧ (copyHeld s r e y).Holds ∧ (copyToHost s r e).Holds ∧ (copyBad s r e).Holds ∧ (qpush s r e).Holds ∧
      (qpushBad s r e).Holds ∧ (pipsig s r e).Holds ∧ (pipsigBad s r e).Holds

open Sys2Proof.Claims in
/-- Queue pairs, memory regions and RoCEv2 packets. -/
def Obligations.RdmaQueuePairs : Prop :=
  ∀ (s : State) (r : Fin 1024) (e : RingEntry) (q : Qp) (x : QpWork) (n : Fin 64) (w : Wire) (qn : Fin 1024) (psn : BitVec 24)
    (key : BitVec 32) (addr len port : Nat) (data : List Byte) (pkt : RocePkt),
    (qpCreate s r e).Holds ∧ (qpDestroy s r e q).Holds ∧ (mrCtl s r e).Holds ∧ (mrBad s r e).Holds ∧ (rdmaWr s r e q port).Holds ∧
      (rdmaRecv s r e q).Holds ∧ (roceAck s n w qn psn q x).Holds ∧ (roceSend s n w qn psn data q x port).Holds ∧
      (roceMarked s n w qn psn data q x port).Holds ∧ (roceSlows s n w qn q).Holds ∧ (roceIcrcBad s n w qn pkt).Holds ∧
      (roceKeyBad s n w qn psn key addr len data q port).Holds ∧ (roceGivesUp s qn q x).Holds ∧ (roceRetryTimeout s qn q x port).Holds

open Sys2Proof.Claims in
/-- PCIe: resets of virtual functions, the link, and a vector that is unmasked. -/
def Obligations.PcieEvents : Prop :=
  ∀ (s : State) (n : Fin 64) (rate : BitVec 3) (width : BitVec 5) (pf : Bool) (vec : BitVec 10),
    (vfFlr s n).Holds ∧ (vfEnableClear s).Holds ∧ (pcieLinkDown s).Holds ∧ (pcieLinkUp s rate width).Holds ∧
      (msixVectorUnmask s pf n vec).Holds

/-! ## Ownership, the sideband and register accesses (R317, R335–R342, R396–R402) -/

namespace Sys2Proof.Claims

/-- OWN_CAND of a candidate with a claim of PRIO `prio` written now (R340). -/
def candWord (prio : Nat) : Word := BitVec.ofNat 64 (prio % 16 ||| 16)

/-- OWN_CLAIM on a device without an owner and without any claim: the claim stands, and the election will settle 1 ms later (R335, R336). -/
abbrev ownClaim (s : State) (w : Wr) : Clause :=
  let c := wrBits w 0 2
  ⟨pathUp s w.path = true ∧ pathCode w.path = c ∧ c ≠ 0 ∧ ownState s = 0 ∧ s.own.claims = [] ∧ 0 < s.own.hbMs ∧ Canon s,
    Answers (.ownClaim w) s (fun t => ownState t = 1 ∧ ownerOf t = ownerOf s ∧
      t.own = { s.own with claims := [(c, { prio := wrBits w 4 4, nonce := wrBits w 32 32, writtenAt := s.time.now, standing := true })],
                           settleAt := some (s.time.now + 1000000) } ∧
      regOf t (0x010028 + 8 * c) = candWord (wrBits w 4 4) ∧ RegsBut s t [0x010020, 0x010030, 0x010038, 0x010040] ∧ OnlyChanges s t [.regs, .own])⟩

/-- A claim for another candidate than its path's is refused (R335). -/
abbrev ownClaimRefused (s : State) (w : Wr) : Clause :=
  ⟨pathUp s w.path = true ∧ (pathCode w.path = 0 ∨ (wrBits w 0 2 ≠ 0 ∧ wrBits w 0 2 ≠ pathCode w.path)) ∧ Canon s,
    Answers (.ownClaim w) s (Denied s)⟩

/-- OWN_ELECTION_SETTLE: the one claim that stands wins; it owns the device with its nonce, its heartbeat period starts, the change is signalled
and counted, and the claimant is told (R336, R338, R422). -/
abbrev ownElectionSettle (s : State) (c at_ : Nat) (x : Claim) : Clause :=
  ⟨ownState s = 1 ∧ s.own.settleAt = some at_ ∧ at_ ≤ s.time.now ∧ s.own.claims = [(c, x)] ∧ 1 ≤ c ∧ c ≤ 3 ∧ stands s c = true ∧ x.prio < 16 ∧
      EventReady s 0x010020 8 1 ∧ Canon s,
    Answers .ownElectionSettle s (fun t => ownState t = 2 ∧ ownerOf t = c ∧ fieldOf t 0x010020 4 4 = x.prio ∧ fieldOf t 0x010020 8 1 = 1 ∧
      t.own = { s.own with nonce := x.nonce, settleAt := none, hbAt := s.time.now } ∧ t.out = s.out ++ eventOut s 1 ++ [.notice 0 c] ∧
      regOf t 0x010068 = regOf s 0x010068 + 1 ∧ RegsBut s t [0x010020, 0x010030, 0x010038, 0x010040, 0x010068] ∧
      OnlyChanges s t [.regs, .own, .out])⟩

/-- Of two claims that stand the one with the higher PRIO wins, at equal PRIO the later of HOST, BMC, FABRIC (R336). -/
abbrev ownElectionOrder (s : State) (a b at_ : Nat) (x y : Claim) : Clause :=
  ⟨ownState s = 1 ∧ s.own.settleAt = some at_ ∧ at_ ≤ s.time.now ∧ s.own.claims = [(a, x), (b, y)] ∧ 1 ≤ a ∧ a < b ∧ b ≤ 3 ∧ stands s a = true ∧
      stands s b = true ∧ Canon s,
    Answers .ownElectionSettle s (fun t => ownState t = 2 ∧ ownerOf t = (if x.prio ≤ y.prio then b else a) ∧
      t.own.nonce = (if x.prio ≤ y.prio then y.nonce else x.nonce))⟩

/-- With no claim that stands nobody owns the device (R336). -/
abbrev ownElectionVoid (s : State) (at_ : Nat) : Clause :=
  ⟨ownState s = 1 ∧ s.own.settleAt = some at_ ∧ at_ ≤ s.time.now ∧ (∀ c, c < 4 → stands s c = false) ∧ Canon s,
    Answers .ownElectionSettle s (fun t => ownState t = 0 ∧ t.own = { s.own with settleAt := none } ∧
      RegsBut s t [0x010020, 0x010030, 0x010038, 0x010040] ∧ OnlyChanges s t [.regs, .own])⟩

/-- OWN_CLAIM_EXPIRY: a claim that was not written again within the heartbeat timeout stands no longer (R335). -/
abbrev ownClaimExpiry (s : State) (c : Fin 4) (x : Claim) : Clause :=
  ⟨s.own.claims = [(c.val, x)] ∧ 1 ≤ c.val ∧ x.standing = true ∧ x.writtenAt + hbNs s ≤ s.time.now ∧ Canon s,
    Answers (.ownClaimExpiry c) s (fun t => t.own = { s.own with claims := [(c.val, { x with standing := false })] } ∧ stands t c = false ∧
      fieldOf t (0x010028 + 8 * c) 4 1 = 0 ∧ RegsBut s t [0x010030, 0x010038, 0x010040] ∧ OnlyChanges s t [.regs, .own])⟩

/-- The owner's path with the owner's nonce. -/
abbrev WithNonce (s : State) (w : Wr) : Prop := ByOwner s w.path ∧ ownState s = 2 ∧ wrBits w 32 32 = s.own.nonce

/-- OWN_HEARTBEAT renews ownership; the timeout written to OWN_CFG comes into force (R338, R340). -/
abbrev ownHeartbeat (s : State) (w : Wr) : Clause :=
  ⟨WithNonce s w, exec (.ownHeartbeat w) s = .next { s with own := { s.own with hbAt := s.time.now, hbMs := hbCfg s } }⟩

/-- A heartbeat, release or handover by anyone else, or with another nonce, is refused (R338, R340). -/
abbrev ownNonceRefused (s : State) (w : Wr) (c : Instr) : Clause :=
  ⟨(c = .ownHeartbeat w ∨ c = .ownRelease w ∨ c = .ownHandover w) ∧ pathUp s w.path = true ∧
      (isOwner s w.path = false ∨ ownState s ≠ 2 ∨ wrBits w 32 32 ≠ s.own.nonce) ∧ Canon s,
    Answers c s (Denied s)⟩

/-- Ownership has lapsed: nobody owns the device; while a claim stands a new election runs (R339). -/
abbrev Lapsed (s t : State) : Prop :=
  ownerOf t = 0 ∧ fieldOf t 0x010020 4 4 = 0 ∧ fieldOf t 0x010020 8 1 = 1 ∧ t.out = s.out ++ eventOut s 1 ∧
    (if [1, 2, 3].any (stands s) then ownState t = 1 ∧ t.own = { s.own with nonce := 0, settleAt := some (s.time.now + 1000000) }
     else ownState t = 0 ∧ t.own = { s.own with nonce := 0 }) ∧
    RegsBut s t [0x010020] ∧ OnlyChanges s t [.regs, .own, .out]

/-- OWN_LAPSE at the heartbeat timeout, and OWN_RELEASE by the owner (R339, R340). -/
abbrev ownLapse (s : State) (w : Wr) (c : Instr) : Clause :=
  ⟨((c = .ownLapse ∧ ownState s = 2 ∧ s.own.hbAt + hbNs s ≤ s.time.now) ∨
      (c = .ownRelease w ∧ WithNonce s w ∧ wrBits w 0 1 = 1 ∧ wrBits w 1 1 = 0)) ∧ EventReady s 0x010020 8 1 ∧ Canon s,
    Answers c s (Lapsed s)⟩

/-- OWN_HANDOVER to a candidate whose claim stands makes it the owner (R340). -/
abbrev ownHandover (s : State) (w : Wr) (x : Claim) : Clause :=
  let c := wrBits w 2 2
  ⟨WithNonce s w ∧ wrBits w 0 1 = 0 ∧ wrBits w 1 1 = 1 ∧ claimOf s c = some x ∧ stands s c = true ∧ c ≠ ownerOf s ∧ x.prio < 16 ∧
      EventReady s 0x010020 8 1 ∧ Canon s,
    Answers (.ownHandover w) s (fun t => ownState t = 2 ∧ ownerOf t = c ∧ fieldOf t 0x010020 4 4 = x.prio ∧
      t.own = { s.own with nonce := x.nonce, settleAt := none, hbAt := s.time.now } ∧ t.out = s.out ++ eventOut s 1 ∧ RegsBut s t [0x010020] ∧
      OnlyChanges s t [.regs, .own, .out])⟩

/-- PF_FLR disables every ring that is the PF's; a host that owned the device loses it (R318, R339). -/
abbrev pfFlr (s : State) : Clause :=
  ⟨EventReady s 0x010020 8 1 ∧ Canon s,
    Answers .pfFlr s (fun t => (∀ r, r < 1024 → ringEn t r = (ringEn s r && rgFunc s r)) ∧
      (if ownState s = 2 ∧ ownerOf s = 1 then ownerOf t = 0 ∧ t.own.nonce = 0 ∧ t.out = s.out ++ eventOut s 1
       else t.own = s.own ∧ t.out = s.out ∧ regOf t 0x010020 = regOf s 0x010020) ∧
      (∀ off, off ≠ 0x010020 → (∀ r, r < 1024 → off ≠ rRing r 2 ∧ off ≠ rHif r 0x18) → regOf t off = regOf s off) ∧
      OnlyChanges s t [.regs, .own, .out])⟩

/-- I3C_ENTDAA gives MG0 its dynamic address (R341). -/
abbrev i3cEntdaa (s : State) (a : BitVec 7) : Clause :=
  ⟨s.mod.phase ≠ .off, exec (.i3cEntdaa a) s = .next { s with mod := { s.mod with i3cAddr := some a.toNat } }⟩

/-- The bytes of a write over I3C: command, offset, data, and the PEC over them and the address byte (R342). -/
def i3cWriteBytes (a off : Nat) (v : Word) : List Byte :=
  let b := (0x02 : Byte) :: natBytes 3 off ++ natBytes 8 v.toNat
  b ++ [crc8 (addrByte a false :: b)]

/-- I3C_WRITE that is well formed is the BMC's register write (R342). -/
abbrev i3cWrite (s : State) (a : BitVec 7) (off : BitVec 24) (v : Word) : Clause :=
  ⟨i3cMine s a.toNat = true ∧ off.toNat % 8 = 0,
    ∃ t, exec (.registerWrite off { path := .bmc, half := .all, val := v }) s = .next t ∧
      exec (.i3cWrite a (i3cWriteBytes a.toNat off.toNat v)) s = .next t⟩

/-- One with a wrong PEC is discarded and counted (R342). -/
abbrev i3cWriteBad (s : State) (a : BitVec 7) (off : BitVec 24) (v : Word) (pec : Byte) : Clause :=
  let b := (0x02 : Byte) :: natBytes 3 off.toNat ++ natBytes 8 v.toNat
  ⟨i3cMine s a.toNat = true ∧ pec ≠ crc8 (addrByte a.toNat false :: b) ∧ Canon s,
    Answers (.i3cWrite a (b ++ [pec])) s (fun t => fieldOf t 0x148008 0 32 = min 0xFFFFFFFF (fieldOf s 0x148008 0 32 + 1) ∧
      RegsBut s t [0x148008] ∧ OnlyChanges s t [.regs])⟩

/-- I3C_READ answers the word and a PEC over the whole transfer (R342). -/
abbrev i3cRead (s : State) (a : BitVec 7) (off : BitVec 24) : Clause :=
  let b := (0x01 : Byte) :: natBytes 3 off.toNat
  let d := natBytes 8 (regOf s off.toNat).toNat
  ⟨i3cMine s a.toNat = true ∧ s.mod.phase ≠ .diag ∧ off.toNat % 8 = 0 ∧ elsewhere off.toNat = false ∧
      (off.toNat < 0x010030 ∨ (0x010048 ≤ off.toNat ∧ off.toNat < 0x060000) ∨ 0x060020 ≤ off.toNat),
    exec (.i3cRead a b false) s = .next { s with out := s.out ++ [.i3c (d ++ [crc8 ([addrByte a.toNat false] ++ b ++ [addrByte a.toNat true] ++ d)])] }⟩

/-- One that stops before its repeated start reads ones, and is counted (R342). -/
abbrev i3cReadBad (s : State) (a : BitVec 7) (b : List Byte) : Clause :=
  ⟨i3cMine s a.toNat = true ∧ Canon s,
    Answers (.i3cRead a b true) s (fun t => t.out = s.out ++ [.i3c (List.replicate 9 0xFF)] ∧
      fieldOf t 0x148008 0 32 = min 0xFFFFFFFF (fieldOf s 0x148008 0 32 + 1) ∧ RegsBut s t [0x148008] ∧ OnlyChanges s t [.regs, .out])⟩

/-- The requests of the SPDM responder. -/
def spdmCmds (q : SpdmReq) : List (Instr × Nat) :=
  [(.getVersion q, 0), (.getCapabilities q, 1), (.negotiateAlgorithms q, 2), (.getDigests q, 3), (.getCertificate q, 4), (.challenge q, 5),
   (.getMeasurements q, 6), (.spdmVendorDefined q, 7)]

/-- A well-formed request is answered on its path, Busy while the path serves another; the two requests for measurements also report what the module
runs (R396). What the messages hold besides is outside the model (NOTES.md, Scope). -/
abbrev spdmRequests (s : State) (q : SpdmReq) (c : Instr) (k : Nat) : Clause :=
  ⟨(c, k) ∈ spdmCmds q ∧ spdmUp s q.path = true ∧ q.wellFormed = true,
    exec c s = .next { s with out := s.out ++ [.spdm (spdmCode q.path) k q.busy] ++ (if 6 ≤ k && !q.busy then [measure396 s] else []) }⟩

/-- A malformed one raises ATTEST_FAIL (R396). -/
abbrev spdmMalformed (s : State) (q : SpdmReq) (c : Instr) (k : Nat) : Clause :=
  ⟨(c, k) ∈ spdmCmds q ∧ spdmUp s q.path = true ∧ q.wellFormed = false ∧ Canon s,
    Answers c s (fun t => Reported s t 0x0204 0 dieMG 0 none 0 0 ∧ RegsBut s t (errSrc dieMG) ∧ OnlyChanges s t [.regs, .err])⟩

/-- The commands that envelopes of the management channel carry. -/
def envelopeCmds (v : Envelope) (off : BitVec 24) (x : Word) (ok : Bool) (key : KeyBody) (q : SpdmReq) : List Instr :=
  [.mgmtRegWrite v off x, .mgmtRegRead v off, .mgmtOwnClaim v x, .keyInstall v key, .mgmtLcsReq v x ok, .mgmtSpdm v q]

/-- An envelope comes to a port of a READY module, meets the checks of R128 and finds room on VC7 (R126, R127, R399). -/
abbrev EnvelopeCame (s : State) (v : Envelope) (k : Nat) : Prop :=
  envIs k v = true ∧ pathUp s .fabric = true ∧ Passes s v.port (envLen v) v.wire true false ∧ envKnown s v = true ∧
    roomFor s v.port 7 (envLen v) v.wire = true ∧ Canon s

/-- Its frame has been counted and taken. -/
abbrev EnvelopeTaken (s t : State) (v : Envelope) : Prop :=
  PortRx s t v.port (envLen v) v.wire ∧ regOf t (rVc v.port 7 8) = regOf s (rVc v.port 7 8) + 1 ∧
    PortSet s t v.port (tookPort s v.port 7 (envLen v) v.wire)

/-- An envelope with a bad signature, for another node, past its time or with an old sequence number does nothing but count as denied (R399). -/
abbrev envelopeRefused (s : State) (v : Envelope) (c : Instr) (off : BitVec 24) (x : Word) (ok : Bool) (key : KeyBody) (q : SpdmReq) (k : Nat) : Clause :=
  ⟨(c, k) ∈ (envelopeCmds v off x ok key q).zipIdx 1 ∧ EnvelopeCame s v k ∧ envelopeOk s v = false,
    Answers c s (fun t => EnvelopeTaken s t v ∧ fieldOf t 0x010060 0 32 = min 0xFFFFFFFF (fieldOf s 0x010060 0 32 + 1) ∧
      Reported s t 0x0101 0 96 0 none 0 0 ∧ RegsBut s t (0x010060 :: errSrc 96 ++ rxRegs v.port 7) ∧ OnlyChanges s t [.regs, .ports, .err])⟩

/-- One that fails a receive check goes no further, and counts in that check's counter only (R128). -/
abbrev envelopeDropped (s : State) (v : Envelope) (c : Instr) (off : BitVec 24) (x : Word) (ok : Bool) (key : KeyBody) (q : SpdmReq)
    (a : Nat × Nat) : Clause :=
  ⟨c ∈ envelopeCmds v off x ok key q ∧ c.wellFormed = true ∧ pathUp s .fabric = true ∧ hears s v.port = true ∧
      failsAt s v.port (envLen v) v.wire true false (envKnown s v) = some a ∧ (∀ t ∈ v.wire.sec, t.pn.toNat < lastPn) ∧ Canon s,
    Answers c s (fun t => CheckFailed s t v.port v.wire false a)⟩

/-- The two rows of R126 that take an envelope: on priority 7 only; over IPv4 only to a NET_MGMT_V4 that is not 0 (R126, R127). -/
abbrev envelopeRows (s : State) (v : Envelope) (a : BitVec 32) : Clause :=
  ⟨True, (v.wire.pcp ≠ 7 → envKnown s v = false) ∧ (v.wire.udp.toNat ≠ oxtPort s → envKnown s v = false) ∧
    (v.v4 = some a → (envKnown s v = true ↔ a ≠ 0 ∧ a.toNat = fieldOf s 0x440030 0 32 ∧ v.wire.udp.toNat = oxtPort s ∧ v.wire.pcp = 7)) ∧
    (v.v4 = none → ownAddr s v.wire.dst.toNat = false → envKnown s v = false)⟩

/-- An envelope that is accepted: its sequence number is the key's last. -/
abbrev accepting (s : State) (v : Envelope) : State :=
  { s with nv := { s.nv with lastSeq := s.nv.lastSeq.filter (fun e => e.1 != v.keyIdx.toNat) ++ [(v.keyIdx.toNat, v.seq)] } }

/-- An envelope comes and passes every check (R399). -/
abbrev Accepts (s : State) (v : Envelope) (k : Nat) : Prop := EnvelopeCame s v k ∧ envelopeOk s v = true

/-- Its reply joins the VC7 queue of the port it came by: an OXT frame of TYPE MGMT to its sender, in the IP version of the request, that names
its sequence number; what no rule gives of its header and length is free (R127, R399, and log entry 105). -/
abbrev Answered (s t : State) (v : Envelope) (x : Word) : Prop :=
  ∃ hdr n, hdr.length = 32 ∧ hdr.head? = some 0x3A ∧ netField hdr 2 2 = netNode s ∧ netField hdr 4 2 = v.srcNode % 65536 ∧ netField hdr 28 2 = n ∧
    n ≤ 8192 ∧
    PortSet s t v.port { portOf s v.port with txq := (portOf s v.port).txq ++
      [{ vc := 7, len := n + (if v.v4.isSome then 114 else 134),
         msg := .mgmt { v4 := v.v4.isSome, addr := if v.v4.isSome then v.sender.toNat % 2 ^ 32 else v.sender.toNat, udp := v.senderUdp.toNat }
           hdr v.seq.toNat x }] }

/-- The state once its port has an envelope, but for the counters. -/
abbrev envTook (s : State) (v : Envelope) : State := tookFrame s v.port 7 (envLen v) v.wire

/-- MGMT_REG_WRITE, MGMT_OWN_CLAIM and MGMT_LCS_REQ are the FABRIC candidate's register write, claim and life-cycle request, on the state that has
taken the envelope, and are answered (R335, R392, R399). -/
abbrev envelopeActs (s : State) (v : Envelope) (c d : Instr) (k : Nat) (off : BitVec 24) (x : Word) (ok : Bool) : Clause :=
  let w : Wr := { path := .fabric, half := .all, val := x }
  ⟨Accepts s v k ∧ off.toNat % 8 = 0 ∧ ((c = .mgmtRegWrite v off x ∧ d = .registerWrite off w ∧ k = 1) ∨
      (c = .mgmtOwnClaim v x ∧ d = .ownClaim w ∧ k = 3) ∨ (c = .mgmtLcsReq v x ok ∧ d = .lcsReq w ok ∧ k = 5)),
    ∃ u t, EnvelopeTaken s u v ∧ u.nv = (accepting s v).nv ∧ RegsBut s u (rxRegs v.port 7) ∧ OnlyChanges s u [.regs, .ports, .nv] ∧
      exec d u = .next t ∧ Answers c s (fun t' => Answered t t' v 0 ∧ t'.freeIdx = t.freeIdx + 2 ∧ OnlyChanges t t' [.ports, .freeIdx])⟩

/-- MGMT_REG_READ answers the word (R399, R401). -/
abbrev mgmtRegRead (s : State) (v : Envelope) (off : BitVec 24) : Clause :=
  ⟨Accepts s v 2 ∧ off.toNat % 8 = 0 ∧ elsewhere off.toNat = false ∧
      (off.toNat < 0x010030 ∨ (0x010048 ≤ off.toNat ∧ off.toNat < 0x060000) ∨ 0x060020 ≤ off.toNat),
    Answers (.mgmtRegRead v off) s (fun t => Answered (envTook s v) t v (regOf t off.toNat) ∧ t.nv = (accepting s v).nv ∧
      PortRx s t v.port (envLen v) v.wire ∧ RegsBut s t (rxRegs v.port 7) ∧ OnlyChanges s t [.regs, .ports, .nv, .freeIdx])⟩

/-- KEY_INSTALL of a CAK (R398). -/
abbrev keyInstall (s : State) (v : Envelope) (i : BitVec 8) (key : BitVec 256) : Clause :=
  ⟨Accepts s v 4,
    Answers (.keyInstall v (.cak i key)) s (fun t => Answered (envTook s v) t v 0 ∧
      t.nv = { (accepting s v).nv with caks := s.nv.caks.filter (fun e => e.1 != i.toNat) ++ [(i.toNat, key)], sealedIn := some s.nv.lcState } ∧
      RegsBut s t (rxRegs v.port 7) ∧ OnlyChanges s t [.regs, .ports, .nv, .freeIdx])⟩

/-- A management key pair goes into its slot; slot 0 takes one only from an envelope signed with key 0 (R399). -/
abbrev keyInstallPair (s : State) (v : Envelope) (slot : Fin 16) (key : BitVec 256) : Clause :=
  ⟨Accepts s v 4 ∧ (slot.val ≠ 0 ∨ v.keyIdx = 0),
    Answers (.keyInstall v (.mgmtPair slot key)) s (fun t => Answered (envTook s v) t v 0 ∧
      t.nv = { (accepting s v).nv with mgmtKeys := s.nv.mgmtKeys.filter (fun e => e.1 != slot.val) ++ [(slot.val, key)],
                                       sealedIn := some s.nv.lcState } ∧
      RegsBut s t (rxRegs v.port 7) ∧ OnlyChanges s t [.regs, .ports, .nv, .freeIdx])⟩

/-- MGMT_SPDM meets the responder on the management path (R396, R399). -/
abbrev mgmtSpdm (s : State) (v : Envelope) (q : SpdmReq) : Clause :=
  ⟨Accepts s v 6 ∧ q.wellFormed = true,
    Answers (.mgmtSpdm v q) s (fun t => Answered (envTook s v) t v 0 ∧ t.nv = (accepting s v).nv ∧ t.out = s.out ++ [.spdm 2 8 q.busy] ∧
      RegsBut s t (rxRegs v.port 7) ∧ OnlyChanges s t [.regs, .ports, .nv, .freeIdx, .out])⟩

/-- REGISTER_WRITE by the owner of a register without a rule of its own, here in the node's address block: RW bits take the written value, those that
the access does not cover stay (R9, R402, R406). -/
abbrev registerWrite (s : State) (off : BitVec 24) (w : Wr) : Clause :=
  ⟨ByOwner s w.path ∧ (off = 0x440018 ∨ off = 0x440020 ∨ off = 0x440028 ∨ off = 0x440030),
    exec (.registerWrite off w) s = .next (s.setReg off.toNat (plainWrite off.toNat (regOf s off.toNat).toNat w))⟩

/-- A write of OWN_CFG is held within 100 to 600,000 ms (R340). -/
abbrev registerWriteClamps (s : State) (w : Wr) : Clause :=
  ⟨ByOwner s w.path ∧ w.half = .all ∧ Canon s,
    Answers (.registerWrite 0x010018 w) s (fun t => fieldOf t 0x010018 0 32 = min 600000 (max 100 (wrBits w 0 32)) ∧ RegsBut s t [0x010018] ∧
      OnlyChanges s t [.regs])⟩

/-- A register without a rule of its own that a non-owner writes keeps its value (R337, R406). -/
abbrev registerWriteDenied (s : State) (off : BitVec 24) (w : Wr) : Clause :=
  ⟨pathUp s w.path = true ∧ isOwner s w.path = false ∧ off.toNat % 8 = 0 ∧ ((regRow off.toNat).isSome = true ∨ pathCode w.path = 0) ∧
      off.toNat ∉ [0x010000, 0x010008, 0x010010, 0x010020, 0x020018, 0x040040] ∧ (off.toNat < 0x100000 ∨ 0x110000 ≤ off.toNat) ∧ Canon s,
    Answers (.registerWrite off w) s (Denied s)⟩

/-- An access that is not aligned, or to an offset without a register, changes nothing; a path that is down brings no write (R315, R401, and log entries
2 and 5). -/
abbrev registerWriteNowhere (s : State) (off : BitVec 24) (w : Wr) : Clause :=
  ⟨off.toNat % 8 ≠ 0 ∨ (regRow off.toNat = none ∧ pathCode w.path ≠ 0 ∧ (off.toNat < 0x100000 ∨ 0x110000 ≤ off.toNat) ∧
      off.toNat ∉ [0x010000, 0x010008, 0x010010, 0x010020, 0x020018, 0x040040]),
    exec (.registerWrite off w) s = .next s⟩

/-- The commands that are writes of the owner's registers. -/
abbrev IsOwnerCmd (w : Wr) (p : Fin 64) (a8 : Fin 8) (a4 : Fin 4) (c16 : Fin 16) (c12 : Fin 12) (e : Fin 1024) (rc : Fin 256) (q : Fin 4096)
    (img : FwImage) (ok : Bool) (c : Instr) : Prop :=
  c = .ftbSetTimeWrite w ∨ c = .setEntryWrite e a4 w ∨ c = .routeContextWrite a4 rc a8 w ∨ c = .sreStepWrite p a8 w ∨ c = .eptCommitGo p w ∨
  c = .sreLiveClrWrite w ∨ c = .xgCommitGo w ∨ c = .netPortCtrlWrite p w ∨ c = .portCntClr p w ∨ c = .hqDescWrite q a4 w ∨ c = .poolInit p c12 w ∨
  c = .fabDomainGo w ∨ c = .partMapCommit p w ∨ c = .ctxResume p c16 w ∨ c = .ctxReset p c16 w ∨ c = .ctxStop p c16 w ∨ c = .partTeardown p w ∨
  c = .partJobStart p w ∨ c = .pwrSagWrite w ∨ c = .planNow w ∨ c = .errCtrlErqEn w ∨ c = .errFirstClr w ∨ c = .errDeviceClr w ∨
  c = .errErqHeadWrite w ∨ c = .fwWrite w img ∨ c = .fwActivate w ∨ c = .svnCommit w ∨ c = .lcsReq w ok

/-- By anyone but the owner each of them changes nothing but the count of denied writes, and OWN_DENIED is raised (R317, R337). -/
abbrev ownerOnly (s : State) (w : Wr) (p : Fin 64) (a8 : Fin 8) (a4 : Fin 4) (c16 : Fin 16) (c12 : Fin 12) (e : Fin 1024) (rc : Fin 256)
    (q : Fin 4096) (img : FwImage) (ok : Bool) (c : Instr) : Clause :=
  ⟨IsOwnerCmd w p a8 a4 c16 c12 e rc q img ok c ∧ pathUp s w.path = true ∧ isOwner s w.path = false ∧ Canon s, Answers c s (Denied s)⟩

end Sys2Proof.Claims

open Sys2Proof.Claims in
/-- The claims, the election, heartbeats, the lapse and the handover of ownership. -/
def Obligations.Ownership : Prop :=
  ∀ (s : State) (w : Wr) (a b at_ : Nat) (x y : Claim) (c : Instr) (k : Fin 4),
    (ownClaim s w).Holds ∧ (ownClaimRefused s w).Holds ∧ (ownElectionSettle s a at_ x).Holds ∧ (ownElectionOrder s a b at_ x y).Holds ∧
      (ownElectionVoid s at_).Holds ∧ (ownClaimExpiry s k x).Holds ∧ (ownHeartbeat s w).Holds ∧ (ownNonceRefused s w c).Holds ∧
      (ownLapse s w c).Holds ∧ (ownHandover s w x).Holds ∧ (pfFlr s).Holds

open Sys2Proof.Claims in
/-- The owner's registers can be written by the owner alone. -/
def Obligations.OnlyTheOwnerWrites : Prop :=
  ∀ (s : State) (w : Wr) (c : Instr) (p : Fin 64) (a8 : Fin 8) (a4 : Fin 4) (c16 : Fin 16) (c12 : Fin 12) (e : Fin 1024) (rc : Fin 256) (q : Fin 4096)
    (img : FwImage) (ok : Bool) (off : BitVec 24),
    (ownerOnly s w p a8 a4 c16 c12 e rc q img ok c).Holds ∧ (registerWrite s off w).Holds ∧ (registerWriteClamps s w).Holds ∧
      (registerWriteDenied s off w).Holds ∧ (registerWriteNowhere s off w).Holds

open Sys2Proof.Claims in
/-- I3C, attestation and the management channel. -/
def Obligations.SidebandAndManagement : Prop :=
  ∀ (s : State) (a : BitVec 7) (off : BitVec 24) (x : Word) (pec : Byte) (b : List Byte) (q : SpdmReq) (c d : Instr) (k : Nat) (v : Envelope)
    (ok : Bool) (body : KeyBody) (i : BitVec 8) (slot : Fin 16) (key : BitVec 256) (at_ : Nat × Nat) (ip : BitVec 32),
    (i3cEntdaa s a).Holds ∧ (i3cWrite s a off x).Holds ∧ (i3cWriteBad s a off x pec).Holds ∧ (i3cRead s a off).Holds ∧ (i3cReadBad s a b).Holds ∧
      (spdmRequests s q c k).Holds ∧ (spdmMalformed s q c k).Holds ∧ (envelopeRefused s v c off x ok body q k).Holds ∧
      (envelopeDropped s v c off x ok body q at_).Holds ∧ (envelopeRows s v ip).Holds ∧ (envelopeActs s v c d k off x ok).Holds ∧ (mgmtRegRead s v off).Holds ∧ (keyInstall s v i key).Holds ∧ (keyInstallPair s v slot key).Holds ∧
      (mgmtSpdm s v q).Holds

/-! ## Power, thermal, ageing (R344–R368) -/

namespace Sys2Proof.Claims

/-- GRANTED_W shows what is granted (R367). -/
abbrev GrShown (t : State) : Prop := fieldOf t 0x040018 32 16 = min 0xFFFF (grOf t / 1000)

/-- Only the grants have changed in the power state, with the history of their sum (R347). -/
abbrev GrantsSet (s t : State) (held waiting : List Grant) : Prop :=
  t.pw = { s.pw with held, waiting, hist := t.pw.hist } ∧ GrShown t

/-- A request fits now: within the cap, and within DIDT_W of the least sum of the last 20 µs (R347). -/
abbrev FitsNow (s : State) (mw : Nat) : Prop :=
  baseW s * 1000 + grOf s + mw ≤ capEff s ∧ grOf s + mw ≤ minGr s s.time.now + fieldOf s 0x040008 0 10 * 1000

/-- PGU_GRANT of a window's request, the only one that waits: it is held, and counted with its wait (R345, R347, R351, R368). -/
abbrev pguGrant (s : State) (g : Grant) (h tag n : Nat) : Clause :=
  ⟨s.pw.waiting = [g] ∧ g.who = .window h tag n ∧ g.die = none ∧ g.paused = false ∧ NoGrant { s with pw := { s.pw with waiting := [] } } g.who ∧
      (∀ r ∈ s.pw.held, r.who ≠ .reservation g.part ∧ r.paused = false) ∧ FitsNow s g.mw ∧ Canon s,
    Answers .pguGrant s (fun t => GrantsSet s t (s.pw.held ++ [g]) [] ∧ grOf t = grOf s + g.mw ∧
      regOf t 0x040200 = regOf s 0x040200 + 1 ∧ regOf t 0x040208 = regOf s 0x040208 + BitVec.ofNat 64 (s.time.now - g.askedAt) ∧
      RegsBut s t [0x040018, 0x040200, 0x040208] ∧ OnlyChanges s t [.pw, .regs])⟩

/-- PGU_GRANT starts the command that waits (R172): a GMM of one item of one row by one column claims it and the index after it, loads A into the
first half of its staging region, writes the item's product, counts it in DONE_ITEMS, signals DONE_PIP and is done in its slot; its grant is
held on (R161, R196, R205, R206, R345). What is left in its staging region beyond A is free (log entry 141). -/
abbrev pguGrantGmm (s : State) (g : Grant) (w : Cmd) (i : Iss) (slot : Nat) (x : AsyncCmd) (am bm cm : Mdesc) : Clause :=
  let wl := cAddr w 8
  let h := memNat s wl 64
  let it := witemOf (memNat s (wl + 64) 32)
  let b := bitsOf h 128 52 + 64 * it.slot
  let c := itemC cm it
  let q := prodAB (i.thread s) false { m := itemA am it, tr := 1, tc := am.cols } (whole i bm) { m := c, tr := 1, tc := 1 }
  let pip := pipKey i.p (fieldOf s (rPart i.p 0x28) 0 4) (bitsOf h 192 11) (bitsOf h 208 6)
  let st := stageBase i
  let sn := 2 * halfBytes am + 0x10000
  let Clear := fun (p n : Nat) => p % 0x200000 + n ≤ 0x200000 ∧ (p + n ≤ wl ∨ wl + 96 ≤ p) ∧ (p + n ≤ st ∨ st + sn ≤ p)
  ⟨s.pw.waiting = [g] ∧ g.who = .cmd i.key slot ∧ g.paused = false ∧ eligible s g = true ∧
      (∀ r ∈ s.pw.held, r.who ≠ .reservation g.part ∧ r.who ≠ g.who ∧ r.paused = false) ∧
      FitsNow s g.mw ∧ i = { issOfKey i.key w with held := x.held } ∧ (partOf s i.p).switching = .none ∧
      (threadOf s i.key).asyncs = [(slot, x)] ∧ x.w = w ∧ x.cur = none ∧ NoneQueued s i.key slot ∧
      (∀ e ∈ s.threads, e.1 ≠ i.key → e.1 / 16 = i.key / 16 → e.2.asyncs = []) ∧ hOpcode w = 0x23 ∧ cf w 4 0 1 = 0 ∧
      cAddr w 16 % 64 = 0 ∧ cAddr w 24 % 64 = 0 ∧ belongs s i.p (cAddr w 16) 64 = true ∧ belongs s i.p (cAddr w 24) 64 = true ∧
      mdescOf (i.item s (cAddr w 16)) = am ∧ mdescOf (i.item s (cAddr w 24)) = cm ∧ am.okAs true = true ∧ cm.okAs true = true ∧
      isMx am.fmt = false ∧ isMx bm.fmt = false ∧ am.pmask = 0 ∧ cm.pmask = 0 ∧ am.bucket = 0 ∧ cm.bucket = 0 ∧
      am.blocked = false ∧ cm.blocked = false ∧ am.kcol = true ∧ am.rows = 64 ∧ cFmtOk am.fmt cm.fmt = true ∧ (cm.fmt = 0 ∨ cm.fmt = 10) ∧
      cm.cols = 1 ∧ belongs s i.p wl 64 = true ∧ belongs s i.p (wl + 64) 32 = true ∧ bitsOf h 0 32 = 1 ∧ bitsOf h 32 32 = 0 ∧ it.rows = 1 ∧
      PlainOpd s i b bm ∧ bKN bm = (am.cols, 1) ∧ pairOk am.fmt bm.fmt = true ∧
      belongs s i.p it.a (64 * am.stride) = true ∧ belongs s i.p it.c cm.rowBytes = true ∧
      Clear it.a (64 * am.stride) ∧ Clear it.c 4 ∧ Clear b 64 ∧ Clear bm.base ((bm.rows - 1) * bm.stride + bm.rowBytes) ∧
      st % 0x200000 + sn ≤ 0x200000 ∧ (wl + 96 ≤ st ∨ st + sn ≤ wl) ∧ coreOfPart s i.p (bitsOf h 192 11) = true ∧
      pipWaiters s i.p (fieldOf s (rPart i.p 0x28) 0 4) (bitsOf h 192 11) (bitsOf h 208 6) = [] ∧ (pipOf s pip).toNat < 0xFFFF ∧
      s.fab.dir = [] ∧ CleanMem s ∧ Canon s,
    Answers .pguGrant s (fun t => readCode t c 0 0 = (oneStored s i q c).1 ∧ memNat t (wl + 4) 4 = 2 ∧
      memNat t (wl + 8) 4 = (bitsOf h 64 32 + 1) % 2 ^ 32 ∧ memBytes t st am.rowBytes = memBytes s it.a am.rowBytes ∧
      (∀ p, (p < wl + 4 ∨ wl + 12 ≤ p) → (p < it.c ∨ it.c + 4 ≤ p) → (p < st ∨ st + sn ≤ p) → memAt t p = memAt s p) ∧
      (∃ f, t.threads = (s.setThread i.key { orFlags f (threadOf s i.key) with asyncs := [(slot, { w := w, phase := .done })] }).threads) ∧
      t.turns = s.turns ∧ t.pips = (s.setPip pip (pipOf s pip + 1)).pips ∧ GrantsSet s t (s.pw.held ++ [g]) [] ∧
      RegsBut s t [0x040018, 0x040200, 0x040208, rCore i.core 0, rCore i.core 8, rCore i.core 0x10, rCore i.core 0x30] ∧
      OnlyChanges s t [.threads, .mem, .pips, .pw, .regs, .freeIdx])⟩

/-- A request within its partition's reservation takes its place, whatever the cap (R350). -/
abbrev pguGrantReserved (s : State) (g r : Grant) (h tag n : Nat) : Clause :=
  ⟨s.pw.waiting = [g] ∧ g.who = .window h tag n ∧ g.die = none ∧ s.pw.held = [r] ∧ r.who = .reservation g.part ∧ g.mw ≤ r.mw ∧ Canon s,
    Answers .pguGrant s (fun t => GrantsSet s t [g] [] ∧ RegsBut s t [0x040018, 0x040200, 0x040208] ∧ OnlyChanges s t [.pw, .regs])⟩

/-- Beyond the cap nothing is granted (R347). -/
abbrev pguGrantWaits (s : State) (g : Grant) : Clause :=
  ⟨s.pw.waiting = [g] ∧ (∀ r ∈ s.pw.held, r.who ≠ .reservation g.part) ∧ capEff s < baseW s * 1000 + grOf s + g.mw,
    exec .pguGrant s = .next s⟩

/-- PGU_RESERVATION_EXPIRY gives up a reservation that nothing took over (R350). -/
abbrev pguReservationExpiry (s : State) (p : Fin 64) (g : Grant) : Clause :=
  ⟨s.pw.held = [g] ∧ g.who = .reservation p.val ∧ s.pw.waiting = [] ∧ g.until_ ≤ ftNs s ∧ Canon s,
    Answers (.pguReservationExpiry p) s (fun t => GrantsSet s t [] [] ∧ RegsBut s t [0x040018] ∧ OnlyChanges s t [.pw, .regs])⟩

/-- The counter of the throttled cycles of a holder that is a command of a core (R211). -/
def throttled (g : Grant) : List Nat :=
  match g.who with
  | .cmd k _ => [rCore (k / 16 % 2048) 0x18]
  | _ => []

/-- PGU_RESUME: a paused holder resumes once it fits, and is counted; for a matrix command the time it was held back counts, but for a free part of
at most a tile (R209, R211, R353, log entry 117). -/
abbrev pguResume (s : State) (g : Grant) : Clause :=
  ⟨s.pw.held = [g] ∧ g.paused = true ∧ g.hot = false ∧ s.pw.waiting = [] ∧ s.pw.peak = false ∧ FitsNow s g.mw ∧ Canon s,
    Answers .pguResume s (fun t => GrantsSet s t [{ g with paused := false }] [] ∧ regOf t 0x040200 = regOf s 0x040200 + 1 ∧
      RegsBut s t ([0x040018, 0x040200] ++ throttled g) ∧ OnlyChanges s t [.pw, .regs, .freeIdx])⟩

/-- CORE_WAKE: the wake of a sleeping core is granted, and the core is awake (R354). -/
abbrev coreWake (s : State) (c : Fin 2048) (g : Grant) : Clause :=
  ⟨s.pw.waiting = [g] ∧ g.who = .wake c ∧ g.die = none ∧ c.val ∉ s.pw.awake ∧ s.pw.held = [] ∧ g.paused = false ∧ FitsNow s g.mw ∧
      s.pw.wakes.1 < s.time.now / 1000 ∧ Canon s,
    Answers (.coreWake c) s (fun t =>
      t.pw = { s.pw with held := [g], waiting := [], hist := t.pw.hist, wakes := (s.time.now / 1000, 1),
                         awake := s.pw.awake.filter (· < c.val) ++ c.val :: s.pw.awake.filter (c.val < ·) } ∧
      GrShown t ∧ RegsBut s t [0x040018, 0x040200, 0x040208] ∧ OnlyChanges s t [.pw, .regs])⟩

/-- PGU_BASE_UPDATE comes at the next multiple of 100 µs: BASE_W is the measured power less the mean of what was granted, at least BASE_MIN_W
(R347). -/
abbrev pguBaseUpdate (s : State) (w avg : BitVec 16) : Clause :=
  ⟨s.pw.held = [] ∧ s.pw.waiting = [] ∧ Canon s,
    Answers (.pguBaseUpdate w avg) s (fun t => t.time.now = (s.time.now / 100000 + 1) * 100000 ∧
      baseW t = max (fieldOf s 0x040008 40 16) (w.toNat - avg.toNat) ∧ fieldOf t 0x040018 16 16 = w.toNat ∧
      fieldOf t 0x040020 32 13 = capEff t / 1000 ∧ t.pw.peak = (s.pw.peak && decide (6600 ≤ w.toNat)) ∧ t.pw.held = [] ∧
      RegsBut s t [0x040018, 0x040020] ∧ OnlyChanges s t [.pw, .regs, .time])⟩

/-- PWR_PEAK above 6,600 W: its event is set, it is counted and raised, and holders pause for the excess, here the one there is (R352). -/
abbrev pwrPeak (s : State) (w : BitVec 16) (g : Grant) (r : Nat) : Clause :=
  ⟨6600 < w.toNat ∧ s.pw.peak = false ∧ s.pw.held = [g] ∧ g.who = .ringCopy r 0 ∧ g.paused = false ∧ 0 < g.mw ∧ EventReady s 0x040020 2 2 ∧ Canon s,
    Answers (.pwrPeak w) s (fun t => t.pw = { s.pw with peak := true, held := [{ g with paused := true, hot := false, pausedAt := s.time.now }], hist := t.pw.hist } ∧ GrShown t ∧
      fieldOf t 0x040018 16 16 = w.toNat ∧ fieldOf t 0x040020 2 1 = 1 ∧ t.out = s.out ++ eventOut s 2 ∧
      fieldOf t 0x040218 0 32 = min 0xFFFFFFFF (fieldOf s 0x040218 0 32 + 1) ∧ fieldOf t 0x040210 0 32 = min 0xFFFFFFFF (fieldOf s 0x040210 0 32 + 1) ∧
      Reported s t 0x0404 0 diePC 0 none 0 0 ∧ RegsBut s t ([0x040018, 0x040020, 0x040210, 0x040218] ++ errSrc diePC) ∧
      OnlyChanges s t [.pw, .regs, .err, .out])⟩

/-- Nothing runs any more: what a reset or hold stops at once (R385). -/
abbrev Stopped (t : State) : Prop :=
  t.threads = [] ∧ t.pips = [] ∧ t.vbufs = [] ∧ t.queues = [] ∧ t.parts = [] ∧ t.pools = [] ∧ t.groups = [] ∧ t.ports = [] ∧ t.submits = [] ∧
    t.samples = [] ∧ t.launches = [] ∧ t.colls = [] ∧ t.fab = {} ∧ t.host = {}

/-- The module is held in reset with a cause, and what led to it heads the fatal log (R344, R356–R361, R378, R383). -/
abbrev HeldFor (s t : State) (cause rail code die : Nat) : Prop :=
  t.mod.phase = .held ∧ fieldOf t 0x040038 0 4 = cause ∧ fieldOf t 0x040038 8 8 = rail ∧ Stopped t ∧ t.own = {} ∧ t.time.running = false ∧
    t.nv.fatalLog.length = min 16 (s.nv.fatalLog.length + 1) ∧
    (((t.nv.fatalLog.headD []).getD 3 0).toNat % 2 ^ 32 = code ||| 4 <<< 16 ||| die <<< 24) ∧ t.err.fatalNew = true ∧ t.nv.lcState = s.nv.lcState ∧
    fieldOf t 0x020000 3 1 = 0

/-- What holds the module in reset, with its cause, rail, error and die (R16, R344, R356, R357, R360, R371). -/
abbrev Holds (s : State) (c : Instr) (cause rail code die : Nat) : Prop :=
  (∃ mv : BitVec 16, c = .sagReset mv ∧ 10 * mv.toNat < sagResetMv s ∧ cause = 1 ∧ rail = 0 ∧ code = 0x0402 ∧ die = diePC) ∨
  (∃ mv : BitVec 16, c = .inputOv mv ∧ 62000 < 10 * mv.toNat ∧ cause = 2 ∧ rail = 0 ∧ code = 0x0403 ∧ die = diePC) ∨
  (∃ r : BitVec 8, c = .railFault r ∧ cause = 3 ∧ rail = r.toNat ∧ code = 0x0405 ∧ die = diePC) ∨
  (∃ d : Fin 100, c = .thermTrip d ∧ 2 ≤ (s.pw.tripSeen.filter (· == d.val)).length ∧ cause = 4 ∧ rail = 0 ∧ code = 0x0409 ∧ die = d) ∨
  (∃ p : Pair, c = .mirrorLost p ∧ pairUp s p ≠ (false, false) ∧ cause = 9 ∧ rail = 0 ∧ code = 0x0007 ∧ die = (pairDies p).1)

/-- A supply, rail, temperature or mirror failure of a running module holds it in reset. -/
abbrev holdsModule (s : State) (c : Instr) (cause rail code die : Nat) : Clause :=
  ⟨running s = true ∧ Holds s c cause rail code die ∧ Canon s, Answers c s (fun t => HeldFor s t cause rail code die)⟩

/-- What lets a held module go into its cold reset, with the cause it was held for (R344, R356, R360). -/
abbrev Releases (s : State) (c : Instr) (cause : Nat) : Prop :=
  (∃ mv : BitVec 16, c = .sagResetRelease mv ∧ cause = 1 ∧ sagClearMv s < 10 * mv.toNat) ∨
  (∃ mv : BitVec 16, c = .inputOvRelease mv ∧ cause = 2 ∧ 10 * mv.toNat < 60000) ∨
  (∃ w : Wr, c = .pwrTripClr w ∧ cause = 4 ∧ w.path = .bmc ∧ wrBits w 0 1 = 1 ∧ ∀ d, d < 100 → fieldOf s (rDie d) 0 8 ≤ 85)

/-- The cold reset is asked for. -/
abbrev heldEnds (s : State) (c : Instr) (cause : Nat) : Clause :=
  ⟨heldBy s cause = true ∧ Releases s c cause ∧ Canon s,
    Answers c s (fun t => t.mod = { s.mod with coldReq := some cause } ∧ RegsBut s t [0x040018] ∧ OnlyChanges s t [.mod, .regs])⟩

/-- INPUT_POWER_LOSS: below 30 V every register and all memory are gone; fuses and flash stay (R344, R367). -/
abbrev inputPowerLoss (s : State) (mv : BitVec 16) : Clause :=
  ⟨10 * mv.toNat < 30000,
    Answers (.inputPowerLoss mv) s (fun t => t.mod = { phase := .off } ∧ Stopped t ∧ t.regs = [] ∧ t.mem = [] ∧ t.nv = s.nv ∧
      t.pw.railLatched = s.pw.railLatched ∧ t.own = {})⟩

/-- INPUT_POWER_UP above the clearing threshold: the module asks for its cold reset with cause 0, unless a rail is latched off (R344, R357). -/
abbrev inputPowerUp (s : State) (mv : BitVec 16) : Clause :=
  ⟨s.mod.phase = .off ∧ 30000 ≤ 10 * mv.toNat ∧ sagClearMv s < 10 * mv.toNat ∧ Canon s,
    Answers (.inputPowerUp mv) s (fun t => t.mod = { phase := .held, coldReq := if s.pw.railLatched then none else some 0 } ∧
      fieldOf t 0x040018 0 16 = mv.toNat ∧ OnlyChanges s t [.mod, .regs])⟩

/-- RAIL_LATCH_CLEAR after a second without input (R357). -/
abbrev railLatchClear (s : State) : Clause :=
  ⟨s.mod.phase = .off, exec .railLatchClear s = .next { s with pw := { s.pw with railLatched := false } }⟩

/-- SAG_WARN: the pin and its event, the count, the error, and the lower cap (R348, R355). -/
abbrev sagWarn (s : State) (mv : BitVec 16) : Clause :=
  ⟨running s = true ∧ 10 * mv.toNat < sagWarnMv s ∧ sagActive s = false ∧ s.pw.held = [] ∧ EventReady s 0x040020 1 2 ∧ Canon s,
    Answers (.sagWarn mv) s (fun t => sagActive t = true ∧ fieldOf t 0x040020 1 1 = 1 ∧ fieldOf t 0x040020 32 13 = capEff t / 1000 ∧
      t.out = s.out ++ .sagPin true :: eventOut s 2 ∧ fieldOf t 0x040210 32 32 = min 0xFFFFFFFF (fieldOf s 0x040210 32 32 + 1) ∧
      fieldOf t 0x040018 0 16 = mv.toNat ∧ Reported s t 0x0401 0 diePC 0 none 0 0 ∧
      RegsBut s t ([0x040018, 0x040020, 0x040210] ++ errSrc diePC) ∧ OnlyChanges s t [.regs, .err, .out])⟩

/-- SAG_WARN_CLEAR, 1 V above the threshold (R355). -/
abbrev sagWarnClear (s : State) (mv : BitVec 16) : Clause :=
  ⟨running s = true ∧ sagActive s = true ∧ s.pw.senseFail = false ∧ sagWarnMv s + 1000 ≤ 10 * mv.toNat ∧ s.pw.held = [] ∧ Canon s,
    Answers (.sagWarnClear mv) s (fun t => sagActive t = false ∧ fieldOf t 0x040020 32 13 = capEff t / 1000 ∧ t.out = s.out ++ [.sagPin false] ∧
      RegsBut s t [0x040018, 0x040020] ∧ OnlyChanges s t [.regs, .out])⟩

/-- PWR_SAG_WRITE clamps its fields, and takes them only in rising order of reset, warning and clearing thresholds; else PWR_CFG_INVALID (R356). -/
abbrev pwrSagWrite (s : State) (w : Wr) : Clause :=
  let new := plainWrite 0x040010 (regOf s 0x040010).toNat w
  let warn := min 46000 (max 40000 (bitsOf new 0 16))
  let rst := min 40000 (max 36000 (bitsOf new 16 16))
  let clr := min 48000 (max 42000 (bitsOf new 32 16))
  ⟨ByOwner s w.path ∧ s.pw.held = [] ∧ Canon s,
    Answers (.pwrSagWrite w) s (fun t =>
      if rst < warn ∧ warn < clr then
        sagWarnMv t = warn ∧ sagResetMv t = rst ∧ sagClearMv t = clr ∧ fieldOf t 0x040010 48 7 = min 100 (max 30 (bitsOf new 48 7)) ∧
          RegsBut s t [0x040010, 0x040020] ∧ OnlyChanges s t [.regs]
      else Reported s t 0x040D 0 diePC 0 none 0 0 ∧ RegsBut s t (errSrc diePC) ∧ OnlyChanges s t [.regs, .err])⟩

/-- COOLANT_LOW: too little flow, or an inlet above 45.0 °C: its event, its error, the lower cap (R348, R358). -/
abbrev coolantLow (s : State) (inlet flow : BitVec 12) : Clause :=
  ⟨running s = true ∧ fieldOf s 0x040030 36 1 = 0 ∧ fieldOf s 0x040030 38 1 = 0 ∧ (flow.toNat < flowMin s ∨ 450 < inlet.toNat) ∧
      coolantActive s = false ∧ s.pw.held = [] ∧ EventReady s 0x040020 5 3 ∧ Canon s,
    Answers (.coolantLow inlet flow) s (fun t => coolantActive t = true ∧ fieldOf t 0x040020 5 1 = 1 ∧ fieldOf t 0x040020 32 13 = capEff t / 1000 ∧
      fieldOf t 0x040030 0 12 = inlet.toNat ∧ fieldOf t 0x040030 24 12 = flow.toNat ∧ t.out = s.out ++ eventOut s 3 ∧
      Reported s t 0x0407 0 diePC 0 none 0 0 ∧ RegsBut s t ([0x040020, 0x040030] ++ errSrc diePC) ∧ OnlyChanges s t [.regs, .err, .out])⟩

/-- COOLANT_LOW_CLEAR (R358). -/
abbrev coolantLowClear (s : State) (inlet flow : BitVec 12) : Clause :=
  ⟨running s = true ∧ fieldOf s 0x040030 36 1 = 0 ∧ fieldOf s 0x040030 38 1 = 0 ∧ flowMin s + 5 ≤ flow.toNat ∧ inlet.toNat ≤ 450 ∧
      coolantActive s = true ∧ s.pw.held = [] ∧ Canon s,
    Answers (.coolantLowClear inlet flow) s (fun t => coolantActive t = false ∧ fieldOf t 0x040020 32 13 = capEff t / 1000 ∧
      RegsBut s t [0x040020, 0x040030] ∧ OnlyChanges s t [.regs])⟩

/-- SENSOR_FAULT of the inlet or the outlet sensor: an inlet without its sensor counts as at 45.0 °C (R358). -/
abbrev sensorFault (s : State) (x : Sensor) (bit : Nat) : Clause :=
  ⟨running s = true ∧ ((x = .inlet ∧ bit = 36) ∨ (x = .outlet ∧ bit = 37)) ∧ fieldOf s 0x040030 bit 1 = 0 ∧ EventReady s 0x040020 6 3 ∧ Canon s,
    Answers (.sensorFault x) s (fun t => fieldOf t 0x040030 bit 1 = 1 ∧ (x = .inlet → fieldOf t 0x040030 0 12 = 450) ∧ fieldOf t 0x040020 6 1 = 1 ∧
      t.out = s.out ++ eventOut s 3 ∧ Reported s t 0x0406 0 diePC 0 none 0 0 ∧ RegsBut s t ([0x040020, 0x040030] ++ errSrc diePC) ∧
      OnlyChanges s t [.regs, .err, .out])⟩

/-- Without a working sense of the input the module acts as in a sag (R358). -/
abbrev sensorInput (s : State) : Clause :=
  ⟨running s = true ∧ s.pw.senseFail = false ∧ s.pw.held = [] ∧ Canon s,
    Answers (.sensorFault .inputSense) s (fun t => t.pw = { s.pw with senseFail := true } ∧ sagActive t = true)⟩

/-- THERM_SAMPLE of a cool die shows its temperature (R359). -/
abbrev thermSample (s : State) (d : Fin 100) (temp : BitVec 8) : Clause :=
  ⟨running s = true ∧ temp.toNat + 3 ≤ throttleC s ∧ forcedHot s d = false ∧ (∀ e ∈ s.pw.hotSince, e.1 ≠ d.val) ∧
      (∃ e ∈ s.pw.coolSince, e.1 = d.val) ∧ d.val ∉ s.pw.tripSeen ∧ Canon s,
    Answers (.thermSample d temp) s (fun t => fieldOf t (rDie d) 0 8 = temp.toNat ∧ t.pw = s.pw ∧ RegsBut s t [rDie d] ∧ OnlyChanges s t [.regs])⟩

/-- At THROTTLE_C a die throttles: its bit and the event are set, it is counted and raised once per excursion (R359). -/
abbrev thermHot (s : State) (d : Fin 100) (temp : BitVec 8) : Clause :=
  ⟨running s = true ∧ throttleC s ≤ temp.toNat ∧ temp.toNat < 110 ∧ forcedHot s d = false ∧ (∀ e ∈ s.pw.hotSince, e.1 ≠ d.val) ∧
      coolLong s d = true ∧ d.val ∉ s.pw.tripSeen ∧ EventReady s 0x040020 3 3 ∧ Canon s,
    Answers (.thermSample d temp) s (fun t => fieldOf t (rDie d) 0 8 = temp.toNat ∧ fieldOf t (rDie d) 41 1 = 1 ∧ fieldOf t 0x040020 3 1 = 1 ∧
      t.pw = { s.pw with hotSince := (d.val, s.time.now) :: s.pw.hotSince, coolSince := s.pw.coolSince.filter (fun e => e.1 != d.val),
                         belowSince := s.pw.belowSince.filter (fun e => e.1 != d.val) } ∧
      fieldOf t 0x040218 32 32 = min 0xFFFFFFFF (fieldOf s 0x040218 32 32 + 1) ∧ Reported s t 0x0408 0 d 0 none 0 0 ∧ t.out = s.out ++ eventOut s 3 ∧
      RegsBut s t ([rDie d, 0x040020, 0x040218] ++ errSrc d) ∧ OnlyChanges s t [.regs, .pw, .err, .out])⟩

/-- THERM_STEP of a hot die that is no compute die takes another 5 % off the cap, down to 60 % (R348, R359). -/
abbrev thermStep (s : State) (d : Fin 100) (since : Nat) : Clause :=
  ⟨running s = true ∧ 32 ≤ d.val ∧ s.pw.hotSince = [(d.val, since)] ∧ since + 1000000 ≤ s.time.now ∧ s.pw.held = [] ∧ Canon s,
    Answers (.thermStep d) s (fun t => fieldOf t 0x040020 8 4 = min 8 (fieldOf s 0x040020 8 4 + 1) ∧ fieldOf t 0x040020 32 13 = capEff t / 1000 ∧
      t.pw = { s.pw with hotSince := [(d.val, s.time.now)] } ∧ RegsBut s t [0x040020] ∧ OnlyChanges s t [.regs, .pw])⟩

/-- Of a hot compute die it pauses a quarter of the watts, here the one holder of them (R359). -/
abbrev thermStepPauses (s : State) (d : Fin 100) (since : Nat) (g : Grant) (r : Nat) : Clause :=
  ⟨running s = true ∧ d.val < 32 ∧ s.pw.hotSince = [(d.val, since)] ∧ since + 100000 ≤ s.time.now ∧ s.pw.held = [g] ∧ g.who = .ringCopy r 0 ∧
      g.die = some d.val ∧ g.paused = false ∧ 4 ≤ g.mw ∧ Canon s,
    Answers (.thermStep d) s (fun t =>
      t.pw = { s.pw with hotSince := [(d.val, s.time.now)], held := [{ g with paused := true, hot := true, pausedAt := s.time.now }], hist := t.pw.hist } ∧ GrShown t ∧
      fieldOf t 0x040210 0 32 = min 0xFFFFFFFF (fieldOf s 0x040210 0 32 + 1) ∧ RegsBut s t [0x040018, 0x040210] ∧ OnlyChanges s t [.regs, .pw])⟩

/-- REGION_CHECK beyond the limits of R361 is recorded once per pair. -/
abbrev regionCheck (s : State) (a b : Fin 100) (dT dV : BitVec 8) (ratio : BitVec 10) : Clause :=
  let k := (min a.val b.val, max a.val b.val)
  ⟨running s = true ∧ a ≠ b ∧ dT.toNat ≤ 20 ∧ 17 < dT.toNat ∧ 120 < dV.toNat ∧ dV.toNat ≤ 180 ∧ ratio.toNat ≤ 200 ∧ k ∉ s.pw.pairs ∧
      k ∉ s.pw.vPairs ∧ s.pw.hotPairs = [] ∧ a.val ∉ s.pw.noSensor ∧ (∀ e ∈ s.pw.hotSince, e.1 ≠ a.val) ∧
      (∃ e ∈ s.pw.coolSince, e.1 = a.val) ∧ fieldOf s (rDie a) 0 8 + 3 ≤ throttleC s ∧ EventReady s 0x040020 4 3 ∧ Canon s,
    Answers (.regionCheck a b dT dV ratio) s (fun t =>
      t.pw = { s.pw with pairs := k :: s.pw.pairs, vPairs := s.pw.vPairs ++ [k] } ∧ fieldOf t 0x040020 4 1 = 1 ∧
      fieldOf t 0x040220 0 32 = min 0xFFFFFFFF (fieldOf s 0x040220 0 32 + 1) ∧ Reported s t 0x040A 0 a 0 none 0 0 ∧ t.out = s.out ++ eventOut s 3 ∧
      RegsBut s t ([0x040020, 0x040220] ++ errSrc a) ∧ OnlyChanges s t [.regs, .pw, .err, .out])⟩

/-- A severe one holds the module in reset and asks for a cold reset with cause 5 (R361). -/
abbrev regionSevere (s : State) (a b : Fin 100) (dT dV : BitVec 8) (ratio : BitVec 10) : Clause :=
  ⟨running s = true ∧ a ≠ b ∧ (30 < dT.toNat ∨ 180 < dV.toNat ∨ 300 < ratio.toNat) ∧ Canon s,
    Answers (.regionCheck a b dT dV ratio) s (fun t => HeldFor s t 5 0 0x040B a ∧ t.mod.coldReq = some 5)⟩

/-- The slacks of a die's monitors that report, as the state holds them (R362). -/
abbrev monitorOf (s : State) (d m : Nat) : Nat × Nat := tget (0, 100) s.pw.monitors (d * 64 + m)

/-- AGE_MONITOR_REPORT records a monitor's slack; the die shows its least; below SLACK_MIN a pass over the die is wanted (R362, R363). -/
abbrev ageMonitorReport (s : State) (d : Fin 100) (m : BitVec 6) (slack : BitVec 7) : Clause :=
  ⟨running s = true ∧ m.toNat < monitorsOf d ∧ 0 < slack.toNat ∧ slack.toNat < 63 ∧ (∀ k, k < 64 → monitorOf s d k = (0, 100)) ∧
      s.pw.planWanted = [] ∧ Canon s,
    Answers (.ageMonitorReport d m slack) s (fun t => fieldOf t (rDie d) 32 6 = slack.toNat ∧
      t.pw = { s.pw with monitors := tput (0, 100) s.pw.monitors (d * 64 + m.toNat) (0, slack.toNat),
                         planWanted := if slack.toNat < slackMin s then [d.val] else [] } ∧
      RegsBut s t [rDie d] ∧ OnlyChanges s t [.regs, .pw])⟩

/-- MARGIN_PLANNER_PASS over a die that has its target slack changes nothing about it; the last die of a pass counts it (R363, R364). -/
abbrev marginPlannerPass (s : State) (d : Fin 100) (x : BitVec 6) : Clause :=
  ⟨running s = true ∧ s.pw.planWanted = [d.val] ∧ slackTgt s ≤ x.toNat ∧ Canon s,
    Answers (.marginPlannerPass d [x]) s (fun t => fieldOf t (rDie d) 32 6 = x.toNat ∧ fieldOf t (rDie d) 8 6 = fieldOf s (rDie d) 8 6 ∧
      fieldOf t (rDie d) 14 12 = fieldOf s (rDie d) 14 12 ∧ t.pw = { s.pw with planWanted := [] } ∧ t.mod = { s.mod with planned := true } ∧
      fieldOf t 0x040050 32 16 = (fieldOf s 0x040050 32 16 + 1) % 2 ^ 16 ∧ RegsBut s t [rDie d, 0x040050] ∧ OnlyChanges s t [.regs, .pw, .mod])⟩

/-- Without it the supply rises by 5 mV, 10 µs before the next measurement (R364). -/
abbrev marginPlannerRaises (s : State) (d : Fin 100) (x y : BitVec 6) : Clause :=
  ⟨running s = true ∧ s.pw.planWanted = [d.val] ∧ x.toNat < slackTgt s ∧ slackTgt s ≤ y.toNat ∧ fieldOf s (rDie d) 8 6 + 5 ≤ vmaxAdd s ∧ Canon s,
    Answers (.marginPlannerPass d [x, y]) s (fun t => fieldOf t (rDie d) 8 6 = fieldOf s (rDie d) 8 6 + 5 ∧ fieldOf t (rDie d) 32 6 = y.toNat ∧
      fieldOf t (rDie d) 14 12 = fieldOf s (rDie d) 14 12 ∧ t.time.now = s.time.now + 10000 ∧
      fieldOf t 0x040220 32 32 = min 0xFFFFFFFF (fieldOf s 0x040220 32 32 + 1) ∧ t.pw = { s.pw with planWanted := [] } ∧
      RegsBut s t [rDie d, 0x040050, 0x040220] ∧ OnlyChanges s t [.regs, .pw, .mod, .time])⟩

/-- PLAN_NOW wants a pass over every die that has monitors (R363). -/
abbrev planNow (s : State) (w : Wr) : Clause :=
  ⟨ByOwner s w.path ∧ wrBits w 48 1 = 1 ∧ Canon s,
    Answers (.planNow w) s (fun t => t.pw = { s.pw with planWanted := monitored } ∧ RegsBut s t [0x040048] ∧ OnlyChanges s t [.regs, .pw])⟩

/-- OP_HOURS_TICK counts an hour; every 720th wants a planner pass (R363). -/
abbrev opHoursTick (s : State) : Clause :=
  ⟨s.mod.phase = .ready ∧ Canon s,
    Answers .opHoursTick s (fun t => t.nv = { s.nv with opHours := s.nv.opHours + 1 } ∧ fieldOf t 0x040050 0 32 = (s.nv.opHours + 1).toNat ∧
      t.pw = { s.pw with planWanted := if (s.nv.opHours + 1).toNat % 720 = 0 then monitored else s.pw.planWanted } ∧
      RegsBut s t [0x040050] ∧ OnlyChanges s t [.nv, .regs, .pw])⟩

end Sys2Proof.Claims

open Sys2Proof.Claims in
/-- The power grant unit. -/
def Obligations.PowerGrants : Prop :=
  ∀ (s : State) (g r : Grant) (h tag n : Nat) (p : Fin 64) (c : Fin 2048) (w avg : BitVec 16) (cmd : Cmd) (i : Iss) (slot : Nat)
    (x : AsyncCmd) (am bm cm : Mdesc),
    (pguGrant s g h tag n).Holds ∧ (pguGrantGmm s g cmd i slot x am bm cm).Holds ∧
      (pguGrantReserved s g r h tag n).Holds ∧ (pguGrantWaits s g).Holds ∧ (pguReservationExpiry s p g).Holds ∧
      (pguResume s g).Holds ∧ (coreWake s c g).Holds ∧ (pguBaseUpdate s w avg).Holds ∧ (pwrPeak s w g n).Holds

open Sys2Proof.Claims in
/-- The input, rails, coolant, sensors and temperatures. -/
def Obligations.SupplyAndThermal : Prop :=
  ∀ (s : State) (c : Instr) (cause rail code die since n : Nat) (mv : BitVec 16) (w : Wr) (inlet flow : BitVec 12) (x : Sensor) (bit : Nat)
    (d b : Fin 100) (temp dT dV : BitVec 8) (ratio : BitVec 10) (g : Grant),
    (holdsModule s c cause rail code die).Holds ∧ (heldEnds s c cause).Holds ∧ (inputPowerLoss s mv).Holds ∧ (inputPowerUp s mv).Holds ∧
      (railLatchClear s).Holds ∧ (sagWarn s mv).Holds ∧ (sagWarnClear s mv).Holds ∧ (pwrSagWrite s w).Holds ∧ (coolantLow s inlet flow).Holds ∧
      (coolantLowClear s inlet flow).Holds ∧ (sensorFault s x bit).Holds ∧ (sensorInput s).Holds ∧ (thermSample s d temp).Holds ∧
      (thermHot s d temp).Holds ∧ (thermStep s d since).Holds ∧ (thermStepPauses s d since g n).Holds ∧ (regionCheck s d b dT dV ratio).Holds ∧
      (regionSevere s d b dT dV ratio).Holds

open Sys2Proof.Claims in
/-- Ageing monitors and the margin planner. -/
def Obligations.AgeingAndMargins : Prop :=
  ∀ (s : State) (d : Fin 100) (m : BitVec 6) (slack : BitVec 7) (x y : BitVec 6) (w : Wr),
    (ageMonitorReport s d m slack).Holds ∧ (marginPlannerPass s d x).Holds ∧ (marginPlannerRaises s d x y).Holds ∧ (planNow s w).Holds ∧
      (opHoursTick s).Holds

/-! ## Errors, resets, the boot, firmware and the life cycle (R16, R48, R254, R369–R393, R423) -/

namespace Sys2Proof.Claims

/-- A report as an open record (R376). -/
def recordFor (r : Report) (count ft : Nat) : OpenRec := { rep := r, count, ftLast := ft }

/-- ERROR_REPORT of a source and code without an open record opens one (R376). -/
abbrev errorReport (s : State) (r : Report) (rest : List Report) : Clause :=
  ⟨s.err.inflight = r :: rest ∧ min 4 (fieldOf s 0x080008 4 3) ≤ r.sev ∧ (∀ x ∈ s.err.recs, sameSource x.rep r = false) ∧ s.err.recs.length < 256,
    exec .errorReport s = .next { s with err := { s.err with inflight := rest, recs := s.err.recs ++ [recordFor r 1 r.ft] } }⟩

/-- One with an open record is merged into it: its count and last time follow (R376). -/
abbrev errorReportMerges (s : State) (r : Report) (rest : List Report) (x : OpenRec) : Clause :=
  ⟨s.err.inflight = r :: rest ∧ min 4 (fieldOf s 0x080008 4 3) ≤ r.sev ∧ s.err.recs = [x] ∧ sameSource x.rep r = true,
    exec .errorReport s = .next { s with err :=
      { s.err with inflight := rest, recs := [{ x with count := min 0xFFFFFFFF (x.count + 1), ftLast := r.ft }] } }⟩

/-- One below MIN_SEV is dropped (R376, R383). -/
abbrev errorReportDropped (s : State) (r : Report) (rest : List Report) : Clause :=
  ⟨s.err.inflight = r :: rest ∧ r.sev < min 4 (fieldOf s 0x080008 4 3),
    exec .errorReport s = .next { s with err := { s.err with inflight := rest } }⟩

/-- A word of a slot of the ERQ. -/
abbrev slotWord (s : State) (slot w : Nat) : Nat := memNat s (erqBase s + 64 * slot + 8 * w) 8

/-- The record in a slot, in the layout of R377. -/
abbrev SlotHolds (s : State) (slot seq : Nat) (r : OpenRec) : Prop :=
  slotWord s slot 0 = seq ∧ slotWord s slot 1 = r.rep.ft ∧ slotWord s slot 2 = r.ftLast ∧
    slotWord s slot 3 = (r.rep.code ||| r.rep.sev <<< 16 ||| r.rep.die <<< 24 ||| r.rep.unit <<< 32 ||| (r.rep.part.getD 0) <<< 48 |||
      (if r.rep.part.isSome then 1 else 0) <<< 54) ∧
    slotWord s slot 4 = r.count ∧ slotWord s slot 5 = r.rep.addr ∧ slotWord s slot 6 = r.rep.detail ∧ slotWord s slot 7 = 0

/-- The fields of a record are within their widths. -/
abbrev RecFits (r : OpenRec) : Prop :=
  r.rep.ft < 2 ^ 64 ∧ r.ftLast < 2 ^ 64 ∧ r.rep.code < 2 ^ 16 ∧ r.rep.sev < 4 ∧ r.rep.die < 128 ∧ r.rep.unit < 2 ^ 16 ∧ r.rep.part.getD 0 < 64 ∧
    r.count < 2 ^ 32 ∧ r.rep.addr < 2 ^ 64 ∧ r.rep.detail < 2 ^ 64

/-- ERR_RECORD_CLOSE, 1,000 ns after the first report: with a free slot in the ring the record takes the next SEQ, lies at the tail and in slot 8,191
(LATEST), and the tail moves on; below IRQ_MIN_SEV it interrupts nobody (R376–R379). -/
abbrev errRecordClose (s : State) (r : OpenRec) : Clause :=
  let tail := (regOf s 0x080010).toNat
  let head := (regOf s 0x080018).toNat
  ⟨s.err.recs = [r] ∧ r.rep.ft + 1000 ≤ ftNs s ∧ fieldOf s 0x080008 0 1 = 1 ∧ s.err.slot0Free = false ∧ head ≤ tail ∧ tail - head < 8190 ∧
      tail + 1 < 2 ^ 64 ∧ s.err.seq + 1 < 2 ^ 64 ∧ r.rep.sev < fieldOf s 0x080008 8 3 ∧ inSram (erqBase s) = true ∧ RecFits r ∧ s.fab.dir = [] ∧
      CleanMem s ∧ Canon s,
    Answers .errRecordClose s (fun t => t.err = { s.err with recs := [], seq := s.err.seq + 1 } ∧ SlotHolds t (1 + tail % 8190) (s.err.seq + 1) r ∧
      SlotHolds t 8191 (s.err.seq + 1) r ∧ regOf t 0x080010 = BitVec.ofNat 64 (tail + 1) ∧
      (∀ a, (a < erqBase s + 64 * (1 + tail % 8190) ∨ erqBase s + 64 * (1 + tail % 8190) + 64 ≤ a) →
        (a < erqBase s + 64 * 8191 ∨ erqBase s + 64 * 8192 ≤ a) → memAt t a = memAt s a) ∧
      RegsBut s t [0x080010] ∧ OnlyChanges s t [.err, .mem, .regs])⟩

/-- A full ring keeps its records: the new one is counted in ERQ_LOST, and is LATEST all the same (R377, R378). -/
abbrev errRecordDropped (s : State) (r : OpenRec) : Clause :=
  let tail := (regOf s 0x080010).toNat
  let head := (regOf s 0x080018).toNat
  ⟨s.err.recs = [r] ∧ r.rep.ft + 1000 ≤ ftNs s ∧ fieldOf s 0x080008 0 1 = 1 ∧ s.err.slot0Free = false ∧ tail - head = 8190 ∧
      s.err.seq + 1 < 2 ^ 64 ∧ inSram (erqBase s) = true ∧ RecFits r ∧ s.fab.dir = [] ∧ CleanMem s ∧ Canon s,
    Answers .errRecordClose s (fun t => t.err = { s.err with recs := [], seq := s.err.seq + 1 } ∧ SlotHolds t 8191 (s.err.seq + 1) r ∧
      fieldOf t 0x080020 0 32 = min 0xFFFFFFFF (fieldOf s 0x080020 0 32 + 1) ∧ MemBut s t (erqBase s + 64 * 8191) 64 ∧
      RegsBut s t [0x080020] ∧ OnlyChanges s t [.err, .mem, .regs])⟩

/-- With the ERQ disabled it is counted, and stored nowhere (R378). -/
abbrev errRecordOff (s : State) (r : OpenRec) : Clause :=
  ⟨s.err.recs = [r] ∧ r.rep.ft + 1000 ≤ ftNs s ∧ fieldOf s 0x080008 0 1 = 0 ∧ r.rep.sev < 4 ∧ Canon s,
    Answers .errRecordClose s (fun t => t.err = { s.err with recs := [], seq := s.err.seq + 1 } ∧
      fieldOf t 0x080020 0 32 = min 0xFFFFFFFF (fieldOf s 0x080020 0 32 + 1) ∧ RegsBut s t [0x080020] ∧ OnlyChanges s t [.err, .regs])⟩

/-- ERQ_IRQ_HOLDOFF_END sends the interrupt that the holdoff held back (R379). -/
abbrev erqIrqHoldoffEnd (s : State) (since : Nat) : Clause :=
  ⟨s.err.lastIrq = some since ∧ s.err.irqDue = true ∧ since + fieldOf s 0x080008 32 20 * 1000 ≤ s.time.now ∧ (true, 0, 0) ∉ s.host.masked,
    exec .erqIrqHoldoffEnd s = .next { s with
      err := { s.err with lastIrq := some s.time.now, irqDue := false }, out := s.out ++ eventOut s 0 ++ [.notice 1 0] }⟩

/-- A write of ERR_CTRL as it is stored. -/
def errCtrlNew (s : State) (w : Wr) : Nat :=
  let v := plainWrite 0x080008 (regOf s 0x080008).toNat w
  setBits v 32 20 (min 1000000 (max 1 (bitsOf v 32 20)))

/-- ERQ_EN from 0 to 1 takes the queue as empty, and slot 0 takes the next record (R377, R383). -/
abbrev errCtrlErqEn (s : State) (w : Wr) : Clause :=
  ⟨ByOwner s w.path ∧ fieldOf s 0x080008 0 1 = 0 ∧ bitsOf (errCtrlNew s w) 0 1 = 1 ∧ wrBits w 2 1 = 0 ∧ Canon s,
    Answers (.errCtrlErqEn w) s (fun t => regOf t 0x080008 = BitVec.ofNat 64 (errCtrlNew s w) ∧ regOf t 0x080018 = regOf s 0x080010 ∧
      t.err = { s.err with slot0Free := true } ∧ RegsBut s t [0x080008, 0x080018] ∧ OnlyChanges s t [.regs, .err])⟩

/-- FIRST_CLR lets slot 0 take the next record, DEVICE_CLR clears DEVICE_EVT (R377, R383). -/
abbrev errClears (s : State) (w : Wr) (c : Instr) : Clause :=
  ⟨((c = .errFirstClr w ∧ wrBits w 1 1 = 1) ∨ (c = .errDeviceClr w ∧ wrBits w 2 1 = 1)) ∧ ByOwner s w.path ∧
      bitsOf (errCtrlNew s w) 0 1 = fieldOf s 0x080008 0 1 ∧ Canon s,
    Answers c s (fun t => regOf t 0x080008 = BitVec.ofNat 64 (errCtrlNew s w) ∧
      t.err = { s.err with slot0Free := s.err.slot0Free || wrBits w 1 1 == 1 } ∧
      (if wrBits w 2 1 = 1 then fieldOf t 0x080028 0 1 = 0 ∧ fieldOf t 0x080028 1 63 = fieldOf s 0x080028 1 63
       else regOf t 0x080028 = regOf s 0x080028) ∧
      RegsBut s t [0x080008, 0x080028] ∧ OnlyChanges s t [.regs, .err])⟩

/-- ERR_ERQ_HEAD_WRITE up to the tail frees slots; beyond it the write is discarded (R378, R383). -/
abbrev errErqHeadWrite (s : State) (w : Wr) : Clause :=
  ⟨ByOwner s w.path ∧ w.half = .all ∧ Canon s,
    exec (.errErqHeadWrite w) s = .next (if w.val.toNat ≤ (regOf s 0x080010).toNat then s.setReg 0x080018 w.val.toNat else s)⟩

/-- MIRROR_TAKEOVER: the mirror goes on with the state of the die that failed, and MIRROR_TAKEOVER names it (R16, R371). -/
abbrev mirrorTakeover (s : State) (p : Pair) : Clause :=
  ⟨s.mod.phase ≠ .off ∧ pairUp s p = (true, true) ∧ Canon s,
    Answers (.mirrorTakeover p) s (fun t => pairUp t p = (false, true) ∧ Reported s t 0x0001 1 (pairDies p).2 0 none 0 0 ∧
      RegsBut s t (errSrc (pairDies p).2) ∧ OnlyChanges s t [.mod, .err, .regs])⟩

/-- DIE_READY_REPORT: when the last of the 100 dies is ready, the tick chosen is the first multiple of 10,240 ns at least 1 µs later (R48). -/
abbrev dieReadyReport (s : State) (d : Fin 100) : Clause :=
  let l := d.val :: s.mod.readyDies
  ⟨aligning s = true ∧ d.val ∉ s.mod.readyDies,
    exec (.dieReadyReport d) s = .next { s with mod := { s.mod with
      readyDies := l
      alignAt := if l.length = 100 then some ((s.time.now + 1000 + 10239) / 10240 * 10240) else none } }⟩

/-- ALIGN_TICK of a cold reset: FT counts from 0 (R48). -/
abbrev alignTick (s : State) (at_ : Nat) : Clause :=
  ⟨s.mod.alignAt = some at_ ∧ at_ ≤ s.time.now ∧ s.mod.phase = .boot,
    exec .alignTick s = .next { s with
      mod := { s.mod with aligned := true, alignAt := none, alignedAt := at_ }
      time := { s.time with ft := 0, running := true } }⟩

/-- ALIGN_LATENCY_RECORD records the crossings, and 0 in the entries that have none (R48, R408). -/
abbrev alignLatencyRecord (s : State) (l : List (Fin 100 × Fin 100 × BitVec 16)) : Clause :=
  ⟨l.length ≤ 512 ∧ s.mod.aligned = true ∧ s.mod.latRecorded = false ∧ s.mod.alignedAt + 1000 ≤ s.time.now ∧ Canon s,
    Answers (.alignLatencyRecord l) s (fun t => t.mod = { s.mod with latRecorded := true } ∧
      (∀ n, n < 512 → regOf t (0x061000 + 8 * n) =
        match l[n]? with
        | some (a, b, c) => BitVec.ofNat 64 (a.val ||| b.val <<< 8 ||| c.toNat <<< 16 ||| 1 <<< 32)
        | none => 0) ∧
      (∀ off, (∀ n, n < 512 → off ≠ 0x061000 + 8 * n) → regOf t off = regOf s off) ∧ OnlyChanges s t [.mod, .regs])⟩

/-- The module in DIAG: the PCIe and CXL links are down (R388). -/
abbrev InDiag (t : State) (site : Option Nat) : Prop :=
  t.mod.phase = .diag ∧ t.mod.diagSite = site ∧ fieldOf t 0x020000 4 1 = 1 ∧ fieldOf t 0x110000 0 9 = 0 ∧
    (∀ n, n < 4 → fieldOf t (0x200020 + 8 * n) 0 6 = 0)

/-- ALIGN_READY_TIMEOUT: the alignment starts again, twice (R48). -/
abbrev alignReadyTimeout (s : State) : Clause :=
  ⟨aligning s = true ∧ s.mod.alignAt = none ∧ s.mod.alignFails < 2,
    exec .alignReadyTimeout s = .next { s with mod := { s.mod with alignFails := s.mod.alignFails + 1, readyDies := [] } }⟩

/-- The third time the module goes to DIAG with the site of the lowest die that is not ready (R48, R388). -/
abbrev alignFails (s : State) : Clause :=
  ⟨aligning s = true ∧ s.mod.alignAt = none ∧ s.mod.alignFails = 2 ∧ Canon s,
    Answers .alignReadyTimeout s (fun t => InDiag t ((List.range 100).find? (fun d => !s.mod.readyDies.contains d)) ∧
      RegsBut s t [0x110000, 0x200020, 0x200028, 0x200030, 0x200038, 0x020000] ∧ OnlyChanges s t [.mod, .regs])⟩

/-- COLD_RESET that was asked for: nothing runs, every register but the cause reads as after reset or as its fuses say, and the boot begins (R384–R386,
R409). -/
abbrev coldReset (s : State) (cause v : Nat) : Clause :=
  ⟨s.mod.coldReq = some cause ∧ cause < 16 ∧ s.nv.lcPending = none ∧ (s.nv.sealedIn = none ∨ s.nv.sealedIn = some s.nv.lcState) ∧ s.nv.cfg = [(true, v), (true, v), (true, v)] ∧ Canon s,
    Answers .coldReset s (fun t => t.mod = { phase := .boot, mgUp := s.mod.mgUp, pcUp := s.mod.pcUp } ∧ Stopped t ∧ t.own = {} ∧
      t.time.running = false ∧ t.nv = s.nv ∧ t.mem = s.mem ∧ regOf t 0x040038 = BitVec.ofNat 64 cause ∧
      fieldOf t 0x020000 3 1 = 0 ∧ fieldOf t 0x020000 0 3 = s.nv.lcState % 8 ∧ fieldOf t 0x080028 1 1 = (if s.err.fatalNew then 1 else 0))⟩

/-- A life-cycle transition that waits is applied by it: its keys go, and its tier-3 wipe begins (R392, R393). -/
abbrev coldResetTransition (s : State) (cause to_ v : Nat) : Clause :=
  ⟨s.mod.coldReq = some cause ∧ s.nv.lcPending = some to_ ∧ to_ < 8 ∧ s.nv.cfg = [(true, v), (true, v), (true, v)] ∧ Canon s,
    Answers .coldReset s (fun t => t.nv.lcState = to_ ∧ t.nv.lcPending = none ∧ t.nv.caks = [] ∧ t.nv.mgmtKeys = [] ∧ t.nv.sealedIn = none ∧ t.nv.wipeMark = some 0 ∧
      t.nv.lcLeft = (if lcBurns s.nv.lcState to_ then s.nv.lcLeft - 1 else s.nv.lcLeft) ∧ t.nv.udsBlown = (s.nv.udsBlown || to_ == 4) ∧
      t.nv.ownerKeysFused = (s.nv.ownerKeysFused || (s.nv.lcState == 1 && to_ == 2)) ∧
      fieldOf t 0x020000 0 3 = to_ ∧ t.mod.phase = .boot)⟩

/-- A key store that is sealed in another state than the device's does not open: it is empty from then on, and FW_IMAGE_BAD is raised, once
(R395). -/
abbrev coldResetSealed (s : State) (cause v x : Nat) : Clause :=
  ⟨s.mod.coldReq = some cause ∧ s.nv.lcPending = none ∧ s.nv.sealedIn = some x ∧ x ≠ s.nv.lcState ∧
      s.nv.cfg = [(true, v), (true, v), (true, v)] ∧ Canon s,
    Answers .coldReset s (fun t => t.nv = { s.nv with caks := [], mgmtKeys := [], lastSeq := [], sealedIn := none } ∧ t.mod.phase = .boot ∧
      (t.err.inflight.map (fun r => (r.code, r.sev, r.die))) = [(0x0201, 1, dieMG)])⟩

/-- WARM_RESET stops everything, clears all but what R409 keeps, and shows cause 7 (R384, R385, R409). -/
abbrev warmReset (s : State) : Clause :=
  ⟨s.mod.warmReq = true ∧ s.mod.coldReq = none ∧ s.mod.phase = .ready ∧ Canon s,
    Answers .warmReset s (fun t => t.mod.phase = .warm ∧ t.mod.warmReq = false ∧ t.mod.aligned = false ∧ t.mod.readyDies = [] ∧ Stopped t ∧
      regOf t 0x040038 = 7 ∧ fieldOf t 0x020000 3 1 = 0 ∧ t.own = s.own ∧ t.nv = s.nv ∧ t.time = s.time ∧ t.mem = s.mem ∧
      (∀ off, warmKeeps off = true → off ∉ [0x020000, 0x040038] → regOf t off = regOf s off) ∧
      (∀ off, warmKeeps off = false → off ∉ [0x080018, 0x080028] → regOf t off = resetWord off) ∧ regOf t 0x080018 = regOf s 0x080010)⟩

/-- LCS_RESET_COLD and LCS_RESET_WARM ask for their reset (R384, R385). -/
abbrev lcsReset (s : State) (w : Wr) (c : Instr) : Clause :=
  ⟨ByOwner s w.path ∧ s.mod.phase = .ready ∧ ((c = .lcsResetCold w ∧ wrBits w 0 1 = 1) ∨ (c = .lcsResetWarm w ∧ wrBits w 0 1 = 0 ∧ wrBits w 1 1 = 1)),
    exec c s = .next { s with mod := if wrBits w 0 1 = 1 then { s.mod with coldReq := some 6 } else { s.mod with warmReq := true } }⟩

/-- FW_IMAGE_CHECK of an image that is accepted: it runs, and LCS_STATUS shows its slot, its SVN and whether it is the fallback (R387, R400). -/
abbrev fwImageCheck (s : State) (i : FwImage) : Clause :=
  let first := s.mod.fwTried == 0
  let slotB := if first then s.nv.activeSlotB else !s.nv.activeSlotB
  ⟨s.mod.phase = .boot ∧ s.mod.fwDone = false ∧ fwAccepted s i = true ∧ Canon s,
    Answers (.fwImageCheck i) s (fun t => t.mod = { s.mod with fwDone := true, fwSlotB := slotB, fwDigest := i.digest } ∧
      fieldOf t 0x020000 5 1 = (if slotB then 1 else 0) ∧ fieldOf t 0x020000 6 1 = (if first then 0 else 1) ∧
      fieldOf t 0x020000 16 6 = i.svn.toNat ∧ RegsBut s t [0x020000] ∧ OnlyChanges s t [.mod, .regs])⟩

/-- The active slot's image refused, the other one is tried, and FW_IMAGE_BAD is raised (R387). -/
abbrev fwImageBad (s : State) (i : FwImage) : Clause :=
  ⟨s.mod.phase = .boot ∧ s.mod.fwDone = false ∧ fwAccepted s i = false ∧ s.mod.fwTried = 0 ∧ Canon s,
    Answers (.fwImageCheck i) s (fun t => t.mod = { s.mod with fwTried := 1 } ∧ Reported s t 0x0201 1 dieMG 0 none 0 0 ∧
      RegsBut s t (errSrc dieMG) ∧ OnlyChanges s t [.mod, .err, .regs])⟩

/-- With neither accepted the module goes to DIAG (R387, R388). -/
abbrev fwImagesBad (s : State) (i : FwImage) : Clause :=
  ⟨s.mod.phase = .boot ∧ s.mod.fwDone = false ∧ fwAccepted s i = false ∧ s.mod.fwTried = 1 ∧ Canon s,
    Answers (.fwImageCheck i) s (fun t => InDiag t none)⟩

/-- MEM_TRAINING that succeeds wants the planner's first pass; a failure is tried twice more (R254, R363). -/
abbrev memTraining (s : State) (ok : Bool) (site : Fin 100) : Clause :=
  ⟨s.mod.phase = .boot ∧ s.mod.fwDone = true ∧ s.mod.aligned = true ∧ s.mod.trained = false ∧ s.mod.trainFails < 2 ∧ s.nv.wipeMark = none,
    exec (.memTraining ok site) s = .next (if ok then { s with mod := { s.mod with trained := true }, pw := { s.pw with planWanted := monitored } }
      else { s with mod := { s.mod with trainFails := s.mod.trainFails + 1 } })⟩

/-- The third failure of a site takes the module to DIAG (R254, R388). -/
abbrev memTrainingFails (s : State) (site : Fin 100) : Clause :=
  ⟨s.mod.phase = .boot ∧ s.mod.fwDone = true ∧ s.mod.aligned = true ∧ s.mod.trained = false ∧ s.mod.trainFails = 2 ∧ Canon s,
    Answers (.memTraining false site) s (fun t => InDiag t (some site.val) ∧
      (60 ≤ site.val → site.val < 76 → fieldOf t 0x200000 (site - 60) 1 = 0))⟩

/-- BOOT_READY: all memory but tier 3 reads 0, LCS_STATUS shows READY, and the host and the BMC are told (R384, R386). -/
abbrev bootReady (s : State) : Clause :=
  ⟨wipesDue s = true ∧ s.nv.wipeMark = none ∧ (true, 0, 7) ∉ s.host.masked ∧ Canon s,
    Answers (.bootReady true) s (fun t => t.mod = { s.mod with phase := .ready } ∧ fieldOf t 0x020000 3 1 = 1 ∧
      (∀ a, memAt t a = if tierOf a = .t3 then memAt s a else 0) ∧ t.out = s.out ++ eventOut s 7 ∧
      OnlyChanges s t [.mod, .mem, .mem2, .regs, .out])⟩

/-- A wipe that fails takes the module to DIAG (R386, R388). -/
abbrev bootWipeFails (s : State) : Clause :=
  ⟨wipesDue s = true ∧ Canon s, Answers (.bootReady false) s (fun t => InDiag t none)⟩

/-- A write of LCS_CTRL as it is stored. -/
def lcsCtrlNew (s : State) (w : Wr) : Nat :=
  let v := plainWrite 0x020020 (regOf s 0x020020).toNat w
  setBits v 16 32 (min 86400 (max 60 (bitsOf v 16 32)))

/-- FW_WRITE of an image in tier 1 that is accepted: MG0 is busy with it (R390). -/
abbrev fwWrite (s : State) (w : Wr) (i : FwImage) : Clause :=
  ⟨ByOwner s w.path ∧ wrBits w 0 3 = 1 ∧ s.mod.fwBusy = false ∧ fwAccepted s i = true ∧ tierOf (fieldOf s 0x020028 12 40 * 4096) = .t1 ∧ Canon s,
    Answers (.fwWrite w i) s (fun t => t.mod = { s.mod with fwBusy := true, fwStaged := some (i.digest, i.svn.toNat) } ∧
      regOf t 0x020020 = BitVec.ofNat 64 (lcsCtrlNew s w) ∧ RegsBut s t [0x020020] ∧ OnlyChanges s t [.mod, .regs])⟩

/-- One that is not accepted sets FW_ERR (R390, R400). -/
abbrev fwWriteBad (s : State) (w : Wr) (i : FwImage) : Clause :=
  ⟨ByOwner s w.path ∧ wrBits w 0 3 = 1 ∧ s.mod.fwBusy = false ∧ fwAccepted s i = false ∧ Canon s,
    Answers (.fwWrite w i) s (fun t => fieldOf t 0x020000 31 1 = 1 ∧ RegsBut s t [0x020020, 0x020000] ∧ OnlyChanges s t [.regs])⟩

/-- FW_WRITE_DONE leaves the image in the slot that does not run, or FW_ERR where it reads back wrong (R390). -/
abbrev fwWriteDone (s : State) (ok : Bool) (x : BitVec 384 × Nat) : Clause :=
  ⟨s.mod.fwStaged = some x ∧ Canon s,
    Answers (.fwWriteDone ok) s (fun t => t.mod = { s.mod with fwBusy := false, fwStaged := none } ∧
      (if ok then (if s.mod.fwSlotB then t.nv.slotA = x ∧ t.nv.slotB = s.nv.slotB else t.nv.slotB = x ∧ t.nv.slotA = s.nv.slotA) ∧
         RegsBut s t [] else t.nv = s.nv ∧ fieldOf t 0x020000 31 1 = 1 ∧ RegsBut s t [0x020000]) ∧
      OnlyChanges s t [.mod, .nv, .regs])⟩

/-- FW_ACTIVATE names the slot that does not run for the next boot (R390). -/
abbrev fwActivate (s : State) (w : Wr) : Clause :=
  ⟨ByOwner s w.path ∧ wrBits w 0 3 = 2 ∧ s.mod.fwBusy = false ∧ Canon s,
    Answers (.fwActivate w) s (fun t => t.nv = { s.nv with activeSlotB := !s.mod.fwSlotB } ∧ t.mod = s.mod ∧ RegsBut s t [0x020020] ∧
      OnlyChanges s t [.nv, .regs, .freeIdx])⟩

/-- An update or activation while MG0 is busy with one is refused (R390). -/
abbrev fwBusyRefused (s : State) (w : Wr) : Clause :=
  ⟨ByOwner s w.path ∧ wrBits w 0 3 = 2 ∧ s.mod.fwBusy = true ∧ Canon s,
    Answers (.fwActivate w) s (fun t => t.nv = s.nv ∧ fieldOf t 0x010060 0 32 = min 0xFFFFFFFF (fieldOf s 0x010060 0 32 + 1) ∧
      Reported s t 0x0101 0 96 0 none 0 0)⟩

/-- SVN_COMMIT burns the running image's SVN, never a lower one (R390, R391). -/
abbrev svnCommit (s : State) (w : Wr) : Clause :=
  let v := max s.nv.svnFused (fieldOf s 0x020000 16 6)
  ⟨ByOwner s w.path ∧ wrBits w 0 3 = 4 ∧ s.nv.svnFused < 64 ∧ Canon s,
    Answers (.svnCommit w) s (fun t => t.nv = { s.nv with svnFused := v } ∧ fieldOf t 0x020000 8 6 = v ∧ t.mod = s.mod ∧
      RegsBut s t [0x020020, 0x020000] ∧ OnlyChanges s t [.nv, .regs, .freeIdx])⟩

/-- LCS_REQ with a signed authorisation records a transition that R392 allows for the next cold reset; the nonce is new in any case. -/
abbrev lcsReq (s : State) (w : Wr) : Clause :=
  let to_ := wrBits w 0 3
  ⟨ByOwner s w.path ∧ w.half = .all ∧ wrBits w 3 1 = 1 ∧ s.nv.lcPending = none ∧ inSram (wrBits w 12 52) = true ∧
      lcAllowed s.nv.lcState to_ s.nv.lcLeft = true ∧ Canon s,
    Answers (.lcsReq w true) s (fun t => t.nv = { s.nv with lcPending := some to_ } ∧ fieldOf t 0x020000 7 1 = 1 ∧
      regOf t 0x020010 = Config.freeWord s.freeIdx ∧ t.freeIdx = s.freeIdx + 1 ∧ RegsBut s t [0x020010, 0x020000] ∧
      OnlyChanges s t [.nv, .regs, .freeIdx])⟩

/-- Without authorisation, or for a transition that does not exist, it is refused (R392). -/
abbrev lcsReqRefused (s : State) (w : Wr) (auth : Bool) : Clause :=
  ⟨ByOwner s w.path ∧ w.half = .all ∧ wrBits w 3 1 = 1 ∧
      (auth = false ∨ s.nv.lcPending.isSome = true ∨ lcAllowed s.nv.lcState (wrBits w 0 3) s.nv.lcLeft = false) ∧ Canon s,
    Answers (.lcsReq w auth) s (fun t => t.nv = s.nv ∧ fieldOf t 0x010060 0 32 = min 0xFFFFFFFF (fieldOf s 0x010060 0 32 + 1) ∧
      Reported s t 0x0101 0 96 0 none 0 0 ∧ RegsBut s t (0x020010 :: 0x010060 :: errSrc 96) ∧ OnlyChanges s t [.regs, .err, .freeIdx])⟩

/-- The transitions of R392, from one state to another: PROVISIONED to nothing but DEPLOYED and RETIRED, DEPLOYED to SERVICE and back while fuses are
left, RETIRED to nothing but itself. -/
def transitions : List (Nat × Nat) := [(0, 1), (1, 2), (0, 4), (1, 4), (2, 4), (3, 4), (4, 4), (2, 3), (3, 2)]

end Sys2Proof.Claims

open Sys2Proof.Claims in
/-- Error reports, records, the ERQ and its registers. -/
def Obligations.ErrorRecords : Prop :=
  ∀ (s : State) (r : Report) (rest : List Report) (x : OpenRec) (since : Nat) (w : Wr) (c : Instr),
    (errorReport s r rest).Holds ∧ (errorReportMerges s r rest x).Holds ∧ (errorReportDropped s r rest).Holds ∧ (errRecordClose s x).Holds ∧
      (errRecordDropped s x).Holds ∧ (errRecordOff s x).Holds ∧ (erqIrqHoldoffEnd s since).Holds ∧ (errCtrlErqEn s w).Holds ∧
      (errClears s w c).Holds ∧ (errErqHeadWrite s w).Holds

open Sys2Proof.Claims in
/-- Resets, alignment, and the boot to READY or DIAG. -/
def Obligations.ResetAndBoot : Prop :=
  ∀ (s : State) (p : Pair) (d : Fin 100) (at_ cause v k : Nat) (l : List (Fin 100 × Fin 100 × BitVec 16)) (w : Wr) (c : Instr) (ok : Bool),
    (mirrorTakeover s p).Holds ∧ (dieReadyReport s d).Holds ∧ (alignTick s at_).Holds ∧ (alignLatencyRecord s l).Holds ∧
      (alignReadyTimeout s).Holds ∧ (alignFails s).Holds ∧ (coldReset s cause v).Holds ∧ (coldResetTransition s cause k v).Holds ∧
      (coldResetSealed s cause v k).Holds ∧ (warmReset s).Holds ∧ (lcsReset s w c).Holds ∧ (memTraining s ok d).Holds ∧ (memTrainingFails s d).Holds ∧ (bootReady s).Holds ∧
      (bootWipeFails s).Holds

open Sys2Proof.Claims in
/-- Firmware images, their update, and the life cycle. -/
def Obligations.FirmwareAndLifeCycle : Prop :=
  (∀ (s : State) (i : FwImage) (w : Wr) (ok : Bool) (x : BitVec 384 × Nat),
    (fwImageCheck s i).Holds ∧ (fwImageBad s i).Holds ∧ (fwImagesBad s i).Holds ∧ (fwWrite s w i).Holds ∧ (fwWriteBad s w i).Holds ∧
      (fwWriteDone s ok x).Holds ∧ (fwActivate s w).Holds ∧ (fwBusyRefused s w).Holds ∧ (svnCommit s w).Holds ∧ (lcsReq s w).Holds ∧
      (lcsReqRefused s w ok).Holds) ∧
    (∀ a b left : Nat, a ≤ 4 → b ≤ 4 → 0 < left → (lcAllowed a b left = true ↔ (a, b) ∈ transitions))

/-! ## Two rules of the spec, each stated whole (R43, R184) -/

namespace Sys2Proof.Claims

/-- The step number of partition p counts up by one and wraps from 0xFFFF_FFFF_FFFF to 0; no other partition's moves. -/
abbrev CountsStep (s t : State) (p : Nat) : Prop :=
  (partOf t p).stepNo.toNat = ((partOf s p).stepNo.toNat + 1) % 2 ^ 48 ∧ ∀ q, q ≠ p → (partOf t q).stepNo = (partOf s q).stepNo

/-- A boundary that a firing of the SET takes, whatever else happens at it (R41, R43). -/
abbrev firedBoundaryCounts (s : State) (e : Fin 1024) : Clause :=
  let p := setPart s e
  ⟨Fires s e 2 ∧ paced s p = false ∧ steps s p = true ∧ (partOf s p).held = false ∧ workDone s p = true,
    Answers (.stepBoundary e) s (fun t => CountsStep s t p)⟩

/-- A held boundary that is taken (R42, R43). -/
abbrev heldBoundaryCounts (s : State) (p : Fin 64) : Clause :=
  ⟨(partOf s p).held = true ∧ steps s p = true ∧ workDone s p = true ∧ Canon s, Answers (.heldBoundaryTake p) s (fun t => CountsStep s t p)⟩

/-- A boundary taken at a decision point of PACED mode (R41, R43). -/
abbrev pacedBoundaryCounts (s : State) (p : Fin 64) : Clause :=
  ⟨paced s p = true ∧ steps s p = true ∧ workDone s p = true ∧ (partOf s p).lastBoundary < s.time.now ∧
      (partOf s p).lastBoundary + stepGap s p ≤ (s.time.now + 124) / 125 * 125 ∧ Canon s,
    Answers (.stepDecisionPoint p) s (fun t => CountsStep s t p)⟩

/-- A timeout that has fired does not fire again before a pop (R184). -/
abbrev staleFiresOnce (s : State) (q : Fin 4096) : Clause :=
  ⟨(queueOf s q).staleFired = true, exec (.qStaleTimeout q) s = .next s⟩

/-- An item that finds its queue empty begins the time of the timeout (R184). -/
abbrev pushBeginsStaleTime (s : State) (th : Thr) (w : Cmd) (i : Iss) (ctx : Nat) : Clause :=
  ⟨(qPush s th w i ctx).pre ∧ (queueOf s (cQueue w)).items = [],
    Answers (.qPush th w) s (fun t => (queueOf t (cQueue w)).since = s.time.now ∧ (queueOf t (cQueue w)).items ≠ [])⟩

/-- One that does not find it empty leaves that time as it is (R184). -/
abbrev pushKeepsStaleTime (s : State) (th : Thr) (w : Cmd) (i : Iss) (ctx : Nat) : Clause :=
  ⟨(qPush s th w i ctx).pre ∧ (queueOf s (cQueue w)).items ≠ [],
    Answers (.qPush th w) s (fun t => (queueOf t (cQueue w)).since = (queueOf s (cQueue w)).since ∧
      (queueOf t (cQueue w)).staleFired = (queueOf s (cQueue w)).staleFired)⟩

/-- A pop begins it again, and re-arms the timeout (R184). -/
abbrev popRearmsStaleTime (s : State) (th : Thr) (w : Cmd) (i : Iss) (x : QItem) (rest : List QItem) : Clause :=
  ⟨(qPop s th w i x rest).pre,
    Answers (.qPop th w) s (fun t => (queueOf t (cQueue w)).since = s.time.now ∧ (queueOf t (cQueue w)).staleFired = false)⟩

end Sys2Proof.Claims

open Sys2Proof.Claims in
/-- R43: the step number is 48 bits wide, counts every boundary that is taken, and wraps to 0. -/
def Obligations.StepNumberCountsBoundaries : Prop :=
  ∀ (s : State) (e : Fin 1024) (p : Fin 64), (firedBoundaryCounts s e).Holds ∧ (heldBoundaryCounts s p).Holds ∧ (pacedBoundaryCounts s p).Holds

open Sys2Proof.Claims in
/-- R184: a queue that has stood non-empty for Q_STALE_NS without a pop increments NTF_PIP once; the time runs from the later of the last pop
and the moment it became non-empty, and the next pop re-arms the timeout. -/
def Obligations.QueueStaleTimeout : Prop :=
  ∀ (s : State) (q : Fin 4096) (th : Thr) (w : Cmd) (i : Iss) (x : QItem) (rest : List QItem) (ctx : Nat),
    (qStaleTimeout s q).Holds ∧ (staleFiresOnce s q).Holds ∧ (pushBeginsStaleTime s th w i ctx).Holds ∧ (pushKeepsStaleTime s th w i ctx).Holds ∧
      (popRearmsStaleTime s th w i x rest).Holds
end

