-- ==== Sys2Proof/Laws/Act.lean ====
section
/-!
SUPPORT. How a program runs, step by step, and the two ways to reason about all of its effects at once: a relation that every effect
keeps, and a set of effects that a piece of a program stays within.
-/

namespace Sys2Proof.Machine

/-! ## Running a program -/

@[simp] theorem run_done (s : State) : Prog.run .done s = s := rfl
@[simp] theorem run_look (k : State → Prog) (s : State) : Prog.run (.look k) s = Prog.run (k s) s := rfl
@[simp] theorem run_eff (e : Effect) (k : Prog) (s : State) : Prog.run (.eff e k) s = Prog.run k (e.apply s) := rfl
@[simp] theorem look_apply (k : State → Prog) : (look : Act State) k = .look k := rfl
@[simp] theorem eff_apply (e : Effect) (k : Unit → Prog) : (eff e : Act Unit) k = .eff e (k ()) := rfl
@[simp] theorem pure_apply {α : Type} (x : α) (k : α → Prog) : (pure x : Act α) k = k x := rfl
@[simp] theorem bind_apply {α β : Type} (a : Act α) (f : α → Act β) (k : β → Prog) : (a >>= f) k = a (fun x => f x k) := rfl
@[simp] theorem seqRight_apply {α β : Type} (a : Act α) (b : Act β) (k : β → Prog) : (a *> b) k = a (fun _ => b k) := rfl
@[simp] theorem map_apply {α β : Type} (f : α → β) (a : Act α) (k : β → Prog) : (f <$> a) k = a (fun x => k (f x)) := rfl

theorem ite_act {α : Type} (c : Prop) [Decidable c] (a b : Act α) (k : α → Prog) :
    (if c then a else b : Act α) k = @ite Prog c _ (a k) (b k) := by split <;> rfl

theorem run_ite (c : Prop) [Decidable c] (p q : Prog) (s : State) :
    Prog.run (if c then p else q) s = if c then Prog.run p s else Prog.run q s := by split <;> rfl

/-- A finished program answers the state it leaves. -/
theorem finish_eq (p : Act Unit) (s : State) : finish p s = .next (Prog.run (p (fun _ => .done)) s) := rfl

theorem finishIf_true (p : Act Unit) (s : State) : finishIf true p s = finish p s := rfl
theorem finishIf_false (p : Act Unit) (s : State) : finishIf false p s = .fault .illFormed := rfl

theorem finish_next {p : Act Unit} {s t : State} (h : finish p s = .next t) : t = Prog.run (p (fun _ => .done)) s := by
  injection h with h; exact h.symm

theorem finishIf_next {ok : Bool} {p : Act Unit} {s t : State} (h : finishIf ok p s = .next t) :
    ok = true ∧ t = Prog.run (p (fun _ => .done)) s := by
  cases ok
  · cases h
  · exact ⟨rfl, finish_next h⟩

/-! ## A relation that every effect keeps -/

/-- A reflexive and transitive relation that holds across every effect holds across every program. -/
theorem run_rel {R : State → State → Prop} (refl : ∀ s, R s s) (trans : ∀ a b c, R a b → R b c → R a c)
    (step : ∀ (e : Effect) s, R s (e.apply s)) (p : Prog) (s : State) : R s (Prog.run p s) := by
  induction p generalizing s with
  | done => exact refl s
  | look k ih => exact ih s s
  | eff e k ih => exact trans _ _ _ (step e s) (ih _)

/-- A property that every effect keeps is kept by every program. -/
theorem run_inv {I : State → Prop} (step : ∀ (e : Effect) s, I s → I (e.apply s)) (p : Prog) (s : State) (h : I s) : I (Prog.run p s) := by
  induction p generalizing s with
  | done => exact h
  | look k ih => exact ih s s h
  | eff e k ih => exact ih _ (step e s h)

/-! ## A set of effects that a piece of a program stays within -/

/-- A state that effects of a set lead to. -/
inductive Reach (P : Effect → Prop) : State → State → Prop
  | refl (s : State) : Reach P s s
  | step {s t : State} (e : Effect) (h : P e) (r : Reach P (e.apply s) t) : Reach P s t

variable {P Q : Effect → Prop} {α β : Type}

theorem Reach.trans {a b c : State} (h : Reach P a b) (h' : Reach P b c) : Reach P a c := by
  induction h with
  | refl => exact h'
  | step e he _ ih => exact .step e he (ih h')

theorem Reach.mono {s t : State} (hPQ : ∀ e, P e → Q e) (h : Reach P s t) : Reach Q s t := by
  induction h with
  | refl s => exact .refl s
  | step e he _ ih => exact .step e (hPQ e he) ih

/-- What every effect of the set keeps holds across all of them. -/
theorem Reach.rel {R : State → State → Prop} {s t : State} (h : Reach P s t) (refl : ∀ s, R s s)
    (trans : ∀ a b c, R a b → R b c → R a c) (step : ∀ e, P e → ∀ s, R s (e.apply s)) : R s t := by
  induction h with
  | refl s => exact refl s
  | step e he _ ih => exact trans _ _ _ (step e he _) ih

/-- A piece of a program goes on, from any state, in a state that effects of the set lead to. -/
def Act.Within (P : Effect → Prop) (a : Act α) : Prop :=
  ∀ (k : α → Prog) s, ∃ t x, Prog.run (a k) s = Prog.run (k x) t ∧ Reach P s t

theorem Act.within_pure (x : α) : Act.Within P (pure x : Act α) := fun _ s => ⟨s, x, rfl, .refl s⟩
theorem Act.within_look : Act.Within P look := fun _ s => ⟨s, s, rfl, .refl s⟩
theorem Act.within_eff {e : Effect} (h : P e) : Act.Within P (eff e) := fun _ s => ⟨_, (), rfl, .step e h (.refl _)⟩

theorem Act.within_bind {a : Act α} {f : α → Act β} (ha : Act.Within P a) (hf : ∀ x, Act.Within P (f x)) :
    Act.Within P (a >>= f) := by
  intro k s
  obtain ⟨t, x, e, r⟩ := ha (fun x => f x k) s
  obtain ⟨u, y, e', r'⟩ := hf x k t
  exact ⟨u, y, e.trans e', r.trans r'⟩

theorem Act.within_ite {c : Prop} [Decidable c] {a b : Act α} (ha : Act.Within P a) (hb : Act.Within P b) :
    Act.Within P (if c then a else b) := by split <;> assumption

theorem Act.Within.mono {a : Act α} (hPQ : ∀ e, P e → Q e) (h : Act.Within P a) : Act.Within Q a := by
  intro k s
  obtain ⟨t, x, e, r⟩ := h k s
  exact ⟨t, x, e, r.mono hPQ⟩

/-- A loop over a list stays within what its body stays within. -/
theorem Act.within_forIn {γ : Type} (l : List γ) (b : β) (f : γ → β → Act (ForInStep β)) (h : ∀ x ∈ l, ∀ y, Act.Within P (f x y)) :
    Act.Within P (forIn l b f) := by
  induction l generalizing b with
  | nil => exact Act.within_pure b
  | cons x l ih =>
    rw [List.forIn_cons]
    refine Act.within_bind (h x (by simp) b) (fun r => ?_)
    cases r with
    | done y => exact Act.within_pure y
    | yield y => exact ih y (fun x hx => h x (by simp [hx]))

/-- A command whose effects stay within a set leads where those effects lead. -/
theorem finish_within {p : Act Unit} {s t : State} (hp : Act.Within P p) (h : finish p s = .next t) : Reach P s t := by
  obtain ⟨u, x, e, r⟩ := hp (fun _ => .done) s
  rw [finish_next h, e]
  exact r

end Sys2Proof.Machine
end

