-- ==== Sys2Proof/Laws/Bits.lean ====
section
/-!
SUPPORT. Bit ranges of a number: a range just written reads back, and a write leaves every other range alone.
-/

namespace Sys2Proof

theorem bitsOf_lt (n lo len : Nat) : bitsOf n lo len < 2 ^ len := Nat.mod_lt _ (Nat.two_pow_pos _)

/-- A number cut at a bit range: what lies below it, the new value, what lies above. -/
theorem setBits_eq (n lo len v : Nat) :
    setBits n lo len v = n % 2 ^ lo + (v % 2 ^ len) * 2 ^ lo + n / 2 ^ (lo + len) * 2 ^ (lo + len) := by
  have h1 := Nat.div_add_mod n (2 ^ lo)
  have h2 := Nat.div_add_mod (n / 2 ^ lo) (2 ^ len)
  have h3 : n / 2 ^ lo / 2 ^ len = n / 2 ^ (lo + len) := by rw [Nat.div_div_eq_div_mul, pow_add]
  rw [h3] at h2
  have h4 : n / 2 ^ (lo + len) * 2 ^ (lo + len) = 2 ^ lo * (2 ^ len * (n / 2 ^ (lo + len))) := by rw [pow_add]; ring
  unfold setBits bitsOf
  rw [Nat.shiftRight_eq_div_pow, Nat.shiftLeft_eq, Nat.shiftLeft_eq, h4]
  have h5 : n / 2 ^ lo % 2 ^ len * 2 ^ lo ≤ n := by
    calc n / 2 ^ lo % 2 ^ len * 2 ^ lo ≤ n / 2 ^ lo * 2 ^ lo := Nat.mul_le_mul_right _ (Nat.mod_le _ _)
      _ ≤ n := Nat.div_mul_le_self _ _
  have h6 : 2 ^ lo * (2 ^ len * (n / 2 ^ (lo + len))) + n / 2 ^ lo % 2 ^ len * 2 ^ lo + n % 2 ^ lo = n := by
    calc _ = 2 ^ lo * (2 ^ len * (n / 2 ^ (lo + len)) + n / 2 ^ lo % 2 ^ len) + n % 2 ^ lo := by ring
      _ = n := by rw [h2, h1]
  omega

/-- A range just written reads back. -/
@[simp] theorem bitsOf_setBits_same (n lo len v : Nat) : bitsOf (setBits n lo len v) lo len = v % 2 ^ len := by
  have e : setBits n lo len v = (v % 2 ^ len + n / 2 ^ (lo + len) * 2 ^ len) * 2 ^ lo + n % 2 ^ lo := by
    rw [setBits_eq, pow_add]; ring
  have hd : setBits n lo len v / 2 ^ lo = v % 2 ^ len + n / 2 ^ (lo + len) * 2 ^ len := by
    rw [e, Nat.add_comm, Nat.add_mul_div_right _ _ (Nat.two_pow_pos _), Nat.div_eq_of_lt (Nat.mod_lt _ (Nat.two_pow_pos _)), Nat.zero_add]
  rw [bitsOf, Nat.shiftRight_eq_div_pow, hd, Nat.add_mul_mod_self_right, Nat.mod_mod]

/-- A write leaves a range above it alone. -/
theorem bitsOf_setBits_above (n lo len v lo' len' : Nat) (h : lo + len ≤ lo') :
    bitsOf (setBits n lo len v) lo' len' = bitsOf n lo' len' := by
  have hlt : n % 2 ^ lo + v % 2 ^ len * 2 ^ lo < 2 ^ (lo + len) := by
    have h1 := Nat.mod_lt n (Nat.two_pow_pos lo)
    have h2 : v % 2 ^ len + 1 ≤ 2 ^ len := Nat.mod_lt v (Nat.two_pow_pos len)
    calc n % 2 ^ lo + v % 2 ^ len * 2 ^ lo < 2 ^ lo + v % 2 ^ len * 2 ^ lo := by omega
      _ = (v % 2 ^ len + 1) * 2 ^ lo := by ring
      _ ≤ 2 ^ len * 2 ^ lo := Nat.mul_le_mul_right _ h2
      _ = 2 ^ (lo + len) := by rw [pow_add]; ring
  have hd : setBits n lo len v / 2 ^ (lo + len) = n / 2 ^ (lo + len) := by
    rw [setBits_eq, Nat.add_mul_div_right _ _ (Nat.two_pow_pos _), Nat.div_eq_of_lt hlt, Nat.zero_add]
  obtain ⟨d, rfl⟩ := Nat.exists_eq_add_of_le h
  simp only [bitsOf, Nat.shiftRight_eq_div_pow]
  rw [pow_add 2 (lo + len) d, ← Nat.div_div_eq_div_mul, hd, Nat.div_div_eq_div_mul]

/-- A write leaves a range below it alone. -/
theorem bitsOf_setBits_below (n lo len v lo' len' : Nat) (h : lo' + len' ≤ lo) :
    bitsOf (setBits n lo len v) lo' len' = bitsOf n lo' len' := by
  obtain ⟨d, rfl⟩ := Nat.exists_eq_add_of_le h
  have e : setBits n (lo' + len' + d) len v =
      n % 2 ^ (lo' + len' + d) + 2 ^ lo' * 2 ^ len' * (2 ^ d * (v % 2 ^ len + n / 2 ^ (lo' + len' + d + len) * 2 ^ len)) := by
    rw [setBits_eq]; simp only [pow_add]; ring
  have key : ∀ m, bitsOf m lo' len' = m % (2 ^ lo' * 2 ^ len') / 2 ^ lo' := by
    intro m
    rw [bitsOf, Nat.shiftRight_eq_div_pow, Nat.mod_mul_right_div_self]
  rw [key, key, e, Nat.add_mul_mod_self_left]
  congr 1
  rw [Nat.mod_mod_of_dvd]
  exact ⟨2 ^ d, by rw [pow_add, pow_add]⟩

/-- A write stays within 64 bits. -/
theorem setBits_lt (n lo len v w : Nat) (hn : n < 2 ^ w) (h : lo + len ≤ w) : setBits n lo len v < 2 ^ w := by
  obtain ⟨d, rfl⟩ := Nat.exists_eq_add_of_le h
  have hq : n / 2 ^ (lo + len) < 2 ^ d := by
    rw [Nat.div_lt_iff_lt_mul (Nat.two_pow_pos _)]; rw [pow_add] at hn; rw [Nat.mul_comm]; exact hn
  have h2 : v % 2 ^ len + 1 ≤ 2 ^ len := Nat.mod_lt v (Nat.two_pow_pos len)
  have h1 := Nat.mod_lt n (Nat.two_pow_pos lo)
  rw [setBits_eq]
  calc n % 2 ^ lo + v % 2 ^ len * 2 ^ lo + n / 2 ^ (lo + len) * 2 ^ (lo + len)
      < 2 ^ lo + v % 2 ^ len * 2 ^ lo + n / 2 ^ (lo + len) * 2 ^ (lo + len) := by omega
    _ = (v % 2 ^ len + 1) * 2 ^ lo + n / 2 ^ (lo + len) * 2 ^ (lo + len) := by ring
    _ ≤ 2 ^ len * 2 ^ lo + n / 2 ^ (lo + len) * 2 ^ (lo + len) := Nat.add_le_add_right (Nat.mul_le_mul_right _ h2) _
    _ = (n / 2 ^ (lo + len) + 1) * 2 ^ (lo + len) := by rw [pow_add]; ring
    _ ≤ 2 ^ d * 2 ^ (lo + len) := Nat.mul_le_mul_right _ hq
    _ = 2 ^ (lo + len + d) := by rw [pow_add 2 (lo + len) d]; ring

end Sys2Proof
end

