-- ==== Sys2Proof/Laws/Table.lean ====
section
/-!
SUPPORT. Sparse tables and device memory: a read after a write, and that every operation keeps the canonical form.
-/

namespace Sys2Proof.Machine

variable {α : Type} [DecidableEq α]

/-! ## Read after write -/

omit [DecidableEq α] in
/-- A key below every key of a table reads as the default. -/
theorem tget_lt (d : α) (t : Tbl α) (k : Nat) (h : ∀ e ∈ t, k < e.1) : tget d t k = d := by
  induction t with
  | nil => rfl
  | cons e t ih =>
    have h1 := h e (by simp)
    simp only [tget]
    rw [if_neg (by omega)]
    exact ih (fun e he => h e (by simp [he]))

/-- A write leaves every other key alone. -/
theorem tget_tput_ne (d : α) (t : Tbl α) (k k' : Nat) (v : α) (h : k' ≠ k) : tget d (tput d t k v) k' = tget d t k' := by
  induction t with
  | nil => by_cases hv : v = d <;> simp [tput, tget, hv, h.symm]
  | cons e t ih =>
    obtain ⟨j, w⟩ := e
    simp only [tput]
    split
    · split
      · rfl
      · simp [tget, h.symm]
    · split
      · subst_vars
        split <;> simp [tget, h.symm]
      · simp only [tget, ih]

/-- A table's keys rise strictly. -/
def Rising (t : Tbl α) : Prop := t.Pairwise (fun a b => a.1 < b.1)

/-- A read of the key just written, in a table whose keys rise. -/
theorem tget_tput_same (d : α) (t : Tbl α) (k : Nat) (v : α) (h : Rising t) : tget d (tput d t k v) k = v := by
  induction t with
  | nil => by_cases hv : v = d <;> simp [tput, tget, hv]
  | cons e t ih =>
    obtain ⟨j, w⟩ := e
    have ht : Rising t := (List.pairwise_cons.1 h).2
    have hj : ∀ e ∈ t, j < e.1 := (List.pairwise_cons.1 h).1
    simp only [tput]
    split
    · rename_i hk
      split
      · rename_i hv
        rw [hv]
        simp only [tget]
        rw [if_neg (by omega)]
        exact tget_lt d t k (fun e he => by have := hj e he; omega)
      · simp [tget]
    · split
      · subst_vars
        split
        · rename_i hv
          rw [hv]
          exact tget_lt d t _ (fun e he => hj e he)
        · simp [tget]
      · simp only [tget]
        rw [if_neg (by omega)]
        exact ih ht

/-! ## The canonical form -/

theorem tput_key_ge (d : α) (t : Tbl α) (k : Nat) (v : α) (b : Nat) (hb : b < k) (h : ∀ e ∈ t, b < e.1) :
    ∀ e ∈ tput d t k v, b < e.1 := by
  induction t with
  | nil =>
    intro e he
    simp only [tput] at he
    split at he <;> simp_all
  | cons x t ih =>
    obtain ⟨j, w⟩ := x
    have ih' := ih (fun e he => h e (by simp [he]))
    have hx := h (j, w) (by simp)
    intro e he
    simp only [tput] at he
    split at he
    · split at he
      · exact h e he
      · rcases List.mem_cons.1 he with rfl | he
        · exact hb
        · exact h e he
    · split at he
      · split at he
        · exact h e (by simp [he])
        · rcases List.mem_cons.1 he with rfl | he
          · exact hb
          · exact h e (by simp [he])
      · rcases List.mem_cons.1 he with rfl | he
        · exact hx
        · exact ih' e he

/-- A write keeps the keys rising. -/
theorem tput_rising (d : α) (t : Tbl α) (k : Nat) (v : α) (h : Rising t) : Rising (tput d t k v) := by
  induction t with
  | nil => simp only [tput]; split <;> simp [Rising]
  | cons x t ih =>
    obtain ⟨j, w⟩ := x
    have ht : Rising t := (List.pairwise_cons.1 h).2
    have hj : ∀ e ∈ t, j < e.1 := (List.pairwise_cons.1 h).1
    simp only [tput]
    split
    · split
      · exact h
      · refine List.pairwise_cons.2 ⟨fun e he => ?_, h⟩
        rcases List.mem_cons.1 he with rfl | he
        · assumption
        · have := hj e he; simp only at *; omega
    · split
      · split
        · exact ht
        · subst_vars
          exact List.pairwise_cons.2 ⟨hj, ht⟩
      · exact List.pairwise_cons.2 ⟨tput_key_ge d t k v j (by omega) hj, ih ht⟩

/-- The two halves of the canonical form. -/
theorem tblWf_iff (d : Nat → α) (t : Tbl α) : tblWf d t = true ↔ Rising t ∧ ∀ e ∈ t, e.2 ≠ d e.1 := by
  simp [tblWf, Rising]

/-- A write keeps the canonical form. -/
theorem tput_wf (d : Nat → α) (t : Tbl α) (k : Nat) (v : α) (h : tblWf d t = true) : tblWf d (tput (d k) t k v) = true := by
  rw [tblWf_iff] at *
  refine ⟨tput_rising _ t k v h.1, ?_⟩
  obtain ⟨-, h⟩ := h
  induction t with
  | nil =>
    intro e he
    simp only [tput] at he
    split at he
    · simp at he
    · simp only [List.mem_singleton] at he; subst he; assumption
  | cons x t ih =>
    obtain ⟨j, w⟩ := x
    have ih' := ih (fun e he => h e (by simp [he]))
    intro e he
    simp only [tput] at he
    split at he
    · split at he
      · exact h e he
      · rcases List.mem_cons.1 he with rfl | he
        · assumption
        · exact h e he
    · split at he
      · split at he
        · exact h e (by simp [he])
        · rcases List.mem_cons.1 he with rfl | he
          · assumption
          · exact h e (by simp [he])
      · rcases List.mem_cons.1 he with rfl | he
        · exact h _ (by simp)
        · exact ih' e he

/-- Dropping keys keeps the canonical form. -/
theorem tkeep_wf (d : Nat → α) (t : Tbl α) (f : Nat → Bool) (h : tblWf d t = true) : tblWf d (tkeep f t) = true := by
  rw [tblWf_iff] at *
  exact ⟨h.1.filter _, fun e he => h.2 e (List.mem_filter.1 he).1⟩

omit [DecidableEq α] in
/-- A key that is kept reads as before. -/
theorem tget_tkeep_of (d : α) (t : Tbl α) (f : Nat → Bool) (k : Nat) (h : f k = true) : tget d (tkeep f t) k = tget d t k := by
  induction t with
  | nil => rfl
  | cons x t ih =>
    obtain ⟨j, w⟩ := x
    simp only [tkeep, List.filter_cons] at *
    by_cases hj : j = k
    · subst hj; simp [h, tget]
    · by_cases hf : f j = true <;> simp [hf, tget, hj, ih]

omit [DecidableEq α] in
/-- A key that is dropped reads as the default. -/
theorem tget_tkeep_not (d : α) (t : Tbl α) (f : Nat → Bool) (k : Nat) (h : f k = false) : tget d (tkeep f t) k = d := by
  induction t with
  | nil => rfl
  | cons x t ih =>
    obtain ⟨j, w⟩ := x
    simp only [tkeep, List.filter_cons] at *
    by_cases hf : f j = true
    · have : j ≠ k := fun e => by rw [e, h] at hf; cases hf
      simp [hf, tget, this, ih]
    · simp [hf, ih]

end Sys2Proof.Machine
end

