-- ==== Sys2Proof/Laws/Exec.lean ====
section
/-!
SUPPORT. The form of every command's outcome: a well-formed command is a program, and every effect keeps the canonical form of the state.
-/

namespace Sys2Proof.Machine

theorem finishIf_eq_finish (p : Act Unit) (s : State) : finish p s = finishIf true p s := rfl

/-- A command runs a program, which does not depend on the state but by looking at it, where its term is well formed. -/
theorem exec_form (c : Instr) : ∃ p : Act Unit, ∀ s, exec c s = finishIf c.wellFormed p s := by
  cases c <;> first
    | exact ⟨_, fun s => finishIf_eq_finish _ s⟩
    | exact ⟨_, fun _ => rfl⟩

/-- Every effect keeps the canonical form of the state. -/
theorem effect_canon (e : Effect) (s : State) (h : Canon s) : Canon (e.apply s) := by
  obtain ⟨h1, h2, h3, h4, h5, h6, h7, h8, h9, h10, h11, h12⟩ := h
  cases e with
  | reg off v => exact ⟨tput_wf _ _ _ _ h1, h2, h3, h4, h5, h6, h7, h8, h9, h10, h11, h12⟩
  | regsKeep f => exact ⟨tkeep_wf _ _ _ h1, h2, h3, h4, h5, h6, h7, h8, h9, h10, h11, h12⟩
  | mem a b => exact ⟨h1, tput_wf (fun _ => (0 : Byte)) _ _ _ h2, h3, h4, h5, h6, h7, h8, h9, h10, h11, h12⟩
  | memKeep f => exact ⟨h1, tkeep_wf _ _ _ h2, h3, h4, h5, h6, h7, h8, h9, h10, h11, h12⟩
  | thread k v => exact ⟨h1, h2, tput_wf (fun _ => ({} : Thread)) _ _ _ h3, h4, h5, h6, h7, h8, h9, h10, h11, h12⟩
  | threadsKeep f => exact ⟨h1, h2, tkeep_wf _ _ _ h3, h4, h5, h6, h7, h8, h9, h10, h11, h12⟩
  | turn c n => exact ⟨h1, h2, h3, h4, h5, h6, h7, h8, h9, h10, h11, tput_wf (fun _ => (15 : Nat)) _ _ _ h12⟩
  | pip k v => exact ⟨h1, h2, h3, tput_wf (fun _ => (0 : BitVec 16)) _ _ _ h4, h5, h6, h7, h8, h9, h10, h11, h12⟩
  | pipsKeep f => exact ⟨h1, h2, h3, tkeep_wf _ _ _ h4, h5, h6, h7, h8, h9, h10, h11, h12⟩
  | vbuf k v => exact ⟨h1, h2, h3, h4, tput_wf (fun _ => ({} : VBuf)) _ _ _ h5, h6, h7, h8, h9, h10, h11, h12⟩
  | vbufsKeep f => exact ⟨h1, h2, h3, h4, tkeep_wf _ _ _ h5, h6, h7, h8, h9, h10, h11, h12⟩
  | queue k v => exact ⟨h1, h2, h3, h4, h5, tput_wf (fun _ => ({} : Queue)) _ _ _ h6, h7, h8, h9, h10, h11, h12⟩
  | queuesKeep f => exact ⟨h1, h2, h3, h4, h5, tkeep_wf _ _ _ h6, h7, h8, h9, h10, h11, h12⟩
  | part k v => exact ⟨h1, h2, h3, h4, h5, h6, tput_wf (fun _ => ({} : Part)) _ _ _ h7, h8, h9, h10, h11, h12⟩
  | partsKeep f => exact ⟨h1, h2, h3, h4, h5, h6, tkeep_wf _ _ _ h7, h8, h9, h10, h11, h12⟩
  | pool k v => exact ⟨h1, h2, h3, h4, h5, h6, h7, tput_wf (fun _ => ({} : Pool)) _ _ _ h8, h9, h10, h11, h12⟩
  | poolsKeep f => exact ⟨h1, h2, h3, h4, h5, h6, h7, tkeep_wf _ _ _ h8, h9, h10, h11, h12⟩
  | group k v => exact ⟨h1, h2, h3, h4, h5, h6, h7, h8, tput_wf (fun _ => ({} : Group)) _ _ _ h9, h10, h11, h12⟩
  | groupsKeep f => exact ⟨h1, h2, h3, h4, h5, h6, h7, h8, tkeep_wf _ _ _ h9, h10, h11, h12⟩
  | port k v => exact ⟨h1, h2, h3, h4, h5, h6, h7, h8, h9, tput_wf (fun _ => ({} : Port)) _ _ _ h10, h11, h12⟩
  | portsKeep f => exact ⟨h1, h2, h3, h4, h5, h6, h7, h8, h9, tkeep_wf _ _ _ h10, h11, h12⟩
  | eptSlots k v => exact ⟨h1, h2, h3, h4, h5, h6, h7, h8, h9, h10, tput_wf (fun _ => ([] : List EptSlot)) _ _ _ h11, h12⟩
  | eptKeep f => exact ⟨h1, h2, h3, h4, h5, h6, h7, h8, h9, h10, tkeep_wf _ _ _ h11, h12⟩
  | _ => exact ⟨h1, h2, h3, h4, h5, h6, h7, h8, h9, h10, h11, h12⟩

end Sys2Proof.Machine
end

