-- ==== Sys2Proof/Laws/State.lean ====
section
/-!
SUPPORT. What each effect makes of each field of the state: one lemma per effect and field, true by unfolding.
-/

namespace Sys2Proof.Machine

variable (s : State)

/-! ## reg -/

@[simp] theorem apply_reg_pending (off : Nat) (v : Word) : ((Effect.reg off v).apply s).pending = s.pending := rfl
@[simp] theorem apply_reg_regs (off : Nat) (v : Word) : ((Effect.reg off v).apply s).regs = tput (resetWord off) s.regs off v := rfl
@[simp] theorem apply_reg_mem (off : Nat) (v : Word) : ((Effect.reg off v).apply s).mem = s.mem := rfl
@[simp] theorem apply_reg_mem2 (off : Nat) (v : Word) : ((Effect.reg off v).apply s).mem2 = s.mem2 := rfl
@[simp] theorem apply_reg_time (off : Nat) (v : Word) : ((Effect.reg off v).apply s).time = s.time := rfl
@[simp] theorem apply_reg_mod (off : Nat) (v : Word) : ((Effect.reg off v).apply s).mod = s.mod := rfl
@[simp] theorem apply_reg_nv (off : Nat) (v : Word) : ((Effect.reg off v).apply s).nv = s.nv := rfl
@[simp] theorem apply_reg_own (off : Nat) (v : Word) : ((Effect.reg off v).apply s).own = s.own := rfl
@[simp] theorem apply_reg_err (off : Nat) (v : Word) : ((Effect.reg off v).apply s).err = s.err := rfl
@[simp] theorem apply_reg_pw (off : Nat) (v : Word) : ((Effect.reg off v).apply s).pw = s.pw := rfl
@[simp] theorem apply_reg_host (off : Nat) (v : Word) : ((Effect.reg off v).apply s).host = s.host := rfl
@[simp] theorem apply_reg_fab (off : Nat) (v : Word) : ((Effect.reg off v).apply s).fab = s.fab := rfl
@[simp] theorem apply_reg_threads (off : Nat) (v : Word) : ((Effect.reg off v).apply s).threads = s.threads := rfl
@[simp] theorem apply_reg_turns (off : Nat) (v : Word) : ((Effect.reg off v).apply s).turns = s.turns := rfl
@[simp] theorem apply_reg_pips (off : Nat) (v : Word) : ((Effect.reg off v).apply s).pips = s.pips := rfl
@[simp] theorem apply_reg_vbufs (off : Nat) (v : Word) : ((Effect.reg off v).apply s).vbufs = s.vbufs := rfl
@[simp] theorem apply_reg_queues (off : Nat) (v : Word) : ((Effect.reg off v).apply s).queues = s.queues := rfl
@[simp] theorem apply_reg_parts (off : Nat) (v : Word) : ((Effect.reg off v).apply s).parts = s.parts := rfl
@[simp] theorem apply_reg_pools (off : Nat) (v : Word) : ((Effect.reg off v).apply s).pools = s.pools := rfl
@[simp] theorem apply_reg_groups (off : Nat) (v : Word) : ((Effect.reg off v).apply s).groups = s.groups := rfl
@[simp] theorem apply_reg_ports (off : Nat) (v : Word) : ((Effect.reg off v).apply s).ports = s.ports := rfl
@[simp] theorem apply_reg_eptSlots (off : Nat) (v : Word) : ((Effect.reg off v).apply s).eptSlots = s.eptSlots := rfl
@[simp] theorem apply_reg_submits (off : Nat) (v : Word) : ((Effect.reg off v).apply s).submits = s.submits := rfl
@[simp] theorem apply_reg_tagsDone (off : Nat) (v : Word) : ((Effect.reg off v).apply s).tagsDone = s.tagsDone := rfl
@[simp] theorem apply_reg_samples (off : Nat) (v : Word) : ((Effect.reg off v).apply s).samples = s.samples := rfl
@[simp] theorem apply_reg_loads (off : Nat) (v : Word) : ((Effect.reg off v).apply s).loads = s.loads := rfl
@[simp] theorem apply_reg_launches (off : Nat) (v : Word) : ((Effect.reg off v).apply s).launches = s.launches := rfl
@[simp] theorem apply_reg_colls (off : Nat) (v : Word) : ((Effect.reg off v).apply s).colls = s.colls := rfl
@[simp] theorem apply_reg_freeIdx (off : Nat) (v : Word) : ((Effect.reg off v).apply s).freeIdx = s.freeIdx := rfl
@[simp] theorem apply_reg_out (off : Nat) (v : Word) : ((Effect.reg off v).apply s).out = s.out := rfl

/-! ## regsKeep -/

@[simp] theorem apply_regsKeep_pending (f : Nat → Bool) : ((Effect.regsKeep f).apply s).pending = s.pending := rfl
@[simp] theorem apply_regsKeep_regs (f : Nat → Bool) : ((Effect.regsKeep f).apply s).regs = tkeep f s.regs := rfl
@[simp] theorem apply_regsKeep_mem (f : Nat → Bool) : ((Effect.regsKeep f).apply s).mem = s.mem := rfl
@[simp] theorem apply_regsKeep_mem2 (f : Nat → Bool) : ((Effect.regsKeep f).apply s).mem2 = s.mem2 := rfl
@[simp] theorem apply_regsKeep_time (f : Nat → Bool) : ((Effect.regsKeep f).apply s).time = s.time := rfl
@[simp] theorem apply_regsKeep_mod (f : Nat → Bool) : ((Effect.regsKeep f).apply s).mod = s.mod := rfl
@[simp] theorem apply_regsKeep_nv (f : Nat → Bool) : ((Effect.regsKeep f).apply s).nv = s.nv := rfl
@[simp] theorem apply_regsKeep_own (f : Nat → Bool) : ((Effect.regsKeep f).apply s).own = s.own := rfl
@[simp] theorem apply_regsKeep_err (f : Nat → Bool) : ((Effect.regsKeep f).apply s).err = s.err := rfl
@[simp] theorem apply_regsKeep_pw (f : Nat → Bool) : ((Effect.regsKeep f).apply s).pw = s.pw := rfl
@[simp] theorem apply_regsKeep_host (f : Nat → Bool) : ((Effect.regsKeep f).apply s).host = s.host := rfl
@[simp] theorem apply_regsKeep_fab (f : Nat → Bool) : ((Effect.regsKeep f).apply s).fab = s.fab := rfl
@[simp] theorem apply_regsKeep_threads (f : Nat → Bool) : ((Effect.regsKeep f).apply s).threads = s.threads := rfl
@[simp] theorem apply_regsKeep_turns (f : Nat → Bool) : ((Effect.regsKeep f).apply s).turns = s.turns := rfl
@[simp] theorem apply_regsKeep_pips (f : Nat → Bool) : ((Effect.regsKeep f).apply s).pips = s.pips := rfl
@[simp] theorem apply_regsKeep_vbufs (f : Nat → Bool) : ((Effect.regsKeep f).apply s).vbufs = s.vbufs := rfl
@[simp] theorem apply_regsKeep_queues (f : Nat → Bool) : ((Effect.regsKeep f).apply s).queues = s.queues := rfl
@[simp] theorem apply_regsKeep_parts (f : Nat → Bool) : ((Effect.regsKeep f).apply s).parts = s.parts := rfl
@[simp] theorem apply_regsKeep_pools (f : Nat → Bool) : ((Effect.regsKeep f).apply s).pools = s.pools := rfl
@[simp] theorem apply_regsKeep_groups (f : Nat → Bool) : ((Effect.regsKeep f).apply s).groups = s.groups := rfl
@[simp] theorem apply_regsKeep_ports (f : Nat → Bool) : ((Effect.regsKeep f).apply s).ports = s.ports := rfl
@[simp] theorem apply_regsKeep_eptSlots (f : Nat → Bool) : ((Effect.regsKeep f).apply s).eptSlots = s.eptSlots := rfl
@[simp] theorem apply_regsKeep_submits (f : Nat → Bool) : ((Effect.regsKeep f).apply s).submits = s.submits := rfl
@[simp] theorem apply_regsKeep_tagsDone (f : Nat → Bool) : ((Effect.regsKeep f).apply s).tagsDone = s.tagsDone := rfl
@[simp] theorem apply_regsKeep_samples (f : Nat → Bool) : ((Effect.regsKeep f).apply s).samples = s.samples := rfl
@[simp] theorem apply_regsKeep_loads (f : Nat → Bool) : ((Effect.regsKeep f).apply s).loads = s.loads := rfl
@[simp] theorem apply_regsKeep_launches (f : Nat → Bool) : ((Effect.regsKeep f).apply s).launches = s.launches := rfl
@[simp] theorem apply_regsKeep_colls (f : Nat → Bool) : ((Effect.regsKeep f).apply s).colls = s.colls := rfl
@[simp] theorem apply_regsKeep_freeIdx (f : Nat → Bool) : ((Effect.regsKeep f).apply s).freeIdx = s.freeIdx := rfl
@[simp] theorem apply_regsKeep_out (f : Nat → Bool) : ((Effect.regsKeep f).apply s).out = s.out := rfl

/-! ## mem -/

@[simp] theorem apply_mem_pending (a : Nat) (b : Byte) : ((Effect.mem a b).apply s).pending = s.pending := rfl
@[simp] theorem apply_mem_regs (a : Nat) (b : Byte) : ((Effect.mem a b).apply s).regs = s.regs := rfl
@[simp] theorem apply_mem_mem (a : Nat) (b : Byte) : ((Effect.mem a b).apply s).mem = tput 0 s.mem a b := rfl
@[simp] theorem apply_mem_mem2 (a : Nat) (b : Byte) : ((Effect.mem a b).apply s).mem2 = s.mem2 := rfl
@[simp] theorem apply_mem_time (a : Nat) (b : Byte) : ((Effect.mem a b).apply s).time = s.time := rfl
@[simp] theorem apply_mem_mod (a : Nat) (b : Byte) : ((Effect.mem a b).apply s).mod = s.mod := rfl
@[simp] theorem apply_mem_nv (a : Nat) (b : Byte) : ((Effect.mem a b).apply s).nv = s.nv := rfl
@[simp] theorem apply_mem_own (a : Nat) (b : Byte) : ((Effect.mem a b).apply s).own = s.own := rfl
@[simp] theorem apply_mem_err (a : Nat) (b : Byte) : ((Effect.mem a b).apply s).err = s.err := rfl
@[simp] theorem apply_mem_pw (a : Nat) (b : Byte) : ((Effect.mem a b).apply s).pw = s.pw := rfl
@[simp] theorem apply_mem_host (a : Nat) (b : Byte) : ((Effect.mem a b).apply s).host = s.host := rfl
@[simp] theorem apply_mem_fab (a : Nat) (b : Byte) : ((Effect.mem a b).apply s).fab = s.fab := rfl
@[simp] theorem apply_mem_threads (a : Nat) (b : Byte) : ((Effect.mem a b).apply s).threads = s.threads := rfl
@[simp] theorem apply_mem_turns (a : Nat) (b : Byte) : ((Effect.mem a b).apply s).turns = s.turns := rfl
@[simp] theorem apply_mem_pips (a : Nat) (b : Byte) : ((Effect.mem a b).apply s).pips = s.pips := rfl
@[simp] theorem apply_mem_vbufs (a : Nat) (b : Byte) : ((Effect.mem a b).apply s).vbufs = s.vbufs := rfl
@[simp] theorem apply_mem_queues (a : Nat) (b : Byte) : ((Effect.mem a b).apply s).queues = s.queues := rfl
@[simp] theorem apply_mem_parts (a : Nat) (b : Byte) : ((Effect.mem a b).apply s).parts = s.parts := rfl
@[simp] theorem apply_mem_pools (a : Nat) (b : Byte) : ((Effect.mem a b).apply s).pools = s.pools := rfl
@[simp] theorem apply_mem_groups (a : Nat) (b : Byte) : ((Effect.mem a b).apply s).groups = s.groups := rfl
@[simp] theorem apply_mem_ports (a : Nat) (b : Byte) : ((Effect.mem a b).apply s).ports = s.ports := rfl
@[simp] theorem apply_mem_eptSlots (a : Nat) (b : Byte) : ((Effect.mem a b).apply s).eptSlots = s.eptSlots := rfl
@[simp] theorem apply_mem_submits (a : Nat) (b : Byte) : ((Effect.mem a b).apply s).submits = s.submits := rfl
@[simp] theorem apply_mem_tagsDone (a : Nat) (b : Byte) : ((Effect.mem a b).apply s).tagsDone = s.tagsDone := rfl
@[simp] theorem apply_mem_samples (a : Nat) (b : Byte) : ((Effect.mem a b).apply s).samples = s.samples := rfl
@[simp] theorem apply_mem_loads (a : Nat) (b : Byte) : ((Effect.mem a b).apply s).loads = s.loads := rfl
@[simp] theorem apply_mem_launches (a : Nat) (b : Byte) : ((Effect.mem a b).apply s).launches = s.launches := rfl
@[simp] theorem apply_mem_colls (a : Nat) (b : Byte) : ((Effect.mem a b).apply s).colls = s.colls := rfl
@[simp] theorem apply_mem_freeIdx (a : Nat) (b : Byte) : ((Effect.mem a b).apply s).freeIdx = s.freeIdx := rfl
@[simp] theorem apply_mem_out (a : Nat) (b : Byte) : ((Effect.mem a b).apply s).out = s.out := rfl

/-! ## memKeep -/

@[simp] theorem apply_memKeep_pending (f : Nat → Bool) : ((Effect.memKeep f).apply s).pending = s.pending := rfl
@[simp] theorem apply_memKeep_regs (f : Nat → Bool) : ((Effect.memKeep f).apply s).regs = s.regs := rfl
@[simp] theorem apply_memKeep_mem (f : Nat → Bool) : ((Effect.memKeep f).apply s).mem = tkeep f s.mem := rfl
@[simp] theorem apply_memKeep_mem2 (f : Nat → Bool) : ((Effect.memKeep f).apply s).mem2 = s.mem2 := rfl
@[simp] theorem apply_memKeep_time (f : Nat → Bool) : ((Effect.memKeep f).apply s).time = s.time := rfl
@[simp] theorem apply_memKeep_mod (f : Nat → Bool) : ((Effect.memKeep f).apply s).mod = s.mod := rfl
@[simp] theorem apply_memKeep_nv (f : Nat → Bool) : ((Effect.memKeep f).apply s).nv = s.nv := rfl
@[simp] theorem apply_memKeep_own (f : Nat → Bool) : ((Effect.memKeep f).apply s).own = s.own := rfl
@[simp] theorem apply_memKeep_err (f : Nat → Bool) : ((Effect.memKeep f).apply s).err = s.err := rfl
@[simp] theorem apply_memKeep_pw (f : Nat → Bool) : ((Effect.memKeep f).apply s).pw = s.pw := rfl
@[simp] theorem apply_memKeep_host (f : Nat → Bool) : ((Effect.memKeep f).apply s).host = s.host := rfl
@[simp] theorem apply_memKeep_fab (f : Nat → Bool) : ((Effect.memKeep f).apply s).fab = s.fab := rfl
@[simp] theorem apply_memKeep_threads (f : Nat → Bool) : ((Effect.memKeep f).apply s).threads = s.threads := rfl
@[simp] theorem apply_memKeep_turns (f : Nat → Bool) : ((Effect.memKeep f).apply s).turns = s.turns := rfl
@[simp] theorem apply_memKeep_pips (f : Nat → Bool) : ((Effect.memKeep f).apply s).pips = s.pips := rfl
@[simp] theorem apply_memKeep_vbufs (f : Nat → Bool) : ((Effect.memKeep f).apply s).vbufs = s.vbufs := rfl
@[simp] theorem apply_memKeep_queues (f : Nat → Bool) : ((Effect.memKeep f).apply s).queues = s.queues := rfl
@[simp] theorem apply_memKeep_parts (f : Nat → Bool) : ((Effect.memKeep f).apply s).parts = s.parts := rfl
@[simp] theorem apply_memKeep_pools (f : Nat → Bool) : ((Effect.memKeep f).apply s).pools = s.pools := rfl
@[simp] theorem apply_memKeep_groups (f : Nat → Bool) : ((Effect.memKeep f).apply s).groups = s.groups := rfl
@[simp] theorem apply_memKeep_ports (f : Nat → Bool) : ((Effect.memKeep f).apply s).ports = s.ports := rfl
@[simp] theorem apply_memKeep_eptSlots (f : Nat → Bool) : ((Effect.memKeep f).apply s).eptSlots = s.eptSlots := rfl
@[simp] theorem apply_memKeep_submits (f : Nat → Bool) : ((Effect.memKeep f).apply s).submits = s.submits := rfl
@[simp] theorem apply_memKeep_tagsDone (f : Nat → Bool) : ((Effect.memKeep f).apply s).tagsDone = s.tagsDone := rfl
@[simp] theorem apply_memKeep_samples (f : Nat → Bool) : ((Effect.memKeep f).apply s).samples = s.samples := rfl
@[simp] theorem apply_memKeep_loads (f : Nat → Bool) : ((Effect.memKeep f).apply s).loads = s.loads := rfl
@[simp] theorem apply_memKeep_launches (f : Nat → Bool) : ((Effect.memKeep f).apply s).launches = s.launches := rfl
@[simp] theorem apply_memKeep_colls (f : Nat → Bool) : ((Effect.memKeep f).apply s).colls = s.colls := rfl
@[simp] theorem apply_memKeep_freeIdx (f : Nat → Bool) : ((Effect.memKeep f).apply s).freeIdx = s.freeIdx := rfl
@[simp] theorem apply_memKeep_out (f : Nat → Bool) : ((Effect.memKeep f).apply s).out = s.out := rfl

/-! ## thread -/

@[simp] theorem apply_thread_pending (k : Nat) (v : Thread) : ((Effect.thread k v).apply s).pending = s.pending := rfl
@[simp] theorem apply_thread_regs (k : Nat) (v : Thread) : ((Effect.thread k v).apply s).regs = s.regs := rfl
@[simp] theorem apply_thread_mem (k : Nat) (v : Thread) : ((Effect.thread k v).apply s).mem = s.mem := rfl
@[simp] theorem apply_thread_mem2 (k : Nat) (v : Thread) : ((Effect.thread k v).apply s).mem2 = s.mem2 := rfl
@[simp] theorem apply_thread_time (k : Nat) (v : Thread) : ((Effect.thread k v).apply s).time = s.time := rfl
@[simp] theorem apply_thread_mod (k : Nat) (v : Thread) : ((Effect.thread k v).apply s).mod = s.mod := rfl
@[simp] theorem apply_thread_nv (k : Nat) (v : Thread) : ((Effect.thread k v).apply s).nv = s.nv := rfl
@[simp] theorem apply_thread_own (k : Nat) (v : Thread) : ((Effect.thread k v).apply s).own = s.own := rfl
@[simp] theorem apply_thread_err (k : Nat) (v : Thread) : ((Effect.thread k v).apply s).err = s.err := rfl
@[simp] theorem apply_thread_pw (k : Nat) (v : Thread) : ((Effect.thread k v).apply s).pw = s.pw := rfl
@[simp] theorem apply_thread_host (k : Nat) (v : Thread) : ((Effect.thread k v).apply s).host = s.host := rfl
@[simp] theorem apply_thread_fab (k : Nat) (v : Thread) : ((Effect.thread k v).apply s).fab = s.fab := rfl
@[simp] theorem apply_thread_threads (k : Nat) (v : Thread) : ((Effect.thread k v).apply s).threads = tput {} s.threads k v := rfl
@[simp] theorem apply_thread_turns (k : Nat) (v : Thread) : ((Effect.thread k v).apply s).turns = s.turns := rfl
@[simp] theorem apply_thread_pips (k : Nat) (v : Thread) : ((Effect.thread k v).apply s).pips = s.pips := rfl
@[simp] theorem apply_thread_vbufs (k : Nat) (v : Thread) : ((Effect.thread k v).apply s).vbufs = s.vbufs := rfl
@[simp] theorem apply_thread_queues (k : Nat) (v : Thread) : ((Effect.thread k v).apply s).queues = s.queues := rfl
@[simp] theorem apply_thread_parts (k : Nat) (v : Thread) : ((Effect.thread k v).apply s).parts = s.parts := rfl
@[simp] theorem apply_thread_pools (k : Nat) (v : Thread) : ((Effect.thread k v).apply s).pools = s.pools := rfl
@[simp] theorem apply_thread_groups (k : Nat) (v : Thread) : ((Effect.thread k v).apply s).groups = s.groups := rfl
@[simp] theorem apply_thread_ports (k : Nat) (v : Thread) : ((Effect.thread k v).apply s).ports = s.ports := rfl
@[simp] theorem apply_thread_eptSlots (k : Nat) (v : Thread) : ((Effect.thread k v).apply s).eptSlots = s.eptSlots := rfl
@[simp] theorem apply_thread_submits (k : Nat) (v : Thread) : ((Effect.thread k v).apply s).submits = s.submits := rfl
@[simp] theorem apply_thread_tagsDone (k : Nat) (v : Thread) : ((Effect.thread k v).apply s).tagsDone = s.tagsDone := rfl
@[simp] theorem apply_thread_samples (k : Nat) (v : Thread) : ((Effect.thread k v).apply s).samples = s.samples := rfl
@[simp] theorem apply_thread_loads (k : Nat) (v : Thread) : ((Effect.thread k v).apply s).loads = s.loads := rfl
@[simp] theorem apply_thread_launches (k : Nat) (v : Thread) : ((Effect.thread k v).apply s).launches = s.launches := rfl
@[simp] theorem apply_thread_colls (k : Nat) (v : Thread) : ((Effect.thread k v).apply s).colls = s.colls := rfl
@[simp] theorem apply_thread_freeIdx (k : Nat) (v : Thread) : ((Effect.thread k v).apply s).freeIdx = s.freeIdx := rfl
@[simp] theorem apply_thread_out (k : Nat) (v : Thread) : ((Effect.thread k v).apply s).out = s.out := rfl

/-! ## threadsKeep -/

@[simp] theorem apply_threadsKeep_pending (f : Nat → Bool) : ((Effect.threadsKeep f).apply s).pending = s.pending := rfl
@[simp] theorem apply_threadsKeep_regs (f : Nat → Bool) : ((Effect.threadsKeep f).apply s).regs = s.regs := rfl
@[simp] theorem apply_threadsKeep_mem (f : Nat → Bool) : ((Effect.threadsKeep f).apply s).mem = s.mem := rfl
@[simp] theorem apply_threadsKeep_mem2 (f : Nat → Bool) : ((Effect.threadsKeep f).apply s).mem2 = s.mem2 := rfl
@[simp] theorem apply_threadsKeep_time (f : Nat → Bool) : ((Effect.threadsKeep f).apply s).time = s.time := rfl
@[simp] theorem apply_threadsKeep_mod (f : Nat → Bool) : ((Effect.threadsKeep f).apply s).mod = s.mod := rfl
@[simp] theorem apply_threadsKeep_nv (f : Nat → Bool) : ((Effect.threadsKeep f).apply s).nv = s.nv := rfl
@[simp] theorem apply_threadsKeep_own (f : Nat → Bool) : ((Effect.threadsKeep f).apply s).own = s.own := rfl
@[simp] theorem apply_threadsKeep_err (f : Nat → Bool) : ((Effect.threadsKeep f).apply s).err = s.err := rfl
@[simp] theorem apply_threadsKeep_pw (f : Nat → Bool) : ((Effect.threadsKeep f).apply s).pw = s.pw := rfl
@[simp] theorem apply_threadsKeep_host (f : Nat → Bool) : ((Effect.threadsKeep f).apply s).host = s.host := rfl
@[simp] theorem apply_threadsKeep_fab (f : Nat → Bool) : ((Effect.threadsKeep f).apply s).fab = s.fab := rfl
@[simp] theorem apply_threadsKeep_threads (f : Nat → Bool) : ((Effect.threadsKeep f).apply s).threads = tkeep f s.threads := rfl
@[simp] theorem apply_threadsKeep_turns (f : Nat → Bool) : ((Effect.threadsKeep f).apply s).turns = s.turns := rfl
@[simp] theorem apply_threadsKeep_pips (f : Nat → Bool) : ((Effect.threadsKeep f).apply s).pips = s.pips := rfl
@[simp] theorem apply_threadsKeep_vbufs (f : Nat → Bool) : ((Effect.threadsKeep f).apply s).vbufs = s.vbufs := rfl
@[simp] theorem apply_threadsKeep_queues (f : Nat → Bool) : ((Effect.threadsKeep f).apply s).queues = s.queues := rfl
@[simp] theorem apply_threadsKeep_parts (f : Nat → Bool) : ((Effect.threadsKeep f).apply s).parts = s.parts := rfl
@[simp] theorem apply_threadsKeep_pools (f : Nat → Bool) : ((Effect.threadsKeep f).apply s).pools = s.pools := rfl
@[simp] theorem apply_threadsKeep_groups (f : Nat → Bool) : ((Effect.threadsKeep f).apply s).groups = s.groups := rfl
@[simp] theorem apply_threadsKeep_ports (f : Nat → Bool) : ((Effect.threadsKeep f).apply s).ports = s.ports := rfl
@[simp] theorem apply_threadsKeep_eptSlots (f : Nat → Bool) : ((Effect.threadsKeep f).apply s).eptSlots = s.eptSlots := rfl
@[simp] theorem apply_threadsKeep_submits (f : Nat → Bool) : ((Effect.threadsKeep f).apply s).submits = s.submits := rfl
@[simp] theorem apply_threadsKeep_tagsDone (f : Nat → Bool) : ((Effect.threadsKeep f).apply s).tagsDone = s.tagsDone := rfl
@[simp] theorem apply_threadsKeep_samples (f : Nat → Bool) : ((Effect.threadsKeep f).apply s).samples = s.samples := rfl
@[simp] theorem apply_threadsKeep_loads (f : Nat → Bool) : ((Effect.threadsKeep f).apply s).loads = s.loads := rfl
@[simp] theorem apply_threadsKeep_launches (f : Nat → Bool) : ((Effect.threadsKeep f).apply s).launches = s.launches := rfl
@[simp] theorem apply_threadsKeep_colls (f : Nat → Bool) : ((Effect.threadsKeep f).apply s).colls = s.colls := rfl
@[simp] theorem apply_threadsKeep_freeIdx (f : Nat → Bool) : ((Effect.threadsKeep f).apply s).freeIdx = s.freeIdx := rfl
@[simp] theorem apply_threadsKeep_out (f : Nat → Bool) : ((Effect.threadsKeep f).apply s).out = s.out := rfl

/-! ## turn -/

@[simp] theorem apply_turn_pending (c n : Nat) : ((Effect.turn c n).apply s).pending = s.pending := rfl
@[simp] theorem apply_turn_regs (c n : Nat) : ((Effect.turn c n).apply s).regs = s.regs := rfl
@[simp] theorem apply_turn_mem (c n : Nat) : ((Effect.turn c n).apply s).mem = s.mem := rfl
@[simp] theorem apply_turn_mem2 (c n : Nat) : ((Effect.turn c n).apply s).mem2 = s.mem2 := rfl
@[simp] theorem apply_turn_time (c n : Nat) : ((Effect.turn c n).apply s).time = s.time := rfl
@[simp] theorem apply_turn_mod (c n : Nat) : ((Effect.turn c n).apply s).mod = s.mod := rfl
@[simp] theorem apply_turn_nv (c n : Nat) : ((Effect.turn c n).apply s).nv = s.nv := rfl
@[simp] theorem apply_turn_own (c n : Nat) : ((Effect.turn c n).apply s).own = s.own := rfl
@[simp] theorem apply_turn_err (c n : Nat) : ((Effect.turn c n).apply s).err = s.err := rfl
@[simp] theorem apply_turn_pw (c n : Nat) : ((Effect.turn c n).apply s).pw = s.pw := rfl
@[simp] theorem apply_turn_host (c n : Nat) : ((Effect.turn c n).apply s).host = s.host := rfl
@[simp] theorem apply_turn_fab (c n : Nat) : ((Effect.turn c n).apply s).fab = s.fab := rfl
@[simp] theorem apply_turn_threads (c n : Nat) : ((Effect.turn c n).apply s).threads = s.threads := rfl
@[simp] theorem apply_turn_turns (c n : Nat) : ((Effect.turn c n).apply s).turns = tput 15 s.turns c n := rfl
@[simp] theorem apply_turn_pips (c n : Nat) : ((Effect.turn c n).apply s).pips = s.pips := rfl
@[simp] theorem apply_turn_vbufs (c n : Nat) : ((Effect.turn c n).apply s).vbufs = s.vbufs := rfl
@[simp] theorem apply_turn_queues (c n : Nat) : ((Effect.turn c n).apply s).queues = s.queues := rfl
@[simp] theorem apply_turn_parts (c n : Nat) : ((Effect.turn c n).apply s).parts = s.parts := rfl
@[simp] theorem apply_turn_pools (c n : Nat) : ((Effect.turn c n).apply s).pools = s.pools := rfl
@[simp] theorem apply_turn_groups (c n : Nat) : ((Effect.turn c n).apply s).groups = s.groups := rfl
@[simp] theorem apply_turn_ports (c n : Nat) : ((Effect.turn c n).apply s).ports = s.ports := rfl
@[simp] theorem apply_turn_eptSlots (c n : Nat) : ((Effect.turn c n).apply s).eptSlots = s.eptSlots := rfl
@[simp] theorem apply_turn_submits (c n : Nat) : ((Effect.turn c n).apply s).submits = s.submits := rfl
@[simp] theorem apply_turn_tagsDone (c n : Nat) : ((Effect.turn c n).apply s).tagsDone = s.tagsDone := rfl
@[simp] theorem apply_turn_samples (c n : Nat) : ((Effect.turn c n).apply s).samples = s.samples := rfl
@[simp] theorem apply_turn_loads (c n : Nat) : ((Effect.turn c n).apply s).loads = s.loads := rfl
@[simp] theorem apply_turn_launches (c n : Nat) : ((Effect.turn c n).apply s).launches = s.launches := rfl
@[simp] theorem apply_turn_colls (c n : Nat) : ((Effect.turn c n).apply s).colls = s.colls := rfl
@[simp] theorem apply_turn_freeIdx (c n : Nat) : ((Effect.turn c n).apply s).freeIdx = s.freeIdx := rfl
@[simp] theorem apply_turn_out (c n : Nat) : ((Effect.turn c n).apply s).out = s.out := rfl

/-! ## pip -/

@[simp] theorem apply_pip_pending (k : Nat) (v : BitVec 16) : ((Effect.pip k v).apply s).pending = s.pending := rfl
@[simp] theorem apply_pip_regs (k : Nat) (v : BitVec 16) : ((Effect.pip k v).apply s).regs = s.regs := rfl
@[simp] theorem apply_pip_mem (k : Nat) (v : BitVec 16) : ((Effect.pip k v).apply s).mem = s.mem := rfl
@[simp] theorem apply_pip_mem2 (k : Nat) (v : BitVec 16) : ((Effect.pip k v).apply s).mem2 = s.mem2 := rfl
@[simp] theorem apply_pip_time (k : Nat) (v : BitVec 16) : ((Effect.pip k v).apply s).time = s.time := rfl
@[simp] theorem apply_pip_mod (k : Nat) (v : BitVec 16) : ((Effect.pip k v).apply s).mod = s.mod := rfl
@[simp] theorem apply_pip_nv (k : Nat) (v : BitVec 16) : ((Effect.pip k v).apply s).nv = s.nv := rfl
@[simp] theorem apply_pip_own (k : Nat) (v : BitVec 16) : ((Effect.pip k v).apply s).own = s.own := rfl
@[simp] theorem apply_pip_err (k : Nat) (v : BitVec 16) : ((Effect.pip k v).apply s).err = s.err := rfl
@[simp] theorem apply_pip_pw (k : Nat) (v : BitVec 16) : ((Effect.pip k v).apply s).pw = s.pw := rfl
@[simp] theorem apply_pip_host (k : Nat) (v : BitVec 16) : ((Effect.pip k v).apply s).host = s.host := rfl
@[simp] theorem apply_pip_fab (k : Nat) (v : BitVec 16) : ((Effect.pip k v).apply s).fab = s.fab := rfl
@[simp] theorem apply_pip_threads (k : Nat) (v : BitVec 16) : ((Effect.pip k v).apply s).threads = s.threads := rfl
@[simp] theorem apply_pip_turns (k : Nat) (v : BitVec 16) : ((Effect.pip k v).apply s).turns = s.turns := rfl
@[simp] theorem apply_pip_pips (k : Nat) (v : BitVec 16) : ((Effect.pip k v).apply s).pips = tput 0 s.pips k v := rfl
@[simp] theorem apply_pip_vbufs (k : Nat) (v : BitVec 16) : ((Effect.pip k v).apply s).vbufs = s.vbufs := rfl
@[simp] theorem apply_pip_queues (k : Nat) (v : BitVec 16) : ((Effect.pip k v).apply s).queues = s.queues := rfl
@[simp] theorem apply_pip_parts (k : Nat) (v : BitVec 16) : ((Effect.pip k v).apply s).parts = s.parts := rfl
@[simp] theorem apply_pip_pools (k : Nat) (v : BitVec 16) : ((Effect.pip k v).apply s).pools = s.pools := rfl
@[simp] theorem apply_pip_groups (k : Nat) (v : BitVec 16) : ((Effect.pip k v).apply s).groups = s.groups := rfl
@[simp] theorem apply_pip_ports (k : Nat) (v : BitVec 16) : ((Effect.pip k v).apply s).ports = s.ports := rfl
@[simp] theorem apply_pip_eptSlots (k : Nat) (v : BitVec 16) : ((Effect.pip k v).apply s).eptSlots = s.eptSlots := rfl
@[simp] theorem apply_pip_submits (k : Nat) (v : BitVec 16) : ((Effect.pip k v).apply s).submits = s.submits := rfl
@[simp] theorem apply_pip_tagsDone (k : Nat) (v : BitVec 16) : ((Effect.pip k v).apply s).tagsDone = s.tagsDone := rfl
@[simp] theorem apply_pip_samples (k : Nat) (v : BitVec 16) : ((Effect.pip k v).apply s).samples = s.samples := rfl
@[simp] theorem apply_pip_loads (k : Nat) (v : BitVec 16) : ((Effect.pip k v).apply s).loads = s.loads := rfl
@[simp] theorem apply_pip_launches (k : Nat) (v : BitVec 16) : ((Effect.pip k v).apply s).launches = s.launches := rfl
@[simp] theorem apply_pip_colls (k : Nat) (v : BitVec 16) : ((Effect.pip k v).apply s).colls = s.colls := rfl
@[simp] theorem apply_pip_freeIdx (k : Nat) (v : BitVec 16) : ((Effect.pip k v).apply s).freeIdx = s.freeIdx := rfl
@[simp] theorem apply_pip_out (k : Nat) (v : BitVec 16) : ((Effect.pip k v).apply s).out = s.out := rfl

/-! ## pipsKeep -/

@[simp] theorem apply_pipsKeep_pending (f : Nat → Bool) : ((Effect.pipsKeep f).apply s).pending = s.pending := rfl
@[simp] theorem apply_pipsKeep_regs (f : Nat → Bool) : ((Effect.pipsKeep f).apply s).regs = s.regs := rfl
@[simp] theorem apply_pipsKeep_mem (f : Nat → Bool) : ((Effect.pipsKeep f).apply s).mem = s.mem := rfl
@[simp] theorem apply_pipsKeep_mem2 (f : Nat → Bool) : ((Effect.pipsKeep f).apply s).mem2 = s.mem2 := rfl
@[simp] theorem apply_pipsKeep_time (f : Nat → Bool) : ((Effect.pipsKeep f).apply s).time = s.time := rfl
@[simp] theorem apply_pipsKeep_mod (f : Nat → Bool) : ((Effect.pipsKeep f).apply s).mod = s.mod := rfl
@[simp] theorem apply_pipsKeep_nv (f : Nat → Bool) : ((Effect.pipsKeep f).apply s).nv = s.nv := rfl
@[simp] theorem apply_pipsKeep_own (f : Nat → Bool) : ((Effect.pipsKeep f).apply s).own = s.own := rfl
@[simp] theorem apply_pipsKeep_err (f : Nat → Bool) : ((Effect.pipsKeep f).apply s).err = s.err := rfl
@[simp] theorem apply_pipsKeep_pw (f : Nat → Bool) : ((Effect.pipsKeep f).apply s).pw = s.pw := rfl
@[simp] theorem apply_pipsKeep_host (f : Nat → Bool) : ((Effect.pipsKeep f).apply s).host = s.host := rfl
@[simp] theorem apply_pipsKeep_fab (f : Nat → Bool) : ((Effect.pipsKeep f).apply s).fab = s.fab := rfl
@[simp] theorem apply_pipsKeep_threads (f : Nat → Bool) : ((Effect.pipsKeep f).apply s).threads = s.threads := rfl
@[simp] theorem apply_pipsKeep_turns (f : Nat → Bool) : ((Effect.pipsKeep f).apply s).turns = s.turns := rfl
@[simp] theorem apply_pipsKeep_pips (f : Nat → Bool) : ((Effect.pipsKeep f).apply s).pips = tkeep f s.pips := rfl
@[simp] theorem apply_pipsKeep_vbufs (f : Nat → Bool) : ((Effect.pipsKeep f).apply s).vbufs = s.vbufs := rfl
@[simp] theorem apply_pipsKeep_queues (f : Nat → Bool) : ((Effect.pipsKeep f).apply s).queues = s.queues := rfl
@[simp] theorem apply_pipsKeep_parts (f : Nat → Bool) : ((Effect.pipsKeep f).apply s).parts = s.parts := rfl
@[simp] theorem apply_pipsKeep_pools (f : Nat → Bool) : ((Effect.pipsKeep f).apply s).pools = s.pools := rfl
@[simp] theorem apply_pipsKeep_groups (f : Nat → Bool) : ((Effect.pipsKeep f).apply s).groups = s.groups := rfl
@[simp] theorem apply_pipsKeep_ports (f : Nat → Bool) : ((Effect.pipsKeep f).apply s).ports = s.ports := rfl
@[simp] theorem apply_pipsKeep_eptSlots (f : Nat → Bool) : ((Effect.pipsKeep f).apply s).eptSlots = s.eptSlots := rfl
@[simp] theorem apply_pipsKeep_submits (f : Nat → Bool) : ((Effect.pipsKeep f).apply s).submits = s.submits := rfl
@[simp] theorem apply_pipsKeep_tagsDone (f : Nat → Bool) : ((Effect.pipsKeep f).apply s).tagsDone = s.tagsDone := rfl
@[simp] theorem apply_pipsKeep_samples (f : Nat → Bool) : ((Effect.pipsKeep f).apply s).samples = s.samples := rfl
@[simp] theorem apply_pipsKeep_loads (f : Nat → Bool) : ((Effect.pipsKeep f).apply s).loads = s.loads := rfl
@[simp] theorem apply_pipsKeep_launches (f : Nat → Bool) : ((Effect.pipsKeep f).apply s).launches = s.launches := rfl
@[simp] theorem apply_pipsKeep_colls (f : Nat → Bool) : ((Effect.pipsKeep f).apply s).colls = s.colls := rfl
@[simp] theorem apply_pipsKeep_freeIdx (f : Nat → Bool) : ((Effect.pipsKeep f).apply s).freeIdx = s.freeIdx := rfl
@[simp] theorem apply_pipsKeep_out (f : Nat → Bool) : ((Effect.pipsKeep f).apply s).out = s.out := rfl

/-! ## vbuf -/

@[simp] theorem apply_vbuf_pending (k : Nat) (v : VBuf) : ((Effect.vbuf k v).apply s).pending = s.pending := rfl
@[simp] theorem apply_vbuf_regs (k : Nat) (v : VBuf) : ((Effect.vbuf k v).apply s).regs = s.regs := rfl
@[simp] theorem apply_vbuf_mem (k : Nat) (v : VBuf) : ((Effect.vbuf k v).apply s).mem = s.mem := rfl
@[simp] theorem apply_vbuf_mem2 (k : Nat) (v : VBuf) : ((Effect.vbuf k v).apply s).mem2 = s.mem2 := rfl
@[simp] theorem apply_vbuf_time (k : Nat) (v : VBuf) : ((Effect.vbuf k v).apply s).time = s.time := rfl
@[simp] theorem apply_vbuf_mod (k : Nat) (v : VBuf) : ((Effect.vbuf k v).apply s).mod = s.mod := rfl
@[simp] theorem apply_vbuf_nv (k : Nat) (v : VBuf) : ((Effect.vbuf k v).apply s).nv = s.nv := rfl
@[simp] theorem apply_vbuf_own (k : Nat) (v : VBuf) : ((Effect.vbuf k v).apply s).own = s.own := rfl
@[simp] theorem apply_vbuf_err (k : Nat) (v : VBuf) : ((Effect.vbuf k v).apply s).err = s.err := rfl
@[simp] theorem apply_vbuf_pw (k : Nat) (v : VBuf) : ((Effect.vbuf k v).apply s).pw = s.pw := rfl
@[simp] theorem apply_vbuf_host (k : Nat) (v : VBuf) : ((Effect.vbuf k v).apply s).host = s.host := rfl
@[simp] theorem apply_vbuf_fab (k : Nat) (v : VBuf) : ((Effect.vbuf k v).apply s).fab = s.fab := rfl
@[simp] theorem apply_vbuf_threads (k : Nat) (v : VBuf) : ((Effect.vbuf k v).apply s).threads = s.threads := rfl
@[simp] theorem apply_vbuf_turns (k : Nat) (v : VBuf) : ((Effect.vbuf k v).apply s).turns = s.turns := rfl
@[simp] theorem apply_vbuf_pips (k : Nat) (v : VBuf) : ((Effect.vbuf k v).apply s).pips = s.pips := rfl
@[simp] theorem apply_vbuf_vbufs (k : Nat) (v : VBuf) : ((Effect.vbuf k v).apply s).vbufs = tput {} s.vbufs k v := rfl
@[simp] theorem apply_vbuf_queues (k : Nat) (v : VBuf) : ((Effect.vbuf k v).apply s).queues = s.queues := rfl
@[simp] theorem apply_vbuf_parts (k : Nat) (v : VBuf) : ((Effect.vbuf k v).apply s).parts = s.parts := rfl
@[simp] theorem apply_vbuf_pools (k : Nat) (v : VBuf) : ((Effect.vbuf k v).apply s).pools = s.pools := rfl
@[simp] theorem apply_vbuf_groups (k : Nat) (v : VBuf) : ((Effect.vbuf k v).apply s).groups = s.groups := rfl
@[simp] theorem apply_vbuf_ports (k : Nat) (v : VBuf) : ((Effect.vbuf k v).apply s).ports = s.ports := rfl
@[simp] theorem apply_vbuf_eptSlots (k : Nat) (v : VBuf) : ((Effect.vbuf k v).apply s).eptSlots = s.eptSlots := rfl
@[simp] theorem apply_vbuf_submits (k : Nat) (v : VBuf) : ((Effect.vbuf k v).apply s).submits = s.submits := rfl
@[simp] theorem apply_vbuf_tagsDone (k : Nat) (v : VBuf) : ((Effect.vbuf k v).apply s).tagsDone = s.tagsDone := rfl
@[simp] theorem apply_vbuf_samples (k : Nat) (v : VBuf) : ((Effect.vbuf k v).apply s).samples = s.samples := rfl
@[simp] theorem apply_vbuf_loads (k : Nat) (v : VBuf) : ((Effect.vbuf k v).apply s).loads = s.loads := rfl
@[simp] theorem apply_vbuf_launches (k : Nat) (v : VBuf) : ((Effect.vbuf k v).apply s).launches = s.launches := rfl
@[simp] theorem apply_vbuf_colls (k : Nat) (v : VBuf) : ((Effect.vbuf k v).apply s).colls = s.colls := rfl
@[simp] theorem apply_vbuf_freeIdx (k : Nat) (v : VBuf) : ((Effect.vbuf k v).apply s).freeIdx = s.freeIdx := rfl
@[simp] theorem apply_vbuf_out (k : Nat) (v : VBuf) : ((Effect.vbuf k v).apply s).out = s.out := rfl

/-! ## vbufsKeep -/

@[simp] theorem apply_vbufsKeep_pending (f : Nat → Bool) : ((Effect.vbufsKeep f).apply s).pending = s.pending := rfl
@[simp] theorem apply_vbufsKeep_regs (f : Nat → Bool) : ((Effect.vbufsKeep f).apply s).regs = s.regs := rfl
@[simp] theorem apply_vbufsKeep_mem (f : Nat → Bool) : ((Effect.vbufsKeep f).apply s).mem = s.mem := rfl
@[simp] theorem apply_vbufsKeep_mem2 (f : Nat → Bool) : ((Effect.vbufsKeep f).apply s).mem2 = s.mem2 := rfl
@[simp] theorem apply_vbufsKeep_time (f : Nat → Bool) : ((Effect.vbufsKeep f).apply s).time = s.time := rfl
@[simp] theorem apply_vbufsKeep_mod (f : Nat → Bool) : ((Effect.vbufsKeep f).apply s).mod = s.mod := rfl
@[simp] theorem apply_vbufsKeep_nv (f : Nat → Bool) : ((Effect.vbufsKeep f).apply s).nv = s.nv := rfl
@[simp] theorem apply_vbufsKeep_own (f : Nat → Bool) : ((Effect.vbufsKeep f).apply s).own = s.own := rfl
@[simp] theorem apply_vbufsKeep_err (f : Nat → Bool) : ((Effect.vbufsKeep f).apply s).err = s.err := rfl
@[simp] theorem apply_vbufsKeep_pw (f : Nat → Bool) : ((Effect.vbufsKeep f).apply s).pw = s.pw := rfl
@[simp] theorem apply_vbufsKeep_host (f : Nat → Bool) : ((Effect.vbufsKeep f).apply s).host = s.host := rfl
@[simp] theorem apply_vbufsKeep_fab (f : Nat → Bool) : ((Effect.vbufsKeep f).apply s).fab = s.fab := rfl
@[simp] theorem apply_vbufsKeep_threads (f : Nat → Bool) : ((Effect.vbufsKeep f).apply s).threads = s.threads := rfl
@[simp] theorem apply_vbufsKeep_turns (f : Nat → Bool) : ((Effect.vbufsKeep f).apply s).turns = s.turns := rfl
@[simp] theorem apply_vbufsKeep_pips (f : Nat → Bool) : ((Effect.vbufsKeep f).apply s).pips = s.pips := rfl
@[simp] theorem apply_vbufsKeep_vbufs (f : Nat → Bool) : ((Effect.vbufsKeep f).apply s).vbufs = tkeep f s.vbufs := rfl
@[simp] theorem apply_vbufsKeep_queues (f : Nat → Bool) : ((Effect.vbufsKeep f).apply s).queues = s.queues := rfl
@[simp] theorem apply_vbufsKeep_parts (f : Nat → Bool) : ((Effect.vbufsKeep f).apply s).parts = s.parts := rfl
@[simp] theorem apply_vbufsKeep_pools (f : Nat → Bool) : ((Effect.vbufsKeep f).apply s).pools = s.pools := rfl
@[simp] theorem apply_vbufsKeep_groups (f : Nat → Bool) : ((Effect.vbufsKeep f).apply s).groups = s.groups := rfl
@[simp] theorem apply_vbufsKeep_ports (f : Nat → Bool) : ((Effect.vbufsKeep f).apply s).ports = s.ports := rfl
@[simp] theorem apply_vbufsKeep_eptSlots (f : Nat → Bool) : ((Effect.vbufsKeep f).apply s).eptSlots = s.eptSlots := rfl
@[simp] theorem apply_vbufsKeep_submits (f : Nat → Bool) : ((Effect.vbufsKeep f).apply s).submits = s.submits := rfl
@[simp] theorem apply_vbufsKeep_tagsDone (f : Nat → Bool) : ((Effect.vbufsKeep f).apply s).tagsDone = s.tagsDone := rfl
@[simp] theorem apply_vbufsKeep_samples (f : Nat → Bool) : ((Effect.vbufsKeep f).apply s).samples = s.samples := rfl
@[simp] theorem apply_vbufsKeep_loads (f : Nat → Bool) : ((Effect.vbufsKeep f).apply s).loads = s.loads := rfl
@[simp] theorem apply_vbufsKeep_launches (f : Nat → Bool) : ((Effect.vbufsKeep f).apply s).launches = s.launches := rfl
@[simp] theorem apply_vbufsKeep_colls (f : Nat → Bool) : ((Effect.vbufsKeep f).apply s).colls = s.colls := rfl
@[simp] theorem apply_vbufsKeep_freeIdx (f : Nat → Bool) : ((Effect.vbufsKeep f).apply s).freeIdx = s.freeIdx := rfl
@[simp] theorem apply_vbufsKeep_out (f : Nat → Bool) : ((Effect.vbufsKeep f).apply s).out = s.out := rfl

/-! ## queue -/

@[simp] theorem apply_queue_pending (k : Nat) (v : Queue) : ((Effect.queue k v).apply s).pending = s.pending := rfl
@[simp] theorem apply_queue_regs (k : Nat) (v : Queue) : ((Effect.queue k v).apply s).regs = s.regs := rfl
@[simp] theorem apply_queue_mem (k : Nat) (v : Queue) : ((Effect.queue k v).apply s).mem = s.mem := rfl
@[simp] theorem apply_queue_mem2 (k : Nat) (v : Queue) : ((Effect.queue k v).apply s).mem2 = s.mem2 := rfl
@[simp] theorem apply_queue_time (k : Nat) (v : Queue) : ((Effect.queue k v).apply s).time = s.time := rfl
@[simp] theorem apply_queue_mod (k : Nat) (v : Queue) : ((Effect.queue k v).apply s).mod = s.mod := rfl
@[simp] theorem apply_queue_nv (k : Nat) (v : Queue) : ((Effect.queue k v).apply s).nv = s.nv := rfl
@[simp] theorem apply_queue_own (k : Nat) (v : Queue) : ((Effect.queue k v).apply s).own = s.own := rfl
@[simp] theorem apply_queue_err (k : Nat) (v : Queue) : ((Effect.queue k v).apply s).err = s.err := rfl
@[simp] theorem apply_queue_pw (k : Nat) (v : Queue) : ((Effect.queue k v).apply s).pw = s.pw := rfl
@[simp] theorem apply_queue_host (k : Nat) (v : Queue) : ((Effect.queue k v).apply s).host = s.host := rfl
@[simp] theorem apply_queue_fab (k : Nat) (v : Queue) : ((Effect.queue k v).apply s).fab = s.fab := rfl
@[simp] theorem apply_queue_threads (k : Nat) (v : Queue) : ((Effect.queue k v).apply s).threads = s.threads := rfl
@[simp] theorem apply_queue_turns (k : Nat) (v : Queue) : ((Effect.queue k v).apply s).turns = s.turns := rfl
@[simp] theorem apply_queue_pips (k : Nat) (v : Queue) : ((Effect.queue k v).apply s).pips = s.pips := rfl
@[simp] theorem apply_queue_vbufs (k : Nat) (v : Queue) : ((Effect.queue k v).apply s).vbufs = s.vbufs := rfl
@[simp] theorem apply_queue_queues (k : Nat) (v : Queue) : ((Effect.queue k v).apply s).queues = tput {} s.queues k v := rfl
@[simp] theorem apply_queue_parts (k : Nat) (v : Queue) : ((Effect.queue k v).apply s).parts = s.parts := rfl
@[simp] theorem apply_queue_pools (k : Nat) (v : Queue) : ((Effect.queue k v).apply s).pools = s.pools := rfl
@[simp] theorem apply_queue_groups (k : Nat) (v : Queue) : ((Effect.queue k v).apply s).groups = s.groups := rfl
@[simp] theorem apply_queue_ports (k : Nat) (v : Queue) : ((Effect.queue k v).apply s).ports = s.ports := rfl
@[simp] theorem apply_queue_eptSlots (k : Nat) (v : Queue) : ((Effect.queue k v).apply s).eptSlots = s.eptSlots := rfl
@[simp] theorem apply_queue_submits (k : Nat) (v : Queue) : ((Effect.queue k v).apply s).submits = s.submits := rfl
@[simp] theorem apply_queue_tagsDone (k : Nat) (v : Queue) : ((Effect.queue k v).apply s).tagsDone = s.tagsDone := rfl
@[simp] theorem apply_queue_samples (k : Nat) (v : Queue) : ((Effect.queue k v).apply s).samples = s.samples := rfl
@[simp] theorem apply_queue_loads (k : Nat) (v : Queue) : ((Effect.queue k v).apply s).loads = s.loads := rfl
@[simp] theorem apply_queue_launches (k : Nat) (v : Queue) : ((Effect.queue k v).apply s).launches = s.launches := rfl
@[simp] theorem apply_queue_colls (k : Nat) (v : Queue) : ((Effect.queue k v).apply s).colls = s.colls := rfl
@[simp] theorem apply_queue_freeIdx (k : Nat) (v : Queue) : ((Effect.queue k v).apply s).freeIdx = s.freeIdx := rfl
@[simp] theorem apply_queue_out (k : Nat) (v : Queue) : ((Effect.queue k v).apply s).out = s.out := rfl

/-! ## queuesKeep -/

@[simp] theorem apply_queuesKeep_pending (f : Nat → Bool) : ((Effect.queuesKeep f).apply s).pending = s.pending := rfl
@[simp] theorem apply_queuesKeep_regs (f : Nat → Bool) : ((Effect.queuesKeep f).apply s).regs = s.regs := rfl
@[simp] theorem apply_queuesKeep_mem (f : Nat → Bool) : ((Effect.queuesKeep f).apply s).mem = s.mem := rfl
@[simp] theorem apply_queuesKeep_mem2 (f : Nat → Bool) : ((Effect.queuesKeep f).apply s).mem2 = s.mem2 := rfl
@[simp] theorem apply_queuesKeep_time (f : Nat → Bool) : ((Effect.queuesKeep f).apply s).time = s.time := rfl
@[simp] theorem apply_queuesKeep_mod (f : Nat → Bool) : ((Effect.queuesKeep f).apply s).mod = s.mod := rfl
@[simp] theorem apply_queuesKeep_nv (f : Nat → Bool) : ((Effect.queuesKeep f).apply s).nv = s.nv := rfl
@[simp] theorem apply_queuesKeep_own (f : Nat → Bool) : ((Effect.queuesKeep f).apply s).own = s.own := rfl
@[simp] theorem apply_queuesKeep_err (f : Nat → Bool) : ((Effect.queuesKeep f).apply s).err = s.err := rfl
@[simp] theorem apply_queuesKeep_pw (f : Nat → Bool) : ((Effect.queuesKeep f).apply s).pw = s.pw := rfl
@[simp] theorem apply_queuesKeep_host (f : Nat → Bool) : ((Effect.queuesKeep f).apply s).host = s.host := rfl
@[simp] theorem apply_queuesKeep_fab (f : Nat → Bool) : ((Effect.queuesKeep f).apply s).fab = s.fab := rfl
@[simp] theorem apply_queuesKeep_threads (f : Nat → Bool) : ((Effect.queuesKeep f).apply s).threads = s.threads := rfl
@[simp] theorem apply_queuesKeep_turns (f : Nat → Bool) : ((Effect.queuesKeep f).apply s).turns = s.turns := rfl
@[simp] theorem apply_queuesKeep_pips (f : Nat → Bool) : ((Effect.queuesKeep f).apply s).pips = s.pips := rfl
@[simp] theorem apply_queuesKeep_vbufs (f : Nat → Bool) : ((Effect.queuesKeep f).apply s).vbufs = s.vbufs := rfl
@[simp] theorem apply_queuesKeep_queues (f : Nat → Bool) : ((Effect.queuesKeep f).apply s).queues = tkeep f s.queues := rfl
@[simp] theorem apply_queuesKeep_parts (f : Nat → Bool) : ((Effect.queuesKeep f).apply s).parts = s.parts := rfl
@[simp] theorem apply_queuesKeep_pools (f : Nat → Bool) : ((Effect.queuesKeep f).apply s).pools = s.pools := rfl
@[simp] theorem apply_queuesKeep_groups (f : Nat → Bool) : ((Effect.queuesKeep f).apply s).groups = s.groups := rfl
@[simp] theorem apply_queuesKeep_ports (f : Nat → Bool) : ((Effect.queuesKeep f).apply s).ports = s.ports := rfl
@[simp] theorem apply_queuesKeep_eptSlots (f : Nat → Bool) : ((Effect.queuesKeep f).apply s).eptSlots = s.eptSlots := rfl
@[simp] theorem apply_queuesKeep_submits (f : Nat → Bool) : ((Effect.queuesKeep f).apply s).submits = s.submits := rfl
@[simp] theorem apply_queuesKeep_tagsDone (f : Nat → Bool) : ((Effect.queuesKeep f).apply s).tagsDone = s.tagsDone := rfl
@[simp] theorem apply_queuesKeep_samples (f : Nat → Bool) : ((Effect.queuesKeep f).apply s).samples = s.samples := rfl
@[simp] theorem apply_queuesKeep_loads (f : Nat → Bool) : ((Effect.queuesKeep f).apply s).loads = s.loads := rfl
@[simp] theorem apply_queuesKeep_launches (f : Nat → Bool) : ((Effect.queuesKeep f).apply s).launches = s.launches := rfl
@[simp] theorem apply_queuesKeep_colls (f : Nat → Bool) : ((Effect.queuesKeep f).apply s).colls = s.colls := rfl
@[simp] theorem apply_queuesKeep_freeIdx (f : Nat → Bool) : ((Effect.queuesKeep f).apply s).freeIdx = s.freeIdx := rfl
@[simp] theorem apply_queuesKeep_out (f : Nat → Bool) : ((Effect.queuesKeep f).apply s).out = s.out := rfl

/-! ## part -/

@[simp] theorem apply_part_pending (k : Nat) (v : Part) : ((Effect.part k v).apply s).pending = s.pending := rfl
@[simp] theorem apply_part_regs (k : Nat) (v : Part) : ((Effect.part k v).apply s).regs = s.regs := rfl
@[simp] theorem apply_part_mem (k : Nat) (v : Part) : ((Effect.part k v).apply s).mem = s.mem := rfl
@[simp] theorem apply_part_mem2 (k : Nat) (v : Part) : ((Effect.part k v).apply s).mem2 = s.mem2 := rfl
@[simp] theorem apply_part_time (k : Nat) (v : Part) : ((Effect.part k v).apply s).time = s.time := rfl
@[simp] theorem apply_part_mod (k : Nat) (v : Part) : ((Effect.part k v).apply s).mod = s.mod := rfl
@[simp] theorem apply_part_nv (k : Nat) (v : Part) : ((Effect.part k v).apply s).nv = s.nv := rfl
@[simp] theorem apply_part_own (k : Nat) (v : Part) : ((Effect.part k v).apply s).own = s.own := rfl
@[simp] theorem apply_part_err (k : Nat) (v : Part) : ((Effect.part k v).apply s).err = s.err := rfl
@[simp] theorem apply_part_pw (k : Nat) (v : Part) : ((Effect.part k v).apply s).pw = s.pw := rfl
@[simp] theorem apply_part_host (k : Nat) (v : Part) : ((Effect.part k v).apply s).host = s.host := rfl
@[simp] theorem apply_part_fab (k : Nat) (v : Part) : ((Effect.part k v).apply s).fab = s.fab := rfl
@[simp] theorem apply_part_threads (k : Nat) (v : Part) : ((Effect.part k v).apply s).threads = s.threads := rfl
@[simp] theorem apply_part_turns (k : Nat) (v : Part) : ((Effect.part k v).apply s).turns = s.turns := rfl
@[simp] theorem apply_part_pips (k : Nat) (v : Part) : ((Effect.part k v).apply s).pips = s.pips := rfl
@[simp] theorem apply_part_vbufs (k : Nat) (v : Part) : ((Effect.part k v).apply s).vbufs = s.vbufs := rfl
@[simp] theorem apply_part_queues (k : Nat) (v : Part) : ((Effect.part k v).apply s).queues = s.queues := rfl
@[simp] theorem apply_part_parts (k : Nat) (v : Part) : ((Effect.part k v).apply s).parts = tput {} s.parts k v := rfl
@[simp] theorem apply_part_pools (k : Nat) (v : Part) : ((Effect.part k v).apply s).pools = s.pools := rfl
@[simp] theorem apply_part_groups (k : Nat) (v : Part) : ((Effect.part k v).apply s).groups = s.groups := rfl
@[simp] theorem apply_part_ports (k : Nat) (v : Part) : ((Effect.part k v).apply s).ports = s.ports := rfl
@[simp] theorem apply_part_eptSlots (k : Nat) (v : Part) : ((Effect.part k v).apply s).eptSlots = s.eptSlots := rfl
@[simp] theorem apply_part_submits (k : Nat) (v : Part) : ((Effect.part k v).apply s).submits = s.submits := rfl
@[simp] theorem apply_part_tagsDone (k : Nat) (v : Part) : ((Effect.part k v).apply s).tagsDone = s.tagsDone := rfl
@[simp] theorem apply_part_samples (k : Nat) (v : Part) : ((Effect.part k v).apply s).samples = s.samples := rfl
@[simp] theorem apply_part_loads (k : Nat) (v : Part) : ((Effect.part k v).apply s).loads = s.loads := rfl
@[simp] theorem apply_part_launches (k : Nat) (v : Part) : ((Effect.part k v).apply s).launches = s.launches := rfl
@[simp] theorem apply_part_colls (k : Nat) (v : Part) : ((Effect.part k v).apply s).colls = s.colls := rfl
@[simp] theorem apply_part_freeIdx (k : Nat) (v : Part) : ((Effect.part k v).apply s).freeIdx = s.freeIdx := rfl
@[simp] theorem apply_part_out (k : Nat) (v : Part) : ((Effect.part k v).apply s).out = s.out := rfl

/-! ## partsKeep -/

@[simp] theorem apply_partsKeep_pending (f : Nat → Bool) : ((Effect.partsKeep f).apply s).pending = s.pending := rfl
@[simp] theorem apply_partsKeep_regs (f : Nat → Bool) : ((Effect.partsKeep f).apply s).regs = s.regs := rfl
@[simp] theorem apply_partsKeep_mem (f : Nat → Bool) : ((Effect.partsKeep f).apply s).mem = s.mem := rfl
@[simp] theorem apply_partsKeep_mem2 (f : Nat → Bool) : ((Effect.partsKeep f).apply s).mem2 = s.mem2 := rfl
@[simp] theorem apply_partsKeep_time (f : Nat → Bool) : ((Effect.partsKeep f).apply s).time = s.time := rfl
@[simp] theorem apply_partsKeep_mod (f : Nat → Bool) : ((Effect.partsKeep f).apply s).mod = s.mod := rfl
@[simp] theorem apply_partsKeep_nv (f : Nat → Bool) : ((Effect.partsKeep f).apply s).nv = s.nv := rfl
@[simp] theorem apply_partsKeep_own (f : Nat → Bool) : ((Effect.partsKeep f).apply s).own = s.own := rfl
@[simp] theorem apply_partsKeep_err (f : Nat → Bool) : ((Effect.partsKeep f).apply s).err = s.err := rfl
@[simp] theorem apply_partsKeep_pw (f : Nat → Bool) : ((Effect.partsKeep f).apply s).pw = s.pw := rfl
@[simp] theorem apply_partsKeep_host (f : Nat → Bool) : ((Effect.partsKeep f).apply s).host = s.host := rfl
@[simp] theorem apply_partsKeep_fab (f : Nat → Bool) : ((Effect.partsKeep f).apply s).fab = s.fab := rfl
@[simp] theorem apply_partsKeep_threads (f : Nat → Bool) : ((Effect.partsKeep f).apply s).threads = s.threads := rfl
@[simp] theorem apply_partsKeep_turns (f : Nat → Bool) : ((Effect.partsKeep f).apply s).turns = s.turns := rfl
@[simp] theorem apply_partsKeep_pips (f : Nat → Bool) : ((Effect.partsKeep f).apply s).pips = s.pips := rfl
@[simp] theorem apply_partsKeep_vbufs (f : Nat → Bool) : ((Effect.partsKeep f).apply s).vbufs = s.vbufs := rfl
@[simp] theorem apply_partsKeep_queues (f : Nat → Bool) : ((Effect.partsKeep f).apply s).queues = s.queues := rfl
@[simp] theorem apply_partsKeep_parts (f : Nat → Bool) : ((Effect.partsKeep f).apply s).parts = tkeep f s.parts := rfl
@[simp] theorem apply_partsKeep_pools (f : Nat → Bool) : ((Effect.partsKeep f).apply s).pools = s.pools := rfl
@[simp] theorem apply_partsKeep_groups (f : Nat → Bool) : ((Effect.partsKeep f).apply s).groups = s.groups := rfl
@[simp] theorem apply_partsKeep_ports (f : Nat → Bool) : ((Effect.partsKeep f).apply s).ports = s.ports := rfl
@[simp] theorem apply_partsKeep_eptSlots (f : Nat → Bool) : ((Effect.partsKeep f).apply s).eptSlots = s.eptSlots := rfl
@[simp] theorem apply_partsKeep_submits (f : Nat → Bool) : ((Effect.partsKeep f).apply s).submits = s.submits := rfl
@[simp] theorem apply_partsKeep_tagsDone (f : Nat → Bool) : ((Effect.partsKeep f).apply s).tagsDone = s.tagsDone := rfl
@[simp] theorem apply_partsKeep_samples (f : Nat → Bool) : ((Effect.partsKeep f).apply s).samples = s.samples := rfl
@[simp] theorem apply_partsKeep_loads (f : Nat → Bool) : ((Effect.partsKeep f).apply s).loads = s.loads := rfl
@[simp] theorem apply_partsKeep_launches (f : Nat → Bool) : ((Effect.partsKeep f).apply s).launches = s.launches := rfl
@[simp] theorem apply_partsKeep_colls (f : Nat → Bool) : ((Effect.partsKeep f).apply s).colls = s.colls := rfl
@[simp] theorem apply_partsKeep_freeIdx (f : Nat → Bool) : ((Effect.partsKeep f).apply s).freeIdx = s.freeIdx := rfl
@[simp] theorem apply_partsKeep_out (f : Nat → Bool) : ((Effect.partsKeep f).apply s).out = s.out := rfl

/-! ## pool -/

@[simp] theorem apply_pool_pending (k : Nat) (v : Pool) : ((Effect.pool k v).apply s).pending = s.pending := rfl
@[simp] theorem apply_pool_regs (k : Nat) (v : Pool) : ((Effect.pool k v).apply s).regs = s.regs := rfl
@[simp] theorem apply_pool_mem (k : Nat) (v : Pool) : ((Effect.pool k v).apply s).mem = s.mem := rfl
@[simp] theorem apply_pool_mem2 (k : Nat) (v : Pool) : ((Effect.pool k v).apply s).mem2 = s.mem2 := rfl
@[simp] theorem apply_pool_time (k : Nat) (v : Pool) : ((Effect.pool k v).apply s).time = s.time := rfl
@[simp] theorem apply_pool_mod (k : Nat) (v : Pool) : ((Effect.pool k v).apply s).mod = s.mod := rfl
@[simp] theorem apply_pool_nv (k : Nat) (v : Pool) : ((Effect.pool k v).apply s).nv = s.nv := rfl
@[simp] theorem apply_pool_own (k : Nat) (v : Pool) : ((Effect.pool k v).apply s).own = s.own := rfl
@[simp] theorem apply_pool_err (k : Nat) (v : Pool) : ((Effect.pool k v).apply s).err = s.err := rfl
@[simp] theorem apply_pool_pw (k : Nat) (v : Pool) : ((Effect.pool k v).apply s).pw = s.pw := rfl
@[simp] theorem apply_pool_host (k : Nat) (v : Pool) : ((Effect.pool k v).apply s).host = s.host := rfl
@[simp] theorem apply_pool_fab (k : Nat) (v : Pool) : ((Effect.pool k v).apply s).fab = s.fab := rfl
@[simp] theorem apply_pool_threads (k : Nat) (v : Pool) : ((Effect.pool k v).apply s).threads = s.threads := rfl
@[simp] theorem apply_pool_turns (k : Nat) (v : Pool) : ((Effect.pool k v).apply s).turns = s.turns := rfl
@[simp] theorem apply_pool_pips (k : Nat) (v : Pool) : ((Effect.pool k v).apply s).pips = s.pips := rfl
@[simp] theorem apply_pool_vbufs (k : Nat) (v : Pool) : ((Effect.pool k v).apply s).vbufs = s.vbufs := rfl
@[simp] theorem apply_pool_queues (k : Nat) (v : Pool) : ((Effect.pool k v).apply s).queues = s.queues := rfl
@[simp] theorem apply_pool_parts (k : Nat) (v : Pool) : ((Effect.pool k v).apply s).parts = s.parts := rfl
@[simp] theorem apply_pool_pools (k : Nat) (v : Pool) : ((Effect.pool k v).apply s).pools = tput {} s.pools k v := rfl
@[simp] theorem apply_pool_groups (k : Nat) (v : Pool) : ((Effect.pool k v).apply s).groups = s.groups := rfl
@[simp] theorem apply_pool_ports (k : Nat) (v : Pool) : ((Effect.pool k v).apply s).ports = s.ports := rfl
@[simp] theorem apply_pool_eptSlots (k : Nat) (v : Pool) : ((Effect.pool k v).apply s).eptSlots = s.eptSlots := rfl
@[simp] theorem apply_pool_submits (k : Nat) (v : Pool) : ((Effect.pool k v).apply s).submits = s.submits := rfl
@[simp] theorem apply_pool_tagsDone (k : Nat) (v : Pool) : ((Effect.pool k v).apply s).tagsDone = s.tagsDone := rfl
@[simp] theorem apply_pool_samples (k : Nat) (v : Pool) : ((Effect.pool k v).apply s).samples = s.samples := rfl
@[simp] theorem apply_pool_loads (k : Nat) (v : Pool) : ((Effect.pool k v).apply s).loads = s.loads := rfl
@[simp] theorem apply_pool_launches (k : Nat) (v : Pool) : ((Effect.pool k v).apply s).launches = s.launches := rfl
@[simp] theorem apply_pool_colls (k : Nat) (v : Pool) : ((Effect.pool k v).apply s).colls = s.colls := rfl
@[simp] theorem apply_pool_freeIdx (k : Nat) (v : Pool) : ((Effect.pool k v).apply s).freeIdx = s.freeIdx := rfl
@[simp] theorem apply_pool_out (k : Nat) (v : Pool) : ((Effect.pool k v).apply s).out = s.out := rfl

/-! ## poolsKeep -/

@[simp] theorem apply_poolsKeep_pending (f : Nat → Bool) : ((Effect.poolsKeep f).apply s).pending = s.pending := rfl
@[simp] theorem apply_poolsKeep_regs (f : Nat → Bool) : ((Effect.poolsKeep f).apply s).regs = s.regs := rfl
@[simp] theorem apply_poolsKeep_mem (f : Nat → Bool) : ((Effect.poolsKeep f).apply s).mem = s.mem := rfl
@[simp] theorem apply_poolsKeep_mem2 (f : Nat → Bool) : ((Effect.poolsKeep f).apply s).mem2 = s.mem2 := rfl
@[simp] theorem apply_poolsKeep_time (f : Nat → Bool) : ((Effect.poolsKeep f).apply s).time = s.time := rfl
@[simp] theorem apply_poolsKeep_mod (f : Nat → Bool) : ((Effect.poolsKeep f).apply s).mod = s.mod := rfl
@[simp] theorem apply_poolsKeep_nv (f : Nat → Bool) : ((Effect.poolsKeep f).apply s).nv = s.nv := rfl
@[simp] theorem apply_poolsKeep_own (f : Nat → Bool) : ((Effect.poolsKeep f).apply s).own = s.own := rfl
@[simp] theorem apply_poolsKeep_err (f : Nat → Bool) : ((Effect.poolsKeep f).apply s).err = s.err := rfl
@[simp] theorem apply_poolsKeep_pw (f : Nat → Bool) : ((Effect.poolsKeep f).apply s).pw = s.pw := rfl
@[simp] theorem apply_poolsKeep_host (f : Nat → Bool) : ((Effect.poolsKeep f).apply s).host = s.host := rfl
@[simp] theorem apply_poolsKeep_fab (f : Nat → Bool) : ((Effect.poolsKeep f).apply s).fab = s.fab := rfl
@[simp] theorem apply_poolsKeep_threads (f : Nat → Bool) : ((Effect.poolsKeep f).apply s).threads = s.threads := rfl
@[simp] theorem apply_poolsKeep_turns (f : Nat → Bool) : ((Effect.poolsKeep f).apply s).turns = s.turns := rfl
@[simp] theorem apply_poolsKeep_pips (f : Nat → Bool) : ((Effect.poolsKeep f).apply s).pips = s.pips := rfl
@[simp] theorem apply_poolsKeep_vbufs (f : Nat → Bool) : ((Effect.poolsKeep f).apply s).vbufs = s.vbufs := rfl
@[simp] theorem apply_poolsKeep_queues (f : Nat → Bool) : ((Effect.poolsKeep f).apply s).queues = s.queues := rfl
@[simp] theorem apply_poolsKeep_parts (f : Nat → Bool) : ((Effect.poolsKeep f).apply s).parts = s.parts := rfl
@[simp] theorem apply_poolsKeep_pools (f : Nat → Bool) : ((Effect.poolsKeep f).apply s).pools = tkeep f s.pools := rfl
@[simp] theorem apply_poolsKeep_groups (f : Nat → Bool) : ((Effect.poolsKeep f).apply s).groups = s.groups := rfl
@[simp] theorem apply_poolsKeep_ports (f : Nat → Bool) : ((Effect.poolsKeep f).apply s).ports = s.ports := rfl
@[simp] theorem apply_poolsKeep_eptSlots (f : Nat → Bool) : ((Effect.poolsKeep f).apply s).eptSlots = s.eptSlots := rfl
@[simp] theorem apply_poolsKeep_submits (f : Nat → Bool) : ((Effect.poolsKeep f).apply s).submits = s.submits := rfl
@[simp] theorem apply_poolsKeep_tagsDone (f : Nat → Bool) : ((Effect.poolsKeep f).apply s).tagsDone = s.tagsDone := rfl
@[simp] theorem apply_poolsKeep_samples (f : Nat → Bool) : ((Effect.poolsKeep f).apply s).samples = s.samples := rfl
@[simp] theorem apply_poolsKeep_loads (f : Nat → Bool) : ((Effect.poolsKeep f).apply s).loads = s.loads := rfl
@[simp] theorem apply_poolsKeep_launches (f : Nat → Bool) : ((Effect.poolsKeep f).apply s).launches = s.launches := rfl
@[simp] theorem apply_poolsKeep_colls (f : Nat → Bool) : ((Effect.poolsKeep f).apply s).colls = s.colls := rfl
@[simp] theorem apply_poolsKeep_freeIdx (f : Nat → Bool) : ((Effect.poolsKeep f).apply s).freeIdx = s.freeIdx := rfl
@[simp] theorem apply_poolsKeep_out (f : Nat → Bool) : ((Effect.poolsKeep f).apply s).out = s.out := rfl

/-! ## group -/

@[simp] theorem apply_group_pending (k : Nat) (v : Group) : ((Effect.group k v).apply s).pending = s.pending := rfl
@[simp] theorem apply_group_regs (k : Nat) (v : Group) : ((Effect.group k v).apply s).regs = s.regs := rfl
@[simp] theorem apply_group_mem (k : Nat) (v : Group) : ((Effect.group k v).apply s).mem = s.mem := rfl
@[simp] theorem apply_group_mem2 (k : Nat) (v : Group) : ((Effect.group k v).apply s).mem2 = s.mem2 := rfl
@[simp] theorem apply_group_time (k : Nat) (v : Group) : ((Effect.group k v).apply s).time = s.time := rfl
@[simp] theorem apply_group_mod (k : Nat) (v : Group) : ((Effect.group k v).apply s).mod = s.mod := rfl
@[simp] theorem apply_group_nv (k : Nat) (v : Group) : ((Effect.group k v).apply s).nv = s.nv := rfl
@[simp] theorem apply_group_own (k : Nat) (v : Group) : ((Effect.group k v).apply s).own = s.own := rfl
@[simp] theorem apply_group_err (k : Nat) (v : Group) : ((Effect.group k v).apply s).err = s.err := rfl
@[simp] theorem apply_group_pw (k : Nat) (v : Group) : ((Effect.group k v).apply s).pw = s.pw := rfl
@[simp] theorem apply_group_host (k : Nat) (v : Group) : ((Effect.group k v).apply s).host = s.host := rfl
@[simp] theorem apply_group_fab (k : Nat) (v : Group) : ((Effect.group k v).apply s).fab = s.fab := rfl
@[simp] theorem apply_group_threads (k : Nat) (v : Group) : ((Effect.group k v).apply s).threads = s.threads := rfl
@[simp] theorem apply_group_turns (k : Nat) (v : Group) : ((Effect.group k v).apply s).turns = s.turns := rfl
@[simp] theorem apply_group_pips (k : Nat) (v : Group) : ((Effect.group k v).apply s).pips = s.pips := rfl
@[simp] theorem apply_group_vbufs (k : Nat) (v : Group) : ((Effect.group k v).apply s).vbufs = s.vbufs := rfl
@[simp] theorem apply_group_queues (k : Nat) (v : Group) : ((Effect.group k v).apply s).queues = s.queues := rfl
@[simp] theorem apply_group_parts (k : Nat) (v : Group) : ((Effect.group k v).apply s).parts = s.parts := rfl
@[simp] theorem apply_group_pools (k : Nat) (v : Group) : ((Effect.group k v).apply s).pools = s.pools := rfl
@[simp] theorem apply_group_groups (k : Nat) (v : Group) : ((Effect.group k v).apply s).groups = tput {} s.groups k v := rfl
@[simp] theorem apply_group_ports (k : Nat) (v : Group) : ((Effect.group k v).apply s).ports = s.ports := rfl
@[simp] theorem apply_group_eptSlots (k : Nat) (v : Group) : ((Effect.group k v).apply s).eptSlots = s.eptSlots := rfl
@[simp] theorem apply_group_submits (k : Nat) (v : Group) : ((Effect.group k v).apply s).submits = s.submits := rfl
@[simp] theorem apply_group_tagsDone (k : Nat) (v : Group) : ((Effect.group k v).apply s).tagsDone = s.tagsDone := rfl
@[simp] theorem apply_group_samples (k : Nat) (v : Group) : ((Effect.group k v).apply s).samples = s.samples := rfl
@[simp] theorem apply_group_loads (k : Nat) (v : Group) : ((Effect.group k v).apply s).loads = s.loads := rfl
@[simp] theorem apply_group_launches (k : Nat) (v : Group) : ((Effect.group k v).apply s).launches = s.launches := rfl
@[simp] theorem apply_group_colls (k : Nat) (v : Group) : ((Effect.group k v).apply s).colls = s.colls := rfl
@[simp] theorem apply_group_freeIdx (k : Nat) (v : Group) : ((Effect.group k v).apply s).freeIdx = s.freeIdx := rfl
@[simp] theorem apply_group_out (k : Nat) (v : Group) : ((Effect.group k v).apply s).out = s.out := rfl

/-! ## groupsKeep -/

@[simp] theorem apply_groupsKeep_pending (f : Nat → Bool) : ((Effect.groupsKeep f).apply s).pending = s.pending := rfl
@[simp] theorem apply_groupsKeep_regs (f : Nat → Bool) : ((Effect.groupsKeep f).apply s).regs = s.regs := rfl
@[simp] theorem apply_groupsKeep_mem (f : Nat → Bool) : ((Effect.groupsKeep f).apply s).mem = s.mem := rfl
@[simp] theorem apply_groupsKeep_mem2 (f : Nat → Bool) : ((Effect.groupsKeep f).apply s).mem2 = s.mem2 := rfl
@[simp] theorem apply_groupsKeep_time (f : Nat → Bool) : ((Effect.groupsKeep f).apply s).time = s.time := rfl
@[simp] theorem apply_groupsKeep_mod (f : Nat → Bool) : ((Effect.groupsKeep f).apply s).mod = s.mod := rfl
@[simp] theorem apply_groupsKeep_nv (f : Nat → Bool) : ((Effect.groupsKeep f).apply s).nv = s.nv := rfl
@[simp] theorem apply_groupsKeep_own (f : Nat → Bool) : ((Effect.groupsKeep f).apply s).own = s.own := rfl
@[simp] theorem apply_groupsKeep_err (f : Nat → Bool) : ((Effect.groupsKeep f).apply s).err = s.err := rfl
@[simp] theorem apply_groupsKeep_pw (f : Nat → Bool) : ((Effect.groupsKeep f).apply s).pw = s.pw := rfl
@[simp] theorem apply_groupsKeep_host (f : Nat → Bool) : ((Effect.groupsKeep f).apply s).host = s.host := rfl
@[simp] theorem apply_groupsKeep_fab (f : Nat → Bool) : ((Effect.groupsKeep f).apply s).fab = s.fab := rfl
@[simp] theorem apply_groupsKeep_threads (f : Nat → Bool) : ((Effect.groupsKeep f).apply s).threads = s.threads := rfl
@[simp] theorem apply_groupsKeep_turns (f : Nat → Bool) : ((Effect.groupsKeep f).apply s).turns = s.turns := rfl
@[simp] theorem apply_groupsKeep_pips (f : Nat → Bool) : ((Effect.groupsKeep f).apply s).pips = s.pips := rfl
@[simp] theorem apply_groupsKeep_vbufs (f : Nat → Bool) : ((Effect.groupsKeep f).apply s).vbufs = s.vbufs := rfl
@[simp] theorem apply_groupsKeep_queues (f : Nat → Bool) : ((Effect.groupsKeep f).apply s).queues = s.queues := rfl
@[simp] theorem apply_groupsKeep_parts (f : Nat → Bool) : ((Effect.groupsKeep f).apply s).parts = s.parts := rfl
@[simp] theorem apply_groupsKeep_pools (f : Nat → Bool) : ((Effect.groupsKeep f).apply s).pools = s.pools := rfl
@[simp] theorem apply_groupsKeep_groups (f : Nat → Bool) : ((Effect.groupsKeep f).apply s).groups = tkeep f s.groups := rfl
@[simp] theorem apply_groupsKeep_ports (f : Nat → Bool) : ((Effect.groupsKeep f).apply s).ports = s.ports := rfl
@[simp] theorem apply_groupsKeep_eptSlots (f : Nat → Bool) : ((Effect.groupsKeep f).apply s).eptSlots = s.eptSlots := rfl
@[simp] theorem apply_groupsKeep_submits (f : Nat → Bool) : ((Effect.groupsKeep f).apply s).submits = s.submits := rfl
@[simp] theorem apply_groupsKeep_tagsDone (f : Nat → Bool) : ((Effect.groupsKeep f).apply s).tagsDone = s.tagsDone := rfl
@[simp] theorem apply_groupsKeep_samples (f : Nat → Bool) : ((Effect.groupsKeep f).apply s).samples = s.samples := rfl
@[simp] theorem apply_groupsKeep_loads (f : Nat → Bool) : ((Effect.groupsKeep f).apply s).loads = s.loads := rfl
@[simp] theorem apply_groupsKeep_launches (f : Nat → Bool) : ((Effect.groupsKeep f).apply s).launches = s.launches := rfl
@[simp] theorem apply_groupsKeep_colls (f : Nat → Bool) : ((Effect.groupsKeep f).apply s).colls = s.colls := rfl
@[simp] theorem apply_groupsKeep_freeIdx (f : Nat → Bool) : ((Effect.groupsKeep f).apply s).freeIdx = s.freeIdx := rfl
@[simp] theorem apply_groupsKeep_out (f : Nat → Bool) : ((Effect.groupsKeep f).apply s).out = s.out := rfl

/-! ## port -/

@[simp] theorem apply_port_pending (k : Nat) (v : Port) : ((Effect.port k v).apply s).pending = s.pending := rfl
@[simp] theorem apply_port_regs (k : Nat) (v : Port) : ((Effect.port k v).apply s).regs = s.regs := rfl
@[simp] theorem apply_port_mem (k : Nat) (v : Port) : ((Effect.port k v).apply s).mem = s.mem := rfl
@[simp] theorem apply_port_mem2 (k : Nat) (v : Port) : ((Effect.port k v).apply s).mem2 = s.mem2 := rfl
@[simp] theorem apply_port_time (k : Nat) (v : Port) : ((Effect.port k v).apply s).time = s.time := rfl
@[simp] theorem apply_port_mod (k : Nat) (v : Port) : ((Effect.port k v).apply s).mod = s.mod := rfl
@[simp] theorem apply_port_nv (k : Nat) (v : Port) : ((Effect.port k v).apply s).nv = s.nv := rfl
@[simp] theorem apply_port_own (k : Nat) (v : Port) : ((Effect.port k v).apply s).own = s.own := rfl
@[simp] theorem apply_port_err (k : Nat) (v : Port) : ((Effect.port k v).apply s).err = s.err := rfl
@[simp] theorem apply_port_pw (k : Nat) (v : Port) : ((Effect.port k v).apply s).pw = s.pw := rfl
@[simp] theorem apply_port_host (k : Nat) (v : Port) : ((Effect.port k v).apply s).host = s.host := rfl
@[simp] theorem apply_port_fab (k : Nat) (v : Port) : ((Effect.port k v).apply s).fab = s.fab := rfl
@[simp] theorem apply_port_threads (k : Nat) (v : Port) : ((Effect.port k v).apply s).threads = s.threads := rfl
@[simp] theorem apply_port_turns (k : Nat) (v : Port) : ((Effect.port k v).apply s).turns = s.turns := rfl
@[simp] theorem apply_port_pips (k : Nat) (v : Port) : ((Effect.port k v).apply s).pips = s.pips := rfl
@[simp] theorem apply_port_vbufs (k : Nat) (v : Port) : ((Effect.port k v).apply s).vbufs = s.vbufs := rfl
@[simp] theorem apply_port_queues (k : Nat) (v : Port) : ((Effect.port k v).apply s).queues = s.queues := rfl
@[simp] theorem apply_port_parts (k : Nat) (v : Port) : ((Effect.port k v).apply s).parts = s.parts := rfl
@[simp] theorem apply_port_pools (k : Nat) (v : Port) : ((Effect.port k v).apply s).pools = s.pools := rfl
@[simp] theorem apply_port_groups (k : Nat) (v : Port) : ((Effect.port k v).apply s).groups = s.groups := rfl
@[simp] theorem apply_port_ports (k : Nat) (v : Port) : ((Effect.port k v).apply s).ports = tput {} s.ports k v := rfl
@[simp] theorem apply_port_eptSlots (k : Nat) (v : Port) : ((Effect.port k v).apply s).eptSlots = s.eptSlots := rfl
@[simp] theorem apply_port_submits (k : Nat) (v : Port) : ((Effect.port k v).apply s).submits = s.submits := rfl
@[simp] theorem apply_port_tagsDone (k : Nat) (v : Port) : ((Effect.port k v).apply s).tagsDone = s.tagsDone := rfl
@[simp] theorem apply_port_samples (k : Nat) (v : Port) : ((Effect.port k v).apply s).samples = s.samples := rfl
@[simp] theorem apply_port_loads (k : Nat) (v : Port) : ((Effect.port k v).apply s).loads = s.loads := rfl
@[simp] theorem apply_port_launches (k : Nat) (v : Port) : ((Effect.port k v).apply s).launches = s.launches := rfl
@[simp] theorem apply_port_colls (k : Nat) (v : Port) : ((Effect.port k v).apply s).colls = s.colls := rfl
@[simp] theorem apply_port_freeIdx (k : Nat) (v : Port) : ((Effect.port k v).apply s).freeIdx = s.freeIdx := rfl
@[simp] theorem apply_port_out (k : Nat) (v : Port) : ((Effect.port k v).apply s).out = s.out := rfl

/-! ## portsKeep -/

@[simp] theorem apply_portsKeep_pending (f : Nat → Bool) : ((Effect.portsKeep f).apply s).pending = s.pending := rfl
@[simp] theorem apply_portsKeep_regs (f : Nat → Bool) : ((Effect.portsKeep f).apply s).regs = s.regs := rfl
@[simp] theorem apply_portsKeep_mem (f : Nat → Bool) : ((Effect.portsKeep f).apply s).mem = s.mem := rfl
@[simp] theorem apply_portsKeep_mem2 (f : Nat → Bool) : ((Effect.portsKeep f).apply s).mem2 = s.mem2 := rfl
@[simp] theorem apply_portsKeep_time (f : Nat → Bool) : ((Effect.portsKeep f).apply s).time = s.time := rfl
@[simp] theorem apply_portsKeep_mod (f : Nat → Bool) : ((Effect.portsKeep f).apply s).mod = s.mod := rfl
@[simp] theorem apply_portsKeep_nv (f : Nat → Bool) : ((Effect.portsKeep f).apply s).nv = s.nv := rfl
@[simp] theorem apply_portsKeep_own (f : Nat → Bool) : ((Effect.portsKeep f).apply s).own = s.own := rfl
@[simp] theorem apply_portsKeep_err (f : Nat → Bool) : ((Effect.portsKeep f).apply s).err = s.err := rfl
@[simp] theorem apply_portsKeep_pw (f : Nat → Bool) : ((Effect.portsKeep f).apply s).pw = s.pw := rfl
@[simp] theorem apply_portsKeep_host (f : Nat → Bool) : ((Effect.portsKeep f).apply s).host = s.host := rfl
@[simp] theorem apply_portsKeep_fab (f : Nat → Bool) : ((Effect.portsKeep f).apply s).fab = s.fab := rfl
@[simp] theorem apply_portsKeep_threads (f : Nat → Bool) : ((Effect.portsKeep f).apply s).threads = s.threads := rfl
@[simp] theorem apply_portsKeep_turns (f : Nat → Bool) : ((Effect.portsKeep f).apply s).turns = s.turns := rfl
@[simp] theorem apply_portsKeep_pips (f : Nat → Bool) : ((Effect.portsKeep f).apply s).pips = s.pips := rfl
@[simp] theorem apply_portsKeep_vbufs (f : Nat → Bool) : ((Effect.portsKeep f).apply s).vbufs = s.vbufs := rfl
@[simp] theorem apply_portsKeep_queues (f : Nat → Bool) : ((Effect.portsKeep f).apply s).queues = s.queues := rfl
@[simp] theorem apply_portsKeep_parts (f : Nat → Bool) : ((Effect.portsKeep f).apply s).parts = s.parts := rfl
@[simp] theorem apply_portsKeep_pools (f : Nat → Bool) : ((Effect.portsKeep f).apply s).pools = s.pools := rfl
@[simp] theorem apply_portsKeep_groups (f : Nat → Bool) : ((Effect.portsKeep f).apply s).groups = s.groups := rfl
@[simp] theorem apply_portsKeep_ports (f : Nat → Bool) : ((Effect.portsKeep f).apply s).ports = tkeep f s.ports := rfl
@[simp] theorem apply_portsKeep_eptSlots (f : Nat → Bool) : ((Effect.portsKeep f).apply s).eptSlots = s.eptSlots := rfl
@[simp] theorem apply_portsKeep_submits (f : Nat → Bool) : ((Effect.portsKeep f).apply s).submits = s.submits := rfl
@[simp] theorem apply_portsKeep_tagsDone (f : Nat → Bool) : ((Effect.portsKeep f).apply s).tagsDone = s.tagsDone := rfl
@[simp] theorem apply_portsKeep_samples (f : Nat → Bool) : ((Effect.portsKeep f).apply s).samples = s.samples := rfl
@[simp] theorem apply_portsKeep_loads (f : Nat → Bool) : ((Effect.portsKeep f).apply s).loads = s.loads := rfl
@[simp] theorem apply_portsKeep_launches (f : Nat → Bool) : ((Effect.portsKeep f).apply s).launches = s.launches := rfl
@[simp] theorem apply_portsKeep_colls (f : Nat → Bool) : ((Effect.portsKeep f).apply s).colls = s.colls := rfl
@[simp] theorem apply_portsKeep_freeIdx (f : Nat → Bool) : ((Effect.portsKeep f).apply s).freeIdx = s.freeIdx := rfl
@[simp] theorem apply_portsKeep_out (f : Nat → Bool) : ((Effect.portsKeep f).apply s).out = s.out := rfl

/-! ## eptSlots -/

@[simp] theorem apply_eptSlots_pending (k : Nat) (v : List EptSlot) : ((Effect.eptSlots k v).apply s).pending = s.pending := rfl
@[simp] theorem apply_eptSlots_regs (k : Nat) (v : List EptSlot) : ((Effect.eptSlots k v).apply s).regs = s.regs := rfl
@[simp] theorem apply_eptSlots_mem (k : Nat) (v : List EptSlot) : ((Effect.eptSlots k v).apply s).mem = s.mem := rfl
@[simp] theorem apply_eptSlots_mem2 (k : Nat) (v : List EptSlot) : ((Effect.eptSlots k v).apply s).mem2 = s.mem2 := rfl
@[simp] theorem apply_eptSlots_time (k : Nat) (v : List EptSlot) : ((Effect.eptSlots k v).apply s).time = s.time := rfl
@[simp] theorem apply_eptSlots_mod (k : Nat) (v : List EptSlot) : ((Effect.eptSlots k v).apply s).mod = s.mod := rfl
@[simp] theorem apply_eptSlots_nv (k : Nat) (v : List EptSlot) : ((Effect.eptSlots k v).apply s).nv = s.nv := rfl
@[simp] theorem apply_eptSlots_own (k : Nat) (v : List EptSlot) : ((Effect.eptSlots k v).apply s).own = s.own := rfl
@[simp] theorem apply_eptSlots_err (k : Nat) (v : List EptSlot) : ((Effect.eptSlots k v).apply s).err = s.err := rfl
@[simp] theorem apply_eptSlots_pw (k : Nat) (v : List EptSlot) : ((Effect.eptSlots k v).apply s).pw = s.pw := rfl
@[simp] theorem apply_eptSlots_host (k : Nat) (v : List EptSlot) : ((Effect.eptSlots k v).apply s).host = s.host := rfl
@[simp] theorem apply_eptSlots_fab (k : Nat) (v : List EptSlot) : ((Effect.eptSlots k v).apply s).fab = s.fab := rfl
@[simp] theorem apply_eptSlots_threads (k : Nat) (v : List EptSlot) : ((Effect.eptSlots k v).apply s).threads = s.threads := rfl
@[simp] theorem apply_eptSlots_turns (k : Nat) (v : List EptSlot) : ((Effect.eptSlots k v).apply s).turns = s.turns := rfl
@[simp] theorem apply_eptSlots_pips (k : Nat) (v : List EptSlot) : ((Effect.eptSlots k v).apply s).pips = s.pips := rfl
@[simp] theorem apply_eptSlots_vbufs (k : Nat) (v : List EptSlot) : ((Effect.eptSlots k v).apply s).vbufs = s.vbufs := rfl
@[simp] theorem apply_eptSlots_queues (k : Nat) (v : List EptSlot) : ((Effect.eptSlots k v).apply s).queues = s.queues := rfl
@[simp] theorem apply_eptSlots_parts (k : Nat) (v : List EptSlot) : ((Effect.eptSlots k v).apply s).parts = s.parts := rfl
@[simp] theorem apply_eptSlots_pools (k : Nat) (v : List EptSlot) : ((Effect.eptSlots k v).apply s).pools = s.pools := rfl
@[simp] theorem apply_eptSlots_groups (k : Nat) (v : List EptSlot) : ((Effect.eptSlots k v).apply s).groups = s.groups := rfl
@[simp] theorem apply_eptSlots_ports (k : Nat) (v : List EptSlot) : ((Effect.eptSlots k v).apply s).ports = s.ports := rfl
@[simp] theorem apply_eptSlots_eptSlots (k : Nat) (v : List EptSlot) : ((Effect.eptSlots k v).apply s).eptSlots = tput [] s.eptSlots k v := rfl
@[simp] theorem apply_eptSlots_submits (k : Nat) (v : List EptSlot) : ((Effect.eptSlots k v).apply s).submits = s.submits := rfl
@[simp] theorem apply_eptSlots_tagsDone (k : Nat) (v : List EptSlot) : ((Effect.eptSlots k v).apply s).tagsDone = s.tagsDone := rfl
@[simp] theorem apply_eptSlots_samples (k : Nat) (v : List EptSlot) : ((Effect.eptSlots k v).apply s).samples = s.samples := rfl
@[simp] theorem apply_eptSlots_loads (k : Nat) (v : List EptSlot) : ((Effect.eptSlots k v).apply s).loads = s.loads := rfl
@[simp] theorem apply_eptSlots_launches (k : Nat) (v : List EptSlot) : ((Effect.eptSlots k v).apply s).launches = s.launches := rfl
@[simp] theorem apply_eptSlots_colls (k : Nat) (v : List EptSlot) : ((Effect.eptSlots k v).apply s).colls = s.colls := rfl
@[simp] theorem apply_eptSlots_freeIdx (k : Nat) (v : List EptSlot) : ((Effect.eptSlots k v).apply s).freeIdx = s.freeIdx := rfl
@[simp] theorem apply_eptSlots_out (k : Nat) (v : List EptSlot) : ((Effect.eptSlots k v).apply s).out = s.out := rfl

/-! ## eptKeep -/

@[simp] theorem apply_eptKeep_pending (f : Nat → Bool) : ((Effect.eptKeep f).apply s).pending = s.pending := rfl
@[simp] theorem apply_eptKeep_regs (f : Nat → Bool) : ((Effect.eptKeep f).apply s).regs = s.regs := rfl
@[simp] theorem apply_eptKeep_mem (f : Nat → Bool) : ((Effect.eptKeep f).apply s).mem = s.mem := rfl
@[simp] theorem apply_eptKeep_mem2 (f : Nat → Bool) : ((Effect.eptKeep f).apply s).mem2 = s.mem2 := rfl
@[simp] theorem apply_eptKeep_time (f : Nat → Bool) : ((Effect.eptKeep f).apply s).time = s.time := rfl
@[simp] theorem apply_eptKeep_mod (f : Nat → Bool) : ((Effect.eptKeep f).apply s).mod = s.mod := rfl
@[simp] theorem apply_eptKeep_nv (f : Nat → Bool) : ((Effect.eptKeep f).apply s).nv = s.nv := rfl
@[simp] theorem apply_eptKeep_own (f : Nat → Bool) : ((Effect.eptKeep f).apply s).own = s.own := rfl
@[simp] theorem apply_eptKeep_err (f : Nat → Bool) : ((Effect.eptKeep f).apply s).err = s.err := rfl
@[simp] theorem apply_eptKeep_pw (f : Nat → Bool) : ((Effect.eptKeep f).apply s).pw = s.pw := rfl
@[simp] theorem apply_eptKeep_host (f : Nat → Bool) : ((Effect.eptKeep f).apply s).host = s.host := rfl
@[simp] theorem apply_eptKeep_fab (f : Nat → Bool) : ((Effect.eptKeep f).apply s).fab = s.fab := rfl
@[simp] theorem apply_eptKeep_threads (f : Nat → Bool) : ((Effect.eptKeep f).apply s).threads = s.threads := rfl
@[simp] theorem apply_eptKeep_turns (f : Nat → Bool) : ((Effect.eptKeep f).apply s).turns = s.turns := rfl
@[simp] theorem apply_eptKeep_pips (f : Nat → Bool) : ((Effect.eptKeep f).apply s).pips = s.pips := rfl
@[simp] theorem apply_eptKeep_vbufs (f : Nat → Bool) : ((Effect.eptKeep f).apply s).vbufs = s.vbufs := rfl
@[simp] theorem apply_eptKeep_queues (f : Nat → Bool) : ((Effect.eptKeep f).apply s).queues = s.queues := rfl
@[simp] theorem apply_eptKeep_parts (f : Nat → Bool) : ((Effect.eptKeep f).apply s).parts = s.parts := rfl
@[simp] theorem apply_eptKeep_pools (f : Nat → Bool) : ((Effect.eptKeep f).apply s).pools = s.pools := rfl
@[simp] theorem apply_eptKeep_groups (f : Nat → Bool) : ((Effect.eptKeep f).apply s).groups = s.groups := rfl
@[simp] theorem apply_eptKeep_ports (f : Nat → Bool) : ((Effect.eptKeep f).apply s).ports = s.ports := rfl
@[simp] theorem apply_eptKeep_eptSlots (f : Nat → Bool) : ((Effect.eptKeep f).apply s).eptSlots = tkeep f s.eptSlots := rfl
@[simp] theorem apply_eptKeep_submits (f : Nat → Bool) : ((Effect.eptKeep f).apply s).submits = s.submits := rfl
@[simp] theorem apply_eptKeep_tagsDone (f : Nat → Bool) : ((Effect.eptKeep f).apply s).tagsDone = s.tagsDone := rfl
@[simp] theorem apply_eptKeep_samples (f : Nat → Bool) : ((Effect.eptKeep f).apply s).samples = s.samples := rfl
@[simp] theorem apply_eptKeep_loads (f : Nat → Bool) : ((Effect.eptKeep f).apply s).loads = s.loads := rfl
@[simp] theorem apply_eptKeep_launches (f : Nat → Bool) : ((Effect.eptKeep f).apply s).launches = s.launches := rfl
@[simp] theorem apply_eptKeep_colls (f : Nat → Bool) : ((Effect.eptKeep f).apply s).colls = s.colls := rfl
@[simp] theorem apply_eptKeep_freeIdx (f : Nat → Bool) : ((Effect.eptKeep f).apply s).freeIdx = s.freeIdx := rfl
@[simp] theorem apply_eptKeep_out (f : Nat → Bool) : ((Effect.eptKeep f).apply s).out = s.out := rfl

/-! ## mem2 -/

@[simp] theorem apply_mem2_pending (v : MemErr) : ((Effect.mem2 v).apply s).pending = s.pending := rfl
@[simp] theorem apply_mem2_regs (v : MemErr) : ((Effect.mem2 v).apply s).regs = s.regs := rfl
@[simp] theorem apply_mem2_mem (v : MemErr) : ((Effect.mem2 v).apply s).mem = s.mem := rfl
@[simp] theorem apply_mem2_mem2 (v : MemErr) : ((Effect.mem2 v).apply s).mem2 = v := rfl
@[simp] theorem apply_mem2_time (v : MemErr) : ((Effect.mem2 v).apply s).time = s.time := rfl
@[simp] theorem apply_mem2_mod (v : MemErr) : ((Effect.mem2 v).apply s).mod = s.mod := rfl
@[simp] theorem apply_mem2_nv (v : MemErr) : ((Effect.mem2 v).apply s).nv = s.nv := rfl
@[simp] theorem apply_mem2_own (v : MemErr) : ((Effect.mem2 v).apply s).own = s.own := rfl
@[simp] theorem apply_mem2_err (v : MemErr) : ((Effect.mem2 v).apply s).err = s.err := rfl
@[simp] theorem apply_mem2_pw (v : MemErr) : ((Effect.mem2 v).apply s).pw = s.pw := rfl
@[simp] theorem apply_mem2_host (v : MemErr) : ((Effect.mem2 v).apply s).host = s.host := rfl
@[simp] theorem apply_mem2_fab (v : MemErr) : ((Effect.mem2 v).apply s).fab = s.fab := rfl
@[simp] theorem apply_mem2_threads (v : MemErr) : ((Effect.mem2 v).apply s).threads = s.threads := rfl
@[simp] theorem apply_mem2_turns (v : MemErr) : ((Effect.mem2 v).apply s).turns = s.turns := rfl
@[simp] theorem apply_mem2_pips (v : MemErr) : ((Effect.mem2 v).apply s).pips = s.pips := rfl
@[simp] theorem apply_mem2_vbufs (v : MemErr) : ((Effect.mem2 v).apply s).vbufs = s.vbufs := rfl
@[simp] theorem apply_mem2_queues (v : MemErr) : ((Effect.mem2 v).apply s).queues = s.queues := rfl
@[simp] theorem apply_mem2_parts (v : MemErr) : ((Effect.mem2 v).apply s).parts = s.parts := rfl
@[simp] theorem apply_mem2_pools (v : MemErr) : ((Effect.mem2 v).apply s).pools = s.pools := rfl
@[simp] theorem apply_mem2_groups (v : MemErr) : ((Effect.mem2 v).apply s).groups = s.groups := rfl
@[simp] theorem apply_mem2_ports (v : MemErr) : ((Effect.mem2 v).apply s).ports = s.ports := rfl
@[simp] theorem apply_mem2_eptSlots (v : MemErr) : ((Effect.mem2 v).apply s).eptSlots = s.eptSlots := rfl
@[simp] theorem apply_mem2_submits (v : MemErr) : ((Effect.mem2 v).apply s).submits = s.submits := rfl
@[simp] theorem apply_mem2_tagsDone (v : MemErr) : ((Effect.mem2 v).apply s).tagsDone = s.tagsDone := rfl
@[simp] theorem apply_mem2_samples (v : MemErr) : ((Effect.mem2 v).apply s).samples = s.samples := rfl
@[simp] theorem apply_mem2_loads (v : MemErr) : ((Effect.mem2 v).apply s).loads = s.loads := rfl
@[simp] theorem apply_mem2_launches (v : MemErr) : ((Effect.mem2 v).apply s).launches = s.launches := rfl
@[simp] theorem apply_mem2_colls (v : MemErr) : ((Effect.mem2 v).apply s).colls = s.colls := rfl
@[simp] theorem apply_mem2_freeIdx (v : MemErr) : ((Effect.mem2 v).apply s).freeIdx = s.freeIdx := rfl
@[simp] theorem apply_mem2_out (v : MemErr) : ((Effect.mem2 v).apply s).out = s.out := rfl

/-! ## time -/

@[simp] theorem apply_time_pending (v : Time) : ((Effect.time v).apply s).pending = s.pending := rfl
@[simp] theorem apply_time_regs (v : Time) : ((Effect.time v).apply s).regs = s.regs := rfl
@[simp] theorem apply_time_mem (v : Time) : ((Effect.time v).apply s).mem = s.mem := rfl
@[simp] theorem apply_time_mem2 (v : Time) : ((Effect.time v).apply s).mem2 = s.mem2 := rfl
@[simp] theorem apply_time_time (v : Time) : ((Effect.time v).apply s).time = { v with now := s.time.now } := rfl
@[simp] theorem apply_time_mod (v : Time) : ((Effect.time v).apply s).mod = s.mod := rfl
@[simp] theorem apply_time_nv (v : Time) : ((Effect.time v).apply s).nv = s.nv := rfl
@[simp] theorem apply_time_own (v : Time) : ((Effect.time v).apply s).own = s.own := rfl
@[simp] theorem apply_time_err (v : Time) : ((Effect.time v).apply s).err = s.err := rfl
@[simp] theorem apply_time_pw (v : Time) : ((Effect.time v).apply s).pw = s.pw := rfl
@[simp] theorem apply_time_host (v : Time) : ((Effect.time v).apply s).host = s.host := rfl
@[simp] theorem apply_time_fab (v : Time) : ((Effect.time v).apply s).fab = s.fab := rfl
@[simp] theorem apply_time_threads (v : Time) : ((Effect.time v).apply s).threads = s.threads := rfl
@[simp] theorem apply_time_turns (v : Time) : ((Effect.time v).apply s).turns = s.turns := rfl
@[simp] theorem apply_time_pips (v : Time) : ((Effect.time v).apply s).pips = s.pips := rfl
@[simp] theorem apply_time_vbufs (v : Time) : ((Effect.time v).apply s).vbufs = s.vbufs := rfl
@[simp] theorem apply_time_queues (v : Time) : ((Effect.time v).apply s).queues = s.queues := rfl
@[simp] theorem apply_time_parts (v : Time) : ((Effect.time v).apply s).parts = s.parts := rfl
@[simp] theorem apply_time_pools (v : Time) : ((Effect.time v).apply s).pools = s.pools := rfl
@[simp] theorem apply_time_groups (v : Time) : ((Effect.time v).apply s).groups = s.groups := rfl
@[simp] theorem apply_time_ports (v : Time) : ((Effect.time v).apply s).ports = s.ports := rfl
@[simp] theorem apply_time_eptSlots (v : Time) : ((Effect.time v).apply s).eptSlots = s.eptSlots := rfl
@[simp] theorem apply_time_submits (v : Time) : ((Effect.time v).apply s).submits = s.submits := rfl
@[simp] theorem apply_time_tagsDone (v : Time) : ((Effect.time v).apply s).tagsDone = s.tagsDone := rfl
@[simp] theorem apply_time_samples (v : Time) : ((Effect.time v).apply s).samples = s.samples := rfl
@[simp] theorem apply_time_loads (v : Time) : ((Effect.time v).apply s).loads = s.loads := rfl
@[simp] theorem apply_time_launches (v : Time) : ((Effect.time v).apply s).launches = s.launches := rfl
@[simp] theorem apply_time_colls (v : Time) : ((Effect.time v).apply s).colls = s.colls := rfl
@[simp] theorem apply_time_freeIdx (v : Time) : ((Effect.time v).apply s).freeIdx = s.freeIdx := rfl
@[simp] theorem apply_time_out (v : Time) : ((Effect.time v).apply s).out = s.out := rfl

/-! ## clock -/

@[simp] theorem apply_clock_pending (n : Nat) : ((Effect.clock n).apply s).pending = s.pending := rfl
@[simp] theorem apply_clock_regs (n : Nat) : ((Effect.clock n).apply s).regs = s.regs := rfl
@[simp] theorem apply_clock_mem (n : Nat) : ((Effect.clock n).apply s).mem = s.mem := rfl
@[simp] theorem apply_clock_mem2 (n : Nat) : ((Effect.clock n).apply s).mem2 = s.mem2 := rfl
@[simp] theorem apply_clock_time (n : Nat) : ((Effect.clock n).apply s).time = { s.time with now := max s.time.now n } := rfl
@[simp] theorem apply_clock_mod (n : Nat) : ((Effect.clock n).apply s).mod = s.mod := rfl
@[simp] theorem apply_clock_nv (n : Nat) : ((Effect.clock n).apply s).nv = s.nv := rfl
@[simp] theorem apply_clock_own (n : Nat) : ((Effect.clock n).apply s).own = s.own := rfl
@[simp] theorem apply_clock_err (n : Nat) : ((Effect.clock n).apply s).err = s.err := rfl
@[simp] theorem apply_clock_pw (n : Nat) : ((Effect.clock n).apply s).pw = s.pw := rfl
@[simp] theorem apply_clock_host (n : Nat) : ((Effect.clock n).apply s).host = s.host := rfl
@[simp] theorem apply_clock_fab (n : Nat) : ((Effect.clock n).apply s).fab = s.fab := rfl
@[simp] theorem apply_clock_threads (n : Nat) : ((Effect.clock n).apply s).threads = s.threads := rfl
@[simp] theorem apply_clock_turns (n : Nat) : ((Effect.clock n).apply s).turns = s.turns := rfl
@[simp] theorem apply_clock_pips (n : Nat) : ((Effect.clock n).apply s).pips = s.pips := rfl
@[simp] theorem apply_clock_vbufs (n : Nat) : ((Effect.clock n).apply s).vbufs = s.vbufs := rfl
@[simp] theorem apply_clock_queues (n : Nat) : ((Effect.clock n).apply s).queues = s.queues := rfl
@[simp] theorem apply_clock_parts (n : Nat) : ((Effect.clock n).apply s).parts = s.parts := rfl
@[simp] theorem apply_clock_pools (n : Nat) : ((Effect.clock n).apply s).pools = s.pools := rfl
@[simp] theorem apply_clock_groups (n : Nat) : ((Effect.clock n).apply s).groups = s.groups := rfl
@[simp] theorem apply_clock_ports (n : Nat) : ((Effect.clock n).apply s).ports = s.ports := rfl
@[simp] theorem apply_clock_eptSlots (n : Nat) : ((Effect.clock n).apply s).eptSlots = s.eptSlots := rfl
@[simp] theorem apply_clock_submits (n : Nat) : ((Effect.clock n).apply s).submits = s.submits := rfl
@[simp] theorem apply_clock_tagsDone (n : Nat) : ((Effect.clock n).apply s).tagsDone = s.tagsDone := rfl
@[simp] theorem apply_clock_samples (n : Nat) : ((Effect.clock n).apply s).samples = s.samples := rfl
@[simp] theorem apply_clock_loads (n : Nat) : ((Effect.clock n).apply s).loads = s.loads := rfl
@[simp] theorem apply_clock_launches (n : Nat) : ((Effect.clock n).apply s).launches = s.launches := rfl
@[simp] theorem apply_clock_colls (n : Nat) : ((Effect.clock n).apply s).colls = s.colls := rfl
@[simp] theorem apply_clock_freeIdx (n : Nat) : ((Effect.clock n).apply s).freeIdx = s.freeIdx := rfl
@[simp] theorem apply_clock_out (n : Nat) : ((Effect.clock n).apply s).out = s.out := rfl

/-! ## mod -/

@[simp] theorem apply_mod_pending (v : Mod) : ((Effect.mod v).apply s).pending = s.pending := rfl
@[simp] theorem apply_mod_regs (v : Mod) : ((Effect.mod v).apply s).regs = s.regs := rfl
@[simp] theorem apply_mod_mem (v : Mod) : ((Effect.mod v).apply s).mem = s.mem := rfl
@[simp] theorem apply_mod_mem2 (v : Mod) : ((Effect.mod v).apply s).mem2 = s.mem2 := rfl
@[simp] theorem apply_mod_time (v : Mod) : ((Effect.mod v).apply s).time = s.time := rfl
@[simp] theorem apply_mod_mod (v : Mod) : ((Effect.mod v).apply s).mod = v := rfl
@[simp] theorem apply_mod_nv (v : Mod) : ((Effect.mod v).apply s).nv = s.nv := rfl
@[simp] theorem apply_mod_own (v : Mod) : ((Effect.mod v).apply s).own = s.own := rfl
@[simp] theorem apply_mod_err (v : Mod) : ((Effect.mod v).apply s).err = s.err := rfl
@[simp] theorem apply_mod_pw (v : Mod) : ((Effect.mod v).apply s).pw = s.pw := rfl
@[simp] theorem apply_mod_host (v : Mod) : ((Effect.mod v).apply s).host = s.host := rfl
@[simp] theorem apply_mod_fab (v : Mod) : ((Effect.mod v).apply s).fab = s.fab := rfl
@[simp] theorem apply_mod_threads (v : Mod) : ((Effect.mod v).apply s).threads = s.threads := rfl
@[simp] theorem apply_mod_turns (v : Mod) : ((Effect.mod v).apply s).turns = s.turns := rfl
@[simp] theorem apply_mod_pips (v : Mod) : ((Effect.mod v).apply s).pips = s.pips := rfl
@[simp] theorem apply_mod_vbufs (v : Mod) : ((Effect.mod v).apply s).vbufs = s.vbufs := rfl
@[simp] theorem apply_mod_queues (v : Mod) : ((Effect.mod v).apply s).queues = s.queues := rfl
@[simp] theorem apply_mod_parts (v : Mod) : ((Effect.mod v).apply s).parts = s.parts := rfl
@[simp] theorem apply_mod_pools (v : Mod) : ((Effect.mod v).apply s).pools = s.pools := rfl
@[simp] theorem apply_mod_groups (v : Mod) : ((Effect.mod v).apply s).groups = s.groups := rfl
@[simp] theorem apply_mod_ports (v : Mod) : ((Effect.mod v).apply s).ports = s.ports := rfl
@[simp] theorem apply_mod_eptSlots (v : Mod) : ((Effect.mod v).apply s).eptSlots = s.eptSlots := rfl
@[simp] theorem apply_mod_submits (v : Mod) : ((Effect.mod v).apply s).submits = s.submits := rfl
@[simp] theorem apply_mod_tagsDone (v : Mod) : ((Effect.mod v).apply s).tagsDone = s.tagsDone := rfl
@[simp] theorem apply_mod_samples (v : Mod) : ((Effect.mod v).apply s).samples = s.samples := rfl
@[simp] theorem apply_mod_loads (v : Mod) : ((Effect.mod v).apply s).loads = s.loads := rfl
@[simp] theorem apply_mod_launches (v : Mod) : ((Effect.mod v).apply s).launches = s.launches := rfl
@[simp] theorem apply_mod_colls (v : Mod) : ((Effect.mod v).apply s).colls = s.colls := rfl
@[simp] theorem apply_mod_freeIdx (v : Mod) : ((Effect.mod v).apply s).freeIdx = s.freeIdx := rfl
@[simp] theorem apply_mod_out (v : Mod) : ((Effect.mod v).apply s).out = s.out := rfl

/-! ## nv -/

@[simp] theorem apply_nv_pending (v : Nv) : ((Effect.nv v).apply s).pending = s.pending := rfl
@[simp] theorem apply_nv_regs (v : Nv) : ((Effect.nv v).apply s).regs = s.regs := rfl
@[simp] theorem apply_nv_mem (v : Nv) : ((Effect.nv v).apply s).mem = s.mem := rfl
@[simp] theorem apply_nv_mem2 (v : Nv) : ((Effect.nv v).apply s).mem2 = s.mem2 := rfl
@[simp] theorem apply_nv_time (v : Nv) : ((Effect.nv v).apply s).time = s.time := rfl
@[simp] theorem apply_nv_mod (v : Nv) : ((Effect.nv v).apply s).mod = s.mod := rfl
@[simp] theorem apply_nv_nv (v : Nv) : ((Effect.nv v).apply s).nv = v := rfl
@[simp] theorem apply_nv_own (v : Nv) : ((Effect.nv v).apply s).own = s.own := rfl
@[simp] theorem apply_nv_err (v : Nv) : ((Effect.nv v).apply s).err = s.err := rfl
@[simp] theorem apply_nv_pw (v : Nv) : ((Effect.nv v).apply s).pw = s.pw := rfl
@[simp] theorem apply_nv_host (v : Nv) : ((Effect.nv v).apply s).host = s.host := rfl
@[simp] theorem apply_nv_fab (v : Nv) : ((Effect.nv v).apply s).fab = s.fab := rfl
@[simp] theorem apply_nv_threads (v : Nv) : ((Effect.nv v).apply s).threads = s.threads := rfl
@[simp] theorem apply_nv_turns (v : Nv) : ((Effect.nv v).apply s).turns = s.turns := rfl
@[simp] theorem apply_nv_pips (v : Nv) : ((Effect.nv v).apply s).pips = s.pips := rfl
@[simp] theorem apply_nv_vbufs (v : Nv) : ((Effect.nv v).apply s).vbufs = s.vbufs := rfl
@[simp] theorem apply_nv_queues (v : Nv) : ((Effect.nv v).apply s).queues = s.queues := rfl
@[simp] theorem apply_nv_parts (v : Nv) : ((Effect.nv v).apply s).parts = s.parts := rfl
@[simp] theorem apply_nv_pools (v : Nv) : ((Effect.nv v).apply s).pools = s.pools := rfl
@[simp] theorem apply_nv_groups (v : Nv) : ((Effect.nv v).apply s).groups = s.groups := rfl
@[simp] theorem apply_nv_ports (v : Nv) : ((Effect.nv v).apply s).ports = s.ports := rfl
@[simp] theorem apply_nv_eptSlots (v : Nv) : ((Effect.nv v).apply s).eptSlots = s.eptSlots := rfl
@[simp] theorem apply_nv_submits (v : Nv) : ((Effect.nv v).apply s).submits = s.submits := rfl
@[simp] theorem apply_nv_tagsDone (v : Nv) : ((Effect.nv v).apply s).tagsDone = s.tagsDone := rfl
@[simp] theorem apply_nv_samples (v : Nv) : ((Effect.nv v).apply s).samples = s.samples := rfl
@[simp] theorem apply_nv_loads (v : Nv) : ((Effect.nv v).apply s).loads = s.loads := rfl
@[simp] theorem apply_nv_launches (v : Nv) : ((Effect.nv v).apply s).launches = s.launches := rfl
@[simp] theorem apply_nv_colls (v : Nv) : ((Effect.nv v).apply s).colls = s.colls := rfl
@[simp] theorem apply_nv_freeIdx (v : Nv) : ((Effect.nv v).apply s).freeIdx = s.freeIdx := rfl
@[simp] theorem apply_nv_out (v : Nv) : ((Effect.nv v).apply s).out = s.out := rfl

/-! ## own -/

@[simp] theorem apply_own_pending (v : Own) : ((Effect.own v).apply s).pending = s.pending := rfl
@[simp] theorem apply_own_regs (v : Own) : ((Effect.own v).apply s).regs = s.regs := rfl
@[simp] theorem apply_own_mem (v : Own) : ((Effect.own v).apply s).mem = s.mem := rfl
@[simp] theorem apply_own_mem2 (v : Own) : ((Effect.own v).apply s).mem2 = s.mem2 := rfl
@[simp] theorem apply_own_time (v : Own) : ((Effect.own v).apply s).time = s.time := rfl
@[simp] theorem apply_own_mod (v : Own) : ((Effect.own v).apply s).mod = s.mod := rfl
@[simp] theorem apply_own_nv (v : Own) : ((Effect.own v).apply s).nv = s.nv := rfl
@[simp] theorem apply_own_own (v : Own) : ((Effect.own v).apply s).own = v := rfl
@[simp] theorem apply_own_err (v : Own) : ((Effect.own v).apply s).err = s.err := rfl
@[simp] theorem apply_own_pw (v : Own) : ((Effect.own v).apply s).pw = s.pw := rfl
@[simp] theorem apply_own_host (v : Own) : ((Effect.own v).apply s).host = s.host := rfl
@[simp] theorem apply_own_fab (v : Own) : ((Effect.own v).apply s).fab = s.fab := rfl
@[simp] theorem apply_own_threads (v : Own) : ((Effect.own v).apply s).threads = s.threads := rfl
@[simp] theorem apply_own_turns (v : Own) : ((Effect.own v).apply s).turns = s.turns := rfl
@[simp] theorem apply_own_pips (v : Own) : ((Effect.own v).apply s).pips = s.pips := rfl
@[simp] theorem apply_own_vbufs (v : Own) : ((Effect.own v).apply s).vbufs = s.vbufs := rfl
@[simp] theorem apply_own_queues (v : Own) : ((Effect.own v).apply s).queues = s.queues := rfl
@[simp] theorem apply_own_parts (v : Own) : ((Effect.own v).apply s).parts = s.parts := rfl
@[simp] theorem apply_own_pools (v : Own) : ((Effect.own v).apply s).pools = s.pools := rfl
@[simp] theorem apply_own_groups (v : Own) : ((Effect.own v).apply s).groups = s.groups := rfl
@[simp] theorem apply_own_ports (v : Own) : ((Effect.own v).apply s).ports = s.ports := rfl
@[simp] theorem apply_own_eptSlots (v : Own) : ((Effect.own v).apply s).eptSlots = s.eptSlots := rfl
@[simp] theorem apply_own_submits (v : Own) : ((Effect.own v).apply s).submits = s.submits := rfl
@[simp] theorem apply_own_tagsDone (v : Own) : ((Effect.own v).apply s).tagsDone = s.tagsDone := rfl
@[simp] theorem apply_own_samples (v : Own) : ((Effect.own v).apply s).samples = s.samples := rfl
@[simp] theorem apply_own_loads (v : Own) : ((Effect.own v).apply s).loads = s.loads := rfl
@[simp] theorem apply_own_launches (v : Own) : ((Effect.own v).apply s).launches = s.launches := rfl
@[simp] theorem apply_own_colls (v : Own) : ((Effect.own v).apply s).colls = s.colls := rfl
@[simp] theorem apply_own_freeIdx (v : Own) : ((Effect.own v).apply s).freeIdx = s.freeIdx := rfl
@[simp] theorem apply_own_out (v : Own) : ((Effect.own v).apply s).out = s.out := rfl

/-! ## err -/

@[simp] theorem apply_err_pending (v : Err) : ((Effect.err v).apply s).pending = s.pending := rfl
@[simp] theorem apply_err_regs (v : Err) : ((Effect.err v).apply s).regs = s.regs := rfl
@[simp] theorem apply_err_mem (v : Err) : ((Effect.err v).apply s).mem = s.mem := rfl
@[simp] theorem apply_err_mem2 (v : Err) : ((Effect.err v).apply s).mem2 = s.mem2 := rfl
@[simp] theorem apply_err_time (v : Err) : ((Effect.err v).apply s).time = s.time := rfl
@[simp] theorem apply_err_mod (v : Err) : ((Effect.err v).apply s).mod = s.mod := rfl
@[simp] theorem apply_err_nv (v : Err) : ((Effect.err v).apply s).nv = s.nv := rfl
@[simp] theorem apply_err_own (v : Err) : ((Effect.err v).apply s).own = s.own := rfl
@[simp] theorem apply_err_err (v : Err) : ((Effect.err v).apply s).err = v := rfl
@[simp] theorem apply_err_pw (v : Err) : ((Effect.err v).apply s).pw = s.pw := rfl
@[simp] theorem apply_err_host (v : Err) : ((Effect.err v).apply s).host = s.host := rfl
@[simp] theorem apply_err_fab (v : Err) : ((Effect.err v).apply s).fab = s.fab := rfl
@[simp] theorem apply_err_threads (v : Err) : ((Effect.err v).apply s).threads = s.threads := rfl
@[simp] theorem apply_err_turns (v : Err) : ((Effect.err v).apply s).turns = s.turns := rfl
@[simp] theorem apply_err_pips (v : Err) : ((Effect.err v).apply s).pips = s.pips := rfl
@[simp] theorem apply_err_vbufs (v : Err) : ((Effect.err v).apply s).vbufs = s.vbufs := rfl
@[simp] theorem apply_err_queues (v : Err) : ((Effect.err v).apply s).queues = s.queues := rfl
@[simp] theorem apply_err_parts (v : Err) : ((Effect.err v).apply s).parts = s.parts := rfl
@[simp] theorem apply_err_pools (v : Err) : ((Effect.err v).apply s).pools = s.pools := rfl
@[simp] theorem apply_err_groups (v : Err) : ((Effect.err v).apply s).groups = s.groups := rfl
@[simp] theorem apply_err_ports (v : Err) : ((Effect.err v).apply s).ports = s.ports := rfl
@[simp] theorem apply_err_eptSlots (v : Err) : ((Effect.err v).apply s).eptSlots = s.eptSlots := rfl
@[simp] theorem apply_err_submits (v : Err) : ((Effect.err v).apply s).submits = s.submits := rfl
@[simp] theorem apply_err_tagsDone (v : Err) : ((Effect.err v).apply s).tagsDone = s.tagsDone := rfl
@[simp] theorem apply_err_samples (v : Err) : ((Effect.err v).apply s).samples = s.samples := rfl
@[simp] theorem apply_err_loads (v : Err) : ((Effect.err v).apply s).loads = s.loads := rfl
@[simp] theorem apply_err_launches (v : Err) : ((Effect.err v).apply s).launches = s.launches := rfl
@[simp] theorem apply_err_colls (v : Err) : ((Effect.err v).apply s).colls = s.colls := rfl
@[simp] theorem apply_err_freeIdx (v : Err) : ((Effect.err v).apply s).freeIdx = s.freeIdx := rfl
@[simp] theorem apply_err_out (v : Err) : ((Effect.err v).apply s).out = s.out := rfl

/-! ## pw -/

@[simp] theorem apply_pw_pending (v : Power) : ((Effect.pw v).apply s).pending = s.pending := rfl
@[simp] theorem apply_pw_regs (v : Power) : ((Effect.pw v).apply s).regs = s.regs := rfl
@[simp] theorem apply_pw_mem (v : Power) : ((Effect.pw v).apply s).mem = s.mem := rfl
@[simp] theorem apply_pw_mem2 (v : Power) : ((Effect.pw v).apply s).mem2 = s.mem2 := rfl
@[simp] theorem apply_pw_time (v : Power) : ((Effect.pw v).apply s).time = s.time := rfl
@[simp] theorem apply_pw_mod (v : Power) : ((Effect.pw v).apply s).mod = s.mod := rfl
@[simp] theorem apply_pw_nv (v : Power) : ((Effect.pw v).apply s).nv = s.nv := rfl
@[simp] theorem apply_pw_own (v : Power) : ((Effect.pw v).apply s).own = s.own := rfl
@[simp] theorem apply_pw_err (v : Power) : ((Effect.pw v).apply s).err = s.err := rfl
@[simp] theorem apply_pw_pw (v : Power) : ((Effect.pw v).apply s).pw = v := rfl
@[simp] theorem apply_pw_host (v : Power) : ((Effect.pw v).apply s).host = s.host := rfl
@[simp] theorem apply_pw_fab (v : Power) : ((Effect.pw v).apply s).fab = s.fab := rfl
@[simp] theorem apply_pw_threads (v : Power) : ((Effect.pw v).apply s).threads = s.threads := rfl
@[simp] theorem apply_pw_turns (v : Power) : ((Effect.pw v).apply s).turns = s.turns := rfl
@[simp] theorem apply_pw_pips (v : Power) : ((Effect.pw v).apply s).pips = s.pips := rfl
@[simp] theorem apply_pw_vbufs (v : Power) : ((Effect.pw v).apply s).vbufs = s.vbufs := rfl
@[simp] theorem apply_pw_queues (v : Power) : ((Effect.pw v).apply s).queues = s.queues := rfl
@[simp] theorem apply_pw_parts (v : Power) : ((Effect.pw v).apply s).parts = s.parts := rfl
@[simp] theorem apply_pw_pools (v : Power) : ((Effect.pw v).apply s).pools = s.pools := rfl
@[simp] theorem apply_pw_groups (v : Power) : ((Effect.pw v).apply s).groups = s.groups := rfl
@[simp] theorem apply_pw_ports (v : Power) : ((Effect.pw v).apply s).ports = s.ports := rfl
@[simp] theorem apply_pw_eptSlots (v : Power) : ((Effect.pw v).apply s).eptSlots = s.eptSlots := rfl
@[simp] theorem apply_pw_submits (v : Power) : ((Effect.pw v).apply s).submits = s.submits := rfl
@[simp] theorem apply_pw_tagsDone (v : Power) : ((Effect.pw v).apply s).tagsDone = s.tagsDone := rfl
@[simp] theorem apply_pw_samples (v : Power) : ((Effect.pw v).apply s).samples = s.samples := rfl
@[simp] theorem apply_pw_loads (v : Power) : ((Effect.pw v).apply s).loads = s.loads := rfl
@[simp] theorem apply_pw_launches (v : Power) : ((Effect.pw v).apply s).launches = s.launches := rfl
@[simp] theorem apply_pw_colls (v : Power) : ((Effect.pw v).apply s).colls = s.colls := rfl
@[simp] theorem apply_pw_freeIdx (v : Power) : ((Effect.pw v).apply s).freeIdx = s.freeIdx := rfl
@[simp] theorem apply_pw_out (v : Power) : ((Effect.pw v).apply s).out = s.out := rfl

/-! ## host -/

@[simp] theorem apply_host_pending (v : HostIf) : ((Effect.host v).apply s).pending = s.pending := rfl
@[simp] theorem apply_host_regs (v : HostIf) : ((Effect.host v).apply s).regs = s.regs := rfl
@[simp] theorem apply_host_mem (v : HostIf) : ((Effect.host v).apply s).mem = s.mem := rfl
@[simp] theorem apply_host_mem2 (v : HostIf) : ((Effect.host v).apply s).mem2 = s.mem2 := rfl
@[simp] theorem apply_host_time (v : HostIf) : ((Effect.host v).apply s).time = s.time := rfl
@[simp] theorem apply_host_mod (v : HostIf) : ((Effect.host v).apply s).mod = s.mod := rfl
@[simp] theorem apply_host_nv (v : HostIf) : ((Effect.host v).apply s).nv = s.nv := rfl
@[simp] theorem apply_host_own (v : HostIf) : ((Effect.host v).apply s).own = s.own := rfl
@[simp] theorem apply_host_err (v : HostIf) : ((Effect.host v).apply s).err = s.err := rfl
@[simp] theorem apply_host_pw (v : HostIf) : ((Effect.host v).apply s).pw = s.pw := rfl
@[simp] theorem apply_host_host (v : HostIf) : ((Effect.host v).apply s).host = v := rfl
@[simp] theorem apply_host_fab (v : HostIf) : ((Effect.host v).apply s).fab = s.fab := rfl
@[simp] theorem apply_host_threads (v : HostIf) : ((Effect.host v).apply s).threads = s.threads := rfl
@[simp] theorem apply_host_turns (v : HostIf) : ((Effect.host v).apply s).turns = s.turns := rfl
@[simp] theorem apply_host_pips (v : HostIf) : ((Effect.host v).apply s).pips = s.pips := rfl
@[simp] theorem apply_host_vbufs (v : HostIf) : ((Effect.host v).apply s).vbufs = s.vbufs := rfl
@[simp] theorem apply_host_queues (v : HostIf) : ((Effect.host v).apply s).queues = s.queues := rfl
@[simp] theorem apply_host_parts (v : HostIf) : ((Effect.host v).apply s).parts = s.parts := rfl
@[simp] theorem apply_host_pools (v : HostIf) : ((Effect.host v).apply s).pools = s.pools := rfl
@[simp] theorem apply_host_groups (v : HostIf) : ((Effect.host v).apply s).groups = s.groups := rfl
@[simp] theorem apply_host_ports (v : HostIf) : ((Effect.host v).apply s).ports = s.ports := rfl
@[simp] theorem apply_host_eptSlots (v : HostIf) : ((Effect.host v).apply s).eptSlots = s.eptSlots := rfl
@[simp] theorem apply_host_submits (v : HostIf) : ((Effect.host v).apply s).submits = s.submits := rfl
@[simp] theorem apply_host_tagsDone (v : HostIf) : ((Effect.host v).apply s).tagsDone = s.tagsDone := rfl
@[simp] theorem apply_host_samples (v : HostIf) : ((Effect.host v).apply s).samples = s.samples := rfl
@[simp] theorem apply_host_loads (v : HostIf) : ((Effect.host v).apply s).loads = s.loads := rfl
@[simp] theorem apply_host_launches (v : HostIf) : ((Effect.host v).apply s).launches = s.launches := rfl
@[simp] theorem apply_host_colls (v : HostIf) : ((Effect.host v).apply s).colls = s.colls := rfl
@[simp] theorem apply_host_freeIdx (v : HostIf) : ((Effect.host v).apply s).freeIdx = s.freeIdx := rfl
@[simp] theorem apply_host_out (v : HostIf) : ((Effect.host v).apply s).out = s.out := rfl

/-! ## fab -/

@[simp] theorem apply_fab_pending (v : Fab) : ((Effect.fab v).apply s).pending = s.pending := rfl
@[simp] theorem apply_fab_regs (v : Fab) : ((Effect.fab v).apply s).regs = s.regs := rfl
@[simp] theorem apply_fab_mem (v : Fab) : ((Effect.fab v).apply s).mem = s.mem := rfl
@[simp] theorem apply_fab_mem2 (v : Fab) : ((Effect.fab v).apply s).mem2 = s.mem2 := rfl
@[simp] theorem apply_fab_time (v : Fab) : ((Effect.fab v).apply s).time = s.time := rfl
@[simp] theorem apply_fab_mod (v : Fab) : ((Effect.fab v).apply s).mod = s.mod := rfl
@[simp] theorem apply_fab_nv (v : Fab) : ((Effect.fab v).apply s).nv = s.nv := rfl
@[simp] theorem apply_fab_own (v : Fab) : ((Effect.fab v).apply s).own = s.own := rfl
@[simp] theorem apply_fab_err (v : Fab) : ((Effect.fab v).apply s).err = s.err := rfl
@[simp] theorem apply_fab_pw (v : Fab) : ((Effect.fab v).apply s).pw = s.pw := rfl
@[simp] theorem apply_fab_host (v : Fab) : ((Effect.fab v).apply s).host = s.host := rfl
@[simp] theorem apply_fab_fab (v : Fab) : ((Effect.fab v).apply s).fab = v := rfl
@[simp] theorem apply_fab_threads (v : Fab) : ((Effect.fab v).apply s).threads = s.threads := rfl
@[simp] theorem apply_fab_turns (v : Fab) : ((Effect.fab v).apply s).turns = s.turns := rfl
@[simp] theorem apply_fab_pips (v : Fab) : ((Effect.fab v).apply s).pips = s.pips := rfl
@[simp] theorem apply_fab_vbufs (v : Fab) : ((Effect.fab v).apply s).vbufs = s.vbufs := rfl
@[simp] theorem apply_fab_queues (v : Fab) : ((Effect.fab v).apply s).queues = s.queues := rfl
@[simp] theorem apply_fab_parts (v : Fab) : ((Effect.fab v).apply s).parts = s.parts := rfl
@[simp] theorem apply_fab_pools (v : Fab) : ((Effect.fab v).apply s).pools = s.pools := rfl
@[simp] theorem apply_fab_groups (v : Fab) : ((Effect.fab v).apply s).groups = s.groups := rfl
@[simp] theorem apply_fab_ports (v : Fab) : ((Effect.fab v).apply s).ports = s.ports := rfl
@[simp] theorem apply_fab_eptSlots (v : Fab) : ((Effect.fab v).apply s).eptSlots = s.eptSlots := rfl
@[simp] theorem apply_fab_submits (v : Fab) : ((Effect.fab v).apply s).submits = s.submits := rfl
@[simp] theorem apply_fab_tagsDone (v : Fab) : ((Effect.fab v).apply s).tagsDone = s.tagsDone := rfl
@[simp] theorem apply_fab_samples (v : Fab) : ((Effect.fab v).apply s).samples = s.samples := rfl
@[simp] theorem apply_fab_loads (v : Fab) : ((Effect.fab v).apply s).loads = s.loads := rfl
@[simp] theorem apply_fab_launches (v : Fab) : ((Effect.fab v).apply s).launches = s.launches := rfl
@[simp] theorem apply_fab_colls (v : Fab) : ((Effect.fab v).apply s).colls = s.colls := rfl
@[simp] theorem apply_fab_freeIdx (v : Fab) : ((Effect.fab v).apply s).freeIdx = s.freeIdx := rfl
@[simp] theorem apply_fab_out (v : Fab) : ((Effect.fab v).apply s).out = s.out := rfl

/-! ## submits -/

@[simp] theorem apply_submits_pending (v : List Submit) : ((Effect.submits v).apply s).pending = s.pending := rfl
@[simp] theorem apply_submits_regs (v : List Submit) : ((Effect.submits v).apply s).regs = s.regs := rfl
@[simp] theorem apply_submits_mem (v : List Submit) : ((Effect.submits v).apply s).mem = s.mem := rfl
@[simp] theorem apply_submits_mem2 (v : List Submit) : ((Effect.submits v).apply s).mem2 = s.mem2 := rfl
@[simp] theorem apply_submits_time (v : List Submit) : ((Effect.submits v).apply s).time = s.time := rfl
@[simp] theorem apply_submits_mod (v : List Submit) : ((Effect.submits v).apply s).mod = s.mod := rfl
@[simp] theorem apply_submits_nv (v : List Submit) : ((Effect.submits v).apply s).nv = s.nv := rfl
@[simp] theorem apply_submits_own (v : List Submit) : ((Effect.submits v).apply s).own = s.own := rfl
@[simp] theorem apply_submits_err (v : List Submit) : ((Effect.submits v).apply s).err = s.err := rfl
@[simp] theorem apply_submits_pw (v : List Submit) : ((Effect.submits v).apply s).pw = s.pw := rfl
@[simp] theorem apply_submits_host (v : List Submit) : ((Effect.submits v).apply s).host = s.host := rfl
@[simp] theorem apply_submits_fab (v : List Submit) : ((Effect.submits v).apply s).fab = s.fab := rfl
@[simp] theorem apply_submits_threads (v : List Submit) : ((Effect.submits v).apply s).threads = s.threads := rfl
@[simp] theorem apply_submits_turns (v : List Submit) : ((Effect.submits v).apply s).turns = s.turns := rfl
@[simp] theorem apply_submits_pips (v : List Submit) : ((Effect.submits v).apply s).pips = s.pips := rfl
@[simp] theorem apply_submits_vbufs (v : List Submit) : ((Effect.submits v).apply s).vbufs = s.vbufs := rfl
@[simp] theorem apply_submits_queues (v : List Submit) : ((Effect.submits v).apply s).queues = s.queues := rfl
@[simp] theorem apply_submits_parts (v : List Submit) : ((Effect.submits v).apply s).parts = s.parts := rfl
@[simp] theorem apply_submits_pools (v : List Submit) : ((Effect.submits v).apply s).pools = s.pools := rfl
@[simp] theorem apply_submits_groups (v : List Submit) : ((Effect.submits v).apply s).groups = s.groups := rfl
@[simp] theorem apply_submits_ports (v : List Submit) : ((Effect.submits v).apply s).ports = s.ports := rfl
@[simp] theorem apply_submits_eptSlots (v : List Submit) : ((Effect.submits v).apply s).eptSlots = s.eptSlots := rfl
@[simp] theorem apply_submits_submits (v : List Submit) : ((Effect.submits v).apply s).submits = v := rfl
@[simp] theorem apply_submits_tagsDone (v : List Submit) : ((Effect.submits v).apply s).tagsDone = s.tagsDone := rfl
@[simp] theorem apply_submits_samples (v : List Submit) : ((Effect.submits v).apply s).samples = s.samples := rfl
@[simp] theorem apply_submits_loads (v : List Submit) : ((Effect.submits v).apply s).loads = s.loads := rfl
@[simp] theorem apply_submits_launches (v : List Submit) : ((Effect.submits v).apply s).launches = s.launches := rfl
@[simp] theorem apply_submits_colls (v : List Submit) : ((Effect.submits v).apply s).colls = s.colls := rfl
@[simp] theorem apply_submits_freeIdx (v : List Submit) : ((Effect.submits v).apply s).freeIdx = s.freeIdx := rfl
@[simp] theorem apply_submits_out (v : List Submit) : ((Effect.submits v).apply s).out = s.out := rfl

/-! ## tagsDone -/

@[simp] theorem apply_tagsDone_pending (v : List TagDone) : ((Effect.tagsDone v).apply s).pending = s.pending := rfl
@[simp] theorem apply_tagsDone_regs (v : List TagDone) : ((Effect.tagsDone v).apply s).regs = s.regs := rfl
@[simp] theorem apply_tagsDone_mem (v : List TagDone) : ((Effect.tagsDone v).apply s).mem = s.mem := rfl
@[simp] theorem apply_tagsDone_mem2 (v : List TagDone) : ((Effect.tagsDone v).apply s).mem2 = s.mem2 := rfl
@[simp] theorem apply_tagsDone_time (v : List TagDone) : ((Effect.tagsDone v).apply s).time = s.time := rfl
@[simp] theorem apply_tagsDone_mod (v : List TagDone) : ((Effect.tagsDone v).apply s).mod = s.mod := rfl
@[simp] theorem apply_tagsDone_nv (v : List TagDone) : ((Effect.tagsDone v).apply s).nv = s.nv := rfl
@[simp] theorem apply_tagsDone_own (v : List TagDone) : ((Effect.tagsDone v).apply s).own = s.own := rfl
@[simp] theorem apply_tagsDone_err (v : List TagDone) : ((Effect.tagsDone v).apply s).err = s.err := rfl
@[simp] theorem apply_tagsDone_pw (v : List TagDone) : ((Effect.tagsDone v).apply s).pw = s.pw := rfl
@[simp] theorem apply_tagsDone_host (v : List TagDone) : ((Effect.tagsDone v).apply s).host = s.host := rfl
@[simp] theorem apply_tagsDone_fab (v : List TagDone) : ((Effect.tagsDone v).apply s).fab = s.fab := rfl
@[simp] theorem apply_tagsDone_threads (v : List TagDone) : ((Effect.tagsDone v).apply s).threads = s.threads := rfl
@[simp] theorem apply_tagsDone_turns (v : List TagDone) : ((Effect.tagsDone v).apply s).turns = s.turns := rfl
@[simp] theorem apply_tagsDone_pips (v : List TagDone) : ((Effect.tagsDone v).apply s).pips = s.pips := rfl
@[simp] theorem apply_tagsDone_vbufs (v : List TagDone) : ((Effect.tagsDone v).apply s).vbufs = s.vbufs := rfl
@[simp] theorem apply_tagsDone_queues (v : List TagDone) : ((Effect.tagsDone v).apply s).queues = s.queues := rfl
@[simp] theorem apply_tagsDone_parts (v : List TagDone) : ((Effect.tagsDone v).apply s).parts = s.parts := rfl
@[simp] theorem apply_tagsDone_pools (v : List TagDone) : ((Effect.tagsDone v).apply s).pools = s.pools := rfl
@[simp] theorem apply_tagsDone_groups (v : List TagDone) : ((Effect.tagsDone v).apply s).groups = s.groups := rfl
@[simp] theorem apply_tagsDone_ports (v : List TagDone) : ((Effect.tagsDone v).apply s).ports = s.ports := rfl
@[simp] theorem apply_tagsDone_eptSlots (v : List TagDone) : ((Effect.tagsDone v).apply s).eptSlots = s.eptSlots := rfl
@[simp] theorem apply_tagsDone_submits (v : List TagDone) : ((Effect.tagsDone v).apply s).submits = s.submits := rfl
@[simp] theorem apply_tagsDone_tagsDone (v : List TagDone) : ((Effect.tagsDone v).apply s).tagsDone = v := rfl
@[simp] theorem apply_tagsDone_samples (v : List TagDone) : ((Effect.tagsDone v).apply s).samples = s.samples := rfl
@[simp] theorem apply_tagsDone_loads (v : List TagDone) : ((Effect.tagsDone v).apply s).loads = s.loads := rfl
@[simp] theorem apply_tagsDone_launches (v : List TagDone) : ((Effect.tagsDone v).apply s).launches = s.launches := rfl
@[simp] theorem apply_tagsDone_colls (v : List TagDone) : ((Effect.tagsDone v).apply s).colls = s.colls := rfl
@[simp] theorem apply_tagsDone_freeIdx (v : List TagDone) : ((Effect.tagsDone v).apply s).freeIdx = s.freeIdx := rfl
@[simp] theorem apply_tagsDone_out (v : List TagDone) : ((Effect.tagsDone v).apply s).out = s.out := rfl

/-! ## samples -/

@[simp] theorem apply_samples_pending (v : List Sample) : ((Effect.samples v).apply s).pending = s.pending := rfl
@[simp] theorem apply_samples_regs (v : List Sample) : ((Effect.samples v).apply s).regs = s.regs := rfl
@[simp] theorem apply_samples_mem (v : List Sample) : ((Effect.samples v).apply s).mem = s.mem := rfl
@[simp] theorem apply_samples_mem2 (v : List Sample) : ((Effect.samples v).apply s).mem2 = s.mem2 := rfl
@[simp] theorem apply_samples_time (v : List Sample) : ((Effect.samples v).apply s).time = s.time := rfl
@[simp] theorem apply_samples_mod (v : List Sample) : ((Effect.samples v).apply s).mod = s.mod := rfl
@[simp] theorem apply_samples_nv (v : List Sample) : ((Effect.samples v).apply s).nv = s.nv := rfl
@[simp] theorem apply_samples_own (v : List Sample) : ((Effect.samples v).apply s).own = s.own := rfl
@[simp] theorem apply_samples_err (v : List Sample) : ((Effect.samples v).apply s).err = s.err := rfl
@[simp] theorem apply_samples_pw (v : List Sample) : ((Effect.samples v).apply s).pw = s.pw := rfl
@[simp] theorem apply_samples_host (v : List Sample) : ((Effect.samples v).apply s).host = s.host := rfl
@[simp] theorem apply_samples_fab (v : List Sample) : ((Effect.samples v).apply s).fab = s.fab := rfl
@[simp] theorem apply_samples_threads (v : List Sample) : ((Effect.samples v).apply s).threads = s.threads := rfl
@[simp] theorem apply_samples_turns (v : List Sample) : ((Effect.samples v).apply s).turns = s.turns := rfl
@[simp] theorem apply_samples_pips (v : List Sample) : ((Effect.samples v).apply s).pips = s.pips := rfl
@[simp] theorem apply_samples_vbufs (v : List Sample) : ((Effect.samples v).apply s).vbufs = s.vbufs := rfl
@[simp] theorem apply_samples_queues (v : List Sample) : ((Effect.samples v).apply s).queues = s.queues := rfl
@[simp] theorem apply_samples_parts (v : List Sample) : ((Effect.samples v).apply s).parts = s.parts := rfl
@[simp] theorem apply_samples_pools (v : List Sample) : ((Effect.samples v).apply s).pools = s.pools := rfl
@[simp] theorem apply_samples_groups (v : List Sample) : ((Effect.samples v).apply s).groups = s.groups := rfl
@[simp] theorem apply_samples_ports (v : List Sample) : ((Effect.samples v).apply s).ports = s.ports := rfl
@[simp] theorem apply_samples_eptSlots (v : List Sample) : ((Effect.samples v).apply s).eptSlots = s.eptSlots := rfl
@[simp] theorem apply_samples_submits (v : List Sample) : ((Effect.samples v).apply s).submits = s.submits := rfl
@[simp] theorem apply_samples_tagsDone (v : List Sample) : ((Effect.samples v).apply s).tagsDone = s.tagsDone := rfl
@[simp] theorem apply_samples_samples (v : List Sample) : ((Effect.samples v).apply s).samples = v := rfl
@[simp] theorem apply_samples_loads (v : List Sample) : ((Effect.samples v).apply s).loads = s.loads := rfl
@[simp] theorem apply_samples_launches (v : List Sample) : ((Effect.samples v).apply s).launches = s.launches := rfl
@[simp] theorem apply_samples_colls (v : List Sample) : ((Effect.samples v).apply s).colls = s.colls := rfl
@[simp] theorem apply_samples_freeIdx (v : List Sample) : ((Effect.samples v).apply s).freeIdx = s.freeIdx := rfl
@[simp] theorem apply_samples_out (v : List Sample) : ((Effect.samples v).apply s).out = s.out := rfl

/-! ## loads -/

@[simp] theorem apply_loads_pending (v : List (Nat × Nat × Nat × Nat)) : ((Effect.loads v).apply s).pending = s.pending := rfl
@[simp] theorem apply_loads_regs (v : List (Nat × Nat × Nat × Nat)) : ((Effect.loads v).apply s).regs = s.regs := rfl
@[simp] theorem apply_loads_mem (v : List (Nat × Nat × Nat × Nat)) : ((Effect.loads v).apply s).mem = s.mem := rfl
@[simp] theorem apply_loads_mem2 (v : List (Nat × Nat × Nat × Nat)) : ((Effect.loads v).apply s).mem2 = s.mem2 := rfl
@[simp] theorem apply_loads_time (v : List (Nat × Nat × Nat × Nat)) : ((Effect.loads v).apply s).time = s.time := rfl
@[simp] theorem apply_loads_mod (v : List (Nat × Nat × Nat × Nat)) : ((Effect.loads v).apply s).mod = s.mod := rfl
@[simp] theorem apply_loads_nv (v : List (Nat × Nat × Nat × Nat)) : ((Effect.loads v).apply s).nv = s.nv := rfl
@[simp] theorem apply_loads_own (v : List (Nat × Nat × Nat × Nat)) : ((Effect.loads v).apply s).own = s.own := rfl
@[simp] theorem apply_loads_err (v : List (Nat × Nat × Nat × Nat)) : ((Effect.loads v).apply s).err = s.err := rfl
@[simp] theorem apply_loads_pw (v : List (Nat × Nat × Nat × Nat)) : ((Effect.loads v).apply s).pw = s.pw := rfl
@[simp] theorem apply_loads_host (v : List (Nat × Nat × Nat × Nat)) : ((Effect.loads v).apply s).host = s.host := rfl
@[simp] theorem apply_loads_fab (v : List (Nat × Nat × Nat × Nat)) : ((Effect.loads v).apply s).fab = s.fab := rfl
@[simp] theorem apply_loads_threads (v : List (Nat × Nat × Nat × Nat)) : ((Effect.loads v).apply s).threads = s.threads := rfl
@[simp] theorem apply_loads_turns (v : List (Nat × Nat × Nat × Nat)) : ((Effect.loads v).apply s).turns = s.turns := rfl
@[simp] theorem apply_loads_pips (v : List (Nat × Nat × Nat × Nat)) : ((Effect.loads v).apply s).pips = s.pips := rfl
@[simp] theorem apply_loads_vbufs (v : List (Nat × Nat × Nat × Nat)) : ((Effect.loads v).apply s).vbufs = s.vbufs := rfl
@[simp] theorem apply_loads_queues (v : List (Nat × Nat × Nat × Nat)) : ((Effect.loads v).apply s).queues = s.queues := rfl
@[simp] theorem apply_loads_parts (v : List (Nat × Nat × Nat × Nat)) : ((Effect.loads v).apply s).parts = s.parts := rfl
@[simp] theorem apply_loads_pools (v : List (Nat × Nat × Nat × Nat)) : ((Effect.loads v).apply s).pools = s.pools := rfl
@[simp] theorem apply_loads_groups (v : List (Nat × Nat × Nat × Nat)) : ((Effect.loads v).apply s).groups = s.groups := rfl
@[simp] theorem apply_loads_ports (v : List (Nat × Nat × Nat × Nat)) : ((Effect.loads v).apply s).ports = s.ports := rfl
@[simp] theorem apply_loads_eptSlots (v : List (Nat × Nat × Nat × Nat)) : ((Effect.loads v).apply s).eptSlots = s.eptSlots := rfl
@[simp] theorem apply_loads_submits (v : List (Nat × Nat × Nat × Nat)) : ((Effect.loads v).apply s).submits = s.submits := rfl
@[simp] theorem apply_loads_tagsDone (v : List (Nat × Nat × Nat × Nat)) : ((Effect.loads v).apply s).tagsDone = s.tagsDone := rfl
@[simp] theorem apply_loads_samples (v : List (Nat × Nat × Nat × Nat)) : ((Effect.loads v).apply s).samples = s.samples := rfl
@[simp] theorem apply_loads_loads (v : List (Nat × Nat × Nat × Nat)) : ((Effect.loads v).apply s).loads = v := rfl
@[simp] theorem apply_loads_launches (v : List (Nat × Nat × Nat × Nat)) : ((Effect.loads v).apply s).launches = s.launches := rfl
@[simp] theorem apply_loads_colls (v : List (Nat × Nat × Nat × Nat)) : ((Effect.loads v).apply s).colls = s.colls := rfl
@[simp] theorem apply_loads_freeIdx (v : List (Nat × Nat × Nat × Nat)) : ((Effect.loads v).apply s).freeIdx = s.freeIdx := rfl
@[simp] theorem apply_loads_out (v : List (Nat × Nat × Nat × Nat)) : ((Effect.loads v).apply s).out = s.out := rfl

/-! ## launches -/

@[simp] theorem apply_launches_pending (v : List Launch) : ((Effect.launches v).apply s).pending = s.pending := rfl
@[simp] theorem apply_launches_regs (v : List Launch) : ((Effect.launches v).apply s).regs = s.regs := rfl
@[simp] theorem apply_launches_mem (v : List Launch) : ((Effect.launches v).apply s).mem = s.mem := rfl
@[simp] theorem apply_launches_mem2 (v : List Launch) : ((Effect.launches v).apply s).mem2 = s.mem2 := rfl
@[simp] theorem apply_launches_time (v : List Launch) : ((Effect.launches v).apply s).time = s.time := rfl
@[simp] theorem apply_launches_mod (v : List Launch) : ((Effect.launches v).apply s).mod = s.mod := rfl
@[simp] theorem apply_launches_nv (v : List Launch) : ((Effect.launches v).apply s).nv = s.nv := rfl
@[simp] theorem apply_launches_own (v : List Launch) : ((Effect.launches v).apply s).own = s.own := rfl
@[simp] theorem apply_launches_err (v : List Launch) : ((Effect.launches v).apply s).err = s.err := rfl
@[simp] theorem apply_launches_pw (v : List Launch) : ((Effect.launches v).apply s).pw = s.pw := rfl
@[simp] theorem apply_launches_host (v : List Launch) : ((Effect.launches v).apply s).host = s.host := rfl
@[simp] theorem apply_launches_fab (v : List Launch) : ((Effect.launches v).apply s).fab = s.fab := rfl
@[simp] theorem apply_launches_threads (v : List Launch) : ((Effect.launches v).apply s).threads = s.threads := rfl
@[simp] theorem apply_launches_turns (v : List Launch) : ((Effect.launches v).apply s).turns = s.turns := rfl
@[simp] theorem apply_launches_pips (v : List Launch) : ((Effect.launches v).apply s).pips = s.pips := rfl
@[simp] theorem apply_launches_vbufs (v : List Launch) : ((Effect.launches v).apply s).vbufs = s.vbufs := rfl
@[simp] theorem apply_launches_queues (v : List Launch) : ((Effect.launches v).apply s).queues = s.queues := rfl
@[simp] theorem apply_launches_parts (v : List Launch) : ((Effect.launches v).apply s).parts = s.parts := rfl
@[simp] theorem apply_launches_pools (v : List Launch) : ((Effect.launches v).apply s).pools = s.pools := rfl
@[simp] theorem apply_launches_groups (v : List Launch) : ((Effect.launches v).apply s).groups = s.groups := rfl
@[simp] theorem apply_launches_ports (v : List Launch) : ((Effect.launches v).apply s).ports = s.ports := rfl
@[simp] theorem apply_launches_eptSlots (v : List Launch) : ((Effect.launches v).apply s).eptSlots = s.eptSlots := rfl
@[simp] theorem apply_launches_submits (v : List Launch) : ((Effect.launches v).apply s).submits = s.submits := rfl
@[simp] theorem apply_launches_tagsDone (v : List Launch) : ((Effect.launches v).apply s).tagsDone = s.tagsDone := rfl
@[simp] theorem apply_launches_samples (v : List Launch) : ((Effect.launches v).apply s).samples = s.samples := rfl
@[simp] theorem apply_launches_loads (v : List Launch) : ((Effect.launches v).apply s).loads = s.loads := rfl
@[simp] theorem apply_launches_launches (v : List Launch) : ((Effect.launches v).apply s).launches = v := rfl
@[simp] theorem apply_launches_colls (v : List Launch) : ((Effect.launches v).apply s).colls = s.colls := rfl
@[simp] theorem apply_launches_freeIdx (v : List Launch) : ((Effect.launches v).apply s).freeIdx = s.freeIdx := rfl
@[simp] theorem apply_launches_out (v : List Launch) : ((Effect.launches v).apply s).out = s.out := rfl

/-! ## colls -/

@[simp] theorem apply_colls_pending (v : List Coll) : ((Effect.colls v).apply s).pending = s.pending := rfl
@[simp] theorem apply_colls_regs (v : List Coll) : ((Effect.colls v).apply s).regs = s.regs := rfl
@[simp] theorem apply_colls_mem (v : List Coll) : ((Effect.colls v).apply s).mem = s.mem := rfl
@[simp] theorem apply_colls_mem2 (v : List Coll) : ((Effect.colls v).apply s).mem2 = s.mem2 := rfl
@[simp] theorem apply_colls_time (v : List Coll) : ((Effect.colls v).apply s).time = s.time := rfl
@[simp] theorem apply_colls_mod (v : List Coll) : ((Effect.colls v).apply s).mod = s.mod := rfl
@[simp] theorem apply_colls_nv (v : List Coll) : ((Effect.colls v).apply s).nv = s.nv := rfl
@[simp] theorem apply_colls_own (v : List Coll) : ((Effect.colls v).apply s).own = s.own := rfl
@[simp] theorem apply_colls_err (v : List Coll) : ((Effect.colls v).apply s).err = s.err := rfl
@[simp] theorem apply_colls_pw (v : List Coll) : ((Effect.colls v).apply s).pw = s.pw := rfl
@[simp] theorem apply_colls_host (v : List Coll) : ((Effect.colls v).apply s).host = s.host := rfl
@[simp] theorem apply_colls_fab (v : List Coll) : ((Effect.colls v).apply s).fab = s.fab := rfl
@[simp] theorem apply_colls_threads (v : List Coll) : ((Effect.colls v).apply s).threads = s.threads := rfl
@[simp] theorem apply_colls_turns (v : List Coll) : ((Effect.colls v).apply s).turns = s.turns := rfl
@[simp] theorem apply_colls_pips (v : List Coll) : ((Effect.colls v).apply s).pips = s.pips := rfl
@[simp] theorem apply_colls_vbufs (v : List Coll) : ((Effect.colls v).apply s).vbufs = s.vbufs := rfl
@[simp] theorem apply_colls_queues (v : List Coll) : ((Effect.colls v).apply s).queues = s.queues := rfl
@[simp] theorem apply_colls_parts (v : List Coll) : ((Effect.colls v).apply s).parts = s.parts := rfl
@[simp] theorem apply_colls_pools (v : List Coll) : ((Effect.colls v).apply s).pools = s.pools := rfl
@[simp] theorem apply_colls_groups (v : List Coll) : ((Effect.colls v).apply s).groups = s.groups := rfl
@[simp] theorem apply_colls_ports (v : List Coll) : ((Effect.colls v).apply s).ports = s.ports := rfl
@[simp] theorem apply_colls_eptSlots (v : List Coll) : ((Effect.colls v).apply s).eptSlots = s.eptSlots := rfl
@[simp] theorem apply_colls_submits (v : List Coll) : ((Effect.colls v).apply s).submits = s.submits := rfl
@[simp] theorem apply_colls_tagsDone (v : List Coll) : ((Effect.colls v).apply s).tagsDone = s.tagsDone := rfl
@[simp] theorem apply_colls_samples (v : List Coll) : ((Effect.colls v).apply s).samples = s.samples := rfl
@[simp] theorem apply_colls_loads (v : List Coll) : ((Effect.colls v).apply s).loads = s.loads := rfl
@[simp] theorem apply_colls_launches (v : List Coll) : ((Effect.colls v).apply s).launches = s.launches := rfl
@[simp] theorem apply_colls_colls (v : List Coll) : ((Effect.colls v).apply s).colls = v := rfl
@[simp] theorem apply_colls_freeIdx (v : List Coll) : ((Effect.colls v).apply s).freeIdx = s.freeIdx := rfl
@[simp] theorem apply_colls_out (v : List Coll) : ((Effect.colls v).apply s).out = s.out := rfl

/-! ## draw -/

@[simp] theorem apply_draw_pending : ((Effect.draw).apply s).pending = s.pending := rfl
@[simp] theorem apply_draw_regs : ((Effect.draw).apply s).regs = s.regs := rfl
@[simp] theorem apply_draw_mem : ((Effect.draw).apply s).mem = s.mem := rfl
@[simp] theorem apply_draw_mem2 : ((Effect.draw).apply s).mem2 = s.mem2 := rfl
@[simp] theorem apply_draw_time : ((Effect.draw).apply s).time = s.time := rfl
@[simp] theorem apply_draw_mod : ((Effect.draw).apply s).mod = s.mod := rfl
@[simp] theorem apply_draw_nv : ((Effect.draw).apply s).nv = s.nv := rfl
@[simp] theorem apply_draw_own : ((Effect.draw).apply s).own = s.own := rfl
@[simp] theorem apply_draw_err : ((Effect.draw).apply s).err = s.err := rfl
@[simp] theorem apply_draw_pw : ((Effect.draw).apply s).pw = s.pw := rfl
@[simp] theorem apply_draw_host : ((Effect.draw).apply s).host = s.host := rfl
@[simp] theorem apply_draw_fab : ((Effect.draw).apply s).fab = s.fab := rfl
@[simp] theorem apply_draw_threads : ((Effect.draw).apply s).threads = s.threads := rfl
@[simp] theorem apply_draw_turns : ((Effect.draw).apply s).turns = s.turns := rfl
@[simp] theorem apply_draw_pips : ((Effect.draw).apply s).pips = s.pips := rfl
@[simp] theorem apply_draw_vbufs : ((Effect.draw).apply s).vbufs = s.vbufs := rfl
@[simp] theorem apply_draw_queues : ((Effect.draw).apply s).queues = s.queues := rfl
@[simp] theorem apply_draw_parts : ((Effect.draw).apply s).parts = s.parts := rfl
@[simp] theorem apply_draw_pools : ((Effect.draw).apply s).pools = s.pools := rfl
@[simp] theorem apply_draw_groups : ((Effect.draw).apply s).groups = s.groups := rfl
@[simp] theorem apply_draw_ports : ((Effect.draw).apply s).ports = s.ports := rfl
@[simp] theorem apply_draw_eptSlots : ((Effect.draw).apply s).eptSlots = s.eptSlots := rfl
@[simp] theorem apply_draw_submits : ((Effect.draw).apply s).submits = s.submits := rfl
@[simp] theorem apply_draw_tagsDone : ((Effect.draw).apply s).tagsDone = s.tagsDone := rfl
@[simp] theorem apply_draw_samples : ((Effect.draw).apply s).samples = s.samples := rfl
@[simp] theorem apply_draw_loads : ((Effect.draw).apply s).loads = s.loads := rfl
@[simp] theorem apply_draw_launches : ((Effect.draw).apply s).launches = s.launches := rfl
@[simp] theorem apply_draw_colls : ((Effect.draw).apply s).colls = s.colls := rfl
@[simp] theorem apply_draw_freeIdx : ((Effect.draw).apply s).freeIdx = s.freeIdx + 1 := rfl
@[simp] theorem apply_draw_out : ((Effect.draw).apply s).out = s.out := rfl

/-! ## emit -/

@[simp] theorem apply_emit_pending (v : Emit) : ((Effect.emit v).apply s).pending = s.pending := rfl
@[simp] theorem apply_emit_regs (v : Emit) : ((Effect.emit v).apply s).regs = s.regs := rfl
@[simp] theorem apply_emit_mem (v : Emit) : ((Effect.emit v).apply s).mem = s.mem := rfl
@[simp] theorem apply_emit_mem2 (v : Emit) : ((Effect.emit v).apply s).mem2 = s.mem2 := rfl
@[simp] theorem apply_emit_time (v : Emit) : ((Effect.emit v).apply s).time = s.time := rfl
@[simp] theorem apply_emit_mod (v : Emit) : ((Effect.emit v).apply s).mod = s.mod := rfl
@[simp] theorem apply_emit_nv (v : Emit) : ((Effect.emit v).apply s).nv = s.nv := rfl
@[simp] theorem apply_emit_own (v : Emit) : ((Effect.emit v).apply s).own = s.own := rfl
@[simp] theorem apply_emit_err (v : Emit) : ((Effect.emit v).apply s).err = s.err := rfl
@[simp] theorem apply_emit_pw (v : Emit) : ((Effect.emit v).apply s).pw = s.pw := rfl
@[simp] theorem apply_emit_host (v : Emit) : ((Effect.emit v).apply s).host = s.host := rfl
@[simp] theorem apply_emit_fab (v : Emit) : ((Effect.emit v).apply s).fab = s.fab := rfl
@[simp] theorem apply_emit_threads (v : Emit) : ((Effect.emit v).apply s).threads = s.threads := rfl
@[simp] theorem apply_emit_turns (v : Emit) : ((Effect.emit v).apply s).turns = s.turns := rfl
@[simp] theorem apply_emit_pips (v : Emit) : ((Effect.emit v).apply s).pips = s.pips := rfl
@[simp] theorem apply_emit_vbufs (v : Emit) : ((Effect.emit v).apply s).vbufs = s.vbufs := rfl
@[simp] theorem apply_emit_queues (v : Emit) : ((Effect.emit v).apply s).queues = s.queues := rfl
@[simp] theorem apply_emit_parts (v : Emit) : ((Effect.emit v).apply s).parts = s.parts := rfl
@[simp] theorem apply_emit_pools (v : Emit) : ((Effect.emit v).apply s).pools = s.pools := rfl
@[simp] theorem apply_emit_groups (v : Emit) : ((Effect.emit v).apply s).groups = s.groups := rfl
@[simp] theorem apply_emit_ports (v : Emit) : ((Effect.emit v).apply s).ports = s.ports := rfl
@[simp] theorem apply_emit_eptSlots (v : Emit) : ((Effect.emit v).apply s).eptSlots = s.eptSlots := rfl
@[simp] theorem apply_emit_submits (v : Emit) : ((Effect.emit v).apply s).submits = s.submits := rfl
@[simp] theorem apply_emit_tagsDone (v : Emit) : ((Effect.emit v).apply s).tagsDone = s.tagsDone := rfl
@[simp] theorem apply_emit_samples (v : Emit) : ((Effect.emit v).apply s).samples = s.samples := rfl
@[simp] theorem apply_emit_loads (v : Emit) : ((Effect.emit v).apply s).loads = s.loads := rfl
@[simp] theorem apply_emit_launches (v : Emit) : ((Effect.emit v).apply s).launches = s.launches := rfl
@[simp] theorem apply_emit_colls (v : Emit) : ((Effect.emit v).apply s).colls = s.colls := rfl
@[simp] theorem apply_emit_freeIdx (v : Emit) : ((Effect.emit v).apply s).freeIdx = s.freeIdx := rfl
@[simp] theorem apply_emit_out (v : Emit) : ((Effect.emit v).apply s).out = s.out ++ [v] := rfl

end Sys2Proof.Machine
end

