-- ==== Sys2Proof/Laws/Ops.lean ====
section
/-!
SUPPORT. What each shared operation does, once: registers and their fields, counters, the clock, events, reports, refused writes. A lemma
named run_… rewrites the run of an operation to the run of what follows it.
-/

namespace Sys2Proof.Machine

/-! ## Registers -/

theorem setReg_eq (s : State) (off v : Nat) :
    s.setReg off v = { s with regs := tput (resetWord off) s.regs off (BitVec.ofNat 64 v) } := rfl

theorem setReg_regs (s : State) (off v : Nat) : (s.setReg off v).regs = tput (resetWord off) s.regs off (BitVec.ofNat 64 v) := rfl

/-- A register written leaves every other register alone. -/
theorem regOf_setReg_ne (s : State) (off v off' : Nat) (h : off' ≠ off) : regOf (s.setReg off v) off' = regOf s off' :=
  tget_tput_ne' _ _ _ _ _ _ h
where
  tget_tput_ne' (d d' : Word) (t : Tbl Word) (k k' : Nat) (v : Word) (h : k' ≠ k) : tget d' (tput d t k v) k' = tget d' t k' := by
    induction t with
    | nil => by_cases hv : v = d <;> simp [tput, tget, hv, h.symm]
    | cons e t ih =>
      obtain ⟨j, w⟩ := e
      simp only [tput]
      split
      · split
        · rfl
        · simp [tget, h.symm]
      · split
        · subst_vars
          split <;> simp [tget, h.symm]
        · simp only [tget, ih]

/-- A register written reads back, in a canonical state. -/
theorem regOf_setReg_same (s : State) (off v : Nat) (h : Rising s.regs) : regOf (s.setReg off v) off = BitVec.ofNat 64 v :=
  tget_tput_same _ _ _ _ h

theorem setReg_rising (s : State) (off v : Nat) (h : Rising s.regs) : Rising (s.setReg off v).regs := tput_rising _ _ _ _ h

/-- The registers of a canonical state rise. -/
theorem Canon.rising {s : State} (h : Canon s) : Rising s.regs := ((tblWf_iff _ _).1 h.1).1

theorem fieldOf_setField_same (s : State) (off lo len v : Nat) (h : Rising s.regs) (hw : lo + len ≤ 64) :
    fieldOf (s.setField off lo len v) off lo len = v % 2 ^ len := by
  unfold fieldOf State.setField
  rw [regOf_setReg_same _ _ _ h, BitVec.toNat_ofNat, Nat.mod_eq_of_lt (setBits_lt _ _ _ _ _ (regOf s off).isLt hw), bitsOf_setBits_same]

theorem fieldOf_setField_other (s : State) (off lo len v lo' len' : Nat) (h : Rising s.regs) (hw : lo + len ≤ 64)
    (hd : lo + len ≤ lo' ∨ lo' + len' ≤ lo) : fieldOf (s.setField off lo len v) off lo' len' = fieldOf s off lo' len' := by
  unfold fieldOf State.setField
  rw [regOf_setReg_same _ _ _ h, BitVec.toNat_ofNat, Nat.mod_eq_of_lt (setBits_lt _ _ _ _ _ (regOf s off).isLt hw)]
  rcases hd with hd | hd
  · exact bitsOf_setBits_above _ _ _ _ _ _ hd
  · exact bitsOf_setBits_below _ _ _ _ _ _ hd

theorem fieldOf_setField_ne (s : State) (off lo len v off' lo' len' : Nat) (h : off' ≠ off) :
    fieldOf (s.setField off lo len v) off' lo' len' = fieldOf s off' lo' len' := by
  unfold fieldOf State.setField
  rw [regOf_setReg_ne _ _ _ _ h]

theorem setField_rising (s : State) (off lo len v : Nat) (h : Rising s.regs) : Rising (s.setField off lo len v).regs :=
  setReg_rising _ _ _ h

/-! ## Runs -/

variable (s : State) (off lo len v n : Nat)

theorem run_wrReg (k : Unit → Prog) : Prog.run (wrReg off v k) s = Prog.run (k ()) (s.setReg off v) := rfl
theorem run_rdReg (k : Nat → Prog) : Prog.run (rdReg off k) s = Prog.run (k (regOf s off).toNat) s := rfl
theorem run_rdF (k : Nat → Prog) : Prog.run (rdF off lo len k) s = Prog.run (k (fieldOf s off lo len)) s := rfl
theorem run_wrF (k : Unit → Prog) : Prog.run (wrF off lo len v k) s = Prog.run (k ()) (s.setField off lo len v) := rfl
theorem run_ctr64 (k : Unit → Prog) :
    Prog.run (ctr64 off n k) s = Prog.run (k ()) (s.setReg off (((regOf s off).toNat + n) % 2 ^ 64)) := rfl
theorem run_ctr32 (k : Unit → Prog) :
    Prog.run (ctr32 off n k) s =
      Prog.run (k ()) (s.setField (off / 8 * 8) (off % 8 * 8) 32 (min 0xFFFFFFFF (fieldOf s (off / 8 * 8) (off % 8 * 8) 32 + n))) := rfl
theorem run_modMod (f : Mod → Mod) (k : Unit → Prog) : Prog.run (modMod f k) s = Prog.run (k ()) { s with mod := f s.mod } := rfl
theorem run_modNv (f : Nv → Nv) (k : Unit → Prog) : Prog.run (modNv f k) s = Prog.run (k ()) { s with nv := f s.nv } := rfl
theorem run_modOwn (f : Own → Own) (k : Unit → Prog) : Prog.run (modOwn f k) s = Prog.run (k ()) { s with own := f s.own } := rfl
theorem run_modErr (f : Err → Err) (k : Unit → Prog) : Prog.run (modErr f k) s = Prog.run (k ()) { s with err := f s.err } := rfl
theorem run_modPw (f : Power → Power) (k : Unit → Prog) : Prog.run (modPw f k) s = Prog.run (k ()) { s with pw := f s.pw } := rfl
theorem run_modHost (f : HostIf → HostIf) (k : Unit → Prog) : Prog.run (modHost f k) s = Prog.run (k ()) { s with host := f s.host } := rfl
theorem run_modFab (f : Fab → Fab) (k : Unit → Prog) : Prog.run (modFab f k) s = Prog.run (k ()) { s with fab := f s.fab } := rfl
theorem run_modMem2 (f : MemErr → MemErr) (k : Unit → Prog) : Prog.run (modMem2 f k) s = Prog.run (k ()) { s with mem2 := f s.mem2 } := rfl
theorem run_modThread (f : Thread → Thread) (k : Unit → Prog) :
    Prog.run (modThread n f k) s = Prog.run (k ()) { s with threads := tput {} s.threads n (f (threadOf s n)) } := rfl
theorem run_modPart (f : Part → Part) (k : Unit → Prog) :
    Prog.run (modPart n f k) s = Prog.run (k ()) { s with parts := tput {} s.parts n (f (partOf s n)) } := rfl
theorem run_modPort (f : Port → Port) (k : Unit → Prog) :
    Prog.run (modPort n f k) s = Prog.run (k ()) { s with ports := tput {} s.ports n (f (portOf s n)) } := rfl
theorem run_modQueue (f : Queue → Queue) (k : Unit → Prog) :
    Prog.run (modQueue n f k) s = Prog.run (k ()) { s with queues := tput {} s.queues n (f (queueOf s n)) } := rfl
theorem run_modGroup (f : Group → Group) (k : Unit → Prog) :
    Prog.run (modGroup n f k) s = Prog.run (k ()) { s with groups := tput {} s.groups n (f (groupOf s n)) } := rfl
theorem run_emit (e : Emit) (k : Unit → Prog) : Prog.run (emit e k) s = Prog.run (k ()) { s with out := s.out ++ [e] } := rfl
theorem run_drawFree (k : Word → Prog) :
    Prog.run (drawFree k) s = Prog.run (k (Config.freeWord s.freeIdx)) { s with freeIdx := s.freeIdx + 1 } := rfl

/-- The clocks run for `n` ns: the module clock moves on, the fabric time with it while it counts. -/
theorem run_advance (k : Unit → Prog) :
    Prog.run (advance n k) s = Prog.run (k ()) (if s.time.running then
      { s with time := { s.time with now := s.time.now + n, ft := (ftAfter s n).1, slew := (ftAfter s n).2.1
                                     slewFrac := (ftAfter s n).2.2 } }
      else { s with time := { s.time with now := s.time.now + n } }) := by
  unfold advance
  simp only [bind_apply, look_apply, run_look, eff_apply, run_eff, ite_act]
  split <;> simp [Effect.apply, modTime]

/-- Registers change at two places at most, and keep their canonical form. -/
def OnlyRegs (a b : Nat) (s : State) (r : Tbl Word) : Prop :=
  (∀ off, off ≠ a → off ≠ b → regOf { s with regs := r } off = regOf s off) ∧ (Rising s.regs → Rising r)

theorem OnlyRegs.refl (a b : Nat) (s : State) : OnlyRegs a b s s.regs := ⟨fun _ _ _ => rfl, id⟩

theorem OnlyRegs.setReg {a b : Nat} {s : State} {r : Tbl Word} (h : OnlyRegs a b s r) (off v : Nat) (ho : off = a ∨ off = b) :
    OnlyRegs a b s (({ s with regs := r } : State).setReg off v).regs := by
  refine ⟨fun x hx hy => ?_, fun hr => setReg_rising _ _ _ (h.2 hr)⟩
  rw [← h.1 x hx hy]
  exact regOf_setReg_ne { s with regs := r } off v x (by rcases ho with rfl | rfl <;> assumption)

/-- The reporting die's status (R375): only its two ERR_SRC words change. -/
theorem run_noteSource (code sev die : Nat) (k : Unit → Prog) :
    ∃ r, OnlyRegs (0x081000 + 0x10 * die) (0x081000 + 0x10 * die + 8) s r ∧
      Prog.run (noteSource code sev die k) s = Prog.run (k ()) { s with regs := r } := by
  have e1 : (0x081000 + 0x10 * die + 8) / 8 * 8 = 0x081000 + 0x10 * die + 8 := by omega
  have e2 : (0x081000 + 0x10 * die + 12) / 8 * 8 = 0x081000 + 0x10 * die + 8 := by omega
  unfold noteSource
  simp only [bind_apply, ite_act, pure_apply, run_rdF, run_wrF, run_ctr32, run_ite, e1, e2]
  have h0 := OnlyRegs.refl (0x081000 + 0x10 * die) (0x081000 + 0x10 * die + 8) s
  have h1 := fun {r : Tbl Word} (h : OnlyRegs (0x081000 + 0x10 * die) (0x081000 + 0x10 * die + 8) s r) v => h.setReg _ v (.inl rfl)
  have h2 := fun {r : Tbl Word} (h : OnlyRegs (0x081000 + 0x10 * die) (0x081000 + 0x10 * die + 8) s r) v => h.setReg _ v (.inr rfl)
  split <;> split
  · exact ⟨_, h2 (h2 (h1 (h1 (h1 h0 _) _) _) _) _, rfl⟩
  · exact ⟨_, h2 (h1 (h1 (h1 h0 _) _) _) _, rfl⟩
  · exact ⟨_, h2 (h2 (h1 (h1 h0 _) _) _) _, rfl⟩
  · exact ⟨_, h2 (h1 (h1 h0 _) _) _, rfl⟩

/-- What a report below DEVICE does after the die's status. -/
def raiseTail (code sev die unit : Nat) (part : Option Nat) (addr detail : Nat) : Act Unit := do
  let ft := ftNs (← look)
  modErr (fun e => { e with inflight := e.inflight ++ [⟨code, sev, die, unit, part, addr, detail, ft⟩] })

/-- A report below DEVICE (R375): it joins those on their way to MG0, and only the ERR_SRC words of its die change besides. -/
theorem run_raise (code sev die unit : Nat) (part : Option Nat) (addr detail : Nat) (h : sev < 3) (k : Unit → Prog) :
    ∃ r, OnlyRegs (0x081000 + 0x10 * die) (0x081000 + 0x10 * die + 8) s r ∧
      Prog.run (raise code sev die unit part addr detail k) s = Prog.run (k ()) { s with
        regs := r, err := { s.err with inflight := s.err.inflight ++ [⟨code, sev, die, unit, part, addr, detail, ftNs s⟩] } } := by
  have h3 : sev ≠ 3 := by omega
  have h4 : sev ≠ 4 := by omega
  obtain ⟨r, hr, e⟩ := run_noteSource s code sev die (fun _ => (raiseTail code sev die unit part addr detail) k)
  refine ⟨r, hr, ?_⟩
  have : Prog.run (raise code sev die unit part addr detail k) s =
      Prog.run (noteSource code sev die (fun _ => (raiseTail code sev die unit part addr detail) k)) s := by
    unfold raise raiseTail
    simp only [bind_apply, ite_act, if_neg h3, if_neg h4, pure_apply]
  rw [this, e]
  rfl
/-! ## The effects each operation stays within -/

variable {P : Effect → Prop} {off lo len v n}

theorem within_wrReg (h : ∀ x, P (.reg off x)) : Act.Within P (wrReg off v) := Act.within_eff (h _)
theorem within_rdReg : Act.Within P (rdReg off) := Act.within_bind Act.within_look (fun _ => Act.within_pure _)
theorem within_rdF : Act.Within P (rdF off lo len) := Act.within_bind Act.within_look (fun _ => Act.within_pure _)
theorem within_wrF (h : ∀ x, P (.reg off x)) : Act.Within P (wrF off lo len v) :=
  Act.within_bind within_rdReg (fun _ => within_wrReg h)
theorem within_ctr64 (h : ∀ x, P (.reg off x)) : Act.Within P (ctr64 off n) := Act.within_bind within_rdReg (fun _ => within_wrReg h)
theorem within_ctr32 (h : ∀ x, P (.reg (off / 8 * 8) x)) : Act.Within P (ctr32 off n) :=
  Act.within_bind within_rdF (fun _ => within_wrF h)
theorem within_modMod {f : Mod → Mod} (h : ∀ x, P (.mod x)) : Act.Within P (modMod f) :=
  Act.within_bind Act.within_look (fun _ => Act.within_eff (h _))
theorem within_modNv {f : Nv → Nv} (h : ∀ x, P (.nv x)) : Act.Within P (modNv f) :=
  Act.within_bind Act.within_look (fun _ => Act.within_eff (h _))
theorem within_modOwn {f : Own → Own} (h : ∀ x, P (.own x)) : Act.Within P (modOwn f) :=
  Act.within_bind Act.within_look (fun _ => Act.within_eff (h _))
theorem within_modErr {f : Err → Err} (h : ∀ x, P (.err x)) : Act.Within P (modErr f) :=
  Act.within_bind Act.within_look (fun _ => Act.within_eff (h _))
theorem within_modPw {f : Power → Power} (h : ∀ x, P (.pw x)) : Act.Within P (modPw f) :=
  Act.within_bind Act.within_look (fun _ => Act.within_eff (h _))
theorem within_modHost {f : HostIf → HostIf} (h : ∀ x, P (.host x)) : Act.Within P (modHost f) :=
  Act.within_bind Act.within_look (fun _ => Act.within_eff (h _))
theorem within_modTime {f : Time → Time} (h : ∀ x, P (.time x)) : Act.Within P (modTime f) :=
  Act.within_bind Act.within_look (fun _ => Act.within_eff (h _))
theorem within_modThread {f : Thread → Thread} (h : ∀ x, P (.thread n x)) : Act.Within P (modThread n f) :=
  Act.within_bind Act.within_look (fun _ => Act.within_eff (h _))
theorem within_modPart {f : Part → Part} (h : ∀ x, P (.part n x)) : Act.Within P (modPart n f) :=
  Act.within_bind Act.within_look (fun _ => Act.within_eff (h _))
theorem within_modPort {f : Port → Port} (h : ∀ x, P (.port n x)) : Act.Within P (modPort n f) :=
  Act.within_bind Act.within_look (fun _ => Act.within_eff (h _))
theorem within_modQueue {f : Queue → Queue} (h : ∀ x, P (.queue n x)) : Act.Within P (modQueue n f) :=
  Act.within_bind Act.within_look (fun _ => Act.within_eff (h _))
theorem within_emit {e : Emit} (h : P (.emit e)) : Act.Within P (emit e) := Act.within_eff h

end Sys2Proof.Machine
end

