-- ==== Sys2Proof/Tests/Slice0.lean ====
section
/-!
SUPPORT. Witnesses of the hypotheses of every statement and clause (wit_…), ill-formed terms (smoke_…), and worked examples of the spec (test_…).
-/

set_option maxRecDepth 4000
set_option Elab.async false
set_option linter.unnecessarySeqFocus false
set_option synthInstance.maxSize 2000
set_option synthInstance.maxHeartbeats 400000

namespace Sys2Proof.Tests

open Sys2Proof Sys2Proof.Machine Sys2Proof.Claims

/-! ### Builders of small states -/

/-- A command word from (byte, value) pairs. -/
def word (l : List (Nat × Nat)) : Cmd := BitVec.ofNat 256 (l.foldl (fun a e => a ||| e.2 <<< (8 * e.1)) 0)
def th0 : Thr := { part := 0, core := 0, tc := 0 }
def t0 : Thread := { st := .ready, g := [(1, 5), (2, 7)], cp := 0x1000, prio := 3 }
def part0 : Part := { map := { cg := 1, ranges := [(0, 0x100000), (0xC0000000000, 0x100000)] }, running := some 0 }
/-- A READY module: core 0 is awake and partition 0's, its context 0 runs, and thread 0 is READY. -/
def s0 : State :=
  { State.reset with mod := { phase := .ready, aligned := true }, pw := { awake := [0] }, parts := [(0, part0)], threads := [(0, t0)] }
def iss (w : Cmd) : Iss := { p := 0, ctx := 0, core := 0, tc := 0, w }
/-- The n bytes of a number, lowest first. -/
def le (n v : Nat) : List Nat := (List.range n).map (fun k => v >>> (8 * k) % 256)
/-- Bytes written to memory from an address on. -/
def poke (s : State) (a : Nat) (bs : List Nat) : State :=
  (bs.zipIdx).foldl (fun s x => (Effect.mem (a + x.2) (BitVec.ofNat 8 x.1)).apply s) s
/-- The host owns the device. -/
def own (s : State) : State := (s.setReg 0x010020 1).setReg 0x110000 1
def hw (v : Nat) : Wr := { path := .host, half := .all, val := BitVec.ofNat 64 v }
/-- Port n UP with a secure association, NET_NODE 7. -/
def ups (s : State) (n : Nat := 2) : State :=
  (((s.setReg (rPort n 8) 6).setReg 0x440028 7)).setPort n { portOf s n with rxSas := [0], txSa := some 0 }
/-- The same, and job generation 9 running in partition 0. -/
def net (s : State) (n : Nat := 2) : State := ups (s.setReg (rPart 0 0x10) (9 ||| 2 <<< 32)) n
def bts (l : List Nat) : List Byte := l.map (BitVec.ofNat 8)
/-- What a frame for port 2 of node 7 brings, on a priority. -/
def wr (pcp : Fin 8 := 0) : Wire := { pcp, dst := 0x20007 }
/-- An OXT frame of a TYPE that comes by port 2 from node 5 for node 7, of partition 0 (R104, R108). -/
def frm (typ : Nat) (pcp : Fin 8) (psn : Nat) (pl : List Nat) (xg flags win off : Nat := 0) (gen : Nat := 9) (v2 : Bool := false) : Sys2Proof.Frame :=
  { port := 2, wire := wr pcp, bytes := oxtHeader v2 typ flags 5 7 xg gen 0 0 win psn off pl.length ++ bts pl }

/-- No thread of a table waits for a combine, or for room in a completion queue, where none of them waits. -/
theorem no_combine {l : Tbl Thread} (h : ∀ e ∈ l, e.2.wait = .none) : ∀ e ∈ l, ∀ r tg g, e.2.wait ≠ .combine r tg g := by
  intro e he r tg g hw
  rw [h e he] at hw
  cases hw
theorem no_cqRoom {l : Tbl Thread} (h : ∀ e ∈ l, e.2.wait = .none) : ∀ e ∈ l, ∀ st, e.2.wait ≠ .cqRoom st := by
  intro e he st hw
  rw [h e he] at hw
  cases hw

/-! ### Hypotheses of the statements that are not clauses -/

theorem wit_IdleStepIsOneNanosecond : State.reset.pending = [] ∧ s0.pending = [] := by decide +kernel
theorem wit_WellFormedCommandsAnswer : (Instr.nop th0 (word [(0, 0)])).wellFormed = true ∧ (Instr.nop th0 (word [(0, 1)])).wellFormed = false := by
  decide +kernel
theorem wit_CommandsOnlyAddToWhatIsPast : ∃ t, exec .alignTick State.reset = .next t := ⟨_, rfl⟩
theorem wit_StepKeepsCanonicalForm : Canon s0 ∧ ∃ t, step s0 = .next t := ⟨by decide +kernel, _, rfl⟩
theorem wit_ReductionIgnoresOrder : [0x30800001, 0x40400000, 0xBFA00000].length ≤ 16384 ∧
    (∀ c ∈ [0x30800001, 0x40400000, 0xBFA00000], expOf (widen 0 c 0x7F).1 ≤ 0x80) ∧
    [0x30800001, 0x40400000, 0xBFA00000].Perm [0xBFA00000, 0x30800001, 0x40400000] := by decide +kernel
theorem wit_transitions : (2 ≤ 4 ∧ 3 ≤ 4 ∧ 0 < 1) ∧ (2, 3) ∈ transitions ∧ (1, 3) ∉ transitions := by decide

/-! ### Ill-formed terms: each check of WellFormed refuses one -/

theorem smoke_opIs : exec (.br th0 (word [(0, 2)])) s0 = .fault .illFormed := rfl
theorem smoke_frameOk : frameOk (frm 0 6 0 [1, 2]) = true ∧ frameOk { frm 0 6 0 [1, 2] with bytes := (frm 0 6 0 [1, 2]).bytes ++ [0] } = false ∧
    frameOk { frm 0 6 0 [] with bytes := [0x30, 0] } = false ∧ frameOk { frm 0 6 0 [] with bytes := 0x40 :: (frm 0 6 0 []).bytes.tail } = false := by
  decide +kernel
theorem smoke_oxtIs : exec (.oxtAckRx (frm 0 6 0 [])) s0 = .fault .illFormed ∧ oxtIs 4 (frm 4 6 0 [] (v2 := true)) = false := ⟨rfl, by decide +kernel⟩
theorem smoke_fabIs : exec (.fabReqStore (frm 8 4 0 [2])) s0 = .fault .illFormed := rfl
theorem smoke_envIs : envIs 2 { port := 2, wire := wr 7, sender := 5, senderUdp := 5, oxt := 0x3A :: List.replicate 31 0, hdr := List.replicate 24 0, sigOk := true } = false ∧
    envIs 0 { port := 2, wire := wr 7, sender := 5, senderUdp := 5, oxt := 0x3A :: List.replicate 31 0, hdr := List.replicate 24 0, sigOk := true } = true ∧
    envIs 0 { port := 2, wire := wr 7, sender := 5, senderUdp := 5, oxt := 0x30 :: List.replicate 31 0, hdr := List.replicate 24 0, sigOk := true } = false := by
  decide +kernel
theorem smoke_lanesOk : exec (.linkLos 2 [5]) s0 = .fault .illFormed := rfl
theorem smoke_roceOk : roceOk (.send 0 true true none (List.replicate 4097 0)) = false ∧ roceOk (.send 0 true true none (List.replicate 4096 0)) = true := by
  decide +kernel
theorem smoke_fetchOk : exec (.ringFetch 3 [1, 2]) s0 = .fault .illFormed := rfl
theorem smoke_crossingsOk : crossingsOk (List.replicate 513 (0, 1, 7)) = false ∧ crossingsOk (List.replicate 512 (0, 1, 7)) = true := by decide +kernel
theorem smoke_slacksOk : exec (.marginPlannerPass 4 []) s0 = .fault .illFormed := rfl

/-! ### No row of the table gives bits -/

theorem test_no_word_is_a_command : decodeTableWord 8 0 = none ∧ State.reset.withFetchWord 8 0 = State.reset := ⟨rfl, rfl⟩

/-! ### Worked examples and tables of the spec -/

def nums (l : List Nat) : List Machine.Num := l.map (fun x => ofF32 (BitVec.ofNat 32 x))

/-- The block of the example after R153: 15.0, 10.0, 2.5, −0.7, 0.3, 5 × 10^−40 and 1.0 take S = 0x80. -/
theorem test_mxfp4_scale : mxScale 7 (nums [0x41700000, 0x41200000, 0x40200000, 0xBF333333, 0x3E99999A, 0x00057114, 0x3F800000]) = (0x80, 0) := by
  decide +kernel
theorem test_mxfp4_codes : (nums [0x41700000, 0x41200000, 0x40200000, 0xBF333333, 0x3E99999A, 0x00057114, 0x3F800000]).map
    (fun x => (mxElem 7 0x80 rne false x).1) = [7, 6, 2, 9, 0, 0, 1] := by decide +kernel
theorem test_mxfp4_flags : (nums [0x41700000, 0x41200000, 0x40200000, 0xBF333333, 0x3F800000]).map (fun x => (mxElem 7 0x80 rne false x).2) =
    [fOvf ||| fSat ||| fInx, fInx, fInx, fUnf ||| fInx, 0] := by decide +kernel
/-- The largest finite FP32 number, in R153. -/
theorem test_largest_finite : toFmt 1 rne (ofF32 0x7F7FFFFF) = (0x7F80, fOvf ||| fInx) ∧ mxScale 3 (nums [0x7F7FFFFF]) = (0xF6, 0) ∧
    mxElem 3 0xF6 rne false (ofF32 0x7F7FFFFF) = (0x7E, fOvf ||| fSat ||| fInx) ∧
    mxElem 4 0xEF rne false (ofF32 0x7F7FFFFF) = (0x7B, fOvf ||| fSat ||| fInx) := by decide +kernel
/-- The extremes of widening, in R154. -/
theorem test_widening : (widen 7 1 0).1 = 0x00200000 ∧ (widen 4 1 0).1 = 0x00000040 ∧ widen 3 0x7E 0xFE = (0x7F800000, fOvf ||| fInx) ∧
    widen 5 3 0xFF = (0x7FC00000, fInv) := by decide +kernel
/-- BF16 2^−133 times 0x7F7F, in R158. -/
theorem test_subnormal_product : accAdd 0 [((mulNum (elemNum 1 1 0x7F).1 (elemNum 1 0x7F7F 0x7F).1).1, (elemNum 1 1 0x7F).2)] = (0x3CFF0000, fDen) := by
  decide +kernel
/-- An INT32 accumulator at its end, in R157 and R158. -/
theorem test_int_saturates : accAddInt 0x7FFFC000 16384 = (0x7FFFFFFF, fSat) := by decide +kernel
/-- The three-device sum after R113, to FP32 and to BF16, in two orders of arrival. -/
theorem test_three_device_sum : (reduceElem 0 0 0 0x80 [] [0x30800001, 0x40400000, 0xBFA00000]).1.1 = 0x3FE00000 ∧
    (reduceElem 0 0 1 0x80 [] [0xBFA00000, 0x30800001, 0x40400000]).1.1 = 0x3FE0 := by decide +kernel
/-- The granule after R251: stack H09, pseudo-channel 14. -/
theorem test_tier1_granule : t1Place 0x001234567800 = (9, 14) := by decide +kernel
/-- The counters after R407. -/
theorem test_counter_offsets : rSre 2 (0x8000 + 17 * 0x40 + 8) = 0x628448 ∧ rHif 197 0x1C = 0x1418BC := by decide +kernel
/-- The snapshot after R47: Q_DROPS of HQ0042 lies at 0x2_0550 of the bank of its partition. -/
theorem test_snapshot_slot : snapSlot (s0.setReg (rQueue 42 1) 0) 0 (rQcnt 42 0x10) = some 0x20550 ∧
    snapBase (s0.setReg 0x060040 0x0C0010000000) 3 = 0x0C0010600000 := by decide +kernel
/-- GLB_ID of an H-grade unit (R6). -/
theorem test_glb_id : bitsOf (glbId { s0 with nv := { s0.nv with gradeH := true } }) 32 16 = 0x780 := by decide +kernel
/-- Credits as in the example after R185: a queue of 8 slots holds 7 items. -/
theorem test_queue_room : qFree (s0.setReg (rQueue 42 0) (3 <<< 56 ||| 1 <<< 61)) 42 = 7 := by decide +kernel

/-! ### The clauses of part 1 -/

namespace P01

def wN := word []
theorem wit_nop : (nop s0 th0 wN (iss wN)).pre := by dsimp only [nop] <;> decide +kernel
theorem wit_yield : (yield s0 th0 (word [(0,7)]) (iss (word [(0,7)]))).pre := by dsimp only [yield] <;> decide +kernel
def wBr := word [(0,1),(8,0x2000)]
theorem wit_br : (br s0 th0 wBr (iss wBr) 0x2000).pre := by dsimp only [br] <;> decide +kernel
def wLp := word [(0,2),(4,1),(8,0x2000)]
theorem wit_loop : (loop s0 th0 wLp (iss wLp) 0x2000).pre := by dsimp only [loop] <;> decide +kernel
def wWp := word [(0,3),(4,3),(6,2),(5,1)]
def s1 := s0.setPip 3 5
theorem wit_waitPipMet : (waitPipMet s1 th0 wWp (iss wWp)).pre := by dsimp only [waitPipMet] <;> decide +kernel
theorem wit_waitPipWaits : (waitPipWaits s0 th0 wWp (iss wWp)).pre := by dsimp only [waitPipWaits] <;> decide +kernel
def wSp := word [(0,4),(4,3),(6,2),(8,0xFFFF)]
theorem wit_sigPip : (sigPip s0 th0 wSp (iss wSp) 0 2).pre := by dsimp only [sigPip] <;> decide +kernel
def wSp1 := word [(0,4),(4,3),(6,1),(8,0xFFFF)]
theorem wit_sigPipWakes : (sigPipWakes (s0.setThread 1 {st := .waiting, wait := .header 3, cur := some 0}) th0 wSp1 (iss wSp1) 1).pre := by dsimp only [sigPipWakes] <;> decide +kernel
def wHalt := word [(0,8),(4,77)]
theorem wit_halt : (halt s0 th0 wHalt (iss wHalt)).pre := by dsimp only [halt] <;> decide +kernel
def lr : LaunchRef := {ring := 3, idx := 0, tag := 9, noCqe := false, src := 0}
theorem wit_haltPosts : (haltPosts {s0.setThread 0 {t0 with ref := some lr} with host := {rings := [(3, {entries := [{idx := 0, bytes := 0}]})]}} th0 wHalt (iss wHalt) lr).pre := by dsimp only [haltPosts] <;> decide +kernel
theorem wit_haltDrains : (haltDrains (s0.setThread 0 {t0 with asyncs := [(0, {w := 0, phase := .running})]}) th0 wHalt (iss wHalt)).pre := by dsimp only [haltDrains] <;> decide +kernel
def wP0 := word [(0,9),(4,0),(5,2),(6,1),(7,2),(8,4)]
theorem wit_psetCmpC : (psetCmpC s0 th0 wP0 (iss wP0) true).pre := by dsimp only [psetCmpC] <;> decide +kernel
def wP1 := word [(0,9),(4,1),(5,2),(6,0),(7,2),(8,1)]
theorem wit_psetLogC : (psetLogC s0 th0 wP1 (iss wP1) true).pre := by dsimp only [psetLogC] <;> decide +kernel
def wP2 := word [(0,9),(4,2),(5,2),(6,1)]
theorem wit_psetG : (psetG s0 th0 wP2 (iss wP2)).pre := by dsimp only [psetG] <;> decide +kernel
def wP3 := word [(0,9),(4,3),(5,2),(6,1),(7,2),(8,0x80),(16,0xFFFFFFFFFFFFFFFF)]
def wP4 := word [(0,9),(4,4),(5,2),(6,4)]
def wP6 := word [(0,9),(4,6),(5,2),(6,3)]
def wP5 := word [(0,9),(4,5),(5,3),(6,1)]
theorem wit_psetTwr : (psetTwr s1 th0 wP5 (iss wP5)).pre := by dsimp only [psetTwr] <;> decide +kernel
def wBad := word [(0,1),(8,0x2001)]
theorem wit_badControlOperand : (badControlOperand s0 th0 wBad (iss wBad) (.br th0 wBad)).pre := by dsimp only [badControlOperand] <;> decide +kernel
theorem wit_cmdFetch : (cmdFetch s0 th0 (iss 0)).pre := by dsimp only [cmdFetch] <;> decide +kernel
theorem wit_cmdFetchFaults : (cmdFetchFaults (s0.setThread 0 {t0 with cp := 0x200000}) th0 (iss 0) 4).pre := by dsimp only [cmdFetchFaults] <;> decide +kernel
theorem wit_waitPipTimeout : (waitPipTimeout (s0.setThread 0 {t0 with st := .waiting, wait := .pip 3 2 1 (some 500), cur := some wWp}) th0 (iss 0) 3 2 1 500 wWp).pre := by dsimp only [waitPipTimeout] <;> decide +kernel
theorem wit_threadWake : (threadWake (s0.setThread 0 {t0 with st := .waiting, wait := .met}) th0 (iss 0)).pre := by dsimp only [threadWake] <;> decide +kernel
theorem wit_asyncCommandDone : (asyncCommandDone (s0.setThread 0 {t0 with asyncs := [(2, {w := 0, phase := .done, flags := 9})]}) th0 2 (iss 0) {w := 0, phase := .done, flags := 9}).pre := by dsimp only [asyncCommandDone] <;> decide +kernel
def wv (op h : Nat) := word [(0,op),(1,h)]
def e1 : Nat × Thread := (5, {t0 with prio := 4})
theorem wit_lowerWaits : (lowerWaits (s0.setThread 5 e1.2) th0 (wv 0x20 0) (iss (wv 0x20 0)) (.mm th0 (wv 0x20 0)) e1).pre := by dsimp only [lowerWaits] <;> decide +kernel
theorem wit_turnWaits : (turnWaits ({s0.setThread 5 {t0 with prio := 3} with turns := [(0, 3)]}) th0 (wv 0x20 0) (iss (wv 0x20 0)) (.mm th0 (wv 0x20 0)) (5, {t0 with prio := 3})).pre := by dsimp only [turnWaits] <;> decide +kernel
theorem wit_cannotIssue : (cannotIssue {s0 with pw := {}} th0 (wv 0x20 0) (.mm th0 (wv 0x20 0))).pre := by dsimp only [cannotIssue] <;> decide +kernel
theorem wit_headerWait : (headerWait s0 th0 (wv 0x14 4) (iss (wv 0x14 4)) (.fabSt th0 (wv 0x14 4))).pre := by dsimp only [headerWait] <;> decide +kernel
def wSk := word [(0,0x14),(1,1),(2,0x8000)]
theorem wit_headerSkip : (headerSkip s0 th0 wSk (iss wSk) (.fabSt th0 wSk)).pre := by dsimp only [headerSkip] <;> decide +kernel
theorem wit_syncLeave : (syncLeave s0 th0 (wv 0x08 8) (iss (wv 0x08 8)) (.halt th0 (wv 0x08 8))).pre := by dsimp only [syncLeave] <;> decide +kernel
theorem wit_asyncLeave : (asyncLeave s0 th0 (wv 0x20 8) (iss (wv 0x20 8)) 0 (.mm th0 (wv 0x20 8), 0)).pre := by dsimp only [asyncLeave] <;> decide +kernel
theorem wit_asyncBehind : (asyncBehind (s0.setThread 0 {t0 with asyncs := [(0, {w := wv 0x42 8, phase := .waitGrant, seq := 1})]}) th0 (wv 0x43 0) (iss (wv 0x43 0)) 1 (.vun th0 (wv 0x43 0))).pre := by dsimp only [asyncBehind] <;> decide +kernel
theorem wit_asyncFull : (asyncFull (s0.setThread 0 {t0 with asyncs := (List.range 16).map (fun k => (k, {w := 0, phase := .running}))}) th0 (wv 0x20 8) (iss (wv 0x20 8)) (.mm th0 (wv 0x20 8), 0)).pre := by dsimp only [asyncFull] <;> decide +kernel
theorem wit_nopSignals : (nopSignals s0 th0 (wv 0 2) (iss (wv 0 2))).pre := by dsimp only [nopSignals] <;> decide +kernel

end P01

/-! ### The clauses of part 2 -/

namespace P02

def qs (n : Nat) (d : Queue) (s : State := s0) : State := ((s.setReg (rQueue 5 0) (0xC0000000000 ||| n <<< 56 ||| 1 <<< 61)).setQueue 5 d)
def it (l g : Bool) : QItem := {data := 7, last := l, gap := g}
def wcg := word [(0,5),(4,5),(6,2),(9,1)]
theorem wit_credGet : (credGet (qs 3 {}) th0 wcg (iss wcg)).pre := by dsimp only [credGet] <;> decide +kernel
def wcg2 := word [(0,5),(4,5),(6,2),(9,1),(8,1)]
theorem wit_credGetNoRoom : (credGetNoRoom (qs 3 {reserved := 6}) th0 wcg2 (iss wcg2)).pre := by dsimp only [credGetNoRoom] <;> decide +kernel
def wcp := word [(0,6),(4,5),(6,2)]
theorem wit_credPut : (credPut (qs 3 {reserved := 6}) th0 wcp (iss wcp)).pre := by dsimp only [credPut] <;> decide +kernel
theorem wit_credPutTooMany : (credPutTooMany (qs 3 {reserved := 1}) th0 wcp (iss wcp)).pre := by dsimp only [credPutTooMany] <;> decide +kernel
theorem wit_credPutServes : (credPutServes (qs 3 {reserved := 6, waiters := [(1, 2, 3)]} (s0.setThread 1 {st := .waiting, wait := .cred 5 2 3, cur := some wcg})) th0 wcp (iss wcp) 1 2 3 wcg).pre := by dsimp only [credPutServes] <;> decide +kernel
def wqp := word [(0,0x18),(4,5),(6,5),(7,0),(16,2)]
theorem wit_qPush : (qPush (qs 3 {head := 7, items := [it true false]}) th0 wqp (iss wqp) 0).pre := by dsimp only [qPush] <;> decide +kernel
theorem wit_qPushDropping : (qPushDropping (qs 3 {head := 7, dropping := true}) th0 wqp (iss wqp)).pre := by dsimp only [qPushDropping] <;> decide +kernel
theorem wit_qPushJoins : (qPushJoins (qs 1 {head := 1, items := [it true true]}) th0 wqp (iss wqp) [] [] (it true true) 0).pre := by dsimp only [qPushJoins] <;> decide +kernel
theorem wit_qPushLost : (qPushLost (qs 1 {items := [it true false, it true false]}) th0 wqp (iss wqp)).pre := by dsimp only [qPushLost] <;> decide +kernel
theorem wit_qPushBehind : (qPushBehind (qs 3 {submits := [(0, 1, 7)]}) th0 wqp (iss wqp)).pre := by dsimp only [qPushBehind] <;> decide +kernel
theorem wit_qPushNoRoom : (qPushNoRoom (qs 1 {head := 1, items := [it true false]}) th0 wqp (iss wqp) 0).pre := by dsimp only [qPushNoRoom] <;> decide +kernel
def wqo := word [(0,0x19),(4,5),(6,1),(7,8),(16,20)]
theorem wit_qPop : (qPop (qs 3 {head := 7, items := [it true true, it true false]}) th0 wqo (iss wqo) (it true true) [it true false]).pre := by dsimp only [qPop] <;> decide +kernel
def wtS : State := s0.setThread 1 {st := .waiting, wait := .cred 5 1 3, cur := some wcg}
def one (d : Nat) (r : Nat) (l : List QItem) : State := qs d {head := 7, items := l, reserved := r, waiters := [(1, 1, 3)]} wtS
theorem wit_qPopServes : (qPopServes (one 3 6 [it true false]) th0 wqo wcg (iss wqo) (it true false) [] (1, 1, 3) [] []).pre := by dsimp only [qPopServes] <;> decide +kernel
def wq3 := word [(0,0x18),(4,5),(13,4)]
theorem wit_queueMemBusy : (queueMemBusy ({qs 3 {} with parts := [(0, {part0 with map := {cg := 1, ranges := [(2 ^ 42, 0x100000)]}})], mem2 := {s0.mem2 with t3Next := some 0, caps := [64,64,64,64], interleave := false}}) th0 wq3 (iss wq3) (.qPush th0 wq3)).pre := by dsimp only [queueMemBusy] <;> decide +kernel
theorem wit_qPopEmpty : (qPopEmpty (qs 3 {head := 7}) th0 wqo (iss wqo)).pre := by dsimp only [qPopEmpty] <;> decide +kernel
def wqd := word [(0,0x1A),(4,5)]
theorem wit_qDroppkt : (qDroppkt (qs 3 {head := 7, items := [it false false, it true true, it true false]}) th0 wqd (iss wqd)).pre := by dsimp only [qDroppkt] <;> decide +kernel
theorem wit_qDroppktServes : (qDroppktServes (one 3 6 [it true false]) th0 wqd wcg (iss wqd) (1, 1, 3) [] []).pre := by dsimp only [qDroppktServes] <;> decide +kernel
def wqf := word [(0,0x1B),(4,5),(6,3)]
theorem wit_qFlush : (qFlush (qs 9 {head := 7, items := [it false false, it true true]}) th0 wqf (iss wqf)).pre := by dsimp only [qFlush] <;> decide +kernel
theorem wit_qFlushServes : (qFlushServes (one 9 510 [it true false]) th0 wqf wcg (iss wqf) (1, 1, 3) [] []).pre := by dsimp only [qFlushServes] <;> decide +kernel
theorem wit_badQueueOperand : (badQueueOperand (qs 9 {}) th0 wqd (iss wqd) (.qDroppkt th0 wqd) 2).pre := by dsimp only [badQueueOperand] <;> decide +kernel
theorem wit_qStaleTimeout : (qStaleTimeout ((qs 3 {items := [it true false]}).setReg (rQueue 5 2) (3 ||| 100 <<< 32)) 5).pre := by dsimp only [qStaleTimeout] <;> decide +kernel
def ownX (s : State) : State := s.setReg 0x010020 1 |>.setReg 0x110000 1
def hwX (v : Word) : Wr := {path := .host, half := .all, val := v}
theorem wit_hqDescWrite : (hqDescWrite (ownX s0) 5 2 (hwX 0xFFFFFFFFFFFFFFFF)).pre := by dsimp only [hqDescWrite] <;> decide +kernel
theorem wit_hqEnable : (hqEnable (ownX s0) 5 (hwX (BitVec.ofNat 64 (0xC0000000000 ||| 3 <<< 56 ||| 1 <<< 61)))).pre := by dsimp only [hqEnable] <;> decide +kernel
theorem wit_hqEnableRefused : (hqEnableRefused (ownX s0) 5 (hwX (BitVec.ofNat 64 (0xC0000000000 ||| 1 <<< 61)))).pre := by dsimp only [hqEnableRefused] <;> decide +kernel
theorem wit_hqHeld : (hqHeld (ownX (qs 3 {})) 5 0 (hwX 0)).pre := by dsimp only [hqHeld] <;> decide +kernel
def ps (d : Pool) (w o : Nat) (s := s0) : State := (s.setPool (poolKey 0 2) d).setReg (rPool 0 2 0x18) (o ||| w <<< 32)
def wpa := word [(0,0x16),(4,3),(5,4),(9,0x10)]
theorem wit_poolAllocFresh : (poolAllocFresh (ps {base := 0x10000, count := 4} 1 1) th0 wpa (iss wpa) 2).pre := by dsimp only [poolAllocFresh] <;> decide +kernel
theorem wit_poolAllocStack : (poolAllocStack (ps {base := 0x10000, count := 4, stack := [0x11000]} 2 0) th0 wpa (iss wpa) 2 0x11000 []).pre := by dsimp only [poolAllocStack] <;> decide +kernel
def wpb := word [(0,0x16),(4,3),(5,4),(8,1),(11,0x40)]
theorem wit_poolAllocTooLarge : (poolAllocTooLarge s0 th0 wpb (iss wpb)).pre := by dsimp only [poolAllocTooLarge] <;> decide +kernel
def wpf := word [(0,0x17),(4,1),(5,4)]
theorem wit_poolFree : (poolFree (ps {base := 0x10000, count := 4} 2 1 (s0.setThread 0 {t0 with g := [(1, 0x11000)]})) th0 wpf (iss wpf) 2).pre := by dsimp only [poolFree] <;> decide +kernel
theorem wit_poolFreeTwice : (poolFreeTwice {(ps {base := 0x10000, count := 4} 2 1 (s0.setThread 0 {t0 with g := [(1, 0x11000)]})) with mem := [(0x11008,2),(0x1100c, 0x4B),(0x1100d, 0x53),(0x1100e, 0x55),(0x1100f, 0x48)]} th0 wpf (iss wpf) 2).pre := by dsimp only [poolFreeTwice] <;> decide +kernel
theorem wit_poolInit : (poolInit ((ownX s0).setReg (rPool 0 2 0) 0x10000 |>.setReg (rPool 0 2 8) 4) 0 2 (hwX 0x8000000000000000)).pre := by dsimp only [poolInit] <;> decide +kernel
theorem wit_poolInitBad : (poolInitBad ((ownX s0).setReg (rPool 0 2 0) 0x10001 |>.setReg (rPool 0 2 8) 4) 0 2 (hwX 0x8000000000000000)).pre := by dsimp only [poolInitBad] <;> decide +kernel
theorem wit_poolRefill : (poolRefill (ps {base := 0x10000, count := 4, prefetch := true} 1 1) 0 2).pre := by dsimp only [poolRefill] <;> decide +kernel

end P02

/-! ### The clauses of part 3 -/

namespace P03

def fb (v : List Nat) (r c f : Nat) : VBuf := {fmt := f, rows := r, cols := c, data := v.map (BitVec.ofNat 32)}
def sv : State := (s0.setVbuf 0 (fb [1,2,3,4,5,6] 2 3 2)).setVbuf 1 (fb [10,20,30,40,50,0xFFFFFFFF] 2 3 2)
def ff : List Nat := [0x3F800000,0x40000000,0x40400000,0x40800000,0x7FC00000,0x00000001]
def sf : State := (s0.setVbuf 0 (fb ff 2 3 0)).setVbuf 1 (fb ff.reverse 2 3 0)
def vw (op o : Nat) (b6 : Nat := 0) := word [(0,op),(4,2 + 0*4 + 1*16 + 1*64),(5,o),(6,b6)]
def bfun (s : State) (w : Cmd) : Nat → Nat → VElem := (vBsrc s (iss w) (vGet s (iss w) (vA w))).getD (fun _ _ => 0)
theorem wit_vbin : (vbin sv th0 (vw 0x42 0) (iss (vw 0x42 0)) 0).pre := by dsimp only [vbin] <;> decide +kernel
theorem wit_vbinInt : (vbinInt sv th0 (vw 0x42 0) (iss (vw 0x42 0)) 0).pre := by dsimp only [vbinInt] <;> decide +kernel
theorem wit_vun : (vun sf th0 (vw 0x43 1) (iss (vw 0x43 1)) 0).pre := by dsimp only [vun] <;> decide +kernel
theorem wit_vfmaInt : (vfmaInt sv th0 (vw 0x44 1) (iss (vw 0x44 1)) 0).pre := by dsimp only [vfmaInt] <;> decide +kernel
theorem wit_vfmaFloat : (vfmaFloat sf th0 (vw 0x44 1) (iss (vw 0x44 1)) 0).pre := by dsimp only [vfmaFloat] <;> decide +kernel
theorem wit_vred : (vred sf th0 (vw 0x45 1) (iss (vw 0x45 1)) 0).pre := by dsimp only [vred] <;> decide +kernel
theorem wit_vcvt : (vcvt sf th0 (vw 0x46 0 4) (iss (vw 0x46 0 4)) 0).pre := by dsimp only [vcvt] <;> decide +kernel
theorem wit_vpermTranspose : (vpermTranspose sf th0 (vw 0x47 0) (iss (vw 0x47 0)) 0).pre := by dsimp only [vpermTranspose] <;> decide +kernel
theorem wit_vpermPick : (vpermPick sv th0 (vw 0x47 1) (iss (vw 0x47 1)) 0).pre := by dsimp only [vpermPick] <;> decide +kernel
def su : State := s0.setVbuf 0 (fb (List.replicate 130 5) 1 130 1)
theorem wit_vunpack : (vunpack su th0 (vw 0x49 0) (iss (vw 0x49 0)) 0).pre := by dsimp only [vunpack] <;> decide +kernel
theorem wit_vecEmpty : (vecEmpty s0 th0 (vw 0x47 0) (iss (vw 0x47 0)) 0 (.vperm th0 (vw 0x47 0))).pre := by dsimp only [vecEmpty] <;> decide +kernel
def leX (n v : Nat) : List Nat := (List.range n).map (fun k => v >>> (8*k) % 256)
def pokeX (s : State) (a : Nat) (bs : List Nat) : State := (bs.zipIdx).foldl (fun s x => (Effect.mem (a + x.2) (BitVec.ofNat 8 x.1)).apply s) s
def mdX (base rows cols stride fmt : Nat) (kcol : Bool := false) : Nat := base ||| rows <<< 64 ||| cols <<< 88 ||| stride <<< 128 ||| fmt <<< 192 ||| (if kcol then 1 <<< 196 else 0)
def mkX (base rows cols stride fmt : Nat) (kcol : Bool := false) : Mdesc := mdescOf (BitVec.ofNat 512 (mdX base rows cols stride fmt kcol))
def SB := 0xD0000000000
def sm : State := pokeX (pokeX s0 0x100 (leX 64 (mdX (SB + 0x1000) 3 4 16 0))) (SB+0x1000) ((List.range 48).map (fun x => x*x % 256))
def wld := word [(0,0x40),(4,2),(6,0),(9,1),(16,1),(19,1)]
theorem wit_vld : (vld sm th0 wld (iss wld) 0 (mkX (SB + 0x1000) 3 4 16 0)).pre := by dsimp only [vld] <;> decide +kernel
def wld1 := word [(0,0x40),(4,2),(6,4),(9,1),(16,1),(19,1)]
def wst := word [(0,0x41),(4,2),(6,0),(9,1),(16,1),(19,2)]
theorem wit_vst : (vst ({sm with vbufs := sf.vbufs}) th0 wst (iss wst) 0 (mkX (SB + 0x1000) 3 4 16 0)).pre := by dsimp only [vst] <;> decide +kernel
def wbd := word [(0,0x40),(4,2),(6,0),(9,3),(16,1),(19,2)]
theorem wit_badDescriptor : (badDescriptor sm th0 wbd (iss wbd) 0).pre := by dsimp only [badDescriptor] <;> decide +kernel
def smm_ : State := pokeX (pokeX (pokeX (pokeX (pokeX (pokeX s0 0x100 (leX 64 (mdX (SB+0x1000) 1 3 8 1 true))) 0x140 (leX 64 (mdX (SB+0x1100) 3 1 8 1))) 0x180 (leX 64 (mdX (SB+0x1200) 1 1 4 0)))
  (SB+0x1000) [0x80,0x3F,0,0x40,0x40,0x40]) (SB+0x1100) [0x80,0x3F,0,0,0,0,0,0,0,0x40,0,0,0,0,0,0,0x40,0x40]) (SB+0x1200) [0,0,0x80,0x3F]
def mw (op b4 : Nat) := word [(0,op),(4,b4),(9,1),(16,0x40),(17,1),(24,0x80),(25,1)]
def mA := mkX (SB+0x1000) 1 3 8 1 true
def mB := mkX (SB+0x1100) 3 1 8 1
def mC := mkX (SB+0x1200) 1 1 4 0
theorem wit_mm : (mm smm_ th0 (mw 0x20 1) (iss (mw 0x20 1)) 0 mA mB mC).pre := by dsimp only [mm] <;> decide +kernel
theorem wit_mv : (mv smm_ th0 (mw 0x22 0) (iss (mw 0x22 0)) 0 mA mB mC).pre := by dsimp only [mv] <;> decide +kernel
theorem wit_smm : (smm smm_ th0 (mw 0x30 2) (iss (mw 0x30 2)) 0 mA mB mC).pre := by dsimp only [smm] <;> decide +kernel
def geo : Nat := 0x180 ||| 1 <<< 64 ||| 1 <<< 80 ||| 1 <<< 96 ||| 1 <<< 112 ||| 1 <<< 128 ||| 1 <<< 132 ||| 1 <<< 136 ||| 1 <<< 140 ||| 1 <<< 144 ||| 1 <<< 148
def wcv := word [(0,0x21),(9,1),(16,0x40),(17,1),(24,0xC0),(25,1)]
theorem wit_conv : (conv (pokeX smm_ 0x1C0 (leX 64 geo)) th0 wcv (iss wcv) 0 mA mB mC).pre := by dsimp only [conv] <;> decide +kernel
theorem wit_gmm : (gmm smm_ th0 (mw 0x23 0) (iss (mw 0x23 0)) 0).pre := by dsimp only [gmm] <;> decide +kernel
def wsh := word [(0,0x31),(4,2),(9,2),(16,0),(17,1),(24,1)]
theorem wit_shellRow : (shellRow (pokeX (pokeX smm_ 0x200 (leX 8 (SB+0x1100))) 0x100 (leX 64 (mdX (SB+0x1000) 1 3 8 1 true))) th0 wsh (iss wsh) 0 mA).pre := by dsimp only [shellRow] <;> decide +kernel
def wme := word [(0,0x32),(4,0),(6,1),(9,3),(17,6),(24,3)]
theorem wit_mergeOne : (mergeOne (pokeX (pokeX (pokeX s0 0x300 (leX 8 0x2000 ++ le 8 1)) 0x400 (leX 8 0x700)) 0x2000 (leX 8 99 ++ le 4 0x3F800000)) th0 wme (iss wme) 0).pre := by dsimp only [mergeOne] <;> decide +kernel
def wd := word [(0,0x12),(8,1),(9,2),(10,3),(17,0x80),(24,70),(28,8)]
theorem wit_dmaFills : (dmaFills s0 th0 wd (iss wd) 0).pre := by dsimp only [dmaFills] <;> decide +kernel
def wd2 := word [(0,0x12),(9,2),(17,0x80),(24,70)]
theorem wit_dmaCopies : (dmaCopies (pokeX s0 0x200 (List.range 80)) th0 wd2 (iss wd2) 0).pre := by dsimp only [dmaCopies] <;> decide +kernel
def stl : State := pokeX (pokeX (pokeX s0 0x100 (leX 64 (mdX 0x8000 3 4 16 0))) 0x140 (leX 64 (mdX (SB+0x1000) 2 3 16 0))) 0x8000 (List.range 48)
def wlt := word [(0,0x10),(9,1),(16,0x40),(17,1),(24,2),(27,2)]
theorem wit_loadTile : (loadTile stl th0 wlt (iss wlt) 0 (tileOf wlt (memItem stl 0x100) (memItem stl 0x140))).pre := by dsimp only [loadTile] <;> decide +kernel
def wstt := word [(0,0x11),(8,0x40),(9,1),(16,0),(17,1),(24,2),(27,2)]
def stl2 := pokeX stl (SB+0x1000) (List.range 32)
theorem wit_storeTile : (storeTile stl2 th0 wstt (iss wstt) 0 (tileOf wstt (memItem stl2 0x140) (memItem stl2 0x100))).pre := by dsimp only [storeTile] <;> decide +kernel
theorem wit_vpack : (vpack {sf with vbufs := sf.vbufs} th0 (vw 0x48 0) (iss (vw 0x48 0)) 0).pre := by dsimp only [vpack] <;> decide +kernel

end P03

/-! ### The clauses of part 4 -/

namespace P04

def sn : State := (net s0).setReg 0x300038 (5 <<< 23)
def req (op size : Nat) (off : Nat) (data : List Nat) : List Nat := [op, size, 0, 0] ++ (le 6 off).reverse ++ [0,0,0,0,0,0] ++ data
theorem wit_fabReqLoad : (fabReqLoad (poke sn 0x40 [1,2,3,4]) (frm 8 4 77 (req 0 2 0x40 []))).pre := by dsimp only [fabReqLoad] <;> decide +kernel
theorem wit_fabReqStore : (fabReqStore sn (frm 8 4 77 (req 1 2 0x40 [1,2,3,4]))).pre := by dsimp only [fabReqStore] <;> decide +kernel
theorem wit_fabReqAtomic : (fabReqAtomic (poke sn 0x40 [1,2,3,4]) (frm 8 4 77 (req 2 2 0x40 [1,2,3,4,0,0,0,0]))).pre := by dsimp only [fabReqAtomic] <;> decide +kernel
def sn3 (m : MemErr) : State := {sn.setReg 0x200018 256 with parts := [(0, {part0 with map := {cg := 1, ranges := [(2 ^ 42, 2 ^ 36)]}})], mem2 := {m with caps := [64,64,64,64]}}
theorem wit_fabReqLoadWiped : (fabReqLoadWiped (sn3 {t3Next := some 3}) (frm 8 4 77 (req 0 2 0x400C0000100 [])) 3).pre := by dsimp only [fabReqLoadWiped] <;> decide +kernel
theorem wit_fabReqDead : (fabReqDead (sn3 {cxlFailed := [2]}) (frm 8 4 77 (req 0 2 0x400C0002100 [])) (.fabReqLoad (frm 8 4 77 (req 0 2 0x400C0002100 []))) 0x400C0002100).pre := by dsimp only [fabReqDead] <;> decide +kernel
theorem wit_fabReqDead_2 : (fabReqDead (sn3 {cxlFailed := [2]}) (frm 8 4 77 (req 1 2 0x400C0002100 [1,2,3,4])) (.fabReqStore (frm 8 4 77 (req 1 2 0x400C0002100 [1,2,3,4]))) 0x400C0002100).pre := by dsimp only [fabReqDead] <;> decide +kernel
theorem wit_fabReqRefused : (fabReqRefused sn (frm 8 4 77 (req 0 2 0xFF00000 []))).pre := by dsimp only [fabReqRefused] <;> decide +kernel
theorem wit_fabReqInval : (fabReqInval {sn with fab := {lines := [{node := 5, line := 1, data := [], lru := 0}, {node := 6, line := 1, data := [], lru := 0}]}} (frm 8 4 77 (req 3 0 0x80 []))).pre := by dsimp only [fabReqInval] <;> decide +kernel
theorem wit_fabReqPing : (fabReqPing sn (frm 8 4 77 (req 4 0 0 []))).pre := by dsimp only [fabReqPing] <;> decide +kernel
def rq : FabReq := {id := 77, part := 0, thread := 0, op := 0, node := 5, off := 0x40, size := 2, len := 4, dstG := 3, port := some 2}
def wl := word [(0,0x13)]
def sw : State := sn.setThread 0 {t0 with st := .waiting, wait := .fab 77, cur := some wl}
theorem wit_fabRspRx : (fabRspRx {sw with fab := {reqs := [rq]}} (frm 9 4 77 ([0,0,0,4,0,0,0,0,9,8,7,6])) rq wl).pre := by dsimp only [fabRspRx] <;> decide +kernel
theorem wit_fabRspStray : (fabRspStray sn (frm 9 4 77 ([0,0,0,4,0,0,0,0,9,8,7,6]))).pre := by dsimp only [fabRspStray] <;> decide +kernel
theorem wit_fabTimeout : (fabTimeout {sw with fab := {reqs := [rq]}, time := {now := 100000000}} 77 rq 2 wl).pre := by dsimp only [fabTimeout] <;> decide +kernel
def sp : State := sn.setReg 0x300008 4
theorem wit_fabRetxTimer : (fabRetxTimer {sp with fab := {reqs := [rq]}, time := {now := 100000000}} 77 rq 2 41276).pre := by dsimp only [fabRetxTimer] <;> decide +kernel
def sd : State := {(sp.setReg 0x300010 (1 ||| 1 <<< 1 ||| 0 <<< 4)).setReg 0x300028 3 with fab := {domain := [7, 5], goPending := true}}
theorem wit_fabPingTimer : (fabPingTimer sd 5 2 34288).pre := by dsimp only [fabPingTimer] <;> decide +kernel
theorem wit_fabLeaseExpiry : (fabLeaseExpiry {sd with fab := {sd.fab with lease := [(1, 50)], lines := [{node := 5, line := 1, data := [], lru := 0}, {node := 6, line := 1, data := [], lru := 0}]}, time := {now := 100}} 1).pre := by dsimp only [fabLeaseExpiry] <;> decide +kernel
def ho : HomeOp := {op := 5, src := 0x10000, id := 0, part := 0, port := none, len := 128, off := 128, started := true, waitFor := [{member := 1, id := 3, line := 1, lastSent := 0}]}
theorem wit_fabInvalTimeout : (fabInvalTimeout {sd with fab := {sd.fab with homeOps := [ho], dir := [(9, 3), (10, 2)]}, time := {now := 100000000}} 3 ho 1 1 0 0).pre := by dsimp only [fabInvalTimeout] <;> decide +kernel
def ho2 : HomeOp := {ho with waitFor := [{member := 1, id := 77, line := 1, lastSent := 0}]}
theorem wit_fabInvalRetx : (fabInvalRetx {sp with fab := {domain := [7, 5], homeOps := [ho2]}, time := {now := 100000000}} 77 ho2 {member := 1, id := 77, line := 1, lastSent := 0} 2 42723).pre := by dsimp only [fabInvalRetx] <;> decide +kernel
theorem wit_fabRspCacheExpiry : (fabRspCacheExpiry {sd with fab := {rsp := [{src := 1, id := 1, performedAt := 5, status := 0, data := []}]}} {src := 1, id := 1, performedAt := 5, status := 0, data := []} []).pre := by dsimp only [fabRspCacheExpiry]
theorem wit_fabDomainGo : (fabDomainGo (own sd) (hw 0x80)).pre := by dsimp only [fabDomainGo] <;> decide +kernel
theorem wit_fabDomainCommit : (fabDomainCommit (sd.setReg 0x300018 7)).pre := by dsimp only [fabDomainCommit] <;> decide +kernel
theorem wit_fabDomainRefused : (fabDomainRefused sd).pre := by dsimp only [fabDomainRefused] <;> decide +kernel
def sf : State := ((net s0).setReg 0x310000 (0 ||| 1 <<< 6 ||| 7 <<< 7 ||| 0 <<< 16 ||| 0xFFFE <<< 32)).setReg 0x310008 (0 ||| 16 <<< 32)
def fw (op g b5 : Nat) (node off : Nat) (x : List (Nat × Nat) := []) := BitVec.ofNat 256 ((word ([(0,op),(4,g),(5,b5)] ++ x)).toNat ||| (node <<< 48 ||| off) <<< 64)
def w1 := fw 0x13 3 3 7 0x40
theorem wit_fabLdOwn : (fabLdOwn (poke sf 0x40 [1,2,3,4,5]) th0 w1 (iss w1) 0x40).pre := by dsimp only [fabLdOwn] <;> decide +kernel
def sfar := sf.setReg 0x300008 4
def w2 := fw 0x13 3 3 5 0x40
theorem wit_fabLdFar : (fabLdFar sfar th0 w2 (iss w2) 5 0x40 2 34288).pre := by dsimp only [fabLdFar] <;> decide +kernel
def w3 := fw 0x14 1 3 7 0x40
theorem wit_fabStOwn : (fabStOwn sf th0 w3 (iss w3) 0x40 0).pre := by dsimp only [fabStOwn] <;> decide +kernel
def w4 := fw 0x15 3 0x10 7 0x40 [(6,1),(7,2)]
theorem wit_fabAtomOwn : (fabAtomOwn (poke sf 0x40 [1,2,3,4,5]) th0 w4 (iss w4) 0x40).pre := by dsimp only [fabAtomOwn] <;> decide +kernel
theorem wit_fabNotPermitted : (fabNotPermitted (net s0) th0 w1 (iss w1)).pre := by dsimp only [fabNotPermitted] <;> decide +kernel

end P04

/-! ### The clauses of part 5 -/

namespace P05

theorem wit_cxlLinkUp : (cxlLinkUp s0 1 8 300).pre := by dsimp only [cxlLinkUp] <;> decide +kernel
theorem wit_cxlLinkUpBoot : (cxlLinkUpBoot State.reset 1 8 300).pre := by dsimp only [cxlLinkUpBoot] <;> decide +kernel
theorem wit_cxlLinkUpNarrow : (cxlLinkUpNarrow s0 1 2 300).pre := by dsimp only [cxlLinkUpNarrow] <;> decide +kernel
theorem wit_cxlLinkDown : (cxlLinkDown (s0.setReg 0x200028 0x12C011) 1).pre := by dsimp only [cxlLinkDown] <;> decide +kernel
def s3 : State := {s0 with mem2 := {t3Next := some 63, caps := [64,64,64,64], cxlFailed := []}, mem := [(0x40FC0000100, 5), (0x41000000000, 6)]}
def s3' := s3.setReg 0x200018 256
theorem wit_t3WipeChunk : (t3WipeChunk s3' 63).pre := by dsimp only [t3WipeChunk] <;> decide +kernel
def s3t : State := {s0 with mem2 := {t3Part := [(0x40FC0000100, 0x100)], caps := [64,64,64,64], cxlFailed := []}, mem := [(0x40FC0000100, 5), (0x40FC00001FF, 6), (0x40FC0000200, 6)]}
theorem wit_t3WipeTornDown : (t3WipeTornDown s3t 0x40FC0000100 0x100).pre := by dsimp only [t3WipeTornDown] <;> decide +kernel
theorem wit_tierRecalibration : (tierRecalibration s3 true 5).pre := by dsimp only [tierRecalibration]
theorem wit_patrolScrub : (patrolScrub s3 0x40 .clean).pre := by dsimp only [patrolScrub] <;> decide +kernel
def sp (src st sel : Nat) (x : Time := {}) : State := {(((s0.setReg 0x060008 (st ||| src <<< 4 ||| 1 <<< 32)).setReg 0x060000 (sel ||| 2 <<< 8)).setReg (rPort 2 8) 6).setReg (rPort 2 0x40) 1 with time := {x with running := true, ft := 123456789012}}
def wp : Wire := { vid := none }
def so (s : State) : State := s.setPort 2 { portOf s 2 with rxSas := [0] }
theorem wit_ptpEventLocks : (ptpEventLocks (so (sp 1 1 0 {holdFrom := some 0, unlocked := true})) 2 wp 0 false 500).pre := by dsimp only [ptpEventLocks] <;> decide +kernel
theorem wit_ptpEventAcquires : (ptpEventAcquires (so (sp 1 1 0)) 2 wp 0 false 5000000).pre := by dsimp only [ptpEventAcquires] <;> decide +kernel
theorem wit_ptpEventSteps : (ptpEventSteps (so ((sp 1 1 0).setField 0x060000 17 1 1)) 2 wp 0 false (-5000000)).pre := by dsimp only [ptpEventSteps] <;> decide +kernel
theorem wit_ptpEventElsewhere : (ptpEventElsewhere (so ((sp 1 1 0).setField 0x060000 8 6 3)) 2 wp 0 false 5).pre := by dsimp only [ptpEventElsewhere] <;> decide +kernel
def wc : Wire := { vid := none, sec := none }
def sa (k : Nat) : State := ((sp 1 1 0).setReg (rPort 2 0x38) 1).setReg (rPort 2 0x40) k
theorem wit_ptpDelayAnswer : (ptpDelayAnswer (sa 2) 2 wc 0 false).pre := by dsimp only [ptpDelayAnswer] <;> decide +kernel
theorem wit_ptpPeerAnswer : (ptpPeerAnswer (sa 5) 2 wc 0 false).pre := by dsimp only [ptpPeerAnswer] <;> decide +kernel
theorem wit_ppsInEdge : (ppsInEdge (sp 2 1 2) 300).pre := by dsimp only [ppsInEdge] <;> decide +kernel
theorem wit_ftbSourceLost : (ftbSourceLost (sp 1 2 0 {ptpUp := true})).pre := by dsimp only [ftbSourceLost] <;> decide +kernel
theorem wit_ftUnlocked : (ftUnlocked (sp 3 3 0 {holdFrom := some 0, now := 2000000000000000}) 0).pre := by dsimp only [ftUnlocked] <;> decide +kernel
theorem wit_ftbSetTimeWrite : (ftbSetTimeWrite (own (sp 2 1 2)) (hw 7)).pre := by dsimp only [ftbSetTimeWrite] <;> decide +kernel
theorem wit_ftbNowNsRead : (ftbNowNsRead (own (sp 1 1 2)) .host).pre := by dsimp only [ftbNowNsRead] <;> decide +kernel
theorem wit_ppsOutEdge : (ppsOutEdge (sp 1 1 2)).pre := by dsimp only [ppsOutEdge] <;> decide +kernel

end P05

/-! ### The clauses of part 6 -/

namespace P06

def ent (s : State) (e fire period count action armed part target arg : Nat) : State :=
  ((s.setReg (rSet e 0) fire).setReg (rSet e 1) (period ||| count <<< 40)).setReg (rSet e 2) (action ||| armed <<< 4 ||| part <<< 8 ||| target <<< 16 ||| arg <<< 32)
def at_ (s : State) (ns : Nat) : State := {s with time := {s.time with running := true, ft := BitVec.ofNat 80 (ns * 65536), now := ns + 3}}
def s1 := own (at_ s0 5000)
theorem wit_setEntryWrite : (setEntryWrite s1 3 0 (hw 77)).pre := by dsimp only [setEntryWrite] <;> decide +kernel
theorem wit_setEntryRefused : (setEntryRefused (ent s1 3 6000 10 0 1 0 0 0 0) 3 2 (hw (1 ||| 16))).pre := by dsimp only [setEntryRefused] <;> decide +kernel
theorem wit_setEntryLate : (setEntryLate (ent s1 3 4000 0 0 6 0 0 0 0) 3 (hw (6 ||| 16 ||| 5 <<< 32))).pre := by dsimp only [setEntryLate] <;> decide +kernel
theorem wit_setPeriodic : (setPeriodic (ent s1 3 4000 300 0 5 1 0 7 0) 3).pre := by dsimp only [setPeriodic] <;> decide +kernel
def job (s : State) : State := s.setReg (rPart 0 0x10) (9 ||| 2 <<< 32)
def mode (s : State) (m : Nat) : State := {s with parts := [(0, {part0 with execMode := BitVec.ofNat 64 m})]}
theorem wit_stepBoundary : (stepBoundary (mode (job (ent s1 3 4995 0 0 2 1 0 7 0)) 0) 3).pre := by dsimp only [stepBoundary] <;> decide +kernel
theorem wit_stepBoundaryHeld : (stepBoundaryHeld (let s := (mode (job (ent s1 3 4995 0 0 2 1 0 7 0)) 0); {s with parts := [(0, {part0 with execMode := 0, held := true})]}) 3).pre := by dsimp only [stepBoundaryHeld] <;> decide +kernel
theorem wit_heldBoundaryTake : (heldBoundaryTake (let s := (mode (job s1) 0); {s with parts := [(0, {part0 with execMode := 0, held := true})]}) 0).pre := by dsimp only [heldBoundaryTake] <;> decide +kernel
theorem wit_stepDecisionPoint : (stepDecisionPoint (mode (job s1) (1 ||| 200 <<< 16)) 0).pre := by dsimp only [stepDecisionPoint] <;> decide +kernel
theorem wit_stepDecisionWaits : (stepDecisionWaits (mode (job s1) (1 ||| 20000 <<< 16)) 0).pre := by dsimp only [stepDecisionWaits] <;> decide +kernel
def sb (s : State) := s.setReg 0x060040 0x0C0000000000
theorem wit_statLatch : (statLatch (sb ((ent s1 3 4995 0 0 3 1 0 7 0).setReg (rCore 0 0x10) 55)) 3 (rCore 0 0x10) 55).pre := by dsimp only [statLatch] <;> decide +kernel
theorem wit_pguPrepare : (pguPrepare (ent s1 3 4995 0 0 4 1 0 7 0x40003) 3).pre := by dsimp only [pguPrepare] <;> decide +kernel
theorem wit_queueKick : (queueKick (((ent s1 3 4995 0 0 5 1 0 7 0x40003).setReg (rQueue 7 0) (1 <<< 61 ||| 5 <<< 56)).setReg (rQueue 7 1) (1 <<< 10)) 3).pre := by dsimp only [queueKick] <;> decide +kernel
theorem wit_userPip : (userPip (ent s1 3 4995 0 0 6 1 0 0 9) 3).pre := by dsimp only [userPip] <;> decide +kernel
theorem wit_userPipOutside : (userPipOutside (ent s1 3 4995 0 0 6 1 0 100 9) 3).pre := by dsimp only [userPipOutside] <;> decide +kernel

end P06

/-! ### The clauses of part 7 -/

namespace P07

def at_ (s : State) (ns : Nat) : State := {s with time := {s.time with running := true, ft := BitVec.ofNat 80 (ns * 65536), now := ns + 3}}
def s1 := own (at_ s0 5000)
def ec (s : State) (v : Nat) : State := (List.range 4).foldl (fun s d => s.setReg (rEptCommit 0 + d*0x10000) v) s
def eb (s : State) (v : Nat) : State := (List.range 4).foldl (fun s d => s.setReg (rEptBase 0 + d*0x10000) v) s
theorem wit_eptCommitGo : (eptCommitGo (eb s1 0x100000) 0 (hw (1 <<< 36 ||| 1))).pre := by dsimp only [eptCommitGo] <;> decide +kernel
theorem wit_eptCommitRefused : (eptCommitRefused (eb s1 0x100000) 0 (hw (1 <<< 36 ||| 2))).pre := by dsimp only [eptCommitRefused] <;> decide +kernel
def job (s : State) : State := s.setReg (rPart 0 0x10) (9 ||| 2 <<< 32)
theorem wit_eptPrepareFails : (eptPrepareFails (ec s1 (1 <<< 32)) 1 0).pre := by dsimp only [eptPrepareFails] <;> decide +kernel
def u0 : Submit := { rctx := 256, tag := 1, part := 0, layer := 0, ntok := 1, payload := 0, out := 0, thread := 0, slot := 0, phase := .reading, eptBase := 0x100000, eptGen := 3 }
def full : List EptSlot := List.replicate 16 { part := 0, gen := 3, layer := 5, data := [] }
theorem wit_eptLayerWaits : (eptLayerWaits {s1 with eptSlots := [(1, full)], submits := [u0, {u0 with rctx := 257, layer := 5}]} 1 0 0 u0).pre := by
  dsimp only [eptLayerWaits] <;> decide +kernel
theorem wit_eptLayerBad : (eptLayerBad {s1 with submits := [u0]} 1 0 0 u0).pre := by dsimp only [eptLayerBad] <;> decide +kernel
def cfgN : Nat := 4 ||| 3 <<< 16 ||| 2 <<< 64 ||| 100 <<< 96 ||| 16 <<< 120 ||| 7 <<< 144 ||| 8 <<< 156
def cfgW : List Word := (List.range 8).map (fun k => BitVec.ofNat 64 (cfgN >>> (64*k)))
def qd (s : State) (q base cons cunit : Nat) : State := ((s.setReg (rQueue q 0) (base ||| 5 <<< 56 ||| 1 <<< 61)).setReg (rQueue q 1) (cons <<< 10 ||| cunit <<< 15))
def B := 0x0C0000400000
def s2 : State := let s := qd (qd (job s1) 7 0x0C0000000000 1 0) 8 0x0C0000001000 2 0; let s := s.setReg (rSre 0 0) B
  {s with parts := [(0, {part0 with sreStep := cfgW, arrival := 12})]}
def qi (n : Nat) : QItem := { data := BitVec.ofNat 512 n, last := true, gap := false }
def ent (s : State) (i n : Nat) : State := poke s (B + 64*i) (le 64 n)
theorem wit_sreStepWrite : (sreStepWrite s1 0 1 (hw 0x100000002)).pre := by dsimp only [sreStepWrite] <;> decide +kernel
def req : QItem := qi (0xABCD ||| 3 <<< 36 ||| 5 <<< 40 ||| 100 <<< 64 ||| 9 <<< 208 ||| 0x9000 <<< 288 ||| 77 <<< 352)
def sQ : State := {s2 with queues := [(7, {items := [req, req]})]}
def nn := 64 + 8*((100 + pageTokens sQ 0 - 1)/ pageTokens sQ 0)
def sp : State := {ent sQ 4 (2 <<< 32) with pools := [(poolKey 0 0, {base := 0x2000, count := 4, stack := [0x2100, 0x2200], prefetch := true})]}
theorem wit_scRequestTake : (scRequestTake sp 0 req [req] 5 0 0x2100 [0x2200]).pre := by dsimp only [scRequestTake] <;> decide +kernel
theorem wit_scWaits : (scWaits ({((qd sp 9 0x0C0000100000 1 0).setReg (rQueue 9 1) (1 <<< 10 ||| 3 <<< 18)) with queues := [(7, {items := [req]}), (9, {items := [req]})]}) 0 9 (.scRequestTake 0)).pre := by dsimp only [scWaits] <;> decide +kernel
theorem wit_scRequestFull : (scRequestFull ({(ent (ent (ent sQ 4 (2 <<< 32)) 5 (2<<<32)) 6 (1 <<< 32)).setReg (rQueue 8 0) 0 with queues := [(7, {items := [qi 5]})]}) 0 (qi 5) []).pre := by dsimp only [scRequestFull] <;> decide +kernel
theorem wit_scCancel : (scCancel ({ent sQ 5 (5 ||| 2 <<< 32) with queues := [(7, {items := [qi (5 ||| 1 <<< 32)]})]}) 0 (qi (5 ||| 1 <<< 32)) [] 5).pre := by dsimp only [scCancel] <;> decide +kernel
theorem wit_scCancelUnknown : (scCancelUnknown ({ent sQ 5 (5 ||| 2 <<< 32) with queues := [(7, {items := [qi (6 ||| 1 <<< 32)]})]}) 0 (qi (6 ||| 1 <<< 32)) []).pre := by dsimp only [scCancelUnknown] <;> decide +kernel
def md (base rows cols stride fmt : Nat) : Nat := base ||| rows <<< 64 ||| cols <<< 88 ||| stride <<< 128 ||| fmt <<< 192 ||| 1 <<< 196
def sc : Nat := 0x0D0000000000
def wS : Cmd := word [(0,0x62),(8,1),(12,0x1000),(20,0x3000)]
def sS : State := poke s2 0x1000 (le 64 (md (sc+0x100) 1 3 12 0))
def mS := mdescOf (BitVec.ofNat 512 (md (sc+0x100) 1 3 12 0))
theorem wit_sampleSubmit : (sampleSubmit sS th0 wS (iss wS) 0 mS).pre := by dsimp only [sampleSubmit] <;> decide +kernel
def smp : Sample := { thread := (iss wS).key, slot := 0, se := 0, part := 0, logits := BitVec.ofNat 512 (md (sc+0x100) 1 3 12 0) }
def sD : State := let s := poke (poke (ent sS 5 (0xABCD ||| 2 <<< 32 ||| 6 <<< 40 ||| 1 <<< 64 ||| 100 <<< 88 ||| 0xFFFFFFFF <<< 128)) 0x3000 [5]) (sc + 0x104) (le 4 0x3F800000)
  {s with samples := [smp], parts := [(0, {part0 with sreStep := cfgW, seqs := [(5, {take := 1})], stepNo := 8})], threads := [((iss wS).key, {t0 with asyncs := [(0, {w := wS, phase := .running})]})]}
theorem wit_sampleDone : (sampleDone sD th0 smp {w := wS, phase := .running}).pre := by dsimp only [sampleDone] <;> decide +kernel
theorem wit_tokenOutItem : (tokenOutItem ({s2 with queues := [(8, {items := [req]})]}) 8 req []).pre := by dsimp only [tokenOutItem] <;> decide +kernel
def nt (s : State) : State := ups s
def fT : TokFrame := { node := 77, window := 3, psn := 2, offset := 64, records := 2, payload := bts [1,2,3], tries := 0, sentAt := 5 }
theorem wit_tokenOutRetxTimer : (tokenOutRetxTimer (({nt s1 with parts := [(0, {part0 with tokFrames := [fT]})]}).setReg 0x440000 (1000 <<< 16 ||| 3 <<< 32)) 0 fT 2).pre := by dsimp only [tokenOutRetxTimer] <;> decide +kernel
theorem wit_tokenOutLost : (tokenOutLost (({nt s1 with parts := [(0, {part0 with tokFrames := [{fT with tries := 3}]})]}).setReg 0x440000 (1000 <<< 16 ||| 3 <<< 32)) 0 {fT with tries := 3}).pre := by dsimp only [tokenOutLost] <;> decide +kernel
def fr (pl : List Nat) (last : Bool) (typ : Nat := 6) : Sys2Proof.Frame := frm typ 0 0 pl (flags := if last then 1 else 0)
def sN : State := nt (s2)
def big : List Nat := le 64 (0xABCD ||| 3 <<< 36 ||| 50 <<< 40 ||| 100 <<< 64) ++ [1,2,3,4]
theorem wit_oxtRequestFirst : (oxtRequestFirst ({sN with pools := [(poolKey 0 1, {base := 0x2000, count := 4, stack := [0x2400, 0x2800], prefetch := true})]}) (fr big false) 1 0x2400 [0x2800]).pre := by dsimp only [oxtRequestFirst] <;> decide +kernel
theorem wit_oxtRequestRx : (oxtRequestRx sN (fr (le 64 (0xABCD ||| 1 <<< 32)) true)).pre := by dsimp only [oxtRequestRx] <;> decide +kernel
theorem wit_oxtRequestBad : (oxtRequestBad sN (fr (le 64 (0xABCD ||| 2 <<< 32)) true)).pre := by dsimp only [oxtRequestBad] <;> decide +kernel
theorem wit_oxtRequestDup : (oxtRequestDup ({sN with parts := [(0, {part0 with recent := [(5,0)]})]}) (fr [1] true)).pre := by dsimp only [oxtRequestDup] <;> decide +kernel
theorem wit_oxtAckServing : (oxtAckServing ({sN with parts := [(0, {part0 with tokFrames := [{fT with node := 5, window := 0}]})]}) (fr (le 8 1 ++ le 4 3 ++ le 32 0) true 1) {fT with node := 5, window := 0}).pre := by dsimp only [oxtAckServing] <;> decide +kernel
/-! Images of the placement table carry CRCs of 768 KiB, which no test evaluates: the states below hold their values as the rules give them. -/

/-- Four bytes written to memory. -/
def put4 (s : State) (a v : Nat) : State :=
  (Effect.mem (a + 3) (BitVec.ofNat 8 (v >>> 24 % 256))).apply ((Effect.mem (a + 2) (BitVec.ofNat 8 (v >>> 16 % 256))).apply
    ((Effect.mem (a + 1) (BitVec.ofNat 8 (v >>> 8 % 256))).apply ((Effect.mem a (BitVec.ofNat 8 (v % 256))).apply s)))

theorem put4_memAt_ne (s : State) (a v x : Nat) (h : x < a ∨ a + 4 ≤ x) : memAt (put4 s a v) x = memAt s x := by
  show tget 0 (tput 0 (tput 0 (tput 0 (tput 0 s.mem a _) (a + 1) _) (a + 2) _) (a + 3) _) x = _
  rw [tget_tput_ne _ _ _ _ _ (by omega), tget_tput_ne _ _ _ _ _ (by omega), tget_tput_ne _ _ _ _ _ (by omega), tget_tput_ne _ _ _ _ _ (by omega)]
  rfl

theorem put4_memBytes (s : State) (a v x n : Nat) (h : x + n ≤ a ∨ a + 4 ≤ x) : memBytes (put4 s a v) x n = memBytes s x n := by
  unfold memBytes
  refine List.map_congr_left fun i hi => put4_memAt_ne _ _ _ _ ?_
  have := List.mem_range.1 hi
  omega

theorem put4_memNat_same (s : State) (a v : Nat) (h : Rising s.mem) (hv : v < 2 ^ 32) : memNat (put4 s a v) a 4 = v := by
  have r1 := tput_rising (0 : Byte) s.mem a (BitVec.ofNat 8 (v % 256)) h
  have r2 := tput_rising (0 : Byte) _ (a + 1) (BitVec.ofNat 8 (v >>> 8 % 256)) r1
  have r3 := tput_rising (0 : Byte) _ (a + 2) (BitVec.ofNat 8 (v >>> 16 % 256)) r2
  have e0 : memAt (put4 s a v) a = BitVec.ofNat 8 (v % 256) := by
    show tget 0 (tput 0 (tput 0 (tput 0 (tput 0 s.mem a _) (a + 1) _) (a + 2) _) (a + 3) _) a = _
    rw [tget_tput_ne _ _ _ _ _ (by omega), tget_tput_ne _ _ _ _ _ (by omega), tget_tput_ne _ _ _ _ _ (by omega), tget_tput_same _ _ _ _ h]
  have e1 : memAt (put4 s a v) (a + 1) = BitVec.ofNat 8 (v >>> 8 % 256) := by
    show tget 0 (tput 0 (tput 0 (tput 0 (tput 0 s.mem a _) (a + 1) _) (a + 2) _) (a + 3) _) (a + 1) = _
    rw [tget_tput_ne _ _ _ _ _ (by omega), tget_tput_ne _ _ _ _ _ (by omega), tget_tput_same _ _ _ _ r1]
  have e2 : memAt (put4 s a v) (a + 2) = BitVec.ofNat 8 (v >>> 16 % 256) := by
    show tget 0 (tput 0 (tput 0 (tput 0 (tput 0 s.mem a _) (a + 1) _) (a + 2) _) (a + 3) _) (a + 2) = _
    rw [tget_tput_ne _ _ _ _ _ (by omega), tget_tput_same _ _ _ _ r2]
  have e3 : memAt (put4 s a v) (a + 3) = BitVec.ofNat 8 (v >>> 24 % 256) := by
    show tget 0 (tput 0 (tput 0 (tput 0 (tput 0 s.mem a _) (a + 1) _) (a + 2) _) (a + 3) _) (a + 3) = _
    rw [tget_tput_same _ _ _ _ r3]
  show leNat [memAt (put4 s a v) a, memAt (put4 s a v) (a + 1), memAt (put4 s a v) (a + 2), memAt (put4 s a v) (a + 3)] = v
  simp only [e0, e1, e2, e3, leNat, BitVec.toNat_ofNat, Nat.shiftRight_eq_div_pow]
  omega

theorem put4_canon (s : State) (a v : Nat) (h : Canon s) : Canon (put4 s a v) :=
  effect_canon _ _ (effect_canon _ _ (effect_canon _ _ (effect_canon _ _ h)))

theorem setReg_canon (s : State) (off v : Nat) (h : Canon s) : Canon (s.setReg off v) := effect_canon (.reg off (BitVec.ofNat 64 v)) s h

/-- An image of one layer at 1 MiB, but for the CRC of the layer. -/
def imA : State := { ec s1 (1 <<< 32) with parts := [(0, { part0 with eptPrep := 0x100000 })], mem := [(0x100000, 1)] }
@[irreducible] def layerCrc : Nat := (crc32c (memBytes imA (layerAt 0x100000 0) 0xC0000)).toNat
/-- The same for a job that runs, with the records of the other dies PREPARED. -/
def imR : State := { [0, 2, 3].foldl (fun s d => s.setReg (rEptRec d 0) (1 ||| 1 <<< 32)) (imA.setReg (rPart 0 0x10) (9 ||| 2 <<< 32)) with
  parts := [(0, { part0 with eptPrep := 0x100000, eptDone := [0, 2, 3] })] }

theorem image_ok (s : State) (hm : s.mem = imA.mem) (v : Nat) (hv : v < 2 ^ 32)
    (h : (crc32c (memBytes imA (layerAt 0x100000 0) 0xC0000)).toNat = v) : ImageOk (put4 s 0x100040 v) 0x100000 := by
  have hA : ∀ x n, memBytes s x n = memBytes imA x n := fun x n => by simp only [memBytes, memAt, hm]
  have hn : nlayerAt (put4 s 0x100040 v) 0x100000 = 1 := by
    unfold nlayerAt memNat
    rw [put4_memBytes _ _ _ _ _ (by omega), hA]
    decide +kernel
  refine ⟨by omega, by omega, fun l hl => ?_⟩
  obtain rfl : l = 0 := by omega
  have hr : Rising s.mem := by rw [hm]; exact ((tblWf_iff (fun _ => (0 : Byte)) imA.mem).1 (by decide +kernel)).1
  have hc : memNat (put4 s 0x100040 v) (0x100000 + 64 + 4 * 0) 4 = v := put4_memNat_same _ _ _ hr hv
  unfold layerCrcOk
  rw [hc, put4_memBytes _ _ _ _ _ (by simp [layerAt]), hA, h]
  exact beq_self_eq_true _

theorem layerCrc_eq : (crc32c (memBytes imA (layerAt 0x100000 0) 0xC0000)).toNat = layerCrc := by unfold layerCrc; rfl
theorem layerCrc_lt : layerCrc < 2 ^ 32 := by unfold layerCrc; exact BitVec.isLt _

theorem prepareDone_of (v : Nat) (hi : ImageOk (put4 imA 0x100040 v) 0x100000) : (eptPrepareDone (put4 imA 0x100040 v) 1 0).pre := by
  dsimp only [eptPrepareDone]
  exact ⟨(by decide +kernel : eptState imA 0 = 1), (by decide +kernel : 1 ∉ (partOf imA 0).eptDone), hi,
    ⟨0, by decide, by decide, (by decide +kernel : 0 ∉ (partOf imA 0).eptDone)⟩,
    (by decide +kernel : CleanMem imA), put4_canon _ _ _ (by decide +kernel)⟩
theorem wit_eptPrepareDone : (eptPrepareDone (put4 imA 0x100040 layerCrc) 1 0).pre :=
  prepareDone_of _ (image_ok imA rfl _ layerCrc_lt layerCrc_eq)

/-- A die whose record is still PREPARED for the generation that is begun again. -/
def imB : State := { imA.setReg (rEptRec 1 0) (1 ||| 1 <<< 32) with parts := [(0, { part0 with eptPrep := 0x100000 })] }
theorem prepareAgain_of (v : Nat) (hi : ImageOk (put4 imB 0x100040 v) 0x100000) : (eptPrepareAgain (put4 imB 0x100040 v) 1 0).pre := by
  dsimp only [eptPrepareAgain]
  exact ⟨(by decide +kernel : eptState imB 0 = 1), (by decide +kernel : recState imB 1 0 = 1),
    (by decide +kernel : recGen imB 1 0 = eptNextGen imB 0), (by decide +kernel : (partOf imB 0).eptDone = []), hi,
    (by decide +kernel : CleanMem imB), put4_canon _ _ _ (by decide +kernel)⟩
theorem wit_eptPrepareAgain : (eptPrepareAgain (put4 imB 0x100040 layerCrc) 1 0).pre :=
  prepareAgain_of _ (image_ok imB rfl _ layerCrc_lt layerCrc_eq)

theorem layerLoad_of (v : Nat) (h : ImageOk (put4 { imA with submits := [u0] } 0x100040 v) 0x100000) :
    (eptLayerLoad (put4 { imA with submits := [u0] } 0x100040 v) 1 0 0 u0).pre := by
  dsimp only [eptLayerLoad]
  have hn : 0 < nlayerAt (put4 { imA with submits := [u0] } 0x100040 v) 0x100000 := Nat.pos_of_ne_zero h.1
  exact ⟨rfl, rfl, by decide, rfl, rfl, (by decide +kernel : layerReady { imA with submits := [u0] } u0 = false),
    (by decide +kernel : (slotsOf { imA with submits := [u0] } 1).length < 16), hn, h.2.2 0 hn, (by decide +kernel : CleanMem imA),
    put4_canon _ _ _ (by decide +kernel)⟩
theorem wit_eptLayerLoad : (eptLayerLoad (put4 { imA with submits := [u0] } 0x100040 layerCrc) 1 0 0 u0).pre :=
  layerLoad_of _ (image_ok { imA with submits := [u0] } rfl _ layerCrc_lt layerCrc_eq)

/-- The checksum of an image that three dies hold in their records. -/
def withSums (s : State) (v : Nat) : State := ((s.setReg (rEptRec 0 0 + 8) v).setReg (rEptRec 2 0 + 8) v).setReg (rEptRec 3 0 + 8) v

theorem withSums_ne (s : State) (v off : Nat) (h : off ∉ [rEptRec 0 0 + 8, rEptRec 2 0 + 8, rEptRec 3 0 + 8]) :
    regOf (withSums s v) off = regOf s off := by
  simp only [List.mem_cons, List.not_mem_nil, or_false, not_or] at h
  unfold withSums
  rw [regOf_setReg_ne _ _ _ _ h.2.2, regOf_setReg_ne _ _ _ _ h.2.1, regOf_setReg_ne _ _ _ _ h.1]

theorem withSums_sum (s : State) (v k : Nat) (hs : Canon s) (hv : v < 2 ^ 32) (hk : k = 0 ∨ k = 2 ∨ k = 3) : recSum (withSums s v) k 0 = v := by
  have r0 := hs.rising
  have r1 := setReg_rising s (rEptRec 0 0 + 8) v r0
  have r2 := setReg_rising _ (rEptRec 2 0 + 8) v r1
  have e : regOf (withSums s v) (rEptRec k 0 + 8) = BitVec.ofNat 64 v := by
    unfold withSums
    rcases hk with rfl | rfl | rfl
    · rw [regOf_setReg_ne _ _ _ _ (by decide), regOf_setReg_ne _ _ _ _ (by decide), regOf_setReg_same _ _ _ r0]
    · rw [regOf_setReg_ne _ _ _ _ (by decide), regOf_setReg_same _ _ _ r1]
    · rw [regOf_setReg_same _ _ _ r2]
  simp only [recSum, fieldOf, e, bitsOf, BitVec.toNat_ofNat, Nat.shiftRight_zero]
  omega

theorem withSums_canon (s : State) (v : Nat) (h : Canon s) : Canon (withSums s v) := setReg_canon _ _ _ (setReg_canon _ _ _ (setReg_canon _ _ _ h))

theorem withSums_rec (s : State) (v k : Nat) (hk : k < 4) :
    recState (withSums s v) k 0 = recState s k 0 ∧ recGen (withSums s v) k 0 = recGen s k 0 ∧ eptState (withSums s v) 0 = eptState s 0 ∧
      eptGenOf (withSums s v) 0 = eptGenOf s 0 ∧ jobState (withSums s v) 0 = jobState s 0 := by
  have hr : regOf (withSums s v) (rEptRec k 0) = regOf s (rEptRec k 0) := withSums_ne _ _ _ (by
    have : ∀ k < 4, rEptRec k 0 ∉ [rEptRec 0 0 + 8, rEptRec 2 0 + 8, rEptRec 3 0 + 8] := by decide
    exact this k hk)
  have hc : regOf (withSums s v) (rEptCommit 0) = regOf s (rEptCommit 0) := withSums_ne _ _ _ (by decide)
  have hj : regOf (withSums s v) (rPart 0 0x10) = regOf s (rPart 0 0x10) := withSums_ne _ _ _ (by decide)
  refine ⟨?_, ?_, ?_, ?_, ?_⟩
  · simp only [recState, fieldOf, hr]
  · simp only [recGen, fieldOf, hr]
  · simp only [eptState, fieldOf, hc]
  · simp only [eptGenOf, fieldOf, hc]
  · simp only [jobState, fieldOf, hj]

theorem commits_of (v w : Nat) (hi : ImageOk (put4 imR 0x100040 v) 0x100000) (hw : w < 2 ^ 32)
    (h : imageSum (put4 imR 0x100040 v) 0x100000 = w) : (eptCommits (withSums (put4 imR 0x100040 v) w) 1 0).pre := by
  dsimp only [eptCommits]
  have hC : Canon imR := by decide +kernel
  have hS : Canon (put4 imR 0x100040 v) := put4_canon _ _ _ hC
  obtain ⟨e1, e2, e3, e4, e5⟩ := withSums_rec (put4 imR 0x100040 v) w 1 (by decide)
  refine ⟨?_, (by decide +kernel : 1 ∉ (partOf imR 0).eptDone), hi, ?_, rfl, ?_, (by decide +kernel : CleanMem imR), withSums_canon _ _ hS⟩
  · exact e3.trans (by decide +kernel : eptState imR 0 = 1)
  · intro k hk hne
    have hk' : k = 0 ∨ k = 2 ∨ k = 3 := by
      have : k ≠ 1 := hne
      omega
    have hd : ∀ k < 4, (k = 0 ∨ k = 2 ∨ k = 3) → k ∈ (partOf imR 0).eptDone := by decide +kernel
    exact ⟨hd k hk hk', (withSums_sum _ _ _ hS hw hk').trans h.symm⟩
  · exact e5.trans (by decide +kernel : jobState imR 0 = 2)
@[irreducible] def imSum : Nat := imageSum (put4 imR 0x100040 layerCrc) 0x100000
theorem imSum_eq : imageSum (put4 imR 0x100040 layerCrc) 0x100000 = imSum := by unfold imSum; rfl
theorem imSum_lt : imSum < 2 ^ 32 := by unfold imSum imageSum; exact BitVec.isLt _
theorem wit_eptCommits : (eptCommits (withSums (put4 imR 0x100040 layerCrc) imSum) 1 0).pre :=
  commits_of _ _ (image_ok imR rfl _ layerCrc_lt layerCrc_eq) imSum_lt imSum_eq

/-- Three dies hold generation 7 as COMMITTED, die 1 none. -/
def imT : State := [0, 2, 3].foldl (fun s d => s.setReg (rEptRec d 0) (2 ||| 7 <<< 32)) s1

theorem withSums_winner (s : State) (v : Nat) : eptWinner (withSums s v) 0 = eptWinner s 0 := by
  have h := fun k (hk : k < 4) => withSums_rec s v k hk
  simp only [eptWinner, List.range, List.range.loop, List.foldl_cons, List.foldl_nil, (h 0 (by decide)).1, (h 1 (by decide)).1, (h 2 (by decide)).1,
    (h 3 (by decide)).1, (h 0 (by decide)).2.1, (h 1 (by decide)).2.1, (h 2 (by decide)).2.1, (h 3 (by decide)).2.1]

theorem withSums_stale (s : State) (v k : Nat) (hk : k < 4) : eptStale (withSums s v) k 0 = eptStale s k 0 := by
  obtain ⟨a, b, -⟩ := withSums_rec s v k hk
  simp only [eptStale, withSums_winner, a, b]

/-- The checksum that a die computes of the staged image. -/
def sumAt (s : State) (base : Nat) : Nat := (crc32c (memBytes s base (imageLen (min 4096 (nlayerAt s base))))).toNat

theorem sumAt_eq (v : Nat) : sumAt (withSums imT v) (eptStagedBase (withSums imT v) 0) = sumAt imT (eptStagedBase imT 0) := by
  have hb : eptStagedBase (withSums imT v) 0 = eptStagedBase imT 0 := by
    simp only [eptStagedBase, fieldOf, withSums_ne imT v (rEptBase 0) (by decide)]
  have hm : ∀ x n, memBytes (withSums imT v) x n = memBytes imT x n := fun _ _ => rfl
  simp only [sumAt, nlayerAt, memNat, hb, hm]

@[irreducible] def zSum : Nat := sumAt imT (eptStagedBase imT 0)
theorem zSum_eq (v : Nat) : sumAt (withSums imT v) (eptStagedBase (withSums imT v) 0) = zSum := by
  rw [sumAt_eq]
  unfold zSum
  rfl
theorem zSum_lt : zSum < 2 ^ 32 := by unfold zSum sumAt; exact BitVec.isLt _

theorem wit_eptStaleReload : (eptStaleReload (withSums imT zSum) 1 0).pre := by
  show eptStale (withSums imT zSum) 1 0 = true ∧
    (∀ d, d < 4 → d ≠ 1 → eptStale (withSums imT zSum) d 0 = false ∧
      recSum (withSums imT zSum) d 0 = sumAt (withSums imT zSum) (eptStagedBase (withSums imT zSum) 0)) ∧ Canon (withSums imT zSum)
  refine ⟨(withSums_stale _ _ 1 (by decide)).trans (by decide +kernel), fun d hd hne => ⟨?_, ?_⟩, withSums_canon _ _ (by decide +kernel)⟩
  · have : ∀ d < 4, d ≠ 1 → eptStale imT d 0 = false := by decide +kernel
    exact (withSums_stale _ _ d hd).trans (this d hd hne)
  · exact (withSums_sum _ _ _ (by decide +kernel) zSum_lt (by omega)).trans (zSum_eq _).symm

theorem mismatch_of (v : Nat) (hv : v < 2 ^ 32) (h : v ≠ zSum) : (eptMismatch (withSums imT v) 1 0).pre := by
  show eptStale (withSums imT v) 1 0 = true ∧
    (∀ d, d < 4 → d ≠ 1 → eptStale (withSums imT v) d 0 = false ∧
      recSum (withSums imT v) d 0 ≠ sumAt (withSums imT v) (eptStagedBase (withSums imT v) 0)) ∧ eptState (withSums imT v) 0 ≠ 4 ∧
    Canon (withSums imT v)
  refine ⟨(withSums_stale _ _ 1 (by decide)).trans (by decide +kernel), fun d hd hne => ⟨?_, ?_⟩, ?_, withSums_canon _ _ (by decide +kernel)⟩
  · have : ∀ d < 4, d ≠ 1 → eptStale imT d 0 = false := by decide +kernel
    exact (withSums_stale _ _ d hd).trans (this d hd hne)
  · rw [withSums_sum _ _ _ (by decide +kernel) hv (by omega), zSum_eq]
    exact h
  · obtain ⟨-, -, h, -⟩ := withSums_rec imT v 0 (by decide)
    rw [h]
    decide +kernel
theorem wit_eptMismatch : (eptMismatch (withSums imT (if zSum = 5 then 6 else 5)) 1 0).pre := by
  by_cases h : zSum = 5
  · rw [if_pos h]
    exact mismatch_of 6 (by decide) (by omega)
  · rw [if_neg h]
    exact mismatch_of 5 (by decide) (by omega)


end P07

/-! ### The clauses of part 8 -/

namespace P08

def at_ (s : State) (ns : Nat) : State := {s with time := {s.time with running := true, ft := BitVec.ofNat 80 (ns * 65536), now := ns + 3}}
def s1 := own (at_ s0 5000)
def job (s : State) : State := s.setReg (rPart 0 0x10) (9 ||| 2 <<< 32)
def qd (s : State) (q base cons cunit : Nat) : State := ((s.setReg (rQueue q 0) (base ||| 5 <<< 56 ||| 1 <<< 61)).setReg (rQueue q 1) (cons <<< 10 ||| cunit <<< 15))
def qi (n : Nat) (l : Bool := true): QItem := { data := BitVec.ofNat 512 n, last := l, gap := false }
/-- context 0 of SE1: part 0, EN, FP32, K=2, E=3, cap 4, group 5, inq 7, set 3, tb 64 -/
def c0 : Nat := 1 <<< 6 ||| 1 <<< 11 ||| 2 <<< 12 ||| 2 <<< 32
def c1 : Nat := 4 ||| 5 <<< 16 ||| 7 <<< 32 ||| 3 <<< 48
def c2 : Nat := 0x3F800000 ||| 64 <<< 32
def ctxs (s : State) : State := ((s.setReg (rRctx 1 0 0) c0).setReg (rRctx 1 0 1) c1).setReg (rRctx 1 0 2) c2
def s2 : State := qd (job s1) 7 0x0C0000000000 1 1
def s3 := ctxs s2
theorem wit_routeContextWrite : (routeContextWrite s3 1 0 0 (hw c0)).pre := by dsimp only [routeContextWrite] <;> decide +kernel
theorem wit_routeContextRefused : (routeContextRefused s2 1 0 0 (hw c0)).pre := by dsimp only [routeContextRefused] <;> decide +kernel
def md (base rows cols stride fmt : Nat) : Nat := base ||| rows <<< 64 ||| cols <<< 88 ||| stride <<< 128 ||| fmt <<< 192 ||| 1 <<< 196
def sc : Nat := 0x0D0000000000
def wR : Cmd := word [(0,0x60),(4,0),(5,1),(8,2),(12,0x1000),(20,0x1040),(28,0x55)]
def dI : Item := BitVec.ofNat 512 (1 <<< 6 ||| 1 <<< 16 ||| 0xFFFFFFFFFFFFFFFF <<< 64 ||| 0x2000 <<< 128 ||| 9 <<< 192 ||| 200 <<< 224 ||| 1 <<< 240)
def sR0 : State := poke (poke s3 0x1000 (le 64 (md (sc+0x100) 1 3 12 0))) 0x1040 (le 64 (md (sc+0x200) 2 4 16 0))
def sR : State := { sR0 with groups := [(5, { desc := dI, members := [7, 5], gen := 3, used := 3 })] }
def mP := mdescOf (BitVec.ofNat 512 (md (sc+0x100) 1 3 12 0))
def mO := mdescOf (BitVec.ofNat 512 (md (sc+0x200) 2 4 16 0))
theorem wit_routeSubmit : (routeSubmit sR th0 wR (iss wR) 0 mP mO).pre := by dsimp only [routeSubmit] <;> decide +kernel
theorem wit_routeSubmitRefused : (routeSubmitRefused sR0 th0 wR (iss wR) 0 mP mO).pre := by
  dsimp only [routeSubmitRefused]
  repeat' apply And.intro
  all_goals first
    | decide +kernel
    | exact no_combine (by decide +kernel)
theorem wit_routeSubmitWaits : (routeSubmitWaits ({sR with queues := [(7, {reserved := 31})]}) th0 wR (iss wR) 0 mP mO).pre := by dsimp only [routeSubmitWaits] <;> decide +kernel
theorem wit_routeSubmitBad : (routeSubmitBad (sR.setReg (rRctx 1 0 0) 0) th0 wR (iss wR) 0 mP mO).pre := by dsimp only [routeSubmitBad] <;> decide +kernel
theorem wit_submitItemLand : (submitItemLand ({sR with queues := [(7, {submits := [((iss wR).key, 0, submitItem (iss wR))]})], threads := [((iss wR).key, {t0 with st := .waiting, wait := .submitItem 7})]}) 7 (iss wR).key 0 (submitItem (iss wR))).pre := by dsimp only [submitItemLand] <;> decide +kernel
def sub0 : Submit := submitOf sR (iss wR) 0
def itm : QItem := {data := submitItem (iss wR) ||| 1 <<< 511, last := true, gap := false, sub := true}
theorem wit_sreSubmitItemRead : (sreSubmitItemRead ({sR with queues := [(7, {items := [itm]})], submits := [sub0]}) 1 7 itm [] sub0).pre := by dsimp only [sreSubmitItemRead] <;> decide +kernel
theorem wit_sreLowerWaits : (sreLowerWaits ({(((qd sR 8 0x0C0000100000 1 1).setReg (rQueue 8 1) (1 <<< 10 ||| 1 <<< 15 ||| 3 <<< 18))) with queues := [(7, {items := [itm]}), (8, {items := [qi 5]})], submits := [sub0]}) 1 7 8 (.sreSubmitItemRead 1 7)).pre := by dsimp only [sreLowerWaits] <;> decide +kernel
theorem wit_sreLaterWaits : (sreLaterWaits ({(((qd sR 8 0x0C0000100000 1 1).setReg (rQueue 8 1) (1 <<< 10 ||| 1 <<< 15))) with queues := [(7, {items := [{itm with at_ := 9}]}), (8, {items := [qi 5]})], submits := [sub0]}) 1 7 8 (.sreSubmitItemRead 1 7)).pre := by dsimp only [sreLaterWaits] <;> decide +kernel
def uR : Submit := {sub0 with phase := .reading}
def pk : List QItem := [qi (0x77 ||| 3 <<< 32) false, qi (0x3F800000 ||| 0x40000000 <<< 32)]
theorem wit_sreLogitPacket : (sreLogitPacket ({sR with queues := [(7, {items := pk})], submits := [uR]}) 1 7 uR).pre := by dsimp only [sreLogitPacket] <;> decide +kernel
theorem wit_sreLogitBad : (sreLogitBad ({sR with queues := [(7, {items := pk ++ []})], submits := [{uR with cfg := BitVec.ofNat 512 ((c0 ||| 90 <<< 32) ||| c1 <<< 64 ||| c2 <<< 128)}]}) 1 7 {uR with cfg := BitVec.ofNat 512 ((c0 ||| 90 <<< 32) ||| c1 <<< 64 ||| c2 <<< 128)}).pre := by dsimp only [sreLogitBad] <;> decide +kernel
def hg : QItem := {qi 1 with gap := true}
theorem wit_sreLogitNoHeader : (sreLogitNoHeader ({sR with queues := [(7, {items := [hg]})], submits := [uR]}) 1 7 uR hg).pre := by dsimp only [sreLogitNoHeader] <;> decide +kernel
def pks : List Pick := [⟨0,0,0,0,7,0,3,0,0,none⟩,⟨0,1,0,0,7,0,3,0,0,none⟩,⟨1,0,0,0,7,0,3,0,0,none⟩,⟨1,1,0,0,7,0,4,0,0,none⟩,⟨2,0,0,0,7,0,3,0,0,some 1⟩]
def cA : Item := BitVec.ofNat 512 (c0 ||| 2 <<< 64)
theorem wit_admission : (admission cA pks 3).pre := by dsimp only [admission] <;> decide +kernel
theorem wit_admissionElastic : (admissionElastic (cA ||| 1 <<< 48) pks 3).pre := by dsimp only [admissionElastic] <;> decide +kernel
def uB : Submit := {sub0 with phase := .built, picks := [⟨0,0,0,0,7,0,3,0,0,none⟩]}
theorem wit_sendGapsLast : (sendGapsLast pks 4 0 ⟨2,0,0,0,7,0,3,0,0,some 1⟩ ⟨0,0,0,0,7,0,3,0,0,none⟩).pre := by dsimp only [sendGapsLast] <;> decide +kernel
theorem wit_sendListHandoff : (sendListHandoff ({sR with submits := [uB], threads := [((iss wR).key, {t0 with asyncs := [(0,{w := wR, phase := .running})]})]}) 0 3 0x55 uB).pre := by dsimp only [sendListHandoff] <;> decide +kernel
def wt : BitVec 32 := 0x40000000
def kC : Pick := ⟨0,0,0,wt,7,0,3,0,0,none⟩
def cC : Item := BitVec.ofNat 512 ((c0 ^^^ (3 <<< 12)) ||| c1 <<< 64 ||| c2 <<< 128)
def uC : Submit := {sub0 with phase := .handed, picks := [kC], ntok := 1, cfg := cC}
def lD : Launch := { h := 5, part := 0, setId := 3, tag := 0x55, kind := .dispatch, phase := .closed, tokenBytes := 64, caps := [0,4,0,0], retBufs := [(0,3,0x8000)] }
def lR : Launch := { h := 5, part := 0, setId := 3, tag := 0x55, kind := .ret, phase := .closed, tokenBytes := 64, caps := [0,4,0,0], rx := [{src := 3, buf := 0x8000, npos := 4, bytes := 256, delivered := true}] }
def sC : State := poke {sR with submits := [uC], launches := [lD, lR]} 0x8000 (le 4 0x3F800000 ++ le 4 0x40400000)
theorem wit_combine : (combine sC 0 3 0x55 uC kC 0x8000).pre := by
  dsimp only [combine]
  repeat' apply And.intro
  all_goals first
    | decide +kernel
    | exact no_combine (by decide +kernel)
def xS : SplitSum := { se := 1, tok := 0, rank := 0, parts := [bts (le 4 0x3F800000 ++ le 4 0x40400000), bts (le 4 0x3F000000)] }
theorem wit_combineSplit : (combineSplit sC 0 3 0x55 uC kC 0x8000 xS).pre := by
  dsimp only [combineSplit]
  refine ⟨wit_combine, ?_⟩
  decide +kernel
def uF : Submit := { uC with out := BitVec.ofNat 512 (md (sc+0x200) 2 1 16 0) }
def sCF : State := { sC with submits := [uF] }
def xF : SplitSum := { xS with upsets := [{ elem := 0, add := 1, err := 1, again := 1 }] }
def yF : Nat × Flags := ((splitSums uF xF).headD ((0, 0), .good)).1
theorem wit_combineSplitFails : (combineSplitFails sCF 0 3 0x55 uF kC 0x8000 xF yF).pre := by
  dsimp only [combineSplitFails, combine]
  repeat' apply And.intro
  all_goals first
    | decide +kernel
    | exact no_combine (by decide +kernel)
def wC : Cmd := word [(0,0x61),(4,0),(5,1),(6,9),(28,0x55)]
theorem wit_combineWait : (combineWait ({sR with tagsDone := [⟨256,0x55,1,3⟩]}) th0 wC (iss wC) ⟨256,0x55,1,3⟩).pre := by dsimp only [combineWait] <;> decide +kernel
theorem wit_combineWaitWaits : (combineWaitWaits ({sR with submits := [uC]}) th0 wC (iss wC) uC).pre := by dsimp only [combineWaitWaits] <;> decide +kernel
theorem wit_combineWaitUnknown : (combineWaitUnknown sR th0 wC (iss wC)).pre := by dsimp only [combineWaitUnknown] <;> decide +kernel
def sL : State := poke (s1.setReg (rSre 0 0x600) 0x0C0000080000) 0x0C0000080001 [7, 255]
theorem wit_sreLiveClr : (sreLiveClr sL (hw 9)).pre := by dsimp only [sreLiveClr] <;> decide +kernel
theorem wit_sreLiveClrAll : (sreLiveClrAll sL (hw (1 <<< 24))).pre := by dsimp only [sreLiveClrAll] <;> decide +kernel

end P08

/-! ### The clauses of part 9 -/

namespace P09

def at_ (s : State) (ns : Nat) : State := {s with time := {s.time with running := true, ft := BitVec.ofNat 80 (ns * 65536), now := ns + 3}}
def s1 := own (at_ s0 5000)
def job (s : State) : State := s.setReg (rPart 0 0x10) (9 ||| 2 <<< 32)
def qd (s : State) (q base cons cunit : Nat) : State := ((s.setReg (rQueue q 0) (base ||| 5 <<< 56 ||| 1 <<< 61)).setReg (rQueue q 1) (cons <<< 10 ||| cunit <<< 15))
def qi (n : Nat) (l : Bool := true): QItem := { data := BitVec.ofNat 512 n, last := l, gap := false }
/-- context 0 of SE1: part 0, EN, FP32, K=2, E=3, cap 4, group 5, inq 7, set 3, tb 64 -/
def c0 : Nat := 1 <<< 6 ||| 1 <<< 11 ||| 2 <<< 12 ||| 2 <<< 32
def c1 : Nat := 4 ||| 5 <<< 16 ||| 7 <<< 32 ||| 3 <<< 48
def c2 : Nat := 0x3F800000 ||| 64 <<< 32
def ctxs (s : State) : State := ((s.setReg (rRctx 1 0 0) c0).setReg (rRctx 1 0 1) c1).setReg (rRctx 1 0 2) c2
def s2 : State := qd (job s1) 7 0x0C0000000000 1 1
def s3 := ctxs s2
/-- descriptor: part 0, EN, SWITCHED, N=2, rank, G=1, all ports, members at 0x2000, jobgen 9, guard 200, grace 1, collq 9, allocns 50, collto 5 -/
def dsc (rank : Nat := 0) : Nat := 1 <<< 6 ||| 1 <<< 16 ||| rank <<< 32 ||| 0xFFFFFFFFFFFFFFFF <<< 64 ||| 0x2000 <<< 128 ||| 9 <<< 192 ||| 200 <<< 224 ||| 1 <<< 240 ||| 9 <<< 256 ||| 50 <<< 272 ||| 5 <<< 288
def dI : Item := BitVec.ofNat 512 (dsc)
def nt (s : State) : State := ups (ups s 0)
def g0 : Group := { desc := dI, members := [7, 5], gen := 3, used := 3 }
def sg : State := {nt s3 with groups := [(5, g0)]}
theorem wit_xgCommitGo : (xgCommitGo sg (hw (5 ||| 1 <<< 8 ||| 4 <<< 32))).pre := by dsimp only [xgCommitGo] <;> decide +kernel
theorem wit_xgCommitRefused : (xgCommitRefused sg (hw (5 ||| 1 <<< 8 ||| 5 <<< 32))).pre := by dsimp only [xgCommitRefused] <;> decide +kernel
def one (s : State) : State := s.setReg (rPort 2 8) 0
def stg (s : State) (d : Nat) : State := poke (poke (s.setReg 0x440008 0x4000) (0x4000 + 64*5) (le 64 d)) 0x2000 (le 2 7 ++ le 2 5)
def sck (d : Nat) : State := {stg sg d with groups := [(5, {g0 with state := 1})]}
theorem wit_xgCheckDone : (xgCheckDone (sck dsc) 5).pre := by dsimp only [xgCheckDone] <;> decide +kernel
def lO : Launch := { h := 5, part := 0, setId := 3, tag := 0x55, kind := .ret, phase := .opened, tokenBytes := 64, caps := [0,4,0,0], window := 11, openFt := 4000, slotNs := 500, wEnd := 4900, deadline := 4950 }
def gB : XgGen := (dI, [7, 5])
def lOH : Launch := {lO with held := some (gB, 2)}
theorem wit_xgCheckWaits : (xgCheckWaits (({sck dsc with launches := [lOH]}).setReg 0x440010 5) 5 lOH gB 2).pre := by dsimp only [xgCheckWaits] <;> decide +kernel
theorem wit_xgBaseHeld : (xgBaseHeld {sg with groups := [(5, {g0 with next := some gB})]} (hw 0x8000) 5).pre := by dsimp only [xgBaseHeld] <;> decide +kernel
theorem wit_xgCheckFails : (xgCheckFails (sck (dsc 3)) 5).pre := by dsimp only [xgCheckFails] <;> decide +kernel
def sub0 : Submit := { rctx := 256, tag := 0x55, part := 0, layer := 0, ntok := 1, payload := 0, out := 0, thread := 0, slot := 0, phase := .handed, cfg := rcfgOf s3 256 }
def ent (s : State) (e fire period count action armed part target arg : Nat) : State :=
  ((s.setReg (rSet e 0) fire).setReg (rSet e 1) (period ||| count <<< 40)).setReg (rSet e 2) (action ||| armed <<< 4 ||| part <<< 8 ||| target <<< 16 ||| arg <<< 32)
def sL : State := {ent sg 3 4995 10000 0 1 1 0 5 0 with submits := [sub0]}
theorem wit_exchLaunch : (exchLaunch sL 0 3 0x55 sub0).pre := by dsimp only [exchLaunch] <;> decide +kernel
theorem wit_exchLaunchFails : (exchLaunchFails ({sg with submits := [sub0]}) 0 3 0x55 sub0).pre := by
  dsimp only [exchLaunchFails]
  repeat' apply And.intro
  all_goals first
    | decide +kernel
    | exact no_combine (by decide +kernel)
def lQ : Launch := { h := 5, part := 0, setId := 3, tag := 0x55, kind := .dispatch, phase := .queued, elastic := true, tokenBytes := 64, caps := [0,4,0,0], smax := 288 }
def pkk : Pick := ⟨0,0,0,0,5,0,1,0,0,none⟩
def pl (s : State) : State := {s with pools := [(poolKey 0 0, {base := 0x5000, count := 4, stack := [0x5100, 0x5200], prefetch := true})]}
theorem wit_exchAllocation : (exchAllocation (pl {sg with launches := [lQ], submits := [{sub0 with picks := [pkk]}]}) 5 lQ 1 1 0 0x5100 [0x5200]).pre := by dsimp only [exchAllocation] <;> decide +kernel
def lA : Launch := {lQ with phase := .allocated}
theorem wit_exchLaunchDone : (exchLaunchDone ({sg with launches := [lA], pw := {held := [{who := windowHolder lA, mw := 1, prio := 15, part := 0}]}}) 5 lA).pre := by dsimp only [exchLaunchDone] <;> decide +kernel
def lR : Launch := {lQ with phase := .ready}
theorem wit_exchWindowOpen : (exchWindowOpen ({sL with launches := [lR]}) 3 lR).pre := by dsimp only [exchWindowOpen] <;> decide +kernel
theorem wit_exchWindowIdle : (exchWindowIdle ({sL with launches := []}) 3).pre := by dsimp only [exchWindowIdle] <;> decide +kernel
def lRN : Launch := {lR with tag := 0x56}
theorem wit_exchWindowDefers : (exchWindowDefers ({sL with launches := [lA, lRN]}) 3 lA lRN).pre := by dsimp only [exchWindowDefers] <;> decide +kernel
theorem wit_exchWindowBad : (exchWindowBad ({sL with groups := []}) 3).pre := by dsimp only [exchWindowBad] <;> decide +kernel
def lE : Launch := {lQ with phase := .opened, openFt := 4000, window := 11, windows := 1}
theorem wit_xgCountRound : (xgCountRound ({one sg with launches := [lE], submits := [{sub0 with picks := [pkk]}]}) 5 lE 0).pre := by dsimp only [xgCountRound] <;> decide +kernel
def lAE : Launch := {lE with win := 1, counts := [(0, [2,0,0,0,4,0,0,0,0]), (1, [2, 0,0,6,4,0,0,0,0])]}
theorem wit_xgAllocEnd : (xgAllocEnd (pl (poke ({sg with launches := [lAE]}.setReg (rPart 0 0x118) 0x10000) (0x10000 + 64*5) (le 64 (0x6000 <<< 128 ||| 3 <<< 16)))) 5 lAE 2 0 0x5100 [0x5200]).pre := by dsimp only [xgAllocEnd] <;> decide +kernel
def tx0 : TxShare := { dst := 1, frames := [0], addr := 0x7000, len := 5 }
def lT : Launch := {lO with tx := [tx0]}
def mT (l : Launch) (s : State := sg) : State := poke {s with launches := [l]} 0x7000 [1,2,3,4,5,6]
theorem wit_xgRoundStart : (xgRoundStart (mT lT (one sg)) 5 lT tx0 0).pre := by dsimp only [xgRoundStart] <;> decide +kernel
def rx0 : RxShare := { src := 1, buf := 0x9000, npos := 1, bytes := 9000, form := 1, need := [0,1], lastPort := some 2 }
theorem wit_xgSlotEnd : (xgSlotEnd (mT {lT with rx := [rx0]}) 5 {lT with rx := [rx0]} rx0 2).pre := by dsimp only [xgSlotEnd] <;> decide +kernel
def rxN : RxShare := {rx0 with lastPort := none}
theorem wit_xgSlotEndNone : (xgSlotEndNone (mT {lT with rx := [rxN]} (one sg)) 5 {lT with rx := [rxN]} rxN 0).pre := by dsimp only [xgSlotEndNone] <;> decide +kernel
def lW : Launch := {lO with tx := [{tx0 with sent := [0]}]}
theorem wit_xgWindowEnd : (xgWindowEnd (mT lW (one sg)) 5 lW {tx0 with sent := [0]} 0).pre := by dsimp only [xgWindowEnd] <;> decide +kernel
theorem wit_xgWindowEndClean : (xgWindowEndClean (mT {lW with tx := [{tx0 with sent := [0], acked := [0]}]}) 5 {lW with tx := [{tx0 with sent := [0], acked := [0]}]}).pre := by dsimp only [xgWindowEndClean] <;> decide +kernel
def lC : Launch := {lO with phase := .closed, tx := [{tx0 with sent := [0], tries := [(0,1)]}]}
theorem wit_oxtTailRetxTimer : (oxtTailRetxTimer ((mT lC (one sg)).setReg 0x440000 (1000 <<< 16 ||| 3 <<< 32)) 5 lC {tx0 with sent := [0], tries := [(0,1)]} 0).pre := by dsimp only [oxtTailRetxTimer] <;> decide +kernel
def dead (s : State) : State := s.setReg (rSre 0 0x600) 0x0C0000080000
def dark (s : State) : State := (s.setReg (rPort 0 8) 0).setReg (rPort 2 8) 0
def lC3 : Launch := {lC with tx := [{tx0 with sent := [0], tries := [(0,3)]}]}
theorem wit_oxtTailDone : (oxtTailDone ((mT lC3).setReg 0x440000 (1000 <<< 16 ||| 3 <<< 32)) 5 lC3 {tx0 with sent := [0], tries := [(0,3)]}).pre := by dsimp only [oxtTailDone] <;> decide +kernel
theorem wit_tailNoPath : (tailNoPath (dead (dark (mT lC))) 5 lC {tx0 with sent := [0], tries := [(0,1)]}).pre := by dsimp only [tailNoPath] <;> decide +kernel
def lX : Launch := {lO with kind := .dispatch, phase := .closed, rx := [rx0]}
theorem wit_xgDeliveryDeadline : (xgDeliveryDeadline ((mT lX).setReg (rSre 0 0x600) 0x0C0000080000) 5 lX rx0).pre := by dsimp only [xgDeliveryDeadline] <;> decide +kernel
def lPD : Launch := {lOH with kind := .dispatch, phase := .closed}
def g1 : XgGen := (0, [])
theorem wit_xgPendingComes : (xgPendingComes ({mT lPD with groups := [(5, {g0 with next := some g1})]}) 5 lPD gB g1 2).pre := by dsimp only [xgPendingComes] <;> decide +kernel
def gw : Group := {g0 with wins := [(11, 100)]}
def fx (typ psn off : Nat) (pl : List Nat) (last : Bool := false) (win gen : Nat := 11) : Sys2Proof.Frame := frm typ 6 psn pl (xg := 5) (win := win) (off := off) (flags := if last then 1 else 0) (gen := if gen = 11 then 9 else gen)
def sF (l : Launch) : State := {mT l with groups := [(5, gw)]}
theorem wit_oxtCountRx : (oxtCountRx (sF lE) (fx 3 0 0 (le 64 (2 <<< 48 ||| 3 <<< 96))) 5 1 lE).pre := by dsimp only [oxtCountRx] <;> decide +kernel
def lF : Launch := {lO with slotNs := 5000, wEnd := 9900, deadline := 9990}
theorem wit_oxtDataRx : (oxtDataRx (sF {lF with rx := [rx0]}) (fx 0 0 4 [9,8,7]) 5 1 {lF with rx := [rx0]} rx0).pre := by dsimp only [oxtDataRx] <;> decide +kernel
theorem wit_oxtDataLast : (oxtDataLast (sF {lF with rx := [{rx0 with need := [0]}]}) (fx 0 0 4 [9,8,7] true) 5 1 {lF with rx := [{rx0 with need := [0]}]} {rx0 with need := [0]}).pre := by dsimp only [oxtDataLast] <;> decide +kernel
theorem wit_oxtDataStale : (oxtDataStale (sF {lO with rx := [{rx0 with need := [0]}]}) (fx 0 0 4 [9,8,7] true 10) 5).pre := by dsimp only [oxtDataStale] <;> decide +kernel
theorem wit_oxtDataStaleGen : (oxtDataStaleGen (sF lO) (fx 0 0 4 [9,8,7] true 11 8)).pre := by dsimp only [oxtDataStaleGen] <;> decide +kernel
def fA (typ m d : Nat) : Sys2Proof.Frame := fx typ 0 0 (le 8 m ++ le 4 d ++ le 36 0)
theorem wit_oxtAckRx : (oxtAckRx (sF lW) (fA 1 5 1) 5 1 lW {tx0 with sent := [0]}).pre := by dsimp only [oxtAckRx] <;> decide +kernel
def lWC : Launch := {lW with phase := .closed}
theorem wit_oxtSackRx : (oxtSackRx (sF lWC) (fA 2 4 0) 5 1 lWC {tx0 with sent := [0]} 2).pre := by dsimp only [oxtSackRx] <;> decide +kernel
theorem wit_oxtSackEarly : (oxtSackEarly (sF lW) (fA 2 4 0) 5 1 lW {tx0 with sent := [0]}).pre := by dsimp only [oxtSackEarly] <;> decide +kernel
theorem wit_ackLosesPath : (ackLosesPath (dead {sg with groups := [(5, gw)]}) (fA 1 0 1) 5 1).pre := by dsimp only [ackLosesPath] <;> decide +kernel
def lRL : Launch := {lO with kind := .dispatch, rx := [rx0], plan := BitVec.ofNat 512 (3 <<< 48 ||| 2 <<< 64)}
theorem wit_returnLaunch : (returnLaunch ({mT lRL with pips := [(pipKey 0 0 0 3, 5)]}) 5 lRL).pre := by dsimp only [returnLaunch] <;> decide +kernel
theorem wit_headerReads : (headerReads (fx 0 6 4 [9,8,7] true) false 0 1 5 7 5 9 0 0 11 6 4 (bts [9,8,7])).pre := by dsimp only [headerReads] <;> decide +kernel
theorem wit_headerReads_2 : (headerReads (frm 1 6 6 [9,8] (v2 := true) (win := 70000)) true 1 0 5 7 0 9 0 0 70000 6 0 (bts [9,8])).pre := by dsimp only [headerReads] <;> decide +kernel

end P09

/-! ### The clauses of part 10 -/

namespace P10

def at_ (s : State) (ns : Nat) : State := {s with time := {s.time with running := true, ft := BitVec.ofNat 80 (ns * 65536), now := ns + 3}}
def s1 := own (at_ s0 5000)
def job (s : State) : State := s.setReg (rPart 0 0x10) (9 ||| 2 <<< 32)
def qd (s : State) (q base cons cunit : Nat) : State := ((s.setReg (rQueue q 0) (base ||| 5 <<< 56 ||| 1 <<< 61)).setReg (rQueue q 1) (cons <<< 10 ||| cunit <<< 15))
def qi (n : Nat) (l : Bool := true): QItem := { data := BitVec.ofNat 512 n, last := l, gap := false }
/-- context 0 of SE1: part 0, EN, FP32, K=2, E=3, cap 4, group 5, inq 7, set 3, tb 64 -/
def c0 : Nat := 1 <<< 6 ||| 1 <<< 11 ||| 2 <<< 12 ||| 2 <<< 32
def c1 : Nat := 4 ||| 5 <<< 16 ||| 7 <<< 32 ||| 3 <<< 48
def c2 : Nat := 0x3F800000 ||| 64 <<< 32
def ctxs (s : State) : State := ((s.setReg (rRctx 1 0 0) c0).setReg (rRctx 1 0 1) c1).setReg (rRctx 1 0 2) c2
def s2 : State := qd (job s1) 7 0x0C0000000000 1 1
def s3 := ctxs s2
/-- descriptor: part 0, EN, SWITCHED, N=2, rank, G=1, all ports, members at 0x2000, jobgen 9, guard 200, grace 1, collq 9, allocns 50, collto 5 -/
def dsc (rank : Nat := 0) : Nat := 1 <<< 6 ||| 1 <<< 16 ||| rank <<< 32 ||| 0xFFFFFFFFFFFFFFFF <<< 64 ||| 0x2000 <<< 128 ||| 9 <<< 192 ||| 200 <<< 224 ||| 1 <<< 240 ||| 9 <<< 256 ||| 50 <<< 272 ||| 5 <<< 288
def dI : Item := BitVec.ofNat 512 (dsc)
def nt (s : State) : State := ups (ups s 0)
def g0 : Group := { desc := dI, members := [7, 5], gen := 3, used := 3 }
def sg : State := {nt s3 with groups := [(5, g0)]}
/-- g5 with collq 9, queue 9 -/
def sqq (x : Nat) : State := {(qd sg 9 0x0C0000010000 2 0) with queues := [(9, {items := [qi x]})]}
def cdesc (op red fi fo count src dst : Nat) (stream : Nat := 0) : Nat := op ||| red <<< 3 ||| stream <<< 5 ||| fi <<< 8 ||| fo <<< 12 ||| 5 <<< 32 ||| 4 <<< 48 ||| 0 <<< 64 ||| count <<< 96 ||| src <<< 128 ||| dst <<< 192 ||| 0x9F00 <<< 256 ||| 0x77 <<< 320
def rk1 (s : State) : State := s
theorem wit_collectiveStart : (collectiveStart (sqq (cdesc 4 0 0 0 0 0 0)) 5 (qi (cdesc 4 0 0 0 0 0 0)) [] []).pre := by dsimp only [collectiveStart] <;> decide +kernel
theorem wit_collectiveBad : (collectiveBad (sqq (cdesc 5 0 0 0 0 0 0)) 5 (qi (cdesc 5 0 0 0 0 0 0)) [] []).pre := by dsimp only [collectiveBad] <;> decide +kernel
def lB : Launch := {h := 5, part := 0, setId := 0, tag := 0x77, kind := .coll, phase := .allocated, smax := 64, tx := [{ dst := 1, frames := [0], sent := [0], acked := [0]}], rx := [{src := 1, buf := 0, npos := 0, bytes := 64, form := 3, need := [0], delivered := true}]}
def cB : Coll := {h := 5, part := 0, desc := BitVec.ofNat 512 (cdesc 4 0 0 0 0 0 0), startAt := 100}
theorem wit_collectiveComplete : (collectiveComplete ({sg with colls := [cB], launches := [lB], pips := [(pipKey 0 0 0 4, 2)]}) 5 cB lB 0).pre := by dsimp only [collectiveComplete] <;> decide +kernel
def cT : Coll := {h := 5, part := 0, desc := BitVec.ofNat 512 (cdesc 4 0 0 0 0 0 0 1), startAt := 1}
def lTT : Launch := {lB with stream := true, phase := .closed, rx := [{src := 1, buf := 0, npos := 0, bytes := 64, form := 3, need := [0]}]}
theorem wit_collTimeout : (collTimeout (({sg with colls := [cT], launches := [lTT]}).setReg (rSre 0 0x600) 0x0C0000080000) 5 cT lTT 1).pre := by dsimp only [collTimeout] <;> decide +kernel
theorem wit_collTimeoutNone : (collTimeoutNone ({sg with colls := [cT], launches := [{lB with stream := true, phase := .closed}]}) 5 cT {lB with stream := true, phase := .closed}).pre := by dsimp only [collTimeoutNone] <;> decide +kernel
def gG : XgGen := (dI, [7, 5])
def cG : Coll := {h := 5, part := 0, desc := BitVec.ofNat 512 (cdesc 0 0 0xA 0xA 64 0x8000 0x9000 1), startAt := 1}
theorem wit_collLateGather : (collLateGather gG cG lB).pre := by dsimp only [collLateGather] <;> decide +kernel
def gw : Group := {g0 with wins := [(11, 100)]}
def cR : Coll := {h := 5, part := 0, desc := BitVec.ofNat 512 (cdesc 1 0 0xA 0xA 32 0x8000 0x9000), startAt := 10}
def rxR : RxShare := { src := 1, buf := 0xA000, npos := 0, bytes := 128, form := 4, need := [0] }
def lRd : Launch := { h := 5, part := 0, setId := 0, tag := 0x77, kind := .coll, phase := .opened, window := 11, openFt := 4000, slotNs := 5000, wEnd := 9900, deadline := 9950, rx := [rxR] }
def pay : List Nat := (List.range 32).flatMap (fun i => le 4 (2^31 - 10 + i))
def sR : State := {(poke (sg) 0x8000 ((List.range 32).flatMap (fun i => le 4 (i * 7)))) with groups := [(5, gw)], colls := [cR], launches := [lRd]}
theorem wit_oxtReduceRx : (oxtReduceRx sR (frm 4 6 0 pay (xg := 5) (win := 11) (flags := 1)) 5 1 lRd rxR cR).pre := by dsimp only [oxtReduceRx] <;> decide +kernel
theorem wit_residueMends : (residueMends [5, -7] {elem := 0, add := 1, err := 1}).pre := by dsimp only [residueMends] <;> decide +kernel
theorem wit_residueFails : (residueFails [5, -7] {elem := 0, add := 1, err := 1, again := 1}).pre := by dsimp only [residueFails] <;> decide +kernel
def gaI : Item := BitVec.ofNat 512 (1 ||| 0x20000 <<< 64 ||| 0x1000 <<< 192 ||| 0x7777 <<< 256 ||| 6 <<< 336)
def mdI : Nat := 64 <<< 64 ||| 4 <<< 88 ||| 64 <<< 128 ||| 0 <<< 192
def xg : RxShare := { src := 1, buf := 0xA000, npos := 2, bytes := 144, form := 0, delivered := true}
def lO : Launch := { h := 5, part := 0, setId := 3, tag := 0x55, kind := .ret, phase := .opened, tokenBytes := 64, caps := [0,4,0,0], window := 11, openFt := 4000, slotNs := 500, wEnd := 4900, deadline := 4950 }
def lG : Launch := {lO with kind := .dispatch, gather := gaI, rx := [xg], plan := BitVec.ofNat 512 (3 <<< 48 ||| 2 <<< 64 ||| 0x8000 <<< 192)}
def sG : State := poke (poke {sg with launches := [lG]} 0x1000 (le 64 mdI)) 0xA000 (le 8 0 ++ le 8 (513 + 6) ++ (List.range 128).map (·+1))
theorem wit_shellerGather : (shellerGather sG 5 1 lG xg 1 519).pre := by dsimp only [shellerGather] <;> decide +kernel
def lGC : Launch := {lG with rx := [{xg with gathered := true}], items := [(7,0)], slotRows := [(7,2)]}
theorem wit_gatherClose : (gatherClose {sG with launches := [lGC]} 5 lGC {xg with gathered := true} 7 2 2).pre := by dsimp only [gatherClose] <;> decide +kernel

end P10

/-! ### The clauses of part 11 -/

namespace P11

def at_ (s : State) (ns : Nat) : State := {s with time := {s.time with running := true, ft := BitVec.ofNat 80 (ns * 65536), now := ns + 3}}
def s1 := own (at_ s0 5000)
def st (n st : Nat) (s : State := s1) : State := s.setReg (rPort n 8) st
def big (s : State) : State := {s with time := {s.time with now := 20000000000}}
def noMask (s : State) : State := {s with host := {s.host with masked := []}}
def ss (k : Nat) := noMask (st 2 k)
/-- Port 2 UP with a secure association. -/
def su : State := noMask (ups s1)
def hi : List (BitVec 16) := List.replicate 8 0x7FFF
def lo : List (BitVec 16) := List.replicate 7 0x7FFF ++ [0x8001]
def wf : Wire := { wr with vid := none, sec := none }
def en (s : State) := s.setReg (rPort 2 0) ((regOf s (rPort 2 0)).toNat ||| 1)
def dis (s : State) := s.setReg (rPort 2 0) ((regOf s (rPort 2 0)).toNat / 2 * 2)
def ctl (v : Nat) (s : State := s1) : Wr := hw ((regOf s (rPort 2 0)).toNat / 2 * 2 ||| v)
theorem wit_netPortEnable : (netPortEnable ((dis (ss 0)).setReg (rPort 2 0x50) 500) 2 (ctl 1)).pre := by dsimp only [netPortEnable] <;> decide +kernel
theorem wit_netPortEnableDark : (netPortEnableDark ((dis (ss 0)).setReg (rPort 2 0x50) 0xF000) 2 (ctl 1)).pre := by dsimp only [netPortEnableDark] <;> decide +kernel
theorem wit_netPortDisable : (netPortDisable (en su) 2 (ctl 0)).pre := by dsimp only [netPortDisable] <;> decide +kernel
theorem wit_portCntClr : (portCntClr ((en (ss 6)).setReg (rPort 2 0x110) 77) 2 (ctl 17)).pre := by dsimp only [portCntClr] <;> decide +kernel
theorem wit_laserLoss : (laserLoss (ss 3) 2).pre := by dsimp only [laserLoss] <;> decide +kernel
theorem wit_laserLossIdle : (laserLossIdle (ss 1) 2).pre := by dsimp only [laserLossIdle] <;> decide +kernel
theorem wit_laserInputLoss : (laserInputLoss (ss 3) 0).pre := by dsimp only [laserInputLoss] <;> decide +kernel
theorem wit_laserLossUp : (laserLossUp su 2).pre := by dsimp only [laserLossUp] <;> decide +kernel
theorem wit_laserRestored : (laserRestored (ss 1) 2).pre := by dsimp only [laserRestored] <;> decide +kernel
theorem wit_signalDetected : (signalDetected (ss 2) 2 hi).pre := by dsimp only [signalDetected] <;> decide +kernel
theorem wit_signalWeak : (signalWeak (ss 2) 2 lo).pre := by dsimp only [signalWeak] <;> decide +kernel
theorem wit_losHysteresis : (losHysteresis (ss 2) 2 lo 7).pre := by dsimp only [losHysteresis] <;> decide +kernel
theorem wit_linkStage : (linkStage (ss 3) 2 (.linkTrained 2) 3).pre := by dsimp only [linkStage] <;> decide +kernel
theorem wit_linkLockedLoop : (linkLockedLoop ((ss 4).setReg (rPort 2 0) 8) 2).pre := by dsimp only [linkLockedLoop] <;> decide +kernel
theorem wit_linkSecured : (linkSecured (ss 5) 2).pre := by dsimp only [linkSecured] <;> decide +kernel
theorem wit_linkAttemptExpiry : (linkAttemptExpiry (big (ss 2)) 2).pre := by dsimp only [linkAttemptExpiry] <;> decide +kernel
theorem wit_stageTimeouts : (stageTimeouts (big (ss 3)) 2 (.trainingTimeout 2) 3 500).pre := by dsimp only [stageTimeouts] <;> decide +kernel
theorem wit_linkLos : (linkLos (ss 3) 2 lo).pre := by dsimp only [linkLos] <;> decide +kernel
theorem wit_linkDown : (linkDown su 2 lo 9 (.linkLos 2 lo) 1 0).pre := by dsimp only [linkDown] <;> decide +kernel
theorem wit_linkDown_2 : (linkDown su 2 lo 9 (.fecUcwExceeded ⟨2, 9⟩) 4 9).pre := by dsimp only [linkDown] <;> decide +kernel
theorem wit_optMeasure : (optMeasure s1 2 500 200).pre := by dsimp only [optMeasure] <;> decide +kernel
theorem wit_optDark : (optDark ((ss 3).setReg (rPort 2 0x48) 100) 2 50 200).pre := by dsimp only [optDark] <;> decide +kernel
theorem wit_pfcRx : (pfcRx ((ss 6).setReg (rPort 2 0x30) 0) 2 wf 3 true).pre := by dsimp only [pfcRx] <;> decide +kernel
theorem wit_pfcRx_2 : (pfcRx ((ss 6).setReg (rPort 2 0x30) 8) 2 wf 3 true).pre := by dsimp only [pfcRx] <;> decide +kernel
theorem wit_pfcRx_3 : (pfcRx ((ss 6).setReg (rPort 2 0x30) 8) 2 wf 4 false).pre := by dsimp only [pfcRx] <;> decide +kernel
theorem wit_pfcXonRx : (pfcXonRx ({(ss 6).setReg (rPort 2 0x30) 8 with ports := [(2, {pausedBy := [3,4]})]}) 2 wf 3).pre := by dsimp only [pfcXonRx] <;> decide +kernel
theorem wit_pfcXoffRepeat : (pfcXoffRepeat ({ss 6 with ports := [(2, {xoff := [3,4], rxUsed := [(3, 1180000)]})]}) 2 3 [0, 0, 0, 5000]).pre := by dsimp only [pfcXoffRepeat] <;> decide +kernel
theorem wit_pfcXon : (pfcXon ({ss 6 with ports := [(2, {xoff := [3,4], rxUsed := [(3, 1180000)]})]}) 2 3 [0, 0, 0, 500000]).pre := by dsimp only [pfcXon] <;> decide +kernel
theorem wit_pfcHolds : (pfcHolds ({ss 6 with ports := [(2, {xoff := [3,4], rxUsed := [(3, 1180000)]})]}) 2 3 [0, 0, 0, 5000]).pre := by dsimp only [pfcHolds] <;> decide +kernel
theorem wit_neighborSolicitRx : (neighborSolicitRx su 2 wr 0x50005 0x20007).pre := by dsimp only [neighborSolicitRx] <;> decide +kernel
theorem wit_arpRx : (arpRx (su.setReg 0x440030 0x0A000001) 2 (wr 3) 0x0A000001).pre := by dsimp only [arpRx] <;> decide +kernel
def fu (v : Nat) : State := { su with ports := [(2, { rxSas := [0], rxUsed := [(3, v)] })] }
def ar (s : State) : State := (s.setReg 0x440030 0x0A000001).setReg (rPort 2 0x30) 8
theorem wit_xoffSent : (xoffSent (ar (fu 1175000)) 2 (wr 3) 0x0A000001).pre := by dsimp only [xoffSent] <;> decide +kernel
theorem wit_bufferFull : (bufferFull (fu 1179640 |>.setReg 0x440030 0x0A000001 |>.setReg (rPort 2 0x30) 0) 2 (wr 3) 0x0A000001).pre := by dsimp only [bufferFull] <;> decide +kernel
theorem wit_bufferDivision : (bufferDivision (fu 65536) 2 3 1000).pre := by dsimp only [bufferDivision] <;> decide +kernel
theorem wit_recvChecks : (recvChecks su 2 { wr with fcsOk := false } 0 3 true 0 0x20007 5 0 (frm 0 6 0 []) (.arpRx ⟨2, { wr with fcsOk := false }⟩ 5) 2 82 { wr with fcsOk := false } true false false (0x128, 32)).pre := by dsimp only [recvChecks] <;> decide +kernel
theorem wit_recvChecks_2 : (recvChecks su 2 wr 9217 3 true 0 0x20007 5 0 (frm 0 6 0 []) (.unclassifiedFrameRx ⟨2, wr⟩ 9217) 2 9217 wr false false false (0x130, 0)).pre := by dsimp only [recvChecks] <;> decide +kernel
theorem wit_recvChecks_3 : (recvChecks su 2 { wr with vid := none } 0 3 true 0 0x20007 5 0 (frm 0 6 0 []) (.neighborSolicitRx ⟨2, { wr with vid := none }⟩ ⟨0, 0x20007⟩) 2 126 { wr with vid := none } true false true (0x130, 32)).pre := by dsimp only [recvChecks] <;> decide +kernel
theorem wit_recvChecks_4 : (recvChecks su 2 { wr with sec := none } 0 3 true 0 0x20007 5 0 (frm 0 6 0 []) (.arpRx ⟨2, { wr with sec := none }⟩ 5) 2 82 { wr with sec := none } true false false (0x138, 32)).pre := by dsimp only [recvChecks] <;> decide +kernel
theorem wit_recvChecks_5 : (recvChecks su 2 wr 0 3 true 0 0x20007 5 0 (frm 0 6 0 []) (.arpRx ⟨2, wr⟩ 5) 2 82 wr true false false (0x138, 0)).pre := by dsimp only [recvChecks] <;> decide +kernel
theorem wit_recvChecks_6 : (recvChecks su 2 { wr with sec := some { an := 1 } } 0 3 true 0 0x20007 5 0 (frm 0 6 0 []) (.arpRx ⟨2, { wr with sec := some { an := 1 } }⟩ 5) 2 82 { wr with sec := some { an := 1 } } true false false (0x138, 32)).pre := by dsimp only [recvChecks] <;> decide +kernel
theorem wit_recvChecks_7 : (recvChecks { su with ports := [(2, { rxSas := [0], rxPn := [(0, 70000)] })] } 2 wr 0 3 true 0 0x20007 5 0 (frm 0 6 0 []) (.arpRx ⟨2, wr⟩ 5) 2 82 wr true false false (0x140, 0)).pre := by dsimp only [recvChecks] <;> decide +kernel
def pt (d : Port) (s : State := su) : State := {s with ports := [(2, d)]}
theorem wit_mkaRx : (mkaRx (pt {rxSas := [0], txSa := some 0}) 2 wf 0x55 true 0).pre := by dsimp only [mkaRx] <;> decide +kernel
theorem wit_mkaSwitch : (mkaSwitch (pt {rxSas := [0,1], txSa := some 0, newSa := some 1, peers := [(0x55, 10, false)]}) 2 wf 0x55 1).pre := by dsimp only [mkaSwitch] <;> decide +kernel
theorem wit_sakRekey : (sakRekey (pt {rxSas := [0], txSa := some 0, pn := 2^63}) 2 0).pre := by dsimp only [sakRekey] <;> decide +kernel
theorem wit_oldSaExpiry : (oldSaExpiry (pt {rxSas := [0,1], txSa := some 1, oldSaUntil := some 5000}) 2 5000).pre := by dsimp only [oldSaExpiry] <;> decide +kernel
theorem wit_mkaPeerTimeout : (mkaPeerTimeout (pt {rxSas := [0], txSa := some 0, peers := [(0x55, 10, true), (0x56, 10, true)]} (big su)) 2 0x55 (0x55, 10, true) (0x56, 10, true) 0).pre := by dsimp only [mkaPeerTimeout] <;> decide +kernel
theorem wit_mkaLastPeer : (mkaLastPeer (pt {rxSas := [0], txSa := some 0, peers := [(0x55, 10, true)]} (big su)) 2 0x55 (0x55, 10, true)).pre := by dsimp only [mkaLastPeer] <;> decide +kernel
def tf (vc : Nat) : TxFrame := ⟨vc, 1000, .oxt { typ := 9, dst := 5, jobGen := 1, part := 0, payload := [] }⟩
theorem wit_portFrameChoice : (portFrameChoice (pt {txq := [tf 3, tf 6, tf 7]}) 2 (tf 6)).pre := by
  dsimp only [portFrameChoice, chosen] <;> decide +kernel
def ddsc : Nat := 1 <<< 6 ||| 1 <<< 16 ||| 0xFFFFFFFFFFFFFFFF <<< 64 ||| 0x2000 <<< 128
def gx : Group := { desc := BitVec.ofNat 512 ddsc, members := [7, 5], gen := 3, used := 3 }
theorem wit_lastPacket : (lastPacket (pt {txq := [tf 6], rxSas := [0], txSa := some 0, pn := lastPn - 1}) 2 (tf 6)).pre := by
  dsimp only [lastPacket, chosen] <;> decide +kernel
def tt (f : Nat) : TxFrame := ⟨6, 1000, .oxt { typ := 0, dst := 5, jobGen := 1, part := 0, flags := f, payload := [] }⟩
theorem wit_tailFirst : (tailFirst (pt {txq := [tt 0, tt 2, tt 0]}) 2 (tt 2) [tt 0] [tt 0]).pre := by dsimp only [tailFirst] <;> decide +kernel
theorem wit_noNodeKeeps : (noNodeKeeps ((pt {txq := [tt 0, tt 2]}).setReg 0x440028 0xFFFF) 2).pre := by dsimp only [noNodeKeeps] <;> decide +kernel
theorem wit_lastPortDown : (lastPortDown {(pt {rxSas := [0], txSa := some 0}).setReg (rSre 0 0x600) 0x0C0000080000 with groups := [(5, gx)]} 2 5 1 gx).pre := by dsimp only [lastPortDown] <;> decide +kernel
def dsc (rank : Nat := 0) : Nat := 1 <<< 6 ||| 1 <<< 16 ||| rank <<< 32 ||| 0xFFFFFFFFFFFFFFFF <<< 64 ||| 0x2000 <<< 128 ||| 9 <<< 192 ||| 200 <<< 224 ||| 1 <<< 240 ||| 9 <<< 256 ||| 50 <<< 272 ||| 5 <<< 288
def g0 : Group := { desc := BitVec.ofNat 512 dsc, members := [7, 5], gen := 3, used := 3 }
def lO : Launch := { h := 5, part := 0, setId := 3, tag := 0x55, kind := .ret, phase := .opened, tokenBytes := 64, caps := [0,4,0,0], window := 11, openFt := 5000 - dataStart g0.desc false, slotNs := 500, wEnd := 8900, deadline := 8950 }
theorem wit_roundKeepsWireFree : (roundKeepsWireFree {pt {txq := [tf 3, tf 7]} with groups := [(5, g0)], launches := [lO]} 2).pre := by dsimp only [roundKeepsWireFree] <;> decide +kernel

end P11

/-! ### The clauses of part 12 -/

namespace P12

def at_ (s : State) (ns : Nat) : State := {s with time := {s.time with running := true, ft := BitVec.ofNat 80 (ns * 65536), now := ns + 3}}
def s1 := own (at_ s0 5000)
def pt (s : State) (f : Part → Part) : State := s.setPart 0 (f (partOf s 0))
def noMask (s : State) : State := {s with host := {s.host with masked := []}}
/-- staged map: cg 3, range 0x100000 at 0 -/
def stg (s : State) : State := ((s.setReg (rPart 0 0) 3).setReg (rPart 0 0x600) 0).setReg (rPart 0 0x608) 0x10
def go (g : Nat) : Wr := hw (g ||| 1 <<< 35)
theorem wit_partMapCommit : (partMapCommit (pt (stg s1) (fun d => {d with running := none})) 0 (go 1)).pre := by
  dsimp only [partMapCommit]
  repeat' apply And.intro
  all_goals first
    | decide +kernel
    | exact (fun c => ⟨fun g hg => (by cases hg), fun g hg => (by cases hg)⟩)
theorem wit_partMapPends : (partMapPends (stg s1) 0 (go 1)).pre := by dsimp only [partMapPends] <;> decide +kernel
theorem wit_partMapFails : (partMapFails s1 0 (go 1)).pre := by dsimp only [partMapFails] <;> decide +kernel
theorem wit_partMapRefused : (partMapRefused s1 0 (go 2)).pre := by dsimp only [partMapRefused] <;> decide +kernel
def cs (s : State) (c st : Nat) (en : Nat := 1) : State := s.setReg (rCtx 0 c 0) (st <<< 56 ||| en <<< 52)
def s4 : State := (cs (cs s1 0 2) 3 1).setReg (rPart 0 0x10) (9 ||| 2 <<< 32)
theorem wit_ctxSliceEnd : (ctxSliceEnd {s4 with time := {s4.time with now := 1000000000}} 0 0).pre := by dsimp only [ctxSliceEnd] <;> decide +kernel
theorem wit_ctxSliceGoesOn : (ctxSliceGoesOn s1 0).pre := by dsimp only [ctxSliceGoesOn] <;> decide +kernel
theorem wit_ctxEarlySwitch : (ctxEarlySwitch {s4 with threads := []} 0 0).pre := by dsimp only [ctxEarlySwitch] <;> decide +kernel
theorem wit_ctxSwitchSaved : (ctxSwitchSaved (pt s4 (fun d => {d with switching := .saving, outState := 1})) 0 0 3).pre := by dsimp only [ctxSwitchSaved] <;> decide +kernel
def sv (s : State) : State := pt s (fun d => {d with switching := .saving, outState := 1})
def sv3 (s : State) : State := pt s (fun d => {d with switching := .saving, outState := 3})
def rs (s : State) : State := pt s (fun d => {d with switching := .restoring, incoming := some 3, running := none})
def vw42 : Cmd := word [(0,0x42)]
def mm20 : Cmd := word [(0,0x20)]
theorem wit_ctxSwitchSavedLast : (ctxSwitchSavedLast (sv3 (cs s1 0 2)) 0 0).pre := by
  dsimp only [ctxSwitchSavedLast]
  repeat' apply And.intro
  all_goals first
    | decide +kernel
    | exact (fun c => ⟨fun g hg => (by cases hg), fun g hg => (by cases hg)⟩)
theorem wit_ctxSwitchWaits : (ctxSwitchWaits (sv {s4 with threads := [(0, {t0 with asyncs := [(2, {w := vw42, phase := .done})]})]}) 0 0).pre := by dsimp only [ctxSwitchWaits] <;> decide +kernel
def aM : AsyncCmd := {w := mm20, phase := .running, cur := some {kt := 2}}
def tM (a : AsyncCmd) : Thread := {t0 with asyncs := [(2, a)]}
theorem wit_ctxSwitchStops : (ctxSwitchStops (sv {s4 with threads := [(0, tM aM)]}) 0 0 0 2 (tM aM) aM).pre := by dsimp only [ctxSwitchStops] <;> decide +kernel
theorem wit_ctxSwitchMap : (ctxSwitchMap {pt (rs s4) (fun d => {d with mapNext := some {cg := 1}}) with pw := {awake := List.range 64}} 0 3 {cg := 1}).pre := by
  dsimp only [ctxSwitchMap]
  repeat' apply And.intro
  all_goals first
    | decide +kernel
    | exact (fun c => ⟨fun g hg => (by cases hg), fun g hg => (by cases hg)⟩)
def aS (g : Bool) : AsyncCmd := {w := mm20, phase := .stopped, grant := g, cur := some {fin := true}}
def k63 : Nat := thrKey 0 3 0 2
theorem wit_ctxRestoredAsks : (ctxRestoredAsks {rs s4 with threads := [(k63, tM (aS true))]} 0 3 k63 2 (tM (aS true)) (aS true)).pre := by dsimp only [ctxRestoredAsks] <;> decide +kernel
theorem wit_ctxRestoredGoesOn : (ctxRestoredGoesOn {rs s4 with threads := [(k63, tM (aS false))]} 0 3 k63 2 (tM (aS false)) (aS false) {fin := true}).pre := by dsimp only [ctxRestoredGoesOn] <;> decide +kernel
theorem wit_ctxSwitchRestored : (ctxSwitchRestored (pt s4 (fun d => {d with switching := .restoring, incoming := some 3, running := none})) 0 3).pre := by dsimp only [ctxSwitchRestored] <;> decide +kernel
def ss (s : State) (c : Nat) : State := s.setReg (rCtx 0 c 0) ((if c = 0 then 2 else 1) <<< 56 ||| 3 <<< 52)
def a7 : Nat := scratchBase 0 + 7
def s4s : State := poke (ss (ss s4 0) 3) a7 [1, 2, 0, 3]
theorem wit_ctxScratchSaved : (ctxScratchSaved (pt s4s (fun d => {d with switching := .saving, scratch := [(1, {}), (9, {bytes := [(5, 5)]})]})) 0 0).pre := by dsimp only [ctxScratchSaved] <;> decide +kernel
theorem wit_ctxScratchRestored : (ctxScratchRestored (poke (pt s4s (fun d => {d with switching := .restoring, incoming := some 3, running := none, scratch := [(3, {bytes := [(5, 9), (a7 + 1, 9), (a7 + 9, 8)]})]})) 0x40 [7, 8]) 0 3).pre := by dsimp only [ctxScratchRestored] <;> decide +kernel
def tF : Thread := {st := .faulted, faultCause := 6}
def k5 : Nat := thrKey 0 0 5 2
theorem wit_ctxFault : (ctxFault {s4 with threads := [(k5, tF)]} 0 0 k5 tF).pre := by dsimp only [ctxFault] <;> decide +kernel
def cw (cmd : Nat) (en : Nat := 1) : Wr := hw (cmd <<< 61 ||| en <<< 52)
theorem wit_ctxResume : (ctxResume (cs s4 3 3) 0 3 (cw 1)).pre := by dsimp only [ctxResume] <;> decide +kernel
def k6 : Nat := thrKey 0 3 5 2
def idle (s : State) : State := pt s (fun d => {d with running := none})
theorem wit_ctxResumeComesIn : (ctxResumeComesIn (idle (cs s4 3 3)) 0 3 (cw 1) 3).pre := by dsimp only [ctxResumeComesIn] <;> decide +kernel
theorem wit_ctxResumeStopped : (ctxResumeStopped {cs s4 3 4 with threads := [(k63, {tF with asyncs := [(2, aS true)]})]} 0 3 (cw 1) k63 2 {tF with asyncs := [(2, aS true)]} (aS true)).pre := by dsimp only [ctxResumeStopped] <;> decide +kernel
theorem wit_ctxResumeFaulted : (ctxResumeFaulted {cs s4 3 4 with threads := [(k6, tF)]} 0 3 (cw 1) k6 tF).pre := by dsimp only [ctxResumeFaulted] <;> decide +kernel
theorem wit_ctxStop : (ctxStop (cs s4 3 1) 0 3 (cw 3)).pre := by dsimp only [ctxStop] <;> decide +kernel
theorem wit_ctxStopIncoming : (ctxStopIncoming (rs (cs (cs s4 0 0) 3 1)) 0 3 (cw 3)).pre := by dsimp only [ctxStopIncoming] <;> decide +kernel
theorem wit_ctxStopRunning : (ctxStopRunning s4 0 0 (cw 3)).pre := by dsimp only [ctxStopRunning] <;> decide +kernel
theorem wit_ctxCmdRefused : (ctxCmdRefused s4 0 0 (cw 1)).pre := by dsimp only [ctxCmdRefused] <;> decide +kernel
def s5 : State := (cs s4 3 3).setReg (rCtx 0 3 1) 0x4440
theorem wit_ctxReset : (ctxReset {s5 with threads := s5.threads ++ [(k6, tF)], pips := [(pipKey 0 0 1 1, 3), (pipKey 0 3 1 1, 3)]} 0 3 (cw 2) 0).pre := by dsimp only [ctxReset] <;> decide +kernel
theorem wit_ctxResetRunning : (ctxResetRunning {cs s4 0 2 with pips := [(pipKey 0 0 1 1, 3)]} 0 0 (cw 2) 0).pre := by dsimp only [ctxResetRunning] <;> decide +kernel
def ar (s : State) (e p : Nat) := s.setReg (rSet e 2) (1 ||| 1 <<< 4 ||| p <<< 8)
theorem wit_partTeardown : (partTeardown (ar (ar s4 5 0) 6 1) 0 (go 0)).pre := by dsimp only [partTeardown] <;> decide +kernel
def s6 : State := pt s4 (fun d => {d with td := .drain})
theorem wit_teardownDrainEnd : (teardownDrainEnd {s6 with threads := s6.threads ++ [(k6, tF), (thrKey 1 0 0 0, tF)]} 0 (.teardownDrainDone 0)).pre := by dsimp only [teardownDrainEnd] <;> decide +kernel
def s7 : State := noMask (poke (pt s4 (fun d => {d with td := .wipe, map := {d.map with cg := 0, ranges := [(0x1000, 64), (0x40000000000, 65536), (0x2000, 32)]}})) 0x1000 ((List.range 80).map (·+1)))
theorem wit_teardownWipeDone : (teardownWipeDone s7 0).pre := by dsimp only [teardownWipeDone] <;> decide +kernel
def s8 : State := ((pt s1 (fun d => {d with running := none})).setReg (rPart 0 0x10) 4).setReg (rPart 0 8) 3
theorem wit_partJobStart : (partJobStart ((fun (s : State) => s.setReg 0x440028 7) (s8.setReg (rPart 0 0x20) 5)) 0 (hw 9000)).pre := by dsimp only [partJobStart] <;> decide +kernel
theorem wit_partJobStartRefused : (partJobStartRefused s8 0 (hw 9000)).pre := by dsimp only [partJobStartRefused] <;> decide +kernel
def s9 : State := {cs (pt (s8.setReg (rPart 0 0x10) (5 ||| 1 <<< 32)) (fun d => {d with startAt := some 4000, map := {d.map with cg := 1}})) 0 0 with pw := {awake := List.range 32}}
theorem wit_jobStartFire : (jobStartFire (s9.setReg (rCtx 0 0 1) 0x4440) 0 4000).pre := by dsimp only [jobStartFire] <;> decide +kernel

end P12

/-! ### The clauses of part 13 -/

namespace P13

def at_ (s : State) (ns : Nat) : State := {s with time := {s.time with running := true, ft := BitVec.ofNat 80 (ns * 65536), now := ns + 3}}
def s1 := (own (at_ s0 5000)).setReg (rPart 0 0x10) (9 ||| 2 <<< 32)
/-- ring 3 of partition 0, enabled: device SQ at 0x10000 (tier1), CQ at 0x20000, log 4, dbsrc 3, vec 64 -/
def w2 (en : Nat := 1) (extra : Nat := 0) : Nat := 4 ||| 4 <<< 4 ||| en <<< 11 ||| 3 <<< 12 ||| 64 <<< 22 ||| extra
def rg (s : State) (en : Nat := 1) (x : Nat := 0) (tail head ctail chead : Nat := 0) : State :=
 ((((s.setReg (rRing 3 0) 0x10000).setReg (rRing 3 1) 0x20000).setReg (rRing 3 2) (w2 en x)).setReg (rRing 3 3) (tail <<< 16 ||| head <<< 32 ||| ctail <<< 48)).setReg (rRing 3 4) chead
def sr := rg s1
theorem wit_ringEnable : (ringEnable (rg s1 0) 3 (hw (w2 1))).pre := by dsimp only [ringEnable] <;> decide +kernel
theorem wit_ringEnableFails : (ringEnableFails (rg s1 0) 3 (hw (w2 1 (3 <<< 20)))).pre := by dsimp only [ringEnableFails] <;> decide +kernel
theorem wit_ringLiveWrite : (ringLiveWrite sr 3 (hw (w2 1 (7 <<< 16)))).pre := by dsimp only [ringLiveWrite] <;> decide +kernel
def vfm (s : State) : State := {s with host := {s.host with numVfs := 64}}
theorem wit_sqTailDoorbell : (sqTailDoorbell (rg s1 1 0 5 5) .host 3 9).pre := by dsimp only [sqTailDoorbell] <;> decide +kernel
theorem wit_cqHeadDoorbell : (cqHeadDoorbell (rg s1 1 0 5 5 7 3) .host 3 5).pre := by dsimp only [cqHeadDoorbell] <;> decide +kernel
theorem wit_doorbellBad : (doorbellBad (rg s1 1 0 5 5) .host 3 true 30).pre := by dsimp only [doorbellBad] <;> decide +kernel
theorem wit_doorbellDenied : (doorbellDenied ((rg s1 1 0 5 5).setReg (rRing 3 2) (4 ||| 4 <<< 4 ||| 1 <<< 11)) .host 3 true 6).pre := by dsimp only [doorbellDenied] <;> decide +kernel
def sn : State := net (rg s1 1 0 5 5)
def fdb : Sys2Proof.Frame := frm 5 (Fin.ofNat 8 (servVc sn 0)) 6 (le 8 (3 ||| 9 <<< 16))
theorem wit_oxtDoorbellRx : (oxtDoorbellRx sn fdb 3 9).pre := by dsimp only [oxtDoorbellRx] <;> decide +kernel
theorem wit_oxtDoorbellAgain : (oxtDoorbellAgain {sn with host := {sn.host with dbSeen := [(5, 0, 6)]}} fdb).pre := by dsimp only [oxtDoorbellAgain] <;> decide +kernel
theorem wit_ringFetch : (ringFetch (poke (rg s1 1 0 6 5) (0x10000+64*5) (List.range 64)) 3 (bts (List.range 256))).pre := by dsimp only [ringFetch] <;> decide +kernel
def en (ty : Nat) (l : List (Nat × Nat)) : RingEntry := { idx := 4, bytes := BitVec.ofNat 512 (l.foldl (fun a e => a ||| e.2 <<< (8 * e.1)) (ty ||| 0x77 <<< 32)) }
def sE (e : RingEntry) (s : State := sr) : State := {s with host := {s.host with rings := [(3, {seq := 5, entries := [e]})]}}
theorem wit_entryNop : (entryNop (sE (en 0 [])) 3 (en 0 []) 0).pre := by dsimp only [entryNop] <;> decide +kernel
theorem wit_entryPoisoned : (entryPoisoned (sE {en 5 [] with bad := true}) 3 {en 5 [] with bad := true} (.launch 3)).pre := by dsimp only [entryPoisoned] <;> decide +kernel
theorem wit_entryNoJob : (entryNoJob (sE (en 4 []) (sr.setReg (rPart 0 0x10) 9)) 3 (en 4 []) (.pipsig 3) 4).pre := by dsimp only [entryNoJob] <;> decide +kernel
def eL := en 1 [(8, 1), (10, 5), (11, 7), (12, 0x4440), (24, 100), (32, 101), (40, 102), (48, 103)]
def sL := sr.setReg (rCtx 0 0 0) (1 <<< 52)
theorem wit_launch : (launch (sE eL sL) 3 eL).pre := by dsimp only [launch] <;> decide +kernel
theorem wit_launchBad : (launchBad (sE eL sr) 3 eL).pre := by dsimp only [launchBad] <;> decide +kernel
def eLo := en 1 [(8, 900), (10, 5), (11, 7), (12, 0x4440)]
def eC (n : Nat) (fl : Nat := 0) := en 2 [(8, 0x30000), (16, 0x40001), (24, n), (28, fl)]
def mm_ (s : State) := poke s 0x30000 ((List.range 64).map (·+1))
theorem wit_copyDevice : (copyDevice (mm_ (sE (eC 50))) 3 (eC 50)).pre := by dsimp only [copyDevice] <;> decide +kernel
theorem wit_copyFill : (copyFill (mm_ (sE (eC 50 4))) 3 (eC 50 4)).pre := by dsimp only [copyFill] <;> decide +kernel
theorem wit_copyHeld : (copyHeld ({mm_ (sE (eC 50 4)) with groups := [(5, { next := some (0, []) })]}.setReg 0x440008 0x3FEC0) 3 (eC 50 4) (0x40000, 64)).pre := by dsimp only [copyHeld] <;> decide +kernel
theorem wit_copyToHost : (copyToHost (mm_ (sE (eC 50 2))) 3 (eC 50 2)).pre := by dsimp only [copyToHost] <;> decide +kernel
theorem wit_copyBad : (copyBad (mm_ (sE (eC 0))) 3 (eC 0)).pre := by dsimp only [copyBad] <;> decide +kernel
def eC2 := en 2 [(8, 0x30000), (16, 0x400000), (24, 9), (28, 0)]
def qd (s : State) (q base cons cunit : Nat) : State := ((s.setReg (rQueue q 0) (base ||| 5 <<< 56 ||| 1 <<< 61)).setReg (rQueue q 1) (cons <<< 10 ||| cunit <<< 15))
def eQ := en 3 [(8, 7), (16, 0x30000)]
theorem wit_qpush : (qpush (mm_ (sE eQ (qd sr 7 0x0C0000000000 0 0))) 3 eQ).pre := by dsimp only [qpush] <;> decide +kernel
theorem wit_qpushBad : (qpushBad (sE eQ) 3 eQ).pre := by dsimp only [qpushBad] <;> decide +kernel
def eP := en 4 [(8, 1), (10, 6), (12, 4)]
theorem wit_pipsig : (pipsig {sE eP with pips := [(pipKey 0 0 1 6, 2)]} 3 eP).pre := by dsimp only [pipsig] <;> decide +kernel
def eP2 := en 4 [(8, 900), (10, 6), (12, 4)]
theorem wit_pipsigBad : (pipsigBad (sE eP2) 3 eP2).pre := by dsimp only [pipsigBad] <;> decide +kernel
def eQC := en 5 [(8, 0), (10, 17), (12, 0x123456), (15, 2 ||| 5 <<< 2 ||| 0 <<< 5), (16, 0xAA), (32, 100), (40, 4)]
theorem wit_qpCreate : (qpCreate (sE eQC) 3 eQC).pre := by dsimp only [qpCreate] <;> decide +kernel
def eQD := en 5 [(8, 1), (10, 17)]
def q0 : Qp := {part := 0, ring := 3, remoteQpn := 9, vc := 2, retry := 5, pmtu := 0, remoteIp := 0, psn := 100, ePsn := 200, portMask := 4}
def hq (s : State) (q : Qp) : State := {s with host := {s.host with qps := [(17, q)]}}
theorem wit_qpDestroy : (qpDestroy (hq (sE eQD) q0) 3 eQD q0).pre := by dsimp only [qpDestroy] <;> decide +kernel
def eM := en 6 [(8, 6), (10, 33), (12, 0x55), (16, 0x30000), (24, 0x100)]
theorem wit_mrCtl : (mrCtl (sE eM) 3 eM).pre := by dsimp only [mrCtl] <;> decide +kernel
def eMd := en 6 [(8, 1), (10, 33)]
def eMb := en 6 [(8, 6), (10, 33), (12, 0x55), (16, 0x300000), (24, 0x100)]
theorem wit_mrBad : (mrBad (sE eMb) 3 eMb).pre := by dsimp only [mrBad] <;> decide +kernel
def up2 (s : State) := ups s
def wq : Wire := { wr with udp := 4791 }
def eW := en 7 [(8, 0), (10, 17), (12, 9), (16, 0x30000), (24, 50)]
theorem wit_rdmaWr : (rdmaWr (mm_ (up2 (hq (sE eW) q0))) 3 eW q0 2).pre := by dsimp only [rdmaWr] <;> decide +kernel
def eR := en 8 [(8, 0), (10, 17), (16, 0x30000), (24, 50)]
theorem wit_rdmaRecv : (rdmaRecv (hq (sE eR) q0) 3 eR q0).pre := by dsimp only [rdmaRecv] <;> decide +kernel
def wk : QpWork := {ring := 3, idx := 4, tag := 0x77, op := 0, imm := 0, loc := 0x30000, len := 50, remote := 0, rkey := 0, psn := 100, pkts := 1, tries := 2}
def qs : Qp := {q0 with psn := 101, sends := [wk]}
theorem wit_roceAck : (roceAck (up2 (hq (sE {eW with started := true}) qs)) 2 wq 17 100 qs wk).pre := by dsimp only [roceAck] <;> decide +kernel
def qr : Qp := {q0 with recvs := [{wk with op := 8}]}
theorem wit_roceSend : (roceSend (up2 (hq (sE {eR with started := true}) qr)) 2 wq 17 200 (bts [1,2,3]) qr {wk with op := 8} 2).pre := by dsimp only [roceSend] <;> decide +kernel
theorem wit_roceMarked : (roceMarked (up2 (hq (sE {eR with started := true}) qr)) 2 { wq with ecn := true } 17 200 (bts [1,2,3]) qr {wk with op := 8} 2).pre := by dsimp only [roceMarked] <;> decide +kernel
theorem wit_roceSlows : (roceSlows (up2 (hq sr q0)) 2 wq 17 q0).pre := by dsimp only [roceSlows] <;> decide +kernel
theorem wit_roceIcrcBad : (roceIcrcBad (up2 (hq sr q0)) 2 wq 17 (.ack 5)).pre := by dsimp only [roceIcrcBad] <;> decide +kernel
theorem wit_roceKeyBad : (roceKeyBad (up2 (hq sr q0)) 2 wq 17 200 5 0x30000 10 (bts [1,2,3]) q0 2).pre := by dsimp only [roceKeyBad] <;> decide +kernel
def qg : Qp := {q0 with retry := 2, sends := [wk]}
theorem wit_roceGivesUp : (roceGivesUp (up2 (hq (sE {eW with started := true}) qg)) 17 qg wk).pre := by dsimp only [roceGivesUp] <;> decide +kernel
theorem wit_roceRetryTimeout : (roceRetryTimeout (mm_ (up2 (hq (sE {eW with started := true}) qs))) 17 qs wk 2).pre := by dsimp only [roceRetryTimeout] <;> decide +kernel
def c1 : Cqe := {tag := 0x77, src := 2, status := 3, detail := 4, result := 5, result64 := 6}
theorem wit_cqeWrite : (cqeWrite {rg s1 1 0 6 5 17 3 with host := {s1.host with rings := [(3, {hold := [c1, c1]})]}} 3 c1 [c1]).pre := by
  dsimp only [cqeWrite]
  repeat' apply And.intro
  all_goals first
    | decide +kernel
    | exact no_cqRoom (by decide +kernel)
def sI : State := rg s1 1 (1 <<< 20 ||| 2 <<< 40) 6 5 7 3
theorem wit_ringIrqHoldoff : (ringIrqHoldoff {sI with host := {s1.host with masked := [], rings := [(3, {firstAt := some 3000, unnotified := 4})]}} 3 3000).pre := by dsimp only [ringIrqHoldoff] <;> decide +kernel
def two (s : State) : State := (s.setReg (rRing 3 2) (w2 1 (1 <<< 10))).setReg (rRing 4 2) (w2 1 (1 <<< 8))
theorem wit_vfFlr : (vfFlr (two sr) 0).pre := by dsimp only [vfFlr] <;> decide +kernel
theorem wit_vfEnableClear : (vfEnableClear (two sr)).pre := by dsimp only [vfEnableClear] <;> decide +kernel
theorem wit_pcieLinkDown : (pcieLinkDown (two sr)).pre := by dsimp only [pcieLinkDown] <;> decide +kernel
theorem wit_pcieLinkUp : (pcieLinkUp (two sr) 5 8).pre := by dsimp only [pcieLinkUp] <;> decide +kernel
theorem wit_msixVectorUnmask : (msixVectorUnmask {sr with host := {sr.host with masked := [(true, 0, 5), (false, 0, 7)], msixPending := [(false, 0, 7)]}} false 0 7).pre := by dsimp only [msixVectorUnmask] <;> decide +kernel

end P13

/-! ### The clauses of part 14 -/

namespace P14

def at_ (s : State) (ns : Nat) : State := {s with time := {s.time with running := true, ft := BitVec.ofNat 80 (ns * 65536), now := ns + 3}}
def s1 := (own (at_ s0 5000)).setReg (rPart 0 0x10) (9 ||| 2 <<< 32)
def noMask (s : State) : State := {s with host := {s.host with masked := []}}
def s2 : State := noMask (s1.setReg 0x010020 0)
def cl (c p n : Nat) : Wr := hw (c ||| p <<< 4 ||| n <<< 32)
theorem wit_ownClaim : (ownClaim s2 (cl 1 5 99)).pre := by dsimp only [ownClaim] <;> decide +kernel
theorem wit_ownClaimRefused : (ownClaimRefused s2 (cl 2 5 99)).pre := by dsimp only [ownClaimRefused] <;> decide +kernel
def clm (p : Nat) : Claim := {prio := p, nonce := 77, writtenAt := 100, standing := true}
def sE (cs : List (Nat × Claim)) : State := {s2.setReg 0x010020 4 with own := {s2.own with claims := cs, settleAt := some 4000}}
theorem wit_ownElectionSettle : (ownElectionSettle (sE [(2, clm 3)]) 2 4000 (clm 3)).pre := by dsimp only [ownElectionSettle] <;> decide +kernel
theorem wit_ownElectionOrder : (ownElectionOrder (sE [(1, clm 4), (2, clm 3)]) 1 2 4000 (clm 4) (clm 3)).pre := by dsimp only [ownElectionOrder] <;> decide +kernel
theorem wit_ownElectionVoid : (ownElectionVoid (sE [(1, {clm 4 with standing := false})]) 4000).pre := by dsimp only [ownElectionVoid] <;> decide +kernel
def late (s : State) : State := {s with time := {s.time with now := 3000000000}}
theorem wit_ownClaimExpiry : (ownClaimExpiry (late (sE [(1, clm 4)])) 1 (clm 4)).pre := by dsimp only [ownClaimExpiry] <;> decide +kernel
def sO (cs : List (Nat × Claim)) : State := {s2.setReg 0x010020 (1 ||| 2 <<< 2) with own := {s2.own with claims := cs, nonce := 42}}
theorem wit_ownHeartbeat : (ownHeartbeat (sO []) (hw (42 <<< 32))).pre := by dsimp only [ownHeartbeat] <;> decide +kernel
theorem wit_ownNonceRefused : (ownNonceRefused (sO []) (hw (41 <<< 32)) (.ownRelease (hw (41 <<< 32)))).pre := by dsimp only [ownNonceRefused] <;> decide +kernel
theorem wit_ownLapse : (ownLapse (late (sO [])) (hw 0) .ownLapse).pre := by dsimp only [ownLapse] <;> decide +kernel
theorem wit_ownHandover : (ownHandover (sO [(2, clm 3)]) (hw (42 <<< 32 ||| 2 ||| 2 <<< 2)) (clm 3)).pre := by dsimp only [ownHandover] <;> decide +kernel
def w2 (en : Nat := 1) (extra : Nat := 0) : Nat := 4 ||| 4 <<< 4 ||| en <<< 11 ||| 3 <<< 12 ||| 64 <<< 22 ||| extra
def two (s : State) : State := (s.setReg (rRing 3 2) (w2 1 (1 <<< 10))).setReg (rRing 4 2) (w2 1 (1 <<< 8))
theorem wit_pfFlr : (pfFlr (two (sO []))).pre := by dsimp only [pfFlr] <;> decide +kernel
theorem wit_i3cEntdaa : (i3cEntdaa s1 9).pre := by dsimp only [i3cEntdaa] <;> decide +kernel
theorem wit_i3cWrite : (i3cWrite s1 0x4C 0x010060 55).pre := by dsimp only [i3cWrite] <;> decide +kernel
theorem wit_i3cWriteBad : (i3cWriteBad s1 0x4C 0x010060 55 0).pre := by dsimp only [i3cWriteBad] <;> decide +kernel
theorem wit_i3cRead : (i3cRead s1 0x4C 0x010060).pre := by dsimp only [i3cRead] <;> decide +kernel
theorem wit_i3cReadBad : (i3cReadBad s1 0x4C []).pre := by dsimp only [i3cReadBad] <;> decide +kernel
def qq : SpdmReq := {path := .mctp, wellFormed := true}
theorem wit_spdmRequests : (spdmRequests s1 qq (.getVersion qq) 0).pre := by dsimp only [spdmRequests] <;> decide +kernel
theorem wit_spdmMalformed : (spdmMalformed s1 {qq with wellFormed := false} (.challenge {qq with wellFormed := false}) 5).pre := by dsimp only [spdmMalformed] <;> decide +kernel
/-- A management envelope of a command from node 5 (R104, R399). -/
def ve (cmd : Nat) (expiry : Nat := 6000) : Envelope :=
  { port := 2, wire := wr 7, sender := 0x20005, senderUdp := 51870, oxt := oxtHeader false 0xA 0 5 7 0 0 0 0 0 0 0 4747, sigOk := true
    hdr := beBytes 2 cmd ++ beBytes 2 3 ++ beBytes 8 10 ++ beBytes 2 7 ++ beBytes 8 expiry ++ beBytes 2 0 }
def sV : State := net s1
theorem wit_envelopeRefused : (envelopeRefused sV (ve 2 20) (.mgmtRegRead (ve 2 20) 0) 0 0 false (.cak 0 0) qq 2).pre := by dsimp only [envelopeRefused] <;> decide +kernel
def veB : Envelope := { ve 2 with wire := { wr 7 with fcsOk := false } }
theorem wit_envelopeDropped : (envelopeDropped sV veB (.mgmtRegRead veB 0) 0 0 false (.cak 0 0) qq (0x128, 32)).pre := by dsimp only [envelopeDropped] <;> decide +kernel
theorem wit_mgmtRegRead : (mgmtRegRead sV (ve 2) 0x440018).pre := by dsimp only [mgmtRegRead] <;> decide +kernel
theorem wit_keyInstall : (keyInstall sV (ve 4) 9 99).pre := by dsimp only [keyInstall] <;> decide +kernel
theorem wit_keyInstallPair : (keyInstallPair sV (ve 4) 9 99).pre := by dsimp only [keyInstallPair] <;> decide +kernel
theorem wit_mgmtSpdm : (mgmtSpdm sV (ve 6) qq).pre := by dsimp only [mgmtSpdm] <;> decide +kernel
theorem wit_registerWrite : (registerWrite s1 0x440018 (hw 0x12345)).pre := by dsimp only [registerWrite] <;> decide +kernel
theorem wit_registerWriteClamps : (registerWriteClamps s1 (hw 12)).pre := by dsimp only [registerWriteClamps] <;> decide +kernel
def s3 : State := s1.setReg 0x010020 2
theorem wit_registerWriteDenied : (registerWriteDenied s3 0x440018 (hw 5)).pre := by dsimp only [registerWriteDenied] <;> decide +kernel
theorem wit_registerWriteNowhere : (registerWriteNowhere s3 0x440019 (hw 5)).pre := by dsimp only [registerWriteNowhere] <;> decide +kernel
theorem wit_ownerOnly : (ownerOnly s3 (hw 5) 0 0 0 0 0 0 0 0 ⟨true, true, true, true, 0, 0⟩ true (.ctxStop 0 0 (hw 5))).pre := by dsimp only [ownerOnly] <;> decide +kernel
theorem wit_envelopeActs : (envelopeActs sV (ve 1) (.mgmtRegWrite (ve 1) 0x010018 5) (.registerWrite 0x010018 { path := .fabric, half := .all, val := 5 })
    1 0x010018 5 true).pre := by
  dsimp only [envelopeActs] <;> decide +kernel
theorem wit_envelopeActs_2 : (envelopeActs sV (ve 5) (.mgmtLcsReq (ve 5) 5 true) (.lcsReq { path := .fabric, half := .all, val := 5 } true) 5 0 5 true).pre := by
  dsimp only [envelopeActs] <;> decide +kernel

end P14

/-! ### The clauses of part 15 -/

namespace P15

def at_ (s : State) (ns : Nat) : State := {s with time := {s.time with running := true, ft := BitVec.ofNat 80 (ns * 65536), now := ns + 3}}
def noMask (s : State) : State := {s with host := {s.host with masked := []}}
def s1 := noMask ((own (at_ s0 5000)).setReg (rPart 0 0x10) (9 ||| 2 <<< 32))
def gw : Grant := {who := .window 5 3 0, mw := 1000, prio := 15, part := 0, askedAt := 4000}
def rsv : Grant := {who := .reservation 0, mw := 2000, prio := 0, part := 0, until_ := 4500}
def pw (s : State) (h w : List Grant) : State := {s with pw := {s.pw with held := h, waiting := w}}
def gx : Grant := {who := .window 6 3 0, mw := 500, prio := 15, part := 1}
theorem wit_pguGrant : (pguGrant (pw s1 [gx] [gw]) gw 5 3 0).pre := by dsimp only [pguGrant] <;> decide +kernel
def mdG (base rows cols stride fmt : Nat) (kcol : Bool := false) : Nat := base ||| rows <<< 64 ||| cols <<< 88 ||| stride <<< 128 ||| fmt <<< 192 ||| (if kcol then 1 <<< 196 else 0)
def scG : Nat := 0xD0000000000
def gmmG : Cmd := word [(0,0x23),(6,2),(9,4),(17,1),(24,0x80),(25,1)]
def heldG : Issued := {g := t0.g, numCtrl := 0, numSeed := 0, thresh := 0, items := [(0x100, mdG 0 64 3 8 1 true), (0x180, mdG 0 64 1 4 0)]}
def asyG : AsyncCmd := {w := gmmG, phase := .waitGrant, seq := 1, grant := true, held := some heldG}
def memG : State := poke (poke (poke (poke (poke s1 0x400 (le 64 (1 ||| 5 <<< 64 ||| 0x500 <<< 128 ||| 3 <<< 208)))
  0x440 (le 32 (1 ||| (scG + 0x1000) <<< 64 ||| (scG + 0x1200) <<< 128))) 0x500 (le 64 (mdG (scG + 0x1100) 3 1 8 1)))
  (scG + 0x1000) [0x80,0x3F,0,0x40,0x40,0x40]) (scG + 0x1100) [0x80,0x3F,0,0,0,0,0,0,0,0x40,0,0,0,0,0,0,0x40,0x40]
def ggG : Grant := {gw with who := .cmd 0 2, die := some 0}
def gmmS : State := pw {memG with threads := [(0, {t0 with asyncs := [(2, asyG)]})]} [gx] [ggG]
theorem wit_pguGrantGmm : (pguGrantGmm gmmS ggG gmmG {issOfKey 0 gmmG with held := some heldG} 2 asyG (mdescOf (BitVec.ofNat 512 (mdG 0 64 3 8 1 true))) (mdescOf (BitVec.ofNat 512 (mdG (scG + 0x1100) 3 1 8 1))) (mdescOf (BitVec.ofNat 512 (mdG 0 64 1 4 0)))).pre := by dsimp only [pguGrantGmm] <;> decide +kernel
theorem wit_pguGrantReserved : (pguGrantReserved (pw s1 [rsv] [gw]) gw rsv 5 3 0).pre := by dsimp only [pguGrantReserved] <;> decide +kernel
theorem wit_pguGrantWaits : (pguGrantWaits (pw s1 [] [{gw with mw := 100000000}]) {gw with mw := 100000000}).pre := by dsimp only [pguGrantWaits] <;> decide +kernel
theorem wit_pguReservationExpiry : (pguReservationExpiry (pw s1 [rsv] []) 0 rsv).pre := by dsimp only [pguReservationExpiry] <;> decide +kernel
theorem wit_pguResume : (pguResume (pw s1 [{gw with paused := true}] []) {gw with paused := true}).pre := by dsimp only [pguResume] <;> decide +kernel
def gk : Grant := {who := .wake 40, mw := 500, prio := 15, part := 0}
theorem wit_coreWake : (coreWake (pw s1 [] [gk]) 40 gk).pre := by dsimp only [coreWake] <;> decide +kernel
theorem wit_pguBaseUpdate : (pguBaseUpdate s1 5000 400).pre := by dsimp only [pguBaseUpdate] <;> decide +kernel
def gr : Grant := {who := .ringCopy 3 0, mw := 1000, prio := 15, part := 0, askedAt := 4000}
theorem wit_pwrPeak : (pwrPeak (pw s1 [gr] []) 7000 gr 3).pre := by dsimp only [pwrPeak] <;> decide +kernel
def tr : State := {s1 with pw := {s1.pw with tripSeen := [4,4]}}
def hb (c : Nat) : State := {s1.setReg 0x040038 c with mod := {s1.mod with phase := .held}}
theorem wit_inputPowerLoss : (inputPowerLoss s1 2000).pre := by dsimp only [inputPowerLoss] <;> decide +kernel
def offS : State := {State.reset with mod := {phase := .off}}
theorem wit_inputPowerUp : (inputPowerUp offS 4900).pre := by dsimp only [inputPowerUp] <;> decide +kernel
theorem wit_railLatchClear : (railLatchClear offS).pre := by dsimp only [railLatchClear] <;> decide +kernel
theorem wit_sagWarn : (sagWarn s1 4050).pre := by dsimp only [sagWarn] <;> decide +kernel
theorem wit_sagWarnClear : (sagWarnClear (s1.setReg 0x040020 1) 4800).pre := by dsimp only [sagWarnClear] <;> decide +kernel
theorem wit_pwrSagWrite : (pwrSagWrite s1 (hw (41000 ||| 38000 <<< 16 ||| 43000 <<< 32 ||| 50 <<< 48))).pre := by dsimp only [pwrSagWrite] <;> decide +kernel
theorem wit_coolantLow : (coolantLow s1 460 100).pre := by dsimp only [coolantLow] <;> decide +kernel
theorem wit_coolantLowClear : (coolantLowClear (s1.setReg 0x040020 128) 400 1000).pre := by dsimp only [coolantLowClear] <;> decide +kernel
theorem wit_sensorFault : (sensorFault s1 .inlet 36).pre := by dsimp only [sensorFault] <;> decide +kernel
theorem wit_sensorInput : (sensorInput s1).pre := by dsimp only [sensorInput] <;> decide +kernel
theorem wit_thermSample : (thermSample {s1 with pw := {s1.pw with coolSince := [(4, 10)]}} 4 60).pre := by dsimp only [thermSample] <;> decide +kernel
theorem wit_thermHot : (thermHot s1 4 103).pre := by dsimp only [thermHot] <;> decide +kernel
def big (s : State) : State := {s with time := {s.time with now := 20000000000}}
theorem wit_thermStep : (thermStep (big {s1 with pw := {s1.pw with hotSince := [(40, 10)]}}) 40 10).pre := by dsimp only [thermStep] <;> decide +kernel
def gd : Grant := {gr with die := some 4}
theorem wit_thermStepPauses : (thermStepPauses (big {s1 with pw := {s1.pw with hotSince := [(4, 10)], held := [gd]}}) 4 10 gd 3).pre := by dsimp only [thermStepPauses] <;> decide +kernel
theorem wit_regionCheck : (regionCheck {s1 with pw := {s1.pw with coolSince := [(4, 10)]}} 4 5 18 130 100).pre := by dsimp only [regionCheck] <;> decide +kernel
theorem wit_ageMonitorReport : (ageMonitorReport s1 4 3 20).pre := by dsimp only [ageMonitorReport] <;> decide +kernel
def wt (s : State) (l : List Nat) := {s with pw := {s.pw with planWanted := l}}
theorem wit_marginPlannerPass : (marginPlannerPass (wt s1 [4]) 4 40).pre := by dsimp only [marginPlannerPass] <;> decide +kernel
theorem wit_marginPlannerRaises : (marginPlannerRaises (wt s1 [4]) 4 4 40).pre := by dsimp only [marginPlannerRaises] <;> decide +kernel
theorem wit_planNow : (planNow s1 (hw (1 <<< 48))).pre := by dsimp only [planNow] <;> decide +kernel
theorem wit_opHoursTick : (opHoursTick s1).pre := by dsimp only [opHoursTick] <;> decide +kernel
theorem wit_holdsModule : (holdsModule s1 (.sagReset 3000) 1 0 0x0402 diePC).pre :=
  ⟨by decide +kernel, .inl ⟨3000, rfl, by decide +kernel, rfl, rfl, rfl, rfl⟩, by decide +kernel⟩
theorem wit_holdsModule_2 : (holdsModule s1 (.inputOv 6300) 2 0 0x0403 diePC).pre :=
  ⟨by decide +kernel, .inr (.inl ⟨6300, rfl, by decide +kernel, rfl, rfl, rfl, rfl⟩), by decide +kernel⟩
theorem wit_holdsModule_3 : (holdsModule s1 (.railFault 7) 3 7 0x0405 diePC).pre :=
  ⟨by decide +kernel, .inr (.inr (.inl ⟨7, rfl, rfl, rfl, rfl, rfl⟩)), by decide +kernel⟩
theorem wit_holdsModule_4 : (holdsModule tr (.thermTrip 4) 4 0 0x0409 4).pre :=
  ⟨by decide +kernel, .inr (.inr (.inr (.inl ⟨4, rfl, by decide +kernel, rfl, rfl, rfl, rfl⟩))), by decide +kernel⟩
theorem wit_holdsModule_5 : (holdsModule s1 (.mirrorLost .pc) 9 0 0x0007 diePC).pre :=
  ⟨by decide +kernel, .inr (.inr (.inr (.inr ⟨.pc, rfl, by decide +kernel, rfl, rfl, rfl, rfl⟩))), by decide +kernel⟩
theorem wit_heldEnds : (heldEnds (hb 1) (.sagResetRelease 4800) 1).pre :=
  ⟨by decide +kernel, .inl ⟨4800, rfl, rfl, by decide +kernel⟩, by decide +kernel⟩
theorem wit_heldEnds_2 : (heldEnds (hb 2) (.inputOvRelease 4800) 2).pre :=
  ⟨by decide +kernel, .inr (.inl ⟨4800, rfl, rfl, by decide +kernel⟩), by decide +kernel⟩
theorem wit_heldEnds_3 : (heldEnds (hb 4) (.pwrTripClr { path := .bmc, half := .all, val := 1 }) 4).pre :=
  ⟨by decide +kernel, .inr (.inr ⟨_, rfl, rfl, rfl, by decide +kernel, by decide +kernel⟩), by decide +kernel⟩
theorem wit_regionSevere : (regionSevere s1 4 5 31 0 0).pre := by
  dsimp only [regionSevere] <;> decide +kernel


end P15

/-! ### The clauses of part 16 -/

namespace P16

def at_ (s : State) (ns : Nat) : State := {s with time := {s.time with running := true, ft := BitVec.ofNat 80 (ns * 65536), now := ns + 3}}
def noMask (s : State) : State := {s with host := {s.host with masked := []}}
def s1 := noMask ((own (at_ s0 5000)).setReg (rPart 0 0x10) (9 ||| 2 <<< 32))
def rp : Report := {code := 0x1234, sev := 1, die := 4, unit := 2, part := some 3, addr := 0x1000, detail := 7, ft := 3000}
def er (s : State) (e : Err) : State := {s with err := e}
def e1 := er s1 {s1.err with inflight := [rp, rp]}
theorem wit_errorReport : (errorReport e1 rp [rp]).pre := by dsimp only [errorReport] <;> decide +kernel
theorem wit_errorReportMerges : (errorReportMerges {e1 with err := {e1.err with recs := [{rep := rp, count := 1, ftLast := 3}]}} rp [rp] {rep := rp, count := 1, ftLast := 3}).pre := by dsimp only [errorReportMerges] <;> decide +kernel
theorem wit_errorReportDropped : (errorReportDropped (e1.setReg 0x080008 (3 <<< 4)) rp [rp]).pre := by dsimp only [errorReportDropped] <;> decide +kernel
def rc : OpenRec := {rep := rp, count := 3, ftLast := 3500}
def ring (s : State) (h t ctl : Nat) := (((s.setReg 0x080000 (0xC00 <<< 32)).setReg 0x080018 h).setReg 0x080010 t).setReg 0x080008 ctl
def e2 := ring (er s1 {s1.err with recs := [rc], slot0Free := false}) 5 8 (1 ||| 2 <<< 8 ||| 1 <<< 32)
theorem wit_errRecordClose : (errRecordClose e2 rc).pre := by dsimp only [errRecordClose] <;> decide +kernel
theorem wit_errRecordDropped : (errRecordDropped (ring e2 5 8195 1) rc).pre := by dsimp only [errRecordDropped] <;> decide +kernel
theorem wit_errRecordOff : (errRecordOff (ring e2 5 8195 0) rc).pre := by dsimp only [errRecordOff] <;> decide +kernel
theorem wit_erqIrqHoldoffEnd : (erqIrqHoldoffEnd (ring (er s1 {s1.err with irqDue := true, lastIrq := some 1000}) 0 0 (1 <<< 32)) 1000).pre := by dsimp only [erqIrqHoldoffEnd] <;> decide +kernel
def ctl (v : Nat) := hw (v ||| 5 <<< 32)
theorem wit_errCtrlErqEn : (errCtrlErqEn (ring s1 4 9 0) (ctl 1)).pre := by dsimp only [errCtrlErqEn] <;> decide +kernel
theorem wit_errClears : (errClears (ring s1 4 9 1) (ctl 3) (.errFirstClr (ctl 3))).pre := by dsimp only [errClears] <;> decide +kernel
theorem wit_errErqHeadWrite : (errErqHeadWrite (ring s1 4 9 0) (hw 8)).pre := by dsimp only [errErqHeadWrite] <;> decide +kernel
theorem wit_mirrorTakeover : (mirrorTakeover s1 .mg).pre := by dsimp only [mirrorTakeover] <;> decide +kernel
def md (s : State) (m : Mod) : State := {s with mod := m}
def bt : State := md s1 {phase := .boot, fwDone := true}
theorem wit_dieReadyReport : (dieReadyReport bt 5).pre := by dsimp only [dieReadyReport] <;> decide +kernel
theorem wit_alignTick : (alignTick (md bt {bt.mod with alignAt := some 3000}) 3000).pre := by dsimp only [alignTick] <;> decide +kernel
theorem wit_alignLatencyRecord : (alignLatencyRecord (md bt {bt.mod with aligned := true, alignedAt := 2000}) [(3,4,50), (99,1,7)]).pre := by dsimp only [alignLatencyRecord] <;> decide +kernel
theorem wit_alignReadyTimeout : (alignReadyTimeout (md bt {bt.mod with alignFails := 1, readyDies := [3]})).pre := by dsimp only [alignReadyTimeout] <;> decide +kernel
theorem wit_alignFails : (alignFails (md bt {bt.mod with alignFails := 2, readyDies := [3, 0]})).pre := by dsimp only [alignFails] <;> decide +kernel
def cr (s : State) : State := md s {s.mod with coldReq := some 3}
theorem wit_coldReset : (coldReset (cr s1) 3 0).pre := by dsimp only [coldReset] <;> decide +kernel
theorem wit_coldResetSealed : (coldResetSealed {cr s1 with nv := {s1.nv with sealedIn := some 1}} 3 0 1).pre := by dsimp only [coldResetSealed] <;> decide +kernel
theorem wit_coldResetTransition : (coldResetTransition {cr s1 with nv := {s1.nv with lcPending := some 3}} 3 3 0).pre := by dsimp only [coldResetTransition] <;> decide +kernel
theorem wit_warmReset : (warmReset (md (ring s1 4 9 1) {s1.mod with warmReq := true})).pre := by dsimp only [warmReset] <;> decide +kernel
theorem wit_lcsReset : (lcsReset s1 (hw 1) (.lcsResetCold (hw 1))).pre := by dsimp only [lcsReset] <;> decide +kernel
def img : FwImage := ⟨true,true,true,true,5,77⟩
def ib : FwImage := ⟨true,true,false,true,5,77⟩
def b2 : State := md s1 {phase := .boot}
theorem wit_fwImageCheck : (fwImageCheck b2 img).pre := by dsimp only [fwImageCheck] <;> decide +kernel
theorem wit_fwImageBad : (fwImageBad b2 ib).pre := by dsimp only [fwImageBad] <;> decide +kernel
theorem wit_fwImagesBad : (fwImagesBad (md b2 {b2.mod with fwTried := 1}) ib).pre := by dsimp only [fwImagesBad] <;> decide +kernel
def tr : State := md s1 {phase := .boot, fwDone := true, aligned := true, trainFails := 1}
theorem wit_memTraining : (memTraining tr true 4).pre := by dsimp only [memTraining] <;> decide +kernel
theorem wit_memTrainingFails : (memTrainingFails (md tr {tr.mod with trainFails := 2}) 64).pre := by dsimp only [memTrainingFails] <;> decide +kernel
def rdy : State := md (poke tr 0x1000 [4,5,6]) {tr.mod with trained := true, planned := true}
theorem wit_bootReady : (bootReady rdy).pre := by dsimp only [bootReady] <;> decide +kernel
theorem wit_bootWipeFails : (bootWipeFails rdy).pre := by dsimp only [bootWipeFails] <;> decide +kernel
def lc (s : State) := (s.setReg 0x020028 0).setReg 0x020020 0
theorem wit_fwWrite : (fwWrite (lc s1) (hw (1 ||| 100 <<< 16)) img).pre := by dsimp only [fwWrite] <;> decide +kernel
theorem wit_fwWriteBad : (fwWriteBad (lc s1) (hw (1 ||| 100 <<< 16)) ib).pre := by dsimp only [fwWriteBad] <;> decide +kernel
theorem wit_fwWriteDone : (fwWriteDone (md s1 {s1.mod with fwBusy := true, fwStaged := some (7, 3)}) true (7, 3)).pre := by dsimp only [fwWriteDone] <;> decide +kernel
theorem wit_fwActivate : (fwActivate s1 (hw 2)).pre := by dsimp only [fwActivate] <;> decide +kernel
theorem wit_fwBusyRefused : (fwBusyRefused (md s1 {s1.mod with fwBusy := true}) (hw 2)).pre := by dsimp only [fwBusyRefused] <;> decide +kernel
theorem wit_svnCommit : (svnCommit (s1.setReg 0x020000 (5 <<< 16)) (hw 4)).pre := by dsimp only [svnCommit] <;> decide +kernel
def go (t : Nat) := hw (t ||| 8 ||| (0xC00 <<< 32 + 4096) <<< 12)
theorem wit_lcsReq : (lcsReq s1 (hw (3 ||| 8 ||| (0xC00 <<< 32 + 4096) <<< 12))).pre := by dsimp only [lcsReq] <;> decide +kernel
theorem wit_lcsReqRefused : (lcsReqRefused s1 (hw (3 ||| 8 ||| (0xC00 <<< 32 + 4096) <<< 12)) false).pre := by dsimp only [lcsReqRefused] <;> decide +kernel

end P16

/-! ### The clauses of part 17 -/

namespace P17

def qs (n : Nat) (d : Queue) (s : State := s0) : State := ((s.setReg (rQueue 5 0) (0xC0000000000 ||| n <<< 56 ||| 1 <<< 61)).setQueue 5 d)
def it (l g : Bool) : QItem := {data := 7, last := l, gap := g}
def wcg := word [(0,5),(4,5),(6,2),(9,1)]
def wcg2 := word [(0,5),(4,5),(6,2),(9,1),(8,1)]
def wcp := word [(0,6),(4,5),(6,2)]
def wqp := word [(0,0x18),(4,5),(6,5),(7,0),(16,2)]
def wqo := word [(0,0x19),(4,5),(6,1),(7,8),(16,20)]
def wqd := word [(0,0x1A),(4,5)]
def wqf := word [(0,0x1B),(4,5),(6,3)]
theorem wit_staleFiresOnce : (staleFiresOnce (qs 3 {items := [it true false], staleFired := true}) 5).pre := by dsimp only [staleFiresOnce] <;> decide +kernel
theorem wit_pushBeginsStaleTime : (pushBeginsStaleTime (qs 3 {head := 7, since := 7}) th0 wqp (iss wqp) 0).pre := by dsimp only [pushBeginsStaleTime] <;> decide +kernel
theorem wit_pushKeepsStaleTime : (pushKeepsStaleTime (qs 3 {head := 7, items := [it true false]}) th0 wqp (iss wqp) 0).pre := by dsimp only [pushKeepsStaleTime] <;> decide +kernel
theorem wit_popRearmsStaleTime : (popRearmsStaleTime (qs 3 {head := 7, staleFired := true, items := [it true true, it true false]}) th0 wqo (iss wqo) (it true true) [it true false]).pre := by dsimp only [popRearmsStaleTime] <;> decide +kernel
def ent (s : State) (e fire period count action armed part target arg : Nat) : State :=
  ((s.setReg (rSet e 0) fire).setReg (rSet e 1) (period ||| count <<< 40)).setReg (rSet e 2) (action ||| armed <<< 4 ||| part <<< 8 ||| target <<< 16 ||| arg <<< 32)
def at_ (s : State) (ns : Nat) : State := {s with time := {s.time with running := true, ft := BitVec.ofNat 80 (ns * 65536), now := ns + 3}}
def s1 := own (at_ s0 5000)
def job (s : State) : State := s.setReg (rPart 0 0x10) (9 ||| 2 <<< 32)
def mode (s : State) (m : Nat) : State := {s with parts := [(0, {part0 with execMode := BitVec.ofNat 64 m})]}
theorem wit_firedBoundaryCounts : (firedBoundaryCounts (mode (job (ent s1 3 4995 0 0 2 1 0 7 0)) 0) 3).pre := by dsimp only [firedBoundaryCounts] <;> decide +kernel
theorem wit_heldBoundaryCounts : (heldBoundaryCounts (let s := (mode (job s1) 4); {s with parts := [(0, {part0 with stepNo := 0xFFFFFFFFFFFF, execMode := 4, held := true}), (1, {part0 with stepNo := 4})]}) 0).pre := by dsimp only [heldBoundaryCounts] <;> decide +kernel
theorem wit_pacedBoundaryCounts : (pacedBoundaryCounts (mode (job s1) (1 ||| 200 <<< 16)) 0).pre := by dsimp only [pacedBoundaryCounts] <;> decide +kernel

end P17

end Sys2Proof.Tests
end

section
/-!
SUPPORT. Writes of set-up registers: what a plain write makes of a field, what a refused write changes, which rule the word at an offset
has, and O51.
-/

namespace Sys2Proof

/-! ## Bit ranges, bit by bit -/

theorem testBit_bitsOf (n lo len i : Nat) : (bitsOf n lo len).testBit i = (decide (i < len) && n.testBit (lo + i)) := by
  rw [bitsOf, Nat.testBit_mod_two_pow, Nat.testBit_shiftRight]

/-- A range below bit `m` does not see a number cut to `m` bits. -/
theorem bitsOf_mod_two_pow (n lo len m : Nat) (h : lo + len ≤ m) : bitsOf (n % 2 ^ m) lo len = bitsOf n lo len := by
  refine Nat.eq_of_testBit_eq fun i => ?_
  rw [testBit_bitsOf, testBit_bitsOf, Nat.testBit_mod_two_pow]
  by_cases hi : i < len
  · simp [show lo + i < m by omega]
  · simp [hi]

end Sys2Proof

namespace Sys2Proof.Machine

open Sys2Proof.Claims

variable {s : State} {w : Wr} {off lo len : Nat}

/-! ## Pieces of the state -/

theorem onlyChanges_regs (s : State) (r : Tbl Word) : OnlyChanges s { s with regs := r } [.regs] := by
  intro x hx
  cases x with
  | regs => exact absurd (List.mem_singleton_self _) hx
  | mem => exact fun _ => rfl
  | threads => exact ⟨rfl, rfl⟩
  | _ => rfl

theorem onlyChanges_regs_err (s : State) (r : Tbl Word) (e : Err) : OnlyChanges s { s with regs := r, err := e } [.regs, .err] := by
  intro x hx
  cases x with
  | regs => exact absurd (by decide) hx
  | err => exact absurd (by decide) hx
  | mem => exact fun _ => rfl
  | threads => exact ⟨rfl, rfl⟩
  | _ => rfl

/-! ## Plain writes (R9, R402) -/

theorem fieldOf_setReg_same (v : Nat) (h : Rising s.regs) (hw : lo + len ≤ 64) :
    fieldOf (s.setReg off v) off lo len = bitsOf v lo len := by
  rw [fieldOf, regOf_setReg_same _ _ _ h, BitVec.toNat_ofNat, bitsOf_mod_two_pow _ _ _ _ hw]

theorem testBit_fm (lo len i : Nat) : (fm lo len).testBit i = (decide (lo ≤ i) && decide (i < lo + len)) := by
  rw [fm, Nat.testBit_shiftLeft, Nat.testBit_two_pow_sub_one]
  by_cases hi : lo ≤ i
  · simp [hi, show i - lo < len ↔ i < lo + len by omega]
  · simp [hi]

theorem testBit_allOnes {i : Nat} (hi : i < 64) : Nat.testBit 0xFFFFFFFFFFFFFFFF i = true := by
  rw [show 0xFFFFFFFFFFFFFFFF = 2 ^ 64 - 1 by norm_num, Nat.testBit_two_pow_sub_one, decide_eq_true hi]

/-- A bit after a plain write: an RW bit that is covered takes the written value, an RW1C bit written 1 clears. -/
theorem testBit_plainWrite {r : RegRow} (h : regRow off = some r) (old : Nat) (w : Wr) {i : Nat} (hi : i < 64) :
    (plainWrite off old w).testBit i =
      ((if r.rw.testBit i && (halfMask w.half).testBit i then w.val.toNat.testBit i else old.testBit i) &&
        !((wrVal w).testBit i && r.w1c.testBit i)) := by
  simp only [plainWrite, h, Nat.testBit_and, Nat.testBit_or, Nat.testBit_xor, testBit_allOnes hi, Bool.true_xor]
  cases r.rw.testBit i && (halfMask w.half).testBit i <;> simp

/-- A field of RW bits takes what a write of the whole word carries for it. -/
theorem bitsOf_plainWrite_rw {r : RegRow} (h : regRow off = some r) (old : Nat) (hw : w.half = .all) (hl : lo + len ≤ 64)
    (hrw : ∀ i, lo ≤ i → i < lo + len → r.rw.testBit i = true ∧ r.w1c.testBit i = false) :
    bitsOf (plainWrite off old w) lo len = wrBits w lo len := by
  refine Nat.eq_of_testBit_eq fun i => ?_
  rw [wrBits, testBit_bitsOf, testBit_bitsOf]
  by_cases hi : i < len
  · obtain ⟨hr, hc⟩ := hrw (lo + i) (by omega) (by omega)
    have hb : Nat.testBit 0xFFFFFFFFFFFFFFFF (lo + i) = true := testBit_allOnes (by omega)
    rw [testBit_plainWrite h old w (by omega), hr, hc, wrVal, hw, halfMask, Nat.testBit_and, hb]
    simp
  · simp [hi]

theorem run_storeWord (off : Nat) (w : Wr) (s : State) (k : Unit → Prog) :
    Prog.run (storeWord off w k) s = Prog.run (k ()) (s.setReg off (plainWrite off (regOf s off).toNat w)) := rfl

theorem run_clampF (off lo len low high : Nat) (s : State) (k : Unit → Prog) :
    Prog.run (clampF off lo len low high k) s = Prog.run (k ()) (s.setField off lo len (min high (max low (fieldOf s off lo len)))) := rfl

/-! ## Refused writes (R337) -/

/-- A refused write is counted and reported, and changes nothing else. -/
theorem ownDenied_denied (s : State) (hc : Canon s) : ∃ t, finish ownDenied s = .next t ∧ Denied s t := by
  have hr := hc.rising
  have hrun : finish ownDenied s = .next (Prog.run (raise 0x0101 0 dieMG 0 none 0 0 fun _ => .done)
      (s.setField 0x010060 0 32 (min 0xFFFFFFFF (fieldOf s 0x010060 0 32 + 1)))) := rfl
  set u := s.setField 0x010060 0 32 (min 0xFFFFFFFF (fieldOf s 0x010060 0 32 + 1)) with hu
  obtain ⟨r, ⟨hsame, -⟩, ht⟩ := run_raise u 0x0101 0 dieMG 0 none 0 0 (by omega) (fun _ => .done)
  refine ⟨_, hrun.trans (congrArg _ ht), ?_, rfl, ?_, ?_⟩
  · have hcount : fieldOf { u with regs := r } 0x010060 0 32 = fieldOf u 0x010060 0 32 := by
      rw [fieldOf, hsame 0x010060 (by decide) (by decide), fieldOf]
    refine hcount.trans ?_
    rw [hu, fieldOf_setField_same _ _ _ _ _ hr (by omega)]
    omega
  · intro off hoff
    simp only [errSrc, List.mem_cons, List.not_mem_nil, or_false, not_or] at hoff
    obtain ⟨h60, h0, h8⟩ := hoff
    exact (hsame off h0 h8).trans (regOf_setReg_ne _ _ _ _ h60)
  · exact onlyChanges_regs_err s r _

theorem answers_denied {c : Instr} (h : exec c s = finish ownDenied s) (hc : Canon s) : Answers c s (Denied s) := by
  obtain ⟨t, ht, hdenied⟩ := ownDenied_denied s hc
  exact ⟨t, h.trans ht, hdenied⟩

theorem finish_ownerWrite_denied (a : Act Unit) (hup : pathUp s w.path = true) (hown : isOwner s w.path = false) :
    finish (ownerWrite w.path a) s = finish ownDenied s := by
  simp [finish_eq, ownerWrite, ite_act, hup, hown]

theorem finish_ownerWrite_owner (a : Act Unit) (h : ByOwner s w.path) : finish (ownerWrite w.path a) s = finish a s := by
  obtain ⟨hup, hown⟩ := h
  simp [finish_eq, ownerWrite, ite_act, hup, hown]

/-- Each command that writes an owner's register goes through the ownership check. -/
theorem exec_isOwnerCmd {p : Fin 64} {a8 : Fin 8} {a4 : Fin 4} {c16 : Fin 16} {c12 : Fin 12} {e : Fin 1024} {rc : Fin 256} {q : Fin 4096}
    {img : FwImage} {ok : Bool} {c : Instr} (h : IsOwnerCmd w p a8 a4 c16 c12 e rc q img ok c) (s : State) :
    ∃ a, exec c s = finish (ownerWrite w.path a) s := by
  rcases h with rfl | rfl | rfl | rfl | rfl | rfl | rfl | rfl | rfl | rfl | rfl | rfl | rfl | rfl | rfl | rfl | rfl | rfl | rfl | rfl | rfl |
    rfl | rfl | rfl | rfl | rfl | rfl | rfl <;> exact ⟨_, rfl⟩

/-! ## The rule of the word at an offset (R337, R401, R406) -/

/-- The offsets whose writes have an ownership rule of their own. -/
abbrev OwnRule (off : Nat) : Prop := off ∈ [0x010000, 0x010008, 0x010010, 0x010020, 0x020018, 0x040040]

/-- The ring descriptors. -/
abbrev RingDesc (off : Nat) : Prop := 0x100000 ≤ off ∧ off < 0x110000

/-- Every other register is the owner's. -/
theorem barWrite_of_owner (w : Wr) (h : ¬ OwnRule off) (hr : ¬ RingDesc off) :
    barWrite off w = if (regRow off).isSome || pathCode w.path = 0 then ownerWrite w.path (ownerWord off w) else pure () := by
  unfold barWrite
  split
  case h_7 => rw [if_neg (by simpa using hr)]
  all_goals exact absurd (by decide) h

theorem exec_registerWrite_of_owner {o : BitVec 24} (s : State) (ha : o.toNat % 8 = 0) (h : ¬ OwnRule o.toNat) (hr : ¬ RingDesc o.toNat)
    (hreg : (regRow o.toNat).isSome = true ∨ pathCode w.path = 0) :
    exec (.registerWrite o w) s = finish (ownerWrite w.path (ownerWord o.toNat w)) s := by
  have hcond : ((regRow o.toNat).isSome || pathCode w.path = 0) = true := by simpa using hreg
  show finish (if o.toNat % 8 = 0 then barWrite o.toNat w else pure ()) s = _
  rw [if_pos ha, barWrite_of_owner w h hr, if_pos hcond]

/-- The words of the node's address block have no rule of their own. -/
theorem finish_ownerWord_address {off : Nat} (w : Wr) (s : State) (h : off = 0x440018 ∨ off = 0x440020 ∨ off = 0x440028 ∨ off = 0x440030) :
    finish (ownerWord off w) s = .next (s.setReg off (plainWrite off (regOf s off).toNat w)) := by
  rcases h with rfl | rfl | rfl | rfl <;> rfl

/-! ## The clauses of O51 -/

theorem ownerOnly_holds (s : State) (w : Wr) (p : Fin 64) (a8 : Fin 8) (a4 : Fin 4) (c16 : Fin 16) (c12 : Fin 12) (e : Fin 1024)
    (rc : Fin 256) (q : Fin 4096) (img : FwImage) (ok : Bool) (c : Instr) : (ownerOnly s w p a8 a4 c16 c12 e rc q img ok c).Holds := by
  rintro ⟨hcmd, hup, hown, hc⟩
  obtain ⟨a, ha⟩ := exec_isOwnerCmd hcmd s
  exact answers_denied (ha.trans (finish_ownerWrite_denied a hup hown)) hc

theorem registerWrite_holds (s : State) (off : BitVec 24) (w : Wr) : (registerWrite s off w).Holds := by
  rintro ⟨howner, hoff⟩
  have hplace : off.toNat % 8 = 0 ∧ ¬ OwnRule off.toNat ∧ ¬ RingDesc off.toNat ∧ (regRow off.toNat).isSome = true ∧
      (off.toNat = 0x440018 ∨ off.toNat = 0x440020 ∨ off.toNat = 0x440028 ∨ off.toNat = 0x440030) := by
    rcases hoff with rfl | rfl | rfl | rfl <;> decide
  obtain ⟨ha, hrule, hring, hreg, haddr⟩ := hplace
  show exec (.registerWrite off w) s = _
  rw [exec_registerWrite_of_owner s ha hrule hring (.inl hreg), finish_ownerWrite_owner _ howner, finish_ownerWord_address w s haddr]

theorem registerWriteClamps_holds (s : State) (w : Wr) : (registerWriteClamps s w).Holds := by
  rintro ⟨howner, hall, hc⟩
  have hr := hc.rising
  have hexec : exec (.registerWrite 0x010018 w) s = finish (ownCfgWrite w) s :=
    (exec_registerWrite_of_owner s (by decide) (by decide) (by decide) (.inl (by decide))).trans (finish_ownerWrite_owner _ howner)
  set u := s.setReg 0x010018 (plainWrite 0x010018 (regOf s 0x010018).toNat w) with hu
  have hur : Rising u.regs := setReg_rising _ _ _ hr
  have hwritten : fieldOf u 0x010018 0 32 = wrBits w 0 32 := by
    rw [hu, fieldOf_setReg_same _ hr (by omega)]
    refine bitsOf_plainWrite_rw (r := ⟨"OWN_CFG", 0x010018, 8, 1, 8, 1, 0x7D0, fm 0 32, 0, 0⟩) (by decide) _ hall (by omega) fun i _ hi => ?_
    simp [testBit_fm, show i < 32 by omega]
  refine ⟨u.setField 0x010018 0 32 (min 600000 (max 100 (fieldOf u 0x010018 0 32))), hexec, ?_, ?_, ?_⟩
  · rw [fieldOf_setField_same _ _ _ _ _ hur (by omega), hwritten]
    omega
  · intro x hx
    have hne : x ≠ 0x010018 := by simpa using hx
    exact (regOf_setReg_ne _ _ _ _ hne).trans (regOf_setReg_ne _ _ _ _ hne)
  · exact onlyChanges_regs s _

theorem registerWriteDenied_holds (s : State) (off : BitVec 24) (w : Wr) : (registerWriteDenied s off w).Holds := by
  rintro ⟨hup, hown, ha, hreg, hrule, hring, hc⟩
  have hexec := exec_registerWrite_of_owner s ha hrule (by omega) hreg
  exact answers_denied (hexec.trans (finish_ownerWrite_denied _ hup hown)) hc

theorem registerWriteNowhere_holds (s : State) (off : BitVec 24) (w : Wr) : (registerWriteNowhere s off w).Holds := by
  intro h
  show finish (if off.toNat % 8 = 0 then barWrite off.toNat w else pure ()) s = _
  rcases h with hmis | ⟨hnone, hpath, hring, hrule⟩
  · rw [if_neg hmis]
    rfl
  · have hcond : ¬ ((regRow off.toNat).isSome || pathCode w.path = 0) = true := by simp [hnone, hpath]
    rw [barWrite_of_owner w hrule (by omega), if_neg hcond, ite_self]
    rfl

/-- Settles O51, clause by clause: every write of an owner's register goes through `ownerWrite`, which refuses anyone else. -/
theorem onlyTheOwnerWrites : Obligations.OnlyTheOwnerWrites := by
  unfold Obligations.OnlyTheOwnerWrites
  intro s w c p a8 a4 c16 c12 e rc q img ok off
  exact ⟨ownerOnly_holds s w p a8 a4 c16 c12 e rc q img ok c, registerWrite_holds s off w, registerWriteClamps_holds s w,
    registerWriteDenied_holds s off w, registerWriteNowhere_holds s off w⟩

end Sys2Proof.Machine
end

section
/-!
SUPPORT. O36: a received share that lies in pieces.
-/

namespace Sys2Proof.Machine

open Sys2Proof.Claims

/-! ### A return share that lies in one piece elsewhere than its buffer

`oxtDataRx` and `oxtDataLast` place the bytes of a frame at `x.buf + OFFSET`, but put no hypothesis on `x.pieces`, and `pieceBytes` places them
in the pieces wherever there are any (R108). -/

/-- OXT_DATA_RX is the receipt of a share's frame that is no contribution to a reduction. -/
theorem exec_oxtDataRx (x : ShareFrame) (s : State) :
    exec (.oxtDataRx x) s = finishIf (oxtIs 0 x.frame) (shareFrameRx x.frame false x.upsets) s := rfl

/-- A return share from rank 1 whose bytes belong at 0xA000. -/
def piecedShare : RxShare := { src := 1, buf := 0x9000, npos := 1, bytes := 9000, form := 1, pieces := [(0xA000, 9000)], need := [0, 1] }

/-- The window 11 of group 5 that awaits the share. -/
def piecedLaunch : Launch :=
  { h := 5, part := 0, setId := 3, tag := 0x55, kind := .ret, phase := .opened, window := 11, slotNs := 5000, rx := [piecedShare] }

/-- Group 5: enabled, of two ranks, node 7 (this device) and node 5. -/
def piecedGroup : Group := { desc := BitVec.ofNat 512 (1 <<< 6 ||| 1 <<< 16), members := [7, 5], wins := [(11, 100)] }

/-- Node 7 with port 2 UP and secured, and job generation 9 running in partition 0. -/
def piecedState : State :=
  (({ State.reset with ports := [(2, { rxSas := [0] })], groups := [(5, piecedGroup)], launches := [piecedLaunch] }.setReg
    (rPort 2 8) 6).setReg 0x440028 7).setReg (rPart 0 0x10) (9 ||| 2 <<< 32)

/-- The share's frame 0 comes from node 5: three bytes for offset 4. -/
def piecedFrame : Sys2Proof.Frame :=
  { port := 2, wire := { pcp := 6, dst := 0x20007 }, bytes := oxtHeader false 0 0 5 7 5 9 0 0 11 0 4 3 ++ [9, 8, 7] }

/-- The frame meets the receive checks, and names the group and its partition's job (R107, R128, R300). -/
theorem forGroup_pieced : ForGroup piecedState piecedFrame 0 5 := by
  refine ⟨?_, ?_, ?_, ?_, ?_, ?_, ?_, ?_, ?_⟩ <;> decide +kernel

/-- It is rank 1's, for the open window. -/
theorem forLaunch_pieced : ForLaunch piecedState piecedFrame 0 5 1 piecedLaunch := by
  refine ⟨forGroup_pieced, ?_, ?_, ?_, rfl, rfl, .inl rfl, rfl, rfl, rfl, ?_⟩ <;> decide +kernel

/-- The state meets every hypothesis that the clause makes. -/
theorem oxtDataRx_pre_pieced : (oxtDataRx piecedState piecedFrame 5 1 piecedLaunch piecedShare).pre := by
  refine ⟨forLaunch_pieced, rfl, rfl, rfl, rfl, rfl, ?_, rfl, ?_, ⟨1, ?_⟩, ?_, ?_, ?_, rfl, ?_⟩ <;> decide +kernel

/-- The frame's bytes come to lie in the piece, and the buffer keeps its zeros. -/
theorem memBytes_of_pieced {t : State} (h : exec (.oxtDataRx ⟨piecedFrame, []⟩) piecedState = .next t) :
    memBytes t 0xA004 3 = [9, 8, 7] ∧ memBytes t 0x9004 3 = [0, 0, 0] := by
  rw [exec_oxtDataRx] at h
  obtain ⟨-, ht⟩ := finishIf_next h
  rw [ht]
  decide +kernel

/-- Refutes O36: nothing in `oxtDataRx` says that the share does not lie in pieces, and the bytes of one that does go to its pieces. -/
theorem not_exchangeFrames : ¬ Obligations.ExchangeFrames := by
  unfold Obligations.ExchangeFrames
  intro h
  obtain ⟨-, -, hData, -⟩ := h piecedState piecedFrame 5 1 0 piecedLaunch piecedShare { dst := 0, frames := [] } false 0 0 0 0 0 0 0 0 0 0 0 []
  obtain ⟨t, ht, -, hBuffer, -⟩ := hData oxtDataRx_pre_pieced
  obtain ⟨-, hZero⟩ := memBytes_of_pieced ht
  have hPayload : memBytes t 0x9004 3 = [9, 8, 7] := hBuffer
  rw [hZero] at hPayload
  exact absurd hPayload (by decide)

end Sys2Proof.Machine
end

section
/-!
SUPPORT. O28: an image without layers where a teardown's wipe has not come yet.
-/

namespace Sys2Proof.Machine

open Sys2Proof.Claims

/-! ### A commit's read of tier 3 that a teardown has still to wipe

`eptPrepareFails` puts no hypothesis on tier 3 (`eptPrepareDone` and `eptCommits` have `CleanMem`). The read of the image waits for the wipe
of a teardown (R258, R301), which here clears a byte of the image's first granule. -/

/-- The image's base: the first byte of tier 3. -/
def wipedBase : Nat := 4 * 2 ^ 40

/-- A commit of partition 0 is being prepared from a base whose granule waits for the wipe of a teardown; the granule's last byte is 7, and
the image has no layers. -/
def wipedState : State :=
  { (State.reset.setReg (rEptCommit 0) (1 <<< 32)) with
    parts := [(0, { eptPrep := wipedBase })], mem2 := { t3Part := [(wipedBase, 64)] }, mem := [(wipedBase + 63, 7)] }

/-- The state meets every hypothesis that the clause makes. -/
theorem eptPrepareFails_pre_wiped : (eptPrepareFails wipedState 1 0).pre := by
  refine ⟨?_, ?_, .inl ?_, ?_⟩ <;> decide +kernel

theorem exec_eptPrepareDone (se : Fin 4) (p : Fin 64) (s : State) : exec (.eptPrepareDone se p) s = finish (prepareDone se p) s := rfl

/-- The die's read of the image lets the wipe come: the byte reads 0. -/
theorem memAt_of_wiped {t : State} (h : exec (.eptPrepareDone 1 0) wipedState = .next t) : memAt t (wipedBase + 63) = 0 := by
  rw [exec_eptPrepareDone, finish_eq] at h
  injection h with h
  rw [← h]
  decide +kernel

/-- Refutes O28: `eptPrepareFails` says that memory is left as it was, and the read of an image in tier 3 that a teardown has still to wipe
lets the wipe clear a byte. -/
theorem not_expertPlacementTable : ¬ Obligations.ExpertPlacementTable := by
  unfold Obligations.ExpertPlacementTable
  intro h
  obtain ⟨-, -, -, -, hFails, -⟩ := h wipedState 1 0 { path := .host, half := .all, val := 0 } 0
    { rctx := 0, tag := 0, part := 0, layer := 0, ntok := 0, payload := 0, out := 0, thread := 0, slot := 0, phase := .reading }
  obtain ⟨t, ht, -, -, -, hOnly⟩ := hFails eptPrepareFails_pre_wiped
  have hKept : memAt t (wipedBase + 63) = memAt wipedState (wipedBase + 63) := hOnly .mem (by decide) _
  rw [memAt_of_wiped ht] at hKept
  exact absurd hKept (by decide)

end Sys2Proof.Machine
end

section
/-!
SUPPORT. Frames: which pieces of a state, and which registers, a run leaves as they were.
-/

namespace Sys2Proof.Machine

open Sys2Proof.Claims

/-! ## Pieces -/

/-- One state with the listed pieces of another. -/
def State.take (s t : State) (may : List Piece) : State :=
  { t with
    regs := if .regs ∈ may then t.regs else s.regs, mem := if .mem ∈ may then t.mem else s.mem
    mem2 := if .mem2 ∈ may then t.mem2 else s.mem2, time := if .time ∈ may then t.time else s.time
    mod := if .mod ∈ may then t.mod else s.mod, nv := if .nv ∈ may then t.nv else s.nv
    own := if .own ∈ may then t.own else s.own, err := if .err ∈ may then t.err else s.err
    pw := if .pw ∈ may then t.pw else s.pw, host := if .host ∈ may then t.host else s.host
    fab := if .fab ∈ may then t.fab else s.fab, threads := if .threads ∈ may then t.threads else s.threads
    turns := if .threads ∈ may then t.turns else s.turns, pips := if .pips ∈ may then t.pips else s.pips
    vbufs := if .vbufs ∈ may then t.vbufs else s.vbufs, queues := if .queues ∈ may then t.queues else s.queues
    parts := if .parts ∈ may then t.parts else s.parts, pools := if .pools ∈ may then t.pools else s.pools
    groups := if .groups ∈ may then t.groups else s.groups, ports := if .ports ∈ may then t.ports else s.ports
    eptSlots := if .eptSlots ∈ may then t.eptSlots else s.eptSlots, submits := if .submits ∈ may then t.submits else s.submits
    tagsDone := if .tagsDone ∈ may then t.tagsDone else s.tagsDone, samples := if .samples ∈ may then t.samples else s.samples
    loads := if .loads ∈ may then t.loads else s.loads, launches := if .launches ∈ may then t.launches else s.launches
    colls := if .colls ∈ may then t.colls else s.colls, freeIdx := if .freeIdx ∈ may then t.freeIdx else s.freeIdx
    out := if .out ∈ may then t.out else s.out }

/-- A state that has every piece but the listed ones from another differs from it in those only. Where the state is written out as an
update, the hypothesis is `rfl`. -/
theorem onlyChanges_of_take {s t : State} {may : List Piece} (h : s.take t may = t) : OnlyChanges s t may := by
  intro x hx
  rw [← h]
  cases x with
  | regs => intro off; simp only [regOf, State.take, if_neg hx]
  | mem => intro a; simp only [memAt, State.take, if_neg hx]
  | threads => exact ⟨if_neg hx, if_neg hx⟩
  | _ => exact if_neg hx

theorem OnlyChanges.trans {s t u : State} {may : List Piece} (h : OnlyChanges s t may) (h' : OnlyChanges t u may) :
    OnlyChanges s u may := by
  intro x hx
  have a := h x hx
  have b := h' x hx
  cases x with
  | regs => exact fun off => (b off).trans (a off)
  | mem => exact fun off => (b off).trans (a off)
  | threads => exact ⟨b.1.trans a.1, b.2.trans a.2⟩
  | _ => exact b.trans a

theorem OnlyChanges.mono {s t : State} {may more : List Piece} (h : OnlyChanges s t may) (hsub : may ⊆ more) : OnlyChanges s t more :=
  fun x hx => h x fun hm => hx (hsub hm)

/-! ## What holds where a program ends

One rule for each operation takes a goal about the rest of the program to a goal about what follows the operation. -/

/-- What holds of the state a program leaves. -/
def Ends (p : Prog) (s : State) (Q : State → Prop) : Prop := Q (Prog.run p s)

theorem answers_of_ends {c : Instr} {s : State} {Q : State → Prop} (a : Act Unit) (h : exec c s = finish a s)
    (hQ : Ends (a fun _ => .done) s Q) : Answers c s Q := ⟨_, h, hQ⟩

theorem exec_of_ends {c : Instr} {s t : State} (a : Act Unit) (h : exec c s = finish a s) (hQ : Ends (a fun _ => .done) s (· = t)) :
    exec c s = .next t := by
  rw [h, finish_eq]
  exact congrArg _ hQ

section
variable (s : State) (Q : State → Prop)

@[simp] theorem ends_done : Ends .done s Q = Q s := rfl
@[simp] theorem ends_look (k : State → Prog) : Ends (.look k) s Q = Ends (k s) s Q := rfl
@[simp] theorem ends_eff (e : Effect) (k : Prog) : Ends (.eff e k) s Q = Ends k (e.apply s) Q := rfl
@[simp] theorem ends_wrReg (off v : Nat) (k : Unit → Prog) : Ends (wrReg off v k) s Q = Ends (k ()) (s.setReg off v) Q := rfl
@[simp] theorem ends_rdReg (off : Nat) (k : Nat → Prog) : Ends (rdReg off k) s Q = Ends (k (regOf s off).toNat) s Q := rfl
@[simp] theorem ends_rdF (off lo len : Nat) (k : Nat → Prog) : Ends (rdF off lo len k) s Q = Ends (k (fieldOf s off lo len)) s Q := rfl
@[simp] theorem ends_wrF (off lo len v : Nat) (k : Unit → Prog) :
    Ends (wrF off lo len v k) s Q = Ends (k ()) (s.setField off lo len v) Q := rfl
@[simp] theorem ends_emit (e : Emit) (k : Unit → Prog) : Ends (emit e k) s Q = Ends (k ()) { s with out := s.out ++ [e] } Q := rfl
@[simp] theorem ends_drawFree (k : Word → Prog) :
    Ends (drawFree k) s Q = Ends (k (Config.freeWord s.freeIdx)) { s with freeIdx := s.freeIdx + 1 } Q := rfl
@[simp] theorem ends_modMod (f : Mod → Mod) (k : Unit → Prog) : Ends (modMod f k) s Q = Ends (k ()) { s with mod := f s.mod } Q := rfl
@[simp] theorem ends_modNv (f : Nv → Nv) (k : Unit → Prog) : Ends (modNv f k) s Q = Ends (k ()) { s with nv := f s.nv } Q := rfl
@[simp] theorem ends_modOwn (f : Own → Own) (k : Unit → Prog) : Ends (modOwn f k) s Q = Ends (k ()) { s with own := f s.own } Q := rfl
@[simp] theorem ends_modErr (f : Err → Err) (k : Unit → Prog) : Ends (modErr f k) s Q = Ends (k ()) { s with err := f s.err } Q := rfl
@[simp] theorem ends_modPw (f : Power → Power) (k : Unit → Prog) : Ends (modPw f k) s Q = Ends (k ()) { s with pw := f s.pw } Q := rfl
@[simp] theorem ends_modHost (f : HostIf → HostIf) (k : Unit → Prog) : Ends (modHost f k) s Q = Ends (k ()) { s with host := f s.host } Q := rfl
@[simp] theorem ends_modFab (f : Fab → Fab) (k : Unit → Prog) : Ends (modFab f k) s Q = Ends (k ()) { s with fab := f s.fab } Q := rfl
@[simp] theorem ends_modMem2 (f : MemErr → MemErr) (k : Unit → Prog) :
    Ends (modMem2 f k) s Q = Ends (k ()) { s with mem2 := f s.mem2 } Q := rfl
@[simp] theorem ends_modTime (f : Time → Time) (k : Unit → Prog) :
    Ends (modTime f k) s Q = Ends (k ()) { s with time := { f s.time with now := s.time.now } } Q := rfl
@[simp] theorem ends_modSubmits (f : List Submit → List Submit) (k : Unit → Prog) :
    Ends (modSubmits f k) s Q = Ends (k ()) { s with submits := f s.submits } Q := rfl
@[simp] theorem ends_modLaunches (f : List Launch → List Launch) (k : Unit → Prog) :
    Ends (modLaunches f k) s Q = Ends (k ()) { s with launches := f s.launches } Q := rfl
@[simp] theorem ends_modThread (n : Nat) (f : Thread → Thread) (k : Unit → Prog) :
    Ends (modThread n f k) s Q = Ends (k ()) (s.setThread n (f (threadOf s n))) Q := rfl
@[simp] theorem ends_modPart (n : Nat) (f : Part → Part) (k : Unit → Prog) :
    Ends (modPart n f k) s Q = Ends (k ()) (s.setPart n (f (partOf s n))) Q := rfl
@[simp] theorem ends_modQueue (n : Nat) (f : Queue → Queue) (k : Unit → Prog) :
    Ends (modQueue n f k) s Q = Ends (k ()) (s.setQueue n (f (queueOf s n))) Q := rfl
@[simp] theorem ends_modPool (n : Nat) (f : Pool → Pool) (k : Unit → Prog) :
    Ends (modPool n f k) s Q = Ends (k ()) (s.setPool n (f (poolOf s n))) Q := rfl
@[simp] theorem ends_modGroup (n : Nat) (f : Group → Group) (k : Unit → Prog) :
    Ends (modGroup n f k) s Q = Ends (k ()) (s.setGroup n (f (groupOf s n))) Q := rfl
@[simp] theorem ends_modPort (n : Nat) (f : Port → Port) (k : Unit → Prog) :
    Ends (modPort n f k) s Q = Ends (k ()) (s.setPort n (f (portOf s n))) Q := rfl
@[simp] theorem ends_ctr64 (off n : Nat) (k : Unit → Prog) :
    Ends (ctr64 off n k) s Q = Ends (k ()) (s.setReg off (((regOf s off).toNat + n) % 2 ^ 64)) Q := rfl
@[simp] theorem ends_ctr32 (off n : Nat) (k : Unit → Prog) : Ends (ctr32 off n k) s Q =
    Ends (k ()) (s.setField (off / 8 * 8) (off % 8 * 8) 32 (min 0xFFFFFFFF (fieldOf s (off / 8 * 8) (off % 8 * 8) 32 + n))) Q := rfl

end

/-- A branch of a program. -/
@[simp] theorem ends_ite_act {α : Type} (c : Prop) [Decidable c] (a b : Act α) (k : α → Prog) (s : State) (Q : State → Prop) :
    Ends ((if c then a else b : Act α) k) s Q = if c then Ends (a k) s Q else Ends (b k) s Q := by split <;> rfl

/-! ## Canonical form -/

/-- Every program keeps the canonical form. -/
theorem canon_run {s : State} (p : Prog) (h : Canon s) : Canon (Prog.run p s) := run_inv effect_canon p s h

theorem Reach.canon {P : Effect → Prop} {s t : State} (h : Reach P s t) (hc : Canon s) : Canon t :=
  h.rel (R := fun a b => Canon a → Canon b) (fun _ => id) (fun _ _ _ f g => g ∘ f) (fun e _ s => effect_canon e s) hc

/-! ## Registers -/

/-- Two states differ in registers of a set only. -/
structure RegsChange (S : Nat → Prop) (s u : State) : Prop where
  eq : u = { s with regs := u.regs }
  same : ∀ off, ¬ S off → regOf u off = regOf s off
  rising : Rising s.regs → Rising u.regs

theorem RegsChange.refl (S : Nat → Prop) (s : State) : RegsChange S s s := ⟨rfl, fun _ _ => rfl, id⟩

theorem RegsChange.trans {S : Nat → Prop} {s t u : State} (h : RegsChange S s t) (h' : RegsChange S t u) : RegsChange S s u := by
  refine ⟨?_, fun off ho => (h'.same off ho).trans (h.same off ho), h'.rising ∘ h.rising⟩
  have hu := h'.eq
  rwa [h.eq] at hu

theorem RegsChange.mono {S T : Nat → Prop} {s u : State} (h : RegsChange S s u) (hST : ∀ off, S off → T off) : RegsChange T s u :=
  ⟨h.eq, fun off ho => h.same off (fun hs => ho (hST off hs)), h.rising⟩

theorem RegsChange.setReg {S : Nat → Prop} {off : Nat} (s : State) (v : Nat) (h : S off) : RegsChange S s (s.setReg off v) :=
  ⟨rfl, fun _ hx => regOf_setReg_ne _ _ _ _ (fun e => hx (e ▸ h)), setReg_rising _ _ _⟩

theorem RegsChange.onlyChanges {S : Nat → Prop} {s u : State} (h : RegsChange S s u) : OnlyChanges s u [.regs] := by
  rw [h.eq]
  exact onlyChanges_regs s _

theorem RegsChange.mem {S : Nat → Prop} {s u : State} (h : RegsChange S s u) : u.mem = s.mem := by
  have hmem := congrArg State.mem h.eq
  exact hmem

theorem RegsChange.field {S : Nat → Prop} {s u : State} (h : RegsChange S s u) {off : Nat} (ho : ¬ S off) (lo len : Nat) :
    fieldOf u off lo len = fieldOf s off lo len := by
  rw [fieldOf, h.same off ho, fieldOf]

/-- An effect writes a register of a set. -/
def RegEff (S : Nat → Prop) (e : Effect) : Prop := ∃ off v, e = .reg off v ∧ S off

theorem regEff_reg {S : Nat → Prop} {off : Nat} (h : S off) (v : Word) : RegEff S (.reg off v) := ⟨off, v, rfl, h⟩

/-- What register writes reach differs in registers of the set only. -/
theorem Reach.regsChange {S : Nat → Prop} {s t : State} (h : Reach (RegEff S) s t) : RegsChange S s t := by
  refine h.rel (RegsChange.refl S) (fun _ _ _ => RegsChange.trans) fun e he s => ?_
  obtain ⟨off, v, rfl, hS⟩ := he
  have hset := RegsChange.setReg s v.toNat hS
  rwa [State.setReg, BitVec.ofNat_toNat, BitVec.setWidth_eq] at hset

/-- A piece of a program that writes registers of a set only. -/
theorem ends_of_withinRegs {α : Type} {S : Nat → Prop} {a : Act α} (h : Act.Within (RegEff S) a) {k : α → Prog} {s : State}
    {Q : State → Prop} (hQ : ∀ u x, RegsChange S s u → Ends (k x) u Q) : Ends (a k) s Q := by
  obtain ⟨u, x, e, hr⟩ := h k s
  rw [Ends, e]
  exact hQ u x hr.regsChange

/-- A register that a clearing keeps reads as before. -/
theorem regOf_regsKeep_of (s : State) (f : Nat → Bool) {off : Nat} (h : f off = true) :
    regOf { s with regs := tkeep f s.regs } off = regOf s off := tget_tkeep_of _ _ _ _ h

/-- A register that a clearing drops reads as after reset. -/
theorem regOf_regsKeep_not (s : State) (f : Nat → Bool) {off : Nat} (h : f off = false) :
    regOf { s with regs := tkeep f s.regs } off = resetWord off := tget_tkeep_not _ _ _ _ h

theorem rising_tkeep {α : Type} {t : Tbl α} (f : Nat → Bool) (h : Rising t) : Rising (tkeep f t) := h.filter _

/-! ## Reports -/

/-- A report below DEVICE has been made (R375). -/
structure Raises (code sev die unit : Nat) (part : Option Nat) (addr detail : Nat) (s u : State) : Prop where
  eq : u = { s with regs := u.regs, err := u.err }
  reported : Reported s u code sev die unit part addr detail
  regs : RegsBut s u (errSrc die)
  rising : Rising s.regs → Rising u.regs

theorem Raises.onlyChanges {code sev die unit : Nat} {part : Option Nat} {addr detail : Nat} {s u : State}
    (h : Raises code sev die unit part addr detail s u) : OnlyChanges s u [.regs, .err] := by
  rw [h.eq]
  exact onlyChanges_regs_err s _ _

theorem Raises.field {code sev die unit : Nat} {part : Option Nat} {addr detail : Nat} {s u : State}
    (h : Raises code sev die unit part addr detail s u) {off : Nat} (ho : off ∉ errSrc die) (lo len : Nat) :
    fieldOf u off lo len = fieldOf s off lo len := by
  rw [fieldOf, h.regs off ho, fieldOf]

theorem ends_raise {code sev die unit : Nat} {part : Option Nat} {addr detail : Nat} (h : sev < 3) {k : Unit → Prog} {s : State}
    {Q : State → Prop} (hQ : ∀ u, Raises code sev die unit part addr detail s u → Ends (k ()) u Q) :
    Ends (raise code sev die unit part addr detail k) s Q := by
  obtain ⟨r, ⟨hsame, hr⟩, e⟩ := run_raise s code sev die unit part addr detail h k
  rw [Ends, e]
  refine hQ _ ⟨rfl, rfl, fun off hoff => ?_, hr⟩
  simp only [errSrc, List.mem_cons, List.not_mem_nil, or_false, not_or] at hoff
  exact hsame off hoff.1 (by omega)

/-! ## Loops -/

/-- A loop over a list whose body takes the state one step on, by `g`. -/
theorem ends_forIn {γ : Type} (l : List γ) (f : γ → PUnit → Act (ForInStep PUnit)) (g : State → γ → State)
    (h : ∀ x ∈ l, ∀ k s, Prog.run (f x PUnit.unit k) s = Prog.run (k (.yield PUnit.unit)) (g s x)) (k : PUnit → Prog) (s : State)
    (Q : State → Prop) : Ends ((forIn l PUnit.unit f : Act PUnit) k) s Q = Ends (k PUnit.unit) (l.foldl g s) Q := by
  induction l generalizing s with
  | nil => rfl
  | cons x l ih =>
    rw [List.forIn_cons, bind_apply, Ends, h x (by simp)]
    exact ih (fun y hy => h y (by simp [hy])) (g s x)

end Sys2Proof.Machine
end

section
/-!
SUPPORT. Resets, alignment and boot, and O57.
-/

namespace Sys2Proof.Machine

open Sys2Proof.Claims

/-! ## DIAG (R388) -/

/-- The state in which the boot has stopped: the PCIe and CXL links are down, and LCS_STATUS shows DIAG. -/
def State.diagnosed (s : State) (site : Option Nat) : State :=
  ((((({ s with mod := { s.mod with phase := .diag, diagSite := site } }.setField 0x110000 0 9 0).setField 0x200020 0 6 0).setField
    0x200028 0 6 0).setField 0x200030 0 6 0).setField 0x200038 0 6 0).setField 0x020000 4 1 1

@[simp] theorem ends_enterDiag (site : Option Nat) (k : Unit → Prog) (s : State) (Q : State → Prop) :
    Ends (enterDiag site k) s Q = Ends (k ()) (s.diagnosed site) Q := rfl

/-- The registers that entering DIAG writes. -/
def diagRegs : List Nat := [0x110000, 0x200020, 0x200028, 0x200030, 0x200038, 0x020000]

theorem regOf_diagnosed (s : State) (site : Option Nat) {off : Nat} (h : off ∉ diagRegs) : regOf (s.diagnosed site) off = regOf s off := by
  simp only [diagRegs, List.mem_cons, List.not_mem_nil, or_false, not_or] at h
  obtain ⟨h1, h2, h3, h4, h5, h6⟩ := h
  simp only [State.diagnosed, State.setField, regOf_setReg_ne _ _ _ _ h1, regOf_setReg_ne _ _ _ _ h2, regOf_setReg_ne _ _ _ _ h3,
    regOf_setReg_ne _ _ _ _ h4, regOf_setReg_ne _ _ _ _ h5, regOf_setReg_ne _ _ _ _ h6]
  rfl

theorem inDiag_diagnosed (s : State) (site : Option Nat) (hr : Rising s.regs) : InDiag (s.diagnosed site) site := by
  have h0 : Rising (State.regs { s with mod := { s.mod with phase := .diag, diagSite := site } }) := hr
  have h1 := setField_rising _ 0x110000 0 9 0 h0
  have h2 := setField_rising _ 0x200020 0 6 0 h1
  have h3 := setField_rising _ 0x200028 0 6 0 h2
  have h4 := setField_rising _ 0x200030 0 6 0 h3
  have h5 := setField_rising _ 0x200038 0 6 0 h4
  have links : ∀ n, n < 4 → fieldOf (s.diagnosed site) (0x200020 + 8 * n) 0 6 = 0 := by
    intro n hn
    match n, hn with
    | 0, _ => simp [State.diagnosed, fieldOf_setField_ne, fieldOf_setField_same, h1]
    | 1, _ => simp [State.diagnosed, fieldOf_setField_ne, fieldOf_setField_same, h2]
    | 2, _ => simp [State.diagnosed, fieldOf_setField_ne, fieldOf_setField_same, h3]
    | 3, _ => simp [State.diagnosed, fieldOf_setField_ne, fieldOf_setField_same, h4]
  refine ⟨rfl, rfl, ?_, ?_, links⟩
  · simp [State.diagnosed, fieldOf_setField_same, h5]
  · simp [State.diagnosed, fieldOf_setField_ne, fieldOf_setField_same, h0]

/-! ## What a reset stops (R385) -/

/-- The state in which nothing runs; `tu` holds the places of the issue units. -/
def State.halted (s : State) (tu : Tbl Nat) : State :=
  { s with threads := [], turns := tu, pips := [], vbufs := [], queues := [], parts := [], pools := [], groups := [], ports := []
           eptSlots := [], submits := [], tagsDone := [], samples := [], loads := [], launches := [], colls := [], fab := {}, host := {} }

theorem stopped_halted (s : State) (tu : Tbl Nat) : Stopped (s.halted tu) :=
  ⟨rfl, rfl, rfl, rfl, rfl, rfl, rfl, rfl, rfl, rfl, rfl, rfl, rfl, rfl⟩

theorem tkeep_none {α : Type} (t : Tbl α) : tkeep (fun _ => false) t = [] := by simp [tkeep]

/-- The places of the issue units after some of them start anew. -/
def turnsOff (l : List (Nat × Nat)) (tu : Tbl Nat) : Tbl Nat := l.foldl (fun tu c => tput 15 tu c.1 15) tu

theorem foldl_turns (l : List (Nat × Nat)) (s : State) :
    l.foldl (fun (s : State) c => (Effect.turn c.1 15).apply s) s = { s with turns := turnsOff l s.turns } := by
  induction l generalizing s with
  | nil => rfl
  | cons c l ih => exact ih _

theorem ends_stopWork {k : Unit → Prog} {s : State} {Q : State → Prop} (hQ : ∀ tu, Ends (k ()) (s.halted tu) Q) :
    Ends (stopWork k) s Q := by
  have hloop : ∀ (m : PUnit → Prog) (u : State),
      Ends ((forIn u.turns PUnit.unit fun c _ => do eff (.turn c.1 15); pure (ForInStep.yield PUnit.unit) : Act PUnit) m) u Q =
        Ends (m PUnit.unit) { u with turns := turnsOff u.turns u.turns } Q := by
    intro m u
    rw [← foldl_turns]
    exact ends_forIn _ _ (fun s (c : Nat × Nat) => (Effect.turn c.1 15).apply s) (fun _ _ _ _ => rfl) m u Q
  simp only [stopWork, bind_apply, eff_apply, look_apply, ends_look, ends_eff, hloop]
  simp only [Effect.apply, tkeep_none]
  exact hQ (turnsOff s.turns s.turns)

/-! ## What fuses and flash load (R6, R124, R383, R400) -/

/-- LCS_STATUS shows the fuses and the flash. -/
def State.lcsShown (s : State) : State :=
  (((s.setField 0x020000 0 3 s.nv.lcState).setField 0x020000 7 1 (if s.nv.lcPending.isSome then 1 else 0)).setField 0x020000 8 6
    s.nv.svnFused).setField 0x020000 24 7 s.nv.lcLeft

@[simp] theorem ends_showLcs (k : Unit → Prog) (s : State) (Q : State → Prop) : Ends (showLcs k) s Q = Ends (k ()) s.lcsShown Q := rfl

/-- The registers that fuses and flash load but for LCS_STATUS. -/
def FuseReg (off : Nat) : Prop :=
  off < 0x200 ∨ (0x400000 ≤ off ∧ off < 0x440000) ∨ off = 0x040050 ∨ (0x082000 ≤ off ∧ off < 0x082400)

/-- `loadFuses` up to LCS_STATUS. -/
def fusesFirst (s : State) : Act Unit := do
  wrReg 0x000000 (glbId s)
  for d in List.range 32 do
    wrReg (0x000100 + 8 * d) (tget 0xFFFFFFFFFFFFFFFF s.nv.coreEn d).toNat
  for n in List.range 64 do
    wrReg (rPort n 0x18) ((s.nv.macBase.toNat + n) % 2 ^ 48)

/-- `loadFuses` after LCS_STATUS. -/
def fusesLast (s : State) : Act Unit := do
  wrF 0x040050 0 32 s.nv.opHours.toNat
  showFatalLog

theorem loadFuses_apply (k : Unit → Prog) (s : State) (Q : State → Prop) :
    Ends (loadFuses k) s Q = Ends (fusesFirst s fun _ => showLcs fun _ => fusesLast s k) s Q := by
  simp only [loadFuses, fusesFirst, fusesLast, bind_apply, pure_apply, look_apply, ends_look]

/-- A loop of register writes stays within them. -/
theorem within_writes {P : Effect → Prop} (l : List Nat) (o v : Nat → Nat) (h : ∀ n ∈ l, ∀ x, P (.reg (o n) x)) :
    Act.Within P (forIn l PUnit.unit fun n _ => do wrReg (o n) (v n); pure (ForInStep.yield PUnit.unit)) :=
  Act.within_forIn _ _ _ fun n hn _ => Act.within_bind (within_wrReg (h n hn)) fun _ => Act.within_pure _

theorem within_showFatalLog {P : Effect → Prop} (h : ∀ off x, 0x082000 ≤ off → off < 0x082400 → P (.reg off x)) :
    Act.Within P showFatalLog := by
  refine Act.within_bind Act.within_look fun s => Act.within_forIn _ _ _ fun i hi _ => Act.within_bind (within_writes _ _ _ fun w hw => ?_)
    fun _ => Act.within_pure _
  have hi' := List.mem_range.1 hi
  have hw' := List.mem_range.1 hw
  exact fun x => h _ x (by omega) (by omega)

theorem within_fusesFirst (s : State) : Act.Within (RegEff FuseReg) (fusesFirst s) := by
  refine Act.within_bind (within_wrReg (regEff_reg (.inl (by omega)))) fun _ => Act.within_bind (within_writes _ _ _ fun d hd => ?_) fun _ =>
    (within_writes _ _ _ fun n hn => ?_)
  · exact regEff_reg (.inl (by have := List.mem_range.1 hd; omega))
  · exact regEff_reg (.inr (.inl (by have := List.mem_range.1 hn; unfold rPort; omega)))

theorem within_fusesLast (s : State) : Act.Within (RegEff FuseReg) (fusesLast s) :=
  Act.within_bind (within_wrF (regEff_reg (.inr (.inr (.inl rfl))))) fun _ =>
    within_showFatalLog fun _ x h h' => regEff_reg (.inr (.inr (.inr ⟨h, h'⟩))) x

theorem not_fuseReg_lcsStatus : ¬ FuseReg 0x020000 := by unfold FuseReg; omega

theorem fieldOf_lcsShown {s : State} (hr : Rising s.regs) : fieldOf s.lcsShown 0x020000 0 3 = s.nv.lcState % 8 ∧
    ∀ lo len, 3 ≤ lo → lo + len ≤ 7 → fieldOf s.lcsShown 0x020000 lo len = fieldOf s 0x020000 lo len := by
  have h1 := setField_rising _ 0x020000 0 3 s.nv.lcState hr
  have h2 := setField_rising _ 0x020000 7 1 (if s.nv.lcPending.isSome then 1 else 0) h1
  have h3 := setField_rising _ 0x020000 8 6 s.nv.svnFused h2
  refine ⟨?_, fun lo len hlo hlen => ?_⟩
  · rw [State.lcsShown, fieldOf_setField_other _ _ _ _ _ _ _ h3 (by omega) (.inr (by omega)),
      fieldOf_setField_other _ _ _ _ _ _ _ h2 (by omega) (.inr (by omega)),
      fieldOf_setField_other _ _ _ _ _ _ _ h1 (by omega) (.inr (by omega)), fieldOf_setField_same _ _ _ _ _ hr (by omega)]
    rfl
  · rw [State.lcsShown, fieldOf_setField_other _ _ _ _ _ _ _ h3 (by omega) (.inr (by omega)),
      fieldOf_setField_other _ _ _ _ _ _ _ h2 (by omega) (.inr (by omega)),
      fieldOf_setField_other _ _ _ _ _ _ _ h1 (by omega) (.inr (by omega)),
      fieldOf_setField_other _ _ _ _ _ _ _ hr (by omega) (.inl (by omega))]

/-- Fuses and flash have been loaded: beside registers of their own they show in LCS_STATUS, whose other fields stay. -/
structure FusesLoaded (s u : State) : Prop where
  regs : RegsChange (fun off => FuseReg off ∨ off = 0x020000) s u
  lcState : Rising s.regs → fieldOf u 0x020000 0 3 = s.nv.lcState % 8
  others : Rising s.regs → ∀ lo len, 3 ≤ lo → lo + len ≤ 7 → fieldOf u 0x020000 lo len = fieldOf s 0x020000 lo len

theorem lcsShown_regsChange (s : State) : RegsChange (fun off => off = 0x020000) s s.lcsShown :=
  (((RegsChange.setReg (S := fun off => off = 0x020000) s _ rfl).trans (.setReg _ _ rfl)).trans (.setReg _ _ rfl)).trans (.setReg _ _ rfl)

theorem ends_loadFuses {k : Unit → Prog} {s : State} {Q : State → Prop} (hQ : ∀ u, FusesLoaded s u → Ends (k ()) u Q) :
    Ends (loadFuses k) s Q := by
  rw [loadFuses_apply]
  refine ends_of_withinRegs (within_fusesFirst s) fun a _ ha => ?_
  rw [ends_showLcs]
  refine ends_of_withinRegs (within_fusesLast s) fun u _ hu => hQ u ⟨?_, fun hr => ?_, fun hr lo len hlo hlen => ?_⟩
  · exact ((ha.mono fun _ => .inl).trans ((lcsShown_regsChange a).mono fun _ => .inr)).trans (hu.mono fun _ => .inl)
  · have hnv : a.nv = s.nv := ha.onlyChanges .nv (by decide)
    rw [hu.field not_fuseReg_lcsStatus, (fieldOf_lcsShown (ha.rising hr)).1, hnv]
  · rw [hu.field not_fuseReg_lcsStatus, (fieldOf_lcsShown (ha.rising hr)).2 lo len hlo hlen, ha.field not_fuseReg_lcsStatus]

/-! ## Cold reset (R384–R386, R393, R409) -/

/-- The non-volatile memory after the transition that waits is applied (R393). -/
def Nv.transited (n : Nv) : Nv :=
  match n.lcPending with
  | none => n
  | some t =>
    { n with lcState := t, lcLeft := if lcBurns n.lcState t then n.lcLeft - 1 else n.lcLeft
             lcPending := none, caks := [], mgmtKeys := [], lastSeq := [], sealedIn := none
             udsBlown := n.udsBlown || t == 4
             ownerKeysFused := n.ownerKeysFused || (n.lcState == 1 && t == 2), wipeMark := some 0 }

@[simp] theorem ends_applyLifecycle (k : Unit → Prog) (s : State) (Q : State → Prop) :
    Ends (applyLifecycle k) s Q = Ends (k ()) { s with nv := s.nv.transited } Q := by
  simp only [applyLifecycle, bind_apply, look_apply, ends_look, Nv.transited]
  cases s.nv.lcPending <;> rfl

/-- The state after the clearing of a cold reset. -/
def State.cleared (s : State) (tu : Tbl Nat) : State :=
  { s.halted tu with
    regs := tkeep (fun off => off = 0x040038) s.regs, own := {}, pw := { railLatched := s.pw.railLatched }
    err := { fatalNew := s.err.fatalNew }, time := { now := s.time.now }
    mem2 := { s.mem2 with cxlFailed := [], t3Next := none, t3Part := [], caps := [0, 0, 0, 0] } }

theorem ends_coldClear {k : Unit → Prog} {s : State} {Q : State → Prop} (hQ : ∀ tu, Ends (k ()) (s.cleared tu) Q) :
    Ends (coldClear k) s Q := by
  simp only [coldClear, bind_apply, look_apply, ends_look]
  exact ends_stopWork hQ

/-- FATAL_LOGGED is shown. -/
def State.fatalShown (s : State) : State :=
  { s with regs := if s.err.fatalNew then (s.setField 0x080028 1 1 1).regs else s.regs, err := { s.err with fatalNew := false } }

@[simp] theorem ends_showFatalLogged (k : Unit → Prog) (s : State) (Q : State → Prop) :
    Ends (showFatalLogged k) s Q = Ends (k ()) s.fatalShown Q := by
  simp only [showFatalLogged, bind_apply, look_apply, ends_look, ends_ite_act, State.fatalShown, pure_apply]
  cases h : s.err.fatalNew with
  | true => rfl
  | false =>
    have herr : ({ s.err with fatalNew := false } : Err) = s.err := by rw [← h]
    simp [herr]

theorem regs_fatalShown (s : State) : s.fatalShown.regs = if s.err.fatalNew then (s.setField 0x080028 1 1 1).regs else s.regs := rfl

theorem rising_fatalShown {s : State} (hr : Rising s.regs) : Rising s.fatalShown.regs := by
  rw [regs_fatalShown]
  split
  · exact setField_rising _ _ _ _ _ hr
  · exact hr

theorem regOf_fatalShown_ne (s : State) {off : Nat} (h : off ≠ 0x080028) : regOf s.fatalShown off = regOf s off := by
  rw [regOf, regs_fatalShown]
  split
  · exact regOf_setReg_ne _ _ _ _ h
  · rfl

theorem fieldOf_fatalShown {s : State} (hr : Rising s.regs) :
    fieldOf s.fatalShown 0x080028 1 1 = if s.err.fatalNew then 1 else fieldOf s 0x080028 1 1 := by
  rw [fieldOf, regOf, regs_fatalShown]
  split
  · exact fieldOf_setField_same s 0x080028 1 1 1 hr (by omega)
  · rfl

/-- The reset that was asked for, up to the check of the key store: how the state starts anew. -/
structure StartsAnew (s : State) (cause : Nat) (u : State) : Prop where
  mod : u.mod = { phase := .boot, mgUp := s.mod.mgUp, pcUp := s.mod.pcUp }
  stopped : Stopped u
  own : u.own = {}
  clock : u.time.running = false
  nv : u.nv = s.nv.transited
  mem : u.mem = s.mem
  err : u.err = {}
  cause : regOf u 0x040038 = BitVec.ofNat 64 cause
  ready : fieldOf u 0x020000 3 1 = 0
  lcState : fieldOf u 0x020000 0 3 = s.nv.transited.lcState % 8
  fatal : fieldOf u 0x080028 1 1 = if s.err.fatalNew then 1 else 0
  rising : Rising u.regs

/-- The state with the fuses still to be loaded. -/
def State.bootBegins (s : State) (tu : Tbl Nat) (cause : Nat) : State :=
  let t := (({ s with nv := s.nv.transited }.cleared tu).setReg 0x040038 cause).fatalShown
  { t with mod := { phase := .boot, mgUp := s.mod.mgUp, pcUp := s.mod.pcUp }
           mem2 := { t.mem2 with interleave := fieldOf s 0x200010 0 1 == 1 } }

theorem rising_cleared {s : State} (tu : Tbl Nat) (hr : Rising s.regs) : Rising (s.cleared tu).regs := hr.filter _

theorem rising_bootBegins {s : State} (tu : Tbl Nat) (cause : Nat) (hr : Rising s.regs) : Rising (s.bootBegins tu cause).regs :=
  rising_fatalShown (setReg_rising _ _ _ (rising_cleared tu hr))

/-- Of the registers, only the cause and FATAL_LOGGED do not read as after reset while the fuses are still to be loaded. -/
theorem regOf_bootBegins (s : State) (tu : Tbl Nat) (cause : Nat) {off : Nat} (h : off ≠ 0x080028) (h' : off ≠ 0x040038) :
    regOf (s.bootBegins tu cause) off = resetWord off := by
  refine (regOf_fatalShown_ne _ h).trans ((regOf_setReg_ne _ _ _ _ h').trans (regOf_regsKeep_not s _ ?_))
  exact decide_eq_false h'

theorem regOf_bootBegins_cause {s : State} (tu : Tbl Nat) (cause : Nat) (hr : Rising s.regs) :
    regOf (s.bootBegins tu cause) 0x040038 = BitVec.ofNat 64 cause :=
  (regOf_fatalShown_ne _ (by decide)).trans (regOf_setReg_same _ _ _ (rising_cleared tu hr))

theorem fieldOf_bootBegins_fatal {s : State} (tu : Tbl Nat) (cause : Nat) (hr : Rising s.regs) :
    fieldOf (s.bootBegins tu cause) 0x080028 1 1 = if s.err.fatalNew then 1 else 0 := by
  refine (fieldOf_fatalShown (setReg_rising _ _ _ (rising_cleared tu hr))).trans ?_
  have hreset : fieldOf (s.cleared tu) 0x080028 1 1 = 0 := by
    have hreg : regOf (s.cleared tu) 0x080028 = resetWord 0x080028 := regOf_regsKeep_not s _ (by decide)
    rw [fieldOf, hreg]
    decide
  rw [fieldOf, regOf_setReg_ne _ _ _ _ (by decide), ← fieldOf, hreset]
  rfl

theorem stopped_of_onlyChanges_regs {a b : State} (h : Stopped a) (hk : OnlyChanges a b [.regs]) : Stopped b := by
  obtain ⟨h1, h2, h3, h4, h5, h6, h7, h8, h9, h10, h11, h12, h13, h14⟩ := h
  exact ⟨(hk .threads (by decide)).1.trans h1, (hk .pips (by decide)).trans h2, (hk .vbufs (by decide)).trans h3,
    (hk .queues (by decide)).trans h4, (hk .parts (by decide)).trans h5, (hk .pools (by decide)).trans h6,
    (hk .groups (by decide)).trans h7, (hk .ports (by decide)).trans h8, (hk .submits (by decide)).trans h9,
    (hk .samples (by decide)).trans h10, (hk .launches (by decide)).trans h11, (hk .colls (by decide)).trans h12,
    (hk .fab (by decide)).trans h13, (hk .host (by decide)).trans h14⟩

theorem not_fuseReg_of_mem {off : Nat} (h : off ∈ [0x040038, 0x080028, 0x020010]) : ¬ (FuseReg off ∨ off = 0x020000) := by
  simp only [List.mem_cons, List.not_mem_nil, or_false] at h
  unfold FuseReg
  omega

theorem startsAnew_of_fusesLoaded {s a : State} {tu : Tbl Nat} {cause : Nat} (hr : Rising s.regs)
    (ha : FusesLoaded (s.bootBegins tu cause) a) (b : Nat) (v : Word) :
    StartsAnew s cause ({ a.setField 0x020000 5 1 b with freeIdx := a.freeIdx + 1 }.setReg 0x020010 v.toNat) := by
  have hr1 := rising_bootBegins tu cause hr
  have hr2 : Rising a.regs := ha.regs.rising hr1
  have hkeep := ha.regs.onlyChanges
  have hstopped : Stopped (s.bootBegins tu cause) := stopped_halted s tu
  have hstopped_a : Stopped a := stopped_of_onlyChanges_regs hstopped hkeep
  have htime : a.time = (s.bootBegins tu cause).time := hkeep .time (by decide)
  have hlater : ∀ off, off ≠ 0x020000 → off ≠ 0x020010 →
      regOf ({ a.setField 0x020000 5 1 b with freeIdx := a.freeIdx + 1 }.setReg 0x020010 v.toNat) off = regOf a off :=
    fun off h h' => (regOf_setReg_ne _ _ _ _ h').trans (regOf_setReg_ne _ _ _ _ h)
  have hstatus : ∀ lo len, lo + len ≤ 5 →
      fieldOf ({ a.setField 0x020000 5 1 b with freeIdx := a.freeIdx + 1 }.setReg 0x020010 v.toNat) 0x020000 lo len =
        fieldOf a 0x020000 lo len := by
    intro lo len h
    rw [fieldOf, regOf_setReg_ne _ _ _ _ (by decide)]
    exact fieldOf_setField_other _ _ _ _ _ _ _ hr2 (by omega) (.inr h)
  refine ⟨hkeep .mod (by decide), hstopped_a, hkeep .own (by decide), congrArg Time.running htime,
    hkeep .nv (by decide), ?_, hkeep .err (by decide), ?_, ?_, ?_, ?_, setReg_rising _ _ _ (setField_rising _ _ _ _ _ hr2)⟩
  · exact ha.regs.mem
  · rw [hlater _ (by decide) (by decide), ha.regs.same _ (not_fuseReg_of_mem (by decide)), regOf_bootBegins_cause tu cause hr]
  · rw [hstatus _ _ (by decide), ha.others hr1 _ _ (by decide) (by decide), fieldOf, regOf_bootBegins s tu cause (by decide) (by decide)]
    decide
  · rw [hstatus _ _ (by decide), ha.lcState hr1]
    rfl
  · rw [fieldOf, hlater _ (by decide) (by decide), ha.regs.same _ (not_fuseReg_of_mem (by decide)), ← fieldOf,
      fieldOf_bootBegins_fatal tu cause hr]

theorem ends_coldResetAct {s : State} {c : Nat} {Q : State → Prop} (h : s.mod.coldReq = some c) (hr : Rising s.regs)
    (hQ : ∀ u, StartsAnew s (if s.nv.lcPending.isSome then 8 else c % 16) u → Ends (openKeyStore fun _ => checkConfig fun _ => .done) u Q) :
    Ends (coldResetAct fun _ => .done) s Q := by
  simp only [coldResetAct, bind_apply, look_apply, ends_look, h, ends_applyLifecycle]
  refine ends_coldClear fun tu => ?_
  simp only [ends_wrReg, ends_showFatalLogged, ends_modMem2, eff_apply, ends_eff]
  refine ends_loadFuses fun a ha => ?_
  simp only [ends_wrF, ends_drawFree, ends_wrReg]
  exact hQ _ (startsAnew_of_fusesLoaded hr ha _ _)

/-- A key store that opens, or is empty already, stays as it is (R395). -/
theorem ends_openKeyStore_opens {k : Unit → Prog} {s : State} {Q : State → Prop} (h : s.nv.sealedIn = none ∨ s.nv.sealedIn = some s.nv.lcState)
    (hQ : Ends (k ()) s Q) : Ends (openKeyStore k) s Q := by
  have hopen : s.nv.sealedIn.any (· != s.nv.lcState) = false := by rcases h with h | h <;> simp [h]
  simpa [openKeyStore, hopen] using hQ

/-- Three intact copies of the configuration image (R380). -/
theorem ends_checkConfig_intact {k : Unit → Prog} {s : State} {Q : State → Prop} {v : Nat} (h : s.nv.cfg = [(true, v), (true, v), (true, v)])
    (hQ : Ends (k ()) s Q) : Ends (checkConfig k) s Q := by
  simpa [checkConfig, h, cfgMajority] using hQ

theorem transited_of_none {n : Nv} (h : n.lcPending = none) : n.transited = n := by simp [Nv.transited, h]

theorem transited_of_some {n : Nv} {t : Nat} (h : n.lcPending = some t) : n.transited =
    { n with lcState := t, lcLeft := if lcBurns n.lcState t then n.lcLeft - 1 else n.lcLeft
             lcPending := none, caks := [], mgmtKeys := [], lastSeq := [], sealedIn := none
             udsBlown := n.udsBlown || t == 4
             ownerKeysFused := n.ownerKeysFused || (n.lcState == 1 && t == 2), wipeMark := some 0 } := by simp [Nv.transited, h]

theorem coldReset_holds (s : State) (cause v : Nat) : (coldReset s cause v).Holds := by
  rintro ⟨hreq, hcause, hpend, hseal, hcfg, hc⟩
  have hnv := transited_of_none hpend
  refine answers_of_ends coldResetAct rfl (ends_coldResetAct hreq hc.rising fun u hu => ?_)
  have hunv : u.nv = s.nv := hu.nv.trans hnv
  refine ends_openKeyStore_opens (by rwa [hunv]) (ends_checkConfig_intact (by rwa [hunv]) ?_)
  have hshown := hu.cause
  rw [hpend, Nat.mod_eq_of_lt hcause] at hshown
  exact ⟨hu.mod, hu.stopped, hu.own, hu.clock, hunv, hu.mem, hshown, hu.ready, hnv ▸ hu.lcState, hu.fatal⟩

theorem coldResetTransition_holds (s : State) (cause k v : Nat) : (coldResetTransition s cause k v).Holds := by
  rintro ⟨hreq, hpend, hk, hcfg, hc⟩
  have hnv := transited_of_some hpend
  refine answers_of_ends coldResetAct rfl (ends_coldResetAct hreq hc.rising fun u hu => ?_)
  have hunv := hu.nv.trans hnv
  have hlc := hu.lcState
  rw [hnv] at hlc
  refine ends_openKeyStore_opens (.inl (by rw [hunv])) (ends_checkConfig_intact (by rwa [hunv]) ?_)
  refine ⟨?_, ?_, ?_, ?_, ?_, ?_, ?_, ?_, ?_, hlc.trans (Nat.mod_eq_of_lt hk), ?_⟩ <;> simp [hunv, hu.mod]

theorem coldResetSealed_holds (s : State) (cause v x : Nat) : (coldResetSealed s cause v x).Holds := by
  rintro ⟨hreq, hpend, hseal, hx, hcfg, hc⟩
  refine answers_of_ends coldResetAct rfl (ends_coldResetAct hreq hc.rising fun u hu => ?_)
  have hunv : u.nv = s.nv := hu.nv.trans (transited_of_none hpend)
  have hshut : u.nv.sealedIn.any (· != u.nv.lcState) = true := by simp [hunv, hseal, hx]
  simp only [openKeyStore, bind_apply, look_apply, ends_look, hshut, if_true, ends_modNv]
  refine ends_raise (by decide) fun t ht => ?_
  have hnv : t.nv = { s.nv with caks := [], mgmtKeys := [], lastSeq := [], sealedIn := none } := by
    refine (ht.onlyChanges .nv (by decide)).trans ?_
    simp only [hunv]
  have hmod : t.mod = u.mod := ht.onlyChanges .mod (by decide)
  have herr : t.err = _ := ht.reported
  refine ends_checkConfig_intact (v := v) (by rw [hnv, hcfg]) ?_
  rw [ends_done]
  exact ⟨hnv, by rw [hmod, hu.mod], by rw [herr]; simp [hu.err]⟩

/-! ## Warm reset (R384, R385, R409) -/

/-- The power stage after a warm reset. -/
def Power.afterWarm (p : Power) : Power :=
  { railLatched := p.railLatched, hotSince := p.hotSince, coolSince := p.coolSince, belowSince := p.belowSince
    tripSeen := p.tripSeen, noSensor := p.noSensor, monitors := p.monitors, planWanted := p.planWanted
    pairs := p.pairs, hotPairs := p.hotPairs, vPairs := p.vPairs, senseFail := p.senseFail }

/-- The state of a warm reset up to the queue of error records. -/
def State.warmCleared (s : State) (tu : Tbl Nat) : State :=
  { s.halted tu with regs := tkeep warmKeeps s.regs }.setField 0x020000 3 1 0

/-- The state after a warm reset. -/
def State.warmed (s : State) (tu : Tbl Nat) : State :=
  let a := s.warmCleared tu
  let t := { (a.setReg 0x080018 (regOf a 0x080010).toNat).fatalShown with pw := s.pw.afterWarm }.setReg 0x040038 7
  { t with mod := { s.mod with phase := .warm, warmReq := false, aligned := false, alignAt := none, alignFails := 0
                               readyDies := [], latRecorded := false, fwBusy := false, fwStaged := none } }

theorem ends_warmResetAct {s : State} {Q : State → Prop} (h : s.mod.warmReq = true) (h' : s.mod.coldReq = none)
    (h'' : s.mod.phase = .ready) (hQ : ∀ tu, Q (s.warmed tu)) : Ends (warmResetAct fun _ => .done) s Q := by
  have hcond : (s.mod.warmReq && s.mod.coldReq.isNone && s.mod.phase == .ready) = true := by rw [h, h', h'']; rfl
  simp only [warmResetAct, bind_apply, look_apply, ends_look, if_pos hcond]
  refine ends_stopWork fun tu => ?_
  simp only [eff_apply, ends_eff, ends_wrF, ends_rdReg, ends_wrReg, ends_showFatalLogged, ends_modMod, ends_done]
  exact hQ tu

theorem rising_warmCleared {s : State} (tu : Tbl Nat) (hr : Rising s.regs) : Rising (s.warmCleared tu).regs :=
  setField_rising _ _ _ _ _ (hr.filter _)

theorem regOf_warmed_ne (s : State) (tu : Tbl Nat) {off : Nat} (h : off ∉ [0x020000, 0x040038, 0x080018, 0x080028]) :
    regOf (s.warmed tu) off = if warmKeeps off then regOf s off else resetWord off := by
  simp only [List.mem_cons, List.not_mem_nil, or_false, not_or] at h
  obtain ⟨h1, h2, h3, h4⟩ := h
  have hclear : regOf (s.warmed tu) off = regOf { s.halted tu with regs := tkeep warmKeeps s.regs } off :=
    (regOf_setReg_ne _ _ _ _ h2).trans ((regOf_fatalShown_ne _ h4).trans ((regOf_setReg_ne _ _ _ _ h3).trans (regOf_setReg_ne _ _ _ _ h1)))
  rw [hclear]
  cases hk : warmKeeps off with
  | true => exact regOf_regsKeep_of s warmKeeps hk
  | false => exact regOf_regsKeep_not s warmKeeps hk

theorem warmReset_holds (s : State) : (warmReset s).Holds := by
  rintro ⟨hreq, hcold, hready, hc⟩
  have hr := hc.rising
  refine answers_of_ends warmResetAct rfl (ends_warmResetAct hreq hcold hready fun tu => ?_)
  have hr1 := rising_warmCleared tu hr
  have hr2 : Rising ((s.warmCleared tu).setReg 0x080018 (regOf (s.warmCleared tu) 0x080010).toNat).regs := setReg_rising _ _ _ hr1
  have hr3 := rising_fatalShown hr2
  have hqueue : regOf (s.warmCleared tu) 0x080010 = regOf s 0x080010 :=
    (regOf_setReg_ne _ _ _ _ (by decide)).trans (regOf_regsKeep_of s warmKeeps (by decide))
  refine ⟨rfl, rfl, rfl, rfl, stopped_halted s tu, regOf_setReg_same _ _ _ hr3, ?_, rfl, rfl, rfl, rfl, ?_, ?_, ?_⟩
  · have hready' : fieldOf (s.warmed tu) 0x020000 3 1 = fieldOf (s.warmCleared tu) 0x020000 3 1 := by
      refine congrArg (fun w => bitsOf (BitVec.toNat w) 3 1) ?_
      exact (regOf_setReg_ne _ _ _ _ (by decide)).trans ((regOf_fatalShown_ne _ (by decide)).trans (regOf_setReg_ne _ _ _ _ (by decide)))
    rw [hready']
    exact fieldOf_setField_same _ _ _ _ _ (hr.filter _) (by decide)
  · intro off hk hoff
    have hne : off ∉ [0x020000, 0x040038, 0x080018, 0x080028] := by
      rintro hmem
      simp only [List.mem_cons, List.not_mem_nil, or_false, not_or] at hmem hoff
      rcases hmem with rfl | rfl | rfl | rfl
      · exact hoff.1 rfl
      · exact hoff.2 rfl
      · exact absurd hk (by decide)
      · exact absurd hk (by decide)
    rw [regOf_warmed_ne s tu hne, if_pos hk]
  · intro off hk hoff
    have hne : off ∉ [0x020000, 0x040038, 0x080018, 0x080028] := by
      rintro hmem
      simp only [List.mem_cons, List.not_mem_nil, or_false, not_or] at hmem hoff
      rcases hmem with rfl | rfl | rfl | rfl
      · exact absurd hk (by decide)
      · exact absurd hk (by decide)
      · exact hoff.1 rfl
      · exact hoff.2 rfl
    rw [regOf_warmed_ne s tu hne, if_neg (by simp [hk])]
  · refine (regOf_setReg_ne _ _ _ _ (by decide)).trans ((regOf_fatalShown_ne _ (by decide)).trans ?_)
    rw [regOf_setReg_same _ _ _ hr1, BitVec.ofNat_toNat, BitVec.setWidth_eq, hqueue]

/-! ## Mirrors, alignment and reset requests (R16, R48, R384) -/

theorem mirrorTakeover_holds (s : State) (p : Pair) : (mirrorTakeover s p).Holds := by
  rintro ⟨hphase, hup, hc⟩
  refine answers_of_ends _ rfl ?_
  have hcond : (s.mod.phase != .off && pairUp s p == (true, true)) = true := by simp [hphase, hup]
  simp only [bind_apply, look_apply, ends_look, hcond, if_true, setPair, ends_modMod]
  refine ends_raise (by decide) fun u hu => ?_
  have hmod : u.mod = _ := hu.onlyChanges .mod (by decide)
  refine ⟨?_, hu.reported, hu.regs, ?_⟩
  · cases p <;> simp [pairUp, hmod]
  · exact .trans (onlyChanges_of_take rfl) (hu.onlyChanges.mono (by decide))

theorem dieReadyReport_holds (s : State) (d : Fin 100) : (dieReadyReport s d).Holds := by
  rintro ⟨halign, hnew⟩
  have hcond : (aligning s && !s.mod.readyDies.contains d.val) = true := by simpa [halign] using hnew
  refine exec_of_ends (dieReadyAct d) rfl ?_
  simp only [dieReadyAct, bind_apply, look_apply, ends_look, if_pos hcond, ends_modMod, ends_done]

/-- A due time that has come costs no time. -/
theorem ends_advanceTo_past {due : Nat} {k : Unit → Prog} {s : State} {Q : State → Prop} (h : due ≤ s.time.now) (hQ : Ends (k ()) s Q) :
    Ends (advanceTo due k) s Q := by
  simpa only [advanceTo, bind_apply, look_apply, ends_look, ends_ite_act, if_neg (Nat.not_lt.2 h), pure_apply] using hQ

theorem alignTick_holds (s : State) (at_ : Nat) : (alignTick s at_).Holds := by
  rintro ⟨hat, hdue, hboot⟩
  have hcond : (s.mod.phase == .boot) = true := by rw [hboot]; rfl
  refine exec_of_ends alignTickAct rfl ?_
  simp only [alignTickAct, bind_apply, look_apply, ends_look, hat]
  refine ends_advanceTo_past hdue ?_
  simp only [ends_modMod, if_pos hcond, ends_modTime, ends_done]

theorem alignReadyTimeout_holds (s : State) : (alignReadyTimeout s).Holds := by
  rintro ⟨halign, hat, hfails⟩
  have hcond : (aligning s && s.mod.alignAt.isNone) = true := by simp [halign, hat]
  have hless : s.mod.alignFails ≠ 2 := by omega
  refine exec_of_ends alignTimeoutAct rfl ?_
  simp only [alignTimeoutAct, bind_apply, look_apply, ends_look, if_pos hcond, if_neg hless, ends_modMod, ends_done]

theorem alignFails_holds (s : State) : (alignFails s).Holds := by
  rintro ⟨halign, hat, hfails, hc⟩
  have hcond : (aligning s && s.mod.alignAt.isNone) = true := by simp [halign, hat]
  refine answers_of_ends alignTimeoutAct rfl ?_
  simp only [alignTimeoutAct, bind_apply, look_apply, ends_look, if_pos hcond, if_pos hfails, ends_modMod, ends_enterDiag,
    ends_done]
  exact ⟨inDiag_diagnosed _ _ hc.rising, fun off hoff => regOf_diagnosed _ _ hoff, onlyChanges_of_take rfl⟩

theorem lcsReset_holds (s : State) (w : Wr) (c : Instr) : (lcsReset s w c).Holds := by
  rintro ⟨⟨hup, hown⟩, hready, hcmd⟩
  have hexec : exec c s = finish (lcsResetWrite w) s := by rcases hcmd with ⟨rfl, -⟩ | ⟨rfl, -⟩ <;> rfl
  have hnotdiag : (s.mod.phase == .diag && w.path == .bmc) = false := by rw [hready]; rfl
  have hphase : (s.mod.phase == .ready) = true := by rw [hready]; rfl
  refine exec_of_ends (lcsResetWrite w) hexec ?_
  simp only [lcsResetWrite, bind_apply, look_apply, ends_look, hnotdiag, Bool.false_eq_true, if_false, ownerWrite, hup, hown, if_true]
  rcases hcmd with ⟨-, hcold⟩ | ⟨-, hcold, hwarm⟩
  · simp only [if_pos hcold, askCold, bind_apply, look_apply, ends_look, hready, ends_modMod, ends_done]
  · simp only [hcold, hwarm, hphase, zero_ne_one, if_false, if_true, bind_apply, look_apply, ends_look, ends_modMod, ends_done]

/-! ## The record of the crossings (R48, R408) -/

theorem rising_foldl_setReg (o v : Nat → Nat) (l : List Nat) {s : State} (hr : Rising s.regs) :
    Rising (l.foldl (fun s n => s.setReg (o n) (v n)) s).regs := by
  induction l generalizing s with
  | nil => exact hr
  | cons n l ih => exact ih (setReg_rising _ _ _ hr)

theorem regOf_foldl_setReg_ne (o v : Nat → Nat) (l : List Nat) (s : State) {off : Nat} (h : ∀ n ∈ l, off ≠ o n) :
    regOf (l.foldl (fun s n => s.setReg (o n) (v n)) s) off = regOf s off := by
  induction l generalizing s with
  | nil => rfl
  | cons n l ih => exact (ih _ fun m hm => h m (by simp [hm])).trans (regOf_setReg_ne _ _ _ _ (h n (by simp)))

/-- Registers written one by one read back. -/
theorem regOf_foldl_setReg (o v : Nat → Nat) (ho : ∀ m n, o m = o n → m = n) (l : List Nat) {s : State} (hr : Rising s.regs) {n : Nat}
    (hn : n ∈ l) : regOf (l.foldl (fun s n => s.setReg (o n) (v n)) s) (o n) = BitVec.ofNat 64 (v n) := by
  induction l generalizing s with
  | nil => cases hn
  | cons m l ih =>
    by_cases hl : n ∈ l
    · exact ih (setReg_rising _ _ _ hr) hl
    · obtain rfl : n = m := by simpa [hl] using hn
      refine (regOf_foldl_setReg_ne o v l _ fun k hk e => hl ?_).trans (regOf_setReg_same _ _ _ hr)
      rwa [ho _ _ e]

/-- A word of the record of the crossings. -/
def crossingWord (l : List (Nat × Nat × Nat)) (n : Nat) : Nat :=
  match l[n]? with
  | some (a, b, c) => a ||| b <<< 8 ||| c <<< 16 ||| 1 <<< 32
  | none => 0

theorem foldl_frame (o v : Nat → Nat) (l : List Nat) (s : State) :
    RegsChange (fun off => ∃ n ∈ l, off = o n) s (l.foldl (fun s n => s.setReg (o n) (v n)) s) := by
  induction l generalizing s with
  | nil => exact .refl _ _
  | cons n l ih =>
    refine (RegsChange.setReg s (v n) ?_).trans ((ih _).mono ?_)
    · exact ⟨n, by simp, rfl⟩
    · rintro off ⟨m, hm, rfl⟩
      exact ⟨m, by simp [hm], rfl⟩

theorem alignLatencyRecord_holds (s : State) (l : List (Fin 100 × Fin 100 × BitVec 16)) : (alignLatencyRecord s l).Holds := by
  rintro ⟨hlen, hal, hrec, hdue, hc⟩
  have hok : crossingsOk l = true := by simpa [crossingsOk] using hlen
  have hcond : (s.mod.aligned && !s.mod.latRecorded) = true := by rw [hal, hrec]; rfl
  set cs := l.map (fun x => (x.1.val, x.2.1.val, x.2.2.toNat)) with hcs
  have hexec : exec (.alignLatencyRecord l) s = finish (alignRecordAct cs) s := by
    show finishIf (crossingsOk l) _ s = _
    rw [hok, finishIf_true]
  refine answers_of_ends (alignRecordAct cs) hexec ?_
  simp only [alignRecordAct, bind_apply, look_apply, ends_look, if_pos hcond]
  refine ends_advanceTo_past hdue ?_
  rw [ends_modMod, ends_forIn _ _ (fun s n => s.setReg (0x061000 + 8 * n) (crossingWord cs n)) ?body]
  case body =>
    intro n _ k u
    simp only [crossingWord]
    cases cs[n]? <;> rfl
  set u := { s with mod := { s.mod with latRecorded := true } } with hu
  have hchange := foldl_frame (fun n => 0x061000 + 8 * n) (crossingWord cs) (List.range 512) u
  refine ⟨hchange.onlyChanges .mod (by decide), ?_, ?_, ?_⟩
  · intro n hn
    have hread := regOf_foldl_setReg (fun n => 0x061000 + 8 * n) (crossingWord cs) (fun m n h => by omega) (List.range 512) (s := u)
      hc.rising (List.mem_range.2 hn)
    refine hread.trans ?_
    simp only [crossingWord, hcs, List.getElem?_map]
    cases l[n]? <;> rfl
  · intro off hoff
    refine hchange.same off ?_
    rintro ⟨n, hn, rfl⟩
    exact hoff n (List.mem_range.1 hn) rfl
  · exact .trans (t := u) (onlyChanges_of_take rfl) (hchange.onlyChanges.mono (by decide))

/-! ## What a FATAL report may change (R375–R378) -/

/-- An effect that leaves MEM_T1_STATUS alone. -/
def SparesT1Status : Effect → Prop
  | .reg off _ => off ≠ 0x200000
  | .regsKeep _ => False
  | _ => True

theorem within_sendVec {P : Effect → Prop} (hh : ∀ x, P (.host x)) (he : ∀ x, P (.emit x)) (pf : Bool) (fn vec : Nat) :
    Act.Within P (sendVec pf fn vec) :=
  Act.within_bind Act.within_look fun _ =>
    Act.within_ite (Act.within_ite (Act.within_pure _) (within_modHost hh)) (Act.within_ite (within_emit (he _)) (Act.within_pure _))

theorem within_erqInterrupt : Act.Within SparesT1Status erqInterrupt := by
  refine Act.within_bind Act.within_look fun s => Act.within_ite ?_ (within_modErr fun _ => trivial)
  exact Act.within_bind (within_modErr fun _ => trivial) fun _ =>
    Act.within_bind (within_sendVec (fun _ => trivial) (fun _ => trivial) _ _ _) fun _ =>
      Act.within_bind (within_emit trivial) fun _ => within_emit trivial

theorem within_modMem2 {P : Effect → Prop} {f : MemErr → MemErr} (h : ∀ x, P (.mem2 x)) : Act.Within P (modMem2 f) :=
  Act.within_bind Act.within_look fun _ => Act.within_eff (h _)
theorem within_modFab {P : Effect → Prop} {f : Fab → Fab} (h : ∀ x, P (.fab x)) : Act.Within P (modFab f) :=
  Act.within_bind Act.within_look fun _ => Act.within_eff (h _)

theorem within_takeId : Act.Within SparesT1Status takeId :=
  Act.within_bind Act.within_look fun _ => Act.within_bind (within_modFab fun _ => trivial) fun _ => Act.within_pure _

theorem within_sendOxt (n vc : Nat) (x : Oxt) : Act.Within SparesT1Status (sendOxt n vc x) :=
  Act.within_bind Act.within_look fun _ => Act.within_ite (within_modPort fun _ => trivial) (Act.within_pure _)

theorem within_sendFabReq (dst part id op size tries : Nat) (coh : Bool) (atomOp off len : Nat) (data : List Byte) :
    Act.Within SparesT1Status (sendFabReq dst part id op size tries coh atomOp off len data) := by
  refine Act.within_bind Act.within_look fun s => ?_
  cases fabRoute s dst off id tries with
  | none => exact Act.within_pure _
  | some x => exact Act.within_bind (within_sendOxt _ _ _) fun _ => Act.within_pure _

theorem within_invalLines (lines : List Nat) (except part : Nat) : Act.Within SparesT1Status (invalLines lines except part) := by
  refine Act.within_bind Act.within_look fun s => Act.within_bind (Act.within_forIn _ _ _ fun j _ _ => ?_) fun _ =>
    Act.within_bind (within_modFab fun _ => trivial) fun _ => Act.within_pure _
  refine Act.within_bind (Act.within_forIn _ _ _ fun l _ _ => Act.within_ite ?_ (Act.within_pure _)) fun _ => Act.within_pure _
  exact Act.within_bind within_takeId fun _ => Act.within_bind (within_sendFabReq _ _ _ _ _ _ _ _ _ _ _) fun _ =>
    Act.within_bind (within_ctr64 fun _ => by simp [SparesT1Status]) fun _ => Act.within_pure _

theorem within_homeWrite (a n : Nat) : Act.Within SparesT1Status (homeWrite a n) := by
  refine Act.within_bind Act.within_look fun s => Act.within_ite (Act.within_pure _) ?_
  refine Act.within_forIn _ _ _ fun l _ _ => Act.within_bind (within_invalLines _ _ _) fun ws => ?_
  exact Act.within_ite (Act.within_pure _) (Act.within_bind (within_modFab fun _ => trivial) fun _ => Act.within_pure _)

theorem within_zeroMem (a n : Nat) : Act.Within SparesT1Status (zeroMem a n) :=
  Act.within_bind (Act.within_eff trivial) fun _ => Act.within_bind (within_modMem2 fun _ => trivial) fun _ => within_homeWrite a n

theorem within_releaseT3 (gib : Nat) : Act.Within SparesT1Status (releaseT3 gib) :=
  Act.within_bind Act.within_look fun _ => Act.within_forIn _ _ _ fun _ _ _ =>
    Act.within_ite (Act.within_bind (within_modThread fun _ => trivial) fun _ => Act.within_pure _) (Act.within_pure _)

theorem within_wipeT3Part (k : Nat) : Act.Within SparesT1Status (wipeT3Part k) :=
  Act.within_bind Act.within_look fun _ => Act.within_bind
    (Act.within_forIn _ _ _ fun r _ _ => Act.within_bind (within_zeroMem r.1 r.2) fun _ => Act.within_pure _) fun _ =>
      Act.within_bind (within_modMem2 fun _ => trivial) fun _ => within_releaseT3 k

theorem within_wipeChunk : Act.Within SparesT1Status wipeChunk := by
  refine Act.within_bind Act.within_look fun s => ?_
  cases hnext : s.mem2.t3Next with
  | none =>
    cases nextT3Part s with
    | none => exact Act.within_pure _
    | some k => exact within_wipeT3Part k
  | some k =>
    have hport : ∀ n x, SparesT1Status (.reg (0x200020 + 8 * n) x) := fun n x => by simp only [SparesT1Status]; omega
    refine Act.within_bind (within_zeroMem _ _) fun _ => ?_
    extract_lets nx last go r
    have hlast : ∀ x, Act.Within SparesT1Status (last x) := fun _ => within_releaseT3 k
    have hgo : ∀ x, Act.Within SparesT1Status (go x) := by
      intro x
      dsimp only [go]
      refine Act.within_bind (within_modMem2 fun _ => trivial) fun _ => ?_
      exact Act.within_ite (Act.within_bind (within_modNv fun _ => trivial) hlast)
        (Act.within_ite (Act.within_bind (within_modNv fun _ => trivial) hlast) (hlast ()))
    refine Act.within_ite (Act.within_bind (Act.within_forIn _ _ _ fun n _ _ => ?_) fun _ => hgo ()) ?_
    · exact Act.within_bind (within_wrF (hport n)) fun _ => Act.within_pure _
    · exact Act.within_bind within_rdF fun _ => Act.within_bind (within_wrF (hport (k / 2048))) hgo

theorem within_awaitT3 (fuel : Nat) (rs : List (Nat × Nat)) : Act.Within SparesT1Status (awaitT3 fuel rs) := by
  induction fuel with
  | zero => exact Act.within_pure _
  | succ fuel ih =>
    exact Act.within_bind Act.within_look fun _ => Act.within_ite (Act.within_bind within_wipeChunk fun _ => ih) (Act.within_pure _)

theorem within_putNat (a n v : Nat) : Act.Within SparesT1Status (putNat a n v) := by
  refine Act.within_bind (Act.within_bind (within_awaitT3 _ _) fun _ => Act.within_bind
    (Act.within_forIn _ _ _ fun _ _ _ => Act.within_bind (Act.within_eff trivial) fun _ => Act.within_pure _) fun _ =>
      Act.within_bind Act.within_look fun _ => Act.within_ite (within_modMem2 fun _ => trivial) (Act.within_pure _)) fun _ =>
        within_homeWrite _ _

theorem within_erqStore (i v : Nat) : Act.Within SparesT1Status (erqStore i v) :=
  Act.within_bind Act.within_look fun _ => Act.within_ite (within_putNat _ _ _) (Act.within_pure _)

theorem within_closeRecord (r : OpenRec) : Act.Within SparesT1Status (closeRecord r) := by
  have hcount : Act.Within SparesT1Status (ctr32 0x080020) := within_ctr32 fun _ => by simp [SparesT1Status]
  refine Act.within_bind Act.within_look fun _ => Act.within_bind (within_modErr fun _ => trivial) fun _ => Act.within_bind Act.within_look fun s => ?_
  extract_lets ws fatal latest ring
  have hfatal : ∀ x, Act.Within SparesT1Status (fatal x) := fun _ => by
    refine Act.within_ite ?_ (Act.within_pure _)
    exact Act.within_bind (within_modNv fun _ => trivial) fun _ => Act.within_bind (within_modErr fun _ => trivial) fun _ =>
      within_showFatalLog fun off _ h h' => show off ≠ 0x200000 by omega
  have hlatest : ∀ x, Act.Within SparesT1Status (latest x) := fun _ => Act.within_bind (within_erqStore _ _) hfatal
  have hring : ∀ x, Act.Within SparesT1Status (ring x) := fun _ => by
    refine Act.within_bind within_rdReg fun tail => Act.within_bind within_rdReg fun head => ?_
    refine Act.within_ite (Act.within_bind hcount hlatest) (Act.within_bind (within_erqStore _ _) fun _ =>
      Act.within_bind (within_wrReg fun _ => by simp [SparesT1Status]) fun _ => ?_)
    exact Act.within_ite (Act.within_bind within_erqInterrupt hlatest) (hlatest ())
  refine Act.within_ite (Act.within_bind hcount hfatal) (Act.within_ite (Act.within_bind (within_erqStore _ _) fun _ => ?_) (hring ()))
  exact Act.within_bind (within_modErr fun _ => trivial) hring

theorem within_noteSource (code sev : Nat) {die : Nat} (h : die < 128) : Act.Within SparesT1Status (noteSource code sev die) := by
  have h0 : ∀ x, SparesT1Status (.reg (0x081000 + 0x10 * die) x) := fun _ => show _ ≠ _ by omega
  have h8 : ∀ x, SparesT1Status (.reg ((0x081000 + 0x10 * die + 8) / 8 * 8) x) := fun _ => show _ ≠ _ by omega
  have h12 : ∀ x, SparesT1Status (.reg ((0x081000 + 0x10 * die + 12) / 8 * 8) x) := fun _ => show _ ≠ _ by omega
  refine Act.within_bind within_rdF fun first => ?_
  extract_lets go
  have hgo : ∀ x, Act.Within SparesT1Status (go x) := fun _ =>
    Act.within_bind (within_wrF h0) fun _ => Act.within_bind within_rdF fun _ => Act.within_bind (within_wrF h0) fun _ =>
      Act.within_bind (within_ctr32 h8) fun _ => Act.within_ite (within_ctr32 h12) (Act.within_pure _)
  exact Act.within_ite (Act.within_bind (within_wrF h0) hgo) (hgo ())

/-- A report of any severity leaves MEM_T1_STATUS alone. -/
theorem within_raise (code sev : Nat) {die : Nat} (h : die < 128) (unit : Nat) (part : Option Nat) (addr detail : Nat) :
    Act.Within SparesT1Status (raise code sev die unit part addr detail) := by
  refine Act.within_bind (within_noteSource code sev h) fun _ => ?_
  extract_lets go
  have hgo : ∀ x, Act.Within SparesT1Status (go x) := fun _ =>
    Act.within_bind Act.within_look fun _ => Act.within_ite (within_closeRecord _) (within_modErr fun _ => trivial)
  exact Act.within_ite (Act.within_bind (within_wrF fun _ => by simp [SparesT1Status]) hgo) (hgo ())

theorem Reach.regOf_t1Status {s t : State} (h : Reach SparesT1Status s t) : regOf t 0x200000 = regOf s 0x200000 := by
  refine h.rel (R := fun s t => regOf t 0x200000 = regOf s 0x200000) (fun _ => rfl) (fun _ _ _ h h' => h'.trans h) fun e he s => ?_
  cases e with
  | reg off v =>
    have hset := regOf_setReg_ne s off v.toNat 0x200000 (Ne.symm he)
    rwa [State.setReg, BitVec.ofNat_toNat, BitVec.setWidth_eq] at hset
  | regsKeep f => exact he.elim
  | _ => rfl

/-- A report of any severity: the state stays canonical, and MEM_T1_STATUS as it was. -/
theorem ends_raise_any {code sev die unit : Nat} {part : Option Nat} {addr detail : Nat} (h : die < 128) {k : Unit → Prog} {s : State}
    {Q : State → Prop} (hc : Canon s) (hQ : ∀ u, Canon u → regOf u 0x200000 = regOf s 0x200000 → Ends (k ()) u Q) :
    Ends (raise code sev die unit part addr detail k) s Q := by
  obtain ⟨u, x, e, hr⟩ := within_raise code sev h unit part addr detail k s
  rw [Ends, e]
  exact hQ u (hr.canon hc) hr.regOf_t1Status

/-! ## Training and the end of the boot (R254, R386) -/

/-- With no tier-3 wipe to go on with none starts. -/
theorem ends_startT3Wipe_none {k : Unit → Prog} {s : State} {Q : State → Prop} (h : s.nv.wipeMark = none) (hQ : Ends (k ()) s Q) :
    Ends (startT3Wipe k) s Q := by
  simp only [startT3Wipe, bind_apply, look_apply, ends_look, h]
  cases s.mem2.t3Next <;> exact hQ

/-- MEM_TRAINING comes in the boot, after the firmware and the alignment. -/
abbrev TrainingDue (s : State) : Prop := s.mod.phase = .boot ∧ s.mod.fwDone = true ∧ s.mod.aligned = true ∧ s.mod.trained = false

theorem trainingDue_cond {s : State} (h : TrainingDue s) :
    (s.mod.phase == .boot && s.mod.fwDone && s.mod.aligned && !s.mod.trained) = true := by
  obtain ⟨hphase, hfw, hal, htr⟩ := h
  rw [hphase, hfw, hal, htr]
  rfl

theorem memTraining_holds (s : State) (ok : Bool) (site : Fin 100) : (memTraining s ok site).Holds := by
  rintro ⟨hphase, hfw, hal, htr, hfails, hwipe⟩
  have hcond := trainingDue_cond ⟨hphase, hfw, hal, htr⟩
  have hless : s.mod.trainFails ≠ 2 := by omega
  refine exec_of_ends (trainAct ok site) rfl ?_
  simp only [trainAct, bind_apply, look_apply, ends_look, if_pos hcond]
  cases ok with
  | true =>
    simp only [if_true, bind_apply, ends_modMod, planAll, ends_modPw]
    exact ends_startT3Wipe_none hwipe rfl
  | false => simp only [Bool.false_eq_true, if_false, if_neg hless, ends_modMod, ends_done]

/-- The stack that failed reads so in MEM_T1_STATUS (R254). -/
def State.stackFailed (s : State) (site : Nat) : State :=
  if (60 ≤ site && site < 76) = true then s.setField 0x200000 (site - 60) 1 0 else s

theorem canon_stackFailed {s : State} (site : Nat) (h : Canon s) : Canon (s.stackFailed site) := by
  unfold State.stackFailed
  split
  · exact effect_canon _ _ h
  · exact h

theorem memTrainingFails_holds (s : State) (site : Fin 100) : (memTrainingFails s site).Holds := by
  rintro ⟨hphase, hfw, hal, htr, hfails, hc⟩
  have hcond := trainingDue_cond ⟨hphase, hfw, hal, htr⟩
  set t := { s with mod := { s.mod with trainFails := 3 } } with ht
  have hct : Canon t := hc
  have hraise : Ends (raise 0x2005 4 site 0 none 0 0 fun _ => enterDiag (some site.val) fun _ => .done) (t.stackFailed site) fun u =>
      InDiag u (some site.val) ∧ (60 ≤ site.val → site.val < 76 → fieldOf u 0x200000 (site - 60) 1 = 0) := by
    refine ends_raise_any (by omega) (canon_stackFailed site hct) fun u hcu hu => ?_
    rw [ends_enterDiag, ends_done]
    refine ⟨inDiag_diagnosed u _ hcu.rising, fun h h' => ?_⟩
    have hsite : (60 ≤ site.val && site.val < 76) = true := by simpa using ⟨h, h'⟩
    rw [fieldOf, regOf_diagnosed u _ (by decide), hu, ← fieldOf, State.stackFailed, if_pos hsite]
    exact fieldOf_setField_same _ _ _ _ _ hct.rising (by omega)
  refine answers_of_ends (trainAct false site) rfl ?_
  simp only [trainAct, bind_apply, look_apply, ends_look, if_pos hcond, Bool.false_eq_true, if_false, if_pos hfails, ends_modMod]
  by_cases hsite : (60 ≤ site.val && site.val < 76) = true
  · rw [State.stackFailed, if_pos hsite] at hraise
    simp only [if_pos hsite, bind_apply, ends_wrF]
    exact hraise
  · rw [State.stackFailed, if_neg hsite] at hraise
    simp only [if_neg hsite]
    exact hraise

theorem bootWipeFails_holds (s : State) : (bootWipeFails s).Holds := by
  rintro ⟨hdue, hc⟩
  refine answers_of_ends (bootReadyAct false) rfl ?_
  simp only [bootReadyAct, bind_apply, look_apply, ends_look, if_pos hdue, Bool.false_eq_true, if_false]
  exact ends_raise_any (by decide) hc fun u hcu _ => inDiag_diagnosed u none hcu.rising

/-- A vector that is not masked leaves while the host link is up. -/
theorem ends_sendVec_unmasked {pf : Bool} {fn vec : Nat} {k : Unit → Prog} {s : State} {Q : State → Prop}
    (h : (pf, fn, vec) ∉ s.host.masked)
    (hQ : Ends (k ()) { s with out := s.out ++ if hostUp s then [.msix pf fn vec] else [] } Q) : Ends (sendVec pf fn vec k) s Q := by
  have hfree : s.host.masked.contains (pf, fn, vec) = false := by simpa using h
  simp only [sendVec, bind_apply, look_apply, ends_look, hfree, Bool.false_eq_true, if_false]
  by_cases hup : hostUp s = true
  · rw [if_pos hup] at hQ
    rw [if_pos hup]
    exact hQ
  · rw [if_neg hup, List.append_nil] at hQ
    rw [if_neg hup]
    exact hQ

/-- The state after the wipe of all memory but tier 3 (R384). -/
def State.memoryWiped (s : State) : State :=
  let keep := fun g => tierOf (64 * g) == .t3
  { s with mem := tkeep (fun a => tierOf a == .t3) s.mem
           mem2 := { s.mem2 with poison := s.mem2.poison.filter keep, ue := s.mem2.ue.filter keep } }

@[simp] theorem ends_wipeMemory (k : Unit → Prog) (s : State) (Q : State → Prop) :
    Ends (wipeMemory k) s Q = Ends (k ()) s.memoryWiped Q := rfl

theorem memAt_memoryWiped (s : State) (a : Nat) : memAt s.memoryWiped a = if tierOf a = .t3 then memAt s a else 0 := by
  by_cases h : tierOf a = .t3
  · rw [if_pos h]
    exact tget_tkeep_of _ _ (fun a => tierOf a == .t3) _ (by simp [h])
  · rw [if_neg h]
    exact tget_tkeep_not _ _ (fun a => tierOf a == .t3) _ (by simp [h])

theorem bootReady_holds (s : State) : (bootReady s).Holds := by
  rintro ⟨hdue, hwipe, hmask, hc⟩
  refine answers_of_ends (bootReadyAct true) rfl ?_
  simp only [bootReadyAct, bind_apply, look_apply, ends_look, if_pos hdue, if_true, ends_wipeMemory]
  refine ends_startT3Wipe_none hwipe (ends_loadFuses fun u hu => ?_)
  have hkeep := hu.regs.onlyChanges
  have hmod : u.mod = s.mod := hkeep .mod (by decide)
  have hhost : u.host = s.host := hkeep .host (by decide)
  have hout : u.out = s.out := hkeep .out (by decide)
  have hlink : fieldOf u 0x110000 0 1 = fieldOf s 0x110000 0 1 := hu.regs.field (by unfold FuseReg; omega) 0 1
  simp only [ends_wrF, ends_modMod]
  have hmask' : (true, 0, 7) ∉ u.host.masked := by rwa [hhost]
  refine ends_sendVec_unmasked hmask' ?_
  rw [ends_emit, ends_done]
  have hr : Rising u.regs := hu.regs.rising hc.rising
  refine ⟨?_, fieldOf_setField_same _ _ _ _ _ hr (by decide), fun a => ?_, ?_, ?_⟩
  · show ({ u.mod with phase := .ready } : Mod) = _
    rw [hmod]
  · rw [← memAt_memoryWiped]
    exact congrArg (fun m => tget 0 m a) hu.regs.mem
  · have hup : hostUp { u.setField 0x020000 3 1 1 with mod := { u.mod with phase := .ready } } = hostUp s := by
      simp only [hostUp]
      rw [← hlink]
      exact congrArg (· == 1) (fieldOf_setField_ne u 0x020000 3 1 1 0x110000 0 1 (by decide))
    show (u.out ++ if hostUp { u.setField 0x020000 3 1 1 with mod := { u.mod with phase := .ready } } then _ else _) ++ _ = _
    rw [hup, hout, eventOut]
    cases hostUp s <;> simp
  · refine .trans (t := s.memoryWiped) (onlyChanges_of_take rfl) (.trans (t := u) (hkeep.mono (by decide)) (onlyChanges_of_take rfl))

/-- Settles O57, clause by clause: a cold reset and a boot follow their state through `coldClear`, `loadFuses` and `enterDiag`. -/
theorem resetAndBoot : Obligations.ResetAndBoot := by
  unfold Obligations.ResetAndBoot
  intro s p d at_ cause v k l w c ok
  exact ⟨mirrorTakeover_holds s p, dieReadyReport_holds s d, alignTick_holds s at_, alignLatencyRecord_holds s l,
    alignReadyTimeout_holds s, alignFails_holds s, coldReset_holds s cause v, coldResetTransition_holds s cause k v,
    coldResetSealed_holds s cause v k, warmReset_holds s, lcsReset_holds s w c, memTraining_holds s ok d, memTrainingFails_holds s d,
    bootReady_holds s, bootWipeFails_holds s⟩

end Sys2Proof.Machine
end

section
/-!
SUPPORT. Device memory with no error, wipe or sharer about: what reads and writes of it come to.
-/

namespace Sys2Proof.Machine

open Sys2Proof.Claims

variable {s : State} {Q : State → Prop}

/-! ## Tables -/

theorem Canon.risingMem (h : Canon s) : Rising s.mem := by
  obtain ⟨-, hmem, -⟩ := h
  exact ((tblWf_iff (fun _ => (0 : Byte)) _).1 hmem).1

theorem Canon.risingThreads (h : Canon s) : Rising s.threads := by
  obtain ⟨-, -, hthreads, -⟩ := h
  exact ((tblWf_iff (fun _ => ({} : Thread)) _).1 hthreads).1

theorem Canon.risingPips (h : Canon s) : Rising s.pips := by
  obtain ⟨-, -, -, hpips, -⟩ := h
  exact ((tblWf_iff (fun _ => (0 : BitVec 16)) _).1 hpips).1

theorem Canon.risingQueues (h : Canon s) : Rising s.queues := by
  obtain ⟨-, -, -, -, -, hqueues, -⟩ := h
  exact ((tblWf_iff (fun _ => ({} : Queue)) _).1 hqueues).1

theorem Canon.risingParts (h : Canon s) : Rising s.parts := by
  obtain ⟨-, -, -, -, -, -, hparts, -⟩ := h
  exact ((tblWf_iff (fun _ => ({} : Part)) _).1 hparts).1

theorem Canon.risingPools (h : Canon s) : Rising s.pools := by
  obtain ⟨-, -, -, -, -, -, -, hpools, -⟩ := h
  exact ((tblWf_iff (fun _ => ({} : Pool)) _).1 hpools).1

theorem Canon.risingGroups (h : Canon s) : Rising s.groups := by
  obtain ⟨-, -, -, -, -, -, -, -, hgroups, -⟩ := h
  exact ((tblWf_iff (fun _ => ({} : Group)) _).1 hgroups).1

theorem threadOf_setThread_same (v : Thread) (k : Nat) (h : Rising s.threads) : threadOf (s.setThread k v) k = v := tget_tput_same _ _ _ _ h
theorem threadOf_setThread_ne (v : Thread) {k j : Nat} (h : j ≠ k) : threadOf (s.setThread k v) j = threadOf s j := tget_tput_ne _ _ _ _ _ h
theorem partOf_setPart_same (v : Part) (k : Nat) (h : Rising s.parts) : partOf (s.setPart k v) k = v := tget_tput_same _ _ _ _ h
theorem partOf_setPart_ne (v : Part) {k j : Nat} (h : j ≠ k) : partOf (s.setPart k v) j = partOf s j := tget_tput_ne _ _ _ _ _ h
theorem queueOf_setQueue_same (v : Queue) (k : Nat) (h : Rising s.queues) : queueOf (s.setQueue k v) k = v := tget_tput_same _ _ _ _ h
theorem queueOf_setQueue_ne (v : Queue) {k j : Nat} (h : j ≠ k) : queueOf (s.setQueue k v) j = queueOf s j := tget_tput_ne _ _ _ _ _ h
theorem poolOf_setPool_same (v : Pool) (k : Nat) (h : Rising s.pools) : poolOf (s.setPool k v) k = v := tget_tput_same _ _ _ _ h
theorem poolOf_setPool_ne (v : Pool) {k j : Nat} (h : j ≠ k) : poolOf (s.setPool k v) j = poolOf s j := tget_tput_ne _ _ _ _ _ h
theorem groupOf_setGroup_same (v : Group) (k : Nat) (h : Rising s.groups) : groupOf (s.setGroup k v) k = v := tget_tput_same _ _ _ _ h
theorem groupOf_setGroup_ne (v : Group) {k j : Nat} (h : j ≠ k) : groupOf (s.setGroup k v) j = groupOf s j := tget_tput_ne _ _ _ _ _ h
theorem pipOf_setPip_same (v : BitVec 16) (k : Nat) (h : Rising s.pips) : pipOf (s.setPip k v) k = v := tget_tput_same _ _ _ _ h
theorem pipOf_setPip_ne (v : BitVec 16) {k j : Nat} (h : j ≠ k) : pipOf (s.setPip k v) j = pipOf s j := tget_tput_ne _ _ _ _ _ h

/-! ## What a state that keeps a piece reads -/

section
variable {t : State} {may : List Piece} (h : OnlyChanges s t may)
include h

theorem OnlyChanges.threadOf (hp : .threads ∉ may) (k : Nat) : threadOf t k = threadOf s k := by
  rw [Machine.threadOf, (h .threads hp).1, Machine.threadOf]
theorem OnlyChanges.partOf (hp : .parts ∉ may) (k : Nat) : partOf t k = partOf s k := by
  rw [Machine.partOf, h .parts hp, Machine.partOf]
theorem OnlyChanges.queueOf (hp : .queues ∉ may) (k : Nat) : queueOf t k = queueOf s k := by
  rw [Machine.queueOf, h .queues hp, Machine.queueOf]
theorem OnlyChanges.poolOf (hp : .pools ∉ may) (k : Nat) : poolOf t k = poolOf s k := by
  rw [Machine.poolOf, h .pools hp, Machine.poolOf]
theorem OnlyChanges.groupOf (hp : .groups ∉ may) (k : Nat) : groupOf t k = groupOf s k := by
  rw [Machine.groupOf, h .groups hp, Machine.groupOf]
theorem OnlyChanges.pipOf (hp : .pips ∉ may) (k : Nat) : pipOf t k = pipOf s k := by
  rw [Machine.pipOf, h .pips hp, Machine.pipOf]
theorem OnlyChanges.field (hp : .regs ∉ may) (off lo len : Nat) : fieldOf t off lo len = fieldOf s off lo len := by
  rw [fieldOf, h .regs hp off, fieldOf]
theorem OnlyChanges.memBytes (hp : .mem ∉ may) (a n : Nat) : memBytes t a n = memBytes s a n :=
  List.map_congr_left fun i _ => h .mem hp (a + i)
theorem OnlyChanges.memNat (hp : .mem ∉ may) (a n : Nat) : memNat t a n = memNat s a n := by
  rw [Machine.memNat, OnlyChanges.memBytes h hp, Machine.memNat]
theorem OnlyChanges.memItem (hp : .mem ∉ may) (a : Nat) : memItem t a = memItem s a := by
  rw [Machine.memItem, OnlyChanges.memNat h hp, Machine.memItem]
theorem OnlyChanges.cleanMem (hp : .mem2 ∉ may) (hc : CleanMem s) : CleanMem t := by
  rwa [CleanMem, h .mem2 hp]
end

/-! ## Reads (R258, R373) -/

/-- No wipe of tier 3 is under way. -/
theorem t3BusyRun_clean (h : CleanMem s) (a n : Nat) : t3BusyRun s a n = false := by
  obtain ⟨-, -, -, hnext, hpart⟩ := h
  simp [t3BusyRun, hnext, hpart]

theorem ends_awaitT3_clean (h : CleanMem s) (fuel : Nat) (rs : List (Nat × Nat)) (k : Unit → Prog) :
    Ends (awaitT3 fuel rs k) s Q = Ends (k ()) s Q := by
  cases fuel with
  | zero => rfl
  | succ fuel =>
    have hany : rs.any (fun r => t3BusyRun s r.1 r.2) = false := by simp [t3BusyRun_clean h]
    rw [awaitT3]
    simp only [bind_apply, look_apply, ends_look, hany, Bool.false_eq_true, if_false, pure_apply]

theorem ends_reachT3_clean (h : CleanMem s) (rs : List (Nat × Nat)) (k : Unit → Prog) : Ends (reachT3 rs k) s Q = Ends (k ()) s Q :=
  ends_awaitT3_clean h ..

theorem t3Dead_clean (h : CleanMem s) (a n : Nat) : t3Dead s a n = none := by
  obtain ⟨-, -, hport, -⟩ := h
  simp [t3Dead, t3Failed, hport]

theorem ends_aliveRuns_clean (h : CleanMem s) (die unit : Nat) (part : Option Nat) (rs : List (Nat × Nat)) (k : Bool → Prog) :
    Ends (aliveRuns die unit part rs k) s Q = Ends (k true) s Q := by
  have hnone : rs.findSome? (fun r => t3Dead s r.1 r.2) = none := by simp [t3Dead_clean h]
  simp only [aliveRuns, bind_apply, look_apply, ends_look, hnone, pure_apply]

/-- What a unit reads is good. -/
theorem ends_consumeRuns_clean (h : CleanMem s) (die unit : Nat) (part : Option Nat) (rs : List (Nat × Nat)) (k : Bool → Prog) :
    Ends (consumeRuns die unit part rs k) s Q = Ends (k true) s Q := by
  obtain ⟨hpo, hue, -⟩ := id h
  simp only [consumeRuns, bind_apply, ends_reachT3_clean h, look_apply, ends_look, touchedBy, hpo, hue, List.filter_nil, List.forIn_nil,
    pure_apply, ends_aliveRuns_clean h, List.isEmpty_nil, Bool.and_self]

theorem ends_consume_clean (h : CleanMem s) (die unit : Nat) (part : Option Nat) (a n : Nat) (k : Bool → Prog) :
    Ends (consume die unit part a n k) s Q = Ends (k true) s Q := by
  unfold consume
  split
  · rfl
  · exact ends_consumeRuns_clean h ..

/-! ## Writes -/

/-- The bytes of memory after a write. -/
def memPut (m : List Host.Cell) (a : Nat) : List Byte → List Host.Cell
  | [] => m
  | b :: bs => memPut (tput 0 m a b) (a + 1) bs

/-- Those of a state. It is irreducible: a comparison of states must not compute the bytes. -/
@[irreducible] def State.memAfter (s : State) (a : Nat) (bs : List Byte) : List Host.Cell := memPut s.mem a bs

/-- The state after a write of memory. -/
def State.putMem (s : State) (a : Nat) (bs : List Byte) : State := { s with mem := s.memAfter a bs }

theorem memAt_putMem_eq (s : State) (a : Nat) (bs : List Byte) (x : Nat) : memAt (s.putMem a bs) x = tget 0 (memPut s.mem a bs) x := by
  rw [memAt, State.putMem, State.memAfter]

theorem putMem_nil (s : State) (a : Nat) : s.putMem a [] = s := by
  rw [State.putMem, State.memAfter, memPut]

theorem putMem_cons (s : State) (a : Nat) (b : Byte) (bs : List Byte) :
    s.putMem a (b :: bs) = ({ s with mem := tput 0 s.mem a b } : State).putMem (a + 1) bs := by
  rw [State.putMem, State.putMem, State.memAfter, State.memAfter, memPut]

theorem rising_memPut (bs : List Byte) {m : List Host.Cell} (a : Nat) (h : Rising m) : Rising (memPut m a bs) := by
  induction bs generalizing m a with
  | nil => exact h
  | cons b bs ih => exact ih _ (tput_rising _ _ _ _ h)

theorem tget_memPut_out (bs : List Byte) (m : List Host.Cell) (a x : Nat) (h : x < a ∨ a + bs.length ≤ x) :
    tget 0 (memPut m a bs) x = tget 0 m x := by
  induction bs generalizing m a with
  | nil => rfl
  | cons b bs ih =>
    rw [List.length_cons] at h
    exact (ih _ (a + 1) (by omega)).trans (tget_tput_ne _ _ _ _ _ (by omega))

theorem tget_memPut_in (bs : List Byte) {m : List Host.Cell} (a : Nat) {j : Nat} (hm : Rising m) (h : j < bs.length) :
    tget 0 (memPut m a bs) (a + j) = bs[j] := by
  induction bs generalizing m a j with
  | nil => cases h
  | cons b bs ih =>
    cases j with
    | zero => exact (tget_memPut_out bs _ (a + 1) a (.inl (Nat.lt_succ_self a))).trans (tget_tput_same _ _ _ _ hm)
    | succ j =>
      have hj : j < bs.length := by simpa using h
      rw [show a + (j + 1) = a + 1 + j by omega]
      exact ih (a + 1) (tput_rising _ _ _ _ hm) hj

theorem memBut_putMem (s : State) (a : Nat) (bs : List Byte) : MemBut s (s.putMem a bs) a bs.length :=
  fun x hx => (memAt_putMem_eq s a bs x).trans (tget_memPut_out bs s.mem a x hx)

theorem memAt_putMem (a : Nat) {bs : List Byte} (hm : Rising s.mem) {j : Nat} (h : j < bs.length) :
    memAt (s.putMem a bs) (a + j) = bs[j] := (memAt_putMem_eq s a bs _).trans (tget_memPut_in bs a hm h)

theorem memBytes_putMem (a : Nat) (bs : List Byte) (hm : Rising s.mem) : memBytes (s.putMem a bs) a bs.length = bs := by
  refine List.ext_getElem (by simp [memBytes]) fun j hj hj' => ?_
  simpa [memBytes] using memAt_putMem a hm hj'

theorem ends_storeLoop (bs : List Byte) (a n : Nat) (k : PUnit → Prog) (s : State) :
    Ends ((forIn (bs.zipIdx n) PUnit.unit fun x _ => do eff (.mem (a + x.2) x.1); pure (ForInStep.yield PUnit.unit) : Act PUnit) k) s Q =
      Ends (k PUnit.unit) (s.putMem (a + n) bs) Q := by
  induction bs generalizing n s with
  | nil => rw [putMem_nil]; rfl
  | cons b bs ih =>
    rw [List.zipIdx_cons, List.forIn_cons, putMem_cons]
    exact ih (n + 1) _

theorem ends_storeBytes_clean (h : CleanMem s) (a : Nat) (bs : List Byte) (k : Unit → Prog) :
    Ends (storeBytes a bs k) s Q = Ends (k ()) (s.putMem a bs) Q := by
  have hclean : ∀ g : Nat, ((s.putMem a bs).mem2.poison.contains g || (s.putMem a bs).mem2.ue.contains g) = false := by
    obtain ⟨hpo, hue, -⟩ := h
    intro g
    simp [State.putMem, hpo, hue]
  have hnone : (wholeGranules a bs.length).any (fun g => (s.putMem a bs).mem2.poison.contains g || (s.putMem a bs).mem2.ue.contains g)
      = false := by simp only [hclean, List.any_eq_false]; simp
  simp only [storeBytes, bind_apply, ends_reachT3_clean h, ends_storeLoop, Nat.add_zero, look_apply, ends_look, hnone, Bool.false_eq_true,
    if_false, pure_apply]

/-- With no sharer of a line a local write tells no one (R280). -/
theorem ends_homeWrite_unshared (h : s.fab.dir = []) (a n : Nat) (k : Unit → Prog) : Ends (homeWrite a n k) s Q = Ends (k ()) s Q := by
  simp only [homeWrite, bind_apply, look_apply, ends_look, h, List.isEmpty_nil, if_true, pure_apply]

theorem ends_putBytes_clean (h : CleanMem s) (hdir : s.fab.dir = []) (a : Nat) (bs : List Byte) (k : Unit → Prog) :
    Ends (putBytes a bs k) s Q = Ends (k ()) (s.putMem a bs) Q := by
  have hdir' : (s.putMem a bs).fab.dir = [] := hdir
  simp only [putBytes, bind_apply, ends_storeBytes_clean h, ends_homeWrite_unshared hdir']

theorem length_natBytes (n v : Nat) : (natBytes n v).length = n := by simp [natBytes]

theorem ends_putNat_clean (h : CleanMem s) (hdir : s.fab.dir = []) (a n v : Nat) (k : Unit → Prog) :
    Ends (putNat a n v k) s Q = Ends (k ()) (s.putMem a (natBytes n v)) Q := ends_putBytes_clean h hdir a _ k

/-! ## Pips without waiters (R173) -/

/-- An increment of a pip that nobody waits for, and that stays within 16 bits. -/
theorem ends_addPip_free {p ctx core pip n : Nat} {k : Unit → Prog} (hn : (pipOf s (pipKey p ctx core pip)).toNat + n ≤ 0xFFFF)
    (hw : pipWaiters s p ctx core pip = []) :
    Ends (addPip p ctx core pip n k) s Q =
      Ends (k ()) (s.setPip (pipKey p ctx core pip) (pipOf s (pipKey p ctx core pip) + BitVec.ofNat 16 n)) Q := by
  have hsum : BitVec.ofNat 16 (min 0xFFFF ((pipOf s (pipKey p ctx core pip)).toNat + n)) =
      pipOf s (pipKey p ctx core pip) + BitVec.ofNat 16 n := by
    rw [Nat.min_eq_right hn, BitVec.ofNat_add, BitVec.ofNat_toNat, BitVec.setWidth_eq]
  have hw' : ∀ v, pipWaiters ((Effect.pip (pipKey p ctx core pip) v).apply s) p ctx core pip = [] := fun v => hw
  simp only [addPip, pipAdds, bind_apply, look_apply, ends_look, if_neg (Nat.not_lt.2 hn), eff_apply, ends_eff, hsum, hw',
    List.forIn_nil, pure_apply]
  rfl

/-! ## A write that is refused (R337) -/

/-- A refused write is counted and recorded, and does nothing else. -/
theorem ends_ownDenied {k : Unit → Prog} (hr : Rising s.regs)
    (hQ : ∀ u, Denied s u → (Rising u.regs) → Ends (k ()) u Q) : Ends (ownDenied k) s Q := by
  simp only [ownDenied, bind_apply, ends_ctr32]
  refine ends_raise (by decide) fun u hu => hQ u ⟨?_, hu.reported, fun off hoff => ?_, ?_⟩ (hu.rising (setField_rising _ _ _ _ _ hr))
  · rw [hu.field (by decide), fieldOf_setField_same _ _ _ _ _ hr (by decide), Nat.mod_eq_of_lt (by omega)]
  · rw [List.mem_cons, not_or] at hoff
    exact (hu.regs off hoff.2).trans (regOf_setReg_ne _ _ _ _ hoff.1)
  · exact (onlyChanges_regs s _).mono (by decide) |>.trans hu.onlyChanges

end Sys2Proof.Machine
end

section
/-!
SUPPORT. The entries of descriptor rings, and O47.
-/

namespace Sys2Proof.Machine

open Sys2Proof.Claims

variable {s : State} {Q : State → Prop} {r : Nat} {e : RingEntry}

/-! ## The table of rings -/

/-- The state with one ring replaced. -/
def State.setRing (s : State) (r : Nat) (g : Ring) : State := { s with host := { s.host with rings := tput {} s.host.rings r g } }

@[simp] theorem ends_modRing (r : Nat) (f : Ring → Ring) (k : Unit → Prog) (s : State) (Q : State → Prop) :
    Ends (modRing r f k) s Q = Ends (k ()) (s.setRing r (f (ringOf s r))) Q := rfl

theorem RingsOk.rising (h : RingsOk s) : Rising s.host.rings := ((tblWf_iff (fun _ => ({} : Ring)) _).1 h).1

theorem ringOf_setRing_same (g : Ring) (h : Rising s.host.rings) : ringOf (s.setRing r g) r = g := tget_tput_same _ _ _ _ h

theorem ringOf_setRing_ne (g : Ring) {k : Nat} (h : k ≠ r) : ringOf (s.setRing r g) k = ringOf s k := tget_tput_ne _ _ _ _ _ h

theorem rising_setRing (g : Ring) (h : Rising s.host.rings) : Rising (s.setRing r g).host.rings := tput_rising _ _ _ _ h

/-! ## The start of an entry (R324, R330) -/

/-- The ring has one entry, which has not started, and room for its completion. -/
structure HasEntry (s : State) (r : Nat) (e : RingEntry) : Prop where
  entries : (ringOf s r).entries = [e]
  fresh : e.started = false
  hold : (ringOf s r).hold = []
  room : cqFull s r 0 = false
  rising : Rising s.host.rings

theorem HasEntry.next (h : HasEntry s r e) : nextEntry s r = some e := by
  simp [nextEntry, h.entries, h.fresh, cqStalled, h.hold]

/-- What becomes of an entry after its body. -/
def entryEnds (r : Nat) (e : RingEntry) : EntryEnd → Act Unit
  | .done st res => endEntry r e st res
  | .later => modRing r (fun g => { g with entries := g.entries.map (fun x => if x.idx = e.idx then { x with started := true } else x) })
  | .wait => pure ()

theorem ends_startEntry {types : Nat → Bool} {body : RingEntry → Act EntryEnd} {k : Unit → Prog} (h : HasEntry s r e) (hbad : e.bad = false)
    (ht : types (eType e) = true) (hgate : jobGate s r e = none) :
    Ends (startEntry r types body k) s Q = Ends (body e fun x => entryEnds r e x k) s Q := by
  simp only [startEntry, bind_apply, look_apply, ends_look, h.next, hbad, Bool.false_eq_true, if_false, ht, if_true, hgate]
  refine congrArg (fun k => Ends (body e k) s Q) (funext fun x => ?_)
  cases x <;> rfl

theorem ends_startEntry_poisoned {types : Nat → Bool} {body : RingEntry → Act EntryEnd} {k : Unit → Prog} (h : HasEntry s r e)
    (hbad : e.bad = true) : Ends (startEntry r types body k) s Q = Ends (endEntry r e 9 0 k) s Q := by
  simp only [startEntry, bind_apply, look_apply, ends_look, h.next, hbad, if_true]

theorem ends_startEntry_noJob {types : Nat → Bool} {body : RingEntry → Act EntryEnd} {k : Unit → Prog} (h : HasEntry s r e)
    (hbad : e.bad = false) (ht : types (eType e) = true) (hgate : jobGate s r e = some true) :
    Ends (startEntry r types body k) s Q = Ends (endEntry r e 8 0 k) s Q := by
  simp only [startEntry, bind_apply, look_apply, ends_look, h.next, hbad, Bool.false_eq_true, if_false, ht, if_true, hgate]

/-! ## The end of an entry (R331) -/

/-- The queue of completions is as full as before while its registers read as before. -/
theorem cqFull_congr {u : State} (h2 : regOf u (rRing r 2) = regOf s (rRing r 2)) (h3 : regOf u (rRing r 3) = regOf s (rRing r 3))
    (h4 : regOf u (rRing r 4) = regOf s (rRing r 4)) (n : Nat) : cqFull u r n = cqFull s r n := by
  unfold cqFull fieldOf
  rw [h2, h3, h4]

/-- A completion that finds room waits to be written. -/
theorem ends_postCqe_room {c : Cqe} {k : Unit → Prog} (h : cqFull s r (ringOf s r).hold.length = false) (hc : c.src ≠ 2) :
    Ends (postCqe r c k) s Q =
      Ends (k ()) (s.setRing r { ringOf s r with hold := (ringOf s r).hold ++ [{ c with result64 := ftNs s }] }) Q := by
  simp only [postCqe, bind_apply, look_apply, ends_look, h, Bool.false_eq_true, if_false, ends_modRing, if_neg hc]

theorem ringSet_setRing {u : State} (g : Ring) (hhost : u.host = { s.host with rings := u.host.rings })
    (hother : ∀ k, k ≠ r → ringOf u k = ringOf s k) (hr : Rising u.host.rings) : RingSet s (u.setRing r g) r g := by
  refine ⟨ringOf_setRing_same g hr, fun k hk => (ringOf_setRing_ne g hk).trans (hother k hk), ?_⟩
  rw [State.setRing, hhost]

/-- The entry completes: its completion waits to be written, unless NOCQE drops it. `s` is the state in which it started. -/
theorem ends_endEntry {u : State} {st res : Nat} {may : List Piece} (h : HasEntry s r e) (hu : OnlyChanges s u may) (hhost : .host ∉ may)
    (htime : .time ∉ may) (hcq : cqFull u r 0 = false)
    (hQ : ∀ t, EntryDone s t r e st res may → OnlyChanges u t [.host] → Q t) : Ends (endEntry r e st res fun _ => .done) u Q := by
  have huhost : u.host = s.host := hu .host hhost
  have hring : ∀ k, ringOf u k = ringOf s k := fun k => by rw [ringOf, huhost, ringOf]
  have hft : ftNs u = ftNs s := congrArg (fun x : Time => x.ft.toNat >>> 16) (hu .time htime)
  have hru : Rising u.host.rings := huhost ▸ h.rising
  have hpieces : ∀ t, OnlyChanges u t [.host] → OnlyChanges s t (.host :: may) := fun t ht =>
    .trans (hu.mono (List.subset_cons_self _ _)) (ht.mono (by simp))
  have hgone : { ringOf u r with entries := (ringOf u r).entries.filter (fun x => x.idx != e.idx) } = { ringOf s r with entries := [] } := by
    simp [hring, h.entries]
  simp only [endEntry, retireEntry, bind_apply, ends_modRing, hgone]
  set v := u.setRing r { ringOf s r with entries := [] } with hv
  have hset : RingSet s v r { ringOf s r with entries := [] } := ringSet_setRing _ (by rw [huhost]) (fun k _ => hring k) hru
  obtain ⟨hread, hother, hrest⟩ := hset
  by_cases hcond : (st = 0 && eNoCqe e) = true
  · simp only [if_pos hcond, pure_apply, ends_done]
    have hdone : doneRing s r e st res = { ringOf s r with entries := [] } := by
      rw [doneRing, if_pos (by simpa using hcond), ← h.hold]
    have ht : OnlyChanges u v [.host] := onlyChanges_of_take rfl
    exact hQ v ⟨⟨hread.trans hdone.symm, hother, hrest⟩, hpieces v ht⟩ ht
  · have hroom : cqFull v r (ringOf v r).hold.length = false := by
      rw [hread, h.hold]
      exact hcq
    have hft' : ftNs v = ftNs s := hft
    rw [if_neg hcond, ends_postCqe_room hroom (show (0 : Nat) ≠ 2 by decide), hread, hft', ends_done]
    have hdone : doneRing s r e st res = { ringOf s r with
        entries := [], hold := (ringOf s r).hold ++ [{ tag := eTag e, src := 0, status := st, result := res, result64 := ftNs s }] } := by
      rw [doneRing, if_neg (by simpa using hcond), h.hold, List.nil_append]
    have ht : OnlyChanges u (v.setRing r (doneRing s r e st res)) [.host] := onlyChanges_of_take rfl
    rw [hdone] at ht
    refine hQ _ ⟨?_, hpieces _ ht⟩ ht
    rw [hdone]
    exact ringSet_setRing _ hrest hother (rising_setRing _ hru)

/-- A running job holds no entry back (R330). -/
theorem jobGate_running (h : jobState s (rgPart r) = 2) : jobGate s r e = none := by simp [jobGate, h]

/-- Without a job what needs one is ABORTED (R330). -/
theorem jobGate_noJob (h : jobState s (rgPart r) = 0 ∨ jobState s (rgPart r) = 3) (ht : eType e = 1 ∨ eType e = 4) :
    jobGate s r e = some true := by
  rcases h with h | h <;> rcases ht with ht | ht <;> simp [jobGate, h, ht]

theorem hasEntry_of_next1 {ty : Nat} (h : Next1 s r e ty) : HasEntry s r e := by
  obtain ⟨hentries, hfresh, -, -, hhold, hroom, -, hrings, -⟩ := h
  exact ⟨hentries, hfresh, hhold, hroom, RingsOk.rising hrings⟩

/-- The entry that is next, of a type of the row's, runs its body. -/
theorem ends_startEntry_next1 {ty : Nat} {types : Nat → Bool} {body : RingEntry → Act EntryEnd} {k : Unit → Prog} (h : Next1 s r e ty)
    (ht : types ty = true) : Ends (startEntry r types body k) s Q = Ends (body e fun x => entryEnds r e x k) s Q := by
  have hentry := hasEntry_of_next1 h
  obtain ⟨-, -, hbad, htype, -, -, hjob, -, -⟩ := h
  exact ends_startEntry hentry hbad (by rw [htype, ht]) (jobGate_running hjob)

/-- An entry completes in the state it started in. -/
theorem ends_endEntry_same {st res : Nat} (h : HasEntry s r e) (hQ : ∀ t, EntryDone s t r e st res [] → Q t) :
    Ends (endEntry r e st res fun _ => .done) s Q :=
  ends_endEntry h (onlyChanges_of_take (may := []) rfl) (by simp) (by simp) h.room fun t ht _ => hQ t ht

/-! ## The clauses of O47 -/

theorem entryNop_holds (s : State) (r : Fin 1024) (e : RingEntry) (ty : Nat) : (entryNop s r e ty).Holds := by
  rintro ⟨hn, hty⟩
  have htype : eType e = ty := by obtain ⟨-, -, -, htype, -⟩ := hn; exact htype
  refine answers_of_ends (startEntry r (fun t => t == 0 || 8 < t) fun e => return if eType e = 0 then .done 0 0 else .done 3 0) rfl ?_
  rw [ends_startEntry_next1 hn (by simpa using hty), pure_apply, htype]
  by_cases h0 : ty = 0
  · rw [if_pos h0, if_pos h0]
    exact ends_endEntry_same (hasEntry_of_next1 hn) fun _ => id
  · rw [if_neg h0, if_neg h0]
    exact ends_endEntry_same (hasEntry_of_next1 hn) fun _ => id

theorem entryPoisoned_holds (s : State) (r : Fin 1024) (e : RingEntry) (c : Instr) : (entryPoisoned s r e c).Holds := by
  rintro ⟨hcmd, hentries, hfresh, hbad, hhold, hroom, hrings, -⟩
  have hstart : ∃ types body, exec c s = finish (startEntry r types body) s := by
    rcases hcmd with rfl | rfl | rfl | rfl | rfl | rfl | rfl <;> exact ⟨_, _, rfl⟩
  have hentry : HasEntry s r e := ⟨hentries, hfresh, hhold, hroom, RingsOk.rising hrings⟩
  obtain ⟨types, body, hexec⟩ := hstart
  refine answers_of_ends _ hexec ?_
  rw [ends_startEntry_poisoned hentry hbad]
  exact ends_endEntry_same hentry fun _ => id

theorem entryNoJob_holds (s : State) (r : Fin 1024) (e : RingEntry) (c : Instr) (ty : Nat) : (entryNoJob s r e c ty).Holds := by
  rintro ⟨hcmd, hentries, hfresh, hbad, htype, hhold, hroom, hjob, hrings, -⟩
  have hentry : HasEntry s r e := ⟨hentries, hfresh, hhold, hroom, RingsOk.rising hrings⟩
  have hstart : ∃ types body, exec c s = finish (startEntry r types body) s ∧ types ty = true ∧ (ty = 1 ∨ ty = 4) := by
    rcases hcmd with ⟨rfl, rfl⟩ | ⟨rfl, rfl⟩
    · exact ⟨_, _, rfl, rfl, .inl rfl⟩
    · exact ⟨_, _, rfl, rfl, .inr rfl⟩
  obtain ⟨types, body, hexec, htypes, hty⟩ := hstart
  refine answers_of_ends _ hexec ?_
  rw [ends_startEntry_noJob hentry hbad (by rw [htype, htypes]) (jobGate_noJob hjob (by rwa [htype]))]
  exact ends_endEntry_same hentry fun _ => id

/-- An entry that goes on elsewhere is under way. -/
theorem ends_entryLater {u : State} {may : List Piece} (h : HasEntry s r e) (hu : OnlyChanges s u may) (hhost : .host ∉ may)
    (hQ : ∀ t, RingSet s t r (busyRing s r e) → OnlyChanges u t [.host] → Q t) : Ends (entryEnds r e .later fun _ => .done) u Q := by
  have huhost : u.host = s.host := hu .host hhost
  have hring : ∀ k, ringOf u k = ringOf s k := fun k => by rw [ringOf, huhost, ringOf]
  have hbusy : { ringOf u r with entries := (ringOf u r).entries.map fun x => if x.idx = e.idx then { x with started := true } else x } =
      busyRing s r e := by simp [busyRing, hring, h.entries]
  simp only [entryEnds, ends_modRing, hbusy, ends_done]
  exact hQ _ (ringSet_setRing _ (by rw [huhost]) (fun k _ => hring k) (huhost ▸ h.rising)) (onlyChanges_of_take rfl)

/-- The registers that a LAUNCH gives its thread. -/
def launchRegs (e : RingEntry) : Tbl Word :=
  (List.range 4).foldl (fun (g : Tbl Word) n => tput 0 g n (BitVec.ofNat 64 (eb e (24 + 8 * n) 0 64))) []

/-- The thread that a LAUNCH starts (R326). -/
def launched (r : Nat) (e : RingEntry) : Thread :=
  { st := .ready, cp := BitVec.ofNat 52 (eb e 12 0 52), prio := BitVec.ofNat 4 (eb e 11 0 4), g := launchRegs e
    ref := some { ring := r, idx := e.idx, tag := eTag e, noCqe := eNoCqe e, src := 0 } }

theorem tget_launchRegs (e : RingEntry) {n : Nat} (h : n < 4) : tget 0 (launchRegs e) n = BitVec.ofNat 64 (eb e (24 + 8 * n) 0 64) := by
  have rising : ∀ m, Rising ((List.range m).foldl (fun (g : Tbl Word) n => tput 0 g n (BitVec.ofNat 64 (eb e (24 + 8 * n) 0 64))) []) := by
    intro m
    induction m with
    | zero => exact List.Pairwise.nil
    | succ m ih =>
      rw [List.range_succ, List.foldl_append]
      exact tput_rising _ _ _ _ ih
  have key : ∀ m, n < m →
      tget 0 ((List.range m).foldl (fun (g : Tbl Word) n => tput 0 g n (BitVec.ofNat 64 (eb e (24 + 8 * n) 0 64))) []) n =
        BitVec.ofNat 64 (eb e (24 + 8 * n) 0 64) := by
    intro m hm
    induction m with
    | zero => omega
    | succ m ih =>
      rw [List.range_succ, List.foldl_append]
      by_cases hn : n = m
      · subst hn
        exact tget_tput_same _ _ _ _ (rising _)
      · exact (tget_tput_ne _ _ _ _ _ hn).trans (ih (by omega))
  exact key 4 h

/-- What LAUNCH finds wrong with what it names, as the status of its completion (R326, R331). -/
def launchFault (s : State) (r : Nat) (e : RingEntry) : Option Nat :=
  if ctxEn s (rgPart r) (eb e 10 4 4) = false then some 3
  else if (!coreOfPart s (rgPart r) (eb e 8 0 11) || !belongs s (rgPart r) (eb e 12 0 52) 32) = true then some 4
  else if (threadOf s (thrKey (rgPart r) (eb e 10 4 4) (eb e 8 0 11) (eb e 10 0 4))).st != .free then some 2
  else none

theorem ends_launchBody (k : EntryEnd → Prog) : Ends (launchBody r e k) s Q =
    match launchFault s r e with
    | some st => Ends (k (.done st 0)) s Q
    | none => Ends (k .later) (s.setThread (thrKey (rgPart r) (eb e 10 4 4) (eb e 8 0 11) (eb e 10 0 4)) (launched r e)) Q := by
  simp only [launchBody, launchFault, bind_apply, look_apply, ends_look]
  cases ctxEn s (rgPart r) (eb e 10 4 4) with
  | false => rfl
  | true =>
    simp only [Bool.not_true, Bool.false_eq_true, if_false, Bool.true_eq_false]
    split
    · rfl
    · split <;> rfl

theorem launch_holds (s : State) (r : Fin 1024) (e : RingEntry) : (launch s r e).Holds := by
  rintro ⟨hn, hctx, hcore, hcp, hfree⟩
  have hentry := hasEntry_of_next1 hn
  have hc : Canon s := by obtain ⟨-, -, -, -, -, -, -, -, hc⟩ := hn; exact hc
  have hok : launchFault s r e = none := by simp [launchFault, hctx, hcore, hcp, hfree]
  refine answers_of_ends (startEntry r (· == 1) (launchBody r)) rfl ?_
  rw [ends_startEntry_next1 hn rfl, ends_launchBody, hok]
  have hthreads : OnlyChanges s (s.setThread (thrKey (rgPart r) (eb e 10 4 4) (eb e 8 0 11) (eb e 10 0 4)) (launched r e)) [.threads] :=
    onlyChanges_of_take rfl
  refine ends_entryLater hentry hthreads (by decide) fun t hring ht => ?_
  have hth := ht.threadOf (by decide)
  have hsame := (hth _).trans (threadOf_setThread_same (launched r e) _ hc.risingThreads)
  refine ⟨hring, ?_, ?_, ?_, fun n hn4 => ?_, ?_, fun j hj => (hth j).trans (threadOf_setThread_ne _ hj), ?_⟩
  · rw [hsame]; rfl
  · rw [hsame]; rfl
  · rw [hsame]; rfl
  · rw [hsame]; exact tget_launchRegs e hn4
  · rw [hsame]; rfl
  · exact .trans (hthreads.mono (by decide)) (ht.mono (by decide))

theorem launchBad_holds (s : State) (r : Fin 1024) (e : RingEntry) : (launchBad s r e).Holds := by
  rintro ⟨hn, hbad⟩
  refine answers_of_ends (startEntry r (· == 1) (launchBody r)) rfl ?_
  have hfault : launchFault s r e = some (if ctxEn s (rgPart r) (eb e 10 4 4) = false then 3 else
      if (!coreOfPart s (rgPart r) (eb e 8 0 11) || !belongs s (rgPart r) (eb e 12 0 52) 32) = true then 4 else 2) := by
    unfold launchFault
    split
    · rfl
    · split
      · rfl
      · rename_i hctx hout
        rw [if_pos]
        rcases hbad with h | h | h
        · exact absurd h hctx
        · exact absurd h hout
        · exact h
  rw [ends_startEntry_next1 hn rfl, ends_launchBody, hfault]
  exact ends_endEntry_same (hasEntry_of_next1 hn) fun _ => id

theorem pipsig_holds (s : State) (r : Fin 1024) (e : RingEntry) : (pipsig s r e).Holds := by
  rintro ⟨hn, hcore, hsum, hw⟩
  have hc : Canon s := by obtain ⟨-, -, -, -, -, -, -, -, hc⟩ := hn; exact hc
  have hcount : (if eb e 12 0 16 = 0 then 1 else eb e 12 0 16) = max 1 (eb e 12 0 16) := by split <;> omega
  refine answers_of_ends (startEntry r (· == 4) (pipsigBody r)) rfl ?_
  rw [ends_startEntry_next1 hn rfl]
  simp only [pipsigBody, bind_apply, look_apply, ends_look, hcore, Bool.not_true, Bool.false_eq_true, if_false, hcount]
  rw [ends_addPip_free hsum hw, pure_apply]
  refine ends_endEntry (hasEntry_of_next1 hn) (may := [.pips]) (onlyChanges_of_take rfl) (by decide) (by decide)
    (hasEntry_of_next1 hn).room fun t ht hhost => ?_
  have hpip := hhost.pipOf (by decide)
  exact ⟨ht, (hpip _).trans (pipOf_setPip_same _ _ hc.risingPips), fun j hj => (hpip j).trans (pipOf_setPip_ne _ hj)⟩

theorem pipsigBad_holds (s : State) (r : Fin 1024) (e : RingEntry) : (pipsigBad s r e).Holds := by
  rintro ⟨hn, hcore⟩
  refine answers_of_ends (startEntry r (· == 4) (pipsigBody r)) rfl ?_
  rw [ends_startEntry_next1 hn rfl]
  simp only [pipsigBody, bind_apply, look_apply, ends_look, hcore, Bool.not_false, if_true, pure_apply]
  exact ends_endEntry_same (hasEntry_of_next1 hn) fun _ => id

/-! ### COPY (R327) -/

/-- Few bytes are no heavy move (R187). -/
theorem copyHeavy_small (h : cpLen e ≤ 64) : copyHeavy e = false := by
  have hsmall : ∀ a, ¬ 65536 ≤ t2Bytes [(a, cpLen e)] := by
    intro a
    simp only [t2Bytes, List.foldl_cons, List.foldl_nil]
    omega
  simp [copyHeavy, hsmall]

theorem ends_copyAct_fresh {x : Option (List Byte)} {ty : Nat} {k : Unit → Prog} (hn : Next1 s r e ty) :
    Ends (copyAct r x k) s Q = Ends (startEntry r (· == 2) (copyBody r x) k) s Q := by
  obtain ⟨hentries, hfresh, -⟩ := hn
  have hnone : (ringOf s r).entries.find? (fun e => e.started && e.grant = 2 &&
      !s.pw.held.any (fun g => g.who == .ringCopy r e.idx && g.paused)) = none := by simp [hentries, hfresh]
  simp only [copyAct, bind_apply, look_apply, ends_look, hnone]

/-- The device sides of a COPY (R327). -/
def cpSides (e : RingEntry) : List Nat :=
  (if cpDstHost e then [] else [cpAddr e 16 false]) ++ (if cpFill e || cpSrcHost e then [] else [cpAddr e 8 false])

/-- A COPY of at most 64 bytes between sides that are the partition's runs at once. -/
theorem ends_copyBody_small {x : Option (List Byte)} {k : EntryEnd → Prog} (hclean : CleanMem s) (hsrc : cpSrcHost e = false)
    (hn : 1 ≤ cpLen e) (hn' : cpLen e ≤ 64) (hsides : ∀ a ∈ cpSides e, belongs s (rgPart r) a (cpLen e) = true) :
    Ends (copyBody r x e k) s Q = Ends (copyRun r e x k) s Q := by
  have h0 : ¬ (cpLen e = 0 || (cpSrcHost e && cpDstHost e)) = true := by simp [hsrc]; omega
  have hall : ((cpSides e).all fun a => belongs s (rgPart r) a (cpLen e)) = true := by simpa using hsides
  have hidle : ((cpSides e).any fun a => t3BusyRun s a (cpLen e)) = false := by simp [t3BusyRun_clean hclean]
  rw [cpSides] at hall hidle
  simp only [copyBody, bind_apply, look_apply, ends_look, if_neg h0, hall, hidle, Bool.not_true, Bool.false_eq_true, if_false,
    copyHeavy_small hn']

/-- The bytes of a COPY's one chunk. -/
def cpBytes (s : State) (e : RingEntry) : List Byte :=
  if cpFill e then (List.range (cpLen e)).map (fun j => BitVec.ofNat 8 (eb e (8 + j % 8) 0 8)) else memBytes s (cpAddr e 8 false) (cpLen e)

/-- One chunk from device memory or of a fill: it is read, and written where it goes. -/
theorem ends_copyRun_chunk {x : Option (List Byte)} {k : EntryEnd → Prog} (hclean : CleanMem s) (hsrc : cpSrcHost e = false)
    (hn : 1 ≤ cpLen e) (hn' : cpLen e ≤ 64) (hup : cpDstHost e = true → hostUp s = true) :
    Ends (copyRun r e x k) s Q =
      if cpDstHost e then Ends (k (.done 0 (cpLen e))) { s with out := s.out ++ [.hostWrite (cpAddr e 16 true) (cpBytes s e)] } Q
      else Ends (copyPut (cpAddr e 16 false) (cpBytes s e) fun _ => k (.done 0 (cpLen e))) s Q := by
  have hchunks : List.range ((cpLen e + 63) / 64) = [0] := by
    rw [show (cpLen e + 63) / 64 = 1 by omega]
    rfl
  have hm : min 64 (cpLen e) = cpLen e := by omega
  have hne : cpLen e ≠ 0 := by omega
  cases hdst : cpDstHost e with
  | true =>
    cases hfill : cpFill e <;>
      simp only [copyRun, bind_apply, look_apply, ends_look, hsrc, hdst, hup hdst, hfill, cpBytes, cpAddr, hchunks, List.forIn_cons,
        List.forIn_nil, Nat.mul_zero, Nat.sub_zero, Nat.add_zero, Nat.zero_add, hm, hne, ends_consume_clean hclean, ends_emit,
        lt_irrefl, pure_apply, ne_eq, not_false_eq_true, decide_true, Bool.not_false, Bool.not_true, Bool.and_true, Bool.and_false,
        Bool.or_true, Bool.or_false, Bool.false_eq_true, if_true, if_false]
  | false =>
    cases hfill : cpFill e <;>
      simp only [copyRun, bind_apply, look_apply, ends_look, hsrc, hdst, hfill, cpBytes, cpAddr, hchunks, List.forIn_cons,
        List.forIn_nil, Nat.mul_zero, Nat.sub_zero, Nat.add_zero, Nat.zero_add, hm, hne, ends_consume_clean hclean,
        ends_aliveRuns_clean hclean, lt_irrefl, pure_apply, ne_eq, not_false_eq_true, decide_true, Bool.not_false, Bool.not_true,
        Bool.and_true, Bool.false_and, Bool.or_true, Bool.or_false, Bool.or_self, Bool.false_eq_true, if_true, if_false]

theorem length_cpBytes (s : State) (e : RingEntry) : (cpBytes s e).length = cpLen e := by
  unfold cpBytes
  split <;> simp [memBytes]

/-- A COPY beside every staged copy writes its bytes (R26, R327). -/
theorem ends_copyPut_free {a : Nat} {bs : List Byte} {k : Unit → Prog} (hclean : CleanMem s) (hdir : s.fab.dir = [])
    (hfree : ∀ y ∈ stagedHeld s, y.1 + y.2 ≤ a ∨ a + bs.length ≤ y.1) :
    Ends (copyPut a bs k) s Q = Ends (k ()) (s.putMem a bs) Q := by
  have hnone : (stagedHeld s).filter (fun r => a < r.1 + r.2 && r.1 < a + bs.length) = [] := by
    refine List.filter_eq_nil_iff.2 fun y hy => ?_
    have := hfree y hy
    simp only [Bool.and_eq_true, decide_eq_true_eq]
    omega
  simp only [copyPut, bind_apply, look_apply, ends_look, hnone, List.isEmpty_nil, if_true, ends_putBytes_clean hclean hdir]

/-- The bytes of a COPY that lie in a staged copy are discarded, and the write counts in OWN_DENIED (R26). -/
theorem ends_copyPut_held {a : Nat} {bs : List Byte} {k : Unit → Prog} {y : Nat × Nat} (hy : y ∈ stagedHeld s) (hlo : y.1 ≤ a)
    (hhi : a + bs.length ≤ y.1 + y.2) (hne : bs ≠ []) : Ends (copyPut a bs k) s Q = Ends (ownDenied k) s Q := by
  have hlen : 0 < bs.length := List.length_pos_of_ne_nil hne
  set held := (stagedHeld s).filter (fun r => a < r.1 + r.2 && r.1 < a + bs.length) with hheld
  have hmem : y ∈ held := by
    rw [hheld, List.mem_filter]
    refine ⟨hy, ?_⟩
    simp only [Bool.and_eq_true, decide_eq_true_eq]
    omega
  have hsome : held.isEmpty = false := List.isEmpty_eq_false_iff.2 (List.ne_nil_of_mem hmem)
  have hall : ∀ x ∈ bs.zipIdx, held.any (fun r => r.1 ≤ a + x.2 && a + x.2 < r.1 + r.2) = true := by
    intro x hx
    have hpos : x.2 < bs.length := by
      have := List.snd_lt_of_mem_zipIdx hx
      omega
    refine List.any_eq_true.2 ⟨y, hmem, ?_⟩
    simp only [Bool.and_eq_true, decide_eq_true_eq]
    omega
  have hloop : ∀ k : PUnit → Prog, Ends ((forIn bs.zipIdx PUnit.unit fun x _ =>
      if held.any (fun r => r.1 ≤ a + x.2 && a + x.2 < r.1 + r.2) = true then pure (ForInStep.yield PUnit.unit)
      else do putBytes (a + x.2) [x.1]; pure (ForInStep.yield PUnit.unit) : Act PUnit) k) s Q = Ends (k PUnit.unit) s Q := by
    intro k
    rw [ends_forIn _ _ (fun s _ => s) fun x hx m u => by rw [if_pos (hall x hx)]; rfl]
    congr 1
    generalize bs.zipIdx = l
    induction l with
    | nil => rfl
    | cons _ _ ih => exact ih
  simp only [copyPut, bind_apply, look_apply, ends_look, ← hheld, hsome, Bool.false_eq_true, if_false]
  exact hloop _

theorem ends_copy_small {x : Option (List Byte)} (hn : Next1 s r e 2) (hclean : CleanMem s) (hsrc : cpSrcHost e = false) (hlen : 1 ≤ cpLen e)
    (hlen' : cpLen e ≤ 64) (hsides : ∀ a ∈ cpSides e, belongs s (rgPart r) a (cpLen e) = true) (hup : cpDstHost e = true → hostUp s = true)
    (hQ : if cpDstHost e then
        Ends (entryEnds r e (.done 0 (cpLen e)) fun _ => .done) { s with out := s.out ++ [.hostWrite (cpAddr e 16 true) (cpBytes s e)] } Q
      else Ends (copyPut (cpAddr e 16 false) (cpBytes s e) fun _ => entryEnds r e (.done 0 (cpLen e)) fun _ => .done) s Q) :
    Ends (copyAct r x fun _ => .done) s Q := by
  rw [ends_copyAct_fresh hn, ends_startEntry_next1 hn rfl, ends_copyBody_small hclean hsrc hlen hlen' hsides,
    ends_copyRun_chunk hclean hsrc hlen hlen' hup]
  exact hQ

/-- A COPY to device memory, of up to one chunk: its bytes stand at DST, and nothing else in memory changes. -/
theorem copyToDevice_answers (s : State) (r : Fin 1024) (e : RingEntry) (hn : Next1 s r e 2) (hsrc : cpSrcHost e = false)
    (hdst : cpDstHost e = false) (hlen : 1 ≤ cpLen e) (hlen' : cpLen e ≤ 64)
    (hsides : ∀ a ∈ cpSides e, belongs s (rgPart r) a (cpLen e) = true)
    (hfree : ∀ y ∈ stagedHeld s, y.1 + y.2 ≤ cpAddr e 16 false ∨ cpAddr e 16 false + cpLen e ≤ y.1) (hdir : s.fab.dir = [])
    (hclean : CleanMem s) :
    Answers (.copy r none) s (fun t => EntryDone s t r e 0 (cpLen e) [.mem] ∧
      (∀ x, memAt t x = memAt (s.putMem (cpAddr e 16 false) (cpBytes s e)) x)) := by
  refine answers_of_ends (copyAct r none) rfl (ends_copy_small hn hclean hsrc hlen hlen' hsides (by simp [hdst]) ?_)
  rw [hdst, if_neg Bool.false_ne_true, ends_copyPut_free hclean hdir (by rwa [length_cpBytes])]
  exact ends_endEntry (hasEntry_of_next1 hn) (onlyChanges_of_take rfl) (by decide) (by decide) (hasEntry_of_next1 hn).room
    fun t ht hhost => ⟨ht, fun x => hhost .mem (by decide) x⟩

theorem copyDevice_holds (s : State) (r : Fin 1024) (e : RingEntry) : (copyDevice s r e).Holds := by
  rintro ⟨hn, hsrc, hdst, hfill, hlen, hlen', hsrcOk, hdstOk, -, -, -, -, hfree, hdir, hclean⟩
  have hm : Rising s.mem := by obtain ⟨-, -, -, -, -, -, -, -, hc⟩ := hn; exact Canon.risingMem hc
  have hsides : ∀ a ∈ cpSides e, belongs s (rgPart r) a (cpLen e) = true := by simp [cpSides, hsrc, hdst, hfill, hsrcOk, hdstOk]
  have hbytes : cpBytes s e = memBytes s (cpAddr e 8 false) (cpLen e) := by simp [cpBytes, hfill]
  obtain ⟨t, ht, hdone, hmem⟩ := copyToDevice_answers s r e hn hsrc hdst hlen hlen' hsides hfree hdir hclean
  refine ⟨t, ht, hdone, ?_, fun x hx => ?_⟩
  · have hput := memBytes_putMem (cpAddr e 16 false) (cpBytes s e) hm
    rw [length_cpBytes] at hput
    rw [← hbytes, ← hput]
    exact List.map_congr_left fun i _ => hmem _
  · rw [hmem x]
    exact memBut_putMem _ _ _ x (by rwa [length_cpBytes])

theorem copyFill_holds (s : State) (r : Fin 1024) (e : RingEntry) : (copyFill s r e).Holds := by
  rintro ⟨hn, hsrc, hdst, hfill, hlen, hlen', hdstOk, -, -, hfree, hdir, hclean⟩
  have hm : Rising s.mem := by obtain ⟨-, -, -, -, -, -, -, -, hc⟩ := hn; exact Canon.risingMem hc
  have hsides : ∀ a ∈ cpSides e, belongs s (rgPart r) a (cpLen e) = true := by simp [cpSides, hdst, hfill, hdstOk]
  obtain ⟨t, ht, hdone, hmem⟩ := copyToDevice_answers s r e hn hsrc hdst hlen hlen' hsides hfree hdir hclean
  refine ⟨t, ht, hdone, fun j hj => ?_, fun x hx => ?_⟩
  · rw [hmem, memAt_putMem _ hm (by rwa [length_cpBytes])]
    simp [cpBytes, hfill]
  · rw [hmem x]
    exact memBut_putMem _ _ _ x (by rwa [length_cpBytes])

theorem copyToHost_holds (s : State) (r : Fin 1024) (e : RingEntry) : (copyToHost s r e).Holds := by
  rintro ⟨hn, hsrc, hdst, hfill, hlen, hlen', hup, hsrcOk, -, -, hclean⟩
  have hsides : ∀ a ∈ cpSides e, belongs s (rgPart r) a (cpLen e) = true := by simp [cpSides, hsrc, hdst, hfill, hsrcOk]
  refine answers_of_ends (copyAct r none) rfl (ends_copy_small hn hclean hsrc hlen hlen' hsides (fun _ => hup) ?_)
  rw [if_pos hdst]
  refine ends_endEntry (hasEntry_of_next1 hn) (onlyChanges_of_take rfl) (by decide) (by decide) (hasEntry_of_next1 hn).room
    fun t ht hhost => ⟨ht, (hhost .out (by decide)).trans ?_⟩
  simp [cpBytes, hfill, cpAddr]

/-- The registers of a ring are not those that tell of a refused write. -/
theorem ringReg_not_denied (r w : Nat) : rRing r w ∉ 0x010060 :: errSrc 96 := by
  simp only [rRing, errSrc, List.mem_cons, List.not_mem_nil, or_false]
  omega

theorem copyHeld_holds (s : State) (r : Fin 1024) (e : RingEntry) (y : Nat × Nat) : (copyHeld s r e y).Holds := by
  rintro ⟨hn, hsrc, hdst, hfill, hlen, hlen', hdstOk, -, -, hy, hlo, hhi, hclean⟩
  have hc : Canon s := by obtain ⟨-, -, -, -, -, -, -, -, hc⟩ := hn; exact hc
  have hentry := hasEntry_of_next1 hn
  have hsides : ∀ a ∈ cpSides e, belongs s (rgPart r) a (cpLen e) = true := by simp [cpSides, hdst, hfill, hdstOk]
  have hne : cpBytes s e ≠ [] := by
    intro h0
    have := length_cpBytes s e
    rw [h0, List.length_nil] at this
    omega
  refine answers_of_ends (copyAct r none) rfl (ends_copy_small hn hclean hsrc hlen hlen' hsides (by simp [hdst]) ?_)
  rw [hdst, if_neg Bool.false_ne_true, ends_copyPut_held hy hlo (by rwa [length_cpBytes]) hne]
  refine ends_ownDenied hc.rising fun u hu _ => ?_
  obtain ⟨hcount, hrep, hregs, honly⟩ := hu
  have hcq : cqFull u r 0 = cqFull s r 0 := cqFull_congr (hregs _ (ringReg_not_denied _ _)) (hregs _ (ringReg_not_denied _ _))
    (hregs _ (ringReg_not_denied _ _)) 0
  refine ends_endEntry hentry honly (by decide) (by decide) (hcq.trans hentry.room) fun t ht hhost => ⟨ht, ?_, ?_, fun off hoff => ?_⟩
  · rw [hhost.field (by decide), hcount]
  · rw [Reported, hhost .err (by decide), hrep]
  · rw [hhost .regs (by decide) off, hregs off hoff]

theorem copyBad_holds (s : State) (r : Fin 1024) (e : RingEntry) : (copyBad s r e).Holds := by
  rintro ⟨hn, hsrc, hdst, hbad⟩
  have hentry := hasEntry_of_next1 hn
  refine answers_of_ends (copyAct r none) rfl ?_
  rw [ends_copyAct_fresh hn, ends_startEntry_next1 hn rfl]
  by_cases h0 : cpLen e = 0
  · have hcond : (cpLen e = 0 || (cpSrcHost e && cpDstHost e)) = true := by simp [h0]
    simp only [copyBody, bind_apply, look_apply, ends_look, if_pos hcond, pure_apply, if_pos h0]
    exact ends_endEntry_same hentry fun _ => id
  · have hcond : ¬ (cpLen e = 0 || (cpSrcHost e && cpDstHost e)) = true := by simp [h0, hsrc]
    have hout : ((cpSides e).all fun a => belongs s (rgPart r) a (cpLen e)) = false := by
      have := hbad.resolve_left h0
      simp [cpSides, hdst, this]
    rw [cpSides] at hout
    simp only [copyBody, bind_apply, look_apply, ends_look, if_neg hcond, hout, Bool.not_false, if_true, pure_apply, if_neg h0]
    exact ends_endEntry_same hentry fun _ => id

/-! ### QPUSH (R179, R328) -/

/-- A queue with one more item at its tail. -/
def Queue.accept (d : Queue) (x : Item) (last : Bool) (now : Nat) : Queue :=
  { d with items := d.items ++ [{ data := x ||| ((1 : Item) <<< 511), last, gap := false, at_ := now }]
           since := if d.items.isEmpty then now else d.since }

/-- The state after a queue has accepted an item that signals nothing. -/
def State.accepted (s : State) (q : Nat) (x : Item) (last : Bool) : State :=
  let d := queueOf s q
  (((s.setQueue q (d.accept x last s.time.now)).putMem (qBase s q + 64 * ((d.head + d.items.length) % qDepth s q))
    (natBytes 64 (x ||| ((1 : Item) <<< 511)).toNat)).setReg (rQcnt q 0) (((regOf s (rQcnt q 0)).toNat + 1) % 2 ^ 64)).setReg
      (0x2A0000 + q * 0x10) ((d.items.length + 1) % 2 ^ 17 ||| (d.reserved % 2 ^ 17) <<< 32)

/-- A queue without its arrival signal enabled tells no one of a packet. -/
theorem ends_qArrive_silent {q : Nat} {last : Bool} {a : Act Unit} {k : Unit → Prog} (h : qArrEn s q = false) :
    Ends ((if last then (do qArrive q; a) else a : Act Unit) k) s Q = Ends (a k) s Q := by
  cases last with
  | false => rfl
  | true => simp only [if_true, qArrive, bind_apply, look_apply, ends_look, h, Bool.false_eq_true, if_false, pure_apply]

theorem ends_qAccept_silent {q : Nat} {x : Item} {last : Bool} {k : Unit → Prog} (hclean : CleanMem s) (hdir : s.fab.dir = [])
    (hq : Rising s.queues) (harr : qArrEn s q = false) :
    Ends (qAccept q x last k) s Q = Ends (k ()) (s.accepted q x last) Q := by
  set d := (queueOf s q).accept x last s.time.now with hd
  have hread : queueOf (s.setQueue q d) q = d := queueOf_setQueue_same d q hq
  have hclean' : CleanMem (s.setQueue q d) := hclean
  have hdir' : (s.setQueue q d).fab.dir = [] := hdir
  have hstore : ∀ m : Unit → Prog, Ends (qStore q (queueOf s q).items.length (x ||| ((1 : Item) <<< 511)) m) (s.setQueue q d) Q =
      Ends (m ()) ((s.setQueue q d).putMem (qBase s q + 64 * (((queueOf s q).head + (queueOf s q).items.length) % qDepth s q))
        (natBytes 64 (x ||| ((1 : Item) <<< 511)).toNat)) Q := by
    intro m
    simp only [qStore, bind_apply, look_apply, ends_look, hread, ends_putNat_clean hclean' hdir']
    rfl
  set b := (s.setQueue q d).putMem (qBase s q + 64 * (((queueOf s q).head + (queueOf s q).items.length) % qDepth s q))
    (natBytes 64 (x ||| ((1 : Item) <<< 511)).toNat) with hb
  have harr' : ∀ v, qArrEn (b.setReg (rQcnt q 0) v) q = false := fun v => by
    rw [qArrEn, fieldOf, regOf_setReg_ne _ _ _ _ (by simp only [rQueue, rQcnt]; omega)]
    exact harr
  have hread' : ∀ v, queueOf (b.setReg (rQcnt q 0) v) q = d := fun _ => hread
  have hcnt : regOf b (rQcnt q 0) = regOf s (rQcnt q 0) := rfl
  have hlen : d.items.length = (queueOf s q).items.length + 1 := by simp [hd, Queue.accept]
  have hmod : ∀ m : Unit → Prog, Ends (modQueue q (fun d => { d with
      items := d.items ++ [{ data := x ||| ((1 : Item) <<< 511), last, gap := false, at_ := s.time.now }]
      since := if d.items.isEmpty then s.time.now else d.since }) m) s Q = Ends (m ()) (s.setQueue q d) Q := fun _ => rfl
  simp only [qAccept, bind_apply, look_apply, ends_look]
  rw [hmod, hstore, ends_ctr64, ends_qArrive_silent (harr' _), hcnt]
  simp only [qShow, bind_apply, look_apply, ends_look, ends_wrReg, hread', hlen]
  rfl

/-- What an accepted item leaves as it was. -/
theorem onlyChanges_accepted (s : State) (q : Nat) (x : Item) (last : Bool) : OnlyChanges s (s.accepted q x last) [.queues, .mem, .regs] :=
  onlyChanges_of_take rfl

theorem regsBut_accepted (s : State) (q : Nat) (x : Item) (last : Bool) : RegsBut s (s.accepted q x last) [rQcnt q 0, 0x2A0000 + q * 0x10] := by
  intro off hoff
  simp only [List.mem_cons, List.not_mem_nil, or_false, not_or] at hoff
  exact (regOf_setReg_ne _ _ _ _ hoff.2).trans (regOf_setReg_ne _ _ _ _ hoff.1)

theorem queueOf_accepted {q : Nat} (x : Item) (last : Bool) (hq : Rising s.queues) :
    queueOf (s.accepted q x last) q = (queueOf s q).accept x last s.time.now := queueOf_setQueue_same _ q hq

theorem count_accepted {q : Nat} (x : Item) (last : Bool) (hr : Rising s.regs) (hlt : q < 4096) :
    regOf (s.accepted q x last) (rQcnt q 0) = regOf s (rQcnt q 0) + 1 := by
  refine (regOf_setReg_ne _ _ _ _ (by simp only [rQcnt]; omega)).trans ((regOf_setReg_same _ _ _ (by exact hr)).trans ?_)
  refine BitVec.eq_of_toNat_eq ?_
  simp [BitVec.toNat_add]

theorem qpush_holds (s : State) (r : Fin 1024) (e : RingEntry) : (qpush s r e).Holds := by
  rintro ⟨hn, hpush, hdev, hcred, hbelongs, hidle, hdrop, hfree, harr, hdir, hclean⟩
  have hc : Canon s := by obtain ⟨-, -, -, -, -, -, -, -, hc⟩ := hn; exact hc
  have hentry := hasEntry_of_next1 hn
  set q := eb e 8 0 12 with hq
  have hlt : q < 4096 := bitsOf_lt _ _ _
  have hfromDev : (eb e 10 2 1 == 1) = false := by rw [hdev]; rfl
  have hnoCred : (eb e 10 1 1 == 1) = false := by rw [hcred]; rfl
  refine answers_of_ends (startEntry r (· == 3) (qpushBody r [])) rfl ?_
  rw [ends_startEntry_next1 hn rfl]
  simp only [qpushBody, bind_apply, look_apply, ends_look, ← hq, hpush, hfromDev, hbelongs, hidle, Bool.not_true, Bool.false_eq_true,
    if_false, ends_consume_clean hclean, qPushItem, hnoCred, Bool.false_and, hdrop, if_pos hfree,
    ends_qAccept_silent hclean hdir hc.risingQueues harr, pure_apply, if_true]
  set x := memItem s (eb e 16 0 52)
  have hring : ∀ w, w < 5 → regOf (s.accepted q x (eb e 10 0 1 == 1)) (rRing r w) = regOf s (rRing r w) := fun w hw =>
    regsBut_accepted s q x _ _ (by simp only [rRing, rQcnt, List.mem_cons, List.not_mem_nil, or_false]; omega)
  refine ends_endEntry hentry (onlyChanges_accepted s q x _) (by decide) (by decide)
    ((cqFull_congr (hring 2 (by decide)) (hring 3 (by decide)) (hring 4 (by decide)) 0).trans hentry.room) fun t ht hhost =>
      ⟨ht, ?_, ?_, fun off hoff => ?_⟩
  · rw [hhost.queueOf (by decide), queueOf_accepted _ _ hc.risingQueues]
    rfl
  · rw [hhost .regs (by decide), count_accepted _ _ hc.rising hlt]
  · rw [hhost .regs (by decide), regsBut_accepted s q x _ off hoff]

theorem qpushBad_holds (s : State) (r : Fin 1024) (e : RingEntry) : (qpushBad s r e).Holds := by
  rintro ⟨hn, hpush⟩
  refine answers_of_ends (startEntry r (· == 3) (qpushBody r [])) rfl ?_
  rw [ends_startEntry_next1 hn rfl]
  simp only [qpushBody, bind_apply, look_apply, ends_look, hpush, Bool.not_false, if_true, pure_apply]
  exact ends_endEntry_same (hasEntry_of_next1 hn) fun _ => id

/-- Settles O47, each entry through the rules for the start and the end of a ring's entry. -/
theorem ringEntries : Obligations.RingEntries := by
  unfold Obligations.RingEntries
  intro s r e c ty y
  exact ⟨entryNop_holds s r e ty, entryPoisoned_holds s r e c, entryNoJob_holds s r e c ty, launch_holds s r e, launchBad_holds s r e,
    copyDevice_holds s r e, copyFill_holds s r e, copyHeld_holds s r e y, copyToHost_holds s r e, copyBad_holds s r e, qpush_holds s r e,
    qpushBad_holds s r e, pipsig_holds s r e, pipsigBad_holds s r e⟩

end Sys2Proof.Machine
end

section
/-!
SUPPORT. Commits of exchange groups.
-/

namespace Sys2Proof.Machine

open Sys2Proof.Claims

variable {s : State} {Q : State → Prop}

/-! ## Fields of a word put together -/

theorem bitsOf_or (a b lo len : Nat) : bitsOf (a ||| b) lo len = bitsOf a lo len ||| bitsOf b lo len := by
  refine Nat.eq_of_testBit_eq fun i => ?_
  simp only [testBit_bitsOf, Nat.testBit_or, Bool.and_or_distrib_left]

/-- A field of a number that ends below it. -/
theorem bitsOf_of_lt {a n : Nat} (h : a < 2 ^ n) {lo : Nat} (len : Nat) (hlo : n ≤ lo) : bitsOf a lo len = 0 := by
  have hlt : a < 2 ^ lo := Nat.lt_of_lt_of_le h (Nat.pow_le_pow_right (by decide) hlo)
  rw [bitsOf, Nat.shiftRight_eq_div_pow, Nat.div_eq_of_lt hlt, Nat.zero_mod]

/-- A field of a number that stands at it. -/
theorem bitsOf_shiftLeft_same (a n len : Nat) : bitsOf (a <<< n) n len = a % 2 ^ len := by
  rw [bitsOf, Nat.shiftLeft_shiftRight]

/-- A field below a number that is moved up. -/
theorem bitsOf_shiftLeft_below (a : Nat) {n lo len : Nat} (h : lo + len ≤ n) : bitsOf (a <<< n) lo len = 0 := by
  refine Nat.eq_of_testBit_eq fun i => ?_
  rw [testBit_bitsOf, Nat.testBit_shiftLeft, Nat.zero_testBit]
  by_cases hi : i < len
  · simp [show ¬ lo + i ≥ n by omega]
  · simp [hi]

/-- A field above a number that is moved up. -/
theorem bitsOf_shiftLeft_above {a n w lo : Nat} (len : Nat) (ha : a < 2 ^ w) (h : n + w ≤ lo) : bitsOf (a <<< n) lo len = 0 :=
  bitsOf_of_lt (n := n + w) (by rw [Nat.shiftLeft_eq, pow_add, mul_comm]; exact Nat.mul_lt_mul_of_pos_left ha (Nat.two_pow_pos _)) len h

/-! ## NET_XG_COMMIT (R90) -/

/-- What NET_XG_COMMIT shows of a group. -/
def xgShown (h : Nat) (g : Group) : Nat := h ||| g.state <<< 9 ||| (if g.next.isSome then 1 else 0) <<< 12 ||| g.gen.toNat <<< 32

theorem ends_showXg {k : Unit → Prog} : Ends (showXg k) s Q =
    Ends (k ()) (s.setReg 0x440010 (xgShown (fieldOf s 0x440010 0 8) (groupOf s (fieldOf s 0x440010 0 8)))) Q := rfl

theorem xgShown_fields {h : Nat} {g : Group} (hh : h < 2 ^ 8) (hg : g.state < 2 ^ 3) :
    bitsOf (xgShown h g) 0 8 = h ∧ bitsOf (xgShown h g) 9 3 = g.state ∧
      bitsOf (xgShown h g) 12 1 = (if g.next.isSome then 1 else 0) ∧ bitsOf (xgShown h g) 32 32 = g.gen.toNat := by
  have hp : (if g.next.isSome then 1 else 0) < 2 ^ 1 := by split <;> decide
  have hgen : g.gen.toNat < 2 ^ 32 := g.gen.isLt
  simp only [xgShown, bitsOf_or]
  refine ⟨?_, ?_, ?_, ?_⟩
  · rw [bitsOf_shiftLeft_below _ (by decide), bitsOf_shiftLeft_below _ (by decide), bitsOf_shiftLeft_below _ (by decide)]
    simpa [bitsOf] using Nat.mod_eq_of_lt hh
  · rw [bitsOf_of_lt hh _ (by decide), bitsOf_shiftLeft_same, bitsOf_shiftLeft_below _ (by decide), bitsOf_shiftLeft_below _ (by decide),
      Nat.mod_eq_of_lt hg]
    simp
  · rw [bitsOf_of_lt hh _ (by decide), bitsOf_shiftLeft_above _ hg (by decide), bitsOf_shiftLeft_same, bitsOf_shiftLeft_below _ (by decide),
      Nat.mod_eq_of_lt hp]
    simp
  · rw [bitsOf_of_lt hh _ (by decide), bitsOf_shiftLeft_above _ hg (by decide), bitsOf_shiftLeft_above _ hp (by decide),
      bitsOf_shiftLeft_same, Nat.mod_eq_of_lt hgen]
    simp

theorem onlyChanges_setReg (s : State) (off v : Nat) : OnlyChanges s (s.setReg off v) [.regs] := onlyChanges_regs s _
theorem onlyChanges_setGroup (s : State) (h : Nat) (g : Group) : OnlyChanges s (s.setGroup h g) [.groups] := onlyChanges_of_take rfl

theorem groupOf_setReg (s : State) (off v k : Nat) : groupOf (s.setReg off v) k = groupOf s k := rfl

/-! ## XG_COMMIT_GO (R89, R90) -/

theorem exec_xgCommitGo {w : Wr} (h : ByOwner s w.path) : exec (.xgCommitGo w) s = finish (xgCommitWrite w) s :=
  finish_ownerWrite_owner (xgCommitWrite w) h

theorem ends_xgCommitWrite {w : Wr} {k : Unit → Prog} (hall : w.half = .all) (hgo : wrBits w 8 1 = 1) (hr : Rising s.regs) :
    Ends (xgCommitWrite w k) s Q =
      if (groupOf s (wrBits w 0 8)).state = 1 || BitVec.ofNat 32 (wrBits w 32 32) ≠ nextGen (groupOf s (wrBits w 0 8)).gen then
        Ends (ownDenied fun _ => showXg k) (s.setField 0x440010 0 8 (wrBits w 0 8)) Q
      else Ends (showXg k) ((s.setField 0x440010 0 8 (wrBits w 0 8)).setGroup (wrBits w 0 8) { groupOf s (wrBits w 0 8) with state := 1 }) Q := by
  have hread : fieldOf (s.setField 0x440010 0 8 (wrBits w 0 8)) 0x440010 0 8 = wrBits w 0 8 := by
    rw [fieldOf_setField_same _ _ _ _ _ hr (by decide)]
    exact Nat.mod_eq_of_lt (bitsOf_lt _ _ _)
  have hgroup : groupOf (s.setField 0x440010 0 8 (wrBits w 0 8)) (wrBits w 0 8) = groupOf s (wrBits w 0 8) := rfl
  simp only [xgCommitWrite, bind_apply, hall, ne_eq, reduceCtorEq, not_false_eq_true, if_true, ends_wrF, ends_rdF, hread, hgo, look_apply,
    ends_look, hgroup, ends_ite_act, ends_modGroup]

theorem wrBits_lt (w : Wr) (lo len : Nat) : wrBits w lo len < 2 ^ len := bitsOf_lt _ _ _

/-- The generation that a commit names is the next one. -/
theorem namesNext_iff {w : Wr} {g : BitVec 32} : BitVec.ofNat 32 (wrBits w 32 32) ≠ nextGen g ↔ wrBits w 32 32 ≠ (nextGen g).toNat := by
  rw [ne_eq, ne_eq, not_iff_not]
  refine ⟨fun h => ?_, fun h => ?_⟩
  · rw [← h, BitVec.toNat_ofNat, Nat.mod_eq_of_lt (wrBits_lt w 32 32)]
  · rw [h, BitVec.ofNat_toNat, BitVec.setWidth_eq]

theorem xgCommitGo_holds (s : State) (w : Wr) : (xgCommitGo s w).Holds := by
  rintro ⟨howner, hall, hgo, hstate, hgen, hc⟩
  refine answers_of_ends _ (exec_xgCommitGo howner) ?_
  have hcond : ((groupOf s (wrBits w 0 8)).state = 1 || BitVec.ofNat 32 (wrBits w 32 32) ≠ nextGen (groupOf s (wrBits w 0 8)).gen) = false := by
    have hnext : ¬ BitVec.ofNat 32 (wrBits w 32 32) ≠ nextGen (groupOf s (wrBits w 0 8)).gen := by rw [namesNext_iff]; exact not_not.2 hgen
    simp only [hstate, hnext, decide_false, Bool.or_self]
  rw [ends_xgCommitWrite hall hgo hc.rising, hcond, if_neg Bool.false_ne_true, ends_showXg]
  set h := wrBits w 0 8
  set a := s.setField 0x440010 0 8 h with ha
  set b := a.setGroup h { groupOf s h with state := 1 } with hb
  have hra : Rising a.regs := setField_rising _ _ _ _ _ hc.rising
  have hread : fieldOf b 0x440010 0 8 = h := by
    refine (fieldOf_setField_same s _ _ _ _ hc.rising (by decide)).trans (Nat.mod_eq_of_lt (wrBits_lt _ _ _))
  have hgroup : groupOf b h = { groupOf s h with state := 1 } := groupOf_setGroup_same (s := a) _ _ hc.risingGroups
  have hlt : h < 2 ^ 8 := wrBits_lt _ _ _
  rw [hread, hgroup]
  obtain ⟨hf0, hf9, -, hf32⟩ := xgShown_fields (g := { groupOf s h with state := 1 }) hlt (by show 1 < 2 ^ 3; decide)
  refine ⟨hgroup, fun j hj => groupOf_setGroup_ne (s := a) _ hj, ?_, ?_, ?_, fun off hoff => ?_, onlyChanges_of_take rfl⟩
  · exact (fieldOf_setReg_same _ hra (by decide)).trans hf0
  · exact (fieldOf_setReg_same _ hra (by decide)).trans hf9
  · exact (fieldOf_setReg_same _ hra (by decide)).trans hf32
  · have hne : off ≠ 0x440010 := by simpa using hoff
    exact (regOf_setReg_ne _ _ _ _ hne).trans (regOf_setReg_ne _ _ _ _ hne)

theorem xgCommitRefused_holds (s : State) (w : Wr) : (xgCommitRefused s w).Holds := by
  rintro ⟨howner, hall, hgo, hbad, hc⟩
  refine answers_of_ends _ (exec_xgCommitGo howner) ?_
  have hcond : ((groupOf s (wrBits w 0 8)).state = 1 || BitVec.ofNat 32 (wrBits w 32 32) ≠ nextGen (groupOf s (wrBits w 0 8)).gen) = true := by
    rcases hbad with h | h
    · simp only [h, decide_true, Bool.true_or]
    · simp only [namesNext_iff.2 h, ne_eq, not_false_eq_true, decide_true, Bool.or_true]
  rw [ends_xgCommitWrite hall hgo hc.rising, if_pos hcond]
  refine ends_ownDenied (setField_rising _ _ _ _ _ hc.rising) fun u hu _ => ?_
  obtain ⟨hcount, hrep, hregs, honly⟩ := hu
  rw [ends_showXg, ends_done]
  refine ⟨?_, hrep, fun off hoff => ?_, ?_⟩
  · rw [fieldOf, regOf_setReg_ne _ _ _ _ (by decide)]
    refine hcount.trans ?_
    rw [fieldOf_setField_ne _ _ _ _ _ _ _ _ (by decide)]
  · rw [List.mem_cons, not_or] at hoff
    exact (regOf_setReg_ne _ _ _ _ hoff.1).trans ((hregs off hoff.2).trans (regOf_setReg_ne _ _ _ _ hoff.1))
  · have hfirst : OnlyChanges s (s.setField 0x440010 0 8 (wrBits w 0 8)) [.regs, .err] := onlyChanges_of_take rfl
    exact (hfirst.trans honly).trans (onlyChanges_of_take rfl)

theorem xgBaseHeld_holds (s : State) (w : Wr) (h : Nat) : (xgBaseHeld s w h).Holds := by
  rintro ⟨howner, ⟨e, he, -, hnext⟩, hc⟩
  refine answers_denied ?_ hc
  have hpend : xgPending s = true := List.any_eq_true.2 ⟨e, he, hnext⟩
  have hexec : exec (.registerWrite 0x440008 w) s = finish (ownerWord 0x440008 w) s :=
    (exec_registerWrite_of_owner s (by decide) (by decide) (by decide) (.inl (by decide))).trans (finish_ownerWrite_owner _ howner)
  have hnet : ownerWord 0x440008 w = netWrite 0x440008 w := rfl
  rw [hexec, hnet, finish_eq, finish_eq]
  have hrun : ∀ Q, Ends (netWrite 0x440008 w fun _ => .done) s Q = Ends (ownDenied fun _ => .done) s Q := fun Q => by
    simp only [netWrite, bind_apply, look_apply, ends_look, show ¬ (0x440008 : Nat) = 0x440010 by decide, if_false, hpend,
      decide_true, Bool.and_self, if_true]
  exact congrArg _ ((hrun (· = Prog.run (ownDenied fun _ => .done) s)).mpr rfl)

/-! ## XG_CHECK_DONE (R88–R90) -/

/-- What the check makes of its group, before NET_XG_COMMIT shows it. -/
def xgChecked (h : Nat) (d : Item) (m : List Nat) : Act Unit := do
  if xgOk (← look) d m then
    modGroup h (fun g => { g with state := 2, gen := nextGen g.gen })
    if xgHeld (← look) h then modGroup h (fun g => { g with next := some (d, m) }) else xgInForce h (d, m)
  else
    modGroup h (fun g => { g with state := 3 })
    raiseGroup 0x4003 2 h (some (dPart d))

theorem ends_xgCheckAct_clean {h : Nat} {k : Unit → Prog} (hstate : (groupOf s h).state = 1) (hclean : CleanMem s) :
    Ends (xgCheckAct h k) s Q =
      Ends (xgChecked h (stagedDesc s h) (stagedMembers s (stagedDesc s h)) fun _ => showXg k) s Q := by
  simp only [xgCheckAct, xgChecked, bind_apply, look_apply, ends_look, hstate, if_true, ends_consume_clean hclean, Bool.not_true,
    Bool.false_eq_true, if_false, Bool.true_and, ends_ite_act, ends_modGroup]

/-- A path does not depend on what a group holds but its reports of usable ports. -/
theorem hasPath_congr (s t : State) {h : Nat} (hregs : t.regs = s.regs) (hack : (groupOf t h).ackMask = (groupOf s h).ackMask) (g : XgGen)
    (dst : Nat) : hasPath t h g dst = hasPath s h g dst := by
  have hlink : ∀ p, linkUp t p = linkUp s p := fun p => by rw [linkUp, fieldOf, regOf, hregs, linkUp, fieldOf, regOf]
  simp only [hasPath, usable, upThere, hack, hlink]

/-- Without a report every other member of a generation keeps its path. -/
theorem AllReached.hasPath {t : State} {h : Nat} {g : XgGen} (hreach : AllReached s h g) (hg : Rising s.groups) (hregs : t.regs = s.regs)
    (hack : (groupOf t h).ackMask = []) (hen : dEn g.1 = true) : ∀ r ∈ othersOf g, hasPath t h g r = true := by
  intro r hr
  have hall := hreach.resolve_left (by simp [hen])
  refine (hasPath_congr (s.setGroup h { groupOf s h with ackMask := [] }) t hregs ?_ g r).trans (hall r hr)
  rw [hack, groupOf_setGroup_same _ _ hg]

/-- A generation whose members all have a path comes into force. -/
theorem ends_xgInForce {s₀ : State} {h : Nat} {g : XgGen} {k : Unit → Prog} (hreach : AllReached s₀ h g) (hg₀ : Rising s₀.groups)
    (hregs : s.regs = s₀.regs) (hbase : inSram (liveBase s (dPart g.1)) = false) (hg : Rising s.groups) :
    Ends (xgInForce h g k) s Q = Ends (k ()) (s.setGroup h (inForce (groupOf s h) g)) Q := by
  set t := s.setGroup h (inForce (groupOf s h) g) with ht
  have hbase' : inSram (liveBase t (dPart g.1)) = false := hbase
  have hack : (groupOf t h).ackMask = [] := by rw [ht, groupOf_setGroup_same _ _ hg]
  have hpath := AllReached.hasPath (t := t) hreach hg₀ hregs hack
  have hloop : dEn g.1 = true → Ends ((forIn (othersOf g) PUnit.unit fun r _ => do
      let u ← look
      if (!hasPath u h g r) = true then do lostPath h g r; pure (ForInStep.yield PUnit.unit)
      else pure (ForInStep.yield PUnit.unit) : Act PUnit) k) t Q = Ends (k ()) t Q := by
    intro hen
    have hp := hpath hen
    generalize othersOf g = l at hp
    induction l with
    | nil => rfl
    | cons r l ih =>
      rw [List.forIn_cons]
      simp only [bind_apply, look_apply, ends_look, hp r List.mem_cons_self, Bool.not_true, Bool.false_eq_true, if_false, pure_apply]
      exact ih fun x hx => hp x (List.mem_cons_of_mem _ hx)
  have hmod : ∀ m : Unit → Prog, Ends (modGroup h (fun x => { x with desc := g.1, members := g.2, used := x.gen, next := none, ackMask := [] })
      m) s Q = Ends (m ()) t Q := fun _ => rfl
  simp only [xgInForce, bind_apply]
  rw [hmod]
  simp only [clearDead, bind_apply, look_apply, ends_look, hbase', Bool.false_eq_true, if_false, pure_apply, ends_ite_act]
  cases hen : dEn g.1 with
  | false => rfl
  | true => exact hloop hen

/-- A group whose commit has passed the check. -/
abbrev committed (g : Group) : Group := { g with state := 2, gen := nextGen g.gen }

theorem ends_xgChecked_ok {h : Nat} {d : Item} {m : List Nat} {k : Unit → Prog} (hok : xgOk s d m = true) (hg : Rising s.groups) :
    Ends (xgChecked h d m k) s Q =
      if xgHeld s h then Ends (k ()) ((s.setGroup h (committed (groupOf s h))).setGroup h { committed (groupOf s h) with next := some (d, m) }) Q
      else Ends (xgInForce h (d, m) k) (s.setGroup h (committed (groupOf s h))) Q := by
  set a := s.setGroup h (committed (groupOf s h)) with ha
  have hga : groupOf a h = committed (groupOf s h) := groupOf_setGroup_same _ _ hg
  have hheld : xgHeld a h = xgHeld s h := by
    have hused : (groupOf a h).used = (groupOf s h).used := by rw [hga]
    have hl : launchesOf a h = launchesOf s h := rfl
    rw [xgHeld, hused, hl, xgHeld]
  have hmod : ∀ n : Unit → Prog, Ends (modGroup h (fun g => { g with state := 2, gen := nextGen g.gen }) n) s Q = Ends (n ()) a Q := fun _ => rfl
  simp only [xgChecked, bind_apply, look_apply, ends_look, hok, if_true]
  rw [hmod]
  simp only [ends_look, hheld, ends_ite_act, ends_modGroup, hga]

theorem ends_xgChecked_bad {h : Nat} {d : Item} {m : List Nat} {k : Unit → Prog} (hok : xgOk s d m = false) :
    Ends (xgChecked h d m k) s Q =
      Ends (raiseGroup 0x4003 2 h (some (dPart d)) 0 k) (s.setGroup h { groupOf s h with state := 3 }) Q := by
  simp only [xgChecked, bind_apply, look_apply, ends_look, hok, Bool.false_eq_true, if_false, ends_modGroup]

theorem xgCheckDone_holds (s : State) (h : Fin 256) : (xgCheckDone s h).Holds := by
  rintro ⟨hstate, hok, hheld, hreach, hbase, hclean, hc⟩
  refine answers_of_ends (xgCheckAct h) rfl ?_
  have hg := hc.risingGroups
  rw [ends_xgCheckAct_clean hstate hclean, ends_xgChecked_ok hok hg, hheld, if_neg Bool.false_ne_true]
  set d := stagedDesc s h
  set m := stagedMembers s d
  set a := s.setGroup h (committed (groupOf s h)) with ha
  have hga : groupOf a h = committed (groupOf s h) := groupOf_setGroup_same _ _ hg
  have hra : Rising a.groups := tput_rising _ _ _ _ hg
  have hbase' : inSram (liveBase a (dPart d)) = false := hbase
  have hregs : a.regs = s.regs := rfl
  rw [ends_xgInForce hreach hg hregs hbase' hra, hga, ends_showXg, ends_done]
  have hgb : groupOf (a.setGroup h (inForce (committed (groupOf s h)) (d, m))) h = inForce (committed (groupOf s h)) (d, m) :=
    groupOf_setGroup_same _ _ hra
  refine ⟨(groupOf_setReg _ _ _ _).trans hgb,
    fun j hj => (groupOf_setReg _ _ _ _).trans ((groupOf_setGroup_ne (s := a) _ hj).trans (groupOf_setGroup_ne _ hj)), rfl,
    fun off hoff => regOf_setReg_ne _ _ _ _ (by simpa using hoff), ?_⟩
  exact (((onlyChanges_setGroup s _ _).trans (onlyChanges_setGroup a _ _)).mono (by decide)).trans
    ((onlyChanges_setReg _ _ _).mono (by decide))

theorem xgCheckWaits_holds (s : State) (h : Fin 256) (l : Launch) (g : XgGen) (u : BitVec 32) : (xgCheckWaits s h l g u).Holds := by
  rintro ⟨hstate, hok, hl, hlh, hlheld, hused, hpast, hshown, hclean, hc⟩
  refine answers_of_ends (xgCheckAct h) rfl ?_
  have hg := hc.risingGroups
  have hheld : xgHeld s h = true := by
    refine List.any_eq_true.2 ⟨l, List.mem_filter.2 ⟨hl, by simp [hlh]⟩, ?_⟩
    simp [hlheld, hpast, hused]
  rw [ends_xgCheckAct_clean hstate hclean, ends_xgChecked_ok hok hg, hheld, if_pos rfl, ends_showXg, ends_done]
  set d := stagedDesc s h
  set m := stagedMembers s d
  set a := s.setGroup h (committed (groupOf s h)) with ha
  have hra : Rising a.groups := tput_rising _ _ _ _ hg
  set b := a.setGroup h { committed (groupOf s h) with next := some (d, m) } with hb
  have hgb : groupOf b h = { committed (groupOf s h) with next := some (d, m) } := groupOf_setGroup_same _ _ hra
  have hread : fieldOf b 0x440010 0 8 = h := hshown
  have hlt : h.val < 2 ^ 8 := h.isLt
  rw [hread]
  refine ⟨hgb, ?_, fun j hj => (groupOf_setGroup_ne (s := a) _ hj).trans (groupOf_setGroup_ne _ hj),
    fun off hoff => regOf_setReg_ne _ _ _ _ (by simpa using hoff), onlyChanges_of_take rfl⟩
  obtain ⟨-, -, hpend, -⟩ := xgShown_fields (g := groupOf b h) hlt (by rw [hgb]; show 2 < 2 ^ 3; decide)
  refine (fieldOf_setReg_same _ (by exact hc.rising) (by decide)).trans (hpend.trans ?_)
  rw [hgb]
  rfl

theorem ends_raiseGroup {code sev h : Nat} {part : Option Nat} {detail : Nat} (hs : sev < 3) {k : Unit → Prog}
    (hQ : ∀ u, Raises code sev 36 h part 0 detail s u → Ends (k ()) u Q) : Ends (raiseGroup code sev h part detail k) s Q :=
  ends_raise hs hQ

theorem xgCheckFails_holds (s : State) (h : Fin 256) : (xgCheckFails s h).Holds := by
  rintro ⟨hstate, hok, hclean, hc⟩
  refine answers_of_ends (xgCheckAct h) rfl ?_
  have hg := hc.risingGroups
  rw [ends_xgCheckAct_clean hstate hclean, ends_xgChecked_bad hok]
  refine ends_raiseGroup (by decide) fun u hu => ?_
  rw [ends_showXg, ends_done]
  have hgu := hu.onlyChanges.groupOf (by decide)
  refine ⟨(hgu _).trans (groupOf_setGroup_same _ _ hg), fun j hj => (hgu j).trans (groupOf_setGroup_ne _ hj), hu.reported, fun off hoff => ?_, ?_⟩
  · rw [List.mem_cons, not_or] at hoff
    exact (regOf_setReg_ne _ _ _ _ hoff.1).trans (hu.regs off hoff.2)
  · have hfirst : OnlyChanges s (s.setGroup h { groupOf s h with state := 3 }) [.regs, .groups, .err] := onlyChanges_of_take rfl
    exact (hfirst.trans (hu.onlyChanges.mono (by decide))).trans (onlyChanges_of_take rfl)

end Sys2Proof.Machine
end

section
/-!
SUPPORT. Launches of exchanges and their buffers, and O34.
-/

namespace Sys2Proof.Machine

open Sys2Proof.Claims

variable {s : State} {Q : State → Prop}

/-! ## Launches -/

theorem sameL_self (l : Launch) : sameL l l = true := by simp [sameL]

/-- The only launch is the one that an update names. -/
theorem ends_modL_only {l : Launch} {f : Launch → Launch} {k : Unit → Prog} (h : s.launches = [l]) :
    Ends (modL l f k) s Q = Ends (k ()) { s with launches := [f l] } Q := by
  rw [modL, ends_modLaunches, h]
  simp [sameL_self]

/-- The only submit of a set is the one that is handed over. -/
theorem setSubmits_only {p setId tag : Nat} {u : Submit} (h : s.submits = [u]) (hp : u.part = p) (ht : u.tag = tag) (hs : rcSet u.cfg = setId) :
    setSubmits s p setId tag = [u] := by simp [setSubmits, h, hp, ht, hs]

theorem exchangeOf_nil {p setId tag : Nat} (h : s.launches = []) : exchangeOf s p setId tag = [] := by simp [exchangeOf, h]

/-- A handed-over set of one context, without a launch yet. -/
theorem ends_launchAct_one {p setId tag : Nat} {u : Submit} {k : Unit → Prog} (hs : setSubmits s p setId tag = [u])
    (hhanded : u.phase = .handed) (hl : s.launches = []) (hel : launchOk s p [u] u.cfg = true → rcElastic u.cfg = false) :
    Ends (launchAct p setId tag k) s Q =
      if launchOk s p [u] u.cfg then
        Ends (k ()) { s with launches :=
          [{ h := rcGroup u.cfg, part := p, setId, tag, kind := .dispatch, phase := .queued, elastic := false,
             smax := (setCaps [u]).foldl (· + ·) 0 * (8 + rcTb u.cfg), tokenBytes := rcTb u.cfg, caps := setCaps [u] }] } Q
      else Ends (raiseGroup 0x4003 2 (rcGroup u.cfg) (some p) 0 fun _ => failExchange p setId tag k) s Q := by
  have hsubs : (setSubmits s p setId tag).filter (·.phase == .handed) = [u] := by simp [hs, hhanded]
  have hnone : launchesOf s (rcGroup u.cfg) = [] := by simp [launchesOf, hl]
  cases hok : launchOk s p [u] u.cfg with
  | false =>
    simp only [launchAct, bind_apply, look_apply, ends_look, hsubs, exchangeOf_nil hl, List.isEmpty_nil, Bool.not_true, Bool.false_eq_true,
      if_false, hok, Bool.not_false, if_true]
  | true =>
    have hone : setWindows [u] (rcElastic u.cfg) = 1 := by rw [hel hok]; rfl
    simp only [launchAct, bind_apply, look_apply, ends_look, hsubs, exchangeOf_nil hl, List.isEmpty_nil, Bool.not_true, Bool.false_eq_true,
      if_false, hok, if_true, hnone, List.filter_nil, List.length_nil, show ¬ 8 ≤ 0 by decide, ends_modLaunches, hl, hel hok]
    rfl

theorem exchLaunch_holds (s : State) (p : Fin 64) (setId : BitVec 8) (tag : BitVec 32) (u : Submit) : (exchLaunch s p setId tag u).Holds := by
  rintro ⟨hsub, hp, ht, hset, hhanded, hl, hok, hel⟩
  refine exec_of_ends (launchAct p setId.toNat tag.toNat) rfl ?_
  rw [ends_launchAct_one (setSubmits_only hsub hp ht hset) hhanded hl fun _ => hel, if_pos hok]
  rfl

theorem ends_failExchange_none {p setId tag : Nat} {u : Submit} {k : Unit → Prog} (hs : setSubmits s p setId tag = [u]) (hl : s.launches = []) :
    Ends (failExchange p setId tag k) s Q = Ends (failSubmit u k) s Q := by
  simp only [failExchange, endExchange, bind_apply, look_apply, ends_look, exchangeOf_nil hl, List.forIn_nil, pure_apply, hs, List.forIn_cons]

/-- An outcome that no thread waits for is kept. -/
theorem ends_tagDone_quiet {rctx tag status : Nat} {flags : BitVec 6} {k : Unit → Prog}
    (h : ∀ e ∈ s.threads, ∀ r tg g, e.2.wait ≠ .combine r tg g) :
    Ends (tagDone rctx tag status flags k) s Q = Ends (k ()) { s with
      tagsDone := s.tagsDone.filter (fun d => !(d.rctx == rctx && d.tag == tag)) ++ [{ rctx, tag, status, flags }] } Q := by
  have hloop : ∀ (l : List (Nat × Thread)), (∀ e ∈ l, ∀ r tg g, e.2.wait ≠ .combine r tg g) → ∀ m : PUnit → Prog,
      Ends ((forIn l PUnit.unit fun e _ => match e.2.wait with
        | .combine r t g => if (r = rctx && t = tag) = true then do
            endWait e.1 (fun t => orFlags flags (setG g (BitVec.ofNat 64 status) t)); pure (ForInStep.yield PUnit.unit)
          else pure (ForInStep.yield PUnit.unit)
        | _ => pure (ForInStep.yield PUnit.unit) : Act PUnit) m) s Q = Ends (m PUnit.unit) s Q := by
    intro l hl m
    induction l with
    | nil => rfl
    | cons e l ih =>
      rw [List.forIn_cons, bind_apply]
      have he := hl e List.mem_cons_self
      have hrest := ih fun x hx => hl x (List.mem_cons_of_mem _ hx)
      cases hw : e.2.wait with
      | combine r t g => exact absurd hw (he r t g)
      | _ => exact hrest
  simp only [tagDone, bind_apply, look_apply, ends_look]
  exact (hloop _ h _).trans rfl

/-- A submit that was handed over fails: only its outcome is left of it. -/
theorem ends_failSubmit_handed {u : Submit} {k : Unit → Prog} (hs : s.submits = [u]) (hhanded : u.phase = .handed)
    (h : ∀ e ∈ s.threads, ∀ r tg g, e.2.wait ≠ .combine r tg g) :
    Ends (failSubmit u k) s Q = Ends (k ()) { s with
      submits := [], tagsDone := s.tagsDone.filter (fun d => !(d.rctx == u.rctx && d.tag == u.tag)) ++
        [{ rctx := u.rctx, tag := u.tag, status := 2, flags := 0 }] } Q := by
  have hgone : s.submits.filter (fun x => !(x.rctx == u.rctx && x.tag == u.tag && x.thread == u.thread && x.slot == u.slot)) = [] := by
    simp [hs]
  have hdone : (u.phase != .handed) = false := by rw [hhanded]; rfl
  simp only [failSubmit, bind_apply, ends_modSubmits, hgone, hdone, Bool.false_eq_true, if_false]
  exact ends_tagDone_quiet h

theorem exchLaunchFails_holds (s : State) (p : Fin 64) (setId : BitVec 8) (tag : BitVec 32) (u : Submit) :
    (exchLaunchFails s p setId tag u).Holds := by
  rintro ⟨hsub, hp, ht, hset, hhanded, hl, hok, hquiet, hc⟩
  refine answers_of_ends (launchAct p setId.toNat tag.toNat) rfl ?_
  have hs := setSubmits_only hsub hp ht hset
  rw [ends_launchAct_one hs hhanded hl (by simp [hok]), hok, if_neg Bool.false_ne_true]
  refine ends_raiseGroup (by decide) fun v hv => ?_
  have honly := hv.onlyChanges
  have hvsub : v.submits = s.submits := honly .submits (by decide)
  have hvs : setSubmits v p setId.toNat tag.toNat = [u] := setSubmits_only (hvsub.trans hsub) hp ht hset
  have hvl : v.launches = [] := (honly .launches (by decide)).trans hl
  have hvt : v.threads = s.threads := (honly .threads (by decide)).1
  rw [ends_failExchange_none hvs hvl, ends_failSubmit_handed (hvsub.trans hsub) hhanded (by rwa [hvt]), ends_done]
  have htags : v.tagsDone = s.tagsDone := honly .tagsDone (by decide)
  refine ⟨rfl, by rw [htags], hv.reported, hv.regs, ?_⟩
  exact (honly.mono (by decide)).trans (onlyChanges_of_take rfl)

/-! ## EXCH_LAUNCH_DONE (R97, R351) -/

theorem exchLaunchDone_holds (s : State) (h : Fin 256) (l : Launch) : (exchLaunchDone s h l).Holds := by
  rintro ⟨hl, hh, hphase, hgrant, hc⟩
  have hfind : (launchesOf s h).find? (fun l => l.phase == .allocated && holdsGrant s (windowHolder l)) = some l := by
    simp [launchesOf, hl, hh, hphase, hgrant]
  have hword : rXg h 0x24 / 8 * 8 = rXg h 0x20 ∧ rXg h 0x24 % 8 * 8 = 32 := by simp only [rXg]; omega
  refine answers_of_ends _ rfl ?_
  simp only [bind_apply, look_apply, ends_look, hfind, ends_ite_act, ends_ctr32, hword]
  by_cases hmissed : l.missed = true
  · set v := min 0xFFFFFFFF (fieldOf s (rXg h 0x20) 32 32 + 1) with hv
    have hl' : (s.setField (rXg h 0x20) 32 32 v).launches = [l] := hl
    rw [if_pos hmissed, ends_modL_only hl', ends_done, if_pos hmissed]
    refine ⟨rfl, ?_, fun off hoff => regOf_setReg_ne _ _ _ _ (by simpa using hoff), ?_⟩
    · refine (fieldOf_setField_same s _ _ _ _ hc.rising (by decide)).trans ?_
      rw [Nat.mod_eq_of_lt (by omega)]
    · exact ((onlyChanges_setReg s _ _).mono (by decide)).trans (onlyChanges_of_take rfl)
  · rw [if_neg hmissed, ends_modL_only hl, ends_done, if_neg hmissed]
    exact ⟨rfl, rfl, fun _ _ => rfl, onlyChanges_of_take rfl⟩

/-! ## A buffer from the stack of its class (R261–R263, R266) -/

/-- Buffer `a` of a class has been taken from the top of the stack. -/
structure TakenFromStack (s u : State) (p c a : Nat) (more : List Nat) : Prop where
  pool : poolOf u (poolKey p c) = { poolOf s (poolKey p c) with stack := more }
  mem : MemBut s u a 16
  regs : RegsBut s u [rPool p c 0x10, rPool p c 0x18, rPoolCnt p c 0]
  only : OnlyChanges s u [.pools, .mem, .regs]

/-- Once a loop has what it looks for, the rest of it does nothing. -/
theorem ends_forIn_found {γ β : Type} (l : List γ) (x : β) (f : γ → Option β → Act (ForInStep (Option β))) (k : Option β → Prog) :
    Ends ((forIn l (some x) fun y r => if r.isNone = true then f y r else pure (ForInStep.yield r) : Act (Option β)) k) s Q =
      Ends (k (some x)) s Q := by
  induction l with
  | nil => rfl
  | cons _ _ ih =>
    rw [List.forIn_cons, bind_apply]
    exact ih

theorem classesFor_cons {p c n : Nat} (h : classFor n = some c) : ∃ rest, classesFor s p c = c :: rest := by
  have hc : c < 12 := List.mem_range.1 (List.mem_of_find?_eq_some h)
  have hmem : c ∈ classesFor s p c := List.mem_filter.2 ⟨List.mem_range.2 hc, by simp; omega⟩
  have hsorted : (classesFor s p c).Pairwise (· < ·) := List.pairwise_lt_range.filter _
  cases hl : classesFor s p c with
  | nil => rw [hl] at hmem; cases hmem
  | cons d rest =>
    have hd : c ≤ d := by
      have hin : d ∈ classesFor s p c := hl ▸ List.mem_cons_self
      have := (List.mem_filter.1 hin).2
      simp only [Bool.and_eq_true, decide_eq_true_eq] at this
      exact this.1
    rw [hl] at hmem hsorted
    rcases List.mem_cons.1 hmem with rfl | hmem
    · exact ⟨rest, rfl⟩
    · exact absurd ((List.pairwise_cons.1 hsorted).1 c hmem) (by omega)

/-- The state once a buffer from the stack is handed out. -/
def State.handedOut (s : State) (p c a : Nat) (more : List Nat) : State :=
  let t := (s.setPool (poolKey p c) { poolOf s (poolKey p c) with stack := more }).putMem a (natBytes 16 0)
  let t := t.setField (rPool p c 0x18) 0 32 (poolOut t p c + 1)
  let d := poolOf t (poolKey p c)
  t.setField (rPool p c 0x10) 0 32 (d.stack.length + d.freeLen + (d.count - poolWater t p c))

theorem ends_handOut {p c a : Nat} {more : List Nat} {k : Unit → Prog} (hclean : CleanMem s) (hdir : s.fab.dir = []) :
    Ends (handOut p c a k) (s.setPool (poolKey p c) { poolOf s (poolKey p c) with stack := more }) Q =
      Ends (k ()) (s.handedOut p c a more) Q := by
  have hclean' : CleanMem (s.setPool (poolKey p c) { poolOf s (poolKey p c) with stack := more }) := hclean
  have hdir' : (s.setPool (poolKey p c) { poolOf s (poolKey p c) with stack := more }).fab.dir = [] := hdir
  simp only [handOut, showAvail, bind_apply, ends_putNat_clean hclean' hdir', look_apply, ends_look, ends_wrF]
  rfl

theorem memBut_of_mem_eq {t u : State} {a n : Nat} (h : MemBut s t a n) (hm : u.mem = t.mem) : MemBut s u a n := fun x hx => by
  rw [memAt, hm]
  exact h x hx

theorem takenFromStack_handedOut {p c a : Nat} {more : List Nat} (v : Nat) (hp : Rising s.pools) :
    TakenFromStack s ((s.handedOut p c a more).setReg (rPoolCnt p c 0) v) p c a more := by
  set t := (s.setPool (poolKey p c) { poolOf s (poolKey p c) with stack := more }).putMem a (natBytes 16 0) with ht
  have hpool : poolOf t (poolKey p c) = { poolOf s (poolKey p c) with stack := more } := poolOf_setPool_same _ _ hp
  have hmem : MemBut s t a 16 := by
    have := memBut_putMem (s.setPool (poolKey p c) { poolOf s (poolKey p c) with stack := more }) a (natBytes 16 0)
    rwa [length_natBytes] at this
  have hregs : t.regs = s.regs := rfl
  have honly : OnlyChanges s t [.pools, .mem, .regs] := onlyChanges_of_take rfl
  refine ⟨hpool, memBut_of_mem_eq hmem rfl, fun off hoff => ?_, ?_⟩
  · simp only [List.mem_cons, List.not_mem_nil, or_false, not_or] at hoff
    refine (regOf_setReg_ne _ _ _ _ hoff.2.2).trans ((regOf_setReg_ne _ _ _ _ hoff.1).trans ((regOf_setReg_ne _ _ _ _ hoff.2.1).trans ?_))
    rw [← ht, regOf, hregs, regOf]
  · exact honly.trans ((((onlyChanges_setReg _ _ _).trans (onlyChanges_setReg _ _ _)).trans (onlyChanges_setReg _ _ _)).mono (by decide))

/-- A batch of one buffer that lies on the stack of its class. -/
theorem ends_poolBatch_one {p c n a : Nat} {more : List Nat} {k : Option (List Nat) → Prog} (hclass : classFor n = some c)
    (hst : (poolOf s (poolKey p c)).stack = a :: more) (hclean : CleanMem s) (hdir : s.fab.dir = []) (hp : Rising s.pools)
    (hQ : ∀ u, TakenFromStack s u p c a more → Ends (k (some [a])) u Q) : Ends (poolBatch p [n] k) s Q := by
  obtain ⟨rest, hcl⟩ := classesFor_cons (s := s) (p := p) hclass
  simp only [poolBatch, poolRequest, List.forIn_cons, List.forIn_nil, bind_apply, hclass, look_apply, ends_look, hcl, Option.isNone_none,
    if_true, poolTake, hst, ends_modPool, pure_apply, ne_eq, not_true_eq_false, if_false, ends_forIn_found, ends_handOut hclean hdir,
    ends_ctr64, List.reverse_cons, List.reverse_nil, List.nil_append, List.map_cons, List.map_nil]
  exact hQ _ (takenFromStack_handedOut _ hp)

/-! ## EXCH_ALLOCATION (R101, R266, R351) -/

theorem ends_askWindow {l : Launch} {k : Unit → Prog} : Ends (askWindow l k) s Q = Ends (k ()) (windowAsk s l) Q := rfl

theorem classMw_congr {u : State} (h : ∀ off, off < 0x400000 → regOf u off = regOf s off) :
    classMw u (fieldOf u 0x040008 16 3) = classMw s (fieldOf s 0x040008 16 3) := by
  have hfield : ∀ off lo len, off < 0x400000 → fieldOf u off lo len = fieldOf s off lo len := fun off lo len hoff => by
    rw [fieldOf, h off hoff, fieldOf]
  have hclass : fieldOf s 0x040008 16 3 < 2 ^ 3 := bitsOf_lt _ _ _
  rw [hfield 0x040008 16 3 (by decide), classMw, classMw, hfield _ _ _ (by omega), hfield _ _ _ (by decide)]

theorem exchAllocation_holds (s : State) (h : Fin 256) (l : Launch) (r n c a : Nat) (more : List Nat) :
    (exchAllocation s h l r n c a more).Holds := by
  rintro ⟨hl, hh, hphase, hkind, hel, hwant, hclass, hst, hdir, hclean, hc⟩
  have hfind : (launchesOf s h).find? (fun l => l.phase == .queued) = some l := by simp [launchesOf, hl, hh, hphase]
  have hsibs : (exchangeOf s l.part l.setId l.tag).filter (fun x => x.phase == .queued && x.kind == .dispatch) = [l] := by
    simp [exchangeOf, hl, hphase, hkind]
  refine answers_of_ends (allocAct h) rfl ?_
  simp only [allocAct, bind_apply, look_apply, ends_look, hfind, hsibs, if_pos hel, List.flatMap_cons, List.flatMap_nil, List.append_nil,
    hwant, List.map_cons, List.map_nil]
  refine ends_poolBatch_one hclass hst hclean hdir hc.risingPools fun u hu => ?_
  obtain ⟨hpool, hmem, hregs, honly⟩ := hu
  have hul : u.launches = [l] := (honly .launches (by decide)).trans hl
  simp only [List.forIn_cons, List.forIn_nil, bind_apply, ends_modL_only hul, ends_askWindow, pure_apply, List.zip_cons_cons, List.zip_nil_right,
    List.filterMap_cons, List.filterMap_nil, beq_self_eq_true, if_true, ends_done]
  have hlow : ∀ off, off < 0x400000 → regOf u off = regOf s off := fun off hoff => hregs off (by
    simp only [rPool, rPoolCnt, rPart, List.mem_cons, List.not_mem_nil, or_false]; omega)
  have hpw : u.pw = s.pw := honly .pw (by decide)
  have htime : u.time = s.time := honly .time (by decide)
  refine ⟨trivial, ?_, hpool, hmem, hregs, (honly.mono (by decide)).trans (onlyChanges_of_take rfl)⟩
  have hmw := classMw_congr hlow
  show (windowAsk u l).pw = (windowAsk s l).pw
  simp only [hmw, hpw, htime]

/-! ## RETURN_LAUNCH (R103, R204) -/

theorem returnLaunch_holds (s : State) (h : Fin 256) (l : Launch) : (returnLaunch s h l).Holds := by
  rintro ⟨hl, hh, hkind, hret, hrx, hphase, hcount, hwl, harea, hc⟩
  have hfind : (launchesOf s h).find? (fun l => l.kind == .dispatch && !l.retLaunched && !l.rx.isEmpty &&
      (l.phase == .opened || l.phase == .closed) && plDoneCount l.plan ≤
        (pipOf s (pipKey l.part (fieldOf s (rPart l.part 0x28) 0 4) (plDoneCore l.plan) (plDonePip l.plan))).toNat) = some l := by
    rcases hphase with hphase | hphase <;> simp [launchesOf, hl, hh, hkind, hret, hrx, hphase, hcount]
  have hbufs : listBufs l = [] := by simp [listBufs, hwl, harea]
  have hsame : { l with retLaunched := true, wl := 0, area := 0 } = { l with retLaunched := true } := by rw [hwl, harea]
  refine exec_of_ends (returnAct h) rfl ?_
  simp only [returnAct, bind_apply, look_apply, ends_look, hfind, eff_apply, ends_eff, hbufs, freeAll, List.forIn_nil, pure_apply]
  set k := pipKey l.part (fieldOf s (rPart l.part 0x28) 0 4) (plDoneCore l.plan) (plDonePip l.plan)
  set b := s.setPip k (BitVec.ofNat 16 ((pipOf s k).toNat - plDoneCount l.plan)) with hb
  have hbl : b.launches = [l] := hl
  show Ends (modL l _ _) b _
  rw [ends_modL_only hbl, hsame]
  simp only [ends_modLaunches, ends_askWindow, ends_done]
  rfl

/-- Settles O34: a commit by what the check makes of its group, a launch by what it takes. -/
theorem exchangeGroupsAndLaunches : Obligations.ExchangeGroupsAndLaunches := by
  unfold Obligations.ExchangeGroupsAndLaunches
  intro s w h p setId tag u l r n c a more g u32
  exact ⟨xgCommitGo_holds s w, xgCommitRefused_holds s w, xgCheckDone_holds s h, xgCheckWaits_holds s h l g u32, xgBaseHeld_holds s w r,
    xgCheckFails_holds s h, exchLaunch_holds s p setId tag u, exchLaunchFails_holds s p setId tag u,
    exchAllocation_holds s h l r n c a more, exchLaunchDone_holds s h l, returnLaunch_holds s h l⟩

end Sys2Proof.Machine
end

section
/-!
SUPPORT. The order of a send list, and the admission of picks.
-/

namespace Sys2Proof.Machine

open Sys2Proof.Claims

/-! ## Sorting -/

theorem insertBy_eq {α : Type} (le : α → α → Bool) (x : α) (l : List α) : insertBy le x l = l.orderedInsert (fun a b => le a b = true) x := by
  induction l with
  | nil => rfl
  | cons y ys ih => rw [insertBy, List.orderedInsert, ih]

theorem sortBy_eq {α : Type} (le : α → α → Bool) (l : List α) : sortBy le l = l.insertionSort (fun a b => le a b = true) := by
  induction l with
  | nil => rfl
  | cons x xs ih =>
    rw [List.insertionSort_cons, ← ih, ← insertBy_eq]
    rfl

theorem perm_sortBy {α : Type} (le : α → α → Bool) (l : List α) : (sortBy le l).Perm l := by
  rw [sortBy_eq]
  exact List.perm_insertionSort _ l

/-- Sorting by a number leaves the numbers in order. -/
theorem pairwise_sortBy_key {α : Type} (f : α → Nat) (l : List α) : (sortBy (fun a b => decide (f a ≤ f b)) l).Pairwise (fun a b => f a ≤ f b) := by
  rw [sortBy_eq]
  have htotal : Std.Total fun a b : α => decide (f a ≤ f b) = true := ⟨fun a b => by simpa using Nat.le_total (f a) (f b)⟩
  have htrans : IsTrans α fun a b => decide (f a ≤ f b) = true := ⟨fun a b c h h' => by simp only [decide_eq_true_eq] at *; omega⟩
  exact (List.pairwise_insertionSort _ l).imp fun h => by simpa using h

/-! ## The send list (R68) -/

theorem sendOrder_holds (ps : List Pick) : (sendOrder ps).Holds := by
  rintro -
  exact ⟨perm_sortBy _ ps, List.pairwise_map.2 (pairwise_sortBy_key sendKey ps)⟩

/-- What the top of a key tells. -/
theorem sendKey_shiftRight (k : Pick) : sendKey k >>> 50 = if k.gap.isSome then 0x3FFF else k.dest % 2 ^ 14 := by
  have hexpert : (k.expert % 2 ^ 16) <<< 34 < 2 ^ 50 := by rw [Nat.shiftLeft_eq]; omega
  have htok : (k.tok % 2 ^ 24) <<< 10 < 2 ^ 50 := by rw [Nat.shiftLeft_eq]; omega
  have hrank : (k.rank % 16) <<< 6 < 2 ^ 50 := by rw [Nat.shiftLeft_eq]; omega
  have hzero : ∀ n, n < 2 ^ 50 → n >>> 50 = 0 := fun n hn => by rw [Nat.shiftRight_eq_div_pow, Nat.div_eq_of_lt hn]
  rw [sendKey, Nat.shiftRight_or_distrib, Nat.shiftRight_or_distrib, Nat.shiftRight_or_distrib, hzero _ hexpert, hzero _ htok, hzero _ hrank,
    Nat.shiftLeft_shiftRight]
  simp

/-- A gap marker's key is above that of a route to a destination below 0x3FFF. -/
theorem sendKey_lt_of_gap {a b : Pick} (ha : a.gap.isSome = true) (hb : b.gap = none) (hd : b.dest < 0x3FFF) : sendKey b < sendKey a := by
  have htop : sendKey b >>> 50 < sendKey a >>> 50 := by
    rw [sendKey_shiftRight, sendKey_shiftRight, if_pos ha, hb]
    simp only [Option.isSome_none, Bool.false_eq_true, if_false]
    omega
  rw [Nat.shiftRight_eq_div_pow, Nat.shiftRight_eq_div_pow] at htop
  exact Nat.lt_of_not_le fun h => absurd (Nat.div_le_div_right (c := 2 ^ 50) h) (by omega)

theorem sendGapsLast_holds (ps : List Pick) (i j : Nat) (a b : Pick) : (sendGapsLast ps i j a b).Holds := by
  rintro ⟨hall, hi, hj, ha, hb⟩
  have hmem : b ∈ ps := (perm_sortBy _ ps).mem_iff.1 (List.mem_of_getElem? hj)
  have hlt := sendKey_lt_of_gap ha hb (hall b hmem).1
  obtain ⟨hil, rfl⟩ := List.getElem?_eq_some_iff.1 hi
  obtain ⟨hjl, rfl⟩ := List.getElem?_eq_some_iff.1 hj
  rcases Nat.lt_trichotomy i j with h | rfl | h
  · exact absurd (List.pairwise_iff_getElem.1 (pairwise_sortBy_key sendKey ps) i j hil hjl h) (by exact Nat.not_le.2 hlt)
  · exact absurd hlt (Nat.lt_irrefl _)
  · exact h

/-! ## Admission (R70, R71) -/

/-- One pick is admitted: the places taken so far at each destination, and the picks that have been, latest first. -/
def admitStep (c : Item) (a : Tbl Nat × List Pick) (k : Pick) : Tbl Nat × List Pick :=
  if k.gap.isSome then (a.1, k :: a.2)
  else
    let n := tget 0 a.1 k.dest
    if rcElastic c then (tput 0 a.1 k.dest (n + 1), { k with pos := n % rcCap c, win := n / rcCap c } :: a.2)
    else if n < rcCap c then (tput 0 a.1 k.dest (n + 1), { k with pos := n } :: a.2)
    else (a.1, { k with gap := some 0 } :: a.2)

/-- The picks in a list after admission. -/
def admitList (c : Item) (l : List Pick) : Tbl Nat × List Pick := l.foldl (admitStep c) ([], [])

theorem admitPicks_eq (c : Item) (ps : List Pick) : admitPicks c ps = (admitList c (sortBy admitsBefore ps)).2.reverse := rfl

theorem admitList_append (c : Item) (l : List Pick) (k : Pick) : admitList c (l ++ [k]) = admitStep c (admitList c l) k := by
  rw [admitList, List.foldl_append]
  rfl

theorem placedAt_append (a b : List Pick) (dest : Nat) : placedAt (a ++ b) dest = placedAt a dest ++ placedAt b dest := List.filter_append ..

/-- A pick that is no gap marker is placed at its destination only. -/
theorem placedAt_single {k : Pick} (h : k.gap = none) (dest : Nat) : placedAt [k] dest = if k.dest = dest then [k] else [] := by
  by_cases hd : k.dest = dest <;> simp [placedAt, h, hd]

theorem placedAt_gap {k : Pick} (h : k.gap.isSome = true) (dest : Nat) : placedAt [k] dest = [] := by
  cases hg : k.gap with
  | none => rw [hg] at h; cases h
  | some _ => simp [placedAt, hg]

theorem rising_admitList (c : Item) (l : List Pick) : Rising (admitList c l).1 := by
  induction l using List.reverseRecOn with
  | nil => exact List.Pairwise.nil
  | append_singleton l k ih =>
    rw [admitList_append, admitStep]
    split
    · exact ih
    · dsimp only
      split
      · exact tput_rising _ _ _ _ ih
      · split
        · exact tput_rising _ _ _ _ ih
        · exact ih

theorem length_admitList (c : Item) (l : List Pick) : (admitList c l).2.length = l.length := by
  induction l using List.reverseRecOn with
  | nil => rfl
  | append_singleton l k ih =>
    rw [admitList_append, admitStep, List.length_append, List.length_singleton]
    dsimp only
    split_ifs <;> simp [ih]

theorem length_placedAt_perm {a b : List Pick} (h : a.Perm b) (dest : Nat) : (placedAt a dest).length = (placedAt b dest).length :=
  (h.filter _).length_eq

/-- A pick that goes elsewhere changes nothing at a destination. -/
theorem admitStep_other (c : Item) (a : Tbl Nat × List Pick) {k : Pick} {dest : Nat} (h : k.gap.isSome = true ∨ k.dest ≠ dest) :
    tget 0 (admitStep c a k).1 dest = tget 0 a.1 dest ∧
      placedAt (admitStep c a k).2.reverse dest = placedAt a.2.reverse dest := by
  unfold admitStep
  by_cases hgap : k.gap.isSome = true
  · rw [if_pos hgap, List.reverse_cons, placedAt_append, placedAt_gap hgap, List.append_nil]
    exact ⟨rfl, rfl⟩
  · have hne : k.dest ≠ dest := h.resolve_left hgap
    have hnone : k.gap = none := by simpa using hgap
    have hput : ∀ v, tget 0 (tput 0 a.1 k.dest v) dest = tget 0 a.1 dest := fun v => tget_tput_ne _ _ _ _ _ (Ne.symm hne)
    have hplace : ∀ x : Pick, x.gap.isSome = true ∨ x.gap = none ∧ x.dest = k.dest →
        placedAt (x :: a.2).reverse dest = placedAt a.2.reverse dest := by
      intro x hx
      rw [List.reverse_cons, placedAt_append]
      rcases hx with hx | ⟨hx, hd⟩
      · rw [placedAt_gap hx, List.append_nil]
      · rw [placedAt_single hx, if_neg (hd ▸ hne), List.append_nil]
    rw [if_neg hgap]
    dsimp only
    split
    · exact ⟨hput _, hplace _ (.inr ⟨hnone, rfl⟩)⟩
    · split
      · exact ⟨hput _, hplace _ (.inr ⟨hnone, rfl⟩)⟩
      · exact ⟨rfl, hplace _ (.inl rfl)⟩

/-- What the admission of one destination's picks comes to in Reserved mode. -/
theorem admitList_reserved {c : Item} (hc : rcElastic c = false) (dest : Nat) (l : List Pick) :
    tget 0 (admitList c l).1 dest = min (rcCap c) (placedAt l dest).length ∧
      (placedAt (admitList c l).2.reverse dest).map (·.pos) = List.range (min (rcCap c) (placedAt l dest).length) ∧
      (placedAt (admitList c l).2.reverse dest).map (fun k => (k.tok, k.rank)) =
        ((placedAt l dest).take (rcCap c)).map (fun k => (k.tok, k.rank)) := by
  induction l using List.reverseRecOn with
  | nil => simp [admitList, placedAt, tget]
  | append_singleton l k ih =>
    obtain ⟨hn, hpos, htok⟩ := ih
    rw [admitList_append, placedAt_append]
    by_cases hother : k.gap.isSome = true ∨ k.dest ≠ dest
    · obtain ⟨htbl, hplaced⟩ := admitStep_other c (admitList c l) hother
      have hk : placedAt [k] dest = [] := by
        rcases hother with h | h
        · exact placedAt_gap h dest
        · simp [placedAt, h]
      rw [htbl, hplaced, hk, List.append_nil]
      exact ⟨hn, hpos, htok⟩
    · rw [not_or, not_not] at hother
      obtain ⟨hgap, rfl⟩ := hother
      have hnone : k.gap = none := by simpa using hgap
      have hk : placedAt [k] k.dest = [k] := by rw [placedAt_single hnone, if_pos rfl]
      rw [hk, admitStep, if_neg hgap]
      simp only [hc, Bool.false_eq_true, if_false, List.length_append, List.length_singleton]
      set n := tget 0 (admitList c l).1 k.dest
      set m := (placedAt l k.dest).length with hm
      by_cases hroom : n < rcCap c
      · have hnm : n = m := by omega
        have hnew : placedAt [({ k with pos := n } : Pick)] k.dest = [{ k with pos := n }] := by
          rw [placedAt_single (k := { k with pos := n }) hnone]
          exact if_pos rfl
        rw [if_pos hroom, List.reverse_cons, placedAt_append, hnew, List.map_append, List.map_append, hpos, htok]
        refine ⟨?_, ?_, ?_⟩
        · exact (tget_tput_same _ _ _ _ (rising_admitList c l)).trans (by omega)
        · rw [show min (rcCap c) (m + 1) = m + 1 by omega, show min (rcCap c) m = m by omega, List.range_succ, hnm]
          rfl
        · rw [List.take_of_length_le (by omega), List.take_of_length_le (by simp; omega), List.map_append]
          rfl
      · have hfull : rcCap c ≤ m := by omega
        have hnew : placedAt [({ k with gap := some 0 } : Pick)] k.dest = [] := placedAt_gap rfl _
        rw [if_neg hroom, List.reverse_cons, placedAt_append, hnew, List.append_nil, hpos, htok, List.take_append_of_le_length hfull]
        exact ⟨hn.trans (by omega), by rw [show min (rcCap c) (m + 1) = min (rcCap c) m by omega], rfl⟩

theorem admission_holds (c : Item) (ps : List Pick) (dest : Nat) : (admission c ps dest).Holds := by
  intro hc
  obtain ⟨-, hpos, htok⟩ := admitList_reserved hc dest (sortBy admitsBefore ps)
  have hperm := perm_sortBy admitsBefore ps
  rw [length_placedAt_perm hperm] at hpos
  refine ⟨hpos, ?_, htok⟩
  rw [admitPicks_eq, List.length_reverse, length_admitList, hperm.length_eq]

/-- What it comes to in Elastic mode. -/
theorem admitList_elastic {c : Item} (hc : rcElastic c = true) (hcap : 1 ≤ rcCap c) (dest : Nat) (l : List Pick) :
    tget 0 (admitList c l).1 dest = (placedAt l dest).length ∧
      (placedAt (admitList c l).2.reverse dest).map (fun k => k.win * rcCap c + k.pos) = List.range (placedAt l dest).length ∧
      ∀ k ∈ placedAt (admitList c l).2.reverse dest, k.pos < rcCap c := by
  induction l using List.reverseRecOn with
  | nil => simp [admitList, placedAt, tget]
  | append_singleton l k ih =>
    obtain ⟨hn, hplace, hpos⟩ := ih
    rw [admitList_append, placedAt_append]
    by_cases hother : k.gap.isSome = true ∨ k.dest ≠ dest
    · obtain ⟨htbl, hplaced⟩ := admitStep_other c (admitList c l) hother
      have hk : placedAt [k] dest = [] := by
        rcases hother with h | h
        · exact placedAt_gap h dest
        · simp [placedAt, h]
      rw [htbl, hplaced, hk, List.append_nil]
      exact ⟨hn, hplace, hpos⟩
    · rw [not_or, not_not] at hother
      obtain ⟨hgap, rfl⟩ := hother
      have hnone : k.gap = none := by simpa using hgap
      have hk : placedAt [k] k.dest = [k] := by rw [placedAt_single hnone, if_pos rfl]
      rw [hk, admitStep, if_neg hgap]
      simp only [hc, if_true, List.length_append, List.length_singleton]
      set n := tget 0 (admitList c l).1 k.dest
      set x : Pick := { k with pos := n % rcCap c, win := n / rcCap c } with hx
      have hnew : placedAt [x] k.dest = [x] := by
        rw [placedAt_single (k := x) hnone]
        exact if_pos rfl
      have hsum : x.win * rcCap c + x.pos = n := Nat.div_add_mod' n (rcCap c)
      rw [List.reverse_cons, placedAt_append, hnew, List.map_append, hplace]
      refine ⟨?_, ?_, fun y hy => ?_⟩
      · exact (tget_tput_same _ _ _ _ (rising_admitList c l)).trans (by omega)
      · rw [List.range_succ, List.map_singleton, hsum, hn]
      · rcases List.mem_append.1 hy with hy | hy
        · exact hpos y hy
        · rw [List.mem_singleton.1 hy]
          exact Nat.mod_lt _ hcap

theorem admissionElastic_holds (c : Item) (ps : List Pick) (dest : Nat) : (admissionElastic c ps dest).Holds := by
  rintro ⟨hc, hcap⟩
  obtain ⟨-, hplace, hpos⟩ := admitList_elastic hc hcap dest (sortBy admitsBefore ps)
  rw [length_placedAt_perm (perm_sortBy admitsBefore ps)] at hplace
  exact ⟨hplace, hpos⟩

end Sys2Proof.Machine
end

section
/-!
SUPPORT. What a unit pops from a queue that nobody waits for.
-/

namespace Sys2Proof.Machine

open Sys2Proof.Claims

variable {s : State} {Q : State → Prop} {q : Nat}

/-! ## One item (R180, R184) -/

/-- A queue whose head item has gone. -/
def Queue.shift (d : Queue) (depth now : Nat) (rest : List QItem) : Queue :=
  { d with items := rest, head := (d.head + 1) % depth, since := now, staleFired := false }

/-- The state after a pop from a queue that nobody waits for. -/
def State.popped (s : State) (q : Nat) (rest : List QItem) : State :=
  ((s.setQueue q ((queueOf s q).shift (qDepth s q) s.time.now rest)).setReg (rQcnt q 8) (((regOf s (rQcnt q 8)).toNat + 1) % 2 ^ 64)).setReg
    (0x2A0000 + q * 0x10) (rest.length % 2 ^ 17 ||| ((queueOf s q).reserved % 2 ^ 17) <<< 32)

theorem ends_qPopItem_clean {die : Nat} {x : QItem} {rest : List QItem} {k : Option QItem → Prog} (hi : (queueOf s q).items = x :: rest)
    (hw : (queueOf s q).waiters = []) (hclean : CleanMem s) (hq : Rising s.queues) :
    Ends (qPopItem q die k) s Q = Ends (k (some x)) (s.popped q rest) Q := by
  set d := (queueOf s q).shift (qDepth s q) s.time.now rest with hd
  have hread : queueOf (s.setQueue q d) q = d := queueOf_setQueue_same d q hq
  have hmod : ∀ m : Unit → Prog, Ends (modQueue q (fun d => { d with items := rest, head := (d.head + 1) % qDepth s q, since := s.time.now, staleFired := false }) m)
      s Q = Ends (m ()) (s.setQueue q d) Q := fun _ => rfl
  have htake : ∀ m : Option QItem → Prog, Ends (qTake q m) s Q = Ends (m (some x)) (s.setQueue q d) Q := by
    intro m
    simp only [qTake, bind_apply, look_apply, ends_look, hi]
    rw [hmod]
    rfl
  have hcnt : regOf (s.setQueue q d) (rQcnt q 8) = regOf s (rQcnt q 8) := rfl
  have hclean' : ∀ v, CleanMem ((s.setQueue q d).setReg (rQcnt q 8) v) := fun _ => hclean
  have hread' : ∀ v, queueOf ((s.setQueue q d).setReg (rQcnt q 8) v) q = d := fun _ => hread
  have hwd : d.waiters = [] := hw
  simp only [qPopItem, bind_apply, look_apply, ends_look]
  rw [htake]
  simp only [bind_apply, ends_ctr64, ends_consume_clean (hclean' _), qServe, look_apply, ends_look, hread', hwd, List.forIn_nil, pure_apply, qShow,
    ends_wrReg, if_true, hcnt]
  rfl

theorem queueOf_popped (rest : List QItem) (hq : Rising s.queues) : Popped s (s.popped q rest) q rest := queueOf_setQueue_same _ q hq

theorem regsBut_popped (s : State) (q : Nat) (rest : List QItem) : RegsBut s (s.popped q rest) (popRegs q) := by
  intro off hoff
  simp only [popRegs, List.mem_cons, List.not_mem_nil, or_false, not_or] at hoff
  exact (regOf_setReg_ne _ _ _ _ hoff.2).trans (regOf_setReg_ne _ _ _ _ hoff.1)

theorem onlyChanges_popped (s : State) (q : Nat) (rest : List QItem) : OnlyChanges s (s.popped q rest) [.queues, .regs] :=
  ((onlyChanges_of_take (may := [.queues, .regs]) rfl).trans ((onlyChanges_setReg _ _ _).mono (by decide))).trans
    ((onlyChanges_setReg _ _ _).mono (by decide))

/-- What a table holds after an entry has been replaced. -/
theorem mem_tput {α : Type} [DecidableEq α] {d v : α} {t : Tbl α} {k : Nat} {e : Nat × α} (h : e ∈ tput d t k v) : e = (k, v) ∨ e ∈ t := by
  induction t with
  | nil =>
    rw [tput] at h
    split at h
    · cases h
    · exact .inl (List.mem_singleton.1 h)
  | cons x t ih =>
    rw [tput] at h
    split at h
    · split at h
      · exact .inr h
      · exact (List.mem_cons.1 h).imp id id
    · split at h
      · split at h
        · exact .inr (List.mem_cons_of_mem _ h)
        · exact (List.mem_cons.1 h).imp id (List.mem_cons_of_mem _)
      · rcases List.mem_cons.1 h with h | h
        · exact .inr (h ▸ List.mem_cons_self)
        · exact (ih h).imp id (List.mem_cons_of_mem _)

/-- What a table reads is its default, or stands in it. -/
theorem tget_mem {α : Type} (d : α) (t : Tbl α) (k : Nat) : tget d t k = d ∨ (k, tget d t k) ∈ t := by
  induction t with
  | nil => exact .inl rfl
  | cons x t ih =>
    rw [tget]
    split
    · next h => exact .inr (by rw [← h]; exact List.mem_cons_self)
    · exact ih.imp id (List.mem_cons_of_mem _)

/-- No kick is in force (R40). -/
def NoKick (s : State) : Prop := ∀ e ∈ s.queues, e.2.kicked = false

theorem NoKick.queueOf (h : NoKick s) (q : Nat) : (queueOf s q).kicked = false := by
  rcases tget_mem {} s.queues q with hd | hm
  · rw [Machine.queueOf, hd]
  · exact h _ hm

theorem NoKick.popped (h : NoKick s) (q : Nat) (rest : List QItem) : NoKick (s.popped q rest) := by
  intro e he
  rcases mem_tput (t := s.queues) he with rfl | he
  · exact h.queueOf q
  · exact h e he

/-- At the end of a packet no kick lapses where none is in force. -/
theorem ends_packetEnd_noKick {se : Nat} {k : Unit → Prog} (h : NoKick s) : Ends (packetEnd se q k) s Q = Ends (k ()) s Q := by
  have hloop : ∀ (l : Tbl Queue), (∀ e ∈ l, e.2.kicked = false) →
      Ends ((forIn l PUnit.unit fun e _ =>
        if (e.2.kicked && boundTo s se e.1 && (e.1 = q || (headPacket s e.1).isNone)) = true then do
          modQueue e.1 (fun d => { d with kicked := false }); pure (ForInStep.yield PUnit.unit)
        else pure (ForInStep.yield PUnit.unit) : Act PUnit) k) s Q = Ends (k PUnit.unit) s Q := by
    intro l hl
    induction l with
    | nil => rfl
    | cons e l ih =>
      have he := hl e List.mem_cons_self
      rw [List.forIn_cons, bind_apply, he]
      exact ih fun x hx => hl x (List.mem_cons_of_mem _ hx)
  simp only [packetEnd, bind_apply, look_apply, ends_look]
  exact hloop _ h

/-! ## A packet -/

/-- The queue has been popped down to some of its items. -/
structure PopsTo (s u : State) (q : Nat) (rest : List QItem) : Prop where
  items : (queueOf u q).items = rest
  waiters : (queueOf u q).waiters = (queueOf s q).waiters
  noKick : NoKick s → NoKick u
  rising : Rising s.queues → Rising u.queues
  risingRegs : Rising s.regs → Rising u.regs
  regs : RegsBut s u (popRegs q)
  only : OnlyChanges s u [.queues, .regs]

theorem popsTo_popped (rest : List QItem) (hq : Rising s.queues) : PopsTo s (s.popped q rest) q rest := by
  have hread : queueOf (s.popped q rest) q = _ := queueOf_popped rest hq
  exact ⟨by rw [hread], by rw [hread], fun h => h.popped q rest, fun h => tput_rising _ _ _ _ h,
    fun h => setReg_rising _ _ _ (setReg_rising _ _ _ h), regsBut_popped s q rest, onlyChanges_popped s q rest⟩

theorem PopsTo.trans {t u : State} {a b : List QItem} (h : PopsTo s t q a) (h' : PopsTo t u q b) : PopsTo s u q b :=
  ⟨h'.items, h'.waiters.trans h.waiters, h'.noKick ∘ h.noKick, h'.rising ∘ h.rising, h'.risingRegs ∘ h.risingRegs,
    fun off hoff => (h'.regs off hoff).trans (h.regs off hoff), h.only.trans h'.only⟩

theorem ends_popLoop {die : Nat} (l : List Nat) (out : List QItem) (k : List QItem → Prog) (s : State) (hlen : l.length ≤ (queueOf s q).items.length)
    (hpos : 0 < l.length) (hw : (queueOf s q).waiters = []) (hclean : CleanMem s) (hq : Rising s.queues)
    (hQ : ∀ u, PopsTo s u q ((queueOf s q).items.drop l.length) → Ends (k (out ++ (queueOf s q).items.take l.length)) u Q) :
    Ends ((forIn l out fun _ out => do
      match (← qPopItem q die) with
      | some x => pure (ForInStep.yield (out ++ [x]))
      | none => pure (ForInStep.yield out) : Act (List QItem)) k) s Q := by
  induction l generalizing s out with
  | nil => cases hpos
  | cons n l ih =>
    obtain ⟨x, rest, hi⟩ : ∃ x rest, (queueOf s q).items = x :: rest := by
      cases hi : (queueOf s q).items with
      | nil => rw [hi] at hlen; simp at hlen
      | cons x rest => exact ⟨x, rest, rfl⟩
    have hp := popsTo_popped (s := s) (q := q) rest hq
    rw [List.forIn_cons, bind_apply, bind_apply, ends_qPopItem_clean hi hw hclean hq]
    rw [hi] at hQ hlen
    simp only [List.length_cons, List.drop_succ_cons, List.take_succ_cons, Nat.add_le_add_iff_right] at hQ hlen
    cases l with
    | nil => exact hQ _ hp
    | cons m l =>
      refine ih (out ++ [x]) (s.popped q rest) (by rw [hp.items]; exact hlen) (Nat.succ_pos _) (hp.waiters.trans hw)
        (hp.only.cleanMem (by decide) hclean) (hp.rising hq) fun u hu => ?_
      rw [hp.items] at hu ⊢
      rw [List.append_assoc]
      exact hQ u (hp.trans hu)

/-- A packet's items are popped. -/
theorem ends_popPacket {die n : Nat} {k : List QItem → Prog} (hn : 0 < n) (hlen : n ≤ (queueOf s q).items.length)
    (hw : (queueOf s q).waiters = []) (hclean : CleanMem s) (hq : Rising s.queues)
    (hQ : ∀ u, PopsTo s u q ((queueOf s q).items.drop n) → Ends (k ((queueOf s q).items.take n)) u Q) :
    Ends (popPacket q die n k) s Q := by
  have hrange : (List.range n).length = n := List.length_range
  refine ends_popLoop (List.range n) [] _ s (by rwa [hrange]) (by rwa [hrange]) hw hclean hq ?_
  rw [hrange]
  exact hQ

end Sys2Proof.Machine
end

section
/-!
SUPPORT. The routing of a token, the hand-over of a send list, and O32.
-/

namespace Sys2Proof.Machine

open Sys2Proof.Claims

variable {s : State} {Q : State → Prop} {q : Nat}

/-! ## What routing changes besides its result -/

/-- Registers of a list and the loads of placements may have changed. -/
structure RouteChange (S : List Nat) (s u : State) : Prop where
  only : OnlyChanges s u [.regs, .loads]
  regs : RegsBut s u S

theorem RouteChange.refl (S : List Nat) (s : State) : RouteChange S s s := ⟨onlyChanges_of_take rfl, fun _ _ => rfl⟩

theorem RouteChange.trans {S : List Nat} {s t u : State} (h : RouteChange S s t) (h' : RouteChange S t u) : RouteChange S s u :=
  ⟨h.only.trans h'.only, fun off hoff => (h'.regs off hoff).trans (h.regs off hoff)⟩

theorem RouteChange.setReg {S : List Nat} (s : State) {off : Nat} (v : Nat) (h : off ∈ S) : RouteChange S s (s.setReg off v) :=
  ⟨(onlyChanges_setReg s off v).mono (by decide), fun _ hx => regOf_setReg_ne _ _ _ _ fun e => hx (e ▸ h)⟩

theorem RouteChange.loads (S : List Nat) (s : State) (l : List (Nat × Nat × Nat × Nat)) : RouteChange S s { s with loads := l } :=
  ⟨onlyChanges_of_take rfl, fun _ _ => rfl⟩

/-- The counters and flags that the routing of a token of a submit may change. -/
def tokenRegs (u : Submit) : List Nat :=
  [rRcnt (u.rctx / 256) (u.rctx % 256) 0, rRcnt (u.rctx / 256) (u.rctx % 256) 8, rRcnt (u.rctx / 256) (u.rctx % 256) 0x18, rPart u.part 0x108]

/-- The word that holds a counter of a context. -/
theorem rRcnt_word (se c : Nat) : rRcnt se c 0xC / 8 * 8 = rRcnt se c 8 ∧ rRcnt se c 0x18 / 8 * 8 = rRcnt se c 0x18 ∧
    rRcnt se c 0x10 / 8 * 8 = rRcnt se c 0x10 ∧ rRcnt se c 0x10 % 8 * 8 = 0 := by
  simp only [rRcnt, rSre]
  omega

theorem ends_partFlags {u : Submit} {f : Flags} {k : Unit → Prog} (hQ : ∀ v, RouteChange (tokenRegs u) s v → Ends (k ()) v Q) :
    Ends (partFlags u.part f k) s Q := by
  unfold partFlags
  rw [ends_ite_act]
  split
  · exact hQ _ (.setReg s _ (by simp [tokenRegs]))
  · exact hQ s (.refl _ s)

theorem ends_countLoad (S : List Nat) {r code : Nat} {k : Unit → Prog} (hQ : ∀ v, RouteChange S s v → Ends (k ()) v Q) :
    Ends (countLoad r code k) s Q := by
  simp only [countLoad, bind_apply, look_apply, ends_look, ends_ite_act]
  split
  · exact hQ _ (.loads S s _)
  · exact hQ _ (.loads S s _)

/-! ## The placement of one pick (R67) -/

/-- What placing a pick leaves of it. -/
structure Placed (k k' : Pick) : Prop where
  tok : k'.tok = k.tok
  rank : k'.rank = k.rank
  expert : k'.expert = k.expert
  gap : k'.gap = none ∨ k'.gap = some 1

theorem ends_placePick {u : Submit} {token : Nat} {p : Pick} {k : Pick → Prog} (hp : p.gap = none)
    (hQ : ∀ v p', RouteChange (tokenRegs u) s v → Placed p p' → Ends (k p') v Q) : Ends (placePick u token p k) s Q := by
  simp only [placePick, bind_apply, look_apply, ends_look]
  generalize (if (u.eptBad || decide (u.eptGen = 0)) = true then ([] : List (Nat × Nat)) else _) = live
  cases live with
  | nil =>
    simp only [bind_apply, ends_ctr32, pure_apply]
    refine hQ _ _ (.setReg s _ ?_) ⟨rfl, rfl, rfl, .inr rfl⟩
    rw [(rRcnt_word _ _).1]
    simp [tokenRegs]
  | cons first rest =>
    simp only [bind_apply]
    refine ends_countLoad (tokenRegs u) fun v hv => ?_
    simp only [ends_ctr64, pure_apply]
    exact hQ _ _ (hv.trans (.setReg v _ (by simp [tokenRegs]))) ⟨rfl, rfl, rfl, .inl hp⟩

/-! ## The experts of a token (R59–R61) -/

theorem length_scores (mode : Nat) (ls : List (BitVec 32)) : (scores mode ls).1.length = ls.length := by
  unfold scores
  dsimp only
  split_ifs <;> simp

/-- The experts of a route context as they compete for a token. -/
def candsOf (s : State) (u : Submit) (its : List QItem) : List Cand :=
  let ls := (List.range (rcE u.cfg)).map (logitOf u.cfg its)
  let keys := (scores (rcScore u.cfg) ls).1.zipIdx.map (fun x => if rcScore u.cfg = 2 then addF32 x.1 (biasOf s u x.2) else (x.1, 0))
  (ls.zip keys).zipIdx.map (fun x =>
    ({ e := x.2, live := !((ofF32 x.1.1).isNan || x.1.1 == (0xFF800000 : BitVec 32)), key := x.1.2.1 } : Cand))

theorem experts_candsOf (s : State) (u : Submit) (its : List QItem) : (candsOf s u its).map (·.e) = List.range (rcE u.cfg) := by
  simp only [candsOf, List.map_map]
  have h : ∀ l : List (BitVec 32 × (BitVec 32 × Flags)), l.zipIdx.map (·.2) = List.range l.length := fun l => by
    rw [List.zipIdx_map_snd, List.range_eq_range']
  refine (h _).trans ?_
  simp [length_scores]

/-- The experts that a token is routed to, without expert groups. -/
def bestOf (s : State) (u : Submit) (its : List QItem) : List Cand := (sortBy aheadOf (candsOf s u its)).take (rcK u.cfg)

theorem bestOf_experts (s : State) {u : Submit} (its : List QItem) (hk : rcK u.cfg ≤ rcE u.cfg) :
    (bestOf s u its).length = rcK u.cfg ∧ ((bestOf s u its).map (·.e)).Nodup ∧ ∀ x ∈ bestOf s u its, x.e < rcE u.cfg := by
  have hperm : ((sortBy aheadOf (candsOf s u its)).map (·.e)).Perm (List.range (rcE u.cfg)) := by
    rw [← experts_candsOf s u its]
    exact (perm_sortBy _ _).map _
  have hlen : (sortBy aheadOf (candsOf s u its)).length = rcE u.cfg := by simpa using hperm.length_eq
  refine ⟨?_, ?_, fun x hx => ?_⟩
  · rw [bestOf, List.length_take, hlen]
    omega
  · rw [bestOf, List.map_take]
    exact (hperm.nodup_iff.2 List.nodup_range).sublist (List.take_sublist _ _)
  · exact List.mem_range.1 (hperm.mem_iff.1 (List.mem_map_of_mem (List.mem_of_mem_take hx)))

/-! ## One token -/

theorem ends_placeLoop {u : Submit} {token row : Nat} {w : Nat → BitVec 32} (l : List (Cand × Nat)) (out : List Pick) (k : List Pick → Prog)
    (s : State) (hQ : ∀ v ks, RouteChange (tokenRegs u) s v → ks.map (fun k => (k.rank, k.expert)) = l.map (fun x => (x.2, x.1.e)) →
      (∀ k ∈ ks, k.tok = row ∧ (k.gap = none ∨ k.gap = some 1)) → Ends (k (out ++ ks)) v Q) :
    Ends ((forIn l out fun x out => do
      let k ← placePick u token { tok := row, rank := x.2, expert := x.1.e, weight := w x.2 }
      pure (ForInStep.yield (out ++ [k])) : Act (List Pick)) k) s Q := by
  induction l generalizing s out with
  | nil =>
    have := hQ s [] (.refl _ s) rfl (by simp)
    rwa [List.append_nil] at this
  | cons x l ih =>
    rw [List.forIn_cons, bind_apply, bind_apply]
    refine ends_placePick rfl fun v p hv hp => ?_
    refine ih (out ++ [p]) v fun v' ks hv' hks hall => ?_
    rw [List.append_assoc]
    refine hQ v' (p :: ks) (hv.trans hv') ?_ ?_
    · rw [List.map_cons, List.map_cons, hks, hp.rank, hp.expert]
    · intro y hy
      rcases List.mem_cons.1 hy with rfl | hy
      · exact ⟨hp.tok, hp.gap⟩
      · exact hall y hy

/-- The picks of a token: K of them, of different experts, ranked from 0. -/
structure TokenPicks (u : Submit) (row : Nat) (ks : List Pick) : Prop where
  length : ks.length = rcK u.cfg
  ranks : ks.map (·.rank) = List.range (rcK u.cfg)
  experts : (ks.map (·.expert)).Nodup
  each : ∀ k ∈ ks, k.tok = row ∧ k.expert < rcE u.cfg ∧ (k.gap = none ∨ k.gap = some 1)

theorem tokenPicks_of_best {u : Submit} {row : Nat} {its : List QItem} {ks : List Pick} (hk : rcK u.cfg ≤ rcE u.cfg)
    (hks : ks.map (fun k => (k.rank, k.expert)) = (bestOf s u its).zipIdx.map (fun x => (x.2, x.1.e)))
    (hall : ∀ k ∈ ks, k.tok = row ∧ (k.gap = none ∨ k.gap = some 1)) : TokenPicks u row ks := by
  obtain ⟨hlen, hnodup, hlt⟩ := bestOf_experts s its hk
  have hexperts : ks.map (·.expert) = (bestOf s u its).map (·.e) := by
    have := congrArg (List.map Prod.snd) hks
    simp only [List.map_map] at this
    refine this.trans ?_
    have hz : (bestOf s u its).zipIdx.map (·.1) = bestOf s u its := List.zipIdx_map_fst 0 _
    conv_rhs => rw [← hz, List.map_map]
    rfl
  refine ⟨?_, ?_, by rw [hexperts]; exact hnodup, fun k hk' => ?_⟩
  · have := congrArg List.length hks
    simpa [hlen] using this
  · have := congrArg (List.map Prod.fst) hks
    simp only [List.map_map] at this
    refine this.trans ?_
    rw [← hlen, List.range_eq_range']
    exact List.zipIdx_map_snd 0 _
  · obtain ⟨htok, hgap⟩ := hall k hk'
    refine ⟨htok, ?_, hgap⟩
    have hin : k.expert ∈ (bestOf s u its).map (·.e) := hexperts ▸ List.mem_map_of_mem hk'
    obtain ⟨x, hx, he⟩ := List.mem_map.1 hin
    exact he ▸ hlt x hx

/-- The gate weights of the experts that a token is routed to, in their order (R62). -/
def weightOf (s : State) (u : Submit) (its : List QItem) (n : Nat) : BitVec 32 :=
  (gateWeights u.cfg ((bestOf s u its).map fun x =>
    (scores (rcScore u.cfg) ((List.range (rcE u.cfg)).map (logitOf u.cfg its))).1.getD x.e 0)).1.getD n 0

/-- The flags of a token's gate are noted, and its picks are placed. -/
def flagAndPlace (u : Submit) (token row : Nat) (f : Flags) (w : Nat → BitVec 32) (best : List Cand) : Act (List Pick) := do
  partFlags u.part f
  let mut out : List Pick := []
  for x in best.zipIdx do
    let k ← placePick u token { tok := row, rank := x.2, expert := x.1.e, weight := w x.2 }
    out := out ++ [k]
  return out

theorem ends_flagAndPlace {s₀ : State} {u : Submit} {token row : Nat} {f : Flags} {w : Nat → BitVec 32} {its : List QItem}
    {k : List Pick → Prog} (hk : rcK u.cfg ≤ rcE u.cfg)
    (hQ : ∀ v ks, RouteChange (tokenRegs u) s v → TokenPicks u row ks → Ends (k ks) v Q) :
    Ends (flagAndPlace u token row f w (bestOf s₀ u its) k) s Q := by
  refine ends_partFlags fun v hv => ?_
  refine ends_placeLoop _ [] k v fun v' ks hv' hks hall => ?_
  exact hQ v' ks (hv.trans hv') (tokenPicks_of_best hk hks hall)

theorem ends_routeToken {u : Submit} {token row : Nat} {its : List QItem} {k : List Pick → Prog} (hng : rcNgroup u.cfg < 2)
    (hk : rcK u.cfg ≤ rcE u.cfg) (hQ : ∀ v ks, RouteChange (tokenRegs u) s v → TokenPicks u row ks → Ends (k ks) v Q) :
    Ends (routeToken u token row its k) s Q := by
  have hkept : ∀ l, (keptBy u.cfg l).1 = l := fun l => by rw [keptBy, if_pos hng]
  have hword := (rRcnt_word (u.rctx / 256) (u.rctx % 256)).2.1
  simp only [routeToken, bind_apply, look_apply, ends_look, hkept, ends_ite_act, ends_ctr32, hword]
  split
  · refine ends_flagAndPlace (s₀ := s) (its := its) (w := weightOf s u its) hk fun v ks hv hks => hQ v ks (.trans (.setReg s _ ?_) hv) hks
    simp [tokenRegs]
  · exact ends_flagAndPlace (s₀ := s) (its := its) (w := weightOf s u its) hk hQ

/-! ## A packet for a submit (R56, R190) -/

/-- What becomes of a packet that a submit reads. -/
def takeToken (se : Nat) (u : Submit) (its : List QItem) : Act Unit := do
  let hd := its.headD { data := 0, last := true, gap := true }
  let row ← packetRow hd
  let picks ← if its.any (·.gap) || its.length ≠ 1 + logitItems u.cfg then do
      ctr32 (rRcnt se (u.rctx % 256) 0x10)
      pure ((List.range (rcK u.cfg)).map (fun k => ({ tok := row, rank := k, expert := 0, weight := 0, gap := some 2 } : Pick)))
    else routeToken u (ibits hd.data 0 32) row (its.drop 1)
  modSubmit u (fun u => { u with picks := u.picks ++ picks, taken := u.taken + 1, phase := if u.taken + 1 = u.ntok then .built else .reading })

/-- The arbiter takes a queue that no other goes ahead of. -/
theorem mayTake_of_sreReads {se : Nat} (h : SreReads s se q) : mayTake s se q = true := by
  obtain ⟨hbound, hothers, -⟩ := h
  have hnone : s.queues.any (fun e => e.1 != q && sreAhead s e.1 q && sreReady s se e.1) = false := by
    refine List.any_eq_false.2 fun e he hcond => ?_
    simp only [Bool.and_eq_true, bne_iff_ne, ne_eq] at hcond
    obtain ⟨⟨hne, hahead⟩, hready⟩ := hcond
    have hb : boundTo s se e.1 = true := by
      simp only [sreReady, Bool.and_eq_true] at hready
      exact hready.1.1.1
    rcases (hothers e he).2 hb with h | h
    · exact hne h
    · rw [h] at hahead
      cases hahead
  rw [mayTake, hbound, hnone]
  rfl

/-- The submit that reads from a queue takes the one packet that the queue holds. -/
theorem ends_logitPacket_whole {se : Nat} {u : Submit} {its : List QItem} {k : Unit → Prog} (h : SreReads s se q) (hsub : s.submits = [u])
    (hphase : u.phase = .reading) (hin : rcInQ u.cfg = q) (hlayer : layerReady s u = true) (hstale : eptStale s se u.part = false)
    (hhead : headPacket s q = some its) (hits : (queueOf s q).items = its) (hplain : ∀ x ∈ its, x.sub = false)
    (hQ : ∀ v, PopsTo s v q [] → Ends (takeToken se u its k) v Q) : Ends (logitPacket se q k) s Q := by
  have hmay := mayTake_of_sreReads h
  obtain ⟨-, hothers, htd, hjob, hw, hclean, hc⟩ := h
  have hnosub : its.any (·.sub) = false := List.any_eq_false.2 fun x hx => by simp [hplain x hx]
  have hread : readingOn s q = some u := by simp [readingOn, hsub, hphase, hin]
  have hpos : 0 < its.length := by
    rw [List.length_pos_iff]
    rintro rfl
    simp [headPacket, hits] at hhead
  have hkick : NoKick s := fun e he => (hothers e he).1
  simp only [logitPacket, bind_apply, look_apply, ends_look, hhead, hmay, hnosub, htd, hjob, hread, hlayer, hstale, Bool.not_true,
    Bool.or_self, ne_eq, not_true_eq_false, decide_false, Bool.false_eq_true, if_false]
  refine ends_popPacket hpos (by rw [hits]) hw hclean hc.risingQueues fun v hv => ?_
  rw [hits, List.drop_length] at hv
  rw [hits, List.take_length]
  simp only [ends_packetEnd_noKick (hv.noKick hkick)]
  exact hQ v hv

/-- The only submit of the state takes what was made of its packet. -/
theorem ends_modSubmit_only {u : Submit} {f : Submit → Submit} {k : Unit → Prog} (h : s.submits = [u]) :
    Ends (modSubmit u f k) s Q = Ends (k ()) { s with submits := [f u] } Q := by
  rw [modSubmit, ends_modSubmits, h]
  simp [sameSubmit]

/-- A submit with one more token routed. -/
abbrev oneMore (u : Submit) (ks : List Pick) : Submit :=
  { u with picks := u.picks ++ ks, taken := u.taken + 1, phase := if u.taken + 1 = u.ntok then .built else .reading }

/-- The picks of a token whose packet cannot be read (R56). -/
def missingPicks (u : Submit) (row : Nat) : List Pick :=
  (List.range (rcK u.cfg)).map (fun k => { tok := row, rank := k, expert := 0, weight := 0, gap := some 2 })

theorem ends_takeToken_bad {se row : Nat} {u : Submit} {its : List QItem} {k : Unit → Prog} {t : State}
    (ht : t.submits = [u]) (hbad : (its.any (·.gap) || its.length ≠ 1 + logitItems u.cfg) = true)
    (hrow : ∀ (P : State → Prop) (m : Nat → Prog),
      Ends (packetRow (its.headD { data := 0, last := true, gap := true }) m) s P = Ends (m row) t P) :
    Ends (takeToken se u its k) s Q =
      Ends (k ()) { t.setField (rRcnt se (u.rctx % 256) 0x10) 0 32 (min 0xFFFFFFFF (fieldOf t (rRcnt se (u.rctx % 256) 0x10) 0 32 + 1)) with
        submits := [oneMore u (missingPicks u row)] } Q := by
  obtain ⟨-, -, hword, hbit⟩ := rRcnt_word se (u.rctx % 256)
  simp only [takeToken, bind_apply]
  rw [hrow]
  simp only [if_pos hbad, bind_apply, ends_ctr32, hword, hbit, pure_apply]
  rw [ends_modSubmit_only (by exact ht)]
  rfl

/-! ## The clauses of O32 -/

/-- A counter of a route context is no register that a pop changes. -/
theorem rRcnt_not_popRegs (se c off : Nat) (q : Fin 4096) : rRcnt se c off ∉ popRegs q := by
  simp only [popRegs, rRcnt, rSre, rQcnt, List.mem_cons, List.not_mem_nil, or_false]
  omega

theorem PopsTo.count {v : State} {q : Fin 4096} {rest : List QItem} (h : PopsTo s v q rest) (se c off : Nat) :
    fieldOf v (rRcnt se c off) 0 32 = fieldOf s (rRcnt se c off) 0 32 := by
  rw [fieldOf, h.regs _ (rRcnt_not_popRegs se c off q), fieldOf]

theorem regsBut_trans {t u : State} {S T : List Nat} (h : RegsBut s t S) (h' : RegsBut t u T) {L : List Nat} (hS : S ⊆ L) (hT : T ⊆ L) :
    RegsBut s u L := fun off hoff => (h' off fun hm => hoff (hT hm)).trans (h off fun hm => hoff (hS hm))

theorem sreLogitPacket_holds (s : State) (se : Fin 4) (q : Fin 4096) (u : Submit) : (sreLogitPacket s se q u).Holds := by
  rintro ⟨hreads, hsub, hphase, hin, hse, hlayer, hstale, hhead, hlen, hplain, hng, hk⟩
  refine answers_of_ends (logitPacket se q) rfl ?_
  refine ends_logitPacket_whole hreads hsub hphase hin hlayer hstale hhead rfl (fun x hx => (hplain x hx).2) fun v hv => ?_
  set its := (queueOf s q).items with hits
  have hgap : its.any (·.gap) = false := List.any_eq_false.2 fun x hx => by simp [(hplain x hx).1]
  have hgood : ¬ (its.any (·.gap) || its.length ≠ 1 + logitItems u.cfg) = true := by simp [hgap, hlen]
  have hhd : (its.headD { data := 0, last := true, gap := true }).gap = false := by
    cases hl : its with
    | nil => rw [hl, List.length_nil] at hlen; omega
    | cons x rest => exact (hplain x (hl ▸ List.mem_cons_self)).1
  simp only [takeToken, bind_apply, packetRow, hhd, Bool.false_eq_true, if_false, pure_apply, if_neg hgood]
  refine ends_routeToken hng hk fun w ks hw hks => ?_
  have hwsub : w.submits = [u] := (hw.only .submits (by decide)).trans ((hv.only .submits (by decide)).trans hsub)
  rw [ends_modSubmit_only hwsub, ends_done]
  have hdrop : (u.picks ++ ks).drop u.picks.length = ks := List.drop_left
  have hqueue : (queueOf w q).items = [] := by rw [hw.only.queueOf (by decide), hv.items]
  simp only [List.headD_cons, hdrop]
  refine ⟨hqueue, trivial, hks.length, hks.ranks, hks.experts, hks.each, ?_, ?_⟩
  · refine regsBut_trans hv.regs hw.regs (List.subset_append_left _ _) ?_
    rw [tokenRegs, hse]
    exact List.subset_append_right _ _
  · exact ((hv.only.mono (by decide)).trans (hw.only.mono (by decide))).trans (onlyChanges_of_take rfl)

theorem sreLogitBad_holds (s : State) (se : Fin 4) (q : Fin 4096) (u : Submit) : (sreLogitBad s se q u).Holds := by
  rintro ⟨hreads, hsub, hphase, hin, hse, hlayer, hstale, hhead, hlen, hplain⟩
  have hc : Canon s := by obtain ⟨-, -, -, -, -, -, hc⟩ := hreads; exact hc
  refine answers_of_ends (logitPacket se q) rfl ?_
  refine ends_logitPacket_whole hreads hsub hphase hin hlayer hstale hhead rfl (fun x hx => (hplain x hx).2) fun v hv => ?_
  set its := (queueOf s q).items with hits
  have hbad : (its.any (·.gap) || its.length ≠ 1 + logitItems u.cfg) = true := by simp [hlen]
  have hhd : (its.headD { data := 0, last := true, gap := true }).gap = false := by
    cases hl : its with
    | nil => simp [headPacket, ← hits, hl] at hhead
    | cons x rest => exact (hplain x (hl ▸ List.mem_cons_self)).1
  have hvsub : v.submits = [u] := (hv.only .submits (by decide)).trans hsub
  have hrow : ∀ (P : State → Prop) (m : Nat → Prog), Ends (packetRow (its.headD { data := 0, last := true, gap := true }) m) v P =
      Ends (m (ibits (its.headD { data := 0, last := true, gap := true }).data 32 24)) v P := fun P m => by
    rw [packetRow, hhd]
    rfl
  rw [ends_takeToken_bad hvsub hbad hrow, ends_done, hv.count]
  refine ⟨hv.items, rfl, ?_, ?_, ?_⟩
  · exact (fieldOf_setField_same v _ _ _ _ (hv.risingRegs hc.rising) (by decide)).trans (Nat.mod_eq_of_lt (by omega))
  · exact regsBut_trans hv.regs (T := [rRcnt se (u.rctx % 256) 0x10]) (fun off hoff => regOf_setReg_ne _ _ _ _ (by simpa using hoff))
      (List.subset_cons_self _ _) (by simp)
  · exact ((hv.only.mono (by decide)).trans ((onlyChanges_setReg v _ _).mono (by decide))).trans (onlyChanges_of_take rfl)

theorem sreLogitNoHeader_holds (s : State) (se : Fin 4) (q : Fin 4096) (u : Submit) (x : QItem) : (sreLogitNoHeader s se q u x).Holds := by
  rintro ⟨hreads, hsub, hphase, hin, hse, hlayer, hstale, hits, hlast, hgap, hxsub⟩
  have hc : Canon s := by obtain ⟨-, -, -, -, -, -, hc⟩ := hreads; exact hc
  have hhead : headPacket s q = some [x] := by simp [headPacket, hits, hlast]
  refine answers_of_ends (logitPacket se q) rfl ?_
  refine ends_logitPacket_whole hreads hsub hphase hin hlayer hstale hhead hits (by simpa using hxsub) fun v hv => ?_
  have hbad : ([x].any (·.gap) || [x].length ≠ 1 + logitItems u.cfg) = true := by simp [hgap]
  have hhd : (([x] : List QItem).headD { data := 0, last := true, gap := true }).gap = true := hgap
  have hvsub : v.submits = [u] := (hv.only .submits (by decide)).trans hsub
  set t : State := { v with freeIdx := v.freeIdx + 1 } with ht
  have hrow : ∀ (P : State → Prop) (m : Nat → Prog), Ends (packetRow (([x] : List QItem).headD { data := 0, last := true, gap := true }) m)
      v P = Ends (m ((Config.freeWord v.freeIdx).toNat % 2 ^ 24)) t P := fun P m => by
    rw [packetRow, hhd]
    rfl
  have htcount : ∀ off lo len, fieldOf t off lo len = fieldOf v off lo len := fun _ _ _ => rfl
  rw [ends_takeToken_bad (t := t) hvsub hbad hrow, ends_done, htcount, hv.count]
  have hidx : v.freeIdx = s.freeIdx := hv.only .freeIdx (by decide)
  refine ⟨hv.items, congrArg (· + 1) hidx, ⟨_, Nat.mod_lt _ (Nat.two_pow_pos _), rfl⟩, ?_, ?_, ?_⟩
  · exact (fieldOf_setField_same t _ _ _ _ (hv.risingRegs hc.rising) (by decide)).trans (Nat.mod_eq_of_lt (by omega))
  · exact regsBut_trans hv.regs (T := [rRcnt se (u.rctx % 256) 0x10]) (fun off hoff => regOf_setReg_ne t _ _ _ (by simpa using hoff))
      (List.subset_cons_self _ _) (by simp)
  · have hdraw : OnlyChanges v t [.freeIdx] := onlyChanges_of_take rfl
    exact (((hv.only.mono (by decide)).trans (hdraw.mono (by decide))).trans ((onlyChanges_setReg t _ _).mono (by decide))).trans
      (onlyChanges_of_take rfl)

/-! ### SEND_LIST_HANDOFF (R53, R54, R70) -/

theorem setBits_self (n lo len : Nat) : setBits n lo len (bitsOf n lo len) = n := by
  have hle : (bitsOf n lo len) <<< lo ≤ n := by
    rw [bitsOf, Nat.shiftLeft_eq, Nat.shiftRight_eq_div_pow]
    exact (Nat.mul_le_mul_right _ (Nat.mod_le _ _)).trans (Nat.div_mul_le_self _ _)
  rw [setBits, Nat.mod_eq_of_lt (bitsOf_lt n lo len)]
  omega

/-- A count of nothing leaves every register as it was. -/
theorem regOf_count_zero (s : State) (off lo : Nat) (hr : Rising s.regs) (x : Nat) :
    regOf (s.setField off lo 32 (min 0xFFFFFFFF (fieldOf s off lo 32 + 0))) x = regOf s x := by
  by_cases hx : x = off
  · have hlt : fieldOf s off lo 32 < 2 ^ 32 := bitsOf_lt _ _ _
    subst hx
    rw [State.setField, regOf_setReg_same _ _ _ hr, Nat.add_zero, Nat.min_eq_right (by omega), fieldOf, setBits_self, BitVec.ofNat_toNat,
      BitVec.setWidth_eq]
  · exact regOf_setReg_ne _ _ _ _ hx

/-- A count of nothing is no change. -/
theorem ends_ctr32_zero {off : Nat} {k : Unit → Prog} (hr : Rising s.regs)
    (hQ : ∀ u, OnlyChanges s u [] → Rising u.regs → Ends (k ()) u Q) : Ends (ctr32 off 0 k) s Q := by
  rw [ends_ctr32]
  refine hQ _ (fun x hx => ?_) (setField_rising _ _ _ _ _ hr)
  cases x with
  | regs => exact regOf_count_zero s _ _ hr
  | _ => exact onlyChanges_setReg s _ _ _ (by decide)

theorem foldl_windows_one (ps : List Pick) (h : ∀ k ∈ ps, k.win = 0) :
    ps.foldl (fun a k => if k.gap.isNone then max a (k.win + 1) else a) 1 = 1 := by
  induction ps with
  | nil => rfl
  | cons k ps ih =>
    have hk := h k List.mem_cons_self
    rw [List.foldl_cons, hk]
    simpa using ih fun x hx => h x (List.mem_cons_of_mem _ hx)

theorem sendListHandoff_holds (s : State) (p : Fin 64) (setId : BitVec 8) (tag : BitVec 32) (u : Submit) :
    (sendListHandoff s p setId tag u).Holds := by
  rintro ⟨hsub, hp, ht, hset, hbuilt, hctx, hpend, htd, hps, hc⟩
  have hsubs : (setSubmits s p setId.toNat tag.toNat).filter (·.phase == .built) = [u] := by
    simp [setSubmits_only hsub hp ht hset, hbuilt]
  have hcond : (!(setContexts s p setId.toNat).all (fun r => [u].any (fun u => u.rctx == r)) ||
      8 ≤ pendingLaunches s (rcGroup u.cfg) || (partOf s p).td ≠ .none) = false := by
    simp [hctx, htd, hpend]
  set ps := sortByKey (admitPicks u.cfg u.picks) with hpsdef
  have hdrops : ps.filter (fun k => k.gap == some 0) = [] := by
    refine List.filter_eq_nil_iff.2 fun k hk => ?_
    simpa using (hps k hk).1
  have hwins : ps.foldl (fun a k => if k.gap.isNone then max a (k.win + 1) else a) 1 = 1 := foldl_windows_one ps fun k hk => (hps k hk).2
  refine answers_of_ends (handOff p setId.toNat tag.toNat) rfl ?_
  simp only [handOff, bind_apply, look_apply, ends_look, hsubs, hcond, Bool.false_eq_true, if_false, List.forIn_cons, List.forIn_nil, ← hpsdef,
    hdrops, List.length_nil, List.isEmpty_nil, if_true, hwins, Nat.sub_self, pure_apply]
  refine ends_ctr32_zero hc.rising fun v hv hrv => ends_ctr32_zero hrv fun w hw _ => ?_
  have honly := hv.trans hw
  have hwsub : w.submits = [u] := (honly .submits (by decide)).trans hsub
  have hwthreads : w.threads = s.threads := (honly .threads (by decide)).1
  rw [ends_modSubmit_only hwsub, slotDone, ends_modThread, ends_done]
  have hrising : Rising w.threads := hwthreads ▸ hc.risingThreads
  have hread : ∀ l : List Submit, threadOf { w with submits := l } u.thread = threadOf s u.thread := fun l => honly.threadOf (by decide) _
  refine ⟨rfl, ?_, fun k hk => ?_, ?_⟩
  · refine (threadOf_setThread_same (s := { w with submits := _ }) _ _ hrising).trans ?_
    rw [hread]
  · exact (threadOf_setThread_ne (s := { w with submits := _ }) _ hk).trans (honly.threadOf (by decide) _)
  · exact (honly.mono (by decide)).trans (onlyChanges_of_take rfl)

/-- Settles O32: one token at a time, one pick at a time, one destination at a time. -/
theorem routingAndAdmission : Obligations.RoutingAndAdmission := by
  unfold Obligations.RoutingAndAdmission
  intro s se q u c ps dest p setId tag x k j a b
  exact ⟨sreLogitPacket_holds s se q u, sreLogitBad_holds s se q u, sreLogitNoHeader_holds s se q u x, sendOrder_holds ps,
    sendGapsLast_holds ps k j a b, admission_holds c ps dest, admissionElastic_holds c ps dest, sendListHandoff_holds s p setId tag u⟩

end Sys2Proof.Machine
end

section
/-!
SUPPORT. Commands of a thread that issue with nothing set in their header (R172).
-/

namespace Sys2Proof.Machine

open Sys2Proof.Claims

variable {s : State} {Q : State → Prop} {th : Thr} {w : Cmd} {i : Iss}

/-! ## Tables -/

/-- Of two writes under one key the later stands. -/
theorem tput_tput_same {α : Type} [DecidableEq α] (d : α) (t : Tbl α) (k : Nat) (a b : α) (h : Rising t) :
    tput d (tput d t k a) k b = tput d t k b := by
  induction t with
  | nil => by_cases ha : a = d <;> simp [tput, ha]
  | cons e t ih =>
    obtain ⟨k', v'⟩ := e
    obtain ⟨hlt, hrest⟩ := List.pairwise_cons.1 h
    rcases Nat.lt_trichotomy k k' with hk | rfl | hk
    · by_cases ha : a = d <;> simp [tput, ha, hk]
    · by_cases ha : a = d
      · cases t with
        | nil => simp [tput, ha]
        | cons e' t' => simp [tput, ha, hlt e' (by simp)]
      · simp [tput, ha]
    · simp [tput, Nat.not_lt.2 hk.le, hk.ne', ih hrest]

theorem setThread_setThread (k : Nat) (a b : Thread) (h : Rising s.threads) : (s.setThread k a).setThread k b = s.setThread k b := by
  have htab := tput_tput_same {} s.threads k a b h
  simp only [State.setThread, Effect.apply, htab]

theorem rising_setThread (k : Nat) (a : Thread) (h : Rising s.threads) : Rising (s.setThread k a).threads := tput_rising _ _ _ _ h

/-! ## Issue and header (R167, R172) -/

/-- A command that issues is its thread's, in the context that runs, and holds nothing that it read before. -/
theorem canIssue_iss (h : canIssue s th w = some i) : ∃ ctx, i = { p := th.part, ctx, core := th.core, tc := th.tc, w } := by
  simp only [canIssue, canRun] at h
  split at h
  · cases h
  · rename_i j hj
    split at h
    · cases h
    · cases h
      split at hj
      · cases hj
      · split at hj
        · cases hj
          exact ⟨_, rfl⟩
        · cases hj

theorem canIssue_word (h : canIssue s th w = some i) : i.w = w := by
  obtain ⟨ctx, rfl⟩ := canIssue_iss h
  rfl

theorem canIssue_held (h : canIssue s th w = some i) : i.held = none := by
  obtain ⟨ctx, rfl⟩ := canIssue_iss h
  rfl

theorem ends_issue (h : canIssue s th w = some i) (k : Option Iss → Prog) : Ends (issue th w k) s Q = Ends (k (some i)) (s.issued i) Q := by
  simp only [issue, bind_apply, look_apply, ends_look, h, eff_apply, ends_eff, pure_apply]
  rfl

/-- The header of a command that sets nothing in it does nothing. -/
theorem ends_header_plain (hwait : hWait i.w = false) (hpred : hPredEn i.w = false) (k : Bool → Prog) :
    Ends (header i k) s Q = Ends (k true) s Q := by
  simp only [header, bind_apply, look_apply, ends_look, hwait, hpred, Bool.false_and, Bool.false_eq_true, if_false, pure_apply]

/-- A name that holds and asks for nothing gives nothing back. -/
theorem ends_dropGrant_none {who : Holder} (h : NoGrant s who) (k : Unit → Prog) : Ends (dropGrant who k) s Q = Ends (k ()) s Q := by
  have hheld : s.pw.held.any (fun g => g.who == who) = false := List.any_eq_false.2 fun g hg => by simpa using h.1 g hg
  have hask : s.pw.waiting.any (fun g => g.who == who) = false := List.any_eq_false.2 fun g hg => by simpa using h.2 g hg
  simp only [dropGrant, bind_apply, look_apply, ends_look, hheld, hask, Bool.or_self, Bool.false_eq_true, if_false, pure_apply]

theorem ends_endCmd_plain (hsig : hSig i.w = false) (target : Option Nat) (k : Unit → Prog) :
    Ends (endCmd i target k) s Q = Ends (k ()) (s.setThread i.key (moveOn target (threadOf s i.key))) Q := by
  simp only [endCmd, bind_apply, ends_modThread, hsig, Bool.false_eq_true, if_false, pure_apply]

theorem ends_startWait (why : Wait) (k : Unit → Prog) : Ends (startWait i why k) s Q = Ends (k ()) (s.setThread i.key
    { threadOf s i.key with st := .waiting, wait := why, cur := some i.w, since := s.time.now }) Q := rfl

/-- What a synchronous command does once its body has answered. -/
def syncEnd (i : Iss) : SyncEnd → Act Unit
  | .done => do dropGrant (.sync i.key); endCmd i none
  | .switch => do dropGrant (.sync i.key); endSwitch i none
  | .jump a => do dropGrant (.sync i.key); endCmd i (some a)
  | .fault c => do dropGrant (.sync i.key); threadFault i c
  | .wait why => startWait i why
  | .waiting => pure ()

/-- A synchronous command that sets nothing in its header is its body, in the state in which it has issued. -/
theorem ends_syncCmd_plain {body : Iss → Act SyncEnd} {k : Unit → Prog} (h : Plain s th w i) :
    Ends (syncCmd th w body k) s Q = Ends (body i fun e => syncEnd i e k) (s.issued i) Q := by
  obtain ⟨hissue, hwait, hpred, -, hleave, -⟩ := h
  have hw := canIssue_word hissue
  simp only [syncCmd, bind_apply, ends_issue hissue, ends_header_plain (hw ▸ hwait) (hw ▸ hpred), Bool.not_true, Bool.false_eq_true, if_false,
    look_apply, ends_look, hleave, Bool.false_and]
  congr 2

/-- A body that changed its thread only, and switches: the thread has moved on and waits to be woken (R168). -/
theorem ends_switch_plain {f : Thread → Thread} {t : State} {k : Unit → Prog} (h : Plain s th w i) (hpw : t.pw = s.pw)
    (hth : threadOf t i.key = f (threadOf s i.key)) (hrt : Rising t.threads) :
    Ends (syncEnd i .switch k) t Q =
      Ends (k ()) (t.setThread i.key { moveOn none (f (threadOf s i.key)) with st := .waiting, wait := .met }) Q := by
  obtain ⟨hissue, -, -, hsig, -, hgrant⟩ := h
  have hgrant' : NoGrant t (.sync i.key) := by rwa [NoGrant, hpw]
  have hread : threadOf (t.setThread i.key (moveOn none (threadOf t i.key))) i.key = moveOn none (f (threadOf s i.key)) := by
    rw [threadOf_setThread_same _ _ hrt, hth]
  simp only [syncEnd, bind_apply, ends_dropGrant_none hgrant', endSwitch, ends_endCmd_plain (canIssue_word hissue ▸ hsig), ends_modThread,
    hread, setThread_setThread _ _ _ hrt]

end Sys2Proof.Machine
end

section
/-!
SUPPORT. A row of FP32 codes in core scratch, element by element.
-/

namespace Sys2Proof.Machine

open Sys2Proof.Claims

variable {s : State} {Q : State → Prop}

/-! ## Loops with an invariant -/

/-- A loop over the numbers from `i` on keeps an invariant that says how far it has come. -/
theorem ends_forIn_range' {β : Type} {f : Nat → β → Act (ForInStep β)} (I : Nat → State → β → Prop) (m : Nat) {k : β → Prog} :
    ∀ (i : Nat) (b : β) (s : State),
    (∀ j, i ≤ j → j < i + m → ∀ t r, I j t r → ∀ (n : ForInStep β → Prog), (∀ u r', I (j + 1) u r' → Ends (n (.yield r')) u Q) → Ends (f j r n) t Q) →
    I i s b → (∀ t r, I (i + m) t r → Ends (k r) t Q) → Ends ((forIn (List.range' i m) b f : Act β) k) s Q := by
  induction m with
  | zero => exact fun i b s _ h hQ => hQ s b h
  | succ m ih =>
    intro i b s hstep h hQ
    rw [List.range'_succ, List.forIn_cons, bind_apply]
    refine hstep i le_rfl (by omega) s b h _ fun u r' hu => ?_
    refine ih (i + 1) r' u (fun j hj hlt => hstep j (by omega) (by omega)) hu fun t r ht => hQ t r ?_
    rwa [show i + (m + 1) = i + 1 + m by omega]

/-- The loop over the first `n` numbers. -/
theorem ends_forIn_range {β : Type} {f : Nat → β → Act (ForInStep β)} (I : Nat → State → β → Prop) {n : Nat} {b : β} {k : β → Prog}
    (hstep : ∀ j, j < n → ∀ t r, I j t r → ∀ (m : ForInStep β → Prog), (∀ u r', I (j + 1) u r' → Ends (m (.yield r')) u Q) → Ends (f j r m) t Q)
    (h : I 0 s b) (hQ : ∀ t r, I n t r → Ends (k r) t Q) : Ends ((forIn (List.range n) b f : Act β) k) s Q := by
  rw [List.range_eq_range']
  exact ends_forIn_range' I n 0 b s (fun j _ hlt => hstep j (by omega)) h fun t r ht => hQ t r (by rwa [Nat.zero_add] at ht)

/-! ## Where a row lies (R145, R200) -/

theorem tierOf_scratch {a : Nat} : tierOf a = .scratch ↔ a / 2 ^ 32 = 0x0D00 := by
  unfold tierOf
  constructor
  · intro h
    split_ifs at h
    assumption
  · intro h
    have ht3 : ¬ (4 * 2 ^ 40 ≤ a && a < 12 * 2 ^ 40) = true := by simp only [Bool.and_eq_true, decide_eq_true_eq]; omega
    rw [if_neg (by omega), if_neg (by omega), if_neg ht3, if_neg (by omega), if_pos h]

/-- Row `i` of an FP32 matrix in core scratch, which ends within the 2 MiB of its core. -/
structure RowInScratch (o : Mdesc) (i : Nat) : Prop where
  fmt : o.fmt = 0
  tier : tierOf o.base = .scratch
  fits : o.base % 0x200000 + i * o.stride + o.rowBytes ≤ 0x200000

theorem RowInScratch.rowBytes {o : Mdesc} {i : Nat} (h : RowInScratch o i) : o.rowBytes = 4 * o.cols := by
  have hbits : fmtBits o.fmt = 32 := by rw [h.fmt]; rfl
  rw [Mdesc.rowBytes, hbits]
  omega

section
variable {o : Mdesc} {i j : Nat} (h : RowInScratch o i) (hj : j < o.cols)
include h hj

theorem RowInScratch.row_eq : wrapAddr o.base (i * o.stride) = o.base + i * o.stride := by
  have hfits := h.fits
  rw [h.rowBytes] at hfits
  rw [wrapAddr, if_pos h.tier]
  simp only
  omega

theorem RowInScratch.elemAddr_eq : o.elemAddr i j = wrapAddr o.base (i * o.stride) + 4 * j := by
  have hfits := h.fits
  have hbits : fmtBits o.fmt = 32 := by rw [h.fmt]; rfl
  rw [h.rowBytes] at hfits
  rw [h.row_eq hj, Mdesc.elemAddr, hbits, wrapAddr, if_pos h.tier]
  simp only
  omega

theorem RowInScratch.wrap_byte {n : Nat} (hn : n < 4) :
    wrapAddr (wrapAddr o.base (i * o.stride) + 4 * j) n = wrapAddr o.base (i * o.stride) + 4 * j + n := by
  have hfits := h.fits
  have htier := tierOf_scratch.1 h.tier
  rw [h.rowBytes] at hfits
  rw [h.row_eq hj, wrapAddr, if_pos (tierOf_scratch.2 (by omega))]
  simp only
  omega

/-- No byte of a row in core scratch lies below it. -/
theorem RowInScratch.above : 0x0D0000000000 ≤ wrapAddr o.base (i * o.stride) := by
  have htier := tierOf_scratch.1 h.tier
  rw [h.row_eq hj]
  omega

end

/-! ## Reading and writing an element -/

theorem leNat_append_one (l : List Byte) (x : Byte) : leNat (l ++ [x]) = leNat l + x.toNat <<< (8 * l.length) := by
  induction l with
  | nil => simp [leNat]
  | cons y l ih =>
    have hpow : 2 ^ (8 * (l.length + 1)) = 256 * 2 ^ (8 * l.length) := by rw [Nat.mul_succ, pow_add]; omega
    rw [List.cons_append, leNat, ih, leNat, List.length_cons, Nat.shiftLeft_eq, Nat.shiftLeft_eq, hpow]
    ring

/-- Bytes put together with shifts. -/
theorem foldl_bytes (b : Nat → Byte) (n : Nat) : (List.range n).foldl (fun acc k => acc + (b k).toNat <<< (8 * k)) 0 =
    leNat ((List.range n).map b) := by
  induction n with
  | zero => rfl
  | succ n ih =>
    rw [List.range_succ, List.foldl_append, ih, List.map_append, List.map_cons, List.map_nil, leNat_append_one, List.length_map,
      List.length_range]
    rfl

theorem leNat_four_lt (b : Nat → Byte) : leNat ((List.range 4).map b) < 2 ^ 32 := by
  have hb : ∀ k, (b k).toNat < 256 := fun k => (b k).isLt
  have h0 := hb 0
  have h1 := hb 1
  have h2 := hb 2
  have h3 := hb 3
  simp only [List.range_succ, List.range_zero, List.nil_append, List.cons_append, List.map_cons, List.map_nil, leNat]
  omega

theorem leNat_natBytes_four {v : Nat} (h : v < 2 ^ 32) : leNat (natBytes 4 v) = v := by
  simp only [natBytes, List.range_succ, List.range_zero, List.nil_append, List.cons_append, List.map_cons, List.map_nil, leNat,
    BitVec.toNat_ofNat, Nat.shiftRight_eq_div_pow]
  omega

/-- The bytes that an element's address names. -/
theorem RowInScratch.bytes {o : Mdesc} {i j : Nat} (h : RowInScratch o i) (hj : j < o.cols) (s : State) :
    (List.range 4).foldl (fun acc k => acc + (memAt s (wrapAddr (wrapAddr o.base (i * o.stride) + 4 * j) k)).toNat <<< (8 * k)) 0 =
      memNat s (wrapAddr o.base (i * o.stride) + 4 * j) 4 := by
  rw [foldl_bytes, memNat, memBytes]
  congr 1
  refine List.map_congr_left fun n hn => ?_
  rw [h.wrap_byte hj (List.mem_range.1 hn)]

theorem RowInScratch.readCode_eq {o : Mdesc} {i j : Nat} (h : RowInScratch o i) (hj : j < o.cols) (s : State) :
    readCode s o i j = memNat s (wrapAddr o.base (i * o.stride) + 4 * j) 4 := by
  have hbits : fmtBits o.fmt = 32 := by rw [h.fmt]; rfl
  have hlo : j * 32 % 8 = 0 := by omega
  simp only [readCode, hbits, hlo, show (0 + 32 + 7) / 8 = 4 by decide, h.elemAddr_eq hj, h.bytes hj]
  have hlt : memNat s (wrapAddr o.base (i * o.stride) + 4 * j) 4 < 2 ^ 32 := leNat_four_lt _
  rw [bitsOf, Nat.shiftRight_zero, Nat.mod_eq_of_lt hlt]

/-- An element of the row is written: its four bytes, and no more. -/
theorem RowInScratch.ends_writeCode {o : Mdesc} {i j : Nat} (h : RowInScratch o i) (hj : j < o.cols) {code : Nat} (hcode : code < 2 ^ 32)
    (hdir : s.fab.dir = []) (k : Unit → Prog) :
    Ends (writeCode o i j code k) s Q = Ends (k ()) (s.putMem (wrapAddr o.base (i * o.stride) + 4 * j) (natBytes 4 code)) Q := by
  have hbits : fmtBits o.fmt = 32 := by rw [h.fmt]; rfl
  have hlo : j * 32 % 8 = 0 := by omega
  have hlt : memNat s (wrapAddr o.base (i * o.stride) + 4 * j) 4 < 2 ^ 32 := leNat_four_lt _
  have hset : setBits (memNat s (wrapAddr o.base (i * o.stride) + 4 * j) 4) 0 32 code = code := by
    rw [setBits, bitsOf, Nat.shiftRight_zero, Nat.shiftLeft_zero, Nat.shiftLeft_zero, Nat.mod_eq_of_lt hlt, Nat.mod_eq_of_lt hcode]
    omega
  simp only [writeCode, hbits, hlo, show (0 + 32 + 7) / 8 = 4 by decide, bind_apply, look_apply, ends_look, h.bytes hj, hset,
    h.elemAddr_eq hj]
  set a := wrapAddr o.base (i * o.stride) + 4 * j with ha
  have hwrap : ∀ n, n < 4 → wrapAddr a n = a + n := fun n hn => h.wrap_byte hj hn
  have hfour : List.range 4 = [0, 1, 2, 3] := by decide
  have hbytes : natBytes 4 code = [BitVec.ofNat 8 (code >>> (8 * 0)), BitVec.ofNat 8 (code >>> (8 * 1)), BitVec.ofNat 8 (code >>> (8 * 2)),
    BitVec.ofNat 8 (code >>> (8 * 3))] := by rw [natBytes, hfour]; rfl
  simp only [hfour, List.forIn_cons, List.forIn_nil, bind_apply, pure_apply, hwrap 0 (by decide), hwrap 1 (by decide), hwrap 2 (by decide),
    hwrap 3 (by decide), eff_apply, ends_eff]
  have hdir' : (s.putMem a (natBytes 4 code)).fab.dir = [] := hdir
  have hput : ∀ m : Unit → Prog, Ends (homeWrite a 4 m) (s.putMem a (natBytes 4 code)) Q = Ends (m ()) (s.putMem a (natBytes 4 code)) Q :=
    fun m => ends_homeWrite_unshared hdir' a 4 m
  rw [← hput, hbytes, putMem_cons, putMem_cons, putMem_cons, putMem_cons, putMem_nil]
  rfl

/-! ## FP32 codes -/

theorem signed_fp32_lt (b : Bool) {c : Nat} (h : c < 2 ^ 31) : signed fp32 b c < 2 ^ 32 := by
  cases b <;> simp [signed, fp32] <;> omega

/-- A code of FP32 fits in its 32 bits. -/
theorem encFp_fp32_lt (r : Round) (x : Num) : (encFp fp32 r false x).1 < 2 ^ 32 := by
  have hinf : ∀ b, signed fp32 b 0x7F800000 < 2 ^ 32 := fun b => signed_fp32_lt b (by decide)
  cases x with
  | nan => exact show 0x7FC00000 < 2 ^ 32 by decide
  | inf b => exact hinf b
  | fin b m e =>
    simp only [encFp]
    split
    · exact signed_fp32_lt b (by decide)
    · split
      · exact hinf b
      · next hle => exact signed_fp32_lt b (Nat.lt_of_le_of_lt (Nat.not_lt.1 hle) (by decide))

/-! ## A row -/

theorem onlyChanges_putMem (s : State) (a : Nat) (bs : List Byte) : OnlyChanges s (s.putMem a bs) [.mem] := onlyChanges_of_take rfl

theorem rising_putMem (a : Nat) (bs : List Byte) (h : Rising s.mem) : Rising (s.putMem a bs).mem := by
  rw [State.putMem, State.memAfter]
  exact rising_memPut _ _ h

/-- How far a row has been written: its first `n` elements hold their codes, and nothing else has changed. -/
structure RowWritten (o : Mdesc) (i : Nat) (code : Nat → Nat) (n : Nat) (s t : State) : Prop where
  codes : ∀ j, j < n → readCode t o i j = code j
  mem : MemBut s t (wrapAddr o.base (i * o.stride)) (4 * n)
  only : OnlyChanges s t [.mem]
  rising : Rising t.mem

theorem RowWritten.zero (o : Mdesc) (i : Nat) (code : Nat → Nat) (h : Rising s.mem) : RowWritten o i code 0 s s :=
  ⟨fun j hj => absurd hj (Nat.not_lt_zero j), fun _ _ => rfl, fun x _ => by cases x <;> simp [Piece.Same], h⟩

theorem RowWritten.next {o : Mdesc} {i n : Nat} {code : Nat → Nat} {t : State} (h : RowWritten o i code n s t) (hrow : RowInScratch o i)
    (hn : n < o.cols) (hcode : code n < 2 ^ 32) :
    RowWritten o i code (n + 1) s (t.putMem (wrapAddr o.base (i * o.stride) + 4 * n) (natBytes 4 (code n))) := by
  set a := wrapAddr o.base (i * o.stride) with ha
  have hbut := memBut_putMem t (a + 4 * n) (natBytes 4 (code n))
  rw [length_natBytes] at hbut
  have hsame : ∀ j, j < n → memNat (t.putMem (a + 4 * n) (natBytes 4 (code n))) (a + 4 * j) 4 = memNat t (a + 4 * j) 4 := fun j hj => by
    rw [memNat, memNat]
    congr 1
    refine List.map_congr_left fun x hx => hbut _ ?_
    have := List.mem_range.1 hx
    omega
  have hput := memBytes_putMem (a + 4 * n) (natBytes 4 (code n)) h.rising
  rw [length_natBytes] at hput
  refine ⟨fun j hj => ?_, fun x hx => (hbut x (by omega)).trans (h.mem x (by omega)), ?_, ?_⟩
  · rw [hrow.readCode_eq (by omega)]
    rcases Nat.lt_succ_iff_lt_or_eq.1 hj with hj | rfl
    · rw [← ha, hsame j hj, ha, ← hrow.readCode_eq (by omega), h.codes j hj]
    · rw [← ha, memNat, hput, leNat_natBytes_four hcode]
  · exact h.only.trans (onlyChanges_putMem _ _ _)
  · exact rising_putMem _ _ h.rising

end Sys2Proof.Machine
end

section
/-!
SUPPORT. COMBINE_WAIT and the liveness bitmap.
-/

namespace Sys2Proof.Machine

open Sys2Proof.Claims

variable {s : State} {Q : State → Prop} {th : Thr} {w : Cmd} {i : Iss}

/-! ## COMBINE_WAIT (R85, R86) -/

/-- A command whose conditions of form hold. -/
theorem exec_combineWait (h : opIs 0x61 w = true) (s : State) :
    exec (.combineWait th w) s = finish (syncCmd th w combineWaitBody) s := by
  show finishIf (opIs 0x61 w) _ s = _
  rw [h, finishIf_true]

theorem combineWait_holds (s : State) (th : Thr) (w : Cmd) (i : Iss) (d : TagDone) : (combineWait s th w i d).Holds := by
  rintro ⟨hplain, hop, hg, hdone, hrctx, htag, hpart, hc⟩
  have hw : i.w = w := canIssue_word hplain.1
  refine answers_of_ends _ (exec_combineWait hop s) ?_
  rw [ends_syncCmd_plain hplain]
  have hdone' : (s.issued i).tagsDone = [d] := hdone
  have hmine : rcPart (rcfgOf (s.issued i) (cf w 4 0 10)) = i.p := by rw [← hrctx]; exact hpart
  have hfind : [d].find? (fun d => d.rctx == cf w 4 0 10 && d.tag == cf w 28 0 32) = some d := by simp [hrctx, htag]
  simp only [combineWaitBody, bind_apply, hw, Nat.not_lt.2 hg, if_false, look_apply, ends_look, hdone', hmine, decide_true, Bool.true_or,
    Bool.and_true, hfind, ends_modThread, pure_apply]
  have hrt : Rising (s.issued i).threads := hc.risingThreads
  set f : Thread → Thread := fun t => orFlags d.flags (setG (cb w 6) (BitVec.ofNat 64 d.status) t)
  rw [ends_switch_plain (f := f) (t := (s.issued i).setThread i.key (f (threadOf (s.issued i) i.key))) hplain rfl
    (threadOf_setThread_same _ _ hrt) (rising_setThread _ _ hrt), setThread_setThread _ _ _ hrt, ends_done]
  exact ⟨rfl, onlyChanges_of_take rfl⟩

theorem combineWaitWaits_holds (s : State) (th : Thr) (w : Cmd) (i : Iss) (u : Submit) : (combineWaitWaits s th w i u).Holds := by
  rintro ⟨hplain, hop, hg, hdone, hsub, hrctx, htag, hpart⟩
  have hw : i.w = w := canIssue_word hplain.1
  refine exec_of_ends _ (exec_combineWait hop s) ?_
  rw [ends_syncCmd_plain hplain]
  have hdone' : (s.issued i).tagsDone = [] := hdone
  have hsub' : (s.issued i).submits = [u] := hsub
  simp only [combineWaitBody, bind_apply, hw, Nat.not_lt.2 hg, if_false, look_apply, ends_look, hdone', hsub', List.find?_nil, List.any_cons,
    List.any_nil, hrctx, htag, hpart, beq_self_eq_true, Bool.and_self, Bool.or_false, Bool.or_true, if_true, pure_apply, syncEnd,
    ends_startWait, ends_done]
  rw [waiting, hw]
  rfl

theorem combineWaitUnknown_holds (s : State) (th : Thr) (w : Cmd) (i : Iss) : (combineWaitUnknown s th w i).Holds := by
  rintro ⟨hplain, hop, hg, hdone, hsub, hc⟩
  have hw : i.w = w := canIssue_word hplain.1
  refine answers_of_ends _ (exec_combineWait hop s) ?_
  rw [ends_syncCmd_plain hplain]
  have hdone' : (s.issued i).tagsDone = [] := hdone
  have hsub' : (s.issued i).submits = [] := hsub
  simp only [combineWaitBody, bind_apply, hw, Nat.not_lt.2 hg, if_false, look_apply, ends_look, hdone', hsub', List.find?_nil, List.any_nil,
    Bool.and_false, Bool.false_eq_true, raiseCtx]
  refine ends_raise (by decide) fun t ht => ?_
  have honly := ht.onlyChanges
  have hthreads : t.threads = s.threads := (honly .threads (by decide)).1
  have hrt : Rising t.threads := hthreads ▸ hc.risingThreads
  have hread : threadOf t i.key = threadOf s i.key := honly.threadOf (by decide) i.key
  simp only [ends_modThread, pure_apply]
  rw [ends_switch_plain (f := setG (cb w 6) 2) (t := t.setThread i.key (setG (cb w 6) 2 (threadOf t i.key))) hplain (honly .pw (by decide))
    ((threadOf_setThread_same _ _ hrt).trans (congrArg _ hread)) (rising_setThread _ _ hrt), setThread_setThread _ _ _ hrt, ends_done]
  refine ⟨?_, ht.reported, ht.regs, ?_⟩
  · exact congrArg (fun l => tput {} l i.key _) hthreads
  · have hissued : OnlyChanges s (s.issued i) [.threads, .regs, .err] := onlyChanges_of_take rfl
    exact (hissued.trans (honly.mono (by decide))).trans (onlyChanges_of_take rfl)

/-! ## The liveness bitmap (R72, R73) -/

theorem liveBase_putMem (s : State) (a : Nat) (bs : List Byte) (p : Nat) : liveBase (s.putMem a bs) p = liveBase s p := rfl

theorem deadBit_putMem_zeros (n : Nat) {p node : Nat} (h : node / 8 < n) (hm : Rising s.mem) :
    deadBit (s.putMem (liveBase s p) (List.replicate n 0)) p node = false := by
  have hread : memAt (s.putMem (liveBase s p) (List.replicate n 0)) (liveBase s p + node / 8) = 0 := by
    rw [memAt_putMem _ hm (by rwa [List.length_replicate]), List.getElem_replicate]
  rw [deadBit, liveBase_putMem, hread]
  simp

theorem memAt_putMem_one (a : Nat) (v : Byte) (hm : Rising s.mem) : memAt (s.putMem a [v]) a = v :=
  memAt_putMem (bs := [v]) a (j := 0) hm Nat.one_pos

theorem memBut_putMem_zeros (s : State) (a n : Nat) : MemBut s (s.putMem a (List.replicate n 0)) a n := by
  have hbut := memBut_putMem s a (List.replicate n 0)
  rwa [List.length_replicate] at hbut

theorem sreLiveClrAll_holds (s : State) (w : Wr) : (sreLiveClrAll s w).Holds := by
  rintro ⟨howner, hall, hsram, hdir, hclean, hc⟩
  refine answers_of_ends (liveClrWrite w) (finish_ownerWrite_owner (liveClrWrite w) howner) ?_
  simp only [liveClrWrite, hall, if_true, bind_apply, look_apply, ends_look, hsram, ends_putBytes_clean hclean hdir, ends_done]
  exact ⟨fun n hn => deadBit_putMem_zeros _ (by omega) hc.risingMem, memBut_putMem_zeros s _ _, onlyChanges_putMem s _ _⟩

theorem sreLiveClr_holds (s : State) (w : Wr) : (sreLiveClr s w).Holds := by
  rintro ⟨howner, hone, hn, hsram, hdir, hclean, hc⟩
  refine answers_of_ends (liveClrWrite w) (finish_ownerWrite_owner (liveClrWrite w) howner) ?_
  simp only [liveClrWrite, hone, show ¬ (0 : Nat) = 1 by decide, if_false, ne_eq, hn, not_false_eq_true, if_true, clearDead, bind_apply,
    look_apply, ends_look, hsram, List.forIn_cons, List.forIn_nil, ends_putBytes_clean hclean hdir, pure_apply, ends_done]
  set b := liveBase s (wrBits w 16 6) with hb
  set n := wrBits w 0 16
  set v : Byte := memAt s (b + n / 8) &&& ~~~(BitVec.ofNat 8 (1 <<< (n % 8))) with hv
  set t := s.putMem (b + n / 8) [v] with ht
  have hbase : liveBase t (wrBits w 16 6) = b := by rw [ht, liveBase_putMem]
  have hput : memAt t (b + n / 8) = v := memAt_putMem_one _ v hc.risingMem
  have hbit : ∀ m, (BitVec.ofNat 8 (1 <<< (n % 8))).getLsbD m = decide (m < 8 ∧ m = n % 8) := fun m => by
    simp only [BitVec.getLsbD_ofNat, Nat.one_shiftLeft, Nat.testBit_two_pow, Bool.decide_and]
    congr 1
    exact decide_eq_decide.2 eq_comm
  have hbut : MemBut s t (b + n / 8) 1 := memBut_putMem s (b + n / 8) [v]
  refine ⟨?_, fun m hm _ => ?_, hbut, onlyChanges_putMem s _ _⟩
  · have hlt : n % 8 < 8 := Nat.mod_lt _ (by decide)
    simp [deadBit, hbase, hput, hv, hbit, hlt]
  · rw [deadBit, deadBit, hbase]
    congr 1
    by_cases hword : m / 8 = n / 8
    · have hlt : m % 8 < 8 := Nat.mod_lt _ (by decide)
      have hne : m % 8 ≠ n % 8 := by omega
      rw [hword, hput, hv, ← hb, BitVec.getLsbD_and, BitVec.getLsbD_not, hbit]
      simp [hlt, hne]
    · rw [hbut _ (by omega)]

end Sys2Proof.Machine
end

section
/-!
SUPPORT. The combine of one token with one pick, and the sums of a split expert before it.
-/

namespace Sys2Proof.Machine

open Sys2Proof.Claims

variable {s : State} {Q : State → Prop}

/-! ## What a combined element reads -/

/-- An element of the combine depends on the bytes of its contribution. -/
theorem combineElem_congr {t : State} {fmt : Nat} {f b : BitVec 32} {k : Pick} {a j n lim : Nat} (hmem : ∀ x, x < lim → memAt t x = memAt s x)
    (hend : a + n * (fmtBits fmt / 8) ≤ lim) (hj : j < n) : combineElem t fmt f [(k, a)] b j = combineElem s fmt f [(k, a)] b j := by
  have hstep : (j + 1) * (fmtBits fmt / 8) ≤ n * (fmtBits fmt / 8) := Nat.mul_le_mul_right _ hj
  rw [Nat.succ_mul] at hstep
  have hread : memNat t (a + j * (fmtBits fmt / 8)) (fmtBits fmt / 8) = memNat s (a + j * (fmtBits fmt / 8)) (fmtBits fmt / 8) := by
    rw [memNat, memNat]
    congr 1
    refine List.map_congr_left fun i hi => hmem _ ?_
    have := List.mem_range.1 hi
    omega
  simp only [combineElem, List.foldl_cons, List.foldl_nil, hread]

/-! ## A submit of one token with one pick -/

/-- The factor by which the weights of a token's present contributions are scaled (R74). -/
def scaleOf (s : State) (u : Submit) (k : Pick) : BitVec 32 :=
  let w := sumF32 [k.weight]
  if policyOf s u.cfg = 1 then (if (ofF32 w.1).isZero then 0 else (divNum (ofF32 w.1) (ofF32 w.1)).1) else 0x3F800000

/-- A handed-over submit of one token with one pick, whose return is here, and a place in core scratch for its row. -/
structure OneReturn (s : State) (u : Submit) (k : Pick) (a : Nat) : Prop where
  submits : s.submits = [u]
  picks : u.picks = [k]
  gap : k.gap = none
  all : rcK u.cfg * u.ntok = 1
  addr : returnAddr s u.part (rcSet u.cfg) u.tag (u.rctx / 256) k = some a
  below : a + (mdescOf u.out).cols * (fmtBits (rcRetFmt u.cfg) / 8) ≤ 0x0D0000000000
  accum : rcAccum u.cfg = false
  tok : k.tok < (mdescOf u.out).rows
  place : RowInScratch (mdescOf u.out) k.tok
  mine : belongs s u.part (wrapAddr (mdescOf u.out).base (k.tok * (mdescOf u.out).stride)) (mdescOf u.out).rowBytes = true
  quiet : ∀ e ∈ s.threads, ∀ r tg g, e.2.wait ≠ .combine r tg g
  dir : s.fab.dir = []
  clean : CleanMem s
  rising : Rising s.mem

/-- The code of an element of its row. -/
def rowCode (s : State) (u : Submit) (k : Pick) (a j : Nat) : Nat :=
  (toFmt 0 rne (ofF32 (combineElem s (rcRetFmt u.cfg) (scaleOf s u k) [(k, a)] 0 j).1)).1

/-- The submit has been combined: its row is written, and its tag has its outcome. -/
structure Combined (s : State) (u : Submit) (k : Pick) (a : Nat) (t : State) : Prop where
  submits : t.submits = []
  codes : ∀ j, j < (mdescOf u.out).cols → readCode t (mdescOf u.out) k.tok j = rowCode s u k a j
  tags : ∃ fl, t.tagsDone = s.tagsDone.filter (fun d => !(d.rctx == u.rctx && d.tag == u.tag)) ++
    [{ rctx := u.rctx, tag := u.tag, status := 0, flags := fl }]
  mem : MemBut s t (wrapAddr (mdescOf u.out).base (k.tok * (mdescOf u.out).stride)) (mdescOf u.out).rowBytes
  regs : RegsBut s t [rPart u.part 0x108]
  only : OnlyChanges s t [.submits, .tagsDone, .mem, .regs]

theorem ends_presentOf_one {u : Submit} {k : Pick} {a : Nat} (h : OneReturn s u k a) (m : List (Pick × Nat) → Prog) :
    Ends (presentOf u [k] (mdescOf u.out).cols m) s Q = Ends (m [(k, a)]) s Q := by
  simp only [presentOf, List.forIn_cons, List.forIn_nil, bind_apply, h.gap, Option.isNone_none, if_true, look_apply, ends_look, h.addr,
    ends_consume_clean h.clean, pure_apply, List.nil_append]

/-- The flags of a partition are OR-ed into one register. -/
theorem ends_partFlags_reg {p : Nat} {f : Flags} {k : Unit → Prog}
    (hQ : ∀ v, RegsChange (· = rPart p 0x108) s v → Ends (k ()) v Q) : Ends (partFlags p f k) s Q := by
  unfold partFlags
  rw [ends_ite_act]
  split
  · exact hQ _ (.setReg s _ rfl)
  · exact hQ s (.refl _ s)

theorem ends_unitWrite_clean (h : CleanMem s) {die unit p a n : Nat} (hmine : belongs s p a n = true) (k : Bool → Prog) :
    Ends (unitWrite die unit p a n k) s Q = Ends (k true) s Q := by
  simp only [unitWrite, unitCheck, bind_apply, look_apply, ends_look, hmine, if_true, pure_apply, ends_aliveRuns_clean h]

/-- The end of a combine: the flags, and the outcome of the tag. -/
theorem ends_combineEnds {u : Submit} {k : Pick} {a : Nat} {fl : Flags} {m : Unit → Prog} {t : State} (h : OneReturn s u k a)
    (ht : RowWritten (mdescOf u.out) k.tok (rowCode s u k a) (mdescOf u.out).cols s t) (hQ : ∀ t, Combined s u k a t → Ends (m ()) t Q) :
    Ends (partFlags u.part fl fun _ => modSubmits (fun l => l.filter (fun x => !sameSubmit x u)) fun _ => tagDone u.rctx u.tag 0 fl m)
      t Q := by
  obtain ⟨hcodes, hmem, honly, -⟩ := ht
  refine ends_partFlags_reg fun v hflags => ?_
  have hv := hflags.onlyChanges
  have hsv : OnlyChanges s v [.mem, .regs] := (honly.mono (by decide)).trans (hv.mono (by decide))
  have hgone : v.submits.filter (fun x => !sameSubmit x u) = [] := by
    rw [hsv .submits (by decide), h.submits]
    simp [sameSubmit]
  have hquiet : ∀ e ∈ v.threads, ∀ r tg g, e.2.wait ≠ .combine r tg g := by
    rw [(hsv .threads (by decide)).1]
    exact h.quiet
  have htags : v.tagsDone = s.tagsDone := hsv .tagsDone (by decide)
  have hmemv : ∀ x, memAt v x = memAt t x := hv .mem (by decide)
  rw [ends_modSubmits, hgone, ends_tagDone_quiet (s := { v with submits := [] }) hquiet]
  refine hQ _ ⟨rfl, fun j hj => ?_, ⟨fl, by rw [htags]⟩, fun x hx => ?_, fun off hoff => ?_, ?_⟩
  · rw [← hcodes j hj, h.place.readCode_eq hj, h.place.readCode_eq hj]
    exact congrArg leNat (List.map_congr_left fun i _ => hmemv _)
  · rw [h.place.rowBytes] at hx
    exact (hmemv x).trans (hmem x hx)
  · exact (hflags.same off (by simpa using hoff)).trans (honly .regs (by decide) off)
  · exact (hsv.mono (by decide)).trans (onlyChanges_of_take rfl)

theorem ends_combineSubmit_one {u : Submit} {k : Pick} {a : Nat} {m : Unit → Prog} (h : OneReturn s u k a)
    (hQ : ∀ t, Combined s u k a t → Ends (m ()) t Q) : Ends (combineSubmit u m) s Q := by
  have htoks : sortBy (fun a b => decide (a ≤ b)) (u.picks.map (·.tok)).eraseDups = [k.tok] := by rw [h.picks]; rfl
  have hks : sortBy (fun a b : Pick => decide (a.rank ≤ b.rank)) (u.picks.filter (fun x => x.tok == k.tok)) = [k] := by
    rw [h.picks]
    simp [sortBy, insertBy]
  have hlen : u.picks.length = rcK u.cfg * u.ntok := by rw [h.picks, h.all]; rfl
  simp only [combineSubmit, bind_apply, look_apply, ends_look, htoks, List.forIn_cons, List.forIn_nil, hks, ends_presentOf_one h, pure_apply,
    List.length_cons, List.length_nil, ne_eq, not_true_eq_false, if_false, hlen, List.nil_append, Bool.and_false, Bool.false_eq_true,
    List.isEmpty_cons, h.tok, if_true, h.accum, ends_unitWrite_clean h.clean h.mine, Bool.and_self, List.map_cons, List.map_nil]
  have hscale : (if policyOf s u.cfg = 1 then if (ofF32 (sumF32 [k.weight]).1).isZero = true then ((0 : BitVec 32), (0 : Flags))
      else divNum (ofF32 (sumF32 [k.weight]).1) (ofF32 (sumF32 [k.weight]).1) else (0x3F800000, 0)).1 = scaleOf s u k := by
    simp only [scaleOf]
    split_ifs <;> rfl
  simp only [hscale, h.place.fmt]
  refine ends_forIn_range (fun j t _ => RowWritten (mdescOf u.out) k.tok (rowCode s u k a) j s t) (fun j hj t fl ht n hn => ?_)
    (.zero _ _ _ h.rising) fun t fl ht => ?_
  · have hlow : ∀ x, x < 0x0D0000000000 → memAt t x = memAt s x := fun x hx => by
      have habove := h.place.above hj
      exact ht.mem x (.inl (by omega))
    have hdir : t.fab.dir = [] := by rw [ht.only .fab (by decide)]; exact h.dir
    simp only [bind_apply, look_apply, ends_look, pure_apply, combineElem_congr hlow h.below hj]
    have hcode : rowCode s u k a j < 2 ^ 32 := encFp_fp32_lt _ _
    exact (h.place.ends_writeCode hj hcode hdir _).mpr (hn _ _ (ht.next h.place hj hcode))
  · exact ends_combineEnds h ht hQ

end Sys2Proof.Machine
end

section
/-!
SUPPORT. COMBINE, with and without the sums of a split expert.
-/

namespace Sys2Proof.Machine

open Sys2Proof.Claims

variable {s : State} {Q : State → Prop}

theorem Raises.mem {code sev die unit : Nat} {part : Option Nat} {addr detail : Nat} {v : State}
    (h : Raises code sev die unit part addr detail s v) : v.mem = s.mem := by
  have hmem := congrArg State.mem h.eq
  exact hmem

/-! ## COMBINE (R74, R86) -/

theorem oneReturn_of_pre {p : Fin 64} {setId : BitVec 8} {tag : BitVec 32} {u : Submit} {k : Pick} {a : Nat}
    (h : (combine s p setId tag u k a).pre) : OneReturn s u k a := by
  obtain ⟨hsub, hp, ht, hset, -, -, -, hpicks, hgap, hall, haddr, hbelow, haccum, htok, hfmt, -, htier, hfits, hmine, hquiet, hdir, hclean, hc⟩ := h
  refine ⟨hsub, hpicks, hgap, hall, ?_, hbelow, haccum, htok, ⟨hfmt, htier, hfits⟩, ?_, hquiet, hdir, hclean, hc.risingMem⟩
  · rw [hp, ht, hset]
    exact haddr
  · rw [hp]
    exact hmine

/-- While the deadline of no return has passed, an exchange goes on. -/
theorem ends_finishExchange_early {p setId tag : Nat} {t : State} {m : Unit → Prog} (hin : returnsIn s p setId tag = true)
    (hpast : ∀ l ∈ s.launches, l.past = false) (ht : t.launches = s.launches) : Ends (finishExchange p setId tag m) t Q = Ends (m ()) t Q := by
  have hex : exchangeOf t p setId tag = exchangeOf s p setId tag := by rw [exchangeOf, ht, exchangeOf]
  have hnone : (exchangeOf s p setId tag).filter (fun l => l.kind == .ret && l.past) = [] := by
    refine List.filter_eq_nil_iff.2 fun l hl => ?_
    simp [hpast l (List.mem_of_mem_filter hl)]
  have hsome : ((exchangeOf s p setId tag).filter (fun l => l.kind == .dispatch)).length ≠ 0 := by
    intro h0
    have hnil := List.length_eq_zero_iff.1 h0
    simp [returnsIn, hnil] at hin
  simp only [finishExchange, bind_apply, look_apply, ends_look, hex, hnone, List.length_nil, hsome, decide_false, Bool.and_false,
    Bool.false_eq_true, if_false, pure_apply]

/-- COMBINE of a handed-over set of one context whose returns are in: its sums, and then its combine or its failure. -/
theorem ends_combineAct_one {p setId tag : Nat} {sums : List SplitSum} {u : Submit} {m : Unit → Prog} (hs : setSubmits s p setId tag = [u])
    (hhanded : u.phase = .handed) (hin : returnsIn s p setId tag = true) :
    Ends (combineAct p setId tag sums m) s Q = Ends (sumSplits [u] sums fun ok =>
      if ok = true then combineSubmit u fun _ => finishExchange p setId tag m else failSubmit u fun _ => finishExchange p setId tag m) s Q := by
  have hsubs : (setSubmits s p setId tag).filter (fun u => u.phase == .handed) = [u] := by simp [hs, hhanded]
  simp only [combineAct, bind_apply, look_apply, ends_look, hsubs, List.isEmpty_cons, Bool.not_false, hin, Bool.and_self, if_true,
    List.forIn_cons, List.forIn_nil]
  congr 2
  funext ok
  cases ok <;> rfl

theorem combine_holds (s : State) (p : Fin 64) (setId : BitVec 8) (tag : BitVec 32) (u : Submit) (k : Pick) (a : Nat) :
    (combine s p setId tag u k a).Holds := by
  intro h
  have hone := oneReturn_of_pre h
  obtain ⟨hsub, hp, ht, hset, hhanded, hin, hpast, -⟩ := h
  refine answers_of_ends (combineAct p setId.toNat tag.toNat []) rfl ?_
  rw [ends_combineAct_one (setSubmits_only hsub hp ht hset) hhanded hin]
  have hnone : ∀ n, sumSplits [u] [] n = n true := fun n => rfl
  rw [hnone, if_pos rfl]
  refine ends_combineSubmit_one hone fun t hc => ?_
  rw [ends_finishExchange_early hin hpast (hc.only .launches (by decide)), ends_done]
  exact ⟨hc.submits, hc.codes, hc.tags, hc.mem, hp ▸ hc.regs, hc.only⟩

/-! ## The sums of a split expert (R74, R109–R112) -/

/-- Memory and the flags of a partition have changed. -/
structure FlagsAndMem (s v : State) (p : Nat) : Prop where
  only : OnlyChanges s v [.mem, .regs]
  regs : RegsBut s v [rPart p 0x108]

theorem belongs_congr {v : State} {p q : Nat} (h : FlagsAndMem s v p) (a n : Nat) : belongs v q a n = belongs s q a n := by
  have hmem2 : v.mem2 = s.mem2 := h.only .mem2 (by decide)
  have hfield : ∀ off lo len, off < 0xC00000 → fieldOf v off lo len = fieldOf s off lo len := fun off lo len hoff => by
    have hne : off ∉ [rPart p 0x108] := by simp only [rPart, List.mem_cons, List.not_mem_nil, or_false]; omega
    rw [fieldOf, h.regs off hne, fieldOf]
  have hcore : ∀ c, coreEnabled v c = coreEnabled s c := fun c => by
    by_cases hc : c < 2048
    · rw [coreEnabled, coreEnabled, hfield _ _ _ (by omega)]
    · simp [coreEnabled, hc]
  have hpart : ∀ n, partOf v n = partOf s n := h.only.partOf (by decide)
  have hmapped : ∀ x, mapped v x = mapped s x := fun x => by
    simp only [mapped, t3Mapped, hmem2, hfield 0x200018 0 16 (by decide), hcore]
  have hof : ∀ c, coreOfPart v q c = coreOfPart s q c := fun c => by rw [coreOfPart, coreOfPart, hcore, hpart]
  have hreach : ∀ x, reach v q x = reach s q x := fun x => by
    rw [reach, reach]
    dsimp only
    rw [hof, hpart]
  simp only [belongs, hmapped, hreach]

theorem OneReturn.after {v : State} {u : Submit} {k : Pick} {a : Nat} (h : OneReturn s u k a) (hv : FlagsAndMem s v u.part)
    (hr : Rising v.mem) : OneReturn v u k a := by
  have hsub : v.submits = s.submits := hv.only .submits (by decide)
  have hl : v.launches = s.launches := hv.only .launches (by decide)
  refine ⟨hsub.trans h.submits, h.picks, h.gap, h.all, ?_, h.below, h.accum, h.tok, h.place, (belongs_congr hv _ _).trans h.mine, ?_, ?_, ?_, hr⟩
  · rw [← h.addr]
    simp only [returnAddr, exchangeOf, ownCounts, picksOf, setSubmits, hsub, hl]
  · rw [(hv.only .threads (by decide)).1]
    exact h.quiet
  · rw [hv.only .fab (by decide)]
    exact h.dir
  · exact hv.only.cleanMem (by decide) h.clean

theorem scaleOf_congr {v : State} {u : Submit} (hv : FlagsAndMem s v u.part) (k : Pick) : scaleOf v u k = scaleOf s u k := by
  have hpolicy : policyOf v u.cfg = policyOf s u.cfg := by rw [policyOf, policyOf, hv.only.partOf (by decide)]
  rw [scaleOf, scaleOf, hpolicy]

/-- The bytes of the sums of a split expert. -/
def sumBytes (u : Submit) (x : SplitSum) : List Byte := (splitSums u x).flatMap (fun y => natBytes (elBytes (rcRetFmt u.cfg)) y.1.1)

/-- The sums of a split expert find their pick and the place of its return. -/
theorem ends_sumSplits_one {u : Submit} {k : Pick} {a : Nat} {x : SplitSum} {m : Bool → Prog} (h : OneReturn s u k a) (hse : u.rctx / 256 = x.se)
    (htok : k.tok = x.tok) (hrank : k.rank = x.rank) :
    Ends (sumSplits [u] [x] m) s Q = Ends ((forIn (splitSums u x).zipIdx PUnit.unit fun y _ => do
        reportSum (rcGroup u.cfg) u.part (x.tok * (mdescOf u.out).cols + y.2) y.1.2
        pure (ForInStep.yield PUnit.unit) : Act PUnit) fun _ =>
      partFlags u.part ((splitSums u x).foldl (fun f y => f ||| y.1.2) 0) fun _ =>
        putBytes a (sumBytes u x) fun _ => m ((splitSums u x).all (fun y => y.2 != .failed))) s Q := by
  have hu : [u].find? (fun u => u.rctx / 256 == x.se.val) = some u := by simp [hse]
  have hk : u.picks.find? (fun k => k.gap.isNone && k.tok == x.tok && k.rank == x.rank) = some k := by
    rw [h.picks]
    simp [h.gap, htok, hrank]
  have haddr := h.addr
  rw [hse] at haddr
  simp only [sumSplits, List.mapM, List.mapM.loop, sumSplit, hu, hk, bind_apply, look_apply, ends_look, haddr, pure_apply, sumBytes,
    List.reverse_singleton, List.all_cons, List.all_nil, Bool.and_true, id]

/-- Sums that no fault met report nothing. -/
theorem ends_reports_good {h p n : Nat} (l : List (((Nat × Flags) × SumEnd) × Nat)) (hl : ∀ y ∈ l, y.1.2 = .good) (m : PUnit → Prog) :
    Ends ((forIn l PUnit.unit fun y _ => do reportSum h p (n + y.2) y.1.2; pure (ForInStep.yield PUnit.unit) : Act PUnit) m) s Q =
      Ends (m PUnit.unit) s Q := by
  induction l with
  | nil => rfl
  | cons y l ih =>
    rw [List.forIn_cons, bind_apply, bind_apply, hl y List.mem_cons_self]
    exact ih fun z hz => hl z (List.mem_cons_of_mem _ hz)

/-- The sums of a split expert stand at an address. -/
structure SumsAt (s : State) (p a : Nat) (bs : List Byte) (v : State) : Prop where
  changed : FlagsAndMem s v p
  bytes : memBytes v a bs.length = bs
  mem : MemBut s v a bs.length
  rising : Rising v.mem

/-- The flags of the sums, and their bytes. -/
theorem ends_flagsAndBytes {p a : Nat} {f : Flags} {bs : List Byte} {m : Unit → Prog} (hclean : CleanMem s) (hdir : s.fab.dir = [])
    (hr : Rising s.mem) (hQ : ∀ v, SumsAt s p a bs v → (Rising s.regs → Rising v.regs) → Ends (m ()) v Q) :
    Ends (partFlags p f fun _ => putBytes a bs m) s Q := by
  refine ends_partFlags_reg fun v hflags => ?_
  have hv := hflags.onlyChanges
  have hdir' : v.fab.dir = [] := by rw [hv .fab (by decide)]; exact hdir
  have hr' : Rising v.mem := hflags.mem ▸ hr
  rw [ends_putBytes_clean (hv.cleanMem (by decide) hclean) hdir']
  have hput := onlyChanges_putMem v a bs
  refine hQ _ ⟨⟨(hv.mono (by decide)).trans (hput.mono (by decide)), fun off hoff => ?_⟩, memBytes_putMem a bs hr', fun x hx => ?_, ?_⟩
    hflags.rising
  · exact (hput .regs (by decide) off).trans (hflags.same off (by simpa using hoff))
  · exact (memBut_putMem v a bs x hx).trans (hv .mem (by decide) x)
  · exact rising_putMem a bs hr'

theorem ends_sumSplits_good {u : Submit} {k : Pick} {a : Nat} {x : SplitSum} {m : Bool → Prog} (h : OneReturn s u k a) (hse : u.rctx / 256 = x.se)
    (htok : k.tok = x.tok) (hrank : k.rank = x.rank) (hgood : ∀ y ∈ splitSums u x, y.2 = .good)
    (hQ : ∀ v, SumsAt s u.part a (sumBytes u x) v → Ends (m true) v Q) : Ends (sumSplits [u] [x] m) s Q := by
  have hall : (splitSums u x).all (fun y => y.2 != .failed) = true := List.all_eq_true.2 fun y hy => by rw [hgood y hy]; rfl
  rw [ends_sumSplits_one h hse htok hrank, hall, ends_reports_good _ fun y hy => hgood _ (List.fst_mem_of_mem_zipIdx hy)]
  exact ends_flagsAndBytes h.clean h.dir h.rising fun v hv _ => hQ v hv

theorem combineSplit_holds (s : State) (p : Fin 64) (setId : BitVec 8) (tag : BitVec 32) (u : Submit) (k : Pick) (a : Nat) (x : SplitSum) :
    (combineSplit s p setId tag u k a x).Holds := by
  rintro ⟨hpre, hse, htok, hrank, hgood, hapart⟩
  have hone := oneReturn_of_pre hpre
  obtain ⟨hsub, hp, ht, hset, hhanded, hin, hpast, -⟩ := hpre
  refine answers_of_ends (combineAct p setId.toNat tag.toNat [x]) rfl ?_
  rw [ends_combineAct_one (setSubmits_only hsub hp ht hset) hhanded hin]
  refine ends_sumSplits_good hone hse htok hrank hgood fun v hv => ?_
  rw [if_pos rfl]
  have hvl : v.launches = s.launches := hv.changed.only .launches (by decide)
  refine ends_combineSubmit_one (hone.after hv.changed hv.rising) fun t hc => ?_
  rw [ends_finishExchange_early hin hpast ((hc.only .launches (by decide)).trans hvl), ends_done]
  refine ⟨hc.submits, ?_, ⟨v, hv.bytes, hv.mem, fun j hj => ?_⟩, ?_, fun y hy hy' => (hc.mem y hy').trans (hv.mem y hy), fun off hoff => ?_,
    (hv.changed.only.mono (by decide)).trans hc.only⟩
  · refine (List.map_congr_left fun i hi => hc.mem _ ?_).trans hv.bytes
    have hi' : i < (sumBytes u x).length := List.mem_range.1 hi
    change a + (sumBytes u x).length ≤ _ ∨ _ at hapart
    omega
  · rw [hc.codes j hj, rowCode, scaleOf_congr hv.changed]
    rfl
  · obtain ⟨fl, hfl⟩ := hc.tags
    exact ⟨fl, hfl.trans (by rw [hv.changed.only .tagsDone (by decide)])⟩
  · rw [← hp] at hoff
    exact (hc.regs off hoff).trans (hv.changed.regs off hoff)

theorem combineSplitFails_holds (s : State) (p : Fin 64) (setId : BitVec 8) (tag : BitVec 32) (u : Submit) (k : Pick) (a : Nat) (x : SplitSum)
    (y : Nat × Flags) : (combineSplitFails s p setId tag u k a x y).Holds := by
  rintro ⟨hpre, hse, htok, hrank, hfails⟩
  have hone := oneReturn_of_pre hpre
  obtain ⟨hsub, hp, ht, hset, hhanded, hin, hpast, -⟩ := id hpre
  have hc : Canon s := by obtain ⟨-, -, -, -, -, -, -, -, -, -, -, -, -, -, -, -, -, -, -, -, -, -, hc⟩ := hpre; exact hc
  have hword : rXg (rcGroup u.cfg) 0x2C / 8 * 8 = rXg (rcGroup u.cfg) 0x28 ∧ rXg (rcGroup u.cfg) 0x2C % 8 * 8 = 32 := by simp only [rXg]; omega
  refine answers_of_ends (combineAct p setId.toNat tag.toNat [x]) rfl ?_
  rw [ends_combineAct_one (setSubmits_only hsub hp ht hset) hhanded hin, ends_sumSplits_one hone hse htok hrank, hfails]
  simp only [List.zipIdx_cons, List.zipIdx_nil, List.forIn_cons, List.forIn_nil, bind_apply, reportSum, reduceCtorEq, if_false, if_true,
    ends_ctr32, pure_apply, hword]
  set s₁ := s.setField (rXg (rcGroup u.cfg) 0x28) 32 32 (min 0xFFFFFFFF (fieldOf s (rXg (rcGroup u.cfg) 0x28) 32 32 + 1)) with hs₁
  have hcount : fieldOf s₁ (rXg (rcGroup u.cfg) 0x28) 32 32 = min 0xFFFFFFFF (fieldOf s (rXg (rcGroup u.cfg) 0x28) 32 32 + 1) := by
    rw [hs₁, fieldOf_setField_same _ _ _ _ _ hc.rising (by decide), Nat.mod_eq_of_lt (by omega)]
  have hs₁only : OnlyChanges s s₁ [.regs, .err] := (onlyChanges_setReg s _ _).mono (by decide)
  refine ends_raise (by decide) fun v₁ hv₁ => ends_raise (by decide) fun v₂ hv₂ => ?_
  have hv : OnlyChanges s v₂ [.regs, .err] := (hs₁only.trans hv₁.onlyChanges).trans hv₂.onlyChanges
  have hmem : v₂.mem = s.mem := hv₂.mem.trans hv₁.mem
  have hdir : v₂.fab.dir = [] := by rw [hv .fab (by decide)]; exact hone.dir
  refine ends_flagsAndBytes (hv.cleanMem (by decide) hone.clean) hdir (hmem ▸ hone.rising) fun t ht _ => ?_
  have hst : OnlyChanges s t [.mem, .regs, .err] := (hv.mono (by decide)).trans (ht.changed.only.mono (by decide))
  have hnot : ([(y, SumEnd.failed)].all fun y => y.2 != SumEnd.failed) = false := rfl
  have hquiet : ∀ e ∈ t.threads, ∀ r tg g, e.2.wait ≠ .combine r tg g := by
    rw [(hst .threads (by decide)).1]
    exact hone.quiet
  rw [hnot, if_neg Bool.false_ne_true, ends_failSubmit_handed ((hst .submits (by decide)).trans hsub) hhanded hquiet,
    ends_finishExchange_early hin hpast (by exact hst .launches (by decide)), ends_done]
  have herr : t.err = v₂.err := ht.changed.only .err (by decide)
  have hft : ftNs v₁ = ftNs s := by rw [ftNs, hv₁.onlyChanges .time (by decide)]; rfl
  have hxg : rXg (rcGroup u.cfg) 0x28 ∉ errSrc 36 := by
    simp only [rXg, errSrc, List.mem_cons, List.not_mem_nil, or_false]
    omega
  have hflag : rXg (rcGroup u.cfg) 0x28 ∉ [rPart u.part 0x108] := by
    simp only [rXg, rPart, List.mem_cons, List.not_mem_nil, or_false]
    omega
  refine ⟨rfl, by rw [hst .tagsDone (by decide)], ?_, ?_, fun y hy => ?_, fun off hoff => ?_,
    (hst.mono (by decide)).trans (onlyChanges_of_take rfl)⟩
  · refine herr.trans (hv₂.reported.trans ?_)
    rw [hv₁.reported, hft, htok, hp]
    simp only [List.append_assoc, List.cons_append, List.nil_append]
    rfl
  · refine Eq.trans ?_ hcount
    rw [← hv₁.field hxg, ← hv₂.field hxg, fieldOf, fieldOf, ← ht.changed.regs _ hflag]
    rfl
  · have hbytes : (sumBytes u x).length = elBytes (rcRetFmt u.cfg) := by simp [sumBytes, hfails, length_natBytes]
    exact (ht.mem y (by rwa [hbytes])).trans (hv .mem (by decide) y)
  · rw [List.mem_cons, List.mem_cons, not_or, not_or] at hoff
    obtain ⟨hoff₁, hoff₂, hoff₃⟩ := hoff
    have hkept : regOf t off = regOf v₂ off := ht.changed.regs off (by rw [hp]; simpa using hoff₁)
    exact hkept.trans ((hv₂.regs off hoff₃).trans ((hv₁.regs off hoff₃).trans (regOf_setReg_ne _ _ _ _ hoff₂)))

/-- Settles O33: the combine element by element, its wait through the rule for a plain command. -/
theorem combineAndLiveness : Obligations.CombineAndLiveness := by
  unfold Obligations.CombineAndLiveness
  intro s p setId tag u k a th w i d v x y
  exact ⟨combine_holds s p setId tag u k a, combineSplit_holds s p setId tag u k a x, combineSplitFails_holds s p setId tag u k a x y,
    combineWait_holds s th w i d, combineWaitWaits_holds s th w i u, combineWaitUnknown_holds s th w i, sreLiveClr_holds s v,
    sreLiveClrAll_holds s v⟩

end Sys2Proof.Machine
end

section
/-!
SUPPORT. Asynchronous commands that issue without a grant (R169, R172).
-/

namespace Sys2Proof.Machine

open Sys2Proof.Claims

variable {s : State} {Q : State → Prop} {th : Thr} {w : Cmd} {i : Iss} {slot : Nat}

/-- Of two commands put into one slot the later stands. -/
theorem asyncPut_asyncPut (slot : Nat) (a b : AsyncCmd) (t : Thread) : asyncPut slot b (asyncPut slot a t) = asyncPut slot b t := by
  have hlow : ∀ l : List (Nat × AsyncCmd), (l.filter (fun e => e.1 < slot) ++ (slot, a) :: l.filter (fun e => slot < e.1)).filter
      (fun e => e.1 < slot) = l.filter (fun e => e.1 < slot) := fun l => by
    have hnone : (l.filter (fun e => slot < e.1)).filter (fun e => e.1 < slot) = [] := List.filter_eq_nil_iff.2 fun e he => by
      have := (List.mem_filter.1 he).2
      simp only [decide_eq_true_eq] at this ⊢
      omega
    rw [List.filter_append, List.filter_filter, List.filter_cons_of_neg (by simp), hnone, List.append_nil]
    simp
  have hhigh : ∀ l : List (Nat × AsyncCmd), (l.filter (fun e => e.1 < slot) ++ (slot, a) :: l.filter (fun e => slot < e.1)).filter
      (fun e => slot < e.1) = l.filter (fun e => slot < e.1) := fun l => by
    have hnone : (l.filter (fun e => e.1 < slot)).filter (fun e => slot < e.1) = [] := List.filter_eq_nil_iff.2 fun e he => by
      have := (List.mem_filter.1 he).2
      simp only [decide_eq_true_eq] at this ⊢
      omega
    rw [List.filter_append, hnone, List.nil_append, List.filter_cons_of_neg (by simp), List.filter_filter]
    simp
  simp only [asyncPut, hlow, hhigh]

/-- The state in which a command has taken its slot and runs. -/
def State.started (s : State) (i : Iss) (slot : Nat) : State :=
  (s.issued i).setThread i.key (asyncPut slot { w := i.w, phase := .running } (threadOf s i.key))

/-- What an asynchronous command does once its body has answered. -/
def asyncEnd (i : Iss) (slot : Nat) (held : Option Issued) : AsyncEnd → Act Unit
  | .flags f => do
    putAsync i.key slot { w := i.w, phase := .done, flags := f }
    modThread i.key (moveOn none)
  | .later => modThread i.key (moveOn none)
  | .more cur => do
    putAsync i.key slot { w := i.w, phase := .running, held, cur := some cur }
    modThread i.key (moveOn none)
  | .stop c cur => do
    putAsync i.key slot { w := i.w, phase := .stopped, held, cur := some cur }
    modThread i.key (moveOn none)
    threadFault i c
  | .fault c => do
    dropAsync i.key slot
    threadFault i c

theorem ends_putAsync (k slot : Nat) (a : AsyncCmd) (m : Unit → Prog) :
    Ends (putAsync k slot a m) s Q = Ends (m ()) (s.setThread k (asyncPut slot a (threadOf s k))) Q := rfl

/-- A command that issues without a grant is its body, in the state in which it runs. -/
theorem ends_asyncCmd_plain {body : Iss → Nat → Act AsyncEnd} {k : Unit → Prog} (h : Issues s th w i slot) :
    Ends (asyncCmd th w 0 (fun _ => return false) body k) s Q =
      Ends (body i slot fun e => asyncEnd i slot (some (issuedNow (s.issued i) i)) e k) (s.started i slot) Q := by
  obtain ⟨⟨hissue, hwait, hpred, -, hleave, -⟩, hslot, hfree, -⟩ := h
  have hw := canIssue_word hissue
  have hslot' : freeSlot (threadOf (s.issued i) i.key) = some slot := hslot
  have hfree' : engineFree (s.issued i) i = true := hfree
  simp only [asyncCmd, bind_apply, ends_issue hissue, ends_header_plain (hw ▸ hwait) (hw ▸ hpred), Bool.not_true, Bool.false_eq_true, if_false,
    look_apply, ends_look, hslot', hleave, Bool.or_self, hfree', pure_apply, ends_putAsync]
  rw [← hw]
  refine congrArg (Ends · _ Q) (congrArg _ ?_)
  funext e
  cases e <;> rfl

section
variable {t : State} {k : Unit → Prog} {held : Option Issued} (hth : t.threads = (s.started i slot).threads) (hr : Rising s.threads)
include hth hr

theorem threadOf_started : threadOf t i.key = asyncPut slot { w := i.w, phase := .running } (threadOf s i.key) := by
  rw [threadOf, hth]
  exact threadOf_setThread_same _ _ hr

/-- A body that leaves its command under way: the thread moves on. -/
theorem ends_later : Ends (asyncEnd i slot held .later k) t Q =
    Ends (k ()) (t.setThread i.key (moveOn none (asyncPut slot { w := i.w, phase := .running } (threadOf s i.key)))) Q := by
  rw [asyncEnd, ends_modThread, threadOf_started hth hr]

/-- A body that has run: its slot holds the command done, and the thread moves on. -/
theorem ends_flags (f : Flags) : Ends (asyncEnd i slot held (.flags f) k) t Q =
    Ends (k ()) (t.setThread i.key (moveOn none (asyncPut slot { w := i.w, phase := .done, flags := f } (threadOf s i.key)))) Q := by
  have hrt : Rising t.threads := by rw [hth]; exact rising_setThread _ _ hr
  rw [asyncEnd, bind_apply, ends_putAsync, ends_modThread, threadOf_setThread_same _ _ hrt, setThread_setThread _ _ _ hrt,
    threadOf_started hth hr, asyncPut_asyncPut]

/-- The thread table once a thread of a started command has been written. -/
theorem threads_setThread_started (v : Thread) : (t.setThread i.key v).threads = ((s.issued i).setThread i.key v).threads := by
  have htab := tput_tput_same {} s.threads i.key (asyncPut slot { w := i.w, phase := .running } (threadOf s i.key)) v hr
  rw [State.setThread, Effect.apply, hth]
  exact htab

end

/-! ## Matrix descriptors (R176, R177) -/

theorem ends_readMdesc_plain {a : Nat} {m : Mdesc} (h : PlainOpd s i a m) (hheld : i.held = none) (hclean : CleanMem s) (k : MdescRes → Prog) :
    Ends (readMdesc i a false k) s Q = Ends (k (.ok m)) s Q := by
  obtain ⟨halign, hmine, hm, hok, -⟩ := h
  have hitem : i.item s a = memItem s a := by rw [Iss.item, hheld]
  have hokAs : m.okAs false = true := hok
  simp only [readMdesc, bind_apply, halign, ne_eq, not_true_eq_false, if_false, look_apply, ends_look, hmine, Bool.not_true,
    Bool.false_eq_true, ends_consume_clean hclean, hitem, hm, hokAs, if_true, pure_apply]

end Sys2Proof.Machine
end

section
/-!
SUPPORT. Route contexts, and ROUTE_SUBMIT up to the queue of the Sedge die.
-/

namespace Sys2Proof.Machine

open Sys2Proof.Claims

variable {s : State} {Q : State → Prop} {th : Thr} {w : Cmd} {i : Iss} {slot : Nat}

/-! ## Route contexts (R57) -/

theorem routeContextWrite_holds (s : State) (se : Fin 4) (c : Fin 256) (word : Fin 8) (w : Wr) : (routeContextWrite s se c word w).Holds := by
  rintro ⟨howner, hok⟩
  refine exec_of_ends (rctxWrite se c word w) (finish_ownerWrite_owner (rctxWrite se c word w) howner) ?_
  have hcond : (rcEn (BitVec.ofNat 512 (setBits (rcfgOf s (se.val * 256 + c.val)).toNat (64 * word)  64
      (plainWrite (rRctx se c word) (regOf s (rRctx se c word)).toNat w))) && !rctxOk s (se.val * 256 + c.val)
      (BitVec.ofNat 512 (setBits (rcfgOf s (se.val * 256 + c.val)).toNat (64 * word) 64
        (plainWrite (rRctx se c word) (regOf s (rRctx se c word)).toNat w)))) = false := by
    rcases hok with h | h <;> simp [h]
  simp only [rctxWrite, bind_apply, look_apply, ends_look, hcond, Bool.false_eq_true, if_false, ends_wrReg, ends_done]

/-- EN of a route context is a bit of its first word. -/
theorem rcEn_rcfgOf (s : State) (r : Nat) : rcEn (rcfgOf s r) = (fieldOf s (rRctx (r / 256) (r % 256) 0) 6 1 == 1) := by
  have hthree : List.range 3 = [0, 1, 2] := by decide
  have hbit : ibits (rcfgOf s r) 6 1 = fieldOf s (rRctx (r / 256) (r % 256) 0) 6 1 := by
    rw [rcfgOf, hthree, ibits, BitVec.toNat_ofNat, bitsOf_mod_two_pow _ 6 1 512 (by decide)]
    simp only [List.foldl_cons, List.foldl_nil]
    rw [bitsOf_or, bitsOf_or, bitsOf_or, bitsOf_shiftLeft_below (n := 64 * 1) _ (by decide),
      bitsOf_shiftLeft_below (n := 64 * 2) _ (by decide), Nat.or_zero, Nat.or_zero, fieldOf]
    simp [bitsOf]
  rw [rcEn, hbit]

theorem routeContextRefused_holds (s : State) (se : Fin 4) (c : Fin 256) (word : Fin 8) (w : Wr) : (routeContextRefused s se c word w).Holds := by
  rintro ⟨howner, hen, hok, hc⟩
  refine answers_of_ends (rctxWrite se c word w) (finish_ownerWrite_owner (rctxWrite se c word w) howner) ?_
  have hcond : ∀ cfg, rcEn cfg = true → rctxOk s (se.val * 256 + c.val) cfg = false → (rcEn cfg && !rctxOk s (se.val * 256 + c.val) cfg) = true :=
    fun cfg h h' => by simp [h, h']
  have hdiv : (se.val * 256 + c.val) / 256 = se.val := by omega
  have hmod : (se.val * 256 + c.val) % 256 = c.val := by omega
  simp only [rctxWrite, bind_apply, look_apply, ends_look, if_pos (hcond _ hen hok), ends_wrF, raiseCtx, hdiv, hmod]
  refine ends_raise (by decide) fun t ht => ?_
  rw [ends_done]
  have hnot : rRctx se c 0 ∉ errSrc (32 + se.val) := by
    simp only [rRctx, rSre, errSrc, List.mem_cons, List.not_mem_nil, or_false]
    omega
  refine ⟨?_, fun hw => ?_, ht.reported, fun off hoff => ?_, ?_⟩
  · rw [rcEn_rcfgOf, hdiv, hmod, ht.field hnot, fieldOf_setField_same _ _ _ _ _ hc.rising (by decide)]
    rfl
  · have hne : word.val ≠ 0 := fun h => hw (Fin.ext h)
    have hoff : rRctx se c word ∉ errSrc (32 + se.val) := by
      simp only [rRctx, rSre, errSrc, List.mem_cons, List.not_mem_nil, or_false]
      omega
    exact (ht.regs _ hoff).trans (regOf_setReg_ne _ _ _ _ (by simp only [rRctx, rSre]; omega))
  · rw [List.mem_cons, not_or] at hoff
    exact (ht.regs _ hoff.2).trans (regOf_setReg_ne _ _ _ _ hoff.1)
  · exact ((onlyChanges_setReg s _ _).mono (by decide)).trans ht.onlyChanges

/-! ## The input arbiter (R189, R190) -/

/-- A queue that goes ahead, and that the die can take, keeps another one waiting. -/
theorem mayTake_false {se q e : Nat} (hne : e ≠ q) (hready : sreReady s se e = true) (hahead : sreAhead s e q = true) : mayTake s se q = false := by
  have hin : (e, queueOf s e) ∈ s.queues := by
    refine (tget_mem {} s.queues e).resolve_left fun hd => ?_
    have hd' : queueOf s e = {} := hd
    simp [sreReady, headPacket, hd'] at hready
  have hany : s.queues.any (fun e => e.1 != q && sreAhead s e.1 q && sreReady s se e.1) = true :=
    List.any_eq_true.2 ⟨_, hin, by simp [hne, hready, hahead]⟩
  rw [mayTake, hany]
  simp

/-- While another queue goes ahead, neither command of the arbiter does anything. -/
theorem exec_sre_waits {se : Fin 4} {q : Fin 4096} {c : Instr} (hc : c = .sreSubmitItemRead se q ∨ c = .sreLogitPacket se q)
    (hmay : mayTake s se q = false) : exec c s = .next s := by
  rcases hc with rfl | rfl
  · refine exec_of_ends (submitRead se q) rfl ?_
    simp only [submitRead, bind_apply, look_apply, ends_look, hmay, Bool.not_false, Bool.true_or, if_true]
    cases (queueOf s q).items <;> rfl
  · refine exec_of_ends (logitPacket se q) rfl ?_
    simp only [logitPacket, bind_apply, look_apply, ends_look, hmay, Bool.not_false, Bool.true_or, if_true]
    cases headPacket s q <;> rfl

/-- The queue that goes ahead has been kicked, or no queue has and it wins by PRIO, arrival or number. -/
theorem sreAhead_of {e q : Nat} (hkick : (queueOf s q).kicked = false)
    (h : qPrio s q < qPrio s e ∨ qPrio s q = qPrio s e ∧ (packetAt s e < packetAt s q ∨ packetAt s e = packetAt s q ∧ e < q)) :
    sreAhead s e q = true := by
  unfold sreAhead
  rw [hkick]
  cases (queueOf s e).kicked with
  | true => rfl
  | false =>
    rw [if_neg (by decide)]
    rcases h with h | ⟨h, h'⟩
    · rw [if_pos (by omega)]
      exact decide_eq_true h
    · rw [if_neg (by omega)]
      rcases h' with h' | ⟨h', h''⟩ <;> simp [*]

theorem sreLowerWaits_holds (s : State) (se : Fin 4) (q e : Fin 4096) (c : Instr) : (sreLowerWaits s se q e c).Holds := by
  rintro ⟨hc, hne, hready, hkick, hprio⟩
  exact exec_sre_waits hc (mayTake_false (fun h => hne (Fin.ext h)) hready (sreAhead_of hkick (.inl hprio)))

theorem sreLaterWaits_holds (s : State) (se : Fin 4) (q e : Fin 4096) (c : Instr) : (sreLaterWaits s se q e c).Holds := by
  rintro ⟨hc, hne, hready, hkick, hprio, hlater⟩
  exact exec_sre_waits hc (mayTake_false (fun h => hne (Fin.ext h)) hready (sreAhead_of hkick (.inr ⟨hprio, hlater⟩)))

end Sys2Proof.Machine
end

section
/-!
SUPPORT. ROUTE_SUBMIT, the landing and the reading of submit items, and O31.
-/

namespace Sys2Proof.Machine

open Sys2Proof.Claims

variable {s : State} {Q : State → Prop} {th : Thr} {i : Iss} {slot : Nat}

/-! ## ROUTE_SUBMIT (R53, R56, R75, R85, R86) -/

/-- A ROUTE_SUBMIT whose operands are in order. -/
structure Submits (s : State) (th : Thr) (i : Iss) (slot : Nat) (pay out : Mdesc) : Prop where
  issues : Issues s th i.w i slot
  op : opIs 0x60 i.w = true
  some : 1 ≤ cf i.w 8 0 32
  fit : cf i.w 8 0 32 ≤ 16777215
  payOpd : PlainOpd s i (cAddr i.w 12) pay
  outOpd : PlainOpd s i (cAddr i.w 20) out
  payIn : pay.inPart s i.p = true
  outIn : out.inPart s i.p = true
  clean : CleanMem s

/-- A context that takes no ROUTE_SUBMIT of a partition (R57, R85). -/
def ctxRejects (s : State) (r p : Nat) : Bool :=
  let c := rcfgOf s r
  rcPart c ≠ p || !rcEn c || !qEn s (rcInQ c) || qCons s (rcInQ c) ≠ 1 || qCunit s (rcInQ c) ≠ r / 256

/-- A context without an enabled group, or outputs that do not fit it (R75, R88). -/
def ctxRefuses (s : State) (r : Nat) (out : Mdesc) : Bool :=
  let c := rcfgOf s r
  !groupOn s (rcGroup c) || (out.fmt ≠ 0 && out.fmt ≠ 1) || rcTb c < out.cols * (fmtBits (rcRetFmt c) / 8)

/-- What ROUTE_SUBMIT does once its operands are in order. -/
def routeChecked (i : Iss) (slot : Nat) (out : Mdesc) : Act AsyncEnd := do
  let s ← look
  let r := cf i.w 4 0 10
  let tag := cf i.w 28 0 32
  let q := rcInQ (rcfgOf s r)
  if ctxRejects s r i.p then
    raiseCtx 0x4003 2 r i.p
    return .flags 0
  if ctxRefuses s r out then
    raiseCtx 0x4003 2 r i.p
    tagDone r tag 2 0
    return .flags 0
  modSubmits (fun l => l ++ [submitOf s i slot])
  eff (.tagsDone (s.tagsDone.filter (fun d => !(d.rctx == r && d.tag == tag))))
  if submitRoom s q && (queueOf s q).submits.isEmpty then landSubmit q (submitItem i)
  else modQueue q (fun d => { d with submits := d.submits ++ [(i.key, slot, submitItem i)] })
  return .later

theorem ends_routeSubmit {pay out : Mdesc} (h : Submits s th i slot pay out) {k : Unit → Prog} :
    Ends (asyncCmd th i.w 0 (fun _ => return false) routeSubmitBody k) s Q =
      Ends (routeChecked i slot out fun e => asyncEnd i slot (some (issuedNow (s.issued i) i)) e k) (s.started i slot) Q := by
  have hheld : i.held = none := canIssue_held h.issues.1.1
  have hpay : PlainOpd (s.started i slot) i (cAddr i.w 12) pay := h.payOpd
  have hout : PlainOpd (s.started i slot) i (cAddr i.w 20) out := h.outOpd
  have hpayIn : pay.inPart (s.started i slot) i.p = true := h.payIn
  have houtIn : out.inPart (s.started i slot) i.p = true := h.outIn
  have hclean : CleanMem (s.started i slot) := h.clean
  have hntok : ¬ (cf i.w 8 0 32 = 0 || 16777215 < cf i.w 8 0 32) = true := by
    have hsome := h.some
    have hfit := h.fit
    simp only [Bool.or_eq_true, decide_eq_true_eq]
    omega
  have hitem : ∀ a, i.item (s.started i slot) a = memItem (s.started i slot) a := fun a => by rw [Iss.item, hheld]
  rw [ends_asyncCmd_plain h.issues]
  simp only [routeSubmitBody, bind_apply, if_neg hntok, ends_readMdesc_plain hpay hheld hclean, ends_readMdesc_plain hout hheld hclean,
    look_apply, ends_look, hpayIn, houtIn, Bool.not_true, Bool.or_self, Bool.false_eq_true, if_false, hitem]
  rfl

theorem exec_routeSubmit {pay out : Mdesc} (h : Submits s th i slot pay out) :
    exec (.routeSubmit th i.w) s = finish (asyncCmd th i.w 0 (fun _ => return false) routeSubmitBody) s := by
  show finishIf (opIs 0x60 i.w) _ s = _
  rw [h.op, finishIf_true]

/-- The command has run, once its body has left the threads as they were. -/
theorem ends_ran {k : Unit → Prog} {held : Option Issued} {f : Flags} {t : State} (hc : Canon s) (hth : t.threads = (s.started i slot).threads)
    (hturns : t.turns = (s.started i slot).turns) (hQ : ∀ u, Ran s u i slot f → OnlyChanges t u [.threads] → Ends (k ()) u Q) :
    Ends (asyncEnd i slot held (.flags f) k) t Q := by
  rw [ends_flags hth hc.risingThreads]
  exact hQ _ ⟨threads_setThread_started hth hc.risingThreads _, hturns⟩ (onlyChanges_of_take rfl)

theorem onlyChanges_started (s : State) (i : Iss) (slot : Nat) : OnlyChanges s (s.started i slot) [.threads] := onlyChanges_of_take rfl

theorem routeSubmitBad_holds (s : State) (th : Thr) (w : Cmd) (i : Iss) (slot : Nat) (pay out : Mdesc) :
    (routeSubmitBad s th w i slot pay out).Holds := by
  rintro ⟨hissues, hop, hsome, hfit, hpay, hout, hpayIn, houtIn, hbad, hclean⟩
  obtain rfl : i.w = w := canIssue_word hissues.1.1
  have h : Submits s th i slot pay out := ⟨hissues, hop, hsome, hfit, hpay, hout, hpayIn, houtIn, hclean⟩
  refine answers_of_ends _ (exec_routeSubmit h) ?_
  have hrejects : ctxRejects (s.started i slot) (cf i.w 4 0 10) i.p = true := by
    show ctxRejects s (cf i.w 4 0 10) i.p = true
    rcases hbad with h | h <;> simp [ctxRejects, h]
  rw [ends_routeSubmit h]
  simp only [routeChecked, bind_apply, look_apply, ends_look, hrejects, if_true, raiseCtx, pure_apply]
  refine ends_raise (by decide) fun t ht => ?_
  have honly := ht.onlyChanges
  obtain ⟨hth, hturns⟩ := honly .threads (by decide)
  refine ends_ran hissues.2.2.2 hth hturns fun u hran hu => ?_
  refine ⟨hran, (hu .err (by decide)).trans ht.reported, fun off hoff => (hu .regs (by decide) off).trans (ht.regs off hoff), ?_⟩
  exact (((onlyChanges_started s i slot).mono (by decide)).trans (honly.mono (by decide))).trans (hu.mono (by decide))

/-- No thread of the table waits for the outcome of a tag. -/
def NoCombineWait (s : State) : Prop := ∀ e ∈ s.threads, ∀ r tg g, e.2.wait ≠ .combine r tg g

theorem NoCombineWait.started (h : NoCombineWait s) (i : Iss) (slot : Nat) : NoCombineWait (s.started i slot) := by
  intro e he
  rcases mem_tput (t := s.threads) he with rfl | he
  · intro r tg g
    rcases tget_mem {} s.threads i.key with hd | hm
    · show (tget {} s.threads i.key).wait ≠ _
      rw [hd]
      exact nofun
    · exact h _ hm r tg g
  · exact h e he

theorem routeSubmitRefused_holds (s : State) (th : Thr) (w : Cmd) (i : Iss) (slot : Nat) (pay out : Mdesc) :
    (routeSubmitRefused s th w i slot pay out).Holds := by
  rintro ⟨hissues, hop, hsome, hfit, hpay, hout, hpayIn, houtIn, hpart, hen, hqen, hcons, hunit, hbad, hquiet, hclean⟩
  obtain rfl : i.w = w := canIssue_word hissues.1.1
  have h : Submits s th i slot pay out := ⟨hissues, hop, hsome, hfit, hpay, hout, hpayIn, houtIn, hclean⟩
  refine answers_of_ends _ (exec_routeSubmit h) ?_
  have hrejects : ctxRejects (s.started i slot) (cf i.w 4 0 10) i.p = false := by
    show ctxRejects s (cf i.w 4 0 10) i.p = false
    simp [ctxRejects, hpart, hen, hqen, hcons, hunit]
  have hrefuses : ctxRefuses (s.started i slot) (cf i.w 4 0 10) out = true := by
    show ctxRefuses s (cf i.w 4 0 10) out = true
    rcases hbad with h | h | h
    · simp [ctxRefuses, h]
    · have h0 : out.fmt ≠ 0 := by omega
      have h1 : out.fmt ≠ 1 := by omega
      simp [ctxRefuses, h0, h1]
    · simp [ctxRefuses, h]
  rw [ends_routeSubmit h]
  simp only [routeChecked, bind_apply, look_apply, ends_look, hrejects, Bool.false_eq_true, if_false, hrefuses, if_true, raiseCtx, pure_apply]
  refine ends_raise (by decide) fun t ht => ?_
  have honly := ht.onlyChanges
  obtain ⟨hth, hturns⟩ := honly .threads (by decide)
  have hquiet' : NoCombineWait t := by rw [NoCombineWait, hth]; exact NoCombineWait.started hquiet i slot
  rw [ends_tagDone_quiet hquiet']
  refine ends_ran hissues.2.2.2 (by exact hth) (by exact hturns) fun u hran hu => ?_
  have htags : t.tagsDone = s.tagsDone := honly .tagsDone (by decide)
  refine ⟨hran, ?_, ?_, (hu .err (by decide)).trans ht.reported, fun off hoff => (hu .regs (by decide) off).trans (ht.regs off hoff), ?_⟩
  · exact (hu .submits (by decide)).trans (honly .submits (by decide))
  · exact (hu .tagsDone (by decide)).trans (by rw [htags])
  · refine (((onlyChanges_started s i slot).mono (by decide)).trans (honly.mono (by decide))).trans (OnlyChanges.trans ?_ (hu.mono (by decide)))
    exact onlyChanges_of_take rfl

/-- A submit of a ROUTE_SUBMIT that passes every check stands with the others, and its earlier outcome is forgotten. -/
def State.submitted (s : State) (i : Iss) (slot : Nat) : State :=
  { s.started i slot with
    submits := s.submits ++ [submitOf s i slot]
    tagsDone := s.tagsDone.filter (fun d => !(d.rctx == cf i.w 4 0 10 && d.tag == cf i.w 28 0 32)) }

theorem ends_routeChecked_ok {out : Mdesc} {q : Nat} {k : AsyncEnd → Prog} (hq : rcInQ (rcfgOf s (cf i.w 4 0 10)) = q)
    (hrejects : ctxRejects s (cf i.w 4 0 10) i.p = false) (hrefuses : ctxRefuses s (cf i.w 4 0 10) out = false) :
    Ends (routeChecked i slot out k) (s.started i slot) Q =
      if submitRoom s q && (queueOf s q).submits.isEmpty then Ends (landSubmit q (submitItem i) fun _ => k .later) (s.submitted i slot) Q
      else Ends (k .later) ((s.submitted i slot).setQueue q
        { queueOf s q with submits := (queueOf s q).submits ++ [(i.key, slot, submitItem i)] }) Q := by
  have hrejects' : ctxRejects (s.started i slot) (cf i.w 4 0 10) i.p = false := hrejects
  have hrefuses' : ctxRefuses (s.started i slot) (cf i.w 4 0 10) out = false := hrefuses
  have hq' : rcInQ (rcfgOf (s.started i slot) (cf i.w 4 0 10)) = q := hq
  simp only [routeChecked, bind_apply, look_apply, ends_look, hrejects', Bool.false_eq_true, if_false, hrefuses', ends_modSubmits, eff_apply,
    ends_eff, hq', ends_ite_act, ends_modQueue, pure_apply]
  rfl

/-- The command has issued for good: its thread has moved on, and the rest is as its body left it. -/
theorem ends_underWay {k : Unit → Prog} {held : Option Issued} {t : State} (hissues : Issues s th i.w i slot)
    (hth : t.threads = (s.started i slot).threads)
    (hQ : ∀ u, u.threads = (s.moved i none (asyncPut slot { w := i.w, phase := .running })).threads → OnlyChanges t u [.threads] →
      Ends (k ()) u Q) : Ends (asyncEnd i slot held .later k) t Q := by
  have hr : Rising s.threads := Canon.risingThreads hissues.2.2.2
  rw [ends_later hth hr]
  exact hQ _ (threads_setThread_started hth hr _) (onlyChanges_of_take rfl)

theorem onlyChanges_submitted (s : State) (i : Iss) (slot : Nat) : OnlyChanges s (s.submitted i slot) [.submits, .tagsDone, .threads] :=
  onlyChanges_of_take rfl

theorem onlyChanges_setQueue (s : State) (q : Nat) (d : Queue) : OnlyChanges s (s.setQueue q d) [.queues] := onlyChanges_of_take rfl

/-- A context that takes the submit of a ROUTE_SUBMIT. -/
theorem ctxTakes {out : Mdesc} (hpart : rcPart (rcfgOf s (cf i.w 4 0 10)) = i.p) (hen : rcEn (rcfgOf s (cf i.w 4 0 10)) = true)
    (hgroup : groupOn s (rcGroup (rcfgOf s (cf i.w 4 0 10))) = true) (hqen : qEn s (rcInQ (rcfgOf s (cf i.w 4 0 10))) = true)
    (hcons : qCons s (rcInQ (rcfgOf s (cf i.w 4 0 10))) = 1) (hunit : qCunit s (rcInQ (rcfgOf s (cf i.w 4 0 10))) = cf i.w 4 0 10 / 256)
    (hfmt : out.fmt ≤ 1) (htb : out.cols * (fmtBits (rcRetFmt (rcfgOf s (cf i.w 4 0 10))) / 8) ≤ rcTb (rcfgOf s (cf i.w 4 0 10))) :
    ctxRejects s (cf i.w 4 0 10) i.p = false ∧ ctxRefuses s (cf i.w 4 0 10) out = false := by
  have hfmt' : (decide (out.fmt ≠ 0) && decide (out.fmt ≠ 1)) = false := by
    simp only [Bool.and_eq_false_iff, decide_eq_false_iff_not]
    omega
  refine ⟨by simp [ctxRejects, hpart, hen, hqen, hcons, hunit], ?_⟩
  rw [ctxRefuses, hgroup, hfmt', decide_eq_false (Nat.not_lt.2 htb)]
  rfl

theorem routeSubmitWaits_holds (s : State) (th : Thr) (w : Cmd) (i : Iss) (slot : Nat) (pay out : Mdesc) :
    (routeSubmitWaits s th w i slot pay out).Holds := by
  rintro ⟨hissues, hop, hsome, hfit, hpay, hout, hpayIn, houtIn, hpart, hen, hgroup, hqen, hcons, hunit, hfmt, htb, hfull, hclean⟩
  obtain rfl : i.w = w := canIssue_word hissues.1.1
  have h : Submits s th i slot pay out := ⟨hissues, hop, hsome, hfit, hpay, hout, hpayIn, houtIn, hclean⟩
  obtain ⟨hrejects, hrefuses⟩ := ctxTakes hpart hen hgroup hqen hcons hunit hfmt htb
  have hq : Rising s.queues := Canon.risingQueues hissues.2.2.2
  refine answers_of_ends _ (exec_routeSubmit h) ?_
  generalize hqq : rcInQ (rcfgOf s (cf i.w 4 0 10)) = q at hfull ⊢
  have hroom : (submitRoom s q && (queueOf s q).submits.isEmpty) = false := by simp [submitRoom, hfull]
  rw [ends_routeSubmit h, ends_routeChecked_ok hqq hrejects hrefuses, hroom, if_neg Bool.false_ne_true]
  refine ends_underWay hissues rfl fun u hu honly => ?_
  rw [ends_done]
  refine ⟨(honly .submits (by decide)).trans rfl, (honly .tagsDone (by decide)).trans rfl, ?_, hu, ?_⟩
  · exact (honly.queueOf (by decide) q).trans (queueOf_setQueue_same (s := s.submitted i slot) _ q hq)
  · exact (((onlyChanges_submitted s i slot).mono (by decide)).trans ((onlyChanges_setQueue _ _ _).mono (by decide))).trans
      (honly.mono (by decide))

/-! ## The landing of a submit item (R56, R86) -/

/-- A queue with a submit item at its tail. -/
def Queue.land (d : Queue) (x : Item) (now : Nat) : Queue :=
  { d with items := d.items ++ [{ data := x ||| ((1 : Item) <<< 511), last := true, gap := false, sub := true, at_ := now }]
           since := if d.items.isEmpty then now else d.since }

/-- The state after a submit item has landed in a queue that signals nothing. -/
def State.landed (s : State) (q : Nat) (x : Item) : State := (s.accepted q x true).setQueue q ((queueOf s q).land x s.time.now)

theorem ends_landSubmit_silent {q : Nat} {x : Item} {k : Unit → Prog} (hclean : CleanMem s) (hdir : s.fab.dir = []) (hq : Rising s.queues)
    (harr : qArrEn s q = false) : Ends (landSubmit q x k) s Q = Ends (k ()) (s.landed q x) Q := by
  have hread := queueOf_accepted (s := s) (q := q) x true hq
  simp only [landSubmit, bind_apply, ends_qAccept_silent hclean hdir hq harr, ends_modQueue, hread]
  simp only [Queue.accept, List.dropLast_concat, List.length_append, List.length_cons, List.length_nil, Nat.zero_add, Nat.add_sub_cancel,
    List.drop_left, List.map_cons, List.map_nil]
  rfl

/-- What a landing leaves behind. -/
theorem landed_landed {q : Nat} (x : Item) (hq : Rising s.queues) (hr : Rising s.regs) (hlt : q < 4096) :
    queueOf (s.landed q x) q = (queueOf s q).land x s.time.now ∧
      MemBut s (s.landed q x) (qBase s q + 64 * (((queueOf s q).head + (queueOf s q).items.length) % qDepth s q)) 64 ∧
      regOf (s.landed q x) (rQcnt q 0) = regOf s (rQcnt q 0) + 1 ∧ RegsBut s (s.landed q x) [rQcnt q 0, 0x2A0000 + q * 0x10] ∧
      OnlyChanges s (s.landed q x) [.queues, .mem, .regs] := by
  have hq' : Rising (s.accepted q x true).queues := tput_rising _ _ _ _ hq
  refine ⟨queueOf_setQueue_same _ q hq', ?_, count_accepted x true hr hlt, regsBut_accepted s q x true, ?_⟩
  · have hbut := memBut_putMem (s.setQueue q ((queueOf s q).accept x true s.time.now))
      (qBase s q + 64 * (((queueOf s q).head + (queueOf s q).items.length) % qDepth s q)) (natBytes 64 (x ||| ((1 : Item) <<< 511)).toNat)
    rw [length_natBytes] at hbut
    exact memBut_of_mem_eq hbut rfl
  · exact (onlyChanges_accepted s q x true).trans ((onlyChanges_setQueue _ _ _).mono (by decide))

theorem rcInQ_lt (c : Item) : rcInQ c < 4096 := bitsOf_lt _ _ _

theorem routeSubmit_holds (s : State) (th : Thr) (w : Cmd) (i : Iss) (slot : Nat) (pay out : Mdesc) :
    (routeSubmit s th w i slot pay out).Holds := by
  rintro ⟨hissues, hop, hsome, hfit, hpay, hout, hpayIn, houtIn, hpart, hen, hgroup, hqen, hcons, hunit, hfmt, htb, hfree, hnone, harr,
    hdir, hclean⟩
  obtain rfl : i.w = w := canIssue_word hissues.1.1
  have h : Submits s th i slot pay out := ⟨hissues, hop, hsome, hfit, hpay, hout, hpayIn, houtIn, hclean⟩
  obtain ⟨hrejects, hrefuses⟩ := ctxTakes hpart hen hgroup hqen hcons hunit hfmt htb
  have hc : Canon s := hissues.2.2.2
  have hlt := rcInQ_lt (rcfgOf s (cf i.w 4 0 10))
  refine answers_of_ends _ (exec_routeSubmit h) ?_
  generalize hqq : rcInQ (rcfgOf s (cf i.w 4 0 10)) = q at hfree hnone harr hlt ⊢
  have hroom : (submitRoom s q && (queueOf s q).submits.isEmpty) = true := by simp [submitRoom, hfree, hnone]
  have hclean' : CleanMem (s.submitted i slot) := hclean
  have hdir' : (s.submitted i slot).fab.dir = [] := hdir
  have harr' : qArrEn (s.submitted i slot) q = false := harr
  have hq' : Rising (s.submitted i slot).queues := hc.risingQueues
  rw [ends_routeSubmit h, ends_routeChecked_ok hqq hrejects hrefuses, if_pos hroom, ends_landSubmit_silent hclean' hdir' hq' harr']
  obtain ⟨hqueue, hmem, hcount, hregs, hland⟩ := landed_landed (s := s.submitted i slot) (submitItem i) hq' hc.rising hlt
  refine ends_underWay hissues (hland .threads (by decide)).1 fun u hu honly => ?_
  rw [ends_done]
  have hall := hland.mono (more := [.queues, .mem, .regs, .threads]) (by decide) |>.trans (honly.mono (by decide))
  refine ⟨(hall .submits (by decide)).trans rfl, (hall .tagsDone (by decide)).trans rfl, ⟨?_, ?_, ?_⟩, hu, fun off hoff => ?_, ?_⟩
  · rw [honly.queueOf (by decide), hqueue]
    show (queueOf s q).land (submitItem i) s.time.now = _
    simp [Queue.land, hnone]
  · exact fun x hx => (honly .mem (by decide) x).trans (hmem x hx)
  · exact (honly .regs (by decide) _).trans hcount
  · exact (honly .regs (by decide) _).trans (hregs off hoff)
  · exact ((onlyChanges_submitted s i slot).mono (by decide)).trans (hall.mono (by decide))

theorem submitItemLand_holds (s : State) (q : Fin 4096) (k slot : Nat) (x : Item) : (submitItemLand s q k slot x).Holds := by
  rintro ⟨hsub, hfree, harr, hdir, hclean, hc⟩
  have hq := hc.risingQueues
  have hroom : submitRoom s q = true := by simp [submitRoom, hfree]
  refine answers_of_ends (submitLand q) rfl ?_
  set d : Queue := { queueOf s q with submits := [] } with hd
  set a := s.setQueue q d with ha
  have hread : queueOf a q = d := queueOf_setQueue_same d q hq
  have hmod : ∀ m : Unit → Prog, Ends (modQueue q (fun d => { d with submits := [] }) m) s = Ends (m ()) a := fun _ => rfl
  have hclean' : CleanMem a := hclean
  have hdir' : a.fab.dir = [] := hdir
  have harr' : qArrEn a q = false := harr
  have hq' : Rising a.queues := tput_rising _ _ _ _ hq
  simp only [submitLand, bind_apply, look_apply, ends_look, hsub, hroom, if_true, hmod, ends_landSubmit_silent hclean' hdir' hq' harr',
    List.any_nil, Bool.not_false, Bool.and_true, decide_eq_true_eq]
  obtain ⟨hqueue, hmem, hcount, hregs, hland⟩ := landed_landed (s := a) x hq' hc.rising q.isLt
  rw [hread] at hqueue hmem
  have hlanded : ∀ u, OnlyChanges (a.landed q x) u [.threads] → Landed s u q x [] := fun u hu => by
    refine ⟨?_, fun y hy => (hu .mem (by decide) y).trans (hmem y hy), (hu .regs (by decide) _).trans hcount⟩
    rw [hu.queueOf (by decide), hqueue]
    rfl
  have hsa : OnlyChanges s a [.queues, .mem, .regs, .threads] := (onlyChanges_setQueue s q d).mono (by decide)
  have hth : ∀ j, threadOf (a.landed q x) j = threadOf s j := hland.threadOf (by decide)
  have hrt : Rising (a.landed q x).threads := by rw [(hland .threads (by decide)).1]; exact hc.risingThreads
  rw [hth, ends_ite_act]
  split
  · next hwait =>
    rw [reissue, ends_modThread, ends_done, hth]
    have hu : OnlyChanges (a.landed q x) ((a.landed q x).setThread k { threadOf s k with wait := .met, hdrDone := true, cur := none }) [.threads] :=
      onlyChanges_of_take rfl
    refine ⟨hlanded _ hu, threadOf_setThread_same _ _ hrt, fun j hj => (threadOf_setThread_ne _ hj).trans (hth j), fun off hoff => hregs off hoff, ?_⟩
    exact (hsa.trans (hland.mono (by decide))).trans (hu.mono (by decide))
  · next hwait =>
    rw [pure_apply, ends_done]
    exact ⟨hlanded _ fun y _ => by cases y <;> simp [Piece.Same], hth k, fun j _ => hth j, hregs, hsa.trans (hland.mono (by decide))⟩

/-! ## The reading of a submit item (R23, R53, R56) -/

/-- A table that reads its default at a place keeps it when the default is written there. -/
theorem tput_default {α : Type} [DecidableEq α] (d : α) (t : Tbl α) (k : Nat) (h : tblWf (fun _ => d) t = true) (hk : tget d t k = d) :
    tput d t k d = t := by
  obtain ⟨hrise, hne⟩ := (tblWf_iff _ _).1 h
  clear h
  induction t with
  | nil => simp [tput]
  | cons e t ih =>
    obtain ⟨k', v⟩ := e
    have hv : v ≠ d := hne (k', v) List.mem_cons_self
    have hkne : k ≠ k' := by
      rintro rfl
      exact hv (by simpa [tget] using hk)
    have hrest : tget d t k = d := by simpa [tget, Ne.symm hkne] using hk
    have hind := ih hrest (List.pairwise_cons.1 hrise).2 fun e he => hne e (List.mem_cons_of_mem _ he)
    by_cases hlt : k < k' <;> simp [tput, hlt, hkne, hind]

/-- A route context does not depend on the registers below those of the Sedge dies. -/
theorem rcfgOf_congr {t : State} (h : ∀ off, 0x600000 ≤ off → regOf t off = regOf s off) (r : Nat) : rcfgOf t r = rcfgOf s r := by
  have hword : ∀ k, regOf t (rRctx (r / 256) (r % 256) k) = regOf s (rRctx (r / 256) (r % 256) k) := fun k =>
    h _ (by simp only [rRctx, rSre]; omega)
  simp only [rcfgOf, hword]

/-- A use of a layer changes nothing where a die holds none. -/
theorem ends_slotUse_empty {se p layer : Nat} {gen : BitVec 32} {k : Unit → Prog} (hept : tblWf (fun _ => []) s.eptSlots = true)
    (h : slotsOf s se = []) : Ends (slotUse se p gen layer k) s Q = Ends (k ()) s Q := by
  have hput : tput [] s.eptSlots se [] = s.eptSlots := tput_default [] s.eptSlots se hept h
  simp only [slotUse, bind_apply, look_apply, ends_look, h, List.filter_nil, List.append_nil, eff_apply, ends_eff, Effect.apply, hput]

/-- What a read submit does about its layer (R64): a wait for a slot counts, and a resident layer is the most recently used. -/
def useLayer (se : Nat) (u : Submit) : Act Unit := do
  let s ← look
  if !layerReady s u && 16 ≤ (slotsOf s se).length && (slotsOf s se).all (slotPinned s se) then countEptWait u
  if layerReady s u then slotUse se u.part u.eptGen u.layer

theorem ends_useLayer_quiet {se : Nat} {u : Submit} {k : Unit → Prog} (hept : tblWf (fun _ => []) s.eptSlots = true)
    (h : layerReady s u = false ∧ (slotsOf s se).length < 16 ∨ layerReady s u = true ∧ slotsOf s se = []) :
    Ends (useLayer se u k) s Q = Ends (k ()) s Q := by
  rcases h with ⟨hready, hlen⟩ | ⟨hready, hnone⟩
  · simp only [useLayer, bind_apply, look_apply, ends_look, hready, decide_eq_false (Nat.not_le.2 hlen), Bool.and_false, Bool.false_and,
      Bool.false_eq_true, if_false, pure_apply]
  · simp only [useLayer, bind_apply, look_apply, ends_look, hready, Bool.not_true, Bool.false_and, Bool.false_eq_true, if_false, if_true,
      ends_slotUse_empty hept hnone]

/-- A submit with its context and EPT generation as they stand (R23). -/
abbrev freshLayer (s : State) (u : Submit) : Submit :=
  { u with cfg := rcfgOf s u.rctx, eptGen := (partOf s u.part).eptGen, eptBase := (partOf s u.part).eptBase }

/-- A submit whose logit packets come next. -/
abbrev readingNow (s : State) (u : Submit) : Submit := { freshLayer s u with phase := .reading }

theorem sreSubmitItemRead_holds (s : State) (se : Fin 4) (q : Fin 4096) (x : QItem) (rest : List QItem) (u : Submit) :
    (sreSubmitItemRead s se q x rest u).Holds := by
  rintro ⟨hreads, hitems, hsubItem, hgap, hsub, hphase, hrctx, htag, hen, hpart, hin, hlayer⟩
  have hmay := mayTake_of_sreReads hreads
  obtain ⟨-, hothers, htd, hjob, hw, hclean, hc⟩ := hreads
  have hkick : NoKick s := fun e he => (hothers e he).1
  have hidle : readingOn s q = none := by simp [readingOn, hsub, hphase]
  have hpsub : (s.popped q rest).submits = [u] := hsub
  have hfind : [u].find? (fun u => u.phase == .waiting && u.rctx == ibits x.data 32 10 && u.tag == ibits x.data 224 32) = some u := by
    simp [hphase, hrctx, htag]
  refine answers_of_ends (submitRead se q) rfl ?_
  simp only [submitRead, bind_apply, look_apply, ends_look, hitems, hmay, hsubItem, Bool.not_true, Bool.or_self, Bool.false_eq_true, if_false,
    hidle, htd, hjob, ne_eq, not_true_eq_false, decide_false, ends_qPopItem_clean hitems hw hclean hc.risingQueues,
    ends_packetEnd_noKick (hkick.popped q rest), hpsub, hfind]
  rw [← hrctx]
  have hregs : RegsBut s (s.popped q rest) (popRegs q) := regsBut_popped s q rest
  have honly : OnlyChanges s (s.popped q rest) [.queues, .regs] := onlyChanges_popped s q rest
  have hpopped : Popped s (s.popped q rest) q rest := queueOf_popped rest hc.risingQueues
  generalize s.popped q rest = p at hregs honly hpopped hpsub ⊢
  have hcfg : rcfgOf p u.rctx = rcfgOf s u.rctx := rcfgOf_congr (fun off hoff => hregs off (by
    simp only [popRegs, rQcnt, List.mem_cons, List.not_mem_nil, or_false]
    omega)) _
  have hpartOf : partOf p u.part = partOf s u.part := honly.partOf (by decide) _
  have hslots : p.eptSlots = s.eptSlots := honly .eptSlots (by decide)
  have hok : (x.gap || !rcEn (rcfgOf s u.rctx) || decide ¬rcPart (rcfgOf s u.rctx) = u.part || decide ¬rcInQ (rcfgOf s u.rctx) = q) = false := by
    simp [hgap, hen, hpart, hin]
  rw [hcfg, hpartOf, hok, if_neg Bool.false_ne_true, bind_apply, ends_modSubmit_only hpsub]
  have hept : tblWf (fun _ => []) p.eptSlots = true := by
    obtain ⟨-, -, -, -, -, -, -, -, -, -, hept, -⟩ := hc
    rwa [hslots]
  have hlayer' : layerReady { p with submits := [readingNow s u] } (freshLayer s u) = false ∧ (slotsOf { p with submits := [readingNow s u] } se).length < 16 ∨
      layerReady { p with submits := [readingNow s u] } (freshLayer s u) = true ∧ slotsOf { p with submits := [readingNow s u] } se = [] := by
    rcases hlayer with ⟨hready, hlen⟩ | ⟨-, hgen, hnone⟩
    · refine .inl ⟨?_, ?_⟩
      · simpa only [layerReady, slotsOf, hslots] using hready
      · rwa [slotsOf, hslots]
    · refine .inr ⟨by simp [layerReady, hgen], ?_⟩
      rwa [slotsOf, hslots]
  refine (ends_useLayer_quiet (k := fun _ => .done) (by exact hept) hlayer').mpr ?_
  exact ⟨rfl, hpopped, hregs, (honly.mono (by decide)).trans (onlyChanges_of_take rfl)⟩

/-- Settles O31: each clause by the state that its command leaves. -/
theorem routeSubmits : Obligations.RouteSubmits := by
  unfold Obligations.RouteSubmits
  intro s se c word v th w i slot pay out q k x y rest u e cmd
  exact ⟨routeContextWrite_holds s se c word v, routeContextRefused_holds s se c word v, routeSubmit_holds s th w i slot pay out,
    routeSubmitWaits_holds s th w i slot pay out, routeSubmitBad_holds s th w i slot pay out, routeSubmitRefused_holds s th w i slot pay out,
    submitItemLand_holds s q k slot x, sreSubmitItemRead_holds s se q y rest u, sreLowerWaits_holds s se q e cmd,
    sreLaterWaits_holds s se q e cmd⟩

end Sys2Proof.Machine
end

section
/-!
SUPPORT. A partition's contexts: their states, the next that comes in, and a map that comes into force.
-/

namespace Sys2Proof.Machine

open Sys2Proof.Claims

variable {s : State} {Q : State → Prop} {p c : Nat}

/-! ## Tables -/

/-- An entry of a table whose keys rise is what the table holds under its key. -/
theorem tget_of_mem {α : Type} (d : α) {t : Tbl α} {k : Nat} {v : α} (hr : Rising t) (h : (k, v) ∈ t) : tget d t k = v := by
  induction t with
  | nil => cases h
  | cons e t ih =>
    obtain ⟨hlt, hrest⟩ := List.pairwise_cons.1 hr
    rcases List.mem_cons.1 h with rfl | h
    · exact if_pos rfl
    · have hne : e.1 ≠ k := (hlt _ h).ne
      rw [tget, if_neg hne]
      exact ih hrest h

/-- In a canonical table, writing what it holds changes nothing. -/
theorem tput_tget_self {α : Type} [DecidableEq α] (d : α) (t : Tbl α) (k : Nat) (h : tblWf (fun _ => d) t = true) :
    tput d t k (tget d t k) = t := by
  rcases tget_mem d t k with hd | hm
  · rw [hd]
    exact tput_default d t k h hd
  · obtain ⟨hr, hne⟩ := (tblWf_iff _ _).1 h
    have hv : tget d t k ≠ d := hne _ hm
    generalize tget d t k = v at hm hv
    clear h hne
    induction t with
    | nil => cases hm
    | cons e t ih =>
      obtain ⟨hlt, hrest⟩ := List.pairwise_cons.1 hr
      rcases List.mem_cons.1 hm with rfl | hm
      · simp [tput, hv]
      · have hlt' := hlt _ hm
        have htail := ih hrest hm
        obtain ⟨k', v'⟩ := e
        simp only [tput, if_neg (Nat.not_lt.2 (Nat.le_of_lt hlt')), if_neg (Nat.ne_of_gt hlt'), htail]

theorem setPart_partOf (h : tblWf (fun _ => ({} : Part)) s.parts = true) (p : Nat) : s.setPart p (partOf s p) = s := by
  have htab := tput_tget_self {} s.parts p h
  rw [State.setPart, Effect.apply, partOf, htab]

theorem onlyChanges_setPart (s : State) (p : Nat) (d : Part) : OnlyChanges s (s.setPart p d) [.parts] := onlyChanges_of_take rfl
theorem onlyChanges_setThread (s : State) (k : Nat) (th : Thread) : OnlyChanges s (s.setThread k th) [.threads] := onlyChanges_of_take rfl
theorem rising_setPart (h : Rising s.parts) (p : Nat) (d : Part) : Rising (s.setPart p d).parts := tput_rising _ _ _ _ h

/-- The threads of a context are what the table holds under their keys. -/
theorem threadOf_of_ctxThreads {k : Nat} {th : Thread} (hr : Rising s.threads) (h : (k, th) ∈ ctxThreads s p c) :
    threadOf s k = th ∧ k / 16 / 2048 = ctxKey p c := by
  obtain ⟨hm, hk⟩ := List.mem_filter.1 h
  exact ⟨tget_of_mem _ hr hm, by simpa using hk⟩

/-- A loop whose body does nothing for any element. -/
theorem ends_forIn_id {γ : Type} {l : List γ} {f : γ → PUnit → Act (ForInStep PUnit)}
    (h : ∀ x ∈ l, ∀ k, Ends (f x PUnit.unit k) s Q = Ends (k (.yield PUnit.unit)) s Q) (k : PUnit → Prog) :
    Ends ((forIn l PUnit.unit f : Act PUnit) k) s Q = Ends (k PUnit.unit) s Q := by
  induction l with
  | nil => rfl
  | cons x l ih =>
    rw [List.forIn_cons, bind_apply, h x (by simp)]
    exact ih fun y hy => h y (by simp [hy])

/-! ## Context states (R293) -/

theorem rCtx_eq (p c w : Nat) : rCtx p c w = 0xC00000 + p * 0x4000 + (0xA00 + c * 0x20 + w * 8) := rfl
theorem rPart_eq (p off : Nat) : rPart p off = 0xC00000 + p * 0x4000 + off := rfl

theorem rCtx_ne_rPart {off : Nat} (h : off < 0xA00) (c : Nat) : rPart p off ≠ rCtx p c 0 := by
  simp only [rPart_eq, rCtx_eq]
  omega

theorem rCtx_ne_rCtx {k : Nat} (h : k ≠ c) : rCtx p k 0 ≠ rCtx p c 0 := by
  simp only [rCtx_eq]
  omega

/-- No word below the partitions' pages is a context's or a partition's. -/
theorem ne_rPart_of_lt {off : Nat} (h : off < 0xC00000) (x : Nat) : off ≠ rPart p x := by
  simp only [rPart_eq]
  omega

theorem ends_setCtxState (st : Nat) (k : Unit → Prog) :
    Ends (setCtxState p c st k) s Q = Ends (k ()) (s.setField (rCtx p c 0) 56 3 st) Q := rfl

theorem onlyChanges_setField (s : State) (off lo len v : Nat) : OnlyChanges s (s.setField off lo len v) [.regs] := onlyChanges_setReg s _ _
theorem regsBut_setReg (s : State) (off v : Nat) : RegsBut s (s.setReg off v) [off] :=
  fun x hx => regOf_setReg_ne _ _ _ _ (by simpa using hx)
theorem regsBut_setField (s : State) (off lo len v : Nat) : RegsBut s (s.setField off lo len v) [off] := regsBut_setReg s _ _

theorem RegsBut.field {t : State} {offs : List Nat} (h : RegsBut s t offs) {off : Nat} (ho : off ∉ offs) (lo len : Nat) :
    fieldOf t off lo len = fieldOf s off lo len := by
  rw [fieldOf, h off ho, fieldOf]

/-- The state of a job is a field of its word. -/
theorem RegsBut.jobState {t : State} {offs : List Nat} (h : RegsBut s t offs) (ho : rPart p 0x10 ∉ offs) : jobState t p = jobState s p :=
  h.field ho 32 2

theorem ctxState_setField_same (hr : Rising s.regs) {st : Nat} (h : st < 8) : ctxState (s.setField (rCtx p c 0) 56 3 st) p c = st := by
  rw [ctxState, fieldOf_setField_same _ _ _ _ _ hr (by decide)]
  omega

/-! ## The next context (R294) -/

/-- What the choice of the next context reads. -/
theorem nextReady_congr {t : State} (hlast : (partOf t p).lastRun = (partOf s p).lastRun) (hst : ∀ k, k < 16 → ctxState t p k = ctxState s p k) :
    nextReady t p = nextReady s p := by
  rw [nextReady, nextReady, hlast]
  refine List.find?_congr fun k hk => ?_
  obtain ⟨j, -, rfl⟩ := List.mem_map.1 hk
  rw [hst _ (Nat.mod_lt _ (by decide))]

theorem nextReady_none (h : ∀ k, k < 16 → ctxState s p k ≠ 1) : nextReady s p = none := by
  refine List.find?_eq_none.2 fun k hk => ?_
  obtain ⟨j, -, rfl⟩ := List.mem_map.1 hk
  simpa using h _ (Nat.mod_lt _ (by decide))

/-- Where the partition's job does not run, a context runs, comes or goes, or no context is READY, none comes in. -/
theorem ends_schedule_none (h : (partOf s p).running.isSome = true ∨ (partOf s p).switching ≠ .none ∨ nextReady s p = none) (k : Unit → Prog) :
    Ends (schedule p k) s Q = Ends (k ()) s Q := by
  simp only [schedule, bind_apply, look_apply, ends_look, ends_ite_act]
  split
  · next hc =>
    simp only [Bool.and_eq_true, beq_iff_eq, Option.isNone_iff_eq_none] at hc
    obtain ⟨⟨-, hrun⟩, hsw⟩ := hc
    rcases h with h | h | h
    · simp [hrun] at h
    · exact absurd hsw h
    · simp only [h, pure_apply]
  · rfl

theorem ends_schedule_some {d : Nat} (hjob : jobState s p = 2) (htd : (partOf s p).td = .none) (hrun : (partOf s p).running = none)
    (hsw : (partOf s p).switching = .none) (hd : nextReady s p = some d) (k : Unit → Prog) :
    Ends (schedule p k) s Q = Ends (k ()) (s.setPart p { partOf s p with incoming := some d, switching := .restoring }) Q := by
  have hcond : (jobState s p = 2 && (partOf s p).td == .none && (partOf s p).running.isNone && (partOf s p).switching == .none) = true := by
    simp [hjob, htd, hrun, hsw]
  simp only [schedule, bind_apply, look_apply, ends_look, if_pos hcond, hd, ends_modPart]

/-! ## A map comes into force (R23, R289, R302) -/

theorem ends_applyMap_none (h : (partOf s p).mapNext = none) (k : Unit → Prog) : Ends (applyMap p k) s Q = Ends (k ()) s Q := by
  simp only [applyMap, bind_apply, look_apply, ends_look, h, pure_apply]

theorem coreOfPart_congr {t : State} {q core : Nat} (hmap : (partOf t q).map = (partOf s q).map)
    (hreg : ∀ x, x < 32 → regOf t (0x100 + x * 8) = regOf s (0x100 + x * 8)) : coreOfPart t q core = coreOfPart s q core := by
  rw [coreOfPart, coreOfPart, hmap, coreEnabled, coreEnabled]
  by_cases h : core < 2048
  · rw [fieldOf, fieldOf, hreg (core / 64) (by omega)]
  · simp [h]

theorem partCores_congr {t : State} {q : Nat} (hmap : (partOf t q).map = (partOf s q).map)
    (hreg : ∀ x, x < 32 → regOf t (0x100 + x * 8) = regOf s (0x100 + x * 8)) : partCores t q = partCores s q := by
  have hall : coreOfPart t q = coreOfPart s q := funext fun core => coreOfPart_congr hmap hreg
  rw [partCores, partCores, hall]

/-- A map has come into force. -/
structure MapApplied (s u : State) (p : Nat) (m : PartMap) : Prop where
  parts : u.parts = (s.setPart p { partOf s p with map := m, mapNext := none }).parts
  word : regOf u (rPart p 8) = regOf (s.setField (rPart p 8) 34 1 0) (rPart p 8)
  awake : u.pw.awake = s.pw.awake.filter (fun c => (List.range 64).any (fun q => coreOfPart u q c))
  held : u.pw.held = s.pw.held
  waiting : u.pw.waiting = s.pw.waiting
  regs : RegsBut s u [rPart p 8, 0x040018]
  only : OnlyChanges s u [.parts, .regs, .pw]
  rising : Rising s.regs → Rising u.regs

/-- Giving back grants that nobody holds or asks for only notes GRANTED_W anew. -/
theorem ends_dropGrants_none {f : Grant → Bool} (hheld : ∀ g ∈ s.pw.held, f g = false) (hwait : ∀ g ∈ s.pw.waiting, f g = false) {k : Unit → Prog}
    (hQ : ∀ u, OnlyChanges s u [.regs, .pw] → RegsBut s u [0x040018] → u.pw.awake = s.pw.awake → u.pw.held = s.pw.held →
      u.pw.waiting = s.pw.waiting → (Rising s.regs → Rising u.regs) → Ends (k ()) u Q) : Ends (dropGrants f k) s Q := by
  have h1 : s.pw.held.filter (fun g => !f g) = s.pw.held := List.filter_eq_self.2 fun g hg => by simp [hheld g hg]
  have h2 : s.pw.waiting.filter (fun g => !f g) = s.pw.waiting := List.filter_eq_self.2 fun g hg => by simp [hwait g hg]
  simp only [dropGrants, noteGr, bind_apply, ends_modPw, look_apply, ends_look, ends_wrF, h1, h2]
  exact hQ _ (onlyChanges_of_take rfl) (regsBut_setField _ _ _ _ _) rfl rfl rfl (setField_rising _ _ _ _ _)

/-- Nobody is asked to wake where every core of the partition is awake. -/
theorem ends_askWakes_none (h : ∀ c ∈ partCores s p, c ∈ s.pw.awake) (k : Unit → Prog) : Ends (askWakes p k) s Q = Ends (k ()) s Q := by
  simp only [askWakes, bind_apply, look_apply, ends_look]
  refine ends_forIn_id (fun c hc k => ?_) _
  have hin : s.pw.awake.contains c = true := List.contains_iff_mem.2 (h c hc)
  simp only [hin, Bool.not_true, Bool.false_and, Bool.false_eq_true, if_false, pure_apply]

/-- Cores sleep for which no wake is asked or held. -/
theorem ends_sleepCores (f : Nat → Bool) (hno : ∀ c, NoGrant s (.wake c)) {k : Unit → Prog}
    (hQ : ∀ u, OnlyChanges s u [.regs, .pw] → RegsBut s u [0x040018] → u.pw.awake = s.pw.awake.filter (fun c => !f c) → u.pw.held = s.pw.held →
      u.pw.waiting = s.pw.waiting → (Rising s.regs → Rising u.regs) → Ends (k ()) u Q) : Ends (sleepCores f k) s Q := by
  have hwake : ∀ g : Grant, (∀ c, g.who ≠ .wake c) → (match g.who with | .wake c => f c | _ => false) = false := fun g hg => by
    cases hwho : g.who with
    | wake c => exact absurd hwho (hg c)
    | _ => rfl
  simp only [sleepCores, bind_apply, ends_modPw]
  refine ends_dropGrants_none (s := { s with pw := { s.pw with awake := s.pw.awake.filter (fun c => !f c) } }) (fun g hg => hwake g fun c => (hno c).1 g hg) (fun g hg => hwake g fun c => (hno c).2 g hg)
    fun u honly hregs hawake hheld hwait hrise => ?_
  exact hQ u ((onlyChanges_of_take rfl).trans honly) hregs hawake hheld hwait hrise

theorem ends_applyMap {m : PartMap} (h : (partOf s p).mapNext = some m) (hp : Rising s.parts) (hno : ∀ c, NoGrant s (.wake c))
    (hawake : jobState s p = 2 → ∀ c ∈ partCores (s.setPart p { partOf s p with map := m }) p, c ∈ s.pw.awake) (hlt : p < 64) {k : Unit → Prog}
    (hQ : ∀ u, MapApplied s u p m → Ends (k ()) u Q) : Ends (applyMap p k) s Q := by
  simp only [applyMap, bind_apply, look_apply, ends_look, h, ends_modPart, ends_wrF]
  set s1 := (s.setPart p { partOf s p with map := m, mapNext := none }).setField (rPart p 8) 34 1 0 with hs1
  have hregs1 : RegsBut s s1 [rPart p 8] := regsBut_setField (s.setPart p _) _ _ _ _
  have honly1 : OnlyChanges s s1 [.parts, .regs] := onlyChanges_of_take rfl
  have hword1 : regOf s1 (rPart p 8) = regOf (s.setField (rPart p 8) 34 1 0) (rPart p 8) := rfl
  have hparts1 : s1.parts = (s.setPart p { partOf s p with map := m, mapNext := none }).parts := rfl
  have hrise1 : Rising s.regs → Rising s1.regs := setField_rising (s.setPart p _) _ _ _ _
  have hpw1 : s1.pw = s.pw := rfl
  have hpart1 : partOf s1 p = { partOf s p with map := m, mapNext := none } := partOf_setPart_same _ p hp
  clear_value s1
  refine ends_sleepCores _ (fun c => by rw [NoGrant, hpw1]; exact hno c) fun u honly hregs hawakeU hheld hwait hrise => ?_
  have hlow : ∀ x, x < 32 → 0x100 + x * 8 ≠ 0x040018 ∧ 0x100 + x * 8 ≠ rPart p 8 := fun x hx =>
    ⟨by omega, ne_rPart_of_lt (by omega) 8⟩
  have hcore : ∀ q core, coreOfPart u q core = coreOfPart s1 q core := fun q core =>
    coreOfPart_congr (by rw [honly.partOf (by decide)]) fun x hx => hregs _ (by simpa using (hlow x hx).1)
  rw [hpw1] at hawakeU hheld hwait
  have happlied : MapApplied s u p m := by
    refine ⟨(honly .parts (by decide)).trans hparts1, ?_, ?_, hheld, hwait, ?_, ?_, fun hr => hrise (hrise1 hr)⟩
    · exact (hregs _ (by simpa using (ne_rPart_of_lt (by decide) 8).symm)).trans hword1
    · simp only [hawakeU, hcore, Bool.not_not]
    · exact regsBut_trans hregs1 hregs (by simp) (by simp)
    · exact (honly1.mono (by decide)).trans (honly.mono (by decide))
  simp only [ends_ite_act, pure_apply]
  split
  · next hjob =>
    have hjob' : jobState s p = 2 := (hregs1.jobState (by simp [rPart_eq])).symm.trans hjob
    rw [ends_askWakes_none]
    · exact hQ u happlied
    · intro c hc
      have hmap : (partOf u p).map = (partOf (s.setPart p { partOf s p with map := m }) p).map := by
        rw [honly.partOf (by decide), hpart1, partOf_setPart_same _ p hp]
      have hin := hc
      rw [partCores_congr hmap fun x hx => (happlied.regs _ (by simpa using ⟨(hlow x hx).2, (hlow x hx).1⟩))] at hin
      rw [happlied.awake, List.mem_filter, List.any_eq_true]
      exact ⟨hawake hjob' c hin, p, List.mem_range.2 hlt, (List.mem_filter.1 hc).2⟩
  · exact hQ u happlied

end Sys2Proof.Machine
end

section
/-!
SUPPORT. Commits of a partition's map (R289), and the ends of time slices (R294).
-/

namespace Sys2Proof.Machine

open Sys2Proof.Claims

variable {s : State} {Q : State → Prop}

/-! ## PART_MAP_COMMIT (R24, R26, R289) -/

theorem exec_partMapCommit {p : Fin 64} {w : Wr} (h : ByOwner s w.path) : exec (.partMapCommit p w) s = finish (mapCommitAct p w) s :=
  finish_ownerWrite_owner (mapCommitAct p w) h

theorem partMapRefused_holds (s : State) (p : Fin 64) (w : Wr) : (partMapRefused s p w).Holds := by
  rintro ⟨howner, hgo, hgen, hc⟩
  refine answers_of_ends (mapCommitAct p w) (exec_partMapCommit howner) ?_
  simp only [mapCommitAct, bind_apply, look_apply, ends_look, if_pos hgo, if_pos hgen]
  exact ends_ownDenied hc.rising fun u hu _ => hu

theorem partMapFails_holds (s : State) (p : Fin 64) (w : Wr) : (partMapFails s p w).Holds := by
  rintro ⟨⟨howner, -, hgo, hgen, hc⟩, hbad⟩
  refine answers_of_ends (mapCommitAct p w) (exec_partMapCommit howner) ?_
  simp only [mapCommitAct, bind_apply, look_apply, ends_look, if_pos hgo, hgen, ne_eq, not_true_eq_false, if_false, hbad, Bool.false_eq_true,
    ends_wrF]
  refine ends_raise (by decide) fun t ht => ?_
  have hnot : rPart p 8 ∉ errSrc dieMG := by
    simp only [rPart_eq, errSrc, dieMG, List.mem_cons, List.not_mem_nil, or_false]
    omega
  rw [ends_done]
  refine ⟨?_, ?_, ht.reported, regsBut_trans (regsBut_setField _ _ _ _ _) ht.regs (by simp) (by simp), ?_⟩
  · rw [ht.field hnot, fieldOf_setField_same _ _ _ _ _ hc.rising (by decide)]
    rfl
  · rw [ht.field hnot, fieldOf_setField_other _ _ _ _ _ _ _ hc.rising (by decide) (by decide)]
  · exact ((onlyChanges_setField _ _ _ _ _).mono (by decide)).trans ht.onlyChanges

/-- What a commit that passes leaves before a map comes into force: the state of the commit, and the map that waits. -/
structure MapStaged (s u : State) (p : Nat) (w : Wr) : Prop where
  part : partOf u p = { partOf s p with mapNext := some (stagedMap s p) }
  others : ∀ q, q ≠ p → partOf u q = partOf s q
  gen : fieldOf u (rPart p 8) 0 32 = wrBits w 0 32
  state : fieldOf u (rPart p 8) 32 2 = 2
  pending : fieldOf u (rPart p 8) 34 1 = if (partOf s p).mapNext.isSome = true ∨ jobState s p = 3 then 1 else fieldOf s (rPart p 8) 34 1
  regs : RegsBut s u [rPart p 8]
  only : OnlyChanges s u [.parts, .regs]
  rising : Rising u.regs
  risingParts : Rising u.parts

theorem bitsOf_commitWord {g : Nat} (h : g < 2 ^ 32) : bitsOf (g ||| 2 <<< 32) 0 32 = g ∧ bitsOf (g ||| 2 <<< 32) 32 2 = 2 := by
  constructor
  · rw [bitsOf_or, bitsOf_shiftLeft_below _ (by decide), Nat.or_zero, bitsOf, Nat.shiftRight_zero, Nat.mod_eq_of_lt h]
  · rw [bitsOf_or, bitsOf_shiftLeft_same, bitsOf_of_lt h _ (le_refl _), Nat.zero_or]
    rfl

/-- A field within one that has just been written. -/
theorem fieldOf_setField_within (off lo len v lo' len' : Nat) (h : Rising s.regs) (hw : lo + len ≤ 64) (hin : lo ≤ lo') (hlen : lo' + len' ≤ lo + len) :
    fieldOf (s.setField off lo len v) off lo' len' = bitsOf v (lo' - lo) len' := by
  have hsame := fieldOf_setField_same s off lo len v h hw
  rw [← bitsOf_mod_two_pow v (lo' - lo) len' len (by omega), ← hsame]
  refine Nat.eq_of_testBit_eq fun i => ?_
  simp only [fieldOf, testBit_bitsOf]
  by_cases hi : i < len'
  · rw [show lo + (lo' - lo + i) = lo' + i by omega, decide_eq_true (show lo' - lo + i < len by omega), Bool.true_and]
  · simp [hi]

/-- A commit that passes stages its map, and lets it come into force where the partition is idle and its job does not drain. -/
theorem ends_commit {p : Fin 64} {w : Wr} (h : MapGo s p w) (hok : mapOk s p = true) {k : Unit → Prog}
    (hQ : ∀ u, MapStaged s u p w → Ends ((if (partIdle s p && decide (jobState s p ≠ 3)) = true then applyMap p else pure ()) k) u Q) :
    Ends (mapCommitAct p w k) s Q := by
  obtain ⟨-, -, hgo, hgen, hc⟩ := h
  have hne : ¬ (BitVec.ofNat 32 (wrBits w 0 32) ≠ nextGen (BitVec.ofNat 32 (fieldOf s (rPart p 8) 0 32))) := not_not.2 hgen
  obtain ⟨hgenBits, hstateBits⟩ := bitsOf_commitWord (wrBits_lt w 0 32)
  have hmark : ∀ (c : Prop) [Decidable c] (m : Act Unit), Ends ((if c then wrF (rPart p 8) 34 1 1 >>= fun _ => m else m) k) s Q =
      Ends (m k) (if c then s.setField (rPart p 8) 34 1 1 else s) Q := fun c _ m => by split <;> rfl
  simp only [mapCommitAct, bind_apply, look_apply, ends_look, if_pos hgo, if_neg hne, if_pos hok, hmark, ends_modPart, ends_wrF]
  set s1 := if ((partOf s p).mapNext.isSome || decide (jobState s p = 3)) = true then s.setField (rPart p 8) 34 1 1 else s with hs1
  have hregs1 : RegsBut s s1 [rPart p 8] := by
    rw [hs1]
    split
    · exact regsBut_setField _ _ _ _ _
    · exact fun _ _ => rfl
  have hpend1 : fieldOf s1 (rPart p 8) 34 1 = if (partOf s p).mapNext.isSome = true ∨ jobState s p = 3 then 1 else fieldOf s (rPart p 8) 34 1 := by
    rw [hs1]
    by_cases hm : (partOf s p).mapNext.isSome = true ∨ jobState s p = 3
    · rw [if_pos (by simpa using hm), if_pos hm, fieldOf_setField_same _ _ _ _ _ hc.rising (by decide)]
      rfl
    · rw [if_neg (by simpa using hm), if_neg hm]
  have honly1 : OnlyChanges s s1 [.regs] := by
    rw [hs1]
    split
    · exact onlyChanges_setField _ _ _ _ _
    · exact onlyChanges_of_take rfl
  have hrise1 : Rising s1.regs := by
    rw [hs1]
    split
    · exact setField_rising _ _ _ _ _ hc.rising
    · exact hc.rising
  clear_value s1
  have hparts1 : Rising s1.parts := by
    rw [honly1 .parts (by decide)]
    exact hc.risingParts
  have hpart1 : partOf s1 p = partOf s p := honly1.partOf (by decide) p
  have hset := fun d : Part => onlyChanges_setPart s1 p d
  have hrise2 := fun d : Part => (show Rising (s1.setPart p d).regs from hrise1)
  have hpart2 : partOf (s1.setPart p { partOf s1 p with mapNext := some (stagedMap s p) }) p = { partOf s p with mapNext := some (stagedMap s p) } := by
    rw [partOf_setPart_same _ _ hparts1, hpart1]
  have hothers2 : ∀ q, q ≠ p.val → partOf (s1.setPart p { partOf s1 p with mapNext := some (stagedMap s p) }) q = partOf s q :=
    fun q hq => (partOf_setPart_ne _ hq).trans (honly1.partOf (by decide) q)
  have hparts2 := rising_setPart hparts1 p { partOf s1 p with mapNext := some (stagedMap s p) }
  generalize { partOf s1 p with mapNext := some (stagedMap s p) } = d at hpart2 hothers2 hparts2 ⊢
  replace hset := hset d
  replace hrise2 := hrise2 d
  generalize s1.setPart p d = s2 at hpart2 hothers2 hparts2 hset hrise2 ⊢
  refine hQ _ ⟨hpart2, hothers2, ?_, ?_, ?_, ?_, ?_, setField_rising _ _ _ _ _ hrise2, hparts2⟩
  · rw [fieldOf_setField_within _ _ _ _ 0 32 hrise2 (by decide) (by decide) (by decide)]
    exact hgenBits
  · rw [fieldOf_setField_within _ _ _ _ 32 2 hrise2 (by decide) (by decide) (by decide)]
    exact hstateBits
  · rw [fieldOf_setField_other _ _ _ _ _ _ _ hrise2 (by decide) (by decide), hset.field (by decide)]
    exact hpend1
  · exact regsBut_trans hregs1 (fun off ho => (regsBut_setField s2 _ _ _ _ off ho).trans (hset .regs (by decide) off)) (by simp) (by simp)
  · exact ((honly1.mono (by decide)).trans (hset.mono (by decide))).trans ((onlyChanges_setField _ _ _ _ _).mono (by decide))

theorem partMapPends_holds (s : State) (p : Fin 64) (w : Wr) : (partMapPends s p w).Holds := by
  rintro ⟨hgo, hok, hbusy⟩
  obtain ⟨howner, -⟩ := id hgo
  refine answers_of_ends (mapCommitAct p w) (exec_partMapCommit howner) (ends_commit hgo hok fun u hu => ?_)
  have hcond : (partIdle s p && decide (jobState s p ≠ 3)) = false := by
    rcases hbusy with h | h <;> simp [h]
  simp only [hcond, Bool.false_eq_true, if_false, pure_apply, ends_done]
  exact ⟨hu.part, hu.others, hu.gen, hu.state, hu.pending, hu.regs, hu.only⟩

/-- What a map in force leaves of the fields of its commit word. -/
theorem MapApplied.field {t u : State} {p : Nat} {m : PartMap} (h : MapApplied t u p m) (hr : Rising t.regs) {lo len : Nat} (hlo : lo + len ≤ 34) :
    fieldOf u (rPart p 8) lo len = fieldOf t (rPart p 8) lo len := by
  rw [fieldOf, h.word, ← fieldOf, fieldOf_setField_other _ _ _ _ _ _ _ hr (by decide) (.inr hlo)]

theorem MapApplied.pending {t u : State} {p : Nat} {m : PartMap} (h : MapApplied t u p m) (hr : Rising t.regs) : fieldOf u (rPart p 8) 34 1 = 0 := by
  rw [fieldOf, h.word, ← fieldOf, fieldOf_setField_same _ _ _ _ _ hr (by decide)]
  rfl

theorem MapApplied.part {t u : State} {p : Nat} {m : PartMap} (h : MapApplied t u p m) (hr : Rising t.parts) :
    partOf u p = { partOf t p with map := m, mapNext := none } := by
  rw [partOf, h.parts, ← partOf]
  exact partOf_setPart_same _ _ hr

theorem MapApplied.others {t u : State} {p : Nat} {m : PartMap} (h : MapApplied t u p m) {q : Nat} (hq : q ≠ p) : partOf u q = partOf t q := by
  rw [partOf, h.parts, ← partOf]
  exact partOf_setPart_ne _ hq

/-- The two forms of the cores of a map before it is in force. -/
theorem partCores_setPart {t : State} {p : Nat} {d e : Part} (ht : Rising t.parts) (hs : Rising s.parts) (hmap : d.map = e.map)
    (hreg : ∀ x, x < 32 → regOf t (0x100 + x * 8) = regOf s (0x100 + x * 8)) : partCores (t.setPart p d) p = partCores (s.setPart p e) p :=
  partCores_congr (by rw [partOf_setPart_same _ _ ht, partOf_setPart_same _ _ hs, hmap]) hreg

theorem partMapCommit_holds (s : State) (p : Fin 64) (w : Wr) : (partMapCommit s p w).Holds := by
  rintro ⟨hgo, hok, hidle, hjob, hno, hawake⟩
  obtain ⟨howner, -, -, -, hc⟩ := id hgo
  refine answers_of_ends (mapCommitAct p w) (exec_partMapCommit howner) (ends_commit hgo hok fun u hu => ?_)
  have hpw : u.pw = s.pw := hu.only .pw (by decide)
  have hlow : ∀ x, x < 32 → regOf u (0x100 + x * 8) = regOf s (0x100 + x * 8) := fun x hx =>
    hu.regs _ (by simpa using ne_rPart_of_lt (by omega) 8)
  rw [if_pos (by simp [hidle, hjob])]
  have hnext : (partOf u p).mapNext = some (stagedMap s p) := by rw [hu.part]
  refine ends_applyMap hnext hu.risingParts (fun c => by rw [NoGrant, hpw]; exact hno c) (fun h2 c hcore => ?_) p.isLt fun t ht => ?_
  · rw [hpw]
    have heq := partCores_setPart (p := p) (d := { partOf u p with map := stagedMap s p }) (e := { partOf s p with map := stagedMap s p })
      hu.risingParts hc.risingParts rfl hlow
    rw [heq] at hcore
    exact hawake ((hu.regs.jobState (by simp [rPart_eq])).symm.trans h2) c hcore
  rw [ends_done]
  refine ⟨?_, ⟨fun q hq => (ht.others hq).trans (hu.others q hq), ht.pending hu.rising, ?_, ?_, ?_⟩, ?_, ?_, ?_, ?_⟩
  · rw [ht.part hu.risingParts, hu.part]
  · rw [ht.awake, hpw]
  · rw [ht.held, hpw]
  · rw [ht.waiting, hpw]
  · rw [ht.field hu.rising (by decide), hu.gen]
  · rw [ht.field hu.rising (by decide), hu.state]
  · exact regsBut_trans hu.regs ht.regs (by simp) (by simp)
  · exact (hu.only.mono (by decide)).trans ht.only

/-! ## Time slices (R294, R296) -/

theorem ctxSliceGoesOn_holds (s : State) (p : Fin 64) : (ctxSliceGoesOn s p).Holds := by
  rintro ⟨hready, hmap⟩
  refine exec_of_ends (sliceEnd p) rfl ?_
  simp only [sliceEnd, bind_apply, look_apply, ends_look]
  cases (partOf s p).running with
  | none => rfl
  | some c => simp [hready, hmap, pure_apply]

/-- The clocks run up to a due time, and nothing but the time changes. -/
theorem ends_advanceTo (due : Nat) {k : Unit → Prog} (hQ : ∀ u, u.time.now = max s.time.now due → OnlyChanges s u [.time] → Ends (k ()) u Q) :
    Ends (advanceTo due k) s Q := by
  simp only [advanceTo, bind_apply, look_apply, ends_look, ends_ite_act, pure_apply]
  split
  · next h =>
    rw [Ends, run_advance]
    have hnow : s.time.now + (due - s.time.now) = max s.time.now due := by omega
    split
    · exact hQ _ hnow (onlyChanges_of_take rfl)
    · exact hQ _ hnow (onlyChanges_of_take rfl)
  · exact hQ s (by omega) (onlyChanges_of_take rfl)

theorem ctxSliceEnd_holds (s : State) (p : Fin 64) (c : Nat) : (ctxSliceEnd s p c).Holds := by
  rintro ⟨⟨hrun, hsw, htd⟩, hready, hc⟩
  refine answers_of_ends (sliceEnd p) rfl ?_
  have hcond : ((partOf s p).switching == .none && (partOf s p).td == .none && (nextReady s p).isSome ||
      (partOf s p).switching == .none && (partOf s p).td == .none && (partOf s p).mapNext.isSome) = true := by
    rcases hready with h | h <;> simp [hsw, htd, h]
  simp only [sliceEnd, bind_apply, look_apply, ends_look, hrun, if_pos hcond]
  refine ends_advanceTo _ fun u hnow hu => ?_
  simp only [switchOut, ends_modPart, ends_done]
  have hparts : u.parts = s.parts := hu .parts (by decide)
  refine ⟨hnow, ?_, (hu.mono (by decide)).trans ((onlyChanges_setPart _ _ _).mono (by decide))⟩
  rw [hu.partOf (by decide), State.setPart, Effect.apply, saving, State.setPart, Effect.apply, hparts]

theorem ctxEarlySwitch_holds (s : State) (p : Fin 64) (c : Nat) : (ctxEarlySwitch s p c).Holds := by
  rintro ⟨⟨hrun, hsw, htd⟩, hready, hrest⟩
  have hcond : ((partOf s p).switching == .none && (partOf s p).td == .none && (nextReady s p).isSome &&
      (ctxThreads s p c).all (fun e => atRest e.2)) = true := by
    simp only [hsw, htd, hready, beq_self_eq_true, Bool.and_self, Bool.true_and, List.all_eq_true]
    exact hrest
  refine exec_of_ends (t := saving s p 1) _ rfl ?_
  simp only [bind_apply, look_apply, ends_look, hrun, if_pos hcond, switchOut, ends_modPart, ends_done, saving]

theorem ctxSwitchWaits_holds (s : State) (p : Fin 64) (c : Nat) : (ctxSwitchWaits s p c).Holds := by
  rintro ⟨hsw, hrun, hbusy⟩
  refine exec_of_ends (switchSaved p) rfl ?_
  simp only [switchSaved, bind_apply, look_apply, ends_look, hsw, beq_self_eq_true, if_true, hrun, hbusy, pure_apply, ends_done]

end Sys2Proof.Machine
end

section
/-!
SUPPORT. The owner's commands to a context (R297–R299).
-/

namespace Sys2Proof.Machine

open Sys2Proof.Claims

variable {s : State} {Q : State → Prop} {p c : Nat} {w : Wr}

/-! ## Word 0 of a context as it is stored (R299, R312) -/

/-- A row of the partitions' pages that ends before their contexts does not cover a context's word 0. -/
theorem covers_below {r : RegRow} (hs : r.s1 = 0x4000) (hpos : 0 < r.s2) (hlo : 0xC00000 ≤ r.base) (hhi : r.base + r.s2 * r.n2 ≤ 0xC00A00) (p : Nat)
    (hc : c < 16) : r.covers (rCtx p c 0) = false := by
  have hmod : (rCtx p c 0 - r.base) % 0x4000 = 0xC00A00 + c * 0x20 - r.base := by
    rw [rCtx_eq, show 0xC00000 + p * 0x4000 + (0xA00 + c * 0x20 + 0 * 8) - r.base = 0xC00A00 + c * 0x20 - r.base + 0x4000 * p by omega,
      Nat.add_mul_mod_self_left, Nat.mod_eq_of_lt (by omega)]
  have hout : r.n2 ≤ (0xC00A00 + c * 0x20 - r.base) / r.s2 := (Nat.le_div_iff_mul_le hpos).2 (by rw [Nat.mul_comm]; omega)
  simp [RegRow.covers, hs, hmod, Nat.not_lt.2 hout]

/-- The row of word 0 of the contexts. -/
def ctxRow : RegRow := ⟨"PART_CTX_c word 0", 0xC00A00, 0x4000, 64, 0x20, 16, 0, fm 0 54, 0, fm 61 3⟩

theorem regRow_rCtx (hp : p < 64) (hc : c < 16) : regRow (rCtx p c 0) = some ctxRow := by
  have hrows : rowsAt (rCtx p c 0) = rowsPart := by
    have hblock : rCtx p c 0 / 0x100000 = 12 := by
      rw [rCtx_eq]
      omega
    rw [rowsAt, hblock]
    rfl
  have hcover : ctxRow.covers (rCtx p c 0) = true := by
    have hoff : rCtx p c 0 - 0xC00A00 = p * 0x4000 + c * 0x20 := by
      rw [rCtx_eq]
      omega
    have hbase : 0xC00A00 ≤ rCtx p c 0 := by
      rw [rCtx_eq]
      omega
    have hpage : (p * 0x4000 + c * 0x20) / 0x4000 = p := by omega
    have hin : (p * 0x4000 + c * 0x20) % 0x4000 = c * 0x20 := by omega
    simp [RegRow.covers, ctxRow, hoff, hbase, hpage, hin, hp, hc]
  have hbelow : ∀ r ∈ rowsPart.take 24, r.s1 = 0x4000 ∧ 0 < r.s2 ∧ 0xC00000 ≤ r.base ∧ r.base + r.s2 * r.n2 ≤ 0xC00A00 := by decide
  rw [regRow, hrows, List.find?_eq_some_iff_append]
  refine ⟨hcover, rowsPart.take 24, rowsPart.drop 25, rfl, fun r hr => ?_⟩
  obtain ⟨hs, hpos, hlo, hhi⟩ := hbelow r hr
  rw [covers_below hs hpos hlo hhi p hc]
  rfl

/-- The bits of word 0 that no write of the owner's changes. -/
theorem bitsOf_ctxWord (hp : p < 64) (hc : c < 16) {lo len : Nat} (hlo : 54 ≤ lo) (hlen : lo + len ≤ 64) :
    bitsOf (ctxWord s p c w) lo len = fieldOf s (rCtx p c 0) lo len := by
  refine Nat.eq_of_testBit_eq fun i => ?_
  rw [fieldOf, testBit_bitsOf, testBit_bitsOf]
  by_cases hi : i < len
  · have hrw : ctxRow.rw.testBit (lo + i) = false := by
      rw [ctxRow, testBit_fm]
      simp
      omega
    have hw1c : ctxRow.w1c.testBit (lo + i) = false := Nat.zero_testBit _
    rw [testBit_plainWrite (regRow_rCtx hp hc) _ _ (by omega), hrw, hw1c]
    simp
  · simp [hi]

theorem ctxWord_lt (s : State) (p c : Nat) (w : Wr) : ctxWord s p c w < 2 ^ 64 := by
  have hold : (regOf s (rCtx p c 0)).toNat < 2 ^ 64 := (regOf s (rCtx p c 0)).isLt
  have hval : w.val.toNat < 2 ^ 64 := w.val.isLt
  unfold ctxWord plainWrite
  split
  · exact hold
  · exact Nat.lt_of_le_of_lt Nat.and_le_left (Nat.or_lt_two_pow (Nat.lt_of_le_of_lt Nat.and_le_left hold) (Nat.lt_of_le_of_lt Nat.and_le_left hval))

/-- The state once word 0 of a context has been stored. -/
def State.ctxStored (s : State) (p c : Nat) (w : Wr) : State := s.setReg (rCtx p c 0) (ctxWord s p c w)

theorem onlyChanges_ctxStored (s : State) (p c : Nat) (w : Wr) : OnlyChanges s (s.ctxStored p c w) [.regs] := onlyChanges_setReg s _ _
theorem regsBut_ctxStored (s : State) (p c : Nat) (w : Wr) : RegsBut s (s.ctxStored p c w) [rCtx p c 0] := regsBut_setReg s _ _
theorem partOf_ctxStored (s : State) (p c : Nat) (w : Wr) (q : Nat) : partOf (s.ctxStored p c w) q = partOf s q := rfl

theorem regOf_ctxStored (hr : Rising s.regs) : regOf (s.ctxStored p c w) (rCtx p c 0) = BitVec.ofNat 64 (ctxWord s p c w) :=
  regOf_setReg_same _ _ _ hr

theorem toNat_ctxStored (hr : Rising s.regs) : (regOf (s.ctxStored p c w) (rCtx p c 0)).toNat = ctxWord s p c w := by
  rw [regOf_ctxStored hr, BitVec.toNat_ofNat, Nat.mod_eq_of_lt (ctxWord_lt s p c w)]

theorem ctxState_ctxStored (hr : Rising s.regs) (hp : p < 64) (hc : c < 16) (k : Nat) : ctxState (s.ctxStored p c w) p k = ctxState s p k := by
  by_cases hk : k = c
  · rw [hk, ctxState, fieldOf, toNat_ctxStored hr, bitsOf_ctxWord hp hc (by decide) (by decide), ctxState]
  · exact (regsBut_ctxStored s p c w).field (by simpa using rCtx_ne_rCtx hk) 56 3

theorem setReg_setReg (hr : Rising s.regs) (off a b : Nat) : (s.setReg off a).setReg off b = s.setReg off b := by
  have htab := tput_tput_same (resetWord off) s.regs off (BitVec.ofNat 64 a) (BitVec.ofNat 64 b) hr
  simp only [State.setReg, Effect.apply, htab]

/-- A new state of a context behind the write of its word is one write of both. -/
theorem setField_ctxStored (hr : Rising s.regs) (lo len v : Nat) :
    (s.ctxStored p c w).setField (rCtx p c 0) lo len v = s.setReg (rCtx p c 0) (setBits (ctxWord s p c w) lo len v) := by
  rw [State.setField, toNat_ctxStored hr, State.ctxStored, setReg_setReg hr]

/-- What a write of word 0 of a context does, by its CMD. -/
theorem ends_ctxWord0Write (k : Unit → Prog) : Ends (ctxWord0Write p c w k) s Q =
    Ends ((match wrBits w 61 3 with
      | 1 => ctxResumeAct p c
      | 2 => ctxResetAct p c
      | 3 => ctxStopAct p c
      | _ => pure ()) k) (s.ctxStored p c w) Q := rfl

theorem exec_ctxResume {p : Fin 64} {c : Fin 16} (h : ByOwner s w.path) : exec (.ctxResume p c w) s = finish (ctxWord0Write p c w) s :=
  finish_ownerWrite_owner (ctxWord0Write p c w) h
theorem exec_ctxStop {p : Fin 64} {c : Fin 16} (h : ByOwner s w.path) : exec (.ctxStop p c w) s = finish (ctxWord0Write p c w) s :=
  finish_ownerWrite_owner (ctxWord0Write p c w) h
theorem exec_ctxReset {p : Fin 64} {c : Fin 16} (h : ByOwner s w.path) : exec (.ctxReset p c w) s = finish (ctxWord0Write p c w) s :=
  finish_ownerWrite_owner (ctxWord0Write p c w) h

/-! ## Refusals -/

theorem ctxCmdRefused_holds (s : State) (p : Fin 64) (c : Fin 16) (w : Wr) : (ctxCmdRefused s p c w).Holds := by
  rintro ⟨howner, hbad, hc⟩
  have hst := ctxState_ctxStored (w := w) hc.rising p.isLt c.isLt c
  have hrise : Rising (s.ctxStored p c w).regs := setReg_rising _ _ _ hc.rising
  refine answers_of_ends (ctxWord0Write p c w) (exec_ctxResume howner) ?_
  have hdenied : Ends (ownDenied fun _ => .done) (s.ctxStored p c w) (fun t => fieldOf t 0x010060 0 32 = min 0xFFFFFFFF (fieldOf s 0x010060 0 32 + 1) ∧
      Reported s t 0x0101 0 96 0 none 0 0 ∧ regOf t (rCtx p c 0) = BitVec.ofNat 64 (ctxWord s p c w) ∧
      RegsBut s t (rCtx p c 0 :: 0x010060 :: errSrc 96) ∧ OnlyChanges s t [.regs, .err]) := by
    refine ends_ownDenied hrise fun t ⟨hcount, hrep, hregs, honly⟩ _ => ?_
    have hne : rCtx p c 0 ∉ 0x010060 :: errSrc dieMG := by
      simp only [rCtx_eq, errSrc, dieMG, List.mem_cons, List.not_mem_nil, or_false]
      omega
    have hcountS : fieldOf (s.ctxStored p c w) 0x010060 0 32 = fieldOf s 0x010060 0 32 :=
      (regsBut_ctxStored s p c w).field (mt List.mem_singleton.1 (ne_rPart_of_lt (by decide) _)) 0 32
    rw [ends_done]
    refine ⟨by rw [hcount, hcountS], hrep, (hregs _ hne).trans (regOf_ctxStored hc.rising), ?_, ?_⟩
    · exact regsBut_trans (regsBut_ctxStored s p c w) hregs (by simp) (by simp)
    · exact ((onlyChanges_ctxStored s p c w).mono (by decide)).trans honly
  rw [ends_ctxWord0Write]
  rcases hbad with ⟨hcmd, hlow⟩ | ⟨hcmd, hno⟩
  · have h3 : ¬ ctxState s p c = 3 := by omega
    have h4 : ¬ (decide (ctxState s p c = 4) && resumable (s.ctxStored p c w) p c) = true := by simp; omega
    rw [hcmd]
    simp only [ctxResumeAct, bind_apply, look_apply, ends_look, hst, if_neg h3, if_neg h4]
    exact hdenied
  · have h1 : ¬ ctxState s p c = 1 := by omega
    have h2 : ¬ (decide (ctxState s p c = 2) && !goesFaulted (partOf (s.ctxStored p c w) p)) = true := by simp; omega
    rw [hcmd]
    simp only [ctxStopAct, bind_apply, look_apply, ends_look, hst, if_neg h1, if_neg h2]
    exact hdenied

end Sys2Proof.Machine
end

section
/-!
SUPPORT. CTX_STOP, CTX_RESUME and CTX_FAULT of a context (R297–R299).
-/

namespace Sys2Proof.Machine

open Sys2Proof.Claims

variable {s : State} {Q : State → Prop} {p c : Nat} {w : Wr}

/-! ## A new state behind the write of word 0 -/

/-- The state once word 0 of a context has been stored and its STATE set. -/
def State.ctxSet (s : State) (p c : Nat) (w : Wr) (st : Nat) : State := s.setReg (rCtx p c 0) (setBits (ctxWord s p c w) 56 3 st)

section
variable (s) (p c : Nat) (w : Wr) (st : Nat)

theorem onlyChanges_ctxSet : OnlyChanges s (s.ctxSet p c w st) [.regs] := onlyChanges_setReg s _ _
theorem regsBut_ctxSet : RegsBut s (s.ctxSet p c w st) [rCtx p c 0] := regsBut_setReg s _ _
theorem partOf_ctxSet (q : Nat) : partOf (s.ctxSet p c w st) q = partOf s q := rfl

end

theorem regOf_ctxSet (hr : Rising s.regs) (st : Nat) :
    regOf (s.ctxSet p c w st) (rCtx p c 0) = BitVec.ofNat 64 (setBits (ctxWord s p c w) 56 3 st) := regOf_setReg_same _ _ _ hr

theorem ctxState_ctxSet (hr : Rising s.regs) {st : Nat} (h : st < 8) : ctxState (s.ctxSet p c w st) p c = st := by
  rw [ctxState, State.ctxSet, fieldOf_setReg_same _ hr (by decide), bitsOf_setBits_same]
  exact Nat.mod_eq_of_lt h

theorem ctxState_ctxSet_ne {k : Nat} (h : k ≠ c) (st : Nat) : ctxState (s.ctxSet p c w st) p k = ctxState s p k :=
  (regsBut_ctxSet s p c w st).field (by simpa using rCtx_ne_rCtx h) 56 3

theorem ends_setCtxState_stored (hr : Rising s.regs) (st : Nat) (k : Unit → Prog) :
    Ends (setCtxState p c st k) (s.ctxStored p c w) Q = Ends (k ()) (s.ctxSet p c w st) Q :=
  (ends_setCtxState st k).trans (by rw [setField_ctxStored hr, State.ctxSet])

/-! ## CTX_STOP (R299) -/

/-- CTX_STOP of a READY context. -/
theorem ends_ctxStop_ready (hr : Rising s.regs) (hp : p < 64) (hc : c < 16) (hcmd : wrBits w 61 3 = 3) (hst : ctxState s p c = 1) (k : Unit → Prog) :
    Ends (ctxWord0Write p c w k) s Q = Ends ((if (partOf s p).incoming = some c then (do
      modPart p (fun d => { d with incoming := none, switching := .none })
      schedule p : Act Unit) else pure ()) k) (s.ctxSet p c w 3) Q := by
  have hst' := (ctxState_ctxStored (w := w) hr hp hc c).trans hst
  rw [ends_ctxWord0Write, hcmd]
  simp only [ctxStopAct, bind_apply, look_apply, ends_look, if_pos hst']
  exact ends_setCtxState_stored hr 3 _

theorem ctxStop_holds (s : State) (p : Fin 64) (c : Fin 16) (w : Wr) : (ctxStop s p c w).Holds := by
  rintro ⟨howner, hcmd, hst, hin, hc⟩
  refine answers_of_ends (ctxWord0Write p c w) (exec_ctxStop howner) ?_
  rw [ends_ctxStop_ready hc.rising p.isLt c.isLt hcmd hst, if_neg hin, pure_apply, ends_done]
  exact ⟨regOf_ctxSet hc.rising 3, regsBut_ctxSet s p c w 3, onlyChanges_ctxSet s p c w 3⟩

theorem ctxStopIncoming_holds (s : State) (p : Fin 64) (c : Fin 16) (w : Wr) : (ctxStopIncoming s p c w).Holds := by
  rintro ⟨howner, hcmd, hst, hin, hothers, hc⟩
  refine answers_of_ends (ctxWord0Write p c w) (exec_ctxStop howner) ?_
  rw [ends_ctxStop_ready hc.rising p.isLt c.isLt hcmd hst, if_pos hin, bind_apply, ends_modPart]
  have hpart := partOf_ctxSet s p c w 3
  have hregs := regsBut_ctxSet s p c w 3
  have honly := onlyChanges_ctxSet s p c w 3
  have hword : regOf (s.ctxSet p c w 3) (rCtx p c 0) = _ := regOf_ctxSet hc.rising 3
  have hready : ∀ k, k < 16 → ctxState (s.ctxSet p c w 3) p k ≠ 1 := fun k hk => by
    by_cases hkc : k = c.val
    · rw [hkc, ctxState_ctxSet hc.rising (by decide)]
      decide
    · rw [ctxState_ctxSet_ne hkc]
      exact hothers k hk hkc
  have hparts : Rising (s.ctxSet p c w 3).parts := hc.risingParts
  generalize s.ctxSet p c w 3 = t at hpart hregs honly hword hready hparts ⊢
  rw [ends_schedule_none (.inr (.inr (nextReady_none (p := p) (s := t.setPart p _) hready))), ends_done]
  refine ⟨hword, ?_, fun q hq => (partOf_setPart_ne _ hq).trans (hpart q), hregs, ?_⟩
  · rw [partOf_setPart_same _ _ hparts, hpart]
  · exact (honly.mono (by decide)).trans ((onlyChanges_setPart _ _ _).mono (by decide))

theorem ctxStopRunning_holds (s : State) (p : Fin 64) (c : Fin 16) (w : Wr) : (ctxStopRunning s p c w).Holds := by
  rintro ⟨howner, hcmd, hst, hgoes, hc⟩
  have hst' := (ctxState_ctxStored (w := w) hc.rising p.isLt c.isLt c).trans hst
  have hne : ¬ ctxState (s.ctxStored p c w) p c = 1 := by omega
  have hcond : (decide (ctxState (s.ctxStored p c w) p c = 2) && !goesFaulted (partOf (s.ctxStored p c w) p)) = true := by
    rw [partOf_ctxStored, hst', hgoes]
    rfl
  refine answers_of_ends (ctxWord0Write p c w) (exec_ctxStop howner) ?_
  rw [ends_ctxWord0Write, hcmd]
  simp only [ctxStopAct, bind_apply, look_apply, ends_look, if_neg hne, if_pos hcond, switchOut, ends_modPart, ends_done]
  refine ⟨regOf_ctxStored hc.rising, rfl, regsBut_ctxStored s p c w, ?_⟩
  exact ((onlyChanges_ctxStored s p c w).mono (by decide)).trans ((onlyChanges_setPart _ _ _).mono (by decide))

/-! ## CTX_RESUME of a SUSPENDED context (R294, R299) -/

theorem ends_ctxResume_suspended (hr : Rising s.regs) (hp : p < 64) (hc : c < 16) (hcmd : wrBits w 61 3 = 1) (hst : ctxState s p c = 3)
    (k : Unit → Prog) : Ends (ctxWord0Write p c w k) s Q = Ends (schedule p k) (s.ctxSet p c w 1) Q := by
  have hst' := (ctxState_ctxStored (w := w) hr hp hc c).trans hst
  rw [ends_ctxWord0Write, hcmd]
  simp only [ctxResumeAct, bind_apply, look_apply, ends_look, if_pos hst']
  exact ends_setCtxState_stored hr 1 _

theorem ctxResume_holds (s : State) (p : Fin 64) (c : Fin 16) (w : Wr) : (ctxResume s p c w).Holds := by
  rintro ⟨howner, hcmd, hst, hrun, hc⟩
  refine answers_of_ends (ctxWord0Write p c w) (exec_ctxResume howner) ?_
  rw [ends_ctxResume_suspended hc.rising p.isLt c.isLt hcmd hst, ends_schedule_none (.inl (by rwa [partOf_ctxSet])), ends_done]
  exact ⟨regOf_ctxSet hc.rising 1, regsBut_ctxSet s p c w 1, onlyChanges_ctxSet s p c w 1⟩

theorem ctxResumeComesIn_holds (s : State) (p : Fin 64) (c : Fin 16) (w : Wr) (d : Nat) : (ctxResumeComesIn s p c w d).Holds := by
  rintro ⟨howner, hcmd, hst, hrun, hsw, htd, hjob, hready, hc⟩
  have hjob' : jobState (s.ctxSet p c w 1) p = 2 :=
    ((regsBut_ctxSet s p c w 1).jobState (by simpa using rCtx_ne_rPart (by decide) c.val)).trans hjob
  refine answers_of_ends (ctxWord0Write p c w) (exec_ctxResume howner) ?_
  rw [ends_ctxResume_suspended hc.rising p.isLt c.isLt hcmd hst,
    ends_schedule_some hjob' (by rwa [partOf_ctxSet]) (by rwa [partOf_ctxSet]) (by rwa [partOf_ctxSet]) hready, ends_done]
  refine ⟨rfl, partOf_setPart_same _ _ hc.risingParts, fun q hq => partOf_setPart_ne _ hq, regsBut_ctxSet s p c w 1, ?_⟩
  exact ((onlyChanges_ctxSet s p c w 1).mono (by decide)).trans ((onlyChanges_setPart _ _ _).mono (by decide))

/-! ## Stopped commands (R210, R298) -/

theorem asyncPut_only {slot : Nat} {a : AsyncCmd} {th : Thread} (h : th.asyncs = [(slot, a)]) (b : AsyncCmd) :
    asyncPut slot b th = { th with asyncs := [(slot, b)] } := by
  simp [asyncPut, h]

/-- The request of a stopped command for a new grant. -/
def askAgain (s : State) (k slot : Nat) (th : Thread) (a : AsyncCmd) : List Grant :=
  if a.grant then [{ who := .cmd k slot, mw := classMw s (cmdClass a.w), prio := th.prio.toNat, part := k / 16 / 2048 / 16
                     die := some (k / 16 % 2048 / 64), askedAt := s.time.now }] else []

/-- The state in which the one stopped command of a thread waits for its turn again. -/
def State.restarted (s : State) (k slot : Nat) (th : Thread) (a : AsyncCmd) : State :=
  { s.setThread k { th with asyncs := [(slot, { a with phase := if a.grant then .waitGrant else .queued })] } with
    pw := { s.pw with waiting := s.pw.waiting ++ askAgain s k slot th a } }

theorem ends_restartStopped {k slot : Nat} {th : Thread} {a : AsyncCmd} (hth : threadOf s k = th) (has : th.asyncs = [(slot, a)])
    (hstop : a.phase = .stopped) (m : Unit → Prog) : Ends (restartStopped k th m) s Q = Ends (m ()) (s.restarted k slot th a) Q := by
  have hfilter : th.asyncs.filter (fun a => a.2.phase == .stopped) = [(slot, a)] := by simp [has, hstop]
  simp only [restartStopped, hfilter, List.forIn_cons, List.forIn_nil, bind_apply, ends_putAsync, hth, asyncPut_only has]
  cases hg : a.grant with
  | false =>
    simp only [Bool.false_eq_true, if_false, pure_apply, State.restarted, askAgain, hg, List.append_nil]
    rfl
  | true =>
    simp only [if_true, State.restarted, askAgain, hg]
    rfl

theorem ends_restartStopped_none {k : Nat} {th : Thread} (has : ∀ a ∈ th.asyncs, a.2.phase ≠ .stopped) (m : Unit → Prog) :
    Ends (restartStopped k th m) s Q = Ends (m ()) s Q := by
  have hfilter : th.asyncs.filter (fun a => a.2.phase == .stopped) = [] := List.filter_eq_nil_iff.2 fun a ha => by simpa using has a ha
  simp only [restartStopped, hfilter, List.forIn_nil, bind_apply, pure_apply]

theorem cmdClass_lt (w : Cmd) : cmdClass w < 8 := by
  have hbits : ∀ byte, cf w byte 0 3 < 8 := fun byte => bitsOf_lt _ _ 3
  have h30 := hbits 30
  have h28 := hbits 28
  have h5 := hbits 5
  simp only [cmdClass, mPclass]
  split_ifs <;> omega

/-- Power requests read nothing of the contexts' words. -/
theorem classMw_cmdClass {t : State} (h : RegsBut s t [rCtx p c 0]) (x : Cmd) : classMw t (cmdClass x) = classMw s (cmdClass x) := by
  have hx := cmdClass_lt x
  have hfield : ∀ off, off < 0xC00000 → fieldOf t off 0 10 = fieldOf s off 0 10 := fun off ho =>
    h.field (mt List.mem_singleton.1 (ne_rPart_of_lt ho _)) 0 10
  rw [classMw, classMw, hfield _ (by omega), hfield _ (by decide)]

theorem askAgain_congr {t : State} (h : RegsBut s t [rCtx p c 0]) (hnow : t.time = s.time) (k slot : Nat) (th : Thread) (a : AsyncCmd) :
    askAgain t k slot th a = askAgain s k slot th a := by
  rw [askAgain, classMw_cmdClass h, hnow, askAgain]

/-! ## CTX_RESUME of a FAULTED context (R210, R298, R299) -/

theorem ends_ctxResume_faulted (hr : Rising s.regs) (hp : p < 64) (hc : c < 16) (hcmd : wrBits w 61 3 = 1) (hst : ctxState s p c = 4) {k : Nat}
    {th : Thread} (hthreads : ctxThreads s p c = [(k, th)]) (hcause : th.faultCause = 6) (m : Unit → Prog) :
    Ends (ctxWord0Write p c w m) s Q = Ends (resumeThread k th fun _ => setCtxState p c 1 fun _ => schedule p m) (s.ctxStored p c w) Q := by
  have hst' := (ctxState_ctxStored (w := w) hr hp hc c).trans hst
  have hthreads' : ctxThreads (s.ctxStored p c w) p c = [(k, th)] := hthreads
  have hne : ¬ ctxState (s.ctxStored p c w) p c = 3 := by omega
  have hcond : (decide (ctxState (s.ctxStored p c w) p c = 4) && resumable (s.ctxStored p c w) p c) = true := by
    simp [hst', resumable, hthreads', hcause]
  rw [ends_ctxWord0Write, hcmd]
  simp only [ctxResumeAct, bind_apply, look_apply, ends_look, if_neg hne, if_pos hcond, hthreads', List.forIn_cons, List.forIn_nil, pure_apply]

/-- A resumed context is READY, and another one runs. -/
theorem ends_ready {t : State} (hrun : (partOf t p).running.isSome = true) (m : Unit → Prog) :
    Ends (setCtxState p c 1 fun _ => schedule p m) t Q = Ends (m ()) (t.setField (rCtx p c 0) 56 3 1) Q := by
  rw [ends_setCtxState]
  exact ends_schedule_none (s := t.setField (rCtx p c 0) 56 3 1) (.inl hrun) m

theorem ctxResumeFaulted_holds (s : State) (p : Fin 64) (c : Fin 16) (w : Wr) (k : Nat) (th : Thread) : (ctxResumeFaulted s p c w k th).Holds := by
  rintro ⟨howner, hcmd, hst, hrun, hthreads, hfaulted, hcause, hnone, hwait, hc⟩
  obtain ⟨hth, -⟩ := threadOf_of_ctxThreads hc.risingThreads (show (k, th) ∈ ctxThreads s p c by simp [hthreads])
  have hth' : threadOf (s.ctxStored p c w) k = th := hth
  have hst0 : (th.st == .faulted) = true := by simp [hfaulted]
  have hwait0 : (th.wait == .none) = true := by simp [hwait]
  refine answers_of_ends (ctxWord0Write p c w) (exec_ctxResume howner) ?_
  rw [ends_ctxResume_faulted hc.rising p.isLt c.isLt hcmd hst hthreads hcause]
  simp only [resumeThread, bind_apply, ends_restartStopped_none (th := th) (by simp [hnone]), if_pos hst0, ends_modThread, hth', if_pos hwait0,
    hnone, List.filter_nil, List.isEmpty_nil]
  have honly := ((onlyChanges_ctxStored s p c w).mono (by decide)).trans ((onlyChanges_setThread (s.ctxStored p c w) k
    { th with st := .ready, faultCause := 0, hdrDone := true, asyncs := [] }).mono (by decide : _ ⊆ [.regs, .threads]))
  have hregs : RegsBut s ((s.ctxStored p c w).setThread k { th with st := .ready, faultCause := 0, hdrDone := true, asyncs := [] }) [rCtx p c 0] :=
    regsBut_ctxStored s p c w
  have hrise : Rising ((s.ctxStored p c w).setThread k { th with st := .ready, faultCause := 0, hdrDone := true, asyncs := [] }).regs :=
    setReg_rising _ _ _ hc.rising
  have hsame : threadOf ((s.ctxStored p c w).setThread k { th with st := .ready, faultCause := 0, hdrDone := true, asyncs := [] }) k = _ :=
    threadOf_setThread_same _ k hc.risingThreads
  have hne : ∀ j, j ≠ k → threadOf ((s.ctxStored p c w).setThread k { th with st := .ready, faultCause := 0, hdrDone := true, asyncs := [] }) j =
    threadOf s j := fun j hj => threadOf_setThread_ne _ hj
  generalize (s.ctxStored p c w).setThread k { th with st := .ready, faultCause := 0, hdrDone := true, asyncs := [] } = t
    at honly hregs hrise hsame hne ⊢
  rw [ends_ready (by rwa [honly.partOf (by decide)]), ends_done]
  have hset := onlyChanges_setField t (rCtx p c 0) 56 3 1
  refine ⟨ctxState_setField_same hrise (by decide), ?_, fun j hj => (hset.threadOf (by decide) j).trans (hne j hj), ?_, ?_⟩
  · rw [hset.threadOf (by decide), hsame]
  · exact regsBut_trans hregs (regsBut_setField t _ _ _ _) (by simp) (by simp)
  · exact honly.trans (hset.mono (by decide))

theorem restarted_facts {k slot : Nat} {th : Thread} {a : AsyncCmd} (hr : Rising s.threads) :
    threadOf (s.restarted k slot th a) k = { th with asyncs := [(slot, { a with phase := if a.grant then .waitGrant else .queued })] } ∧
      (∀ j, j ≠ k → threadOf (s.restarted k slot th a) j = threadOf s j) ∧ OnlyChanges s (s.restarted k slot th a) [.threads, .pw] ∧
      (s.restarted k slot th a).pw = { s.pw with waiting := s.pw.waiting ++ askAgain s k slot th a } ∧
      (s.restarted k slot th a).regs = s.regs ∧ Rising (s.restarted k slot th a).threads :=
  ⟨threadOf_setThread_same _ k hr, fun _ hj => threadOf_setThread_ne _ hj, onlyChanges_of_take rfl, rfl, rfl, rising_setThread k _ hr⟩

theorem ctxResumeStopped_holds (s : State) (p : Fin 64) (c : Fin 16) (w : Wr) (k slot : Nat) (th : Thread) (a : AsyncCmd) :
    (ctxResumeStopped s p c w k slot th a).Holds := by
  rintro ⟨howner, hcmd, hst, hrun, hthreads, hfaulted, hcause, has, hstop, hwait, hpart, hc⟩
  obtain ⟨hth, -⟩ := threadOf_of_ctxThreads hc.risingThreads (show (k, th) ∈ ctxThreads s p c by simp [hthreads])
  have hth' : threadOf (s.ctxStored p c w) k = th := hth
  have hst0 : (th.st == .faulted) = true := by simp [hfaulted]
  have hwait0 : (th.wait == .none) = true := by simp [hwait]
  have hagain : (th.asyncs.filter (fun a => a.2.phase == .stopped)).isEmpty = false := by simp [has, hstop]
  have hask : askAgain (s.ctxStored p c w) k slot th a = askAgain s k slot th a :=
    askAgain_congr (regsBut_ctxStored s p c w) rfl k slot th a
  obtain ⟨hsame, hne, honly, hpw, hregs, hrise⟩ := restarted_facts (s := s.ctxStored p c w) (k := k) (slot := slot) (th := th) (a := a) hc.risingThreads
  refine answers_of_ends (ctxWord0Write p c w) (exec_ctxResume howner) ?_
  rw [ends_ctxResume_faulted hc.rising p.isLt c.isLt hcmd hst hthreads hcause]
  simp only [resumeThread, bind_apply, ends_restartStopped hth' has hstop, if_pos hst0, ends_modThread, hsame, if_pos hwait0, hagain]
  have hbase := onlyChanges_ctxStored s p c w
  have hregs0 := regsBut_ctxStored s p c w
  have hpart0 := partOf_ctxStored s p c w
  have hrise0 : Rising (s.ctxStored p c w).regs := setReg_rising _ _ _ hc.rising
  have hpw0 : (s.ctxStored p c w).pw = s.pw := rfl
  have hne0 : ∀ j, threadOf (s.ctxStored p c w) j = threadOf s j := fun _ => rfl
  rw [hask, hpw0] at hpw
  generalize s.ctxStored p c w = s0 at hsame hne honly hpw hregs hbase hregs0 hpart0 hrise0 hne0 hrise ⊢
  generalize s0.restarted k slot th a = s1 at hsame hne honly hpw hregs hrise ⊢
  set v : Thread := { th with st := .ready, faultCause := 0, hdrDone := false
                              asyncs := [(slot, { a with phase := if a.grant then .waitGrant else .queued })] } with hv
  have hset := onlyChanges_setThread s1 k v
  have hsame2 : threadOf (s1.setThread k v) k = v := threadOf_setThread_same _ _ hrise
  have hne2 : ∀ j, j ≠ k → threadOf (s1.setThread k v) j = threadOf s j := fun j hj =>
    (threadOf_setThread_ne _ hj).trans ((hne j hj).trans (hne0 j))
  have honly2 : OnlyChanges s (s1.setThread k v) [.regs, .threads, .pw] :=
    ((hbase.mono (by decide)).trans (honly.mono (by decide))).trans (hset.mono (by decide))
  have hrise2 : Rising (s1.setThread k v).regs := by
    show Rising s1.regs
    rwa [hregs]
  have hregs2 : RegsBut s (s1.setThread k v) [rCtx p c 0] := fun off ho =>
    (hset .regs (by decide) off).trans ((honly .regs (by decide) off).trans (hregs0 off ho))
  have hpw2 : (s1.setThread k v).pw = s1.pw := rfl
  generalize s1.setThread k v = t at hsame2 hne2 honly2 hrise2 hregs2 hpw2 ⊢
  have hlast := onlyChanges_setField t (rCtx p c 0) 56 3 1
  rw [ends_ready (by rwa [honly2.partOf (by decide)]), ends_done]
  refine ⟨ctxState_setField_same hrise2 (by decide), ?_, fun j hj => (hlast.threadOf (by decide) j).trans (hne2 j hj), ?_, ?_, ?_⟩
  · rw [hlast.threadOf (by decide), hsame2]
  · rw [hlast .pw (by decide), hpw2, hpw, askAgain, hpart]
  · exact regsBut_trans hregs2 (regsBut_setField t _ _ _ _) (by simp) (by simp)
  · exact honly2.trans (hlast.mono (by decide))

theorem ctxFault_holds (s : State) (p : Fin 64) (c : Fin 16) (k : Nat) (th : Thread) : (ctxFault s p c k th).Holds := by
  rintro ⟨hrun, hst, hgoes, hfind, hquiet, hc⟩
  have hcond : (decide (ctxState s p c ≠ 4) && !(decide ((partOf s p).running = some c.val) && goesFaulted (partOf s p))) = true := by
    simp [hst, hgoes]
  refine answers_of_ends (ctxFaultAct p c) rfl ?_
  simp only [ctxFaultAct, bind_apply, look_apply, ends_look, if_pos hcond, hfind, if_pos hquiet]
  refine ends_raise (by decide) fun t ht => ?_
  simp only [if_pos hrun, switchOut, ends_modPart, ends_done]
  have honly := ht.onlyChanges
  have hparts : t.parts = s.parts := honly .parts (by decide)
  refine ⟨ht.reported, ?_, ht.regs, (honly.mono (by decide)).trans ((onlyChanges_setPart _ _ _).mono (by decide))⟩
  rw [honly.partOf (by decide), State.setPart, Effect.apply, saving, State.setPart, Effect.apply, hparts]

end Sys2Proof.Machine
end

section
/-!
SUPPORT. The end of a context's save, and the switch to the next (R294, R296).
-/

namespace Sys2Proof.Machine

open Sys2Proof.Claims

variable {s : State} {Q : State → Prop} {p c : Nat}

/-! ## The save of a context -/

/-- What a switch leaves once its matrix units have stopped, in a state `t` of the switch from `s`. -/
def savedAct (s : State) (p c : Nat) : Act Unit := do
  setCtxState p c (partOf s p).outState
  modPart p (fun d => { d with running := none, switching := .none, outState := 1, lastRun := c, scratch := scratchSaved s p c })
  ctr32 (rPart p 0x930)
  if (nextReady (← look) p).isNone then applyMap p
  schedule p

theorem ends_switchSaved (h : Saves s p c) (k : Unit → Prog) : Ends (switchSaved p k) s Q =
    Ends ((forIn (ctxThreads s p c) PUnit.unit (fun e _ => do
      stopTiles e.1 e.2
      pure (ForInStep.yield PUnit.unit)) : Act PUnit) fun _ => savedAct s p c k) s Q := by
  obtain ⟨hsw, hrun, -, hvec, -⟩ := h
  have hsaving : ((partOf s p).switching == .saving) = true := by rw [hsw]; rfl
  simp only [switchSaved, bind_apply, look_apply, ends_look, if_pos hsaving, hrun, hvec, Bool.false_eq_true, if_false]
  rfl

/-- A context without matrix commands under way has nothing to stop. -/
theorem ends_stop_none {l : List (Nat × Thread)} (h : ∀ e ∈ l, tilesUnderWay e.2 = []) (k : PUnit → Prog) :
    Ends ((forIn l PUnit.unit (fun e _ => do
      stopTiles e.1 e.2
      pure (ForInStep.yield PUnit.unit)) : Act PUnit) k) s Q = Ends (k PUnit.unit) s Q :=
  ends_forIn_id (fun e he k => by simp only [bind_apply, stopTiles, h e he, List.forIn_nil, pure_apply]) k

/-- The outgoing context has been saved: its state, its partition and the count of switches. -/
structure SwitchedOut (s t u : State) (p c : Nat) : Prop where
  state : ctxState u p c = (partOf s p).outState
  part : partOf u p = { partOf s p with running := none, switching := .none, outState := 1, lastRun := c, scratch := scratchSaved s p c }
  others : ∀ q, q ≠ p → partOf u q = partOf s q
  count : fieldOf u (rPart p 0x930) 0 32 = min 0xFFFFFFFF (fieldOf t (rPart p 0x930) 0 32 + 1)
  regs : RegsBut t u [rCtx p c 0, rPart p 0x930]
  only : OnlyChanges t u [.parts, .regs]
  rising : Rising u.regs
  risingParts : Rising u.parts

theorem ends_savedAct {t : State} (hout : (partOf s p).outState < 8) (hparts : t.parts = s.parts) (hr : Rising t.regs) (hp : Rising s.parts)
    {k : Unit → Prog} (hQ : ∀ u, SwitchedOut s t u p c →
      Ends ((do
        if (nextReady u p).isNone then applyMap p
        schedule p : Act Unit) k) u Q) : Ends (savedAct s p c k) t Q := by
  have hword : rPart p 0x930 / 8 * 8 = rPart p 0x930 ∧ rPart p 0x930 % 8 * 8 = 0 := by
    rw [rPart_eq]
    omega
  simp only [savedAct, bind_apply, ends_setCtxState, ends_modPart, ends_ctr32, hword.1, hword.2, look_apply, ends_look]
  have hne : rPart p 0x930 ≠ rCtx p c 0 := rCtx_ne_rPart (by decide) c
  set t1 := t.setField (rCtx p c 0) 56 3 (partOf s p).outState with ht1
  have hst1 : ctxState t1 p c = (partOf s p).outState := ctxState_setField_same hr hout
  have hregs1 : RegsBut t t1 [rCtx p c 0] := regsBut_setField _ _ _ _ _
  have honly1 : OnlyChanges t t1 [.regs] := onlyChanges_setField _ _ _ _ _
  have hrise1 : Rising t1.regs := setField_rising _ _ _ _ _ hr
  have hpart1 : ∀ q, partOf t1 q = partOf s q := fun q => by rw [honly1.partOf (by decide), partOf, hparts, partOf]
  have hparts1 : Rising t1.parts := by
    rw [honly1 .parts (by decide), hparts]
    exact hp
  clear_value t1
  rw [hpart1]
  set d : Part := { partOf s p with running := none, switching := .none, outState := 1, lastRun := c, scratch := scratchSaved s p c } with hd
  have honly2 := onlyChanges_setPart t1 p d
  have hrise2 : Rising (t1.setPart p d).regs := hrise1
  have hpart2 : partOf (t1.setPart p d) p = d := partOf_setPart_same _ _ hparts1
  have hothers2 : ∀ q, q ≠ p → partOf (t1.setPart p d) q = partOf s q := fun q hq => (partOf_setPart_ne _ hq).trans (hpart1 q)
  have hparts2 := rising_setPart hparts1 p d
  generalize t1.setPart p d = t2 at honly2 hrise2 hpart2 hothers2 hparts2 ⊢
  have hregs2 : RegsBut t t2 [rCtx p c 0] := fun off ho => (honly2 .regs (by decide) off).trans (hregs1 off ho)
  set n := min 0xFFFFFFFF (fieldOf t2 (rPart p 0x930) 0 32 + 1) with hn
  have honly3 := onlyChanges_setField t2 (rPart p 0x930) 0 32 n
  have hregs3 := regsBut_setField t2 (rPart p 0x930) 0 32 n
  have hcount : fieldOf (t2.setField (rPart p 0x930) 0 32 n) (rPart p 0x930) 0 32 = min 0xFFFFFFFF (fieldOf t (rPart p 0x930) 0 32 + 1) := by
    rw [fieldOf_setField_same _ _ _ _ _ hrise2 (by decide), hn, hregs2.field (mt List.mem_singleton.1 hne)]
    exact Nat.mod_eq_of_lt (by omega)
  have hrise3 := setField_rising t2 (rPart p 0x930) 0 32 n hrise2
  generalize t2.setField (rPart p 0x930) 0 32 n = u at honly3 hregs3 hcount hrise3 ⊢
  refine hQ u ⟨?_, ?_, fun q hq => ?_, hcount, ?_, ?_, hrise3, ?_⟩
  · rw [ctxState, hregs3.field (mt List.mem_singleton.1 hne.symm), honly2.field (by decide)]
    exact hst1
  · rw [honly3.partOf (by decide), hpart2]
  · rw [honly3.partOf (by decide), hothers2 q hq]
  · exact regsBut_trans hregs2 hregs3 (by simp) (by simp)
  · exact ((honly1.mono (by decide)).trans (honly2.mono (by decide))).trans (honly3.mono (by decide))
  · rw [honly3 .parts (by decide)]
    exact hparts2

/-! ## The next context (R294) -/

theorem nextReady_switchedOut {t u : State} (h : SwitchedOut s t u p c) (hst : ∀ k, k ≠ c → ctxState t p k = ctxState s p k) :
    nextReady u p = comesIn s p c (partOf s p).outState := by
  rw [nextReady, comesIn, h.part]
  refine List.find?_congr fun k _ => ?_
  by_cases hk : k = c
  · rw [if_pos hk, hk, h.state]
  · rw [if_neg hk, ← hst k hk, ctxState, h.regs.field, ctxState]
    simp only [List.mem_cons, List.not_mem_nil, or_false, not_or]
    exact ⟨rCtx_ne_rCtx hk, (rCtx_ne_rPart (by decide) k).symm⟩

/-- The READY context behind the outgoing one comes in. -/
theorem ends_next_some {u : State} {d : Nat} (hd : nextReady u p = some d) (hjob : jobState u p = 2) (htd : (partOf u p).td = .none)
    (hrun : (partOf u p).running = none) (hsw : (partOf u p).switching = .none) (k : Unit → Prog) :
    Ends ((do
        if (nextReady u p).isNone then applyMap p
        schedule p : Act Unit) k) u Q =
      Ends (k ()) (u.setPart p { partOf u p with incoming := some d, switching := .restoring }) Q := by
  have hsome : (nextReady u p).isNone = false := by rw [hd]; rfl
  simp only [hsome, Bool.false_eq_true, if_false, ends_schedule_some hjob htd hrun hsw hd]

/-- With no map waiting and no READY context nothing comes in. -/
theorem ends_next_none {u : State} (hd : nextReady u p = none) (hmap : (partOf u p).mapNext = none) (k : Unit → Prog) :
    Ends ((do
        if (nextReady u p).isNone then applyMap p
        schedule p : Act Unit) k) u Q = Ends (k ()) u Q := by
  have hnone : (nextReady u p).isNone = true := by rw [hd]; rfl
  simp only [hnone, if_true, bind_apply, ends_applyMap_none hmap, ends_schedule_none (.inr (.inr hd))]

theorem out_lt_of_saves (h : Saves s p c) : (partOf s p).outState < 8 := by
  obtain ⟨-, -, -, -, hout, -⟩ := h
  omega

theorem canon_of_saves (h : Saves s p c) : Canon s := by
  obtain ⟨-, -, -, -, -, hc⟩ := h
  exact hc

theorem ctxSwitchSaved_holds (s : State) (p : Fin 64) (c d : Nat) : (ctxSwitchSaved s p c d).Holds := by
  rintro ⟨hsaves, htiles, hnext, hjob, htd⟩
  have hc := canon_of_saves hsaves
  refine answers_of_ends (switchSaved p) rfl ?_
  rw [ends_switchSaved hsaves, ends_stop_none htiles]
  refine ends_savedAct (out_lt_of_saves hsaves) rfl hc.rising hc.risingParts fun u hu => ?_
  have hready : nextReady u p = some d := (nextReady_switchedOut hu fun _ _ => rfl).trans hnext
  have hjob' : jobState u p = 2 := (hu.regs.jobState (by
    simp only [List.mem_cons, List.not_mem_nil, or_false, not_or]
    exact ⟨rCtx_ne_rPart (by decide) c, by simp [rPart_eq]⟩)).trans hjob
  rw [ends_next_some hready hjob' (by rw [hu.part]; exact htd) (by rw [hu.part]) (by rw [hu.part]), ends_done, hu.part]
  have hset := onlyChanges_setPart u p
  refine ⟨hu.state, partOf_setPart_same _ _ hu.risingParts, fun q hq => (partOf_setPart_ne _ hq).trans (hu.others q hq), hu.count, hu.regs, ?_⟩
  exact hu.only.trans ((hset _).mono (by decide))

theorem ctxSwitchSavedLast_holds (s : State) (p : Fin 64) (c : Nat) : (ctxSwitchSavedLast s p c).Holds := by
  rintro ⟨hsaves, htiles, hnext, hno, hawake⟩
  have hc := canon_of_saves hsaves
  refine answers_of_ends (switchSaved p) rfl ?_
  rw [ends_switchSaved hsaves, ends_stop_none htiles]
  refine ends_savedAct (out_lt_of_saves hsaves) rfl hc.rising hc.risingParts fun u hu => ?_
  have hready : nextReady u p = none := (nextReady_switchedOut hu fun _ _ => rfl).trans hnext
  have hpw : u.pw = s.pw := hu.only .pw (by decide)
  cases hmap : (partOf s p).mapNext with
  | none =>
    rw [ends_next_none hready (by rw [hu.part]; exact hmap), ends_done]
    refine ⟨hu.state, ?_, fun h => by simp at h, hu.others, hu.count, ?_, hu.only.mono (by decide)⟩
    · simp only [hu.part, hmap, Option.getD_none]
    · exact fun off ho => hu.regs off fun hm => ho (by simp only [List.mem_cons, List.not_mem_nil, or_false] at hm ⊢; tauto)
  | some m =>
    have hnone : (nextReady u p).isNone = true := by rw [hready]; rfl
    simp only [hnone, if_true, bind_apply]
    rw [hmap] at hawake
    have hjob : jobState u p = jobState s p := hu.regs.jobState (by
      simp only [List.mem_cons, List.not_mem_nil, or_false, not_or]
      exact ⟨rCtx_ne_rPart (by decide) c, by simp [rPart_eq]⟩)
    have hlow : ∀ x, x < 32 → regOf u (0x100 + x * 8) = regOf s (0x100 + x * 8) := fun x hx => hu.regs _ (by
      simp only [List.mem_cons, List.not_mem_nil, or_false, not_or]
      exact ⟨ne_rPart_of_lt (by omega) _, ne_rPart_of_lt (by omega) _⟩)
    have hcores := partCores_setPart (p := p) (d := { partOf u p with map := m }) (e := { partOf s p with map := m })
      hu.risingParts hc.risingParts rfl hlow
    refine ends_applyMap (m := m) (by rw [hu.part]; exact hmap) hu.risingParts (fun c => by rw [NoGrant, hpw]; exact hno c) (fun h2 c hcore => ?_)
      p.isLt fun t ht => ?_
    · rw [hcores] at hcore
      rw [hpw]
      exact hawake (hjob.symm.trans h2) c hcore
    have hpart : partOf t p = _ := ht.part hu.risingParts
    have hkeep : nextReady t p = none := (nextReady_congr (by rw [hpart]) fun k _ => ht.regs.field (by
      simp only [List.mem_cons, List.not_mem_nil, or_false, not_or]
      exact ⟨(rCtx_ne_rPart (by decide) k).symm, (ne_rPart_of_lt (by decide) _).symm⟩) 56 3).trans hready
    rw [ends_schedule_none (.inr (.inr hkeep)), ends_done]
    refine ⟨?_, ?_, fun _ => ⟨fun q hq => (ht.others hq).trans (hu.others q hq), ht.pending hu.rising, ?_, ?_, ?_⟩,
      fun q hq => (ht.others hq).trans (hu.others q hq), ?_, ?_, ?_⟩
    · rw [← hu.state]
      exact ht.regs.field (by
        simp only [List.mem_cons, List.not_mem_nil, or_false, not_or]
        exact ⟨(rCtx_ne_rPart (by decide) c).symm, (ne_rPart_of_lt (by decide) _).symm⟩) 56 3
    · rw [hpart, hu.part]
      rfl
    · rw [ht.awake, hpw]
    · rw [ht.held, hpw]
    · rw [ht.waiting, hpw]
    · rw [ht.regs.field, hu.count]
      simp only [List.mem_cons, List.not_mem_nil, or_false, not_or]
      exact ⟨by simp [rPart_eq], (ne_rPart_of_lt (by decide) _).symm⟩
    · exact regsBut_trans hu.regs ht.regs (by simp) (by simp)
    · exact (hu.only.mono (by decide)).trans ht.only

end Sys2Proof.Machine
end

section
/-!
SUPPORT. Matrix commands that stop for a switch (R209–R211), and the scratch that a context saves (R293, R296).
-/

namespace Sys2Proof.Machine

open Sys2Proof.Claims

variable {s : State} {Q : State → Prop} {p c : Nat}

/-- Whatever context comes in behind a saved one, if any: no map waits. -/
theorem ends_next {u : State} (hmap : (partOf u p).mapNext = none) (hp : Rising u.parts) {k : Unit → Prog}
    (hQ : ∀ v, OnlyChanges u v [.parts] → (partOf v p).running = (partOf u p).running → (partOf v p).scratch = (partOf u p).scratch →
      Ends (k ()) v Q) :
    Ends ((do
        if (nextReady u p).isNone then applyMap p
        schedule p : Act Unit) k) u Q := by
  have hschedule : Ends (schedule p k) u Q := by
    simp only [schedule, bind_apply, look_apply, ends_look, ends_ite_act, pure_apply]
    split
    · cases nextReady u p with
      | none => exact hQ u (onlyChanges_of_take rfl) rfl rfl
      | some d =>
        simp only [ends_modPart]
        refine hQ _ (onlyChanges_setPart _ _ _) ?_ ?_ <;> rw [partOf_setPart_same _ _ hp]
    · exact hQ u (onlyChanges_of_take rfl) rfl rfl
  cases hd : nextReady u p with
  | none => simpa only [Option.isNone_none, if_true, bind_apply, ends_applyMap_none hmap] using hschedule
  | some d => simpa only [Option.isNone_some, Bool.false_eq_true, if_false] using hschedule

/-! ## Tiles (R209–R211) -/

/-- The one matrix command of a thread has stopped at its cursor, and its core has counted it. -/
structure TileStopped (s t : State) (k slot : Nat) (th : Thread) (a : AsyncCmd) : Prop where
  thread : threadOf t k = { th with asyncs := [(slot, { a with phase := .stopped, grant := false })] }
  others : ∀ j, j ≠ k → threadOf t j = threadOf s j
  count : fieldOf t (rCore (k / 16 % 2048) 0x28) 0 32 = min 0xFFFFFFFF (fieldOf s (rCore (k / 16 % 2048) 0x28) 0 32 + 1)
  rest : fieldOf t (rCore (k / 16 % 2048) 0x28) 32 32 = fieldOf s (rCore (k / 16 % 2048) 0x28) 32 32
  regs : RegsBut s t [rCore (k / 16 % 2048) 0x28]
  only : OnlyChanges s t [.regs, .threads, .freeIdx]
  rising : Rising t.regs

theorem ends_stopTiles {k slot : Nat} {th : Thread} {a : AsyncCmd} (hth : threadOf s k = th) (has : th.asyncs = [(slot, a)])
    (heng : engineOf a.w = 3 ∨ engineOf a.w = 4) (hrun : a.phase = .running) (hcur : a.cur.isSome = true) (hno : NoGrant s (.cmd k slot))
    (hc : Canon s) {m : Unit → Prog} (hQ : ∀ t, TileStopped s t k slot th a → Ends (m ()) t Q) : Ends (stopTiles k th m) s Q := by
  obtain ⟨cur, hcur⟩ := Option.isSome_iff_exists.1 hcur
  have htiles : tilesUnderWay th = [(slot, a)] := by
    rcases heng with h | h <;> simp [tilesUnderWay, has, hrun, hcur, h]
  have hphase : (a.phase == .running) = true := by rw [hrun]; rfl
  have hword : rCore (k / 16 % 2048) 0x28 / 8 * 8 = rCore (k / 16 % 2048) 0x28 ∧ rCore (k / 16 % 2048) 0x28 % 8 * 8 = 0 := by
    simp only [rCore, rCmp]
    omega
  have hheld : s.pw.held.filter (fun g => g.who == .cmd k slot) = [] := List.filter_eq_nil_iff.2 fun g hg => by simpa using hno.1 g hg
  have hgrant : s.pw.held.any (fun g => g.who == .cmd k slot) = false := List.any_eq_false.2 fun g hg => by simpa using hno.1 g hg
  have hgetD : a.cur.getD { fin := true } = cur := by rw [hcur]; rfl
  simp only [stopTiles, htiles, List.forIn_cons, List.forIn_nil, bind_apply, ends_drawFree, hphase, Bool.true_or, if_true, ends_ctr32, hword.1,
    hword.2, look_apply, ends_look]
  set r := rCore (k / 16 % 2048) 0x28 with hr
  set s0 : State := { s with freeIdx := s.freeIdx + 1 } with hs0
  have honly0 : OnlyChanges s s0 [.freeIdx] := onlyChanges_of_take rfl
  have hrise0 : Rising s0.regs := hc.rising
  have hfield0 : ∀ off lo len, fieldOf s0 off lo len = fieldOf s off lo len := honly0.field (by decide)
  clear_value s0
  set n := min 0xFFFFFFFF (fieldOf s0 r 0 32 + 1) with hn
  have honly1 := onlyChanges_setField s0 r 0 32 n
  have hregs1 := regsBut_setField s0 r 0 32 n
  have hcount1 : fieldOf (s0.setField r 0 32 n) r 0 32 = n := by
    rw [fieldOf_setField_same _ _ _ _ _ hrise0 (by decide)]
    exact Nat.mod_eq_of_lt (by omega)
  have hrest1 : fieldOf (s0.setField r 0 32 n) r 32 32 = fieldOf s0 r 32 32 :=
    fieldOf_setField_other _ _ _ _ _ _ _ hrise0 (by decide) (by decide)
  have hrise1 := setField_rising s0 r 0 32 n hrise0
  generalize s0.setField r 0 32 n = s1 at honly1 hregs1 hcount1 hrest1 hrise1 ⊢
  have honly2 : OnlyChanges s s1 [.regs, .freeIdx] := (honly0.mono (by decide)).trans (honly1.mono (by decide))
  have hpw : s1.pw = s.pw := honly2 .pw (by decide)
  have hno1 : NoGrant s1 (.cmd k slot) := by rwa [NoGrant, hpw]
  have hth1 : threadOf s1 k = th := (honly2.threadOf (by decide) k).trans hth
  have hrt1 : Rising s1.threads := by
    rw [(honly2 .threads (by decide)).1]
    exact hc.risingThreads
  simp only [hpw, hheld, List.forIn_nil, holdsGrant, hgrant, pure_apply, ends_dropGrant_none hno1, ends_putAsync, hth1,
    asyncPut_only has, hgetD, ← hcur]
  set v : Thread := { th with asyncs := [(slot, { a with phase := .stopped, grant := false })] } with hv
  have honly3 := onlyChanges_setThread s1 k v
  refine hQ _ ⟨threadOf_setThread_same _ _ hrt1, fun j hj => (threadOf_setThread_ne _ hj).trans (honly2.threadOf (by decide) j), ?_, ?_, ?_, ?_, hrise1⟩
  · rw [honly3.field (by decide), hcount1, hn, hfield0]
  · rw [honly3.field (by decide), hrest1, hfield0]
  · exact fun off ho => (honly3 .regs (by decide) off).trans ((hregs1 off ho).trans (honly0 .regs (by decide) off))
  · exact (honly2.mono (by decide)).trans (honly3.mono (by decide))

theorem ctxSwitchStops_holds (s : State) (p : Fin 64) (c k slot : Nat) (th : Thread) (a : AsyncCmd) : (ctxSwitchStops s p c k slot th a).Holds := by
  rintro ⟨hsaves, hthreads, has, heng, hrun, hcur, hno, hmap⟩
  have hc := canon_of_saves hsaves
  obtain ⟨hth, -⟩ := threadOf_of_ctxThreads hc.risingThreads (show (k, th) ∈ ctxThreads s p c by simp [hthreads])
  refine answers_of_ends (switchSaved p) rfl ?_
  rw [ends_switchSaved hsaves, hthreads, List.forIn_cons]
  simp only [bind_apply]
  refine ends_stopTiles hth has heng hrun hcur hno hc fun t ht => ?_
  simp only [pure_apply, List.forIn_nil]
  refine ends_savedAct (out_lt_of_saves hsaves) (ht.only .parts (by decide)) ht.rising hc.risingParts fun u hu => ?_
  refine ends_next (by rw [hu.part]; exact hmap) hu.risingParts fun v hv hvrun _ => ?_
  have hne1 : rCore (k / 16 % 2048) 0x28 ≠ rCtx p c 0 := by
    simp only [rCore, rCmp, rCtx_eq]
    omega
  have hne2 : rCore (k / 16 % 2048) 0x28 ≠ rPart p 0x930 := by
    simp only [rCore, rCmp, rPart_eq]
    omega
  have hcore : rCore (k / 16 % 2048) 0x28 ∉ [rCtx p c 0, rPart p 0x930] := by
    simp only [List.mem_cons, List.not_mem_nil, or_false, not_or]
    exact ⟨hne1, hne2⟩
  rw [ends_done]
  refine ⟨?_, ?_, ?_, fun j hj => ?_, ?_, ?_, ?_, ?_⟩
  · rw [ctxState, hv.field (by decide)]
    exact hu.state
  · rw [hvrun, hu.part]
  · rw [hv.threadOf (by decide), hu.only.threadOf (by decide), ht.thread]
  · rw [hv.threadOf (by decide), hu.only.threadOf (by decide), ht.others j hj]
  · rw [hv.field (by decide), hu.regs.field hcore, ht.count]
  · rw [hv.field (by decide), hu.regs.field hcore, ht.rest]
  · exact fun off ho => (hv .regs (by decide) off).trans (regsBut_trans ht.regs hu.regs (by simp) (by simp) off ho)
  · exact ((ht.only.mono (by decide)).trans (hu.only.mono (by decide))).trans (hv.mono (by decide))

/-! ## Saved scratch (R293, R296) -/

/-- Entries under other keys do not matter. -/
theorem tget_of_not_mem {α : Type} (d : α) {l : Tbl α} {k : Nat} (h : ∀ e ∈ l, e.1 ≠ k) : tget d l k = d := by
  induction l with
  | nil => rfl
  | cons e l ih =>
    have hne := h e (by simp)
    rw [tget, if_neg hne]
    exact ih fun x hx => h x (by simp [hx])

theorem tget_append_right {α : Type} (d : α) {l m : Tbl α} {k : Nat} (h : ∀ e ∈ l, e.1 ≠ k) : tget d (l ++ m) k = tget d m k := by
  induction l with
  | nil => rfl
  | cons e l ih =>
    have hne := h e (by simp)
    rw [List.cons_append, tget, if_neg hne]
    exact ih fun x hx => h x (by simp [hx])

theorem tget_append_left {α : Type} (d : α) {l m : Tbl α} {k : Nat} (h : ∀ e ∈ m, e.1 ≠ k) : tget d (l ++ m) k = tget d l k := by
  induction l with
  | nil => exact tget_of_not_mem d h
  | cons e l ih => rw [List.cons_append, tget, tget, ih]

/-- What a saved scratch replaces, and what it leaves. -/
theorem tget_insert_same {α : Type} (d v : α) (l : Tbl α) (c : Nat) :
    tget d (l.filter (fun e => e.1 < c) ++ (c, v) :: l.filter (fun e => c < e.1)) c = v := by
  rw [tget_append_right d fun e he => ?_]
  · exact if_pos rfl
  · have := (List.mem_filter.1 he).2
    simp only [decide_eq_true_eq] at this
    omega

theorem tget_insert_ne {α : Type} (d v : α) (l : Tbl α) {c k : Nat} (h : k ≠ c) :
    tget d (l.filter (fun e => e.1 < c) ++ (c, v) :: l.filter (fun e => c < e.1)) k = tget d l k := by
  rcases Nat.lt_or_gt_of_ne h with hlt | hgt
  · rw [tget_append_left d fun e he => ?_]
    · exact tget_tkeep_of d l (fun x => x < c) k (decide_eq_true hlt)
    · rcases List.mem_cons.1 he with rfl | he
      · exact h.symm
      · have := (List.mem_filter.1 he).2
        simp only [decide_eq_true_eq] at this
        omega
  · rw [tget_append_right d fun e he => ?_, tget, if_neg h.symm]
    · exact tget_tkeep_of d l (fun x => c < x) k (decide_eq_true hgt)
    · have := (List.mem_filter.1 he).2
      simp only [decide_eq_true_eq] at this
      omega

theorem ctxScratchSaved_holds (s : State) (p : Fin 64) (c : Nat) : (ctxScratchSaved s p c).Holds := by
  rintro ⟨hsaves, htiles, hsave, hmap⟩
  have hc := canon_of_saves hsaves
  refine answers_of_ends (switchSaved p) rfl ?_
  rw [ends_switchSaved hsaves, ends_stop_none htiles]
  refine ends_savedAct (out_lt_of_saves hsaves) rfl hc.rising hc.risingParts fun u hu => ?_
  refine ends_next (by rw [hu.part]; exact hmap) hu.risingParts fun v hv _ hscr => ?_
  have hscratch : (partOf v p).scratch = scratchSaved s p c := by rw [hscr, hu.part]
  rw [scratchSaved, if_pos hsave] at hscratch
  have hmem : ∀ a, memAt v a = memAt s a := fun a => (hv .mem (by decide) a).trans (hu.only .mem (by decide) a)
  rw [ends_done]
  refine ⟨fun a ha => ⟨?_, hmem a⟩, fun k hk => ?_⟩
  · rw [hscratch, tget_insert_same]
    exact tget_tkeep_of 0 s.mem (inPartScratch s p) a ha
  · rw [hscratch, tget_insert_ne _ _ _ hk]

end Sys2Proof.Machine
end

section
/-!
SUPPORT. A context that is restored, its scratch and its stopped commands (R209, R210, R296, R298).
-/

namespace Sys2Proof.Machine

open Sys2Proof.Claims

variable {s : State} {Q : State → Prop} {p c : Nat}

/-! ## The restore of a context -/

/-- What a restore does with the threads once its context runs. -/
def goOnAct (p c : Nat) : Act Unit := do
  for e in ctxThreads (← look) p c do
    restartStopped e.1 e.2
  for kc in queuedCores (← look) p c do
    startQueued 257 (16 * kc)

/-- What a restore does once the scratch is back and a waiting map is in force. -/
def restoredAct (p c : Nat) : Act Unit := do
  setCtxState p c 2
  let now := (← look).time.now
  modPart p (fun d => { d with running := some c, incoming := none, switching := .none, sliceStart := now })
  goOnAct p c

theorem ends_switchRestored (hsw : (partOf s p).switching = .restoring) (hin : (partOf s p).incoming = some c) (k : Unit → Prog) :
    Ends (switchRestored p k) s Q = Ends ((do
      restoreScratch p c
      applyMap p
      restoredAct p c : Act Unit) k) s Q := by
  have hrestoring : ((partOf s p).switching == .restoring) = true := by rw [hsw]; rfl
  simp only [switchRestored, bind_apply, look_apply, ends_look, if_pos hrestoring, hin]
  rfl

theorem ends_restoreScratch_none (h : savesScratch s p c = false) (k : Unit → Prog) : Ends (restoreScratch p c k) s Q = Ends (k ()) s Q := by
  simp only [restoreScratch, bind_apply, look_apply, ends_look, h, Bool.false_eq_true, if_false, pure_apply]

/-- A context runs, and its slice has begun. -/
structure Resumed (t u : State) (p c : Nat) : Prop where
  state : ctxState u p c = 2
  part : partOf u p = { partOf t p with running := some c, incoming := none, switching := .none, sliceStart := t.time.now }
  others : ∀ q, q ≠ p → partOf u q = partOf t q
  regs : RegsBut t u [rCtx p c 0]
  only : OnlyChanges t u [.parts, .regs]

theorem ends_restoredAct {t : State} (hr : Rising t.regs) (hp : Rising t.parts) {k : Unit → Prog}
    (hQ : ∀ u, Resumed t u p c → Ends (goOnAct p c k) u Q) : Ends (restoredAct p c k) t Q := by
  simp only [restoredAct, bind_apply, ends_setCtxState, look_apply, ends_look, ends_modPart]
  have hst1 : ctxState (t.setField (rCtx p c 0) 56 3 2) p c = 2 := ctxState_setField_same hr (by decide)
  have hregs1 := regsBut_setField t (rCtx p c 0) 56 3 2
  have honly1 := onlyChanges_setField t (rCtx p c 0) 56 3 2
  generalize t.setField (rCtx p c 0) 56 3 2 = t1 at hst1 hregs1 honly1 ⊢
  have htime : t1.time = t.time := honly1 .time (by decide)
  have hparts1 : Rising t1.parts := by
    rw [honly1 .parts (by decide)]
    exact hp
  rw [honly1.partOf (by decide), htime]
  set d : Part := { partOf t p with running := some c, incoming := none, switching := .none, sliceStart := t.time.now } with hd
  have honly2 := onlyChanges_setPart t1 p d
  refine hQ _ ⟨?_, partOf_setPart_same _ _ hparts1, fun q hq => (partOf_setPart_ne _ hq).trans (honly1.partOf (by decide) q), ?_, ?_⟩
  · exact hst1
  · exact fun off ho => (honly2 .regs (by decide) off).trans (hregs1 off ho)
  · exact (honly1.mono (by decide)).trans (honly2.mono (by decide))

/-! ## Commands that neither stopped nor wait -/

theorem queuedCores_nil (h : ∀ e ∈ ctxThreads s p c, ∀ a ∈ e.2.asyncs, a.2.phase ≠ .queued) : queuedCores s p c = [] := by
  have hnone : (ctxThreads s p c).filter (fun e => e.2.asyncs.any (fun a => a.2.phase == .queued)) = [] :=
    List.filter_eq_nil_iff.2 fun e he => by simpa using fun n a ha => h e he (n, a) ha
  rw [queuedCores, hnone]
  rfl

theorem ends_restart_none {l : List (Nat × Thread)} (h : ∀ e ∈ l, ∀ a ∈ e.2.asyncs, a.2.phase ≠ .stopped) (k : PUnit → Prog) :
    Ends ((forIn l PUnit.unit (fun e _ => do
      restartStopped e.1 e.2
      pure (ForInStep.yield PUnit.unit)) : Act PUnit) k) s Q = Ends (k PUnit.unit) s Q :=
  ends_forIn_id (fun e he k => by simp only [bind_apply, ends_restartStopped_none (h e he), pure_apply]) k

theorem ends_goOn_none (h : ∀ e ∈ ctxThreads s p c, ∀ a ∈ e.2.asyncs, a.2.phase ≠ .stopped ∧ a.2.phase ≠ .queued) (k : Unit → Prog) :
    Ends (goOnAct p c k) s Q = Ends (k ()) s Q := by
  simp only [goOnAct, bind_apply, look_apply, ends_look]
  have hnil := queuedCores_nil fun e he a ha => (h e he a ha).2
  rw [ends_restart_none fun e he a ha => (h e he a ha).1]
  simp only [ends_look, hnil, List.forIn_nil, pure_apply]

theorem ctxThreads_congr {t : State} (h : t.threads = s.threads) (p c : Nat) : ctxThreads t p c = ctxThreads s p c := by
  rw [ctxThreads, h, ctxThreads]

theorem ctxSwitchRestored_holds (s : State) (p : Fin 64) (c : Nat) : (ctxSwitchRestored s p c).Holds := by
  rintro ⟨⟨hsw, hin, hquiet, hc⟩, hmap, hsave⟩
  refine answers_of_ends (switchRestored p) rfl ?_
  rw [ends_switchRestored hsw hin]
  simp only [bind_apply, ends_restoreScratch_none hsave, ends_applyMap_none hmap]
  refine ends_restoredAct hc.rising hc.risingParts fun u hu => ?_
  rw [ends_goOn_none (by rwa [ctxThreads_congr (hu.only .threads (by decide)).1]), ends_done]
  exact ⟨hu.state, hu.part, hu.others, hu.regs, hu.only⟩

theorem ctxSwitchMap_holds (s : State) (p : Fin 64) (c : Nat) (m : PartMap) : (ctxSwitchMap s p c m).Holds := by
  rintro ⟨⟨hsw, hin, hquiet, hc⟩, hmap, hsave, hno, hawake⟩
  refine answers_of_ends (switchRestored p) rfl ?_
  rw [ends_switchRestored hsw hin]
  simp only [bind_apply, ends_restoreScratch_none hsave]
  refine ends_applyMap hmap hc.risingParts hno hawake p.isLt fun t ht => ?_
  have htparts : Rising t.parts := by
    rw [ht.parts]
    exact rising_setPart hc.risingParts _ _
  have hpw : ∀ u, Resumed t u p c → u.pw = t.pw := fun u hu => hu.only .pw (by decide)
  refine ends_restoredAct (ht.rising hc.rising) htparts fun u hu => ?_
  have hthreads : u.threads = s.threads := (hu.only .threads (by decide)).1.trans (ht.only .threads (by decide)).1
  have hcore : ∀ q core, coreOfPart u q core = coreOfPart t q core := fun q core => by
    refine coreOfPart_congr ?_ fun x hx => hu.regs _ (mt List.mem_singleton.1 (ne_rPart_of_lt (by omega) _))
    by_cases hq : q = p.val
    · rw [hq, hu.part]
    · rw [hu.others q hq]
  rw [ends_goOn_none (by rwa [ctxThreads_congr hthreads]), ends_done]
  refine ⟨hu.state, ⟨fun q hq => (hu.others q hq).trans (ht.others hq), ?_, ?_, ?_, ?_⟩, ?_, ?_, ?_⟩
  · rw [hu.regs.field (mt List.mem_singleton.1 (rCtx_ne_rPart (by decide) c))]
    exact ht.pending hc.rising
  · rw [hpw u hu, ht.awake]
    simp only [hcore]
  · rw [hpw u hu, ht.held]
  · rw [hpw u hu, ht.waiting]
  · rw [hu.part, ht.part hc.risingParts, ht.only .time (by decide)]
  · exact regsBut_trans ht.regs hu.regs (by simp) (by simp)
  · exact ht.only.trans (hu.only.mono (by decide))

/-! ## Scratch that comes back (R293, R296) -/

/-- Cells written one after the other, the first of the list last. -/
def putCells (m l : List Host.Cell) : List Host.Cell := l.foldr (fun e m => tput 0 m e.1 e.2) m

theorem rising_putCells (l : List Host.Cell) {m : List Host.Cell} (h : Rising m) : Rising (putCells m l) := by
  induction l with
  | nil => exact h
  | cons e l ih => exact tput_rising _ _ _ _ ih

theorem tget_putCells (l : List Host.Cell) {m : List Host.Cell} (h : Rising m) (a : Nat) : tget 0 (putCells m l) a = tget (tget 0 m a) l a := by
  induction l with
  | nil => rfl
  | cons e l ih =>
    obtain ⟨x, b⟩ := e
    rw [tget, ← ih]
    by_cases hx : x = a
    · rw [if_pos hx, hx]
      exact tget_tput_same _ _ _ _ (rising_putCells l h)
    · rw [if_neg hx]
      exact tget_tput_ne _ _ _ _ _ (Ne.symm hx)

theorem ends_putCells (l : List Host.Cell) (m : List Host.Cell) (k : PUnit → Prog) (s : State) :
    Ends ((forIn l.reverse PUnit.unit (fun e _ => do
      eff (.mem e.1 e.2)
      pure (ForInStep.yield PUnit.unit)) : Act PUnit) k) { s with mem := m } Q = Ends (k PUnit.unit) { s with mem := putCells m l } Q := by
  rw [ends_forIn l.reverse _ (fun t e => { t with mem := tput 0 t.mem e.1 e.2 }) fun e _ k t => rfl]
  congr 1
  induction l with
  | nil => rfl
  | cons e l ih =>
    rw [List.reverse_cons, List.foldl_append, ih]
    rfl

theorem ends_restoreScratch (h : savesScratch s p c = true) (hm : Rising s.mem) {k : Unit → Prog}
    (hQ : ∀ t, (∀ a, memAt t a = if inPartScratch s p a then tget 0 (tget {} (partOf s p).scratch c).bytes a else memAt s a) →
      OnlyChanges s t [.mem, .mem2] → t.regs = s.regs → Ends (k ()) t Q) : Ends (restoreScratch p c k) s Q := by
  simp only [restoreScratch, bind_apply, look_apply, ends_look, if_pos h, eff_apply, ends_eff]
  set l := (tget {} (partOf s p).scratch c).bytes.filter (fun e => inPartScratch s p e.1) with hl
  set m := tkeep (fun a => !inPartScratch s p a) s.mem with hmdef
  have hstep : ∀ k, Ends ((forIn l.reverse PUnit.unit (fun e _ => do
      eff (.mem e.1 e.2)
      pure (ForInStep.yield PUnit.unit)) : Act PUnit) k) ((Effect.memKeep fun a => !inPartScratch s p a).apply s) Q =
      Ends (k PUnit.unit) { s with mem := putCells m l } Q := fun k => ends_putCells l m k s
  rw [hstep]
  simp only [ends_modMem2]
  refine hQ _ (fun a => ?_) (onlyChanges_of_take rfl) rfl
  have hread : tget 0 (putCells m l) a = tget (tget 0 m a) l a := tget_putCells l (rising_tkeep _ hm) a
  refine hread.trans ?_
  by_cases ha : inPartScratch s p a = true
  · rw [if_pos ha, hmdef, tget_tkeep_not 0 s.mem _ a (by simp [ha])]
    exact tget_tkeep_of 0 _ (inPartScratch s p) a ha
  · have hout : ∀ e ∈ l, e.1 ≠ a := fun e he hea => ha (by rw [← hea]; exact (List.mem_filter.1 he).2)
    rw [if_neg ha, tget_of_not_mem _ hout]
    exact tget_tkeep_of 0 s.mem _ a (by simp [ha])

theorem ctxScratchRestored_holds (s : State) (p : Fin 64) (c : Nat) : (ctxScratchRestored s p c).Holds := by
  rintro ⟨⟨hsw, hin, hquiet, hc⟩, hmap, hsave⟩
  refine answers_of_ends (switchRestored p) rfl ?_
  rw [ends_switchRestored hsw hin]
  simp only [bind_apply]
  refine ends_restoreScratch hsave hc.risingMem fun t hmem honly hregs => ?_
  have hpart : ∀ q, partOf t q = partOf s q := honly.partOf (by decide)
  rw [ends_applyMap_none (by rwa [hpart])]
  refine ends_restoredAct (by rw [hregs]; exact hc.rising) (by rw [honly .parts (by decide)]; exact hc.risingParts) fun u hu => ?_
  have hthreads : u.threads = s.threads := (hu.only .threads (by decide)).1.trans (honly .threads (by decide)).1
  rw [ends_goOn_none (by rwa [ctxThreads_congr hthreads]), ends_done]
  refine ⟨hu.state, ?_, fun a => (hu.only .mem (by decide) a).trans (hmem a), fun q hq => (hu.others q hq).trans (hpart q), fun off ho => ?_, ?_⟩
  · rw [hu.part, hpart, honly .time (by decide)]
  · exact (hu.regs off ho).trans (honly .regs (by decide) off)
  · exact (honly.mono (by decide)).trans (hu.only.mono (by decide))

end Sys2Proof.Machine
end

section
/-!
SUPPORT. Stopped commands of a context that is restored (R209, R210, R296).
-/

namespace Sys2Proof.Machine

open Sys2Proof.Claims

variable {s : State} {Q : State → Prop} {p c k slot : Nat} {th : Thread} {a : AsyncCmd}

/-- The one thread of a context, whose one command was stopped, goes on behind the request for its new grant. -/
theorem ends_goOn_asks (hr : Rising s.threads) (hthreads : ctxThreads s p c = [(k, th)]) (has : th.asyncs = [(slot, a)])
    (hstop : a.phase = .stopped) (hgrant : a.grant = true) (m : Unit → Prog) :
    Ends (goOnAct p c m) s Q = Ends (m ()) (s.restarted k slot th a) Q := by
  obtain ⟨hth, -⟩ := threadOf_of_ctxThreads hr (show (k, th) ∈ ctxThreads s p c by simp [hthreads])
  have hnil : queuedCores (s.restarted k slot th a) p c = [] := queuedCores_nil fun e he x hx => by
    obtain ⟨hin, hkey⟩ := List.mem_filter.1 he
    rcases mem_tput (t := s.threads) hin with rfl | hin
    · obtain rfl : x = (slot, { a with phase := if a.grant then .waitGrant else .queued }) := by simpa using hx
      simp [hgrant]
    · have he' : e ∈ ctxThreads s p c := List.mem_filter.2 ⟨hin, hkey⟩
      rw [hthreads, List.mem_singleton] at he'
      subst he'
      rw [has, List.mem_singleton] at hx
      subst hx
      simp [hstop]
  simp only [goOnAct, bind_apply, look_apply, ends_look, hthreads, List.forIn_cons, List.forIn_nil, ends_restartStopped hth has hstop, pure_apply,
    hnil]

theorem ctxRestoredAsks_holds (s : State) (p : Fin 64) (c k slot : Nat) (th : Thread) (a : AsyncCmd) : (ctxRestoredAsks s p c k slot th a).Holds := by
  rintro ⟨hsw, hin, hmap, hsave, hthreads, has, hstop, hgrant, hpart, hc⟩
  refine answers_of_ends (switchRestored p) rfl ?_
  rw [ends_switchRestored hsw hin]
  simp only [bind_apply, ends_restoreScratch_none hsave, ends_applyMap_none hmap]
  refine ends_restoredAct hc.rising hc.risingParts fun u hu => ?_
  have huth : u.threads = s.threads := (hu.only .threads (by decide)).1
  have hru : Rising u.threads := by
    rw [huth]
    exact hc.risingThreads
  obtain ⟨hsame, hne, honly, hpw, -, -⟩ := restarted_facts (s := u) (k := k) (slot := slot) (th := th) (a := a) hru
  rw [ends_goOn_asks hru (by rwa [ctxThreads_congr huth]) has hstop hgrant, ends_done]
  refine ⟨?_, ?_, ?_, fun j hj => ?_, ?_, ?_, ?_⟩
  · rw [ctxState, honly.field (by decide)]
    exact hu.state
  · rw [honly.partOf (by decide), hu.part]
  · rw [hsame, hgrant]
    rfl
  · rw [hne j hj, hu.only.threadOf (by decide)]
  · rw [hpw, askAgain_congr hu.regs (hu.only .time (by decide)), hu.only .pw (by decide), askAgain, if_pos hgrant, hpart]
  · exact fun off ho => (honly .regs (by decide) off).trans (hu.regs off ho)
  · exact (hu.only.mono (by decide)).trans (honly.mono (by decide))

/-! ## A command without a grant goes on (R209, R210) -/

/-- The one command of the one thread waits for nothing and starts. -/
theorem nextQueued_only (hthreads : s.threads = [(k, th)]) (has : th.asyncs = [(slot, a)]) (hphase : a.phase = .queued)
    (hrun : (partOf s (k / 16 / 2048 / 16)).running = some (k / 16 / 2048 % 16)) (hsw : (partOf s (k / 16 / 2048 / 16)).switching = .none)
    (hno : NoGrant s (.cmd k slot)) : nextQueued s (16 * (k / 16)) = some (k, slot, a) := by
  have hback : keepsBack s k a k a.w a.seq = false := by
    unfold keepsBack
    split <;> simp [hphase, unstarted]
  have hahead : engineAhead s k a.w a.seq = false := by
    simp [engineAhead, hthreads, has, hback]
  have hheld : s.pw.held.any (fun g => g.who == .cmd k slot && g.paused) = false := List.any_eq_false.2 fun g hg => by
    simp [hno.1 g hg]
  have hstart : startable s k slot a = true := by
    simp [startable, hphase, hahead, hheld, hrun, hsw]
  have hcore : (k / 16 == 16 * (k / 16) / 16) = true := by
    rw [beq_iff_eq]
    omega
  simp only [nextQueued, hthreads, List.flatMap_cons, List.flatMap_nil, has, List.filter_cons, hcore, Bool.true_or, Bool.true_and, hstart, if_true,
    List.filter_nil, List.map_cons, List.map_nil, List.append_nil, List.foldl_cons, List.foldl_nil]

theorem nextQueued_none (hthreads : s.threads = [(k, th)]) (has : th.asyncs = [(slot, a)]) (hphase : a.phase ≠ .queued) (kc : Nat) :
    nextQueued s kc = none := by
  have hstart : startable s k slot a = false := by
    simp [startable, hphase]
  simp only [nextQueued, hthreads, List.flatMap_cons, List.flatMap_nil, has, List.filter_cons, hstart, Bool.and_false, Bool.false_eq_true, if_false,
    List.filter_nil, List.map_nil, List.append_nil, List.foldl_nil]

/-- A queued command whose tiles are all done has only its completion left. -/
theorem ends_startQueued_fin {x : Cursor} (hthreads : s.threads = [(k, th)]) (has : th.asyncs = [(slot, a)]) (hphase : a.phase = .queued)
    (hrun : (partOf s (k / 16 / 2048 / 16)).running = some (k / 16 / 2048 % 16)) (hsw : (partOf s (k / 16 / 2048 / 16)).switching = .none)
    (hno : NoGrant s (.cmd k slot)) (hcur : a.cur = some x) (hfin : x.fin = true) (fuel : Nat) (m : Unit → Prog) :
    Ends (startQueued (fuel + 2) (16 * (k / 16)) m) s Q =
      Ends (m ()) (s.setThread k { th with asyncs := [(slot, { w := a.w, phase := .done, flags := a.flags })] }) Q := by
  have hth : threadOf s k = th := by
    rw [threadOf, hthreads]
    exact if_pos rfl
  have hdone : a.cur.map (·.fin) = some true := by rw [hcur]; exact congrArg some hfin
  rw [startQueued]
  simp only [bind_apply, look_apply, ends_look, nextQueued_only hthreads has hphase hrun hsw hno, startAsync, if_pos hdone, ends_putAsync, hth,
    asyncPut_only has]
  have hthreads' : (s.setThread k { th with asyncs := [(slot, { w := a.w, phase := .done, flags := a.flags })] }).threads =
      [(k, { th with asyncs := [(slot, { w := a.w, phase := .done, flags := a.flags })] })] := by
    have hne : ({ th with asyncs := [(slot, { w := a.w, phase := .done, flags := a.flags })] } : Thread) ≠ {} := fun h => by
      have := congrArg Thread.asyncs h
      simp at this
    simp only [State.setThread, Effect.apply, hthreads, tput, lt_irrefl, if_false, if_true, if_neg hne]
  have hnone := nextQueued_none (slot := slot) (a := { w := a.w, phase := .done, flags := a.flags }) hthreads' rfl (by simp) (16 * (k / 16))
  rw [startQueued]
  simp only [bind_apply, look_apply, ends_look, hnone, pure_apply]

theorem ctxRestoredGoesOn_holds (s : State) (p : Fin 64) (c k slot : Nat) (th : Thread) (a : AsyncCmd) (x : Cursor) :
    (ctxRestoredGoesOn s p c k slot th a x).Holds := by
  rintro ⟨hsw, hin, hmap, hsave, hall, hkey, hlt, has, hstop, hgrant, hcur, hfin, hno, hc⟩
  have hp : k / 16 / 2048 / 16 = p.val := by
    rw [hkey, ctxKey]
    omega
  have hctx : k / 16 / 2048 % 16 = c := by
    rw [hkey, ctxKey]
    omega
  refine answers_of_ends (switchRestored p) rfl ?_
  rw [ends_switchRestored hsw hin]
  simp only [bind_apply, ends_restoreScratch_none hsave, ends_applyMap_none hmap]
  refine ends_restoredAct hc.rising hc.risingParts fun u hu => ?_
  have huth : u.threads = [(k, th)] := (hu.only .threads (by decide)).1.trans hall
  have hthreads : ctxThreads u p c = [(k, th)] := by simp [ctxThreads, huth, hkey]
  have hth : threadOf u k = th := by
    rw [threadOf, huth]
    exact if_pos rfl
  set b : AsyncCmd := { a with phase := .queued, grant := false } with hb
  set v : Thread := { th with asyncs := [(slot, b)] } with hv
  have hrestart : u.restarted k slot th a = u.setThread k v := by
    simp only [State.restarted, askAgain, hgrant, Bool.false_eq_true, if_false, List.append_nil]
    rfl
  have hne : v ≠ {} := fun h => by
    have := congrArg Thread.asyncs h
    simp [hv] at this
  have hthreads1 : (u.setThread k v).threads = [(k, v)] := by
    simp only [State.setThread, Effect.apply, huth, tput, lt_irrefl, if_false, if_true, if_neg hne]
  have honly1 := onlyChanges_setThread u k v
  simp only [goOnAct, bind_apply, look_apply, ends_look, hthreads, List.forIn_cons, List.forIn_nil, ends_restartStopped hth has hstop, pure_apply,
    hrestart]
  generalize u.setThread k v = u1 at hthreads1 honly1 ⊢
  have hcores : queuedCores u1 p c = [k / 16] := by
    have hone : [k / 16].eraseDups = [k / 16] := rfl
    simp [queuedCores, ctxThreads, hthreads1, hkey, hv, hb, hone]
  have hpart1 : partOf u1 p = _ := (honly1.partOf (by decide) p).trans hu.part
  have hpw1 : u1.pw = s.pw := (honly1 .pw (by decide)).trans (hu.only .pw (by decide))
  have hstart := ends_startQueued_fin (s := u1) (Q := fun t => ctxState t p c = 2 ∧ (partOf t p).running = some c ∧
      threadOf t k = { th with asyncs := [(slot, { w := a.w, phase := .done, flags := a.flags })] } ∧
      RegsBut s t [rCtx p c 0] ∧ OnlyChanges s t [.parts, .regs, .threads]) (a := b) (x := x) (slot := slot) hthreads1 rfl rfl
    (by rw [hp, hpart1, hctx]) (by rw [hp, hpart1]) (by rwa [NoGrant, hpw1]) hcur hfin 255 (fun _ => .done)
  simp only [hcores, List.forIn_cons, List.forIn_nil, bind_apply, pure_apply]
  refine hstart.mpr ?_
  rw [ends_done]
  have honly2 := onlyChanges_setThread u1 k { v with asyncs := [(slot, { w := b.w, phase := .done, flags := b.flags })] }
  have hr1 : Rising u1.threads := by
    rw [hthreads1]
    exact List.pairwise_singleton _ _
  refine ⟨?_, ?_, threadOf_setThread_same _ _ hr1, fun off ho => ?_, ?_⟩
  · rw [ctxState, honly2.field (by decide), honly1.field (by decide)]
    exact hu.state
  · rw [honly2.partOf (by decide), hpart1]
  · exact (honly2 .regs (by decide) off).trans ((honly1 .regs (by decide) off).trans (hu.regs off ho))
  · exact ((hu.only.mono (by decide)).trans (honly1.mono (by decide))).trans (honly2.mono (by decide))

end Sys2Proof.Machine
end

section
/-!
SUPPORT. CTX_RESET (R293, R294, R299).
-/

namespace Sys2Proof.Machine

open Sys2Proof.Claims

variable {s : State} {Q : State → Prop} {p c : Nat} {w : Wr}

/-! ## What refers to a context goes -/

/-- The threads, pips and vector buffers of a context have gone. -/
structure CtxDropped (s t : State) (p c : Nat) : Prop where
  threads : t.threads = tkeep (fun k => !(k / 16 / 2048 == ctxKey p c)) s.threads
  pips : t.pips = tkeep (fun k => k / 64 / 2048 != ctxKey p c) s.pips
  vbufs : t.vbufs = tkeep (fun k => k / 4 / 2048 != ctxKey p c) s.vbufs
  regs : RegsBut s t [0x040018]
  only : OnlyChanges s t [.threads, .pips, .vbufs, .regs, .pw, .fab]
  rising : Rising s.regs → Rising t.regs

theorem ends_dropCtx (h : CtxLoose s p c) {k : Unit → Prog} (hQ : ∀ t, CtxDropped s t p c → Ends (k ()) t Q) : Ends (dropCtx p c k) s Q := by
  obtain ⟨href, hqueues, hsubmits, hsamples, hreqs, hmoves, hheld, hwaiting⟩ := h
  simp only [dropCtx, bind_apply, look_apply, ends_look]
  rw [ends_forIn_id fun e he k => by rw [href e he]; rfl]
  refine ends_dropGrants_none (by simp [hheld]) (by simp [hwaiting]) fun u honly hregs _ _ _ hrise => ?_
  have hsub : u.submits = s.submits := honly .submits (by decide)
  have hsam : u.samples = s.samples := honly .samples (by decide)
  have hth : u.threads = s.threads := (honly .threads (by decide)).1
  have hpips : u.pips = s.pips := honly .pips (by decide)
  have hvbufs : u.vbufs = s.vbufs := honly .vbufs (by decide)
  simp only [hqueues, List.forIn_nil, pure_apply, ends_modSubmits, hsub, hsubmits, List.filter_nil, List.map_nil, ends_look, eff_apply, ends_eff,
    hsam, hsamples, ends_modFab]
  refine hQ _ ⟨?_, ?_, ?_, hregs, ?_, hrise⟩
  · rw [← hth]
    rfl
  · rw [← hpips]
    rfl
  · rw [← hvbufs]
    rfl
  · refine (honly.mono (by decide)).trans (onlyChanges_of_take ?_)
    have e1 := hsub.trans hsubmits
    have e2 := hsam.trans hsamples
    simp only [State.take, e1, e2]
    rfl

/-! ## The fresh threads (R293, R299) -/

/-- Entries put into a table one after the other. -/
def putAll {α : Type} [DecidableEq α] (d : α) (t l : Tbl α) : Tbl α := l.foldl (fun t e => tput d t e.1 e.2) t

section
variable {α : Type} [DecidableEq α] (d : α) {l t : Tbl α} {k : Nat}

theorem tget_putAll_not_mem (h : ∀ e ∈ l, e.1 ≠ k) : tget d (putAll d t l) k = tget d t k := by
  induction l generalizing t with
  | nil => rfl
  | cons e l ih =>
    have hrest := ih (t := tput d t e.1 e.2) fun x hx => h x (by simp [hx])
    exact hrest.trans (tget_tput_ne _ _ _ _ _ (h e (by simp)).symm)

/-- All entries under a key being the same, the table holds it. -/
theorem tget_putAll_mem {v : α} (hr : Rising t) (hin : (k, v) ∈ l) (huniq : ∀ e ∈ l, e.1 = k → e.2 = v) : tget d (putAll d t l) k = v := by
  induction l generalizing t with
  | nil => cases hin
  | cons e l ih =>
    have hr' : Rising (tput d t e.1 e.2) := tput_rising _ _ _ _ hr
    by_cases hmore : (k, v) ∈ l
    · exact ih hr' hmore fun x hx => huniq x (by simp [hx])
    · obtain rfl : (k, v) = e := (List.mem_cons.1 hin).resolve_right hmore
      have hnot : ∀ x ∈ l, x.1 ≠ k := fun x hx hk => hmore (by
        have hv := huniq x (by simp [hx]) hk
        rw [← hk, ← hv]
        exact hx)
      have hrest : tget d (putAll d (tput d t k v) l) k = tget d (tput d t k v) k := tget_putAll_not_mem d hnot
      exact hrest.trans (tget_tput_same _ _ _ _ hr)

end

/-- The threads of a context as a reset writes them. -/
def freshThreads (s : State) (p c : Nat) : Tbl Thread :=
  (partCores s p).zipIdx.flatMap fun x => (List.range 16).map fun tc => (thrKey p c x.1 tc, freshThread s p c x.2 tc)

theorem setThreads_eq (l : Tbl Thread) (s : State) :
    l.foldl (fun s e => s.setThread e.1 e.2) s = { s with threads := putAll {} s.threads l } := by
  induction l generalizing s with
  | nil => rfl
  | cons e l ih => exact ih _

theorem run_eq_of_ends {a b : Prog} {t : State} (h : ∀ Q, Ends a s Q = Ends b t Q) : Prog.run a s = Prog.run b t :=
  (h fun u => u = Prog.run b t).mpr rfl

theorem ends_freshThreads {f : Nat × Nat → PUnit → Act (ForInStep PUnit)}
    (hf : ∀ x k t, Prog.run (f x PUnit.unit k) t =
      Prog.run (k (.yield PUnit.unit)) ((List.range 16).foldl (fun t tc => t.setThread (thrKey p c x.1 tc) (freshThread s p c x.2 tc)) t))
    (k : PUnit → Prog) (t : State) :
    Ends ((forIn (partCores s p).zipIdx PUnit.unit f : Act PUnit) k) t Q =
      Ends (k PUnit.unit) { t with threads := putAll {} t.threads (freshThreads s p c) } Q := by
  rw [ends_forIn _ _ _ fun x _ k t => hf x k t, ← setThreads_eq, freshThreads, List.foldl_flatMap]
  simp only [List.foldl_map]

theorem mem_freshThreads {e : Nat × Thread} : e ∈ freshThreads s p c ↔
    ∃ j core tc, (partCores s p)[j]? = some core ∧ tc < 16 ∧ e = (thrKey p c core tc, freshThread s p c j tc) := by
  simp only [freshThreads, List.mem_flatMap, List.mem_map, List.mem_range]
  constructor
  · rintro ⟨⟨core, j⟩, hx, tc, htc, rfl⟩
    exact ⟨j, core, tc, List.mk_mem_zipIdx_iff_getElem?.1 hx, htc, rfl⟩
  · rintro ⟨j, core, tc, hj, htc, rfl⟩
    exact ⟨(core, j), List.mk_mem_zipIdx_iff_getElem?.2 hj, tc, htc, rfl⟩

theorem nodup_partCores (s : State) (p : Nat) : (partCores s p).Nodup := List.nodup_range.filter _

theorem lt_of_mem_partCores {core : Nat} (h : core ∈ partCores s p) : core < 2048 := List.mem_range.1 (List.mem_filter.1 h).1

theorem thrKey_div {core tc : Nat} (hcore : core < 2048) (htc : tc < 16) :
    thrKey p c core tc / 16 / 2048 = ctxKey p c ∧ thrKey p c core tc / 16 % 2048 = core ∧ thrKey p c core tc % 16 = tc := by
  simp only [thrKey]
  omega

/-! ## CTX_RESET (R299) -/

/-- What a reset leaves of a context, from what its drop has left. -/
theorem ctxFresh_of_tables {u : State} (hr : Rising s.threads)
    (hthreads : u.threads = putAll {} (tkeep (fun k => !(k / 16 / 2048 == ctxKey p c)) s.threads) (freshThreads s p c))
    (hpips : u.pips = tkeep (fun k => k / 64 / 2048 != ctxKey p c) s.pips) (hvbufs : u.vbufs = tkeep (fun k => k / 4 / 2048 != ctxKey p c) s.vbufs) :
    CtxFresh s u p c := by
  set m := tkeep (fun k => !(k / 16 / 2048 == ctxKey p c)) s.threads with hm
  have hrt : Rising m := rising_tkeep _ hr
  have hread : ∀ k, threadOf u k = tget {} (putAll {} m (freshThreads s p c)) k := fun k => by rw [threadOf, hthreads]
  have hgone : ∀ k, k / 16 / 2048 = ctxKey p c → tget {} m k = {} := fun k hk => tget_tkeep_not _ _ _ k (by simp [hk])
  have hkept : ∀ k, k / 16 / 2048 ≠ ctxKey p c → tget {} m k = threadOf s k := fun k hk =>
    tget_tkeep_of _ _ (fun k => !(k / 16 / 2048 == ctxKey p c)) k (by simp [hk])
  refine ⟨fun j core tc hj htc => ?_, fun core tc hcore htc hno => ?_, fun k hk => ?_, fun k => ?_, fun k => ?_⟩
  · have hcore := lt_of_mem_partCores (List.mem_of_getElem? hj)
    rw [hread]
    refine tget_putAll_mem _ hrt (mem_freshThreads.2 ⟨j, core, tc, hj, htc, rfl⟩) fun e he hek => ?_
    obtain ⟨j', core', tc', hj', htc', rfl⟩ := mem_freshThreads.1 he
    have hcore' := lt_of_mem_partCores (List.mem_of_getElem? hj')
    obtain ⟨-, h1, h2⟩ := thrKey_div (p := p) (c := c) hcore htc
    obtain ⟨-, h1', h2'⟩ := thrKey_div (p := p) (c := c) hcore' htc'
    have hkey : thrKey p c core' tc' = thrKey p c core tc := hek
    obtain rfl : core' = core := by rw [← h1', hkey, h1]
    obtain rfl : tc' = tc := by rw [← h2', hkey, h2]
    obtain rfl : j' = j := by
      have hlt := (List.getElem?_eq_some_iff.1 hj').1
      exact (List.getElem?_inj hlt (nodup_partCores s p)).1 (hj'.trans hj.symm)
    rfl
  · obtain ⟨hkey, h1, -⟩ := thrKey_div (p := p) (c := c) hcore htc
    rw [hread, tget_putAll_not_mem _ fun e he hek => ?_]
    · exact hgone _ hkey
    · obtain ⟨j', core', tc', hj', htc', rfl⟩ := mem_freshThreads.1 he
      have hmem := List.mem_of_getElem? hj'
      obtain ⟨-, h1', -⟩ := thrKey_div (p := p) (c := c) (lt_of_mem_partCores hmem) htc'
      exact hno (by rwa [show core = core' by rw [← h1, ← hek, h1']])
  · rw [hread, tget_putAll_not_mem _ fun e he hek => ?_]
    · exact hkept k hk
    · obtain ⟨j', core', tc', hj', htc', rfl⟩ := mem_freshThreads.1 he
      obtain ⟨hkey, -, -⟩ := thrKey_div (p := p) (c := c) (lt_of_mem_partCores (List.mem_of_getElem? hj')) htc'
      exact hk (by rw [inCtx, ← hek, hkey])
  · rw [pipOf, hpips]
    by_cases hk : k / 64 / 2048 = ctxKey p c
    · rw [if_pos hk]
      exact tget_tkeep_not _ _ _ k (by simp [hk])
    · rw [if_neg hk]
      exact tget_tkeep_of _ _ (fun k => k / 64 / 2048 != ctxKey p c) k (by simp [hk])
  · rw [vbufOf, hvbufs]
    by_cases hk : k / 4 / 2048 = ctxKey p c
    · rw [if_pos hk]
      exact tget_tkeep_not _ _ _ k (by simp [hk])
    · rw [if_neg hk]
      exact tget_tkeep_of _ _ (fun k => k / 4 / 2048 != ctxKey p c) k (by simp [hk])

/-- A context has been reset, and its partition not yet. -/
structure CtxCleared (s u : State) (p c : Nat) (w : Wr) : Prop where
  fresh : CtxFresh s u p c
  word : regOf u (rCtx p c 0) = BitVec.ofNat 64 (setBits (ctxWord s p c w) 56 3 (bitsOf (ctxWord s p c w) 52 1))
  regs : RegsBut s u [rCtx p c 0, 0x040018]
  only : OnlyChanges s u [.threads, .pips, .vbufs, .regs, .pw, .fab]

/-- A partition in which a context neither runs nor comes in. -/
def Part.without (d : Part) (c : Nat) : Part :=
  { d with running := if d.running = some c then none else d.running
           incoming := if d.incoming = some c then none else d.incoming
           switching := if d.running = some c || d.incoming = some c then .none else d.switching }

theorem Part.without_other {d : Part} (h1 : d.running ≠ some c) (h2 : d.incoming ≠ some c) : d.without c = d := by
  rw [Part.without, if_neg h1, if_neg h2, if_neg (by simp [h1, h2])]

theorem Part.without_running {d : Part} (h1 : d.running = some c) (h2 : d.incoming = none) :
    d.without c = { d with running := none, switching := .none } := by
  simp [Part.without, h1, h2]

/-- What a reset does to the partition of its context. -/
def resetPartAct (p c : Nat) : Act Unit := do
  modPart p (Part.without · c)
  if partIdle (← look) p then ctxResetAct.applyMapIdle p
  schedule p

/-- The threads that a reset writes are those of the state before it. -/
theorem freshThreads_congr {t : State} (hparts : t.parts = s.parts) (h : RegsBut s t [rCtx p c 0, 0x040018]) :
    freshThreads t p c = freshThreads s p c := by
  have hentry : ctxEntry t p c = ctxEntry s p c := h.field (by
    simp only [List.mem_cons, List.not_mem_nil, or_false, not_or, rCtx_eq]
    omega) 0 52
  have hfresh : freshThread t p c = freshThread s p c := by
    funext j tc
    rw [freshThread, freshThread, hentry]
  have hcores : partCores t p = partCores s p := partCores_congr (by rw [partOf, hparts, partOf]) fun x hx => h _ (by
    simp only [List.mem_cons, List.not_mem_nil, or_false, not_or, rCtx_eq]
    omega)
  rw [freshThreads, freshThreads, hcores, hfresh]

theorem ends_ctxReset (hcmd : wrBits w 61 3 = 2) (hloose : CtxLoose s p c) (hc : Canon s) {k : Unit → Prog}
    (hQ : ∀ u, CtxCleared s u p c w → Ends (resetPartAct p c k) u Q) : Ends (ctxWord0Write p c w k) s Q := by
  have hloose' : CtxLoose (s.ctxStored p c w) p c := hloose
  rw [ends_ctxWord0Write, hcmd]
  simp only [ctxResetAct, bind_apply]
  refine ends_dropCtx hloose' fun t ht => ?_
  have hregs0 := regsBut_ctxStored s p c w
  have honly0 := onlyChanges_ctxStored s p c w
  have hword0 : regOf (s.ctxStored p c w) (rCtx p c 0) = _ := regOf_ctxStored hc.rising
  have hrise0 : Rising (s.ctxStored p c w).regs := setReg_rising _ _ _ hc.rising
  have hthreads0 : (s.ctxStored p c w).threads = s.threads := (honly0 .threads (by decide)).1
  have hpips0 : (s.ctxStored p c w).pips = s.pips := honly0 .pips (by decide)
  have hvbufs0 : (s.ctxStored p c w).vbufs = s.vbufs := honly0 .vbufs (by decide)
  generalize s.ctxStored p c w = s0 at ht hregs0 honly0 hword0 hrise0 hthreads0 hpips0 hvbufs0
  have hregs1 : RegsBut s t [rCtx p c 0, 0x040018] := regsBut_trans hregs0 ht.regs (by simp) (by simp)
  have honly1 : OnlyChanges s t [.threads, .pips, .vbufs, .regs, .pw, .fab] := (honly0.mono (by decide)).trans ht.only
  have hword1 : regOf t (rCtx p c 0) = BitVec.ofNat 64 (ctxWord s p c w) :=
    (ht.regs _ (mt List.mem_singleton.1 (ne_rPart_of_lt (by decide) _).symm)).trans hword0
  have hrise1 : Rising t.regs := ht.rising hrise0
  have hthreads1 := ht.threads
  have hpips1 := ht.pips
  have hvbufs1 := ht.vbufs
  rw [hthreads0] at hthreads1
  rw [hpips0] at hpips1
  rw [hvbufs0] at hvbufs1
  have hen : (if ctxEn t p c = true then 1 else 0) = bitsOf (ctxWord s p c w) 52 1 := by
    have hbit : bitsOf (ctxWord s p c w) 52 1 < 2 := bitsOf_lt _ _ 1
    have hfield : fieldOf t (rCtx p c 0) 52 1 = bitsOf (ctxWord s p c w) 52 1 := by
      rw [fieldOf, hword1, BitVec.toNat_ofNat, bitsOf_mod_two_pow _ _ _ _ (by decide)]
    rw [ctxEn, hfield]
    by_cases h1 : bitsOf (ctxWord s p c w) 52 1 = 1
    · simp [h1]
    · have h0 : bitsOf (ctxWord s p c w) 52 1 = 0 := by omega
      simp [h0]
  simp only [look_apply, ends_look, hen]
  rw [ends_freshThreads (s := t) (p := p) (c := c) fun x k t' => ?_]
  · rw [ends_setCtxState, freshThreads_congr (honly1 .parts (by decide)) hregs1, hthreads1]
    set l := putAll {} (tkeep (fun k => !(k / 16 / 2048 == ctxKey p c)) s.threads) (freshThreads s p c) with hl
    clear_value l
    have honly2 : OnlyChanges t { t with threads := l } [.threads] := onlyChanges_of_take rfl
    have hthreads2 : ({ t with threads := l } : State).threads = l := rfl
    have hpips2 : ({ t with threads := l } : State).pips = t.pips := rfl
    have hvbufs2 : ({ t with threads := l } : State).vbufs = t.vbufs := rfl
    have hrise2 : Rising ({ t with threads := l } : State).regs := hrise1
    generalize ({ t with threads := l } : State) = t2 at honly2 hthreads2 hpips2 hvbufs2 hrise2 ⊢
    have hword2 : regOf t2 (rCtx p c 0) = BitVec.ofNat 64 (ctxWord s p c w) := (honly2 .regs (by decide) _).trans hword1
    have honly3 := onlyChanges_setField t2 (rCtx p c 0) 56 3 (bitsOf (ctxWord s p c w) 52 1)
    have hregs3 := regsBut_setField t2 (rCtx p c 0) 56 3 (bitsOf (ctxWord s p c w) 52 1)
    have hword3 : regOf (t2.setField (rCtx p c 0) 56 3 (bitsOf (ctxWord s p c w) 52 1)) (rCtx p c 0) =
        BitVec.ofNat 64 (setBits (ctxWord s p c w) 56 3 (bitsOf (ctxWord s p c w) 52 1)) := by
      rw [State.setField, hword2, BitVec.toNat_ofNat, Nat.mod_eq_of_lt (ctxWord_lt s p c w)]
      exact regOf_setReg_same _ _ _ hrise2
    generalize t2.setField (rCtx p c 0) 56 3 (bitsOf (ctxWord s p c w) 52 1) = v at honly3 hregs3 hword3 ⊢
    refine hQ v ⟨ctxFresh_of_tables hc.risingThreads ?_ ?_ ?_, hword3, fun off ho => ?_, ?_⟩
    · rw [(honly3 .threads (by decide)).1, hthreads2, hl]
    · rw [honly3 .pips (by decide), hpips2, hpips1]
    · rw [honly3 .vbufs (by decide), hvbufs2, hvbufs1]
    · exact (hregs3 off fun h => ho (List.mem_cons.2 (.inl (List.mem_singleton.1 h)))).trans
        ((honly2 .regs (by decide) off).trans (hregs1 off ho))
    · exact (honly1.trans (honly2.mono (by decide))).trans (honly3.mono (by decide))
  · exact run_eq_of_ends fun Q => ends_forIn _ _ _ (fun tc _ k t => rfl) _ _ _

theorem ctxReset_holds (s : State) (p : Fin 64) (c : Fin 16) (w : Wr) (d : Nat) : (ctxReset s p c w d).Holds := by
  rintro ⟨howner, hcmd, hrun, hne, hin, hloose, hc⟩
  refine answers_of_ends (ctxWord0Write p c w) (exec_ctxReset howner) (ends_ctxReset hcmd hloose hc fun u hu => ?_)
  have hparts : u.parts = s.parts := hu.only .parts (by decide)
  have hpart : partOf u p = partOf s p := hu.only.partOf (by decide) p
  have hsame : (partOf s p).without c = partOf s p := Part.without_other (by rw [hrun]; exact fun h => hne (Option.some.inj h))
    (by rw [hin]; exact nofun)
  obtain ⟨-, -, -, -, -, -, hwf, -⟩ := id hc
  have hback : u.setPart p (partOf s p) = u := hpart ▸ setPart_partOf (by rwa [hparts]) p
  have hidle : partIdle u p = false := by simp [partIdle, hpart, hrun]
  simp only [resetPartAct, bind_apply, ends_modPart, hpart, hsame]
  rw [hback]
  simp only [look_apply, ends_look, hidle, Bool.false_eq_true, if_false]
  rw [ends_schedule_none (.inl (by rw [hpart, hrun]; rfl)), ends_done]
  exact ⟨hu.fresh, hu.word, hu.regs, hu.only⟩

theorem ctxResetRunning_holds (s : State) (p : Fin 64) (c : Fin 16) (w : Wr) (d : Nat) : (ctxResetRunning s p c w d).Holds := by
  rintro ⟨howner, hcmd, hrun, hin, hmap, htd, hjob, hready, hloose, hc⟩
  refine answers_of_ends (ctxWord0Write p c w) (exec_ctxReset howner) (ends_ctxReset hcmd hloose hc fun u hu => ?_)
  have hparts : u.parts = s.parts := hu.only .parts (by decide)
  have hpart : ∀ q, partOf u q = partOf s q := hu.only.partOf (by decide)
  have hrp : Rising u.parts := by
    rw [hparts]
    exact hc.risingParts
  have hjobU : jobState u p = 2 := (hu.regs.jobState (by
    simp only [List.mem_cons, List.not_mem_nil, or_false, not_or]
    exact ⟨rCtx_ne_rPart (by decide) c, (ne_rPart_of_lt (by decide) _).symm⟩)).trans hjob
  have hstates : ∀ k, ctxState u p k = ctxState (s.ctxSet p c w (bitsOf (ctxWord s p c w) 52 1)) p k := fun k => by
    by_cases hk : k = c.val
    · rw [hk, ctxState, ctxState, fieldOf, fieldOf, hu.word, regOf_ctxSet hc.rising]
    · rw [ctxState_ctxSet_ne hk]
      exact hu.regs.field (by
        simp only [List.mem_cons, List.not_mem_nil, or_false, not_or]
        exact ⟨rCtx_ne_rCtx hk, (ne_rPart_of_lt (by decide) _).symm⟩) 56 3
  have hreadyU : ∀ v, OnlyChanges u v [.parts] → (partOf v p).lastRun = (partOf s p).lastRun → nextReady v p = some d := fun v hv hlast =>
    (nextReady_congr (s := s.ctxSet p c w (bitsOf (ctxWord s p c w) 52 1)) hlast fun k _ => (hv.field (by decide) _ 56 3).trans (hstates k)).trans hready
  simp only [resetPartAct, bind_apply, ends_modPart, hpart, Part.without_running hrun hin, look_apply, ends_look]
  set x : Part := { partOf s p with running := none, switching := .none } with hx
  have honly1 := onlyChanges_setPart u p x
  have hpart1 : partOf (u.setPart p x) p = x := partOf_setPart_same _ _ hrp
  have hothers1 : ∀ q, q ≠ p.val → partOf (u.setPart p x) q = partOf s q := fun q hq => (partOf_setPart_ne _ hq).trans (hpart q)
  have hrp1 := rising_setPart hrp p x
  generalize u.setPart p x = v at honly1 hpart1 hothers1 hrp1 ⊢
  have hidle : partIdle v p = true := by simp [partIdle, hpart1, hx, hin]
  have hjobV : jobState v p = 2 := (honly1.field (by decide) _ _ _).trans hjobU
  have hnot3 : ¬ fieldOf v (rPart p 0x10) 32 2 = 3 := by
    have := hjobV
    rw [jobState] at this
    omega
  simp only [hidle, if_true, ctxResetAct.applyMapIdle, bind_apply, ends_rdF, ne_eq, hnot3, not_false_eq_true]
  rw [ends_applyMap_none (by rw [hpart1]; exact hmap), ends_schedule_some hjobV (by rw [hpart1]; exact htd) (by rw [hpart1]) (by rw [hpart1])
    (hreadyU v honly1 (by rw [hpart1])), ends_done, hpart1]
  set y : Part := { x with incoming := some d, switching := .restoring } with hy
  have honly2 := onlyChanges_setPart v p y
  have honly3 : OnlyChanges u (v.setPart p y) [.parts] := honly1.trans honly2
  have hpart3 : partOf (v.setPart p y) p = y := partOf_setPart_same _ _ hrp1
  have hothers3 : ∀ q, q ≠ p.val → partOf (v.setPart p y) q = partOf s q := fun q hq => (partOf_setPart_ne _ hq).trans (hothers1 q hq)
  generalize v.setPart p y = t at honly3 hpart3 hothers3 ⊢
  obtain ⟨hf1, hf2, hf3, hf4, hf5⟩ := hu.fresh
  refine ⟨⟨fun j core tc hj htc => ?_, fun core tc hcore htc hno => ?_, fun k hk => ?_, fun k => ?_, fun k => ?_⟩, ?_, hpart3, hothers3,
    fun off ho => (honly3 .regs (by decide) off).trans (hu.regs off ho), (hu.only.mono (by decide)).trans (honly3.mono (by decide))⟩
  · rw [honly3.threadOf (by decide), hf1 j core tc hj htc]
  · rw [honly3.threadOf (by decide), hf2 core tc hcore htc hno]
  · rw [honly3.threadOf (by decide), hf3 k hk]
  · rw [honly3.pipOf (by decide), hf4]
  · rw [vbufOf, honly3 .vbufs (by decide), ← vbufOf, hf5]
  · rw [honly3 .regs (by decide), hu.word, regOf_setReg_same _ _ _ hc.rising]

end Sys2Proof.Machine
end

section
/-!
Commits of a partition's map and the switches between its contexts: O44.
-/

namespace Sys2Proof.Machine

/-- Settles O44, clause by clause: each says what one command of a partition or a context comes to, assembled from the rules for a map that comes
into force, the choice of the next context, a context's save and restore, and the owner's commands. -/
theorem partitionsAndContexts : Obligations.PartitionsAndContexts := by
  unfold Obligations.PartitionsAndContexts
  intro s p w c d k slot x th a m cur
  exact ⟨partMapCommit_holds s p w, partMapPends_holds s p w, partMapFails_holds s p w, partMapRefused_holds s p w, ctxSliceEnd_holds s p c,
    ctxSliceGoesOn_holds s p, ctxEarlySwitch_holds s p c, ctxSwitchSaved_holds s p c d, ctxSwitchSavedLast_holds s p c, ctxSwitchWaits_holds s p c,
    ctxSwitchStops_holds s p c k slot th a, ctxSwitchRestored_holds s p c, ctxSwitchMap_holds s p c m, ctxScratchSaved_holds s p c,
    ctxScratchRestored_holds s p c, ctxRestoredAsks_holds s p c k slot th a, ctxRestoredGoesOn_holds s p c k slot th a cur, ctxFault_holds s p x k th,
    ctxResume_holds s p x w, ctxResumeComesIn_holds s p x w d, ctxResumeFaulted_holds s p x w k th, ctxResumeStopped_holds s p x w k slot th a,
    ctxStop_holds s p x w, ctxStopIncoming_holds s p x w, ctxStopRunning_holds s p x w, ctxCmdRefused_holds s p x w, ctxReset_holds s p x w d,
    ctxResetRunning_holds s p x w d⟩

end Sys2Proof.Machine
end

section
/-!
SUPPORT. The state after reset (O6), an idle nanosecond (O2), and a PPS edge while the error bound grows (O25).
-/

namespace Sys2Proof.Machine

open Sys2Proof.Claims

/-- Settles O6: the tables of the state after reset are empty. -/
theorem resetStateIsCanonical : Obligations.ResetStateIsCanonical := by
  unfold Obligations.ResetStateIsCanonical
  have hcanon : Canon State.reset := by decide
  exact ⟨hcanon, rfl, rfl, rfl, rfl, rfl, rfl⟩

/-! ### A fraction left over that is more than a nanosecond

Nothing in the statement bounds `Time.slewFrac`, the fraction that earlier nanoseconds left over. Where it lets the slew take off more than FT
holds, `ftAfter` stops at 0, and the statement's subtraction of 80-bit values wraps. -/

/-- FT at 0, an offset of 10^6 to be slewed away, and a fraction that lets all of it go in one nanosecond. -/
def overfullState : State := { State.reset with time := { running := true, slew := 1000000, slewFrac := 1000000000000 } }

theorem step_idle {s : State} (h : s.pending = []) : step s = finish idle s := by
  unfold step
  rw [h]

/-- The nanosecond ends with FT at 0. -/
theorem ft_of_overfull {t : State} (h : step overfullState = .next t) : t.time.ft = 0 := by
  rw [step_idle rfl, finish_eq] at h
  injection h with h
  rw [← h]
  decide +kernel

/-- Refutes O2: an FT of 0 with 10^6 to be taken off, and a left-over fraction that lets it all go at once, stays 0 and does not wrap. -/
theorem not_idleStepIsOneNanosecond : ¬ Obligations.IdleStepIsOneNanosecond := by
  unfold Obligations.IdleStepIsOneNanosecond
  intro h
  obtain ⟨t, ht, -, -, -, -, -, -, hslew, -⟩ := h overfullState rfl
  obtain ⟨hft, -⟩ := hslew rfl (by decide)
  rw [ft_of_overfull ht] at hft
  exact absurd hft (by decide +kernel)

/-! ### A PPS edge that ends a HOLDOVER

While the error bound grows, an edge first counts the growth up to now in `Time.grown` (`showBound`). The clause for a Sync says so; `ppsInEdge`
leaves `Time.grown` as it was. -/

/-- PPS is the source, the FTB acquires, and the bound has grown since 1,000 ns ago. -/
def holdingState : State :=
  (({ State.reset with time := { now := 1000, running := true, ppsUp := true, holdFrom := some 0 } }.setField 0x060000 0 3 2).setField
    0x060008 4 3 2).setField 0x060008 0 3 1

theorem ppsInEdge_pre_holding : (ppsInEdge holdingState 0).pre := by
  dsimp only [ppsInEdge]
  decide +kernel

theorem exec_ppsInEdge (off : Int) (s : State) : exec (.ppsInEdge off) s = finish (ppsEdge off) s := rfl

/-- The edge counts the growth of 1,000 ns. -/
theorem grown_of_holding {t : State} (h : exec (.ppsInEdge 0) holdingState = .next t) : t.time.grown ≠ 0 := by
  rw [exec_ppsInEdge, finish_eq] at h
  injection h with h
  rw [← h]
  decide +kernel

/-- Refutes O25: `ppsInEdge` says that the growth of the bound is left as it was, and an edge counts it up to now. -/
theorem not_fabricTimeBase : ¬ Obligations.FabricTimeBase := by
  unfold Obligations.FabricTimeBase
  intro h
  obtain ⟨-, -, -, -, -, -, hEdge, -⟩ :=
    h holdingState 0 {} 0 false 0 0 { path := .host, half := .all, val := 0 } .host
  obtain ⟨t, ht, -, -, htime, -⟩ := hEdge ppsInEdge_pre_holding
  have hgrown : t.time.grown = 0 := by rw [htime]; rfl
  exact grown_of_holding ht hgrown

end Sys2Proof.Machine
end

section
/-!
SUPPORT. A firing of the SET: what comes before the action of the entry, and what its last firing leaves of it.
-/

namespace Sys2Proof.Machine

open Sys2Proof.Claims

variable {s u : State} {Q : State → Prop} {e : Nat} {a : Nat}

/-! ## The words of the table -/

/-- The registers of the SET's entries. -/
abbrev SetWord (off : Nat) : Prop := 0x068000 ≤ off ∧ off < 0x070000

theorem setWord_rSet {w : Nat} (he : e < 1024) (hw : w < 4) : SetWord (rSet e w) := by
  unfold SetWord rSet
  omega

theorem setWord_of_mem_setRegs {off : Nat} (he : e < 1024) (h : off ∈ setRegs e) : SetWord off := by
  simp only [setRegs, List.mem_cons, List.not_mem_nil, or_false] at h
  rcases h with rfl | rfl | rfl <;> exact setWord_rSet he (by decide)

theorem rSet_inj {w v : Nat} (h : w ≠ v) : rSet e w ≠ rSet e v := by
  unfold rSet
  omega

/-- Two states differ in the time and in words of the SET only. -/
structure SetChange (s u : State) : Prop where
  eq : u = { s with regs := u.regs, time := u.time }
  same : ∀ off, ¬ SetWord off → regOf u off = regOf s off

theorem SetChange.field (h : SetChange s u) {off : Nat} (ho : ¬ SetWord off) (lo len : Nat) : fieldOf u off lo len = fieldOf s off lo len := by
  rw [fieldOf, h.same off ho, fieldOf]

theorem SetChange.of_time (s : State) (t : Time) : SetChange s { s with time := t } := ⟨rfl, fun _ _ => rfl⟩

theorem SetChange.parts (h : SetChange s u) : u.parts = s.parts := by rw [h.eq]
theorem SetChange.partOf (h : SetChange s u) (p : Nat) : partOf u p = partOf s p := by rw [Machine.partOf, h.parts, Machine.partOf]
theorem SetChange.threads (h : SetChange s u) : u.threads = s.threads := by rw [h.eq]
theorem SetChange.mem (h : SetChange s u) : u.mem = s.mem := by rw [h.eq]

theorem SetChange.coreOfPart (h : SetChange s u) (p core : Nat) : coreOfPart u p core = coreOfPart s p core :=
  coreOfPart_congr (by rw [h.partOf]) fun x hx => h.same _ (by unfold SetWord; omega)

/-! ## A firing that is next -/

/-- The clocks stand at or past a due fabric time. -/
theorem ends_advanceFt_past {due : Nat} (h : due ≤ ftNs s) (k : Unit → Prog) : Ends (advanceFt due k) s Q = Ends (k ()) s Q := by
  have hnot : ¬ (s.time.running && decide (ftNs s < due)) = true := by simp [Nat.not_lt.2 h]
  refine (ends_forIn_id (fun x _ k => ?_) _).trans rfl
  simp only [bind_apply, look_apply, ends_look, if_neg hnot, pure_apply]

theorem ends_settleNone_none (h : noneDue s = []) (k : Unit → Prog) : Ends (settleNone k) s Q = Ends (k ()) s Q := by
  simp only [settleNone, bind_apply, look_apply, ends_look, h, List.forIn_nil, pure_apply]

/-- A firing finds room in its interval (R37). -/
theorem ends_fireSlot (h : RoomToFire s) (fire : Nat) (k : Bool → Prog) :
    Ends (fireSlot fire k) s Q = Ends (k (fire + 10 < ftNs s)) { s with time := firedTime s } Q := by
  have hnot : ¬ (s.time.fired.1 = ftNs s / 10 && decide (64 ≤ s.time.fired.2)) = true := by
    rcases h with h | h
    · simp [h]
    · simp [Nat.not_le.2 h]
  simp only [fireSlot, bind_apply, look_apply, ends_look, if_neg hnot, ends_modTime, pure_apply]

/-- An entry with an action is the next to fire. -/
structure Due (s : State) (e a : Nat) : Prop where
  armed : setArmed s e = true
  action : setAction s e = a
  due : setFire s e ≤ ftNs s
  alone : armedIn s (fun x => setFire s x == setFire s e && (x == e || firesBefore s x e)) = [e]
  quiet : noneDue s = []
  room : RoomToFire s
  canon : Canon s

theorem due_of_fires (h : Fires s e a) : Due s e a := by
  obtain ⟨harmed, haction, -, hdue, -, halone, hnone, hroom, hc⟩ := h
  exact ⟨harmed, haction, hdue, halone, hnone, hroom, hc⟩

/-- The state in which the action of a firing runs: the firing counts in its interval, and LATE says whether it is late (R36, R37). -/
def State.firing (s : State) (e : Nat) : State :=
  ({ s with time := firedTime s } : State).setField (rSet e 2) 5 1 (if setFire s e + 10 < ftNs s then 1 else 0)

/-- The entry that is next fires by itself: its action, then what the firing leaves of it. -/
theorem ends_setFiring (h : Due s e a) (k : Unit → Prog) :
    Ends (setFiring e a k) s Q = Ends (setAct e fun _ => setAdvance e k) (s.firing e) Q := by
  have hcond : (setArmed s e && decide (setAction s e = a)) = true := by simp [h.armed, h.action]
  simp only [setFiring, bind_apply, look_apply, ends_look, if_pos hcond, ends_advanceFt_past h.due,
    ends_settleNone_none h.quiet, if_pos h.due, h.alone, List.forIn_cons, List.forIn_nil, pure_apply, ends_fireSlot h.room, setFireOne, ends_wrF,
    decide_eq_true_eq]
  rfl

/-! ## The entry while its action runs -/

theorem firing_change (he : e < 1024) : SetChange s (s.firing e) :=
  ⟨rfl, fun off ho => (regOf_setReg_ne _ _ _ off fun heq => ho (by rw [heq]; exact setWord_rSet he (by decide))).trans rfl⟩

theorem rising_firing (hr : Rising s.regs) : Rising (s.firing e).regs := setField_rising _ _ _ _ _ hr

theorem regsBut_firing (s : State) (e : Nat) : RegsBut s (s.firing e) [rSet e 2] := fun x hx => (regsBut_setField _ _ _ _ _ x hx).trans rfl

theorem onlyChanges_firing (s : State) (e : Nat) : OnlyChanges s (s.firing e) [.time, .regs] := onlyChanges_of_take rfl

theorem fieldOf_firing_word (w lo len : Nat) (hw : w ≠ 2) : fieldOf (s.firing e) (rSet e w) lo len = fieldOf s (rSet e w) lo len :=
  (fieldOf_setField_ne _ _ _ _ _ _ _ _ (rSet_inj hw)).trans rfl

theorem setFire_firing : setFire (s.firing e) e = setFire s e :=
  congrArg BitVec.toNat ((regsBut_firing s e) (rSet e 0) (by simpa using rSet_inj (by decide)))
theorem setPeriod_firing : setPeriod (s.firing e) e = setPeriod s e := fieldOf_firing_word _ _ _ (by decide)
theorem setCount_firing : setCount (s.firing e) e = setCount s e := fieldOf_firing_word _ _ _ (by decide)

section
variable (hr : Rising s.regs)
include hr

theorem fieldOf_firing {lo len : Nat} (h : 6 ≤ lo ∨ lo + len ≤ 5) : fieldOf (s.firing e) (rSet e 2) lo len = fieldOf s (rSet e 2) lo len :=
  (fieldOf_setField_other _ _ _ _ _ _ _ hr (by decide) h).trans rfl

theorem setAction_firing : setAction (s.firing e) e = setAction s e := fieldOf_firing hr (by decide)
theorem setPart_firing : setPart (s.firing e) e = setPart s e := fieldOf_firing hr (by decide)
theorem setTarget_firing : setTarget (s.firing e) e = setTarget s e := fieldOf_firing hr (by decide)
theorem setArg_firing : setArg (s.firing e) e = setArg s e := fieldOf_firing hr (by decide)
end

/-- The action of an entry, by its code (R35). -/
def actionOf (s : State) (e : Nat) : Nat → Act Unit
  | 1 => openWindow (setTarget s e) (setPart s e) (setFire s e) (setPeriod s e)
  | 2 => stepFire (setPart s e)
  | 3 => latchStats (setPart s e)
  | 4 => askGrant { who := .reservation (setPart s e), mw := classMw s (bitsOf (setArg s e) 0 3), prio := 15, part := setPart s e
                    until_ := setFire s e + 1000 * max 1 (bitsOf (setArg s e) 16 16) }
  | 5 => kick (setPart s e) (setTarget s e)
  | 6 => unitSignal diePC e (setPart s e) (setTarget s e) (bitsOf (setArg s e) 0 6)
  | _ => pure ()

theorem ends_setAct (k : Unit → Prog) : Ends (setAct e k) s Q = Ends (actionOf s e (setAction s e) k) s Q := by
  simp only [setAct, bind_apply, look_apply, ends_look]
  rfl

/-! ## A single-shot entry after its firing -/

theorem ends_setAdvance_single (h : setPeriod s e = 0) (k : Unit → Prog) :
    Ends (setAdvance e k) s Q = Ends (k ()) (s.setField (rSet e 2) 4 1 0) Q := by
  simp only [setAdvance, bind_apply, look_apply, ends_look, h, decide_true, Bool.true_or, if_true, ends_wrF]

/-- An action has run: it has changed registers and pieces of two lists, but no word of its entry, nor the time. -/
structure ActionDone (s u : State) (e : Nat) (offs : List Nat) (may : List Piece) : Prop where
  regs : RegsBut (s.firing e) u offs
  rising : Rising u.regs
  only : OnlyChanges (s.firing e) u may
  entry : ∀ w, w < 4 → rSet e w ∉ offs
  time : .time ∉ may

/-- What a single-shot entry's firing leaves, besides what its action does. -/
structure SingleShot (s t : State) (e : Nat) (offs : List Nat) (may : List Piece) : Prop where
  fired : Fired s t e
  regs : RegsBut s t (offs ++ setRegs e)
  only : OnlyChanges s t (.time :: .regs :: may)

theorem fieldOf_afterFiring {offs : List Nat} {may : List Piece} (hr : Rising s.regs) (h : ActionDone s u e offs may) {lo len : Nat}
    (hd : 6 ≤ lo ∨ lo + len ≤ 4) : fieldOf (u.setField (rSet e 2) 4 1 0) (rSet e 2) lo len = fieldOf s (rSet e 2) lo len := by
  rw [fieldOf_setField_other _ _ _ _ _ _ _ h.rising (by decide) (by omega), h.regs.field (h.entry 2 (by decide)), fieldOf_firing hr (by omega)]

theorem singleShot_of_done {offs : List Nat} {may : List Piece} (hf : Fires s e a) (h : ActionDone s u e offs may) :
    SingleShot s (u.setField (rSet e 2) 4 1 0) e offs may := by
  obtain ⟨-, -, -, -, hlate, -, -, -, hc⟩ := hf
  have hr := hc.rising
  refine ⟨⟨?_, ?_, ?_, fieldOf_afterFiring hr h (by decide), h.only .time h.time⟩, ?_, ?_⟩
  · rw [setArmed, fieldOf_setField_same _ _ _ _ _ h.rising (by decide)]
    decide
  · rw [fieldOf_setField_other _ _ _ _ _ _ _ h.rising (by decide) (by decide), h.regs.field (h.entry 2 (by decide)), State.firing,
      if_neg (by omega)]
    exact fieldOf_setField_same _ _ _ _ _ hr (by decide)
  · rw [setCount, fieldOf_setField_ne _ _ _ _ _ _ _ _ (rSet_inj (by decide)), h.regs.field (h.entry 1 (by decide))]
    exact setCount_firing
  · have hentry : [rSet e 2] ⊆ offs ++ setRegs e := by simp [setRegs]
    exact regsBut_trans (regsBut_trans (regsBut_firing s e) h.regs hentry (List.subset_append_left _ _)) (regsBut_setField u _ _ _ _)
      (List.Subset.refl _) hentry
  · exact ((onlyChanges_firing s e).mono (by simp)).trans ((h.only.mono fun x hx => by simp [hx]).trans
      ((onlyChanges_setField u _ _ _ _).mono (by simp)))

/-- A single-shot entry that is due fires: its action, and the entry is armed no longer. -/
theorem ends_setFiring_single {P : State → Prop} {offs : List Nat} {may : List Piece} (h : Fires s e a)
    (hact : ∀ k, (∀ u, ActionDone s u e offs may → P u → Ends (k ()) u Q) → Ends (actionOf (s.firing e) e a k) (s.firing e) Q)
    (hQ : ∀ u, P u → SingleShot s (u.setField (rSet e 2) 4 1 0) e offs may → Q (u.setField (rSet e 2) 4 1 0)) :
    Ends (setFiring e a fun _ => .done) s Q := by
  have hdue := due_of_fires h
  have hperiod : setPeriod s e = 0 := h.2.2.1
  rw [ends_setFiring hdue, ends_setAct, setAction_firing hdue.canon.rising, hdue.action]
  refine hact _ fun u hu hP => ?_
  have hsingle : setPeriod u e = 0 := by
    rw [setPeriod, hu.regs.field (hu.entry 1 (by decide))]
    exact setPeriod_firing.trans hperiod
  rw [ends_setAdvance_single hsingle, ends_done]
  exact hQ u hP (singleShot_of_done h hu)

end Sys2Proof.Machine
end

section
/-!
SUPPORT. Step boundaries at which nothing but the counting of the step happens, and O27.
-/

namespace Sys2Proof.Machine

open Sys2Proof.Claims

variable {s u : State} {Q : State → Prop} {p : Nat}

/-! ## What the time and the SET do not change -/

namespace SetChange

variable (h : SetChange s u)
include h

theorem jobState (p : Nat) : jobState u p = jobState s p := h.field (by unfold SetWord rPart; omega) _ _
theorem eptState (p : Nat) : eptState u p = eptState s p := h.field (by unfold SetWord rEptCommit rSre; omega) _ _
theorem btBase : btBase u = btBase s := congrArg (· * 2 ^ 22) (h.field (by decide) _ _)
theorem liveBase (p : Nat) : liveBase u p = liveBase s p := congrArg (· * 2 ^ 19) (h.field (by unfold SetWord rSre; omega) _ _)

theorem paced (p : Nat) : paced u p = paced s p := by rw [Machine.paced, execModeOf, h.partOf, ← execModeOf, Machine.paced]

theorem steps (p : Nat) : steps u p = steps s p := by rw [Machine.steps, h.jobState, h.partOf, h.eptState, Machine.steps]

theorem stepGap (p : Nat) : stepGap u p = stepGap s p := by rw [Machine.stepGap, execModeOf, h.partOf, ← execModeOf, Machine.stepGap]

theorem btEntry (i : Nat) : btEntry u i = btEntry s i := by
  have hmem : ∀ a, memAt u a = memAt s a := fun a => by rw [memAt, h.mem, memAt]
  simp only [Machine.btEntry, h.btBase, memItem, memNat, memBytes, hmem]

theorem inState (p st : Nat) : inState u p st = inState s p st := by
  simp only [Machine.inState, btRange, stepCfg, h.partOf, h.btBase, h.btEntry]

theorem workDone (p : Nat) : workDone u p = workDone s p := by
  have hsubmits : u.submits = s.submits := by rw [h.eq]
  have hseq : ∀ i, seqOf u p i = seqOf s p i := fun i => by rw [seqOf, h.partOf, seqOf]
  unfold Machine.workDone
  rw [h.inState, hsubmits]
  simp only [hseq, h.btEntry]

theorem eptWinner (p : Nat) : eptWinner u p = eptWinner s p := by
  have hfield : ∀ d lo len, fieldOf u (rEptRec d p) lo len = fieldOf s (rEptRec d p) lo len := fun d lo len =>
    h.field (by unfold SetWord rEptRec rSre; omega) lo len
  have hstate : ∀ d, recState u d p = recState s d p := fun d => hfield d 0 2
  have hgen : ∀ d, recGen u d p = recGen s d p := fun d => hfield d 32 32
  simp only [Machine.eptWinner, hstate, hgen]

theorem quietStep (p : Nat) (hq : QuietStep s p) : QuietStep u p := by
  have hloads : u.loads = s.loads := by rw [h.eq]
  rwa [QuietStep, execModeOf, h.partOf, h.eptWinner, h.btBase, hloads]

theorem stepTaken (p now : Nat) : stepTaken u p now = stepTaken s p now := by
  have hmode : regOf u (rPart p 0x100) = regOf s (rPart p 0x100) := h.same _ (by unfold SetWord rPart; omega)
  have hregs : stepRegs u p = stepRegs s p := List.map_congr_left fun w _ => h.same _ (by unfold SetWord rSre; omega)
  have hdead : deadNodes u p = deadNodes s p := by simp only [deadNodes, h.liveBase, h.mem]
  rw [Claims.stepTaken, h.partOf, hmode, hregs, hdead]

end SetChange

/-! ## A quiet boundary (R41–R45) -/

theorem ends_look_bind {β : Type} (f : State → Act β) (k : β → Prog) : Ends ((look >>= f) k) s Q = Ends (f s k) s Q := rfl

theorem ends_forIn_nil_bind {γ β δ : Type} {l : List γ} (h : l = []) (b : β) (f : γ → β → Act (ForInStep β)) (g : β → Act δ) (k : δ → Prog) :
    Ends ((forIn l b f >>= g) k) s Q = Ends (g b k) s Q := by
  rw [h]
  rfl

theorem ends_sendTokens_none (h : (partOf s p).toks = []) (k : Unit → Prog) : Ends (sendTokens p k) s Q = Ends (k ()) s Q := by
  simp only [sendTokens, bind_apply, look_apply, ends_look, h, List.map_nil, List.eraseDups_nil, List.forIn_nil, pure_apply]

theorem ends_eptFirstUse_none (h : (partOf s p).eptGen = (partOf s p).eptNext) (k : Unit → Prog) :
    Ends (eptFirstUse p k) s Q = Ends (k ()) s Q := by
  have hsame : ¬ (partOf s p).eptGen ≠ (partOf s p).eptNext := not_not.2 h
  simp only [eptFirstUse, bind_apply, look_apply, ends_look, if_neg hsame, pure_apply]

theorem ends_eptCompare_none (h : eptWinner s p = 0) (k : Unit → Prog) : Ends (eptCompare p k) s Q = Ends (k ()) s Q := by
  have hnone : ¬ eptWinner s p ≠ 0 := not_not.2 h
  simp only [eptCompare, bind_apply, look_apply, ends_look, if_neg hnone, pure_apply]

/-- No entry is in any state while SRE_BT_BASE lies outside shared SRAM. -/
theorem inState_none (h : inSram (btBase s) = false) (p st : Nat) : inState s p st = [] := by
  simp [inState, btRange, h, sortBy]

theorem ends_batchCommit_none (h : inSram (btBase s) = false) (k : Unit → Prog) : Ends (batchCommit p k) s Q = Ends (k ()) s Q := by
  have hnone := inState_none h p
  have hwaiting : ∀ le, sortBy le (inState s p 1) = [] := fun le => by rw [hnone, sortBy, List.foldr_nil]
  rw [batchCommit, ends_look_bind, ends_forIn_nil_bind (hnone 2), ends_look_bind, ends_forIn_nil_bind (hnone 3), ends_look_bind,
    ends_forIn_nil_bind (hnone 2), ends_look_bind, ends_forIn_nil_bind (hnone 2), ends_forIn_nil_bind (hwaiting _), ends_look_bind,
    ends_forIn_nil_bind (hnone 2)]
  rfl

/-- The counting of a step, and what takes effect with it (R41, R45, R73, R84). -/
def countStep (p : Nat) : Act Unit := do
  let s ← look
  modPart p (fun d => { d with stepNo := d.stepNo + 1, lastBoundary := s.time.now, held := false, tokPsn := [], staleSrc := []
                               execMode := regOf s (rPart p 0x100), sreStep := stepRegs s p, dead := deadNodes s p })

/-- The counts of the step's routes become those of the last step (R67). -/
def rollLoads (p : Nat) : Act Unit := do
  let s ← look
  eff (.loads (s.loads.filterMap (fun x =>
    if rcPart (rcfgOf s x.1) = p then (if x.2.2.1 = 0 then none else some (x.1, x.2.1, 0, x.2.2.1)) else some x)))

/-- A boundary, piece by piece. -/
theorem boundary_apply (p : Nat) (k : Unit → Prog) : boundary p k = Prog.look fun s =>
    (if bitsOf (execModeOf s p) 2 1 = 1 then latchStats p else pure ()) fun _ => sendTokens p fun _ => countStep p fun _ =>
      eptFirstUse p fun _ => eptCompare p fun _ => rollLoads p fun _ => batchCommit p k := by
  refine congrArg Prog.look (funext fun s => ?_)
  by_cases h : bitsOf (execModeOf s p) 2 1 = 1
  · simp only [if_pos h]
    rfl
  · simp only [if_neg h]
    rfl

theorem ends_countStep (k : Unit → Prog) : Ends (countStep p k) s Q = Ends (k ()) (s.setPart p (stepTaken s p s.time.now)) Q := rfl

theorem ends_rollLoads_none (h : s.loads = []) (k : Unit → Prog) : Ends (rollLoads p k) s Q = Ends (k ()) s Q := by
  have hsame : ({ s with loads := [] } : State) = s := by rw [← h]
  simp only [rollLoads, bind_apply, look_apply, ends_look, h, List.filterMap_nil, eff_apply, ends_eff]
  exact congrArg (fun t => Ends (k ()) t Q) hsame

/-- A boundary at which nothing but the counting of the step happens. -/
theorem ends_boundary_quiet (h : QuietStep s p) (hp : Rising s.parts) (k : Unit → Prog) :
    Ends (boundary p k) s Q = Ends (k ()) (s.setPart p (stepTaken s p s.time.now)) Q := by
  obtain ⟨hlatch, htoks, hgen, hwin, hloads, hbatch⟩ := h
  have hno : ¬ bitsOf (execModeOf s p) 2 1 = 1 := by omega
  have hgen' : (partOf (s.setPart p (stepTaken s p s.time.now)) p).eptGen = (partOf (s.setPart p (stepTaken s p s.time.now)) p).eptNext := by
    rw [partOf_setPart_same _ _ hp]
    exact hgen
  rw [boundary_apply, ends_look, if_neg hno, pure_apply, ends_sendTokens_none htoks, ends_countStep, ends_eptFirstUse_none hgen',
    ends_eptCompare_none (by exact hwin), ends_rollLoads_none (by exact hloads), ends_batchCommit_none (by exact hbatch)]

/-! ## STEP_BOUNDARY (R41, R42) -/

theorem ends_stepFire (hpaced : paced s p = false) (hsteps : steps s p = true) (k : Unit → Prog) :
    Ends (stepFire p k) s Q = if (partOf s p).held = false ∧ workDone s p = true then Ends (boundary p k) s Q else
      Ends (k ()) ((s.setPart p { partOf s p with held := true }).setField (rPart p 0x940) 0 32
        (min 0xFFFFFFFF (fieldOf s (rPart p 0x940) 0 32 + 1))) Q := by
  have hword : rPart p 0x940 / 8 * 8 = rPart p 0x940 ∧ rPart p 0x940 % 8 * 8 = 0 := by
    unfold rPart
    omega
  simp only [stepFire, bind_apply, look_apply, ends_look, ends_ite_act, hpaced, hsteps, Bool.and_eq_true,
    Bool.not_eq_true', ends_modPart, ends_ctr32, hword.1, hword.2]
  rfl

theorem rSet_not_rPart {e w : Nat} (he : e < 1024) (hw : w < 4) (off : Nat) : rSet e w ≠ rPart p off := by
  unfold rSet rPart
  omega

theorem stepBoundary_holds (s : State) (e : Fin 1024) : (stepBoundary s e).Holds := by
  rintro ⟨hfires, hpaced, hsteps, hheld, hwork, hquiet⟩
  have hc := (due_of_fires hfires).canon
  have hch := firing_change (s := s) e.isLt
  have hp : Rising (s.firing e).parts := hch.parts ▸ hc.risingParts
  refine answers_of_ends (setFiring e 2) rfl ?_
  refine ends_setFiring_single (offs := []) (may := [.parts]) (P := fun u => partOf u (setPart s e) = stepTaken s (setPart s e) s.time.now ∧
    ∀ q, q ≠ setPart s e → partOf u q = partOf s q) hfires (fun k hk => ?_) fun u hu hdone => ?_
  · have hboth : (partOf (s.firing e) (setPart s e)).held = false ∧ workDone (s.firing e) (setPart s e) = true :=
      ⟨by rw [hch.partOf, hheld], by rw [hch.workDone, hwork]⟩
    rw [actionOf, setPart_firing hc.rising, ends_stepFire (by rw [hch.paced, hpaced]) (by rw [hch.steps, hsteps]), if_pos hboth,
      ends_boundary_quiet (hch.quietStep _ hquiet) hp, hch.stepTaken]
    refine hk _ ⟨fun _ _ => rfl, rising_firing hc.rising, onlyChanges_setPart _ _ _, by simp, by decide⟩ ⟨partOf_setPart_same _ _ hp, fun q hq => ?_⟩
    rw [partOf_setPart_ne _ hq, hch.partOf]
  · exact ⟨hu.1, hu.2, hdone.fired, hdone.regs, hdone.only.mono (by decide)⟩

theorem stepBoundaryHeld_holds (s : State) (e : Fin 1024) : (stepBoundaryHeld s e).Holds := by
  rintro ⟨hfires, hpaced, hsteps, hwhy⟩
  have hc := (due_of_fires hfires).canon
  have hch := firing_change (s := s) e.isLt
  have hp : Rising (s.firing e).parts := hch.parts ▸ hc.risingParts
  refine answers_of_ends (setFiring e 2) rfl ?_
  refine ends_setFiring_single (offs := [rPart (setPart s e) 0x940]) (may := [.parts, .regs]) (P := fun u =>
    partOf u (setPart s e) = { partOf s (setPart s e) with held := true } ∧ (∀ q, q ≠ setPart s e → partOf u q = partOf s q) ∧
      fieldOf u (rPart (setPart s e) 0x940) 0 32 = min 0xFFFFFFFF (fieldOf s (rPart (setPart s e) 0x940) 0 32 + 1))
    hfires (fun k hk => ?_) fun u hu hdone => ?_
  · have hnot : ¬ ((partOf (s.firing e) (setPart s e)).held = false ∧ workDone (s.firing e) (setPart s e) = true) := by
      rw [hch.partOf, hch.workDone]
      rcases hwhy with hw | hw <;> simp [hw]
    have hcount : fieldOf (s.firing e) (rPart (setPart s e) 0x940) 0 32 = fieldOf s (rPart (setPart s e) 0x940) 0 32 :=
      hch.field (by unfold SetWord rPart; omega) _ _
    rw [actionOf, setPart_firing hc.rising, ends_stepFire (by rw [hch.paced, hpaced]) (by rw [hch.steps, hsteps]), if_neg hnot, hch.partOf, hcount]
    refine hk _ ⟨fun x hx => (regsBut_setField _ _ _ _ _ x hx).trans rfl, setField_rising _ _ _ _ _ (rising_firing hc.rising),
      onlyChanges_of_take rfl, fun w hw => by simpa using rSet_not_rPart e.isLt hw _, by decide⟩
      ⟨partOf_setPart_same _ _ hp, fun q hq => ?_, ?_⟩
    · exact (partOf_setPart_ne _ hq).trans (hch.partOf q)
    · refine (fieldOf_setField_same _ _ _ _ _ (rising_firing hc.rising) (by decide)).trans ?_
      omega
  · obtain ⟨hpart, hothers, hcount⟩ := hu
    refine ⟨hpart, hothers, ?_, hdone.fired, hdone.regs, hdone.only.mono (by decide)⟩
    exact (fieldOf_setField_ne _ _ _ _ _ _ _ _ (rSet_not_rPart e.isLt (by decide) _).symm).trans hcount

/-! ## HELD_BOUNDARY_TAKE (R42) -/

theorem heldBoundaryTake_holds (s : State) (p : Fin 64) : (heldBoundaryTake s p).Holds := by
  rintro ⟨hheld, hsteps, hwork, hquiet, hc⟩
  refine exec_of_ends (heldTake p) rfl ?_
  simp only [heldTake, bind_apply, look_apply, ends_look, hheld, hsteps, hwork, Bool.and_self, if_true,
    ends_boundary_quiet hquiet hc.risingParts, ends_done]

/-! ## STEP_DECISION_POINT (R41) -/

/-- The clocks run up to a due time. -/
theorem ends_advanceTo_clocks (due : Nat) {k : Unit → Prog}
    (hQ : ∀ t : Time, t.now = max s.time.now due → Ends (k ()) { s with time := t } Q) : Ends (advanceTo due k) s Q := by
  simp only [advanceTo, bind_apply, look_apply, ends_look, ends_ite_act, pure_apply]
  split
  next h =>
    rw [Ends, run_advance]
    have hnow : s.time.now + (due - s.time.now) = max s.time.now due := by omega
    split
    · exact hQ _ hnow
    · exact hQ _ hnow
  next h => exact hQ s.time (by omega)

/-- The boundary of a decision point is due: the work is complete, and STEP_MIN_GAP_NS has passed. -/
abbrev PacedDue (s : State) (p now : Nat) : Prop := workDone s p = true ∧ (partOf s p).lastBoundary + stepGap s p ≤ now

/-- A decision point of a partition that is PACED: the clocks run to the next multiple of 125 ns, and the boundary is taken there if it is due. -/
theorem ends_decisionPoint (hpaced : paced s p = true) (hsteps : steps s p = true) (hlast : (partOf s p).lastBoundary < s.time.now) {k : Unit → Prog}
    (htake : ∀ t : Time, t.now = (s.time.now + 124) / 125 * 125 → PacedDue s p t.now → Ends (boundary p k) { s with time := t } Q)
    (hwait : ∀ t : Time, t.now = (s.time.now + 124) / 125 * 125 → ¬ PacedDue s p t.now → Ends (k ()) { s with time := t } Q) :
    Ends (decisionPoint p k) s Q := by
  simp only [decisionPoint, bind_apply, look_apply, ends_look, hpaced, hsteps, Bool.and_self, if_true, if_neg (Nat.not_le.2 hlast)]
  refine ends_advanceTo_clocks _ fun t ht => ?_
  have hnow : t.now = (s.time.now + 124) / 125 * 125 := by omega
  have hch := SetChange.of_time s t
  rw [ends_look, hch.workDone, hch.stepGap]
  by_cases hdue : PacedDue s p t.now
  · rw [if_pos (by simpa using hdue)]
    exact htake t hnow hdue
  · rw [if_neg (by simpa using hdue)]
    exact hwait t hnow hdue

theorem stepDecisionPoint_holds (s : State) (p : Fin 64) : (stepDecisionPoint s p).Holds := by
  rintro ⟨hpaced, hsteps, hwork, hlast, hgap, hquiet, hc⟩
  refine answers_of_ends (decisionPoint p) rfl (ends_decisionPoint hpaced hsteps hlast (fun t ht _ => ?_) fun t ht hnot => ?_)
  · have hch := SetChange.of_time s t
    rw [ends_boundary_quiet (hch.quietStep _ hquiet) hc.risingParts, hch.stepTaken, ends_done]
    refine ⟨?_, ht, by omega, fun q hq => partOf_setPart_ne _ hq, onlyChanges_of_take rfl⟩
    exact (partOf_setPart_same _ _ hc.risingParts).trans (by rw [ht])
  · exact absurd ⟨hwork, ht ▸ hgap⟩ hnot

theorem stepDecisionWaits_holds (s : State) (p : Fin 64) : (stepDecisionWaits s p).Holds := by
  rintro ⟨hpaced, hsteps, hlast, hwhy⟩
  refine answers_of_ends (decisionPoint p) rfl (ends_decisionPoint hpaced hsteps hlast (fun t ht hdue => ?_) fun t ht _ => ?_)
  · obtain ⟨hwork, hgap⟩ := hdue
    rcases hwhy with hw | hw
    · rw [hw] at hwork
      cases hwork
    · omega
  · exact ⟨ht, onlyChanges_of_take rfl⟩

/-- Settles O27: a boundary at which nothing but the counting happens is one write of its partition. -/
theorem stepBoundaries : Obligations.StepBoundaries := by
  unfold Obligations.StepBoundaries
  intro s e p
  exact ⟨stepBoundary_holds s e, stepBoundaryHeld_holds s e, heldBoundaryTake_holds s p, stepDecisionPoint_holds s p, stepDecisionWaits_holds s p⟩

end Sys2Proof.Machine
end

section
/-!
SUPPORT. Writes of SET entries, and firings whose action is a pip, a queue kick or a power reservation.
-/

namespace Sys2Proof.Machine

open Sys2Proof.Claims

variable {s u : State} {Q : State → Prop} {e : Nat} {a : Nat}

/-! ## SET_ENTRY_WRITE (R35, R38, R39) -/

/-- The state after a word of an entry has been written. -/
abbrev State.entryWritten (s : State) (e word : Nat) (w : Wr) : State :=
  s.setReg (rSet e word) (plainWrite (rSet e word) (regOf s (rSet e word)).toNat w)

theorem exec_setEntryWrite {e : Fin 1024} {word : Fin 4} {w : Wr} (h : ByOwner s w.path) :
    exec (.setEntryWrite e word w) s = finish (setEntryWriteAct e word w) s := finish_ownerWrite_owner _ h

theorem ends_setEntryWriteAct {word : Nat} {w : Wr} (h : noneDue s = []) {t : State} (ht : t = s.entryWritten e word w) (k : Unit → Prog) :
    Ends (setEntryWriteAct e word w k) s Q =
      if setArmed t e = true then
        if armOk t e = true then
          if t.time.running = true ∧ setFire t e < ftNs t then Ends (setFireOne e true k) t Q else Ends (k ()) t Q
        else Ends (raise 0x4003 2 diePC e (some (setPart t e)) 0 0 k) ((t.setReg (rSet e word) (regOf s (rSet e word)).toNat).setField (rSet e 2) 4 1 0) Q
      else Ends (k ()) t Q := by
  subst ht
  simp only [setEntryWriteAct, bind_apply, ends_settleNone_none h, ends_rdReg, ends_wrReg, look_apply, ends_look, ends_ite_act, ends_wrF,
    Bool.and_eq_true, decide_eq_true_eq]
  rfl

theorem setEntryWrite_holds (s : State) (e : Fin 1024) (word : Fin 4) (w : Wr) : (setEntryWrite s e word w).Holds := by
  rintro ⟨howner, hwhen, hnone⟩
  refine exec_of_ends _ (exec_setEntryWrite howner) ?_
  rw [ends_setEntryWriteAct hnone rfl]
  rcases hwhen with harmed | ⟨hok, hlater⟩
  · rw [if_neg (by rw [harmed]; decide), ends_done]
  · have hnot : ¬ ((s.entryWritten e word w).time.running = true ∧ setFire (s.entryWritten e word w) e < ftNs (s.entryWritten e word w)) := by
      rintro ⟨hrun, hpast⟩
      rcases hlater with hstill | hcome
      · rw [show (s.entryWritten e word w).time.running = false from hstill] at hrun
        cases hrun
      · exact absurd hpast (Nat.not_lt.2 hcome)
    rw [if_pos hok, if_neg hnot, ends_done, ite_self]

/-- A register written with what it holds reads as before. -/
theorem regOf_setReg_self (hr : Rising s.regs) (off x : Nat) : regOf (s.setReg off (regOf s off).toNat) x = regOf s x := by
  by_cases hx : x = off
  · rw [hx, regOf_setReg_same _ _ _ hr, BitVec.ofNat_toNat, BitVec.setWidth_eq]
  · exact regOf_setReg_ne _ _ _ _ hx

theorem not_setWord_errSrc {off : Nat} (h : off ∈ errSrc 98) : ¬ SetWord off := by
  simp only [errSrc, List.mem_cons, List.not_mem_nil, or_false] at h
  unfold SetWord
  omega

theorem setEntryRefused_holds (s : State) (e : Fin 1024) (word : Fin 4) (w : Wr) : (setEntryRefused s e word w).Holds := by
  rintro ⟨howner, harmed, hbad, hnone, hc⟩
  have hr := hc.rising
  refine answers_of_ends _ (exec_setEntryWrite howner) ?_
  rw [ends_setEntryWriteAct hnone rfl, if_pos harmed, if_neg (by rw [hbad]; decide), State.entryWritten, setReg_setReg hr]
  set t := s.setReg (rSet e word) (regOf s (rSet e word)).toNat with ht
  have htr : Rising t.regs := setReg_rising _ _ _ hr
  have hback : ∀ x, regOf t x = regOf s x := regOf_setReg_self hr _
  have hclear : regOf (t.setField (rSet e 2) 4 1 0) (rSet e 2) = BitVec.ofNat 64 (setBits (regOf s (rSet e 2)).toNat 4 1 0) := by
    rw [State.setField, regOf_setReg_same _ _ _ htr, hback]
  have hword : ∀ v, v < 4 → rSet e v ∉ errSrc 98 := fun v hv hm => not_setWord_errSrc hm (setWord_rSet e.isLt hv)
  refine ends_raise (by decide) fun u hu => ?_
  rw [ends_done]
  refine ⟨?_, ?_, hu.reported, ?_, ?_⟩
  · rw [hu.regs _ (hword _ word.isLt)]
    split
    next h2 =>
      rw [h2]
      exact hclear
    next h2 => exact (regOf_setReg_ne _ _ _ _ (rSet_inj fun h => h2 (Fin.ext h))).trans (hback _)
  · rw [setArmed, hu.field (hword 2 (by decide)), fieldOf_setField_same _ _ _ _ _ htr (by decide)]
    decide
  · intro x hx
    simp only [List.mem_cons, not_or] at hx
    obtain ⟨-, hx2, hxerr⟩ := hx
    exact (hu.regs x hxerr).trans ((regOf_setReg_ne _ _ _ _ hx2).trans (hback x))
  · exact ((onlyChanges_of_take rfl).trans hu.onlyChanges)

/-! ## USER_PIP (R35, R295) -/

/-- A unit signals a pip of its partition that nobody waits for (R295). -/
theorem ends_unitSignal_free {die unit p core pip : Nat} {k : Unit → Prog} (hcore : coreOfPart s p core = true)
    (hn : (pipOf s (pipKey p (fieldOf s (rPart p 0x28) 0 4) core pip)).toNat + 1 < 2 ^ 16)
    (hw : pipWaiters s p (fieldOf s (rPart p 0x28) 0 4) core pip = []) :
    Ends (unitSignal die unit p core pip 1 k) s Q = Ends (k ()) (s.setPip (pipKey p (fieldOf s (rPart p 0x28) 0 4) core pip)
      (pipOf s (pipKey p (fieldOf s (rPart p 0x28) 0 4) core pip) + 1)) Q := by
  simp only [unitSignal, bind_apply, look_apply, ends_look, hcore, if_true]
  exact ends_addPip_free (by omega) hw

theorem not_setWord_rPart (p off : Nat) : ¬ SetWord (rPart p off) := by
  unfold SetWord rPart
  omega

/-- The same where only the time and the SET differ from a state without waiters. -/
theorem SetChange.ends_unitSignal {p core pip die unit : Nat} {key : Nat} {k : Unit → Prog} (h : SetChange s u)
    (hkey : key = pipKey p (fieldOf s (rPart p 0x28) 0 4) core pip) (hcore : Machine.coreOfPart s p core = true) (hn : (pipOf s key).toNat + 1 < 2 ^ 16)
    (hw : pipWaiters s p (fieldOf s (rPart p 0x28) 0 4) core pip = []) :
    Ends (unitSignal die unit p core pip 1 k) u Q = Ends (k ()) (u.setPip key (pipOf s key + 1)) Q := by
  have hctx : fieldOf u (rPart p 0x28) 0 4 = fieldOf s (rPart p 0x28) 0 4 := h.field (not_setWord_rPart _ _) _ _
  have hpip : ∀ x, pipOf u x = pipOf s x := fun x => by rw [h.eq]; rfl
  have hwait : pipWaiters u p (fieldOf s (rPart p 0x28) 0 4) core pip = [] := by
    rw [← hw, h.eq]
    rfl
  have hsignal := ends_unitSignal_free (s := u) (Q := Q) (die := die) (unit := unit) (pip := pip) (k := k) (by rw [h.coreOfPart, hcore])
    (by rw [hctx, ← hkey, hpip]; exact hn) (by rw [hctx, hwait])
  rw [hsignal, hctx, ← hkey, hpip]

/-- The pip that an entry signals, in its partition's bound context. -/
abbrev entryPip (s t : State) (e : Nat) : Nat :=
  pipKey (setPart t e) (fieldOf s (rPart (setPart t e) 0x28) 0 4) (setTarget t e) (bitsOf (setArg t e) 0 6)

/-- A late firing of a single-shot entry that signals a pip without waiters. -/
theorem ends_setFireOne_pip {t : State} (hch : SetChange s t) (hr : Rising t.regs) (he : e < 1024) (haction : setAction t e = 6)
    (hperiod : setPeriod t e = 0) (hcore : coreOfPart s (setPart t e) (setTarget t e) = true) (hn : (pipOf s (entryPip s t e)).toNat + 1 < 2 ^ 16)
    (hw : pipWaiters s (setPart t e) (fieldOf s (rPart (setPart t e) 0x28) 0 4) (setTarget t e) (bitsOf (setArg t e) 0 6) = []) (k : Unit → Prog) :
    Ends (setFireOne e true k) t Q = Ends (k ()) (((t.setField (rSet e 2) 5 1 1).setPip (entryPip s t e) (pipOf s (entryPip s t e) + 1)).setField
      (rSet e 2) 4 1 0) Q := by
  set f := t.setField (rSet e 2) 5 1 1 with hf
  have hchf : SetChange s f := by
    refine ⟨by rw [hf, hch.eq]; rfl, fun x hx => (regOf_setReg_ne _ _ _ _ fun h => hx ?_).trans (hch.same x hx)⟩
    rw [h]
    exact setWord_rSet he (by decide)
  have hother : ∀ lo len, 6 ≤ lo ∨ lo + len ≤ 5 → fieldOf f (rSet e 2) lo len = fieldOf t (rSet e 2) lo len := fun lo len hd =>
    fieldOf_setField_other _ _ _ _ _ _ _ hr (by decide) hd
  have haction' : setAction f e = 6 := (hother _ _ (by decide)).trans haction
  have hpart : setPart f e = setPart t e := hother _ _ (by decide)
  have htarget : setTarget f e = setTarget t e := hother _ _ (by decide)
  have harg : setArg f e = setArg t e := hother _ _ (by decide)
  have hperiod' : setPeriod (f.setPip (entryPip s t e) (pipOf s (entryPip s t e) + 1)) e = 0 :=
    (fieldOf_setField_ne _ _ _ _ _ _ _ _ (rSet_inj (by decide))).trans hperiod
  simp only [setFireOne, bind_apply, ends_wrF, if_true, ← hf, ends_setAct, haction', actionOf, hpart, htarget, harg]
  rw [hchf.ends_unitSignal rfl hcore hn hw, ends_setAdvance_single hperiod']

theorem setEntryLate_holds (s : State) (e : Fin 1024) (w : Wr) : (setEntryLate s e w).Holds := by
  dsimp only [setEntryLate, Clause.Holds]
  set t := s.setReg (rSet e 2) (plainWrite (rSet e 2) (regOf s (rSet e 2)).toNat w) with ht
  rintro ⟨howner, harmed, haction, hrun, hpast, hperiod, hcore, hroom, hwait, hnone, hc⟩
  have htr : Rising t.regs := setReg_rising _ _ _ hc.rising
  have hch : SetChange s t := ⟨rfl, fun x hx => regOf_setReg_ne _ _ _ _ fun h => hx (by rw [h]; exact setWord_rSet e.isLt (by decide))⟩
  have hok : armOk t e = true := by
    rw [armOk, haction]
    rfl
  refine answers_of_ends _ (exec_setEntryWrite (word := 2) howner) ?_
  refine (ends_setEntryWriteAct hnone ht _).mpr ?_
  rw [if_pos harmed, if_pos hok, if_pos ⟨hrun, hpast⟩, ends_setFireOne_pip hch htr e.isLt haction hperiod hcore hroom hwait, ends_done]
  set f := t.setField (rSet e 2) 5 1 1 with hf
  set v := f.setPip (entryPip s t e) (pipOf s (entryPip s t e) + 1) with hv
  have hfr : Rising v.regs := setField_rising _ _ _ _ _ htr
  refine ⟨pipOf_setPip_same (s := f) _ _ hc.risingPips, fun k hk => pipOf_setPip_ne (s := f) _ hk, ?_, ?_, ?_, onlyChanges_of_take rfl⟩
  · rw [setArmed, fieldOf_setField_same _ _ _ _ _ hfr (by decide)]
    decide
  · rw [fieldOf_setField_other _ _ _ _ _ _ _ hfr (by decide) (by decide)]
    exact fieldOf_setField_same _ _ _ _ _ htr (by decide)
  · intro x hx
    have hne : x ≠ rSet e 2 := fun h => hx (by simp [h, setRegs])
    exact (regOf_setReg_ne _ _ _ _ hne).trans ((regOf_setReg_ne t _ _ _ hne).trans (regOf_setReg_ne s _ _ _ hne))

theorem userPip_holds (s : State) (e : Fin 1024) : (userPip s e).Holds := by
  rintro ⟨hfires, hcore, hroom, hwait⟩
  have hc := (due_of_fires hfires).canon
  have hch := firing_change (s := s) e.isLt
  refine answers_of_ends (setFiring e 6) rfl ?_
  refine ends_setFiring_single (offs := []) (may := [.pips]) (P := fun u => pipOf u (entryPip s s e) = pipOf s (entryPip s s e) + 1 ∧
    ∀ k, k ≠ entryPip s s e → pipOf u k = pipOf s k) hfires (fun k hk => ?_) fun u hu hdone => ?_
  · rw [actionOf, setPart_firing hc.rising, setTarget_firing hc.rising, setArg_firing hc.rising, hch.ends_unitSignal rfl hcore hroom hwait]
    exact hk _ ⟨fun _ _ => rfl, rising_firing hc.rising, onlyChanges_of_take rfl, by simp, by decide⟩
      ⟨pipOf_setPip_same (s := s.firing e) _ _ hc.risingPips, fun k hk => pipOf_setPip_ne (s := s.firing e) _ hk⟩
  · obtain ⟨hpip, hothers⟩ := hu
    exact ⟨hpip, hothers, hdone.fired, hdone.regs, hdone.only.mono (by decide)⟩

theorem userPipOutside_holds (s : State) (e : Fin 1024) : (userPipOutside s e).Holds := by
  rintro ⟨hfires, hcore⟩
  have hc := (due_of_fires hfires).canon
  have hch := firing_change (s := s) e.isLt
  refine answers_of_ends (setFiring e 6) rfl ?_
  refine ends_setFiring_single (offs := errSrc 98) (may := [.regs, .err]) (P := fun u =>
    Reported s u 0x2004 2 98 e (some (setPart s e)) (scratchBase (setTarget s e)) 0) hfires (fun k hk => ?_) fun u hu hdone => ?_
  · rw [actionOf, setPart_firing hc.rising, setTarget_firing hc.rising]
    simp only [unitSignal, bind_apply, look_apply, ends_look, hch.coreOfPart, hcore, Bool.false_eq_true, if_false]
    refine ends_raise (by decide) fun u hu => hk u ⟨hu.regs, hu.rising (rising_firing hc.rising), hu.onlyChanges, fun w hw hm =>
      not_setWord_errSrc hm (setWord_rSet e.isLt hw), by decide⟩ hu.reported
  · exact ⟨hu, hdone.fired, fun x hx => hdone.regs x (by simpa [or_comm] using hx), hdone.only.mono (by decide)⟩

/-! ## PGU_PREPARE (R350) -/

theorem SetChange.classMw (h : SetChange s u) {c : Nat} (hc : c < 8) : classMw u c = classMw s c := by
  rw [Machine.classMw, h.field (by unfold SetWord; omega), h.field (by decide), Machine.classMw]

theorem pguPrepare_holds (s : State) (e : Fin 1024) : (pguPrepare s e).Holds := by
  intro hfires
  have hc := (due_of_fires hfires).canon
  have hch := firing_change (s := s) e.isLt
  refine answers_of_ends (setFiring e 4) rfl ?_
  refine ends_setFiring_single (offs := []) (may := [.pw]) (P := fun u => u.pw =
    (asking s { who := .reservation (setPart s e), mw := classMw s (bitsOf (setArg s e) 0 3), prio := 15, part := setPart s e
                until_ := setFire s e + 1000 * max 1 (bitsOf (setArg s e) 16 16), askedAt := s.time.now }).pw) hfires
    (fun k hk => ?_) fun u hu hdone => ⟨hu, hdone.fired, hdone.regs, hdone.only.mono (by decide)⟩
  rw [actionOf, setPart_firing hc.rising, setArg_firing hc.rising, setFire_firing, hch.classMw (bitsOf_lt _ 0 3)]
  simp only [askGrant, bind_apply, look_apply, ends_look, ends_modPw]
  exact hk _ ⟨fun _ _ => rfl, rising_firing hc.rising, onlyChanges_of_take rfl, by simp, by decide⟩ rfl

/-! ## QUEUE_KICK (R40) -/

theorem SetChange.queueField (h : SetChange s u) (q w lo len : Nat) : fieldOf u (rQueue q w) lo len = fieldOf s (rQueue q w) lo len :=
  h.field (by unfold SetWord rQueue; omega) lo len

theorem SetChange.qEn (h : SetChange s u) (q : Nat) : qEn u q = qEn s q := by rw [Machine.qEn, h.queueField, Machine.qEn]
theorem SetChange.qPart (h : SetChange s u) (q : Nat) : qPart u q = qPart s q := h.queueField _ _ _ _
theorem SetChange.qCons (h : SetChange s u) (q : Nat) : qCons u q = qCons s q := h.queueField _ _ _ _

/-- A kick of a queue that a Sedge die reads. -/
theorem ends_kick_sedge {p q : Nat} (hlt : q < 4096) (hen : qEn s q = true) (hpart : qPart s q = p) (hcons : qCons s q = 1) (k : Unit → Prog) :
    Ends (kick p q k) s Q = Ends (k ()) (s.setQueue q { queueOf s q with kicked := true }) Q := by
  have hcond : (decide (q < 4096) && qEn s q && decide (qPart s q = p)) = true := by simp [hlt, hen, hpart]
  simp only [kick, bind_apply, look_apply, ends_look, if_pos hcond, hcons, ends_modQueue]

/-- A kick of a queue that is not enabled does nothing. -/
theorem ends_kick_disabled {p q : Nat} (hen : qEn s q = false) (k : Unit → Prog) : Ends (kick p q k) s Q = Ends (k ()) s Q := by
  have hcond : ¬ (decide (q < 4096) && qEn s q && decide (qPart s q = p)) = true := by simp [hen]
  simp only [kick, bind_apply, look_apply, ends_look, if_neg hcond, pure_apply]

theorem queueKick_holds (s : State) (e : Fin 1024) : (queueKick s e).Holds := by
  rintro ⟨hfires, hlt, hen, hpart, hcons⟩
  have hc := (due_of_fires hfires).canon
  have hch := firing_change (s := s) e.isLt
  refine answers_of_ends (setFiring e 5) rfl ?_
  refine ends_setFiring_single (offs := []) (may := [.queues]) (P := fun u =>
    queueOf u (setTarget s e) = { queueOf s (setTarget s e) with kicked := true } ∧ ∀ k, k ≠ setTarget s e → queueOf u k = queueOf s k)
    hfires (fun k hk => ?_) fun u hu hdone => ?_
  · rw [actionOf, setPart_firing hc.rising, setTarget_firing hc.rising,
      ends_kick_sedge hlt (by rw [hch.qEn, hen]) (by rw [hch.qPart, hpart]) (by rw [hch.qCons, hcons])]
    exact hk _ ⟨fun _ _ => rfl, rising_firing hc.rising, onlyChanges_of_take rfl, by simp, by decide⟩
      ⟨queueOf_setQueue_same (s := s.firing e) _ _ hc.risingQueues, fun k hk => queueOf_setQueue_ne (s := s.firing e) _ hk⟩
  · obtain ⟨hqueue, hothers⟩ := hu
    exact ⟨hqueue, hothers, hdone.fired, hdone.regs, hdone.only.mono (by decide)⟩

/-! ## A periodic entry (R36, R38) -/

/-- Firings of a periodic entry up to now, of which all but one have been missed. -/
def firingsDue (s : State) (e : Nat) : Nat := (ftNs s - setFire s e) / setPeriod s e + 1

/-- The state in which an entry has gone on to the first time of its series that has not passed. -/
def State.goneOn (s : State) (e : Nat) : State :=
  let t := s.setReg (rSet e 0) (setFire s e + firingsDue s e * setPeriod s e)
  if 1 < firingsDue s e then t.setField 0x060048 0 32 (min 0xFFFFFFFF (fieldOf t 0x060048 0 32 + (firingsDue s e - 1))) else t

theorem ends_setAdvance_periodic (hperiod : 0 < setPeriod s e) (hcount : setCount s e = 0) (hdue : setFire s e ≤ ftNs s)
    (hlt : setFire s e + firingsDue s e * setPeriod s e < 2 ^ 64) (k : Unit → Prog) :
    Ends (setAdvance e k) s Q = Ends (k ()) (s.goneOn e) Q := by
  have hmore : ¬ (decide (setPeriod s e = 0) || decide (setCount s e = 1)) = true := by
    simp [hcount]
    omega
  have hn : (if ftNs s < setFire s e then 1 else (ftNs s - setFire s e) / setPeriod s e + 1) = firingsDue s e := if_neg (Nat.not_lt.2 hdue)
  have hendless : ¬ setCount s e ≠ 0 := not_not.2 hcount
  simp only [setAdvance, bind_apply, look_apply, ends_look, if_neg hmore, hn, ends_wrReg, Nat.mod_eq_of_lt hlt, ends_ite_act, ends_ctr32,
    if_neg hendless, pure_apply, State.goneOn]
  split <;> rfl

/-- The first time of a series that has not passed. -/
theorem lt_fire_add_firingsDue (hperiod : 0 < setPeriod s e) : ftNs s < setFire s e + firingsDue s e * setPeriod s e := by
  have hdiv := Nat.lt_div_mul_add hperiod (a := ftNs s - setFire s e)
  rw [firingsDue, Nat.add_mul, Nat.one_mul]
  omega

/-- Only the time of the entry and the count of missed firings change. -/
theorem regsChange_goneOn (s : State) (e : Nat) : RegsChange (fun x => x = rSet e 0 ∨ x = 0x060048) s (s.goneOn e) := by
  have hfire := RegsChange.setReg (S := fun x => x = rSet e 0 ∨ x = 0x060048) s (setFire s e + firingsDue s e * setPeriod s e) (.inl rfl)
  unfold State.goneOn
  split
  · exact hfire.trans (.setReg _ _ (.inr rfl))
  · exact hfire

theorem rSet_ne_missed (e w : Nat) : rSet e w ≠ 0x060048 := by
  unfold rSet
  omega

theorem setFire_goneOn (hr : Rising s.regs) (hlt : setFire s e + firingsDue s e * setPeriod s e < 2 ^ 64) :
    setFire (s.goneOn e) e = setFire s e + firingsDue s e * setPeriod s e := by
  have hword : regOf (s.goneOn e) (rSet e 0) = BitVec.ofNat 64 (setFire s e + firingsDue s e * setPeriod s e) := by
    rw [← regOf_setReg_same s (rSet e 0) _ hr]
    unfold State.goneOn
    split
    · exact regOf_setReg_ne _ _ _ _ (rSet_ne_missed e 0)
    · rfl
  rw [setFire, hword, BitVec.toNat_ofNat, Nat.mod_eq_of_lt hlt]

/-- The firings of the series that came due together, but for one, count as missed (R38). -/
theorem missed_goneOn (hr : Rising s.regs) :
    fieldOf (s.goneOn e) 0x060048 0 32 = min 0xFFFFFFFF (fieldOf s 0x060048 0 32 + (firingsDue s e - 1)) := by
  have hmiss : ∀ v, fieldOf (s.setReg (rSet e 0) v) 0x060048 0 32 = fieldOf s 0x060048 0 32 := fun v => by
    rw [fieldOf, regOf_setReg_ne _ _ _ _ (rSet_ne_missed e 0).symm, fieldOf]
  unfold State.goneOn
  split
  · rw [fieldOf_setField_same _ _ _ _ _ (setReg_rising _ _ _ hr) (by decide), hmiss]
    omega
  next hone =>
    have hfield : fieldOf s 0x060048 0 32 < 2 ^ 32 := bitsOf_lt _ _ _
    rw [hmiss]
    omega

theorem setPeriodic_holds (s : State) (e : Fin 1024) : (setPeriodic s e).Holds := by
  rintro ⟨harmed, haction, hen, hperiod, hcount, hdue, hlt, halone, hnone, hroom, hc⟩
  have hr := hc.rising
  have hfr : Rising (s.firing e).regs := rising_firing hr
  have hch := firing_change (s := s) e.isLt
  have hn : firingsDue (s.firing e) e = firingsDue s e := by
    rw [firingsDue, setFire_firing, setPeriod_firing]
    rfl
  have hseries : setFire (s.firing e) e + firingsDue (s.firing e) e * setPeriod (s.firing e) e =
      setFire s e + firingsDue s e * setPeriod s e := by rw [setFire_firing, setPeriod_firing, hn]
  have hgone := regsChange_goneOn (s.firing e) e
  have hfire : setFire ((s.firing e).goneOn e) e = setFire s e + firingsDue s e * setPeriod s e := by
    rw [setFire_goneOn hfr (hseries ▸ hlt), hseries]
  have hflags : ∀ lo len, fieldOf ((s.firing e).goneOn e) (rSet e 2) lo len = fieldOf (s.firing e) (rSet e 2) lo len :=
    hgone.field (not_or.2 ⟨rSet_inj (by decide), rSet_ne_missed e 2⟩)
  refine answers_of_ends (setFiring e 5) rfl ?_
  rw [ends_setFiring ⟨harmed, haction, hdue, halone, hnone, hroom, hc⟩, ends_setAct, setAction_firing hr, haction, actionOf, setPart_firing hr,
    setTarget_firing hr, ends_kick_disabled (by rw [hch.qEn, hen]), ends_setAdvance_periodic (by rwa [setPeriod_firing])
    (setCount_firing.trans hcount) (by rw [setFire_firing]; exact hdue) (hseries ▸ hlt), ends_done]
  refine ⟨hfire, hfire ▸ lt_fire_add_firingsDue hperiod, ?_, ?_, ?_, fun x hx => ?_, congrArg State.time hgone.eq,
    ((onlyChanges_firing s e).trans (hgone.onlyChanges.mono (by decide))).mono (by decide)⟩
  · rw [setArmed, hflags, fieldOf_firing hr (by decide)]
    exact harmed
  · rw [missed_goneOn hfr, hn, hch.field (by decide)]
    rfl
  · rw [hflags, State.firing, fieldOf_setField_same _ _ _ _ _ (by exact hr) (by decide)]
    split <;> simp_all
  · simp only [setRegs, List.mem_cons, List.not_mem_nil, or_false, not_or] at hx
    obtain ⟨hx48, hx0, -, hx2⟩ := hx
    rw [hgone.same x (not_or.2 ⟨hx0, hx48⟩), regsBut_firing s e x (by simpa using hx2)]

end Sys2Proof.Machine
end

section
/-!
SUPPORT. STAT_LATCH: the bank that a snapshot fills, and O26.
-/

namespace Sys2Proof.Machine

open Sys2Proof.Claims

variable {s u : State} {Q : State → Prop} {e : Nat} {p : Nat}

/-! ## Where a counter lies in a bank (R47) -/

/-- A slot lies behind the head of the bank, and whole within it. -/
theorem snapSlot_bounds {off o : Nat} (h : snapSlot s p off = some o) : 0x100 ≤ o ∧ o + 8 ≤ 0x100000 := by
  simp only [snapSlot] at h
  split_ifs at h <;> simp only [Option.some.injEq, Bool.and_eq_true, decide_eq_true_eq] at * <;> omega

theorem snapSlot_setWord {off : Nat} (h : SetWord off) : snapSlot s p off = none := by
  obtain ⟨hlo, hhi⟩ := h
  simp only [snapSlot]
  rw [if_neg (by omega), if_neg (by simp; omega), if_neg (by simp; omega), if_neg (by simp; omega), if_neg (by omega), if_neg (by unfold rPart; omega)]

/-- The word of R46's own counters that holds other fields besides lies in the bank too. -/
theorem snapSlot_flags (hp : p < 64) : snapSlot s p (rPart p 0x930) = some 0x130 := by
  have hbase : rPart p 0 = 0xC00000 + p * 0x4000 := rfl
  have hoff : rPart p 0x930 = 0xC00930 + p * 0x4000 := by
    unfold rPart
    omega
  generalize rPart p 0x930 = off at hoff
  simp only [snapSlot, hbase]
  rw [if_neg (by omega), if_neg (by simp; omega), if_neg (by simp; omega), if_neg (by simp; omega), if_neg (by omega), if_pos (by omega),
    if_pos (by simp; omega)]
  exact congrArg some (by omega)

theorem SetChange.snapSlot (h : SetChange s u) (p off : Nat) : snapSlot u p off = snapSlot s p off := by
  have hgroup : ∀ k, groupOf u k = groupOf s k := fun k => by rw [h.eq]; rfl
  have hrcfg : ∀ r, rcfgOf u r = rcfgOf s r := rcfgOf_congr fun x hx => h.same x (by unfold SetWord; omega)
  unfold Machine.snapSlot
  simp only [h.partOf, h.coreOfPart, h.qPart, hgroup, hrcfg]

/-! ## Bytes of memory -/

theorem leNat_natBytes (n v : Nat) : leNat (natBytes n v) = v % 2 ^ (8 * n) := by
  induction n with
  | zero => simp [natBytes, leNat, Nat.mod_one]
  | succ n ih =>
    have hcons : natBytes (n + 1) v = natBytes n v ++ [BitVec.ofNat 8 (v >>> (8 * n))] := by
      simp [natBytes, List.range_succ]
    have hpow : 2 ^ (8 * (n + 1)) = 2 ^ (8 * n) * 2 ^ 8 := by rw [Nat.mul_succ, pow_add]
    rw [hcons, leNat_append_one, ih, length_natBytes, BitVec.toNat_ofNat, Nat.shiftLeft_eq, Nat.shiftRight_eq_div_pow, hpow, Nat.mod_mul]
    ring

/-- A value just written reads back. -/
theorem memNat_putMem_same (hm : Rising s.mem) (a : Nat) {v : Nat} (hv : v < 2 ^ 64) : memNat (s.putMem a (natBytes 8 v)) a 8 = v := by
  have hbytes := memBytes_putMem a (natBytes 8 v) hm
  rw [length_natBytes] at hbytes
  rw [memNat, hbytes, leNat_natBytes]
  exact Nat.mod_eq_of_lt hv

theorem memNat_congr {t : State} {a n : Nat} (h : ∀ i, i < n → memAt t (a + i) = memAt s (a + i)) : memNat t a n = memNat s a n := by
  rw [memNat, memNat, memBytes, memBytes]
  exact congrArg leNat (List.map_congr_left fun i hi => h i (List.mem_range.1 hi))

/-- A write leaves a value elsewhere alone. -/
theorem memNat_putMem_apart (s : State) {a b n : Nat} {bs : List Byte} (h : b + n ≤ a ∨ a + bs.length ≤ b) :
    memNat (s.putMem a bs) b n = memNat s b n :=
  memNat_congr fun i hi => memBut_putMem s a bs _ (by omega)

/-- The state with a range of memory at 0. -/
def State.zeroed (s : State) (a n : Nat) : State := { s with mem := tkeep (fun x => x < a || a + n ≤ x) s.mem }

theorem memErr_filter {m : MemErr} (hpo : m.poison = []) (hue : m.ue = []) (f : Nat → Bool) :
    { m with poison := m.poison.filter f, ue := m.ue.filter f } = m := by
  cases m
  simp_all

theorem ends_zeroMem_clean (h : CleanMem s) (hdir : s.fab.dir = []) (a n : Nat) (k : Unit → Prog) :
    Ends (zeroMem a n k) s Q = Ends (k ()) (s.zeroed a n) Q := by
  obtain ⟨hpo, hue, -⟩ := h
  have hhome := ends_homeWrite_unshared (s := s.zeroed a n) (Q := Q) hdir a n k
  exact (congrArg (fun m => Ends (homeWrite a n k) { s.zeroed a n with mem2 := m } Q) (memErr_filter hpo hue _)).trans hhome

theorem mem_zeroed (s : State) (a n : Nat) : (s.zeroed a n).mem = tkeep (fun x => x < a || a + n ≤ x) s.mem := rfl

theorem memBut_zeroed (s : State) (a n : Nat) : MemBut s (s.zeroed a n) a n := fun x hx => by
  rw [memAt, mem_zeroed, tget_tkeep_of _ _ _ _ (by simpa using hx), memAt]

theorem rising_zeroed (a n : Nat) (h : Rising s.mem) : Rising (s.zeroed a n).mem := by
  rw [mem_zeroed]
  exact rising_tkeep _ h

/-! ## The bank (R46) -/

/-- What a snapshot writes: SEQ, then the bank cleared, the fabric time, the step number, the counter of one word, and SEQ again. -/
def State.bankWritten (s : State) (bank ft step o v : Nat) : State :=
  (((((s.putMem bank (natBytes 8 (memNat s bank 8 + 1))).zeroed (bank + 8) (0x100000 - 8)).putMem (bank + 8) (natBytes 8 ft)).putMem (bank + 16)
    (natBytes 8 step)).putMem (bank + o) (natBytes 8 v)).putMem bank (natBytes 8 (memNat s bank 8 + 2))

theorem memBut_mono {t : State} {a b n m : Nat} (h : MemBut s t b m) (hlo : a ≤ b) (hhi : b + m ≤ a + n) : MemBut s t a n :=
  fun x hx => h x (by omega)

theorem MemBut.trans {t v : State} {a n : Nat} (h : MemBut s t a n) (h' : MemBut t v a n) : MemBut s v a n := fun x hx => (h' x hx).trans (h x hx)

theorem memBut_putNat {a n : Nat} (s : State) {b : Nat} (v : Nat) (hlo : a ≤ b) (hhi : b + 8 ≤ a + n) : MemBut s (s.putMem b (natBytes 8 v)) a n :=
  memBut_mono (memBut_putMem s b _) hlo (by rwa [length_natBytes])

/-- What the bank holds, and that nothing else has changed. -/
theorem bankWritten_reads (hm : Rising s.mem) {bank ft step o v : Nat} (hlo : 0x100 ≤ o) (hhi : o + 8 ≤ 0x100000) (hseq : memNat s bank 8 + 2 < 2 ^ 64)
    (hft : ft < 2 ^ 64) (hstep : step < 2 ^ 64) (hv : v < 2 ^ 64) :
    let t := s.bankWritten bank ft step o v
    memNat t bank 8 = memNat s bank 8 + 2 ∧ memNat t (bank + 8) 8 = ft ∧ memNat t (bank + 16) 8 = step ∧ memNat t (bank + o) 8 = v ∧
      MemBut s t bank 0x100000 := by
  intro t
  set s1 := (s.putMem bank (natBytes 8 (memNat s bank 8 + 1))).zeroed (bank + 8) (0x100000 - 8) with h1
  set s2 := s1.putMem (bank + 8) (natBytes 8 ft) with h2
  set s3 := s2.putMem (bank + 16) (natBytes 8 step) with h3
  set s4 := s3.putMem (bank + o) (natBytes 8 v) with h4
  have ht : t = s4.putMem bank (natBytes 8 (memNat s bank 8 + 2)) := rfl
  have m1 : Rising s1.mem := rising_zeroed _ _ (rising_putMem _ _ hm)
  have m2 : Rising s2.mem := rising_putMem _ _ m1
  have m3 : Rising s3.mem := rising_putMem _ _ m2
  have m4 : Rising s4.mem := rising_putMem _ _ m3
  have hlen : ∀ x, (natBytes 8 x).length = 8 := length_natBytes 8
  refine ⟨memNat_putMem_same m4 _ hseq, ?_, ?_, ?_, ?_⟩
  · rw [ht, memNat_putMem_apart _ (by rw [hlen]; omega), h4, memNat_putMem_apart _ (by omega), h3, memNat_putMem_apart _ (by omega)]
    exact memNat_putMem_same m1 _ hft
  · rw [ht, memNat_putMem_apart _ (by rw [hlen]; omega), h4, memNat_putMem_apart _ (by omega)]
    exact memNat_putMem_same m2 _ hstep
  · rw [ht, memNat_putMem_apart _ (by rw [hlen]; omega)]
    exact memNat_putMem_same m3 _ hv
  · have hclear : MemBut s s1 bank 0x100000 :=
      (memBut_putNat s _ (by omega) (by omega)).trans (memBut_mono (memBut_zeroed _ _ _) (by omega) (by omega))
    exact hclear.trans ((memBut_putNat s1 _ (by omega) (by omega)).trans ((memBut_putNat s2 _ (by omega) (by omega)).trans
      ((memBut_putNat s3 _ (by omega) (by omega)).trans (memBut_putNat s4 _ (by omega) (by omega)))))

/-! ## The counters of a partition -/

/-- A loop that does something for one element of a list only. -/
theorem ends_forIn_only {γ : Type} {l : List γ} {f : γ → PUnit → Act (ForInStep PUnit)} {P : γ → Bool} {x : γ} {t : State} (hl : l.filter P = [x])
    (hskip : ∀ y, P y = false → ∀ v k, Ends (f y PUnit.unit k) v Q = Ends (k (.yield PUnit.unit)) v Q)
    (hx : ∀ k, Ends (f x PUnit.unit k) s Q = Ends (k (.yield PUnit.unit)) t Q) (k : PUnit → Prog) :
    Ends ((forIn l PUnit.unit f : Act PUnit) k) s Q = Ends (k PUnit.unit) t Q := by
  induction l with
  | nil => cases hl
  | cons y l ih =>
    rw [List.forIn_cons, bind_apply]
    by_cases hy : P y = true
    · rw [List.filter_cons_of_pos hy, List.cons.injEq] at hl
      obtain ⟨rfl, hrest⟩ := hl
      rw [hx]
      exact ends_forIn_id (fun z hz k => hskip z (by simpa using List.filter_eq_nil_iff.1 hrest z hz) t k) k
    · rw [List.filter_cons_of_neg hy] at hl
      rw [hskip y (by simpa using hy)]
      exact ih hl

theorem filter_tput {α : Type} [DecidableEq α] (d v : α) (t : Tbl α) (k : Nat) (P : Nat × α → Bool) (h : ∀ w, P (k, w) = false) :
    (tput d t k v).filter P = t.filter P := by
  induction t with
  | nil =>
    rw [tput]
    split <;> simp [h]
  | cons x t ih =>
    obtain ⟨j, w⟩ := x
    rw [tput]
    split
    · split <;> simp [h]
    · split
      next hk =>
        subst hk
        split <;> simp [h]
      · simp [List.filter_cons, ih]

/-- A register that is listed nowhere reads as after reset. -/
theorem regOf_of_filter {P : Nat → Bool} {off x : Nat} {v : Word} (h : s.regs.filter (fun e => P e.1) = [(off, v)]) (hP : P x = true) (hx : x ≠ off) :
    regOf s x = resetWord x := by
  refine tget_of_not_mem _ fun e he hk => hx ?_
  have hmem : e ∈ s.regs.filter (fun e => P e.1) := List.mem_filter.2 ⟨he, hk ▸ hP⟩
  rw [h, List.mem_singleton] at hmem
  rw [← hk, hmem]

/-! ## STAT_LATCH (R46, R47) -/

/-- The bank of a partition that is not the active one. -/
def inactiveBank (s : State) (p : Nat) : Nat := if (partOf s p).bankB then snapBase s p else snapBase s p + 0x100000

/-- The bank of a snapshot is filled (R46). -/
def fillBank (s : State) (p bank : Nat) : Act Unit := do
  putNat bank 8 (memNat s bank 8 + 1)
  zeroMem (bank + 8) (0x100000 - 8)
  putNat (bank + 8) 8 (ftNs s)
  putNat (bank + 16) 8 (partOf s p).stepNo.toNat
  for e in s.regs do
    match snapSlot s p e.1 with
    | some o => putNat (bank + o) 8 (e.2.toNat &&& snapMask p e.1)
    | none => pure ()
  putNat bank 8 (memNat s bank 8 + 2)

/-- The counters of a partition restart from 0, and its banks swap (R46, R47). -/
def restartCounters (s : State) (p : Nat) : Act Unit := do
  let kept ← rdF (rPart p 0x930) 32 32
  eff (.regsKeep (fun off => (snapSlot s p off).isNone))
  wrF (rPart p 0x930) 32 32 kept
  modPart p (fun d => { d with bankB := !d.bankB })

/-- A snapshot, piece by piece. -/
theorem latchStats_apply (p : Nat) (k : Unit → Prog) : latchStats p k = Prog.look fun s =>
    (if inSram (snapBase s p) = true then fillBank s p (inactiveBank s p) else pure ()) fun _ => restartCounters s p k := by
  refine congrArg Prog.look (funext fun s => ?_)
  by_cases h : inSram (snapBase s p) = true
  · simp only [if_pos h]
    rfl
  · simp only [if_neg h]
    rfl

theorem snapMask_and {off : Nat} (h : off ≠ rPart p 0x930) (v : Word) : v.toNat &&& snapMask p off = v.toNat := by
  rw [snapMask, if_neg h]
  exact Nat.and_two_pow_sub_one_of_lt_two_pow v.isLt

theorem ends_fillBank_one (hclean : CleanMem s) (hdir : s.fab.dir = []) {off o : Nat} {v : Word}
    (hone : s.regs.filter (fun x => (snapSlot s p x.1).isSome) = [(off, v)]) (hslot : snapSlot s p off = some o) (hoff : off ≠ rPart p 0x930)
    (bank : Nat) (k : Unit → Prog) :
    Ends (fillBank s p bank k) s Q = Ends (k ()) (s.bankWritten bank (ftNs s) (partOf s p).stepNo.toNat o v.toNat) Q := by
  set s1 := s.putMem bank (natBytes 8 (memNat s bank 8 + 1)) with h1
  set s2 := s1.zeroed (bank + 8) (0x100000 - 8) with h2
  set s3 := s2.putMem (bank + 8) (natBytes 8 (ftNs s)) with h3
  set s4 := s3.putMem (bank + 16) (natBytes 8 (partOf s p).stepNo.toNat) with h4
  set s5 := s4.putMem (bank + o) (natBytes 8 v.toNat) with h5
  have c4 : CleanMem s4 := hclean
  have d4 : s4.fab.dir = [] := hdir
  rw [fillBank]
  simp only [bind_apply]
  rw [ends_putNat_clean hclean hdir, ends_zeroMem_clean (s := s1) hclean hdir, ends_putNat_clean (s := s2) hclean hdir,
    ends_putNat_clean (s := s3) hclean hdir, ends_forIn_only (s := s4) (t := s5) hone ?_ ?_, ends_putNat_clean (s := s5) hclean hdir]
  · rfl
  · intro y hy u k
    rw [Option.isSome_eq_false_iff, Option.isNone_iff_eq_none] at hy
    simp only [hy]
    rfl
  · intro k
    simp only [hslot, snapMask_and hoff, bind_apply]
    rw [ends_putNat_clean c4 d4]
    rfl

/-- The state in which the counters that the bank of `p` holds have restarted, and the banks have swapped. -/
def State.countersRestarted (s t : State) (p : Nat) : State :=
  let c := ({ t with regs := tkeep (fun off => (snapSlot s p off).isNone) t.regs } : State).setField (rPart p 0x930) 32 32 (fieldOf t (rPart p 0x930) 32 32)
  c.setPart p { partOf t p with bankB := !(partOf t p).bankB }

theorem ends_restartCounters {t : State} (k : Unit → Prog) : Ends (restartCounters s p k) t Q = Ends (k ()) (s.countersRestarted t p) Q := rfl

theorem regOf_countersRestarted (s t : State) (p x : Nat) : regOf (s.countersRestarted t p) x =
    regOf (({ t with regs := tkeep (fun off => (snapSlot s p off).isNone) t.regs } : State).setField (rPart p 0x930) 32 32
      (fieldOf t (rPart p 0x930) 32 32)) x := rfl

theorem rising_countersRestarted {t : State} (h : Rising t.regs) : Rising (s.countersRestarted t p).regs :=
  setField_rising _ _ _ _ _ (rising_tkeep (fun off => (snapSlot s p off).isNone) h)

/-- The one counter restarts, and no other register changes. -/
theorem regs_countersRestarted {t : State} (hregs : t.regs = s.regs) (hr : Rising s.regs) (hp : p < 64) {off : Nat} {v : Word}
    (hone : s.regs.filter (fun x => (snapSlot s p x.1).isSome) = [(off, v)]) (hoff : off ≠ rPart p 0x930) :
    regOf (s.countersRestarted t p) off = resetWord off ∧ RegsBut s (s.countersRestarted t p) [off] := by
  have hslotted : (snapSlot s p off).isSome = true := by
    have hmem : (off, v) ∈ s.regs.filter (fun x => (snapSlot s p x.1).isSome) := by simp [hone]
    exact (List.mem_filter.1 hmem).2
  have hat : ∀ x, regOf t x = regOf s x := fun x => by rw [regOf, hregs, regOf]
  have hreset : ∀ x, (snapSlot s p x).isSome = true → regOf ({ t with regs := tkeep (fun off => (snapSlot s p off).isNone) t.regs } : State) x =
      resetWord x := fun x hx => regOf_regsKeep_not t _ (by simpa using hx)
  refine ⟨?_, fun x hx => ?_⟩
  · rw [regOf_countersRestarted, regsBut_setField _ _ _ _ _ _ (by simpa using hoff), hreset _ hslotted]
  have hxoff : x ≠ off := by simpa using hx
  by_cases hflags : x = rPart p 0x930
  · subst hflags
    have hfull : (snapSlot s p (rPart p 0x930)).isSome = true := by rw [snapSlot_flags hp]; rfl
    have hword : regOf s (rPart p 0x930) = resetWord (rPart p 0x930) := regOf_of_filter (P := fun x => (snapSlot s p x).isSome) hone hfull hxoff
    have hr' : Rising (tkeep (fun off => (snapSlot s p off).isNone) t.regs) := rising_tkeep _ (hregs ▸ hr)
    rw [regOf_countersRestarted, State.setField, regOf_setReg_same _ _ _ hr', hreset _ hfull, fieldOf, hat, hword, setBits_self, BitVec.ofNat_toNat,
      BitVec.setWidth_eq]
  · rw [regOf_countersRestarted, regsBut_setField _ _ _ _ _ _ (by simpa using hflags)]
    cases hx : (snapSlot s p x).isSome with
    | true => rw [hreset _ hx, regOf_of_filter (P := fun x => (snapSlot s p x).isSome) hone hx hxoff]
    | false => rw [regOf_regsKeep_of t _ (by simpa using hx), hat]

/-- A snapshot of the one counter that is not at its reset value. -/
theorem ends_latchStats_one (hclean : CleanMem s) (hdir : s.fab.dir = []) (hsram : inSram (snapBase s p) = true) {off o : Nat} {v : Word}
    (hone : s.regs.filter (fun x => (snapSlot s p x.1).isSome) = [(off, v)]) (hslot : snapSlot s p off = some o) (hoff : off ≠ rPart p 0x930)
    (k : Unit → Prog) : Ends (latchStats p k) s Q =
      Ends (k ()) (s.countersRestarted (s.bankWritten (inactiveBank s p) (ftNs s) (partOf s p).stepNo.toNat o v.toNat) p) Q := by
  rw [latchStats_apply, ends_look, if_pos hsram, ends_fillBank_one hclean hdir hone hslot hoff, ends_restartCounters]

theorem SetChange.snapBase (h : SetChange s u) (p : Nat) : snapBase u p = snapBase s p := by
  rw [Machine.snapBase, h.field (by decide), Machine.snapBase]

theorem SetChange.inactiveBank (h : SetChange s u) (p : Nat) : inactiveBank u p = inactiveBank s p := by
  rw [Machine.inactiveBank, h.partOf, h.snapBase, Machine.inactiveBank]

/-- A firing lists no counter. -/
theorem slotted_firing (he : e < 1024) (p : Nat) : (s.firing e).regs.filter (fun x => (snapSlot (s.firing e) p x.1).isSome) =
    s.regs.filter (fun x => (snapSlot s p x.1).isSome) := by
  simp only [(firing_change he).snapSlot]
  exact filter_tput _ _ _ _ _ fun w => by rw [snapSlot_setWord (setWord_rSet he (by decide))]; rfl

theorem statLatch_holds (s : State) (e : Fin 1024) (off : Nat) (v : Word) : (statLatch s e off v).Holds := by
  rintro ⟨hfires, hsram, hone, hoff, hdir, hclean, hseq, hft⟩
  have hc := (due_of_fires hfires).canon
  have hch := firing_change (s := s) e.isLt
  set p := setPart s e with hpdef
  have hp : p < 64 := bitsOf_lt _ _ _
  obtain ⟨o, hslot⟩ : ∃ o, snapSlot s p off = some o := by
    have hmem : (off, v) ∈ s.regs.filter (fun x => (snapSlot s p x.1).isSome) := by simp [hone]
    exact Option.isSome_iff_exists.1 (List.mem_filter.1 hmem).2
  have hnot : ¬ SetWord off := fun h => by
    rw [snapSlot_setWord h] at hslot
    cases hslot
  obtain ⟨hlo, hhi⟩ := snapSlot_bounds hslot
  set f := s.firing e with hf
  have hone' : f.regs.filter (fun x => (snapSlot f p x.1).isSome) = [(off, v)] := (slotted_firing e.isLt p).trans hone
  have hreads := bankWritten_reads (s := f) hc.risingMem (bank := inactiveBank s p) hlo hhi (ft := ftNs s) (step := (partOf s p).stepNo.toNat) hseq hft
    ((partOf s p).stepNo.isLt.trans (by decide)) v.isLt
  set t := f.bankWritten (inactiveBank s p) (ftNs s) (partOf s p).stepNo.toNat o v.toNat with ht
  obtain ⟨hcounter, hkept⟩ := regs_countersRestarted (t := t) rfl (rising_firing hc.rising) hp hone' hoff
  have hparts : Rising t.parts := hch.parts ▸ hc.risingParts
  refine answers_of_ends (setFiring e 3) rfl ?_
  refine ends_setFiring_single (offs := [off]) (may := [.regs, .mem, .parts]) (P := fun u => u = f.countersRestarted t p) hfires (fun k hk => ?_) ?_
  · have hclean' : CleanMem f := hclean
    have hslot' : snapSlot f p off = some o := by rw [hch.snapSlot, hslot]
    have hsram' : inSram (snapBase f p) = true := by rw [hch.snapBase, hsram]
    rw [actionOf, setPart_firing hc.rising, ends_latchStats_one hclean' (by exact hdir) hsram' hone' hslot' hoff, hch.inactiveBank, hch.partOf]
    refine hk _ ⟨hkept, rising_countersRestarted (rising_firing hc.rising), ?_, ?_, by decide⟩ rfl
    · exact onlyChanges_of_take rfl
    · intro w hw hmem
      exact hnot (List.mem_singleton.1 hmem ▸ setWord_rSet e.isLt hw)
  · rintro u rfl hdone
    obtain ⟨h0, h8, h16, ho, hmem⟩ := hreads
    refine ⟨h0, h8, h16, ?_, hmem, ?_, hdone.regs, ?_, fun q hq => ?_, hdone.fired, hdone.only.mono (by decide)⟩
    · rw [hslot]
      exact ho
    · exact (regOf_setReg_ne _ _ _ _ fun h : off = rSet e 2 => hnot (h ▸ setWord_rSet e.isLt (by decide))).trans hcounter
    · refine (partOf_setPart_same _ _ hparts).trans ?_
      rw [show partOf t p = partOf s p from hch.partOf p]
    · exact (partOf_setPart_ne _ hq).trans (hch.partOf q)

/-- Settles O26, action by action: the entry fires by itself, its action runs in `State.firing`, and the entry advances. -/
theorem scheduledEvents : Obligations.ScheduledEvents := fun s e word w off v =>
  ⟨setEntryWrite_holds s e word w, setEntryRefused_holds s e word w, setEntryLate_holds s e w, setPeriodic_holds s e, statLatch_holds s e off v,
    pguPrepare_holds s e, queueKick_holds s e, userPip_holds s e, userPipOutside_holds s e⟩

end Sys2Proof.Machine
end

section
/-!
SUPPORT. The step numbers that a boundary leaves alone, piece by piece, and O59.
-/

namespace Sys2Proof.Machine

open Sys2Proof.Claims

variable {s t u : State} {Q : State → Prop} {e : Nat} {p : Nat}

/-! ## Step numbers (R43) -/

/-- Every partition's step number is as before, as long as each partition is listed once. -/
def StepsKept (s t : State) : Prop := Rising s.parts → Rising t.parts ∧ ∀ q, (partOf t q).stepNo = (partOf s q).stepNo

theorem StepsKept.refl (s : State) : StepsKept s s := fun h => ⟨h, fun _ => rfl⟩

theorem StepsKept.trans (h : StepsKept s t) (h' : StepsKept t u) : StepsKept s u := fun hr =>
  have ⟨ht, hst⟩ := h hr
  have ⟨hu, htu⟩ := h' ht
  ⟨hu, fun q => (htu q).trans (hst q)⟩

theorem StepsKept.of_parts (h : t.parts = s.parts) : StepsKept s t := fun hr => ⟨h ▸ hr, fun q => by rw [partOf, h, partOf]⟩

theorem StepsKept.setPart {v : Part} (h : v.stepNo = (partOf s p).stepNo) : StepsKept s (s.setPart p v) := fun hr => by
  refine ⟨tput_rising _ _ _ _ hr, fun q => ?_⟩
  by_cases hq : q = p
  · rw [hq, partOf_setPart_same _ _ hr, h]
  · rw [partOf_setPart_ne _ hq]

/-- A piece of a program goes on, from any state, in a state with the same step numbers. -/
def Act.KeepsSteps {α : Type} (a : Act α) : Prop := ∀ (k : α → Prog) s, ∃ t x, Prog.run (a k) s = Prog.run (k x) t ∧ StepsKept s t

namespace Act.KeepsSteps

section
variable {α β : Type}

theorem pure (x : α) : Act.KeepsSteps (pure x : Act α) := fun _ s => ⟨s, x, rfl, .refl s⟩

theorem look : Act.KeepsSteps look := fun _ s => ⟨s, s, rfl, .refl s⟩

theorem bind {a : Act α} {f : α → Act β} (ha : Act.KeepsSteps a) (hf : ∀ x, Act.KeepsSteps (f x)) : Act.KeepsSteps (a >>= f) := by
  intro k s
  obtain ⟨t, x, e, r⟩ := ha (fun x => f x k) s
  obtain ⟨u, y, e', r'⟩ := hf x k t
  exact ⟨u, y, e.trans e', r.trans r'⟩

theorem ite {c : Prop} [Decidable c] {a b : Act α} (ha : Act.KeepsSteps a) (hb : Act.KeepsSteps b) : Act.KeepsSteps (if c then a else b) := by
  split <;> assumption

theorem forIn {γ : Type} (l : List γ) (b : β) {f : γ → β → Act (ForInStep β)} (h : ∀ x y, Act.KeepsSteps (f x y)) :
    Act.KeepsSteps (forIn l b f) := by
  induction l generalizing b with
  | nil => exact pure b
  | cons x l ih =>
    rw [List.forIn_cons]
    refine bind (h x b) fun r => ?_
    cases r with
    | done y => exact pure y
    | yield y => exact ih y

end

theorem eff {e : Effect} (h : ∀ s, (e.apply s).parts = s.parts) : Act.KeepsSteps (eff e) := fun _ s => ⟨_, (), rfl, .of_parts (h s)⟩

/-- An effect that the state chooses. -/
theorem effLook {e : State → Effect} (h : ∀ s t, ((e t).apply s).parts = s.parts) : Act.KeepsSteps (Machine.look >>= fun s => Machine.eff (e s)) :=
  bind look fun t => eff fun s => h s t

theorem modPart {f : Part → Part} (h : ∀ d, (f d).stepNo = d.stepNo) : Act.KeepsSteps (modPart p f) := fun _ _ => ⟨_, (), rfl, .setPart (h _)⟩

theorem wrReg {off v : Nat} : Act.KeepsSteps (wrReg off v) := eff fun _ => rfl
theorem rdReg {off : Nat} : Act.KeepsSteps (rdReg off) := bind look fun _ => pure _
theorem rdF {off lo len : Nat} : Act.KeepsSteps (rdF off lo len) := bind look fun _ => pure _
theorem wrF {off lo len v : Nat} : Act.KeepsSteps (wrF off lo len v) := bind rdReg fun _ => wrReg
theorem ctr64 {off n : Nat} : Act.KeepsSteps (ctr64 off n) := bind rdReg fun _ => wrReg
theorem ctr32 {off n : Nat} : Act.KeepsSteps (ctr32 off n) := bind rdF fun _ => wrF
theorem emit {e : Emit} : Act.KeepsSteps (emit e) := eff fun _ => rfl
theorem modThread {k : Nat} {f : Thread → Thread} : Act.KeepsSteps (modThread k f) := effLook fun _ _ => rfl
theorem modQueue {k : Nat} {f : Queue → Queue} : Act.KeepsSteps (modQueue k f) := effLook fun _ _ => rfl
theorem modPool {k : Nat} {f : Pool → Pool} : Act.KeepsSteps (modPool k f) := effLook fun _ _ => rfl
theorem modPort {k : Nat} {f : Port → Port} : Act.KeepsSteps (modPort k f) := effLook fun _ _ => rfl
theorem modNv {f : Nv → Nv} : Act.KeepsSteps (modNv f) := effLook fun _ _ => rfl
theorem modErr {f : Err → Err} : Act.KeepsSteps (modErr f) := effLook fun _ _ => rfl
theorem modPw {f : Power → Power} : Act.KeepsSteps (modPw f) := effLook fun _ _ => rfl
theorem modHost {f : HostIf → HostIf} : Act.KeepsSteps (modHost f) := effLook fun _ _ => rfl
theorem modFab {f : Fab → Fab} : Act.KeepsSteps (modFab f) := effLook fun _ _ => rfl
theorem modMem2 {f : MemErr → MemErr} : Act.KeepsSteps (modMem2 f) := effLook fun _ _ => rfl

/-! ### Frames and the home directory (R104, R280) -/

theorem sendOxt {n vc : Nat} {x : Oxt} : Act.KeepsSteps (sendOxt n vc x) := bind look fun _ => ite modPort (pure _)

theorem takeId : Act.KeepsSteps takeId := bind look fun _ => bind modFab fun _ => pure _

theorem sendFabReq {dst part id op size tries : Nat} {coh : Bool} {atomOp off len : Nat} {data : List Byte} :
    Act.KeepsSteps (sendFabReq dst part id op size tries coh atomOp off len data) := by
  refine bind look fun s => ?_
  cases fabRoute s dst off id tries with
  | none => exact pure _
  | some x => exact bind sendOxt fun _ => pure _

theorem invalLines {lines : List Nat} {except part : Nat} : Act.KeepsSteps (invalLines lines except part) := by
  refine bind look fun s => bind (forIn _ _ fun j _ => bind (forIn _ _ fun l _ => ?_) fun _ => pure _) fun _ => bind modFab fun _ => pure _
  exact ite (bind takeId fun _ => bind sendFabReq fun _ => bind ctr64 fun _ => pure _) (pure _)

theorem homeWrite {a n : Nat} : Act.KeepsSteps (homeWrite a n) :=
  bind look fun _ => ite (pure _) (forIn _ _ fun _ _ => bind invalLines fun _ => ite (pure _) (bind modFab fun _ => pure _))

/-! ### Memory (R258, R373) -/

theorem zeroMem {a n : Nat} : Act.KeepsSteps (zeroMem a n) := bind (eff fun _ => rfl) fun _ => bind modMem2 fun _ => homeWrite

theorem releaseT3 {gib : Nat} : Act.KeepsSteps (releaseT3 gib) :=
  bind look fun _ => forIn _ _ fun _ _ => ite (bind modThread fun _ => pure _) (pure _)

theorem wipeT3Part {k : Nat} : Act.KeepsSteps (wipeT3Part k) :=
  bind look fun _ => bind (forIn _ _ fun _ _ => bind zeroMem fun _ => pure _) fun _ => bind modMem2 fun _ => releaseT3

theorem wipeChunk : Act.KeepsSteps wipeChunk := by
  refine bind look fun s => ?_
  cases s.mem2.t3Next with
  | none =>
    cases nextT3Part s with
    | none => exact pure _
    | some k => exact wipeT3Part
  | some k =>
    have hend : ∀ nx : Option Nat, Act.KeepsSteps (do
        Machine.modMem2 fun m => { m with t3Next := nx, t3Part := m.t3Part.flatMap (offGib k) }
        if nx.isNone then Machine.modNv (fun n => { n with wipeMark := none })
        else if (k + 1) % 64 = 0 then Machine.modNv (fun n => { n with wipeMark := some (k + 1) })
        Machine.releaseT3 k) := fun nx =>
      bind modMem2 fun _ => ite (bind modNv fun _ => releaseT3) (ite (bind modNv fun _ => releaseT3) releaseT3)
    exact bind zeroMem fun _ => ite (bind (forIn _ _ fun _ _ => bind wrF fun _ => pure _) fun _ => hend _)
      (bind rdF fun _ => bind wrF fun _ => hend _)

theorem awaitT3 {fuel : Nat} {rs : List (Nat × Nat)} : Act.KeepsSteps (awaitT3 fuel rs) := by
  induction fuel with
  | zero => exact pure _
  | succ fuel ih => exact bind look fun _ => ite (bind wipeChunk fun _ => ih) (pure _)

theorem storeBytes {a : Nat} {bs : List Byte} : Act.KeepsSteps (storeBytes a bs) :=
  bind awaitT3 fun _ => bind (forIn _ _ fun _ _ => bind (eff fun _ => rfl) fun _ => pure _) fun _ => bind look fun _ => ite modMem2 (pure _)

theorem putNat {a n v : Nat} : Act.KeepsSteps (putNat a n v) := bind storeBytes fun _ => homeWrite

/-! ### Reports (R375–R379) -/

theorem sendVec {pf : Bool} {fn vec : Nat} : Act.KeepsSteps (sendVec pf fn vec) :=
  bind look fun _ => ite (ite (pure _) modHost) (ite emit (pure _))

theorem erqStore {i v : Nat} : Act.KeepsSteps (erqStore i v) := bind look fun _ => ite putNat (pure _)

theorem erqInterrupt : Act.KeepsSteps erqInterrupt :=
  bind look fun _ => ite (bind modErr fun _ => bind sendVec fun _ => bind emit fun _ => emit) modErr

theorem showFatalLog : Act.KeepsSteps showFatalLog :=
  bind look fun _ => forIn _ _ fun _ _ => bind (forIn _ _ fun _ _ => bind wrReg fun _ => pure _) fun _ => pure _

theorem closeRecord {r : OpenRec} : Act.KeepsSteps (closeRecord r) := by
  refine bind look fun _ => bind modErr fun _ => bind look fun s => ?_
  extract_lets ws fatal latest ring
  have hfatal : ∀ x, Act.KeepsSteps (fatal x) := fun _ => ite (bind modNv fun _ => bind modErr fun _ => showFatalLog) (pure _)
  have hlatest : ∀ x, Act.KeepsSteps (latest x) := fun _ => bind erqStore hfatal
  have hring : ∀ x, Act.KeepsSteps (ring x) := fun _ => bind rdReg fun _ => bind rdReg fun _ => ite (bind ctr32 hlatest)
    (bind erqStore fun _ => bind wrReg fun _ => ite (bind erqInterrupt hlatest) (hlatest ()))
  exact ite (bind ctr32 hfatal) (ite (bind erqStore fun _ => bind modErr hring) (hring ()))

theorem noteSource {code sev die : Nat} : Act.KeepsSteps (noteSource code sev die) := by
  refine bind rdF fun first => ?_
  extract_lets go
  have hgo : ∀ x, Act.KeepsSteps (go x) := fun _ =>
    bind wrF fun _ => bind rdF fun _ => bind wrF fun _ => bind ctr32 fun _ => ite ctr32 (pure _)
  exact ite (bind wrF hgo) (hgo ())

theorem raise {code sev die unit : Nat} {part : Option Nat} {addr detail : Nat} : Act.KeepsSteps (raise code sev die unit part addr detail) := by
  refine bind noteSource fun _ => ?_
  extract_lets go
  have hgo : ∀ x, Act.KeepsSteps (go x) := fun _ => bind look fun _ => ite closeRecord modErr
  exact ite (bind wrF hgo) (hgo ())

theorem aliveRuns {die unit : Nat} {part : Option Nat} {rs : List (Nat × Nat)} : Act.KeepsSteps (aliveRuns die unit part rs) := by
  refine bind look fun s => ?_
  cases rs.findSome? (fun r => t3Dead s r.1 r.2) with
  | none => exact pure _
  | some x => exact bind raise fun _ => pure _

theorem consume {die unit : Nat} {part : Option Nat} {a n : Nat} : Act.KeepsSteps (consume die unit part a n) :=
  ite (pure _) (bind awaitT3 fun _ => bind look fun _ => bind (forIn _ _ fun _ _ => bind modMem2 fun _ => bind raise fun _ => pure _) fun _ =>
    bind (forIn _ _ fun _ _ => bind raise fun _ => pure _) fun _ => bind aliveRuns fun _ => pure _)

/-! ### Grants and pips (R173, R295, R345) -/

theorem dropGrant {who : Holder} : Act.KeepsSteps (dropGrant who) :=
  bind look fun _ => ite (bind modPw fun _ => bind look fun _ => bind modPw fun _ => wrF) (pure _)

theorem pipAdds {fuel p ctx core : Nat} {l : List (Nat × Nat)} : Act.KeepsSteps (pipAdds fuel p ctx core l) := by
  induction fuel generalizing l with
  | zero => exact pure _
  | succ fuel ih =>
    cases l with
    | nil => exact pure _
    | cons x rest =>
      refine bind look fun s => ?_
      extract_lets k old go
      have hgo : ∀ x, Act.KeepsSteps (go x) := fun _ => by
        refine bind (eff fun _ => rfl) fun _ => bind look fun s => bind (forIn _ _ fun w more => bind look fun s => ite ?_ (pure _)) fun _ => ih
        refine bind (eff fun _ => rfl) fun _ => ?_
        extract_lets tk t
        split
        · refine bind (eff fun _ => rfl) fun _ => bind dropGrant fun _ => ?_
          split
          · exact ite (pure _) (pure _)
          · exact pure _
        · exact bind (eff fun _ => rfl) fun _ => pure _
      exact ite (bind ctr32 hgo) (hgo ())

theorem unitSignal {die unit p core pip n : Nat} : Act.KeepsSteps (unitSignal die unit p core pip n) := bind look fun _ => ite pipAdds raise

/-! ### Husk pools (R261–R264) -/

theorem showAvail {p c : Nat} : Act.KeepsSteps (showAvail p c) := bind look fun _ => wrF

theorem popFree {p c : Nat} : Act.KeepsSteps (popFree p c) :=
  bind look fun _ => ite (pure _) (bind consume fun _ => bind look fun _ => ite (bind modPool fun _ => pure _)
    (bind ctr32 fun _ => bind ctr32 fun _ => bind modPool fun _ => bind showAvail fun _ => bind raise fun _ => pure _))

theorem carve {p c : Nat} : Act.KeepsSteps (carve p c) := bind look fun _ => ite (bind wrF fun _ => pure _) (pure _)

theorem poolTake {p c : Nat} : Act.KeepsSteps (poolTake p c) := by
  refine bind look fun s => ?_
  extract_lets d
  cases d.stack with
  | cons a rest => exact bind modPool fun _ => pure _
  | nil =>
    refine bind popFree fun a => ?_
    cases a with
    | some a => exact pure _
    | none =>
      refine bind carve fun a => ?_
      cases a with
      | some a => exact pure _
      | none => exact pure _

theorem handOut {p c a : Nat} : Act.KeepsSteps (handOut p c a) := bind putNat fun _ => bind look fun _ => bind wrF fun _ => showAvail

theorem poolRequest {p n : Nat} : Act.KeepsSteps (poolRequest p n) := by
  rw [Machine.poolRequest]
  cases classFor n with
  | none => exact bind ctr32 fun _ => bind raise fun _ => pure _
  | some c =>
    refine bind look fun s => bind (forIn _ _ fun k got => ite (bind poolTake fun r => ?_) (pure _)) fun got => ?_
    · cases r with
      | some r => exact ite (bind ctr32 fun _ => pure _) (pure _)
      | none => exact bind ctr32 fun _ => pure _
    · cases got with
      | some r => exact bind handOut fun _ => pure _
      | none => exact bind ctr32 fun _ => bind raise fun _ => pure _

theorem poolAllocAct {p n : Nat} : Act.KeepsSteps (poolAllocAct p n) := bind poolRequest fun _ => ite (bind ctr64 fun _ => pure _) (pure _)

theorem putHeader {p c a next : Nat} : Act.KeepsSteps (putHeader p c a next) := bind look fun _ => putNat

theorem poolFreeAct {p a : Nat} : Act.KeepsSteps (poolFreeAct p a) := by
  have hbad : Act.KeepsSteps (do
      Machine.ctr32 (rPoolSet p 8)
      Machine.raise 0x2009 0 (huskDie p) 0 (some p) a
      Pure.pure 3 : Act Nat) := bind ctr32 fun _ => bind raise fun _ => pure _
  refine bind look fun s => ?_
  split
  · exact hbad
  next c _ =>
    refine ite hbad (bind consume fun good => ite hbad (bind look fun s => ite (bind ctr32 fun _ => bind raise fun _ => pure _) ?_))
    have hend : ∀ x : PUnit, Act.KeepsSteps (do
        Machine.wrF (rPool p c 0x18) 0 32 (poolOut s p c - 1)
        Machine.ctr64 (rPoolCnt p c 8)
        Machine.showAvail p c
        Pure.pure 0 : Act Nat) := fun _ => bind wrF fun _ => bind ctr64 fun _ => bind showAvail fun _ => pure _
    exact ite (bind (bind putHeader fun _ => modPool) hend) (bind (bind look fun _ => bind putHeader fun _ => modPool) hend)

/-! ### Queues (R179, R182) -/

theorem qShow {q : Nat} : Act.KeepsSteps (qShow q) := bind look fun _ => wrReg

theorem qStore {q j : Nat} {x : Item} : Act.KeepsSteps (qStore q j x) := bind look fun _ => putNat

theorem qArrive {q : Nat} : Act.KeepsSteps (qArrive q) := bind look fun _ => ite unitSignal (pure _)

theorem qAccept {q : Nat} {x : Item} {last : Bool} : Act.KeepsSteps (qAccept q x last) :=
  bind look fun _ => bind modQueue fun _ => bind qStore fun _ => bind ctr64 fun _ => ite (bind qArrive fun _ => qShow) qShow

theorem qGapAdd {q j : Nat} {last : Bool} : Act.KeepsSteps (qGapAdd q j last) := by
  refine bind look fun s => ?_
  cases (queueOf s q).items[j]? with
  | none => exact pure _
  | some m => exact bind modQueue fun _ => bind qStore fun _ => ite qArrive (pure _)

theorem qDrop {q : Nat} {last : Bool} {die : Nat} : Act.KeepsSteps (qDrop q last die) := by
  refine bind look fun s => ?_
  have hend : ∀ x : PUnit, Act.KeepsSteps (do Machine.ctr32 (rQcnt q 0x10); Machine.qShow q) := fun _ => bind ctr32 fun _ => qShow
  refine ite (bind qGapAdd hend) (ite ?_ ?_)
  · exact bind modQueue fun _ => bind qStore fun _ => bind raise fun _ => ite (bind qArrive hend) (hend ())
  · split
    · exact bind qGapAdd hend
    · exact hend ()

theorem qPushItem {q : Nat} {x : Item} {last useCred : Bool} {die : Nat} : Act.KeepsSteps (qPushItem q x last useCred die) := by
  refine bind look fun s => ?_
  extract_lets d cred counted dropped go
  have hcounted : ∀ x, Act.KeepsSteps (counted x) := fun _ => bind ctr32 fun _ => bind qShow fun _ => pure _
  have hdropped : ∀ x, Act.KeepsSteps (dropped x) := fun _ => ite (bind modQueue hcounted) (hcounted ())
  have hgo : ∀ x, Act.KeepsSteps (go x) := fun _ => ite (ite (bind modQueue hdropped) (hdropped ()))
    (ite (bind modQueue fun _ => bind qAccept fun _ => pure _) (ite (bind qAccept fun _ => pure _) (bind qDrop fun _ => pure _)))
  exact ite (bind ctr32 hgo) (hgo ())

/-! ### The expert placement tables (R23, R65) -/

theorem wrEptField {off lo len v : Nat} : Act.KeepsSteps (wrEptField off lo len v) :=
  bind rdReg fun _ => forIn _ _ fun _ _ => bind wrReg fun _ => pure _

theorem eptCompare {p : Nat} : Act.KeepsSteps (eptCompare p) :=
  bind look fun _ => ite (bind (forIn _ _ fun _ _ => ite (bind raise fun _ => pure _) (pure _)) fun _ =>
    ite (ite (bind wrEptField fun _ => raise) (pure _)) (pure _)) (pure _)

theorem eptFirstUse {p : Nat} : Act.KeepsSteps (eptFirstUse p) :=
  bind look fun _ => ite (bind (modPart fun _ => rfl) fun _ => bind (forIn _ _ fun _ _ => bind (eff fun _ => rfl) fun _ => pure _) fun _ =>
    wrEptField) (pure _)

/-! ### The batch table (R82, R307–R310) -/

theorem putBt {i lo len v : Nat} : Act.KeepsSteps (putBt i lo len v) := bind look fun _ => bind look fun _ => putNat

theorem modSeq {p i : Nat} {f : SeqAux → SeqAux} : Act.KeepsSteps (modSeq p i f) := modPart fun _ => rfl

theorem coverPages {p root pos n : Nat} : Act.KeepsSteps (coverPages p root pos n) := by
  refine bind look fun s => ite (pure _) (bind (forIn _ _ fun j r => ?_) fun _ => pure _)
  exact ite (bind look fun _ => ite (bind poolAllocAct fun _ => ite (bind putNat fun _ => bind look fun _ => bind putNat fun _ => pure _) (pure _))
    (pure _)) (pure _)

theorem freePrompt {p root : Nat} : Act.KeepsSteps (freePrompt p root) :=
  bind look fun _ => ite (bind poolFreeAct fun _ => bind look fun _ => putNat) (pure _)

theorem freeSeq {p i : Nat} : Act.KeepsSteps (freeSeq p i) := by
  refine bind look fun s => ?_
  have hend : ∀ x : PUnit, Act.KeepsSteps (do Machine.putBt i 32 3 0; Machine.modSeq p i fun _ => {}) := fun _ => bind putBt fun _ => modSeq
  exact ite (bind (forIn _ _ fun _ _ => bind look fun _ => ite (bind poolFreeAct fun _ => pure _) (pure _)) fun _ => bind freePrompt fun _ =>
    bind poolFreeAct fun _ => hend ()) (hend ())

theorem pushOut {p i pos token prob reason : Nat} : Act.KeepsSteps (pushOut p i pos token prob reason) :=
  bind look fun _ => ite (bind qPushItem fun _ => ite modSeq (pure _)) (pure _)

theorem advanceEntry {p i : Nat} : Act.KeepsSteps (advanceEntry p i) := bind look fun _ => bind putBt fun _ => putBt

/-! ### Tokens (R307) -/

theorem servPort : Act.KeepsSteps servPort :=
  bind look fun _ => ite (pure _) (bind (bind look fun _ => bind (eff fun _ => rfl) fun _ => pure _) fun _ => pure _)

theorem sendTok {p : Nat} {f : TokFrame} : Act.KeepsSteps (sendTok p f) := bind servPort fun n => by
  cases n with
  | none => exact pure _
  | some n => exact bind look fun _ => sendOxt

theorem sendTokens {p : Nat} : Act.KeepsSteps (sendTokens p) :=
  bind look fun _ => forIn _ _ fun _ _ => bind (bind look fun _ => ite (pure _) (bind (modPart fun _ => rfl) fun _ => sendTok)) fun _ => pure _

/-! ### The pieces of a boundary (R41, R46) -/

theorem latchStats {p : Nat} : Act.KeepsSteps (latchStats p) := by
  refine bind look fun s => ?_
  have hrestart : ∀ x : PUnit, Act.KeepsSteps (restartCounters s p) := fun _ =>
    bind rdF fun _ => bind (eff fun _ => rfl) fun _ => bind wrF fun _ => modPart fun _ => rfl
  refine ite (bind putNat fun _ => bind zeroMem fun _ => bind putNat fun _ => bind putNat fun _ => bind (forIn _ _ fun x _ => ?_) fun _ =>
    bind putNat hrestart) (hrestart ())
  cases snapSlot s p x.1 with
  | some o => exact bind putNat fun _ => pure _
  | none => exact pure _

theorem rollLoads {p : Nat} : Act.KeepsSteps (rollLoads p) := effLook fun _ _ => rfl

theorem batchCommit {p : Nat} : Act.KeepsSteps (batchCommit p) := by
  refine bind look fun s => bind (forIn _ _ fun i _ => bind look fun s => ?_) fun _ => bind look fun s => bind (forIn _ _ fun i _ => ?_) fun _ =>
    bind look fun s => bind (forIn _ _ fun i _ => ?_) fun _ => bind look fun s => bind (forIn _ _ fun i _ => ?_) fun _ =>
      bind (forIn _ _ fun i _ => ?_) fun _ => bind look fun s => bind (forIn _ _ fun i _ => ?_) fun _ => pure _
  · extract_lets a leave go
    have hleave : ∀ x, Act.KeepsSteps (leave x) := fun _ => bind putBt fun _ => pure _
    have hgo : ∀ x, Act.KeepsSteps (go x) := fun _ =>
      bind look fun _ => ite (ite (bind look fun _ => bind pushOut hleave) (hleave ())) (pure _)
    exact ite (bind advanceEntry hgo) (hgo ())
  · exact bind look fun _ => ite (bind freeSeq fun _ => pure _) (pure _)
  · exact bind modSeq fun _ => bind look fun _ => ite (bind freePrompt fun _ => pure _) (pure _)
  · exact bind look fun _ => ite (bind modSeq fun _ => pure _) (pure _)
  · exact ite (pure _) (ite (pure _) (bind look fun _ => bind coverPages fun _ => ite (bind ctr32 fun _ => pure _)
      (bind putBt fun _ => bind modSeq fun _ => pure _)))
  · refine bind look fun s => bind coverPages fun got => ?_
    extract_lets stall go
    have hgo : ∀ x, Act.KeepsSteps (go x) := fun _ => bind modSeq fun _ => pure _
    exact ite (bind ctr32 hgo) (hgo ())

theorem setAdvance {e : Nat} : Act.KeepsSteps (setAdvance e) := by
  refine bind look fun s => ite wrF (bind wrReg fun _ => ?_)
  have hcount : ∀ x : PUnit, Act.KeepsSteps (if setCount s e ≠ 0 then Machine.wrF (rSet e 1) 40 24 (setCount s e - 1) else Pure.pure ()) := fun _ =>
    ite wrF (pure _)
  exact ite (bind ctr32 hcount) (hcount ())

/-- What follows a piece that keeps the step numbers finds them as they were. -/
theorem ends {α : Type} {a : Act α} (h : Act.KeepsSteps a) {k : α → Prog} (hQ : ∀ t x, StepsKept s t → Ends (k x) t Q) : Ends (a k) s Q := by
  obtain ⟨t, x, e, hk⟩ := h k s
  rw [Ends, e]
  exact hQ t x hk

end Act.KeepsSteps

/-! ## A boundary counts its step (R43) -/

theorem countsStep_of_kept {u v : State} (hs : Rising s.parts) (h : StepsKept s t) (hc : CountsStep t u p) (hu : Rising u.parts) (h' : StepsKept u v) :
    CountsStep s v p := by
  obtain ⟨-, hst⟩ := h hs
  obtain ⟨-, huv⟩ := h' hu
  exact ⟨by rw [huv, hc.1, hst], fun q hq => by rw [huv, hc.2 q hq, hst]⟩

theorem countsStep_stepTaken (hs : Rising s.parts) (p now : Nat) : CountsStep s (s.setPart p (stepTaken s p now)) p := by
  refine ⟨?_, fun q hq => by rw [partOf_setPart_ne _ hq]⟩
  rw [partOf_setPart_same _ _ hs]
  exact BitVec.toNat_add _ _

/-- Whatever happens at it, a boundary counts one step of its partition. -/
theorem ends_boundary_counts (hs : Rising s.parts) {k : Unit → Prog} (hQ : ∀ t, Rising t.parts → CountsStep s t p → Ends (k ()) t Q) :
    Ends (boundary p k) s Q := by
  have hlatch : Act.KeepsSteps (if bitsOf (execModeOf s p) 2 1 = 1 then latchStats p else pure ()) := .ite .latchStats (.pure _)
  rw [boundary_apply, ends_look]
  refine hlatch.ends fun t1 _ h1 => Act.KeepsSteps.sendTokens.ends fun t2 _ h2 => ?_
  have hbefore := h1.trans h2
  have hr2 := (hbefore hs).1
  rw [ends_countStep]
  refine Act.KeepsSteps.eptFirstUse.ends fun t3 _ h3 => Act.KeepsSteps.eptCompare.ends fun t4 _ h4 => Act.KeepsSteps.rollLoads.ends fun t5 _ h5 =>
    Act.KeepsSteps.batchCommit.ends fun t6 _ h6 => ?_
  have hafter := h3.trans (h4.trans (h5.trans h6))
  have hr3 := tput_rising {} _ p (stepTaken t2 p t2.time.now) hr2
  exact hQ t6 (hafter hr3).1 (countsStep_of_kept hs hbefore (countsStep_stepTaken hr2 _ _) hr3 hafter)

theorem firedBoundaryCounts_holds (s : State) (e : Fin 1024) : (firedBoundaryCounts s e).Holds := by
  rintro ⟨hfires, hpaced, hsteps, hheld, hwork⟩
  have hdue := due_of_fires hfires
  have hch := firing_change (s := s) e.isLt
  have hp : Rising (s.firing e).parts := hch.parts ▸ hdue.canon.risingParts
  have hboth : (partOf (s.firing e) (setPart s e)).held = false ∧ workDone (s.firing e) (setPart s e) = true :=
    ⟨by rw [hch.partOf, hheld], by rw [hch.workDone, hwork]⟩
  refine answers_of_ends (setFiring e 2) rfl ?_
  rw [ends_setFiring hdue, ends_setAct, setAction_firing hdue.canon.rising, hdue.action, actionOf, setPart_firing hdue.canon.rising,
    ends_stepFire (by rw [hch.paced, hpaced]) (by rw [hch.steps, hsteps]), if_pos hboth]
  refine ends_boundary_counts hp fun t ht hc => Act.KeepsSteps.setAdvance.ends fun u _ hu => ?_
  exact countsStep_of_kept hdue.canon.risingParts (.of_parts hch.parts) hc ht hu

theorem heldBoundaryCounts_holds (s : State) (p : Fin 64) : (heldBoundaryCounts s p).Holds := by
  rintro ⟨hheld, hsteps, hwork, hc⟩
  refine answers_of_ends (heldTake p) rfl ?_
  simp only [heldTake, bind_apply, look_apply, ends_look, hheld, hsteps, hwork, Bool.and_self, if_true]
  exact ends_boundary_counts hc.risingParts fun t _ ht => ht

theorem pacedBoundaryCounts_holds (s : State) (p : Fin 64) : (pacedBoundaryCounts s p).Holds := by
  rintro ⟨hpaced, hsteps, hwork, hlast, hgap, hc⟩
  refine answers_of_ends (decisionPoint p) rfl (ends_decisionPoint hpaced hsteps hlast (fun t _ _ => ?_) fun t ht hnot => ?_)
  · exact ends_boundary_counts (s := { s with time := t }) hc.risingParts fun u _ hu => hu
  · exact absurd ⟨hwork, ht ▸ hgap⟩ hnot

/-- Settles O59: a boundary writes the step number of its partition once, where it counts the step, and every other piece of it keeps them all. -/
theorem stepNumberCountsBoundaries : Obligations.StepNumberCountsBoundaries := fun s e p =>
  ⟨firedBoundaryCounts_holds s e, heldBoundaryCounts_holds s p, pacedBoundaryCounts_holds s p⟩

end Sys2Proof.Machine
end

section
/-!
SUPPORT. Memory just written, part by part, and what a queue's pop leaves as it was.
-/

namespace Sys2Proof.Machine

open Sys2Proof.Claims

variable {s : State} {Q : State → Prop}

/-! ## A value just written, part by part -/

/-- Some of the bytes just written, as a value. -/
theorem memNat_putMem_part (hm : Rising s.mem) (a v : Nat) {j n N : Nat} (h : j + n ≤ N) :
    memNat (s.putMem a (natBytes N v)) (a + j) n = bitsOf v (8 * j) (8 * n) := by
  have hbytes : memBytes (s.putMem a (natBytes N v)) (a + j) n = natBytes n (v >>> (8 * j)) := by
    refine List.map_congr_left fun i hi => ?_
    have hi : i < n := List.mem_range.1 hi
    have hlen : j + i < (natBytes N v).length := by rw [length_natBytes]; omega
    rw [add_assoc, memAt_putMem a hm hlen]
    simp [natBytes, ← Nat.shiftRight_add, Nat.mul_add]
  rw [memNat, hbytes, leNat_natBytes, bitsOf]

end Sys2Proof.Machine
end

section
/-!
SUPPORT. The exact sum of an element with the residue beside it, and the reduction of a block.
-/

namespace Sys2Proof.Machine

open Sys2Proof.Claims

/-! ## Adds with and without a fault (R112) -/

/-- One add of an element's sum, with the residue beside it (R112). -/
def addStep (us : List Upset) (again : Bool) (a : Int × Nat × Bool) (x : Int × Nat) : Int × Nat × Bool :=
  let v := (BitVec.ofInt 64 (a.1 + x.1 + upsetAt us again x.2)).toInt
  let w := (a.2.1 + residue x.1) % 127
  (v, w, a.2.2 && residue v == w)

theorem sumChecked_eq_addStep (us : List Upset) (again : Bool) (qs : List Int) :
    sumChecked us again qs =
      ((qs.zipIdx.foldl (addStep us again) (0, 0, true)).1, (qs.zipIdx.foldl (addStep us again) (0, 0, true)).2.2) := rfl

@[simp] theorem residue_zero : residue 0 = 0 := rfl

theorem residue_add (a b : Int) : (residue a + residue b) % 127 = residue (a + b) := by
  unfold residue; omega

theorem residue_eq_iff (a e : Int) : (residue (a + e) == residue a) = decide (e % 127 = 0) := by
  rw [Bool.eq_iff_iff, beq_iff_eq, decide_eq_true_iff]
  unfold residue
  omega

theorem toInt_ofInt64 {v : Int} (lo : -2 ^ 63 ≤ v) (hi : v < 2 ^ 63) : (BitVec.ofInt 64 v).toInt = v := by
  rw [BitVec.toInt_ofInt, Int.bmod_eq_of_le (by omega) (by omega)]

/-- One add from a running sum `v` that is off by `e`, in range: the sum is off by what the fault adds besides, and the comparison shows whether
127 divides the difference. -/
theorem addStep_off {us : List Upset} {again : Bool} {v e q : Int} {k : Nat} {b : Bool}
    (lo : -2 ^ 63 ≤ v + q + (e + upsetAt us again k)) (hi : v + q + (e + upsetAt us again k) < 2 ^ 63) :
    addStep us again (v + e, residue v, b) (q, k) =
      (v + q + (e + upsetAt us again k), residue (v + q), b && decide ((e + upsetAt us again k) % 127 = 0)) := by
  have same : v + e + q + upsetAt us again k = v + q + (e + upsetAt us again k) := by ring
  simp only [addStep, same, toInt_ofInt64 lo hi, residue_add, residue_eq_iff]

/-- Adds without a fault keep the difference. -/
theorem foldl_addStep_off {us : List Upset} {again : Bool} {e : Int} (elo : -2 ^ 62 < e) (ehi : e < 2 ^ 62) (qs : List Int) :
    ∀ (k : Nat) (v : Int) (b : Bool), (∀ q ∈ qs, -2 ^ 48 < q ∧ q < 2 ^ 48) → (∀ j, k ≤ j → j < k + qs.length → upsetAt us again j = 0) →
      -2 ^ 62 ≤ v - qs.length * 2 ^ 48 → v + qs.length * 2 ^ 48 ≤ 2 ^ 62 →
      (qs.zipIdx k).foldl (addStep us again) (v + e, residue v, b) =
        (v + qs.sum + e, residue (v + qs.sum), b && (qs.isEmpty || decide (e % 127 = 0))) := by
  induction qs with
  | nil => intro k v b _ _ _ _; simp
  | cons q qs ih =>
    intro k v b small none lo hi
    obtain ⟨qlo, qhi⟩ := small q (by simp)
    have here : upsetAt us again k = 0 := none k le_rfl (by simp)
    simp only [List.length_cons, Nat.cast_add, Nat.cast_one] at lo hi
    rw [List.zipIdx_cons, List.foldl_cons, addStep_off (by omega) (by omega), here, add_zero,
      ih (k + 1) (v + q) _ (fun q' h => small q' (by simp [h])) (fun j h h' => none j (by omega) (by simp; omega)) (by omega) (by omega)]
    cases b <;> cases decide (e % 127 = 0) <;> simp [add_assoc]

/-- Without a fault a sum is exact, and every comparison agrees (R112). -/
theorem sumChecked_none {us : List Upset} {again : Bool} {qs : List Int} (short : qs.length ≤ 16384)
    (small : ∀ q ∈ qs, -2 ^ 48 < q ∧ q < 2 ^ 48) (none : ∀ j, upsetAt us again j = 0) : sumChecked us again qs = (qs.sum, true) := by
  have h : qs.zipIdx.foldl (addStep us again) (0, 0, true) = (qs.sum, residue qs.sum, true) := by
    simpa using foldl_addStep_off (us := us) (again := again) (e := 0) (by omega) (by omega) qs 0 0 true small (fun j _ _ => none j)
      (by omega) (by omega)
  rw [sumChecked_eq_addStep, h]

/-- What a fault adds to the sum it meets, in the first sum or in the recomputation. -/
def faultOf (u : Upset) (again : Bool) : Int := if again then u.again else u.err

theorem upsetAt_single (u : Upset) (again : Bool) (k : Nat) : upsetAt [u] again k = if u.add = k then faultOf u again else 0 := by
  simp [upsetAt, faultOf]

theorem sum_bounds (qs : List Int) (small : ∀ q ∈ qs, -2 ^ 48 < q ∧ q < 2 ^ 48) :
    -(qs.length * 2 ^ 48 : Int) ≤ qs.sum ∧ qs.sum ≤ qs.length * 2 ^ 48 := by
  induction qs with
  | nil => simp
  | cons q qs ih =>
    have := small q (by simp)
    have := ih (fun q' h => small q' (by simp [h]))
    simp only [List.sum_cons, List.length_cons, Nat.cast_add, Nat.cast_one]
    omega

/-- A sum with one fault of the adder is off by what the fault adds, and its comparisons all agree only if 127 divides that (R112). -/
theorem sumChecked_single {u : Upset} {again : Bool} {qs : List Int} (short : qs.length ≤ 16384)
    (small : ∀ q ∈ qs, -2 ^ 48 < q ∧ q < 2 ^ 48) (met : u.add < qs.length) (lo : -2 ^ 62 < faultOf u again) (hi : faultOf u again < 2 ^ 62) :
    sumChecked [u] again qs = (qs.sum + faultOf u again, decide (faultOf u again % 127 = 0)) := by
  obtain ⟨l, r, hl, rfl⟩ : ∃ l r, l.length = u.add ∧ qs = l ++ r :=
    ⟨qs.take u.add, qs.drop u.add, by simp; omega, (List.take_append_drop _ _).symm⟩
  obtain - | ⟨q, r⟩ := r
  · simp at met; omega
  have smallL : ∀ q ∈ l, -2 ^ 48 < q ∧ q < 2 ^ 48 := fun y h => small y (by simp [h])
  obtain ⟨qlo, qhi⟩ := small q (by simp)
  obtain ⟨llo, lhi⟩ := sum_bounds l smallL
  simp only [List.length_append, List.length_cons] at short
  have before : l.zipIdx.foldl (addStep [u] again) (0, 0, true) = (l.sum, residue l.sum, true) := by
    simpa using foldl_addStep_off (us := [u]) (again := again) (e := 0) (by omega) (by omega) l 0 0 true smallL
      (fun j _ h => by rw [upsetAt_single, if_neg (by omega)]) (by omega) (by omega)
  have hit : addStep [u] again (l.sum, residue l.sum, true) (q, l.length) =
      (l.sum + q + faultOf u again, residue (l.sum + q), decide (faultOf u again % 127 = 0)) := by
    have at_ : upsetAt [u] again l.length = faultOf u again := by rw [upsetAt_single, if_pos hl.symm]
    simpa [at_] using addStep_off (us := [u]) (again := again) (v := l.sum) (e := 0) (q := q) (k := l.length) (b := true)
      (by omega) (by omega)
  have after := foldl_addStep_off (us := [u]) (again := again) lo hi r (l.length + 1) (l.sum + q) (decide (faultOf u again % 127 = 0))
    (fun y h => small y (by simp [h])) (fun j h _ => by rw [upsetAt_single, if_neg (by omega)]) (by omega) (by omega)
  rw [sumChecked_eq_addStep, List.zipIdx_append, List.foldl_append, before, Nat.zero_add, List.zipIdx_cons, List.foldl_cons, hit, after]
  cases decide (faultOf u again % 127 = 0) <;> simp [add_assoc]

theorem residueMends_holds (qs : List Int) (u : Upset) : (residueMends qs u).Holds := by
  rintro ⟨short, small, met, lo, hi, shows, right⟩
  have first := sumChecked_single (again := false) short small met lo hi
  have second := sumChecked_single (u := u) (again := true) short small met (by simp [faultOf, right]) (by simp [faultOf, right])
  simp only [faultOf, Bool.false_eq_true, if_false, if_true, right, shows, decide_false] at first second
  simp [sumExact, first, second]

theorem residueFails_holds (qs : List Int) (u : Upset) : (residueFails qs u).Holds := by
  rintro ⟨short, small, met, lo, hi, shows, lo', hi', again⟩
  have first := sumChecked_single (again := false) short small met lo hi
  have second := sumChecked_single (u := u) (again := true) short small met lo' hi'
  simp only [faultOf, Bool.false_eq_true, if_false, if_true, shows, again, decide_false] at first second
  simp [sumExact, first, second]

end Sys2Proof.Machine
end

section
/-!
SUPPORT. Collectives: their start, their time limit and their end.
-/

namespace Sys2Proof.Machine

open Sys2Proof.Claims

variable {s : State} {Q : State → Prop}

/-! ## Collectives of the state -/

@[simp] theorem ends_modColls (f : List Coll → List Coll) (k : Unit → Prog) (s : State) (Q : State → Prop) :
    Ends (modColls f k) s Q = Ends (k ()) { s with colls := f s.colls } Q := rfl

/-- The only collective is the one that an update names. -/
theorem ends_modColl_only {h : Nat} {c : Coll} {f : Coll → Coll} {k : Unit → Prog} (hs : s.colls = [c]) (hh : c.h = h) :
    Ends (modColl h f k) s Q = Ends (k ()) { s with colls := [f c] } Q := by
  rw [modColl, ends_modColls, hs]
  simp [hh]

/-! ## What a pop leaves as it was -/

theorem popRegs_between {q : Nat} (hq : q < 4096) {off : Nat} (h : off ∈ popRegs q) : 0x2A0000 ≤ off ∧ off < 0x2E0000 := by
  simp only [popRegs, rQcnt, List.mem_cons, List.not_mem_nil, or_false] at h
  omega

/-- A field of a register outside the queues' counts and status words survives a pop. -/
theorem fieldOf_popped {q : Nat} {rest : List QItem} (hq : q < 4096) {off : Nat} (h : off < 0x2A0000 ∨ 0x2E0000 ≤ off) (lo len : Nat) :
    fieldOf (s.popped q rest) off lo len = fieldOf s off lo len := by
  have hne : off ∉ popRegs q := fun hm => by have := popRegs_between hq hm; omega
  rw [fieldOf, regsBut_popped s q rest off hne, fieldOf]

/-- What belongs to a partition depends on its map, on tier 3's ports and on registers below the queues'. -/
theorem belongs_of_same {t : State} {p : Nat} (hmem2 : t.mem2 = s.mem2) (hmap : (partOf t p).map = (partOf s p).map)
    (hregs : ∀ off lo len, off < 0x280000 → fieldOf t off lo len = fieldOf s off lo len) (a n : Nat) :
    belongs t p a n = belongs s p a n := by
  have hcore : ∀ c, coreEnabled t c = coreEnabled s c := fun c => by
    by_cases hc : c < 2048
    · rw [coreEnabled, coreEnabled, hregs _ _ _ (by omega)]
    · simp [coreEnabled, hc]
  have hmapped : ∀ x, mapped t x = mapped s x := fun x => by
    simp only [mapped, t3Mapped, hmem2, hregs 0x200018 0 16 (by decide), hcore]
  have hof : ∀ c, coreOfPart t p c = coreOfPart s p c := fun c => by rw [coreOfPart, coreOfPart, hcore, hmap]
  have hreach : ∀ x, reach t p x = reach s p x := fun x => by
    rw [reach, reach]
    dsimp only
    rw [hof, hmap]
  simp only [belongs, hmapped, hreach]

theorem belongs_popped {q : Nat} (rest : List QItem) (hq : q < 4096) (p a n : Nat) :
    belongs (s.popped q rest) p a n = belongs s p a n :=
  belongs_of_same (onlyChanges_popped s q rest .mem2 (by decide)) (by rw [(onlyChanges_popped s q rest).partOf (by decide)])
    (fun _ lo len h => fieldOf_popped hq (.inl (by omega)) lo len) a n

theorem groupOf_popped (q : Nat) (rest : List QItem) (h : Nat) : groupOf (s.popped q rest) h = groupOf s h := rfl

theorem dCollQ_lt (d : Item) : dCollQ d < 4096 := bitsOf_lt _ _ _

theorem collOk_popped {q : Nat} (rest : List QItem) (hq : q < 4096) (h : Nat) (x : Item) :
    collOk (s.popped q rest) h x = collOk s h x := by
  have hjob : ∀ p lo len, fieldOf (s.popped q rest) (rPart p 0x10) lo len = fieldOf s (rPart p 0x10) lo len := fun p lo len =>
    fieldOf_popped hq (.inr (by simp only [rPart]; omega)) lo len
  simp only [collOk, groupOn, jobGen, jobState, groupOf_popped, belongs_popped rest hq, hjob]; rfl

/-! ## COLLECTIVE_START (R88, R114–R116) -/

/-- The network die has taken the descriptor at the head of COLL_Q, and checked it. -/
structure CollTaken (s : State) (h : Nat) (x : QItem) (rest : List QItem) (t : State) : Prop where
  popped : Popped s t (dCollQ (groupOf s h).desc) rest
  regs : RegsBut s t (popRegs (dCollQ (groupOf s h).desc))
  colls : t.colls = [{ h, part := dPart (groupOf s h).desc, desc := x.data, startAt := s.time.now
                       status := if collOk s h x.data then none else some 4 }]
  only : OnlyChanges s t [.queues, .colls, .regs]

theorem collTaken_popped {h : Nat} {x : QItem} {rest : List QItem} {status : Option Nat} (hq : Rising s.queues)
    (hstatus : status = if collOk s h x.data then none else some 4) :
    CollTaken s h x rest { s.popped (dCollQ (groupOf s h).desc) rest with colls :=
      [{ h, part := dPart (groupOf s h).desc, desc := x.data, startAt := s.time.now, status }] } := by
  have hpop : Popped s (s.popped (dCollQ (groupOf s h).desc) rest) (dCollQ (groupOf s h).desc) rest := queueOf_popped rest hq
  have hregs := regsBut_popped s (dCollQ (groupOf s h).desc) rest
  have honly := onlyChanges_popped s (dCollQ (groupOf s h).desc) rest
  generalize s.popped (dCollQ (groupOf s h).desc) rest = p at hpop hregs honly ⊢
  exact ⟨hpop, hregs, by rw [hstatus], (honly.mono (by decide)).trans (onlyChanges_of_take rfl)⟩

theorem ends_collStartAct {h : Nat} {x : QItem} {rest : List QItem} {us : List Upset} {k : Unit → Prog} (hhead : CollHead s h x rest)
    (hQ : ∀ t, CollTaken s h x rest t → if collOk s h x.data then Ends (startPass h us k) t Q
      else Ends (raiseGroup 0x4003 2 h (some (dPart (groupOf s h).desc)) 0 k) t Q) : Ends (collStartAct h us k) s Q := by
  obtain ⟨hen, hcons, hpart, hcolls, -, hitems, hwait, hgap, hmine, hclean, hc⟩ := hhead
  have hcond : (!qEn s (dCollQ (groupOf s h).desc) || qCons s (dCollQ (groupOf s h).desc) ≠ 2 ||
      qPart s (dCollQ (groupOf s h).desc) ≠ dPart (groupOf s h).desc || s.colls.any (fun c => c.h == h) ||
      !((queueOf s (dCollQ (groupOf s h).desc)).items.head?).any (fun it => it.gap || collMine s h (dCollQ (groupOf s h).desc) it.data)) =
        false := by
    simp [hen, hcons, hpart, hcolls, hitems, hmine]
  have hnone : (s.popped (dCollQ (groupOf s h).desc) rest).colls = [] := hcolls
  simp only [collStartAct, bind_apply, look_apply, ends_look, hcond, Bool.false_eq_true, if_false,
    ends_qPopItem_clean hitems hwait hclean hc.risingQueues, hgap, collOk_popped rest (dCollQ_lt _), ends_modColls, hnone, List.nil_append,
    ends_ite_act]
  cases hok : collOk s h x.data with
  | true =>
    simp only [hok, Bool.not_true, Bool.false_eq_true, if_false, if_true] at hQ ⊢
    exact hQ _ (collTaken_popped hc.risingQueues (by rw [hok]; rfl))
  | false =>
    simp only [hok, Bool.not_false, Bool.false_eq_true, if_false, if_true] at hQ ⊢
    exact hQ _ (collTaken_popped hc.risingQueues (by rw [hok]; rfl))

theorem ftNs_of_time {t : State} (h : t.time = s.time) : ftNs t = ftNs s := by rw [ftNs, h, ftNs]

theorem collectiveBad_holds (s : State) (h : Fin 256) (x : QItem) (rest : List QItem) (us : List Upset) :
    (collectiveBad s h x rest us).Holds := by
  rintro ⟨hhead, hbad⟩
  refine answers_of_ends (collStartAct h us) rfl (ends_collStartAct hhead fun t ht => ?_)
  rw [hbad, if_neg Bool.false_ne_true]
  refine ends_raiseGroup (by decide) fun u hu => ?_
  have honly := hu.onlyChanges
  rw [ends_done]
  refine ⟨(honly.queueOf (by decide) _).trans ht.popped, ?_, ?_, fun off hoff => ?_, (ht.only.mono (by decide)).trans (honly.mono (by decide))⟩
  · rw [honly .colls (by decide), ht.colls, hbad]
    rfl
  · rw [Reported, ← show t.err = s.err from ht.only .err (by decide), ← ftNs_of_time (ht.only .time (by decide))]
    exact hu.reported
  · rw [List.mem_append, not_or] at hoff
    exact (hu.regs off hoff.2).trans (ht.regs off hoff.1)

/-- The other rank of a group of two. -/
theorem othersOf_two {g : XgGen} (hn : dN g.1 = 2) (hr : dRank g.1 < 2) : othersOf g = [(dRank g.1 + 1) % 2] := by
  have : dRank g.1 = 0 ∨ dRank g.1 = 1 := by omega
  rcases this with h | h <;> rw [othersOf, hn, h] <;> rfl

/-- The launch of a BARRIER's pass: a frame of 64 free bytes to each other rank, and one from it (R114, R115). -/
def barrierLaunch (s : State) (c : Coll) (peer : Nat) : Launch :=
  { h := c.h, part := c.part, setId := 0, tag := coTag c.desc, kind := .coll, phase := .allocated, smax := 64, win := c.pass, tailAt := s.time.now,
    tx := [{ dst := peer, frames := [0], data := [(0, (List.range 64).map (Config.freeByte s.freeIdx))] }],
    rx := [{ src := peer, buf := 0, npos := 0, bytes := 64, form := 3, need := [0] }] }

/-- A pass that does not reduce has nothing to reduce. -/
theorem ends_reduceReady_idle {h : Nat} {c : Coll} {us : List Upset} {k : Unit → Prog} (hcolls : s.colls = [c])
    (hpass : passReduces c = false) : Ends (reduceReady h us k) s Q = Ends (k ()) s Q := by
  simp only [reduceReady, bind_apply, look_apply, ends_look, hcolls]
  cases hf : [c].find? (fun c => c.h == h && c.status.isNone) with
  | none => rfl
  | some d =>
    obtain rfl : d = c := List.mem_singleton.1 (List.mem_of_find?_eq_some hf)
    cases hl : collLaunch s d with
    | none => simp only [hl, pure_apply]
    | some l => simp only [hl, hpass, Bool.false_eq_true, if_false, pure_apply]

theorem ends_passTx_barrier {c : Coll} {g : XgGen} {peer : Nat} {k : List TxShare → Prog} (hpass : passReduces c = false)
    (hop : coOp c.desc = 4) (hothers : othersOf g = [peer]) :
    Ends (passTx c g k) s Q = Ends (k (barrierLaunch s c peer).tx) { s with freeIdx := s.freeIdx + 1 } Q := by
  simp only [passTx, hpass, hop, hothers, Bool.false_eq_true, if_false]
  rfl

theorem ends_passSelf_barrier {c : Coll} {g : XgGen} {k : Unit → Prog} (hop : coOp c.desc = 4) :
    Ends (passSelf c g k) s Q = Ends (k ()) s Q := by
  simp only [passSelf, hop, Nat.reduceEqDiff, decide_false, Bool.false_and, Bool.false_eq_true, if_false, pure_apply]

/-- A windowed BARRIER of two ranks begins. -/
theorem ends_startPass_barrier {h : Nat} {c : Coll} {us : List Upset} {k : Unit → Prog} (hcolls : s.colls = [c]) (hh : c.h = h)
    (hop : coOp c.desc = 4) (hstream : coStream c.desc = false) (hl : s.launches = [])
    (hn : dN (groupOf s h).desc = 2) (hr : dRank (groupOf s h).desc < 2) :
    let l := barrierLaunch s c ((dRank (groupOf s h).desc + 1) % 2)
    Ends (startPass h us k) s Q = Ends (k ()) (windowAsk { s with freeIdx := s.freeIdx + 1, launches := [l], colls := [c] } l) Q := by
  intro l
  have hfind : s.colls.find? (fun c => c.h == h) = some c := by simp [hcolls, hh]
  have hothers : othersOf (newGen s h) = [(dRank (groupOf s h).desc + 1) % 2] := othersOf_two hn hr
  have hpass : passReduces c = false := by simp [passReduces, reduces, hop]
  have hrx : passRx c (newGen s h) = l.rx := by
    simp only [passRx, hpass, hop, hothers]
    rfl
  have hself : { c with bufs := c.bufs ++ [] } = c := by rw [List.append_nil]
  simp only [startPass, bind_apply, look_apply, ends_look, hfind, hpass, Bool.false_eq_true, if_false, pure_apply,
    ends_modColl_only hcolls hh, hself, hrx, ends_passTx_barrier hpass hop hothers, ends_passSelf_barrier hop, hstream, ends_modLaunches, hl,
    List.filter_nil, List.nil_append, ends_askWindow]
  rw [ends_reduceReady_idle (c := c) rfl hpass]
  subst hh
  rfl

theorem collectiveStart_holds (s : State) (h : Fin 256) (x : QItem) (rest : List QItem) (us : List Upset) :
    (collectiveStart s h x rest us).Holds := by
  rintro ⟨hhead, hok, hop, hstream, hn, hr⟩
  refine answers_of_ends (collStartAct h us) rfl (ends_collStartAct hhead fun t ht => ?_)
  obtain ⟨-, -, -, -, hl, -⟩ := hhead
  obtain ⟨hpop, hregs, hcolls, honly⟩ := ht
  rw [hok, if_pos rfl] at hcolls
  have htl : t.launches = [] := (honly .launches (by decide)).trans hl
  have hgroup : groupOf t h = groupOf s h := honly.groupOf (by decide) _
  rw [hok, if_pos rfl, ends_startPass_barrier hcolls rfl hop hstream htl (by rwa [hgroup]) (by rwa [hgroup]), ends_done, hgroup]
  have htime : t.time = s.time := honly .time (by decide)
  have hfree : t.freeIdx = s.freeIdx := honly .freeIdx (by decide)
  have hpw : t.pw = s.pw := honly .pw (by decide)
  have hfield : ∀ off lo len, off < 0x2A0000 → fieldOf t off lo len = fieldOf s off lo len := fun off lo len hoff => by
    rw [fieldOf, hregs off fun hm => by have := popRegs_between (dCollQ_lt _) hm; omega, fieldOf]
  have hmw : classMw t (fieldOf t 0x040008 16 3) = classMw s (fieldOf s 0x040008 16 3) := by
    have hclass : fieldOf s 0x040008 16 3 < 2 ^ 3 := bitsOf_lt _ _ _
    rw [hfield 0x040008 16 3 (by decide), classMw, classMw, hfield _ _ _ (by omega), hfield _ _ _ (by decide)]
  set c : Coll := { h, part := dPart (groupOf s h).desc, desc := x.data, startAt := s.time.now }
  have hsame : barrierLaunch t c ((dRank (groupOf s h).desc + 1) % 2) = barrierLaunch s c ((dRank (groupOf s h).desc + 1) % 2) := by
    rw [barrierLaunch, barrierLaunch, htime, hfree]
  rw [hsame]
  refine ⟨hpop, rfl, rfl, ?_, congrArg (· + 1) hfree, hregs, (honly.mono (by decide)).trans (onlyChanges_of_take rfl)⟩
  show (windowAsk t _).pw = (windowAsk s _).pw
  simp only [hmw, hpw, htime]
  rfl

theorem collTimeoutNone_holds (s : State) (h : Fin 256) (c : Coll) (l : Launch) : (collTimeoutNone s h c l).Holds := by
  rintro ⟨hcolls, hh, hstream, hstatus, hdue, hlaunch, hlate⟩
  refine exec_of_ends (collTimeoutAct h) rfl ?_
  have hfind : s.colls.find? (fun c => c.h == h.val && coStream c.desc && c.status.isNone) = some c := by simp [hcolls, hh, hstream, hstatus]
  have hgen : collGen s c = genOf s l := by rw [collGen, hlaunch]
  simp only [collTimeoutAct, bind_apply, look_apply, ends_look, hfind, hgen]
  refine ends_advanceTo_past hdue ?_
  simp only [ends_look, hlaunch, hlate, bind_apply, List.forIn_nil, List.isEmpty_nil, if_true, pure_apply, ends_done]

/-- A member is marked DEAD whose bit in the bitmap of its partition in shared SRAM is not set yet (R72). -/
theorem ends_markDead {p h node rank sev : Nat} {k : Unit → Prog} (hnode : node < 0xFFFF) (hbit : deadBit s p node = false)
    (hsram : inSram (liveBase s p) = true) (hclean : CleanMem s) (hdir : s.fab.dir = []) (hsev : sev < 3)
    (hQ : ∀ u, Raises 0x4006 sev 36 h (some p) 0 (peerDetail rank h) (s.putMem (liveBase s p + node / 8)
      [memAt s (liveBase s p + node / 8) ||| BitVec.ofNat 8 (1 <<< (node % 8))]) u → Ends (k ()) u Q) :
    Ends (markDead p h node rank sev k) s Q := by
  have hcond : (node ≠ 0xFFFF && !deadBit s p node) = true := by simp [hbit]; omega
  simp only [markDead, bind_apply, look_apply, ends_look, hcond, if_true, hsram, ends_putBytes_clean hclean hdir]
  exact ends_raiseGroup hsev hQ

theorem not_errSrc_rSre (d off : Nat) : rSre d off ∉ errSrc 36 := by
  simp only [rSre, errSrc, List.mem_cons, List.not_mem_nil, or_false]
  omega

theorem deadBit_congr {t : State} {p : Nat} (hbase : liveBase t p = liveBase s p) (hmem : ∀ a, memAt t a = memAt s a) (node : Nat) :
    deadBit t p node = deadBit s p node := by rw [deadBit, hbase, hmem, deadBit]

/-- The bit of a node that has been marked (R72). -/
theorem deadBit_putMem_or {p node : Nat} (hsram : inSram (liveBase s p) = true) (hm : Rising s.mem) :
    deadBit (s.putMem (liveBase s p + node / 8) [memAt s (liveBase s p + node / 8) ||| BitVec.ofNat 8 (1 <<< (node % 8))]) p node = true := by
  have hlt : node % 8 < 8 := Nat.mod_lt _ (by decide)
  rw [deadBit, liveBase_putMem, hsram, memAt_putMem_one _ _ hm, BitVec.getLsbD_or, BitVec.getLsbD_ofNat, Nat.one_shiftLeft,
    Nat.testBit_two_pow_self]
  simp [hlt]

theorem collTimeout_holds (s : State) (h : Fin 256) (c : Coll) (l : Launch) (r : Nat) : (collTimeout s h c l r).Holds := by
  rintro ⟨hcolls, hh, hstream, hstatus, hdue, hlaunch, hlate, hnode, hsram, hbit, hdir, hclean, hc⟩
  refine answers_of_ends (collTimeoutAct h) rfl ?_
  have hfind : s.colls.find? (fun c => c.h == h.val && coStream c.desc && c.status.isNone) = some c := by simp [hcolls, hh, hstream, hstatus]
  have hgen : collGen s c = genOf s l := by rw [collGen, hlaunch]
  simp only [collTimeoutAct, bind_apply, look_apply, ends_look, hfind, hgen]
  refine ends_advanceTo_past hdue ?_
  simp only [ends_look, hlaunch, hlate, bind_apply, List.forIn_cons, List.forIn_nil, List.isEmpty_cons, Bool.false_eq_true, if_false]
  refine ends_markDead hnode hbit hsram hclean hdir (by decide) fun u hu => ?_
  have honly := hu.onlyChanges
  have hucolls : u.colls = [c] := (honly .colls (by decide)).trans hcolls
  simp only [pure_apply, ends_modColl_only hucolls hh, ends_done]
  have hmem : ∀ a, memAt u a = _ := honly .mem (by decide)
  refine ⟨trivial, ?_, fun a ha => (hmem a).trans (memBut_putMem s _ _ a ha), hu.reported, hu.regs, ?_⟩
  · have hbase : liveBase u c.part = liveBase s c.part := by
      rw [liveBase, hu.field (not_errSrc_rSre _ _)]
      rfl
    exact (deadBit_congr (s := s.putMem _ _) hbase hmem _).trans (deadBit_putMem_or hsram hc.risingMem)
  · exact ((onlyChanges_putMem s _ _).mono (by decide)).trans ((honly.mono (by decide)).trans (onlyChanges_of_take rfl))

theorem reducerOf_two {g : XgGen} {r : Nat} (hn : dN g.1 = 2) (hver : dVer2 g.1 = false) (hr : r < 2) : reducerOf g r = r := by
  have hm : moquinRanks g = [0, 1] := by
    simp only [moquinRanks, hn, hver, Bool.not_false, Bool.true_or]
    rfl
  have : r = 0 ∨ r = 1 := by omega
  rcases this with rfl | rfl <;> simp [reducerOf, hm]

/-- In a group of two ranks of version 1 each rank reduces the chunk of its number (R108). -/
theorem chunksOf_two {g : XgGen} {r : Nat} (hn : dN g.1 = 2) (hver : dVer2 g.1 = false) (hr : r < 2) : chunksOf g r = [r] := by
  have h0 := reducerOf_two hn hver (r := 0) (by decide)
  have h1 := reducerOf_two hn hver (r := 1) (by decide)
  have : r = 0 ∨ r = 1 := by omega
  rcases this with rfl | rfl <;> simp [chunksOf, hn, List.range_succ, h0, h1]

theorem collLateGather_holds (g : XgGen) (c : Coll) (l : Launch) : (collLateGather g c l).Holds := by
  rintro ⟨hop, hpass, hn, hr, hver, hall, hlen, hel⟩
  set r := (dRank g.1 + 1) % 2 with hrdef
  have hothers : othersOf g = [r] := othersOf_two hn hr
  have hnow : l.rx.filter (fun x => !x.delivered) = [] := by simpa using hall
  have hruns : gatherRuns g c.desc r = [(coDst c.desc + (chunkOf c.desc 2 r).1 * elBytes (coOut c.desc),
      (chunkOf c.desc 2 r).2 * elBytes (coOut c.desc))] := by
    simp [gatherRuns, chunksOf_two hn hver (r := r) (by omega), hn, hlen]
  have hbytes : (chunkOf c.desc 2 r).2 * elBytes (coOut c.desc) ≠ 0 := Nat.mul_ne_zero hlen hel
  have hrx : passRx { c with pass := 1 } g = [plainRx r (gatherRuns g c.desc r)] := by
    simp [passRx, passReduces, hop, hothers, plainRx, hruns, hbytes]
  show collLate g c l = [r]
  simp [collLate, twoPasses, hop, hpass, hothers, hnow, hrx, plainRx]

/-! ## COLLECTIVE_COMPLETE (R116) -/

theorem ends_xgRelease_none {h : Nat} {k : Unit → Prog} (hn : (groupOf s h).next = none) : Ends (xgRelease h k) s Q = Ends (k ()) s Q := by
  simp only [xgRelease, bind_apply, look_apply, ends_look, hn, pure_apply]

/-- The state in which a collective is over, but for its status word and its signal. -/
def State.collGone (s : State) : State := { s with launches := [], colls := [] }

/-- The end of the only collective of a state. -/
theorem ends_collFinish {c : Coll} {l : Launch} {status : Nat} {k : Unit → Prog} (hcolls : s.colls = [c]) (hl : s.launches = [l])
    (hlh : l.h = c.h) (hkind : l.kind = .coll) (hlaunch : collLaunch s c = some l) (hnext : (groupOf s c.h).next = none)
    (hgrant : NoGrant s (windowHolder l)) (hbufs : c.bufs = []) (hmine : belongs s c.part (coStatus c.desc) 8 = true)
    (hdir : s.fab.dir = []) (hclean : CleanMem s) :
    Ends (collFinish c status k) s Q = Ends (unitSignal (dieND 0) c.h c.part (coCore c.desc) (coPip c.desc) 1 k)
      (s.collGone.putMem (coStatus c.desc) (natBytes 8 (status ||| coTag c.desc <<< 32))) Q := by
  have hbelongs : belongs s.collGone c.part (coStatus c.desc) 8 = true := hmine
  have hclean' : CleanMem s.collGone := hclean
  have hdir' : s.collGone.fab.dir = [] := hdir
  have hnext' : (groupOf s.collGone c.h).next = none := hnext
  have hlgone : s.launches.filter (fun l => !(l.h == c.h && l.kind == .coll)) = [] := by simp [hl, hlh, hkind]
  have hcgone : s.colls.filter (fun y => y.h != c.h) = [] := by simp [hcolls]
  simp only [collFinish, bind_apply, look_apply, ends_look, hlaunch, ends_dropGrant_none hgrant, ends_modLaunches, ends_modColls, hlgone, hcgone,
    hbufs, freeAll, List.forIn_nil, pure_apply]
  show Ends _ s.collGone Q = _
  rw [ends_xgRelease_none hnext', ends_unitWrite_clean hclean' hbelongs]
  simp only [if_true, bind_apply, ends_putNat_clean hclean' hdir']

theorem collectiveComplete_holds (s : State) (h : Fin 256) (c : Coll) (l : Launch) (status : Nat) :
    (collectiveComplete s h c l status).Holds := by
  rintro ⟨hcolls, hh, hl, hlh, hkind, hlaunch, hnext, hgrant, hbufs, hends, hstatus, hmine, hcore, hroom, hwait, hdir, hclean, hc⟩
  refine answers_of_ends (collCompleteAct h) rfl ?_
  have hfind : s.colls.find? (fun c => c.h == h.val) = some c := by simp [hcolls, hh]
  have hrun : Ends (collCompleteAct h fun _ => .done) s = Ends (collFinish c status fun _ => .done) s := by
    funext P
    simp only [collCompleteAct, bind_apply, look_apply, ends_look, hfind]
    obtain hst | ⟨hst, rfl, hover, hlast⟩ := hends
    · simp only [hst]
    · have hlast' : ¬ (twoPasses (collGen s c) c.desc && c.pass = 0) = true := by simpa using hlast
      simp only [hst, hover, if_true, if_neg hlast']
  rw [hrun, ends_collFinish hcolls hl (hlh.trans hh.symm) hkind hlaunch (by rwa [hh]) hgrant hbufs hmine hdir hclean]
  set k := pipKey c.part (fieldOf s (rPart c.part 0x28) 0 4) (coCore c.desc) (coPip c.desc) with hk
  set v := status ||| coTag c.desc <<< 32 with hv
  have hcore' : coreOfPart (s.collGone.putMem (coStatus c.desc) (natBytes 8 v)) c.part (coCore c.desc) = true := hcore
  rw [ends_unitSignal_free hcore' (by exact Nat.succ_lt_succ hroom) hwait, ends_done]
  have htag : coTag c.desc < 2 ^ 32 := bitsOf_lt _ _ _
  have hlow : bitsOf v 0 32 = status := by
    rw [hv, bitsOf_or, bitsOf_shiftLeft_below _ (by decide), Nat.or_zero, bitsOf, Nat.shiftRight_zero]
    exact Nat.mod_eq_of_lt (by omega)
  have hhigh : bitsOf v 32 32 = coTag c.desc := by
    rw [hv, bitsOf_or, bitsOf_of_lt (n := 32) (by omega) _ le_rfl, bitsOf_shiftLeft_same, Nat.zero_or, Nat.mod_eq_of_lt htag]
  have hpart := fun j n (hj : j + n ≤ 8) => memNat_putMem_part (s := s.collGone) hc.risingMem (coStatus c.desc) v hj
  have hmem := memBut_putMem s.collGone (coStatus c.desc) (natBytes 8 v)
  rw [length_natBytes] at hmem
  refine ⟨rfl, rfl, (hpart 0 4 (by decide)).trans hlow, (hpart 4 4 (by decide)).trans hhigh, hmem, pipOf_setPip_same _ _ hc.risingPips,
    fun j hj => pipOf_setPip_ne _ hj, onlyChanges_of_take rfl⟩

end Sys2Proof.Machine
end

section
/-!
SUPPORT. A frame that a port takes, and the launch of an exchange group that it is for.
-/

namespace Sys2Proof.Machine

open Sys2Proof.Claims

variable {s : State} {Q : State → Prop}

/-! ## Ports -/

theorem Canon.risingPorts (h : Canon s) : Rising s.ports := by
  obtain ⟨-, -, -, -, -, -, -, -, -, hports, -⟩ := h
  exact ((tblWf_iff (fun _ => ({} : Port)) _).1 hports).1

theorem portOf_setPort_same (v : Port) (n : Nat) (h : Rising s.ports) : portOf (s.setPort n v) n = v := tget_tput_same _ _ _ _ h
theorem portOf_setPort_ne (v : Port) {n j : Nat} (h : j ≠ n) : portOf (s.setPort n v) j = portOf s j := tget_tput_ne _ _ _ _ _ h
theorem rising_setPort (n : Nat) (v : Port) (h : Rising s.ports) : Rising (s.setPort n v).ports := tput_rising _ _ _ _ h

theorem setPort_setPort (n : Nat) (a b : Port) (h : Rising s.ports) : (s.setPort n a).setPort n b = s.setPort n b := by
  have htab := tput_tput_same {} s.ports n a b h
  simp only [State.setPort, Effect.apply, htab]

theorem onlyChanges_setPort (s : State) (n : Nat) (v : Port) : OnlyChanges s (s.setPort n v) [.ports] := onlyChanges_of_take rfl

theorem OnlyChanges.portOf {t : State} {may : List Piece} (h : OnlyChanges s t may) (hp : .ports ∉ may) (n : Nat) :
    portOf t n = portOf s n := by
  rw [Machine.portOf, h .ports hp, Machine.portOf]

/-! ## The receive checks (R128, R137–R139, R143) -/

/-- The state in which a port has counted the codewords that came with a frame. -/
def State.heardCodes (s : State) (n : Nat) (w : Wire) : State :=
  (s.setReg (rPort n 0x120) (((regOf s (rPort n 0x120)).toNat + w.corr.toNat) % 2 ^ 64)).setField (rPort n 0x128) 0 32
    (min 0xFFFFFFFF (fieldOf s (rPort n 0x128) 0 32 + w.uncorr.toNat))

theorem regOf_heardCodes {n : Nat} {w : Wire} {off : Nat} (h : off ≠ rPort n 0x120 ∧ off ≠ rPort n 0x128) :
    regOf (s.heardCodes n w) off = regOf s off := (regOf_setReg_ne _ _ _ _ h.2).trans (regOf_setReg_ne _ _ _ _ h.1)

theorem fieldOf_heardCodes {n : Nat} {w : Wire} {off : Nat} (h : off ≠ rPort n 0x120 ∧ off ≠ rPort n 0x128) (lo len : Nat) :
    fieldOf (s.heardCodes n w) off lo len = fieldOf s off lo len := by rw [fieldOf, regOf_heardCodes h, fieldOf]

theorem ends_heardCodes {n : Nat} {w : Wire} {k : Unit → Prog} :
    Ends (ctr64 (rPort n 0x120) w.corr.toNat fun _ => ctr32 (rPort n 0x128) w.uncorr.toNat k) s Q = Ends (k ()) (s.heardCodes n w) Q := by
  have hword : rPort n 0x128 / 8 * 8 = rPort n 0x128 ∧ rPort n 0x128 % 8 * 8 = 0 := by simp only [rPort]; omega
  have hread : ∀ v, fieldOf (s.setReg (rPort n 0x120) v) (rPort n 0x128) 0 32 = fieldOf s (rPort n 0x128) 0 32 := fun v => by
    rw [fieldOf, regOf_setReg_ne _ _ _ _ (by simp only [rPort]; omega), fieldOf]
  rw [ends_ctr64, ends_ctr32, hword.1, hword.2, hread, State.heardCodes]

/-- MACsec passes a frame (check 4). -/
theorem ends_secCheck {n : Nat} {w : Wire} {k : Bool → Prog} (h : secOk s n w = true) :
    Ends (secCheck n w.sec k) s Q = Ends (k true) (s.setPort n (pnSeen (portOf s n) w)) Q := by
  cases ht : w.sec with
  | none =>
    rw [secOk, ht] at h
    cases h
  | some t =>
    simp only [secOk, ht, Bool.and_eq_true, decide_eq_true_eq] at h
    obtain ⟨⟨⟨hicv, hsa⟩, hpn⟩, hwin⟩ := h
    have hlast : ¬ (t.pn.toNat = lastPn && (portOf s n).newSa.isNone) = true := by simp [Nat.ne_of_lt hpn]
    simp only [secCheck, bind_apply, look_apply, ends_look, hicv, hsa, Bool.not_true, Bool.or_self, Bool.false_eq_true, if_false,
      Nat.not_lt.2 hwin, ends_modPort, if_neg hlast, pure_apply, pnSeen, ht]

/-- Checks 1 to 5 pass a frame: its codewords are counted, and its packet number has been seen. -/
theorem ends_frontRx {n len : Nat} {w : Wire} {known : Bool} {k : Bool → Prog} (h : Passes s n len w true false) (hknown : known = true) :
    Ends (frontRx n len w true false known k) s Q = Ends (k true) ((s.heardCodes n w).setPort n (pnSeen (portOf s n) w)) Q := by
  obtain ⟨hhears, hfcs, hlen, htag, hsec⟩ := h
  have hsec : secOk s n w = true := hsec.resolve_left Bool.false_ne_true
  have hport : portOf (s.heardCodes n w) n = portOf s n := rfl
  have hsec' : secOk (s.heardCodes n w) n w = true := by
    rw [← hsec, secOk, hport, fieldOf_heardCodes (by simp only [rPort]; omega), secOk]
  simp only [frontRx, bind_apply, look_apply, ends_look, hhears, Bool.not_true, Bool.false_eq_true, if_false, ends_heardCodes, hfcs,
    Nat.not_lt.2 hlen, htag, Bool.not_false, if_true, ends_secCheck hsec', hport, pure_apply, hknown]

/-- The room of a receive buffer depends on what it holds, on the priorities that have sent XOFF and on the flow control that is set up. -/
theorem rxSpace_congr {t : State} {n : Nat} (hused : (portOf t n).rxUsed = (portOf s n).rxUsed) (hxoff : (portOf t n).xoff = (portOf s n).xoff)
    (hcfg : ∀ lo len, fieldOf t (rPort n 0x30) lo len = fieldOf s (rPort n 0x30) lo len) (v len : Nat) :
    pfcEn t n v = pfcEn s n v ∧ sharedFree t n = sharedFree s n ∧ rxRoom t n v len = rxRoom s n v len := by
  refine ⟨?_, ?_, ?_⟩
  · rw [pfcEn, hcfg, pfcEn]
  · rw [sharedFree, headroom, hcfg, hcfg, sharedUsed, hused, sharedFree, headroom, sharedUsed]
  · rw [rxRoom, headroom, hcfg, hcfg, sharedUsed, hused, hxoff, rxRoom, headroom, sharedUsed]

/-- The state in which a frame has been accepted at a port and for its virtual channel. -/
def State.frameCounted (s : State) (n v len : Nat) : State :=
  let a := s.setReg (rPort n 0x110) (((regOf s (rPort n 0x110)).toNat + 1) % 2 ^ 64)
  let b := a.setReg (rPort n 0x118) (((regOf a (rPort n 0x118)).toNat + len) % 2 ^ 64)
  b.setReg (rVc n v 8) (((regOf b (rVc n v 8)).toNat + 1) % 2 ^ 64)

/-- The receive buffer has given up what a frame says; what is written to the port next stands as if it had been written to the state before. -/
theorem ends_drainRx {n : Nat} {dr : List Nat} {k : Unit → Prog} (hp : Rising s.ports)
    (hQ : ∀ u, portOf u n = portOf (drainedState s n dr) n → u.regs = s.regs → (∀ d, u.setPort n d = s.setPort n d) → Ends (k ()) u Q) :
    Ends (drainRx n dr k) s Q := by
  cases dr with
  | nil => exact hQ s (portOf_setPort_same _ _ hp).symm rfl fun _ => rfl
  | cons x dr => exact hQ (drainedState s n (x :: dr)) rfl rfl fun d => setPort_setPort _ _ _ hp

/-- Check 6 passes a frame: it is in the receive buffer, and counted. -/
theorem ends_rxBuffer {n v len : Nat} {w : Wire} {k : Bool → Prog} (hroom : roomFor s n v len w = true) (hp : Rising s.ports)
    (hQ : Ends (k true) ((s.setPort n (buffered (portOf s n) v len w)).frameCounted n v len) Q) :
    Ends (rxBuffer n v len w.drained k) s Q := by
  simp only [roomFor, Bool.and_eq_true] at hroom
  obtain ⟨hfree, hspace⟩ := hroom
  simp only [rxBuffer, bind_apply]
  refine ends_drainRx hp fun u hport hregs hset => ?_
  have hread : portOf u n = { portOf s n with rxUsed := afterDrain (portOf s n).rxUsed w.drained } :=
    hport.trans (portOf_setPort_same _ _ hp)
  obtain ⟨hpfc, hshared, hrx⟩ := rxSpace_congr (s := drainedState s n w.drained) (t := u) (by rw [hport]) (by rw [hport])
    (fun lo len => by rw [fieldOf, regOf, hregs, fieldOf]; rfl) v len
  have hquiet : (pfcEn u n v && sharedFree u n < 9216 && !(portOf u n).xoff.contains v) = false := by
    have hen : pfcEn (drainedState s n w.drained) n v = pfcEn s n v := rfl
    rw [hpfc, hen, hshared, hread]
    simp only [Bool.or_eq_true, Bool.not_eq_true', decide_eq_true_eq] at hfree
    rcases hfree with (h | h) | h
    · rw [h]; rfl
    · rw [decide_eq_false (Nat.not_lt.2 h), Bool.and_false, Bool.false_and]
    · simp only [h, Bool.not_true, Bool.and_false]
  simp only [look_apply, ends_look, hquiet, Bool.false_eq_true, if_false, pure_apply, hrx, hspace, Bool.not_true, ends_modPort, hset, countRx,
    bind_apply, ends_ctr64]
  rw [hread]
  exact hQ

/-- A frame has come in: its port has it, and counts it. -/
structure FrameIn (s u : State) (f : Sys2Proof.Frame) : Prop where
  counted : RxCounted s u f
  ports : u.ports = (heard s f).ports
  regs : RegsBut s u (rxRegs f.port f.pcp)
  mem : u.mem = s.mem
  only : OnlyChanges s u [.ports, .regs]

/-- What a register outside the counts of an accepted frame reads. -/
theorem regOf_frameCounted {n v len off : Nat} (h : off ≠ rPort n 0x110 ∧ off ≠ rPort n 0x118 ∧ off ≠ rVc n v 8) :
    regOf (s.frameCounted n v len) off = regOf s off := by
  rw [State.frameCounted, regOf_setReg_ne _ _ _ _ h.2.2, regOf_setReg_ne _ _ _ _ h.2.1, regOf_setReg_ne _ _ _ _ h.1]

theorem ofNat_add_mod (a : Word) (n : Nat) : BitVec.ofNat 64 ((a.toNat + n) % 2 ^ 64) = a + BitVec.ofNat 64 n := by
  refine BitVec.eq_of_toNat_eq ?_
  simp [BitVec.toNat_add]

theorem rVc_ne_rPort (n v off : Nat) (h : off < 0x200) : rPort n off ≠ rVc n v 8 := by simp only [rVc, rPort]; omega
theorem rPort_ne {n a b : Nat} (h : a ≠ b) : rPort n a ≠ rPort n b := by simp only [rPort]; omega

/-- The frames, the bytes and the frames of the virtual channel that are counted (R143). -/
theorem counts_frameCounted (n v len : Nat) (hr : Rising s.regs) :
    regOf (s.frameCounted n v len) (rPort n 0x110) = regOf s (rPort n 0x110) + 1 ∧
      regOf (s.frameCounted n v len) (rPort n 0x118) = regOf s (rPort n 0x118) + BitVec.ofNat 64 len ∧
      regOf (s.frameCounted n v len) (rVc n v 8) = regOf s (rVc n v 8) + 1 := by
  have h1 := setReg_rising s (rPort n 0x110) (((regOf s (rPort n 0x110)).toNat + 1) % 2 ^ 64) hr
  have hone : (1 : Word) = BitVec.ofNat 64 1 := rfl
  simp only [State.frameCounted]
  refine ⟨?_, ?_, ?_⟩
  · rw [regOf_setReg_ne _ _ _ _ (rVc_ne_rPort _ _ _ (by decide)), regOf_setReg_ne _ _ _ _ (rPort_ne (by decide)), regOf_setReg_same _ _ _ hr,
      ofNat_add_mod, hone]
  · rw [regOf_setReg_ne _ _ _ _ (rVc_ne_rPort _ _ _ (by decide)), regOf_setReg_same _ _ _ h1, ofNat_add_mod,
      regOf_setReg_ne _ _ _ _ (rPort_ne (by decide))]
  · rw [regOf_setReg_same _ _ _ (setReg_rising _ _ _ h1), ofNat_add_mod, regOf_setReg_ne _ _ _ _ (rVc_ne_rPort _ _ _ (by decide)).symm,
      regOf_setReg_ne _ _ _ _ (rVc_ne_rPort _ _ _ (by decide)).symm, hone]

/-- The codewords that are counted (R143). -/
theorem counts_heardCodes (n : Nat) (w : Wire) (hr : Rising s.regs) :
    regOf (s.heardCodes n w) (rPort n 0x120) = regOf s (rPort n 0x120) + BitVec.ofNat 64 w.corr.toNat ∧
      fieldOf (s.heardCodes n w) (rPort n 0x128) 0 32 = min 0xFFFFFFFF (fieldOf s (rPort n 0x128) 0 32 + w.uncorr.toNat) ∧
      fieldOf (s.heardCodes n w) (rPort n 0x128) 32 32 = fieldOf s (rPort n 0x128) 32 32 := by
  have h1 := setReg_rising s (rPort n 0x120) (((regOf s (rPort n 0x120)).toNat + w.corr.toNat) % 2 ^ 64) hr
  rw [State.heardCodes]
  refine ⟨?_, ?_, ?_⟩
  · rw [State.setField, regOf_setReg_ne _ _ _ _ (rPort_ne (by decide)), regOf_setReg_same _ _ _ hr, ofNat_add_mod]
  · rw [fieldOf_setField_same _ _ _ _ _ h1 (by decide)]
    exact Nat.mod_eq_of_lt (by omega)
  · rw [fieldOf_setField_other _ _ _ _ _ _ _ h1 (by decide) (.inl (by decide)), fieldOf, regOf_setReg_ne _ _ _ _ (rPort_ne (by decide)), fieldOf]

theorem rising_heardCodes (n : Nat) (w : Wire) (hr : Rising s.regs) : Rising (s.heardCodes n w).regs :=
  setField_rising _ _ _ _ _ (setReg_rising _ _ _ hr)

theorem mem_frameCounted (s : State) (n v len : Nat) (w : Wire) (d : Port) :
    (((s.heardCodes n w).setPort n d).frameCounted n v len).mem = s.mem := rfl

theorem regOf_setPort (s : State) (n : Nat) (d : Port) (off : Nat) : regOf (s.setPort n d) off = regOf s off := rfl
theorem fieldOf_setPort (s : State) (n : Nat) (d : Port) (off lo len : Nat) : fieldOf (s.setPort n d) off lo len = fieldOf s off lo len := rfl
theorem ports_frameCounted (s : State) (n v len : Nat) : (s.frameCounted n v len).ports = s.ports := rfl
theorem ports_setPort_heardCodes (s : State) (n k : Nat) (w : Wire) (d : Port) :
    ((s.heardCodes n w).setPort k d).ports = (s.setPort k d).ports := rfl
theorem onlyChanges_frameCounted (s : State) (n v len : Nat) : OnlyChanges s (s.frameCounted n v len) [.regs] :=
  ((onlyChanges_setReg _ _ _).trans (onlyChanges_setReg _ _ _)).trans (onlyChanges_setReg _ _ _)
theorem onlyChanges_heardCodes (s : State) (n : Nat) (w : Wire) : OnlyChanges s (s.heardCodes n w) [.regs] :=
  (onlyChanges_setReg _ _ _).trans (onlyChanges_setReg _ _ _)

/-- The counters once a frame has been accepted (R143). -/
theorem rxCounted_frameCounted {n v len : Nat} {w : Wire} (d : Port) (hr : Rising s.regs) :
    PortRx s (((s.heardCodes n w).setPort n d).frameCounted n v len) n len w ∧
      regOf (((s.heardCodes n w).setPort n d).frameCounted n v len) (rVc n v 8) = regOf s (rVc n v 8) + 1 ∧
      RegsBut s (((s.heardCodes n w).setPort n d).frameCounted n v len) (rxRegs n v) := by
  obtain ⟨hframes, hbytes, hvc⟩ := counts_frameCounted (s := (s.heardCodes n w).setPort n d) n v len (rising_heardCodes n w hr)
  obtain ⟨hcorr, huncorr, hhigh⟩ := counts_heardCodes n w hr
  have hcodes : ∀ off, off ≠ rPort n 0x120 ∧ off ≠ rPort n 0x128 → regOf ((s.heardCodes n w).setPort n d) off = regOf s off :=
    fun off h => (regOf_setPort _ _ _ _).trans (regOf_heardCodes h)
  have hkeep : ∀ a, a < 0x200 → a ≠ 0x110 → a ≠ 0x118 → regOf (((s.heardCodes n w).setPort n d).frameCounted n v len) (rPort n a) =
      regOf (s.heardCodes n w) (rPort n a) := fun a hlow h110 h118 =>
    (regOf_frameCounted ⟨rPort_ne h110, rPort_ne h118, rVc_ne_rPort _ _ _ hlow⟩).trans (regOf_setPort _ _ _ _)
  refine ⟨⟨?_, ?_, ?_, ?_, ?_⟩, ?_, fun off hoff => ?_⟩
  · rw [hframes, hcodes _ ⟨rPort_ne (by decide), rPort_ne (by decide)⟩]
  · rw [hbytes, hcodes _ ⟨rPort_ne (by decide), rPort_ne (by decide)⟩]
  · rw [hkeep _ (by decide) (by decide) (by decide), hcorr]
  · rw [fieldOf, hkeep _ (by decide) (by decide) (by decide), ← huncorr, fieldOf]
  · rw [fieldOf, hkeep _ (by decide) (by decide) (by decide), ← hhigh, fieldOf]
  · rw [hvc, hcodes _ ⟨(rVc_ne_rPort _ _ _ (by decide)).symm, (rVc_ne_rPort _ _ _ (by decide)).symm⟩]
  · simp only [rxRegs, portRxRegs, List.mem_cons, List.not_mem_nil, or_false, not_or] at hoff
    obtain ⟨hvc, h110, h118, h120, h128⟩ := hoff
    rw [regOf_frameCounted ⟨h110, h118, hvc⟩, hcodes off ⟨h120, h128⟩]

theorem rxUsed_pnSeen (d : Port) (w : Wire) : (pnSeen d w).rxUsed = d.rxUsed := by
  rw [pnSeen]
  split <;> rfl

theorem xoff_pnSeen (d : Port) (w : Wire) : (pnSeen d w).xoff = d.xoff := by
  rw [pnSeen]
  split <;> rfl

/-- Receive checks 1 to 6 pass a frame. -/
theorem ends_netRx {f : Sys2Proof.Frame} {pcps : List Nat} {k : Bool → Prog} (hheard : Passes s f.port (frameLen f) f.wire true false)
    (hknown : udpKnown s f.wire (oxtPort s) pcps = true) (hroom : roomFor s f.port f.pcp (frameLen f) f.wire = true) (hc : Canon s)
    (hQ : ∀ u, FrameIn s u f → Ends (k true) u Q) : Ends (netRx f pcps k) s Q := by
  set a := (s.heardCodes f.port f.wire).setPort f.port (pnSeen (portOf s f.port) f.wire) with ha
  have hpa : Rising a.ports := rising_setPort _ _ hc.risingPorts
  have hread : portOf a f.port = pnSeen (portOf s f.port) f.wire := portOf_setPort_same _ _ (by exact hc.risingPorts)
  have hroom' : roomFor a f.port f.pcp (frameLen f) f.wire = true := by
    have hread' : portOf (drainedState a f.port f.wire.drained) f.port =
        { pnSeen (portOf s f.port) f.wire with rxUsed := afterDrain (portOf s f.port).rxUsed f.wire.drained } := by
      rw [portOf_setPort_same _ _ hpa, hread, rxUsed_pnSeen]
    have hread0 := portOf_setPort_same { portOf s f.port with rxUsed := afterDrain (portOf s f.port).rxUsed f.wire.drained } f.port hc.risingPorts
    obtain ⟨hpfc, hshared, hrx⟩ := rxSpace_congr (s := drainedState s f.port f.wire.drained) (t := drainedState a f.port f.wire.drained)
      (n := f.port) (by rw [hread', hread0]) (by rw [hread', hread0]; exact xoff_pnSeen _ _)
      (fun lo len => by
        rw [fieldOf_setPort, ha, fieldOf_setPort, fieldOf_setPort, fieldOf_heardCodes ⟨rPort_ne (by decide), rPort_ne (by decide)⟩])
      f.pcp (frameLen f)
    have hen : pfcEn a f.port f.pcp = pfcEn s f.port f.pcp := by
      rw [pfcEn, pfcEn, ha, fieldOf_setPort, fieldOf_heardCodes ⟨rPort_ne (by decide), rPort_ne (by decide)⟩]
    have hxoff : (portOf a f.port).xoff = (portOf s f.port).xoff := by rw [hread, xoff_pnSeen]
    rw [roomFor] at hroom ⊢
    rw [hen, hshared, hrx, hxoff]
    exact hroom
  simp only [netRx, bind_apply, look_apply, ends_look, ends_frontRx hheard hknown, if_true]
  refine ends_rxBuffer hroom' hpa (hQ _ ?_)
  rw [hread, setPort_setPort _ _ _ (by exact hc.risingPorts)]
  obtain ⟨hport, hvc, hregs⟩ := rxCounted_frameCounted (n := f.port) (v := f.pcp) (len := frameLen f) (w := f.wire)
    (buffered (pnSeen (portOf s f.port) f.wire) f.pcp (frameLen f) f.wire) hc.rising
  refine ⟨⟨hport, hvc⟩, ?_, hregs, mem_frameCounted _ _ _ _ _ _, ?_⟩
  · rw [ports_frameCounted, ports_setPort_heardCodes]
  · exact (((onlyChanges_heardCodes _ _ _).mono (by decide)).trans ((onlyChanges_setPort _ _ _).mono (by decide))).trans
      ((onlyChanges_frameCounted _ _ _ _).mono (by decide))

end Sys2Proof.Machine
end

section
/-!
SUPPORT. A frame of a share: its launch, its place, its acknowledgement.
-/

namespace Sys2Proof.Machine

open Sys2Proof.Claims

variable {s : State} {Q : State → Prop}

/-! ## The launch of a frame (R107) -/

/-- A frame names the current window of a group, and its only launch. -/
structure LaunchNamed (s : State) (f : Sys2Proof.Frame) (h r : Nat) (l : Launch) : Prop where
  group : f.xgroup.toNat = h
  on : groupOn s h = true
  ver : f.ver2 = dVer2 (groupOf s h).desc
  part : f.ver2 = true ∨ f.part.val = dPart (groupOf s h).desc
  job : jobCurrent s (dPart (groupOf s h).desc) f.jobGen.toNat false = true
  rank : genRank (genOf s l) f.srcNode.toNat = some r
  wins : (groupOf s h).wins.getLast?.map (·.1) = some l.window
  names : names f l.window
  launches : s.launches = [l]
  lh : l.h = h
  phase : l.phase = .opened ∨ l.phase = .closed
  notPast : l.past = false
  windowed : l.stream = false

theorem ends_acceptGroup {f : Sys2Proof.Frame} {h r : Nat} {l : Launch} {k : Option Nat → Prog} (hn : LaunchNamed s f h r l) :
    Ends (acceptGroup f false k) s Q = Ends (k (some h)) s Q := by
  have hpart : (if f.ver2 then dPart (groupOf s h).desc else f.part.val) = dPart (groupOf s h).desc := by
    rcases hn.part with hv | hp
    · rw [if_pos hv]
    · rw [hp, ite_self]
  have hsame : ¬ (dPart (groupOf s h).desc ≠ dPart (groupOf s h).desc || f.ver2 ≠ dVer2 (groupOf s h).desc) = true := by simp [hn.ver]
  simp only [acceptGroup, bind_apply, look_apply, ends_look, hn.group, hpart, hn.job, hn.on, Bool.not_true, Bool.false_eq_true, if_false,
    if_neg hsame, pure_apply]

theorem ends_acceptWindow {f : Sys2Proof.Frame} {h r : Nat} {l : Launch} {k : Option Launch → Prog} (hn : LaunchNamed s f h r l) :
    Ends (acceptWindow h f.ver2 false f.window.toNat k) s Q = Ends (k (some l)) s Q := by
  obtain ⟨v, hlast, hv⟩ : ∃ v, (groupOf s h).wins.getLast? = some v ∧ v.1 = l.window := by simpa using hn.wins
  have hsame : (if f.ver2 then l.window % 65536 == f.window.toNat % 65536 else l.window == f.window.toNat) = true := by
    have hnames := hn.names
    rw [names] at hnames
    split at hnames
    next hver => simpa [hver] using hnames
    next hver => simpa [hver] using hnames
  have hcurrent : ((groupOf s h).wins.any fun w => (if f.ver2 then w.1 % 65536 == f.window.toNat % 65536 else w.1 == f.window.toNat) &&
      (some w == (groupOf s h).wins.getLast? || ftNs s < w.2)) = true :=
    List.any_eq_true.2 ⟨v, List.mem_of_getLast? hlast, by rw [hv, hsame, hlast]; simp⟩
  have hfind : (launchesOf s h).find? (fun l => (l.phase == .opened || l.phase == .closed) && !l.past && !l.stream &&
      (if f.ver2 then l.window % 65536 == f.window.toNat % 65536 else l.window == f.window.toNat)) = some l := by
    have hphase : (l.phase == .opened || l.phase == .closed) = true := by rcases hn.phase with h | h <;> simp [h]
    simp [launchesOf, hn.launches, hn.lh, hphase, hn.notPast, hn.windowed, hsame]
  simp only [acceptWindow, bind_apply, look_apply, ends_look, Bool.false_eq_true, if_false, hcurrent, Bool.not_true, hfind, pure_apply]

theorem ends_acceptFrame {f : Sys2Proof.Frame} {h r : Nat} {l : Launch} {k : Option (Launch × Nat) → Prog} (hn : LaunchNamed s f h r l) :
    Ends (acceptFrame f false k) s Q = Ends (k (some (l, r))) s Q := by
  simp only [acceptFrame, bind_apply, ends_acceptGroup hn, ends_acceptWindow hn, look_apply, ends_look, hn.rank, pure_apply]

/-! ## The share of a launch -/

/-- The state with one launch. -/
def State.launched (s : State) (l : Launch) : State := { s with launches := [l] }

/-- A launch with one share to come. -/
def Launch.share (l : Launch) (x : RxShare) : Launch := { l with rx := [x] }

theorem sameL_share (l : Launch) (x : RxShare) : sameL (l.share x) l = true := by simp [sameL, Launch.share]
theorem sameL_share' (l : Launch) (x : RxShare) : sameL l (l.share x) = true := by simp [sameL, Launch.share]

theorem putMem_launched (s : State) (l : Launch) (a : Nat) (bs : List Byte) : (s.launched l).putMem a bs = (s.putMem a bs).launched l := by
  rw [State.putMem, State.memAfter, State.putMem, State.memAfter]
  rfl

/-- The only share of the only launch is the one that an update names. -/
theorem ends_modRx_only {l l' : Launch} {x : RxShare} {src : Nat} {g : RxShare → RxShare} {k : Unit → Prog} (hl : s.launches = [l'])
    (hsame : sameL l' l = true) (hrx : l'.rx = [x]) (hsrc : x.src = src) :
    Ends (modRx l src g k) s Q = Ends (k ()) (s.launched (l'.share (g x))) Q := by
  rw [modRx, modL, ends_modLaunches, hl]
  simp [hsame, hrx, hsrc, State.launched, Launch.share]

theorem ends_nowL_only {l l' : Launch} {k : Launch → Prog} (hl : s.launches = [l']) (hsame : sameL l l' = true) :
    Ends (nowL l k) s Q = Ends (k l') s Q := by
  simp only [nowL, bind_apply, look_apply, ends_look, hl, List.find?_cons_of_pos hsame, Option.getD_some, pure_apply]

/-- A share of one frame once that has come by a port. -/
def placedShare (x : RxShare) (n : Nat) : RxShare := { x with lastPort := some n, placed := [0] }

/-- The one frame of a share comes: its bytes are in the buffer, and it counts (R105). -/
theorem ends_placeFrame_first {l : Launch} {x : RxShare} {f : Sys2Proof.Frame} {k : Bool → Prog} (hl : s.launches = [l]) (hrx : l.rx = [x])
    (hdisc : x.discarded = false) (hplaced : x.placed = []) (hpieces : x.pieces = []) (hform : x.form ≠ 3) (hoff : f.offset = 0)
    (hpsn : f.psn = 0) (hlen : f.payload.length = x.bytes) (htime : ftNs s ≤ slotEnd (genOf s l).1 l (roundOfSrc (genOf s l).1 x.src))
    (hdir : s.fab.dir = []) (hclean : CleanMem s) :
    Ends (placeFrame l x f k) s Q = Ends (k true) (((s.putMem x.buf f.payload).setReg (rXg l.h 8)
      (((regOf s (rXg l.h 8)).toNat + 1) % 2 ^ 64)).launched (l.share (placedShare x f.port))) Q := by
  have hoff' : f.offset.toNat = 0 := by rw [hoff]; rfl
  have hpsn' : f.psn.toNat = 0 := by rw [hpsn]; rfl
  have htakes : ¬ (x.discarded || x.bytes < f.offset.toNat + f.payload.length) = true := by
    rw [hdisc, hoff', Nat.zero_add, hlen]
    simp
  have hnew : x.placed.contains f.psn.toNat = false := by rw [hplaced]; rfl
  have hlast : ¬ (!l.stream && slotEnd (genOf s l).1 l (roundOfSrc (genOf s l).1 x.src) < ftNs s) = true := by simp [Nat.not_lt.2 htime]
  obtain ⟨y, hy⟩ : ∃ y : RxShare, { x with lastPort := some f.port.val } = y := ⟨_, rfl⟩
  have hput : ∀ m : Unit → Prog, Ends (putBytes x.buf f.payload m) (s.launched (l.share y)) Q =
      Ends (m ()) ((s.putMem x.buf f.payload).launched (l.share y)) Q := fun m =>
    (ends_putBytes_clean (s := s.launched (l.share y)) hclean hdir _ _ _).trans (by rw [putMem_launched])
  have halive : ∀ (rs : List (Nat × Nat)) (m : Bool → Prog), Ends (aliveRuns (ndOf f.port) (f.port.val % 8) (some l.part) rs m)
      (s.launched (l.share y)) Q = Ends (m true) (s.launched (l.share y)) Q := fun rs m =>
    ends_aliveRuns_clean (s := s.launched (l.share y)) hclean _ _ _ _ _
  have hlA : ((s.putMem x.buf f.payload).launched (l.share y)).launches = [l.share y] := rfl
  have hsrc : y.src = x.src := by rw [← hy]
  have hgen : genOf (s.launched (l.share y)) l = genOf s l := rfl
  have hft : ftNs (s.launched (l.share y)) = ftNs s := rfl
  have hwhere : pieceBytes x 0 f.payload = [(x.buf, f.payload)] := by rw [pieceBytes, hpieces]; rfl
  simp only [placeFrame, bind_apply, if_neg htakes, ends_modRx_only hl (sameL_self l) hrx rfl, hy, hnew, Bool.false_eq_true,
    if_false, look_apply, ends_look, hform, ne_eq, not_false_eq_true, if_true]
  simp only [hoff', hwhere, halive, List.forIn_cons, List.forIn_nil, bind_apply, hput, ends_modRx_only hlA (sameL_share l y) rfl hsrc, hpsn',
    ends_ctr64, hgen, hft, if_neg hlast, pure_apply]
  rw [← hy, hplaced]
  rfl

/-- A share that misses nothing is delivered (R99). -/
theorem ends_checkDelivered_whole {l l' : Launch} {x : RxShare} {k : Unit → Prog} (hl : s.launches = [l']) (hsame : sameL l' l = true)
    (hsame' : sameL l l' = true) (hrx : l'.rx = [x]) (hdel : x.delivered = false) (hdisc : x.discarded = false) (hform : x.form ≠ 0)
    (hmiss : missing x = []) (hkind : l.kind = .coll) :
    Ends (checkDelivered l x.src k) s Q = Ends (k ()) (s.launched (l'.share { x with delivered := true })) Q := by
  have hfind : [x].find? (fun y => y.src == x.src) = some x := by simp
  simp only [checkDelivered, bind_apply, look_apply, ends_look, ends_nowL_only hl hsame', hrx, hfind, hdel, hdisc, Bool.or_self,
    Bool.false_eq_true, if_false, hform, decide_false, Bool.false_and, hmiss, List.isEmpty_nil, if_true, deliver,
    ends_modRx_only hl hsame hrx rfl, hkind, reduceCtorEq, pure_apply]

/-- A share is acknowledged on the port of its last frame (R105). -/
theorem ends_sendAck_last {l l' : Launch} {x : RxShare} {typ round n : Nat} {k : Unit → Prog} (hl : s.launches = [l'])
    (hsame : sameL l l' = true) (hrx : l'.rx = [x]) (hpath : hasPath s l.h (genOf s l) x.src = true) (hlast : x.lastPort = some n)
    (hup : linkUp s n = true) (hnode : netNode s ≠ 0xFFFF) (hstream : l.stream = false) :
    Ends (sendAck l x.src typ round k) s Q = Ends (k ()) (s.setPort n { portOf s n with
      txq := (portOf s n).txq ++ [{ vc := 6, len := oxtLen (ackFrame s l x typ n round), msg := .oxt (ackFrame s l x typ n round) }] }) Q := by
  have hfind : [x].find? (fun y => y.src == x.src) = some x := by simp
  simp only [sendAck, bind_apply, look_apply, ends_look, ends_nowL_only hl hsame, hrx, hfind, hpath, Bool.not_true, Bool.false_eq_true, if_false,
    ackPort, hlast, hup, if_true, pure_apply, hstream, sendOxt, hnode, ne_eq, not_false_eq_true, pushTx, ends_modPort, ackFrame]

end Sys2Proof.Machine
end

section
/-!
SUPPORT. The reduction of the one frame of an INT32 sum between two ranks, and O37.
-/

namespace Sys2Proof.Machine

open Sys2Proof.Claims

variable {s : State} {Q : State → Prop}

/-! ## Elements (R110–R112) -/

/-- The sum of two INT32 codes, without a fault: saturated, and good. -/
theorem reduceElem_int_two (big a b : Nat) :
    (reduceElem 0 0xA 0xA big [] [a, b]).1.1 = satSum a b ∧ (reduceElem 0 0xA 0xA big [] [a, b]).2 = .good := by
  have ha := BitVec.toInt_lt (x := BitVec.ofNat 32 a)
  have ha' := BitVec.le_toInt (x := BitVec.ofNat 32 a)
  have hb := BitVec.toInt_lt (x := BitVec.ofNat 32 b)
  have hb' := BitVec.le_toInt (x := BitVec.ofNat 32 b)
  have hsum : sumExact [] [(BitVec.ofNat 32 a).toInt, (BitVec.ofNat 32 b).toInt] =
      ((BitVec.ofNat 32 a).toInt + (BitVec.ofNat 32 b).toInt, .good) := by
    rw [sumExact, sumChecked_none (by simp) (by simp; omega) (fun _ => rfl)]
    simp
  simp only [reduceElem, if_true, List.map_cons, List.map_nil, hsum, satSum, and_self]

/-! ## Loops over a numbered list -/

/-- A loop over a numbered list keeps an invariant that says how far it has come. -/
theorem ends_forIn_zipIdx' {α β : Type} (l : List α) {f : α × Nat → β → Act (ForInStep β)} (I : Nat → State → β → Prop) {k : β → Prog} :
    ∀ (n : Nat) (b : β) (s : State),
    (∀ j (hj : j < l.length) t r, I (n + j) t r → ∀ (m : ForInStep β → Prog), (∀ u r', I (n + j + 1) u r' → Ends (m (.yield r')) u Q) →
      Ends (f (l[j], n + j) r m) t Q) →
    I n s b → (∀ t r, I (n + l.length) t r → Ends (k r) t Q) → Ends ((forIn (l.zipIdx n) b f : Act β) k) s Q := by
  induction l with
  | nil => exact fun n b s _ h hQ => hQ s b h
  | cons x l ih =>
    intro n b s hstep h hQ
    rw [List.zipIdx_cons, List.forIn_cons, bind_apply]
    refine hstep 0 (by simp) s b h _ fun u r' hu => ?_
    refine ih (n + 1) r' u (fun j hj t r ht m hm => ?_) hu fun t r ht => hQ t r ?_
    · have hnext := hstep (j + 1) (by simpa using hj) t r (by rwa [show n + (j + 1) = n + 1 + j by omega]) m
      rw [show n + (j + 1) = n + 1 + j by omega] at hnext
      exact hnext hm
    · rwa [List.length_cons, show n + (l.length + 1) = n + 1 + l.length by omega]

theorem ends_forIn_zipIdx {α β : Type} {l : List α} {f : α × Nat → β → Act (ForInStep β)} (I : Nat → State → β → Prop) {b : β} {k : β → Prog}
    (hstep : ∀ j (hj : j < l.length) t r, I j t r → ∀ (m : ForInStep β → Prog), (∀ u r', I (j + 1) u r' → Ends (m (.yield r')) u Q) →
      Ends (f (l[j], j) r m) t Q)
    (h : I 0 s b) (hQ : ∀ t r, I l.length t r → Ends (k r) t Q) : Ends ((forIn l.zipIdx b f : Act β) k) s Q :=
  ends_forIn_zipIdx' l I 0 b s (fun j hj t r ht m hm => by simpa using hstep j hj t r (by simpa using ht) m (by simpa using hm)) h
    fun t r ht => hQ t r (by simpa using ht)

/-! ## The elements of a block -/

/-- The first `m` elements from `dst` on are the saturated sums of those from `src` and `buf` on; nothing else has changed but the flags of
partition `p`. -/
structure Summed (s : State) (p src buf dst m : Nat) (u : State) : Prop where
  sums : ∀ j, j < m → memNat u (dst + 4 * j) 4 = satSum (memNat s (src + 4 * j) 4) (memNat s (buf + 4 * j) 4)
  mem : MemBut s u dst (4 * m)
  regs : RegsBut s u [rPart p 0x108]
  only : OnlyChanges s u [.mem, .regs]
  rising : Rising u.mem

theorem satSum_lt (a b : Nat) : satSum a b < 2 ^ 32 := BitVec.isLt _

/-- One element more is written. -/
theorem Summed.put {p src buf dst m : Nat} {u : State} (h : Summed s p src buf dst m u) :
    Summed s p src buf dst (m + 1) (u.putMem (dst + 4 * m)
      (natBytes 4 (satSum (memNat s (src + 4 * m) 4) (memNat s (buf + 4 * m) 4)))) := by
  obtain ⟨hsums, hmem, hregs, honly, hr⟩ := h
  refine ⟨fun j hj => ?_, fun x hx => ?_, hregs, honly.trans ((onlyChanges_putMem u _ _).mono (by decide)), rising_putMem _ _ hr⟩
  · rcases Nat.lt_succ_iff_lt_or_eq.1 hj with hlt | rfl
    · rw [memNat_putMem_apart u (by rw [length_natBytes]; omega), hsums j hlt]
    · have hread := memNat_putMem_part (s := u) hr (dst + 4 * j) (satSum (memNat s (src + 4 * j) 4) (memNat s (buf + 4 * j) 4))
        (j := 0) (n := 4) (N := 4) le_rfl
      rw [Nat.add_zero] at hread
      rw [hread, bitsOf, Nat.mul_zero, Nat.shiftRight_zero]
      exact Nat.mod_eq_of_lt (satSum_lt _ _)
  · exact (memBut_putMem u _ _ x (by rw [length_natBytes]; omega)).trans (hmem x (by omega))

/-- The flags of the partition do not matter to it. -/
theorem Summed.flags {p src buf dst m : Nat} {u v : State} (h : Summed s p src buf dst m u) (hv : RegsChange (· = rPart p 0x108) u v) :
    Summed s p src buf dst m v := by
  obtain ⟨hsums, hmem, hregs, honly, hr⟩ := h
  have hsame : ∀ a, memAt v a = memAt u a := hv.onlyChanges .mem (by decide)
  refine ⟨fun j hj => (memNat_congr fun i _ => hsame _).trans (hsums j hj), fun x hx => (hsame x).trans (hmem x hx), fun off hoff => ?_,
    honly.trans (hv.onlyChanges.mono (by decide)), by rwa [hv.mem]⟩
  exact (hv.same off (by simpa using hoff)).trans (hregs off hoff)

/-- A value outside what has been written. -/
theorem Summed.memNat_apart {p src buf dst m a : Nat} {u : State} (h : Summed s p src buf dst m u) (ha : a + 4 ≤ dst ∨ dst + 4 * m ≤ a) :
    memNat u a 4 = memNat s a 4 := memNat_congr fun i hi => h.mem _ (by omega)

/-- What the reduction of a share rests on: an INT32 sum of the ranks' parts of `n` elements, of which this rank's lies at `src`, and the
other's in the buffer of its one share. -/
structure IntScatter (s : State) (c : Coll) (l : Launch) (g : XgGen) (y : RxShare) (n src : Nat) : Prop where
  op : coOp c.desc = 1
  red : coRed c.desc = 0
  inFmt : coIn c.desc = 0xA
  outFmt : coOut c.desc = 0xA
  count : coCount c.desc = n
  rx : l.rx = [y]
  srcAt : src = coSrc c.desc + dRank g.1 * n * 4
  srcApart : coDst c.desc = src ∨ src + 4 * n ≤ coDst c.desc ∨ coDst c.desc + 4 * n ≤ src
  bufApart : coDst c.desc + 4 * n ≤ y.buf ∨ y.buf + 4 * n ≤ coDst c.desc
  dir : s.fab.dir = []
  clean : CleanMem s

section
variable {c : Coll} {l : Launch} {g : XgGen} {y : RxShare} {n src : Nat} (hi : IntScatter s c l g y n src)
include hi

/-- An element of this rank's chunk goes into DST. -/
theorem ends_putReduced_own {m : Nat} (hm : m < n) {u : State} (hu : Summed s c.part src y.buf (coDst c.desc) m u) {k : Unit → Prog}
    (hQ : ∀ v, Summed s c.part src y.buf (coDst c.desc) (m + 1) v → Ends (k ()) v Q) :
    Ends (putReduced c g (dRank g.1 * n + m) (satSum (memNat s (src + 4 * m) 4) (memNat s (y.buf + 4 * m) 4)) k) u Q := by
  have hdiv : (dRank g.1 * n + m) / n = dRank g.1 := by
    rw [Nat.mul_comm, Nat.mul_add_div (by omega), Nat.div_eq_of_lt hm, Nat.add_zero]
  have hel : elBytes 0xA = 4 := by decide
  have hop : ¬ coOp c.desc = 0 := by rw [hi.op]; decide
  have hat : coDst c.desc + (dRank g.1 * n + m - dRank g.1 * n) * 4 = coDst c.desc + 4 * m := by omega
  simp only [putReduced, hi.outFmt, hel, hi.count, hdiv, if_neg hop, if_true, hat]
  rw [ends_putNat_clean (hu.only.cleanMem (by decide) hi.clean) (by rw [hu.only .fab (by decide), hi.dir])]
  exact hQ _ hu.put

/-- The codes of a block of this rank's chunk, and those that came for it, while the elements of the blocks before are summed. -/
theorem Summed.blockCodes {b i : Nat} (hb : 32 * b + 32 ≤ n) (hlt : i < 32) {u : State}
    (hu : Summed s c.part src y.buf (coDst c.desc) (32 * b) u) :
    (blockCodes u 0xA (coSrc c.desc) (dRank g.1 * n + 32 * b, 32)).getD i 0 = memNat s (src + 4 * (32 * b + i)) 4 ∧
      ((List.range 32).map fun i => memNat u (y.buf + (b * 32 + i) * 4) 4).getD i 0 = memNat s (y.buf + 4 * (32 * b + i)) 4 := by
  have hel : elBytes 0xA = 4 := by decide
  have hat : coSrc c.desc + (dRank g.1 * n + 32 * b + i) * 4 = src + 4 * (32 * b + i) := by rw [hi.srcAt]; ring
  have hcome : y.buf + (b * 32 + i) * 4 = y.buf + 4 * (32 * b + i) := by omega
  have hsrc := hi.srcApart
  have hbuf := hi.bufApart
  refine ⟨?_, ?_⟩
  · rw [Machine.blockCodes, List.getD_eq_getElem?_getD, List.getElem?_map, List.getElem?_range hlt, Option.map_some, Option.getD_some, if_pos hlt,
      hel, hat]
    exact hu.memNat_apart (by omega)
  · rw [List.getD_eq_getElem?_getD, List.getElem?_map, List.getElem?_range hlt, Option.map_some, Option.getD_some, hcome]
    exact hu.memNat_apart (by omega)

/-- The results of a block. -/
theorem Summed.reduceBlock {b : Nat} (big e : Nat) (hb : 32 * b + 32 ≤ n) {u : State}
    (hu : Summed s c.part src y.buf (coDst c.desc) (32 * b) u) :
    let res := reduceBlock 0 0xA 0xA big e 32 [] [Machine.blockCodes u 0xA (coSrc c.desc) (dRank g.1 * n + 32 * b, 32),
      (List.range 32).map fun i => memNat u (y.buf + (b * 32 + i) * 4) 4]
    res.length = 32 ∧ ∀ i (h : i < res.length),
      res[i].1.1 = satSum (memNat s (src + 4 * (32 * b + i)) 4) (memNat s (y.buf + 4 * (32 * b + i)) 4) ∧ res[i].2 = .good := by
  intro res
  have hlen : res.length = 32 := by simp [res, Machine.reduceBlock]
  refine ⟨hlen, fun i h => ?_⟩
  obtain ⟨hown, hcome⟩ := hu.blockCodes hi hb (hlen ▸ h)
  have hres : res[i] = reduceElem 0 0xA 0xA big [] [memNat s (src + 4 * (32 * b + i)) 4, memNat s (y.buf + 4 * (32 * b + i)) 4] := by
    simp only [res, Machine.reduceBlock, List.getElem_map, List.getElem_range, List.filter_nil, List.map_cons, List.map_nil, hown, hcome]
  rw [hres]
  exact reduceElem_int_two ..

omit hi in
/-- A sum without a fault is not reported. -/
theorem ends_reportSum_good {h p e : Nat} {k : Unit → Prog} : Ends (reportSum h p e .good k) s Q = Ends (k ()) s Q := rfl

/-- Block `b` of this rank's chunk is summed. -/
theorem ends_reduceOne_int {b nb : Nat} (hb : 32 * b + 32 ≤ n) {u : State} (hu : Summed s c.part src y.buf (coDst c.desc) (32 * b) u)
    {k : Bool → Prog} (hQ : ∀ v, Summed s c.part src y.buf (coDst c.desc) (32 * (b + 1)) v → Ends (k true) v Q) :
    Ends (reduceOne c l g 0 nb b (dRank g.1 * n + 32 * b, 32) [] k) u Q := by
  have hel : elBytes 0xA = 4 := by decide
  have hexp : expBytes 0xA nb = 0 := rfl
  simp only [reduceOne, bind_apply, look_apply, ends_look, hi.inFmt, hi.outFmt, hi.red, hi.rx, List.map_cons, List.map_nil, hexp, hel,
    Nat.mul_zero, Nat.add_zero]
  generalize List.foldl (max : Nat → Nat → Nat) _ _ = big
  obtain ⟨hlen, hres⟩ := hu.reduceBlock hi big (dRank g.1 * n + 32 * b) hb
  generalize Machine.reduceBlock _ _ _ _ _ _ _ _ = res at hlen hres ⊢
  refine ends_forIn_zipIdx (fun _ t _ => t = u) (fun j hj t r ht m hm => ?_) rfl fun t r ht => ?_
  · obtain ⟨-, hgood⟩ := hres j hj
    rw [bind_apply, hgood, ends_reportSum_good]
    exact hm t _ ht
  subst ht
  have hnone : ¬ (res.any fun y => y.2 == SumEnd.failed) = true := by
    simp only [List.any_eq_true, not_exists, not_and]
    intro z hz
    obtain ⟨i, hi', rfl⟩ := List.mem_iff_getElem.1 hz
    rw [(hres i hi').2]
    decide
  refine ends_partFlags_reg fun v hv => ?_
  rw [if_neg hnone, bind_apply]
  refine ends_forIn_zipIdx (fun j t _ => Summed s c.part src y.buf (coDst c.desc) (32 * b + j) t) (fun j hj t r ht m hm => ?_)
    (hu.flags hv) fun t r ht => hQ t ?_
  · rw [bind_apply, (hres j hj).1, add_assoc]
    exact ends_putReduced_own hi (by omega) ht fun v hv => hm v _ hv
  · rwa [hlen] at ht

/-- The blocks that a rank of two reduces, where its part is a whole number of blocks and fits one frame (R109, R115). -/
theorem frameBlocks_own (hn : dN g.1 = 2) (hr : dRank g.1 < 2) (hver : dVer2 g.1 = false) (hwhole : n % 32 = 0) (hfit : n ≤ 2016) :
    redBlocks g c.desc (dRank g.1) = (List.range (n / 32)).map (fun b => (dRank g.1 * n + 32 * b, 32)) ∧
      frameBlocks 0xA 0 (redBlocks g c.desc (dRank g.1)) = (List.range (n / 32)).map (fun b => (dRank g.1 * n + 32 * b, 32)) := by
  have hchunk : chunkOf c.desc 2 (dRank g.1) = (dRank g.1 * n, n) := by rw [chunkOf, if_pos hi.op, hi.count]
  have hblocks : blocksOf n = n / 32 := by rw [blocksOf]; omega
  have hred : redBlocks g c.desc (dRank g.1) = (List.range (n / 32)).map (fun b => (dRank g.1 * n + 32 * b, 32)) := by
    simp only [redBlocks, chunksOf_two hn hver hr, List.flatMap_cons, List.flatMap_nil, List.append_nil, hn, hchunk, hblocks]
    refine List.map_congr_left fun b hb => ?_
    have hb := List.mem_range.1 hb
    rw [Nat.min_eq_left (by omega)]
  have hbpf : bpf 0xA = 63 := by decide
  refine ⟨hred, ?_⟩
  rw [frameBlocks, hred, hbpf, Nat.zero_mul, List.drop_zero, List.take_of_length_le]
  rw [List.length_map, List.length_range]
  omega

/-- The one frame of this rank's chunk is reduced. -/
theorem ends_reduceFrame_int {u : State} {k : Unit → Prog} (hu : u.colls = [c]) (hs : { u with colls := [{ c with reduced := c.reduced ++ [0] }] } = s)
    (hn : dN g.1 = 2) (hr : dRank g.1 < 2) (hver : dVer2 g.1 = false) (hwhole : n % 32 = 0) (hfit : n ≤ 2016) (hm : Rising s.mem)
    (hQ : ∀ v, Summed s c.part src y.buf (coDst c.desc) n v → Ends (k ()) v Q) : Ends (reduceFrame c l g 0 [] k) u Q := by
  obtain ⟨-, hblocks⟩ := frameBlocks_own hi hn hr hver hwhole hfit
  simp only [reduceFrame, bind_apply, ends_modColl_only hu rfl, hs, hi.inFmt, hblocks, ends_consumeRuns_clean hi.clean, Bool.not_true,
    Bool.false_eq_true, if_false]
  have hstart : Summed s c.part src y.buf (coDst c.desc) (32 * 0) s :=
    ⟨fun j hj => absurd hj (by omega), fun _ _ => rfl, fun _ _ => rfl, onlyChanges_of_take rfl, hm⟩
  refine ends_forIn_zipIdx (fun b t _ => Summed s c.part src y.buf (coDst c.desc) (32 * b) t) (fun b hb t r ht m hm => ?_) hstart
    fun t r ht => hQ t ?_
  · rw [List.length_map, List.length_range] at hb
    rw [List.getElem_map, List.getElem_range, bind_apply]
    exact ends_reduceOne_int hi (by omega) ht fun v hv => hm v _ hv
  · rwa [List.length_map, List.length_range, Nat.mul_div_cancel' (Nat.dvd_of_mod_eq_zero hwhole)] at ht

end

/-- The one frame of a collective is reduced once its contribution is here. -/
theorem ends_reduceReady_int {h : Nat} {c : Coll} {l : Launch} {y : RxShare} {n src : Nat} {k : Unit → Prog} (hcolls : s.colls = [c])
    (hh : c.h = h) (hstatus : c.status = none) (hpass : c.pass = 0) (hreduced : c.reduced = []) (hl : s.launches = [l]) (hlh : l.h = h)
    (hkind : l.kind = .coll) (hwin : l.win = 0) (htag : l.tag = coTag c.desc) (hplaced : y.placed = [0])
    (hi : IntScatter { s with colls := [{ c with reduced := [0] }] } c l (genOf s l) y n src)
    (hn : dN (genOf s l).1 = 2) (hr : dRank (genOf s l).1 < 2) (hver : dVer2 (genOf s l).1 = false) (hpos : 0 < n) (hwhole : n % 32 = 0)
    (hfit : n ≤ 2016) (hm : Rising s.mem)
    (hQ : ∀ v, Summed { s with colls := [{ c with reduced := [0] }] } c.part src y.buf (coDst c.desc) n v → Ends (k ()) v Q) :
    Ends (reduceReady h [] k) s Q := by
  have hfind : s.colls.find? (fun c => c.h == h && c.status.isNone) = some c := by simp [hcolls, hh, hstatus]
  have hlaunch : collLaunch s c = some l := by simp [collLaunch, launchesOf, hl, hlh, hh, hkind, hwin, hpass, htag]
  have hreduces : passReduces c = true := by simp [passReduces, reduces, hi.op, hpass]
  obtain ⟨hblocks, -⟩ := frameBlocks_own hi hn hr hver hwhole hfit
  have hone : redFrames 0xA ((List.range (n / 32)).map (fun b => (dRank (genOf s l).1 * n + 32 * b, 32))).length = 1 := by
    have hbpf : bpf 0xA = 63 := by decide
    rw [redFrames, hbpf, List.length_map, List.length_range]
    omega
  have hready : (!c.reduced.contains 0 && l.rx.all (fun x => x.placed.contains 0)) = true := by rw [hreduced, hi.rx]; simp [hplaced]
  simp only [reduceReady, bind_apply, look_apply, ends_look, hfind, hlaunch, hreduces, if_true, hi.inFmt, hblocks, hone, List.range_one,
    List.forIn_cons, List.forIn_nil, hready]
  refine ends_reduceFrame_int hi hcolls (by rw [hreduced]; rfl) hn hr hver hwhole hfit hm fun v hv => hQ v hv

end Sys2Proof.Machine
end

section
/-!
SUPPORT. OXT_REDUCE_RX of an INT32 sum between two ranks, and O37.
-/

namespace Sys2Proof.Machine

open Sys2Proof.Claims

variable {s : State} {Q : State → Prop}

/-! ## What a frame that has come in leaves as it was -/

theorem rxRegs_below {n v off : Nat} (hn : n < 64) (hv : v < 8) (h : off ∈ rxRegs n v) : 0x400000 ≤ off ∧ off < 0x440000 ∧ off % 0x1000 ≠ 8 := by
  simp only [rxRegs, portRxRegs, rVc, rPort, List.mem_cons, List.not_mem_nil, or_false] at h
  omega

theorem FrameIn.field {u : State} {f : Sys2Proof.Frame} (h : FrameIn s u f) {off : Nat}
    (hoff : off < 0x400000 ∨ 0x440000 ≤ off ∨ off % 0x1000 = 8) (lo len : Nat) : fieldOf u off lo len = fieldOf s off lo len := by
  have hne : off ∉ rxRegs f.port f.pcp := fun hm => by
    have hbelow := rxRegs_below f.port.isLt f.pcp.isLt hm
    omega
  rw [fieldOf, h.regs off hne, fieldOf]

section
variable {u : State} {f : Sys2Proof.Frame} (hu : FrameIn s u f)
include hu

theorem FrameIn.groupOf (k : Nat) : groupOf u k = groupOf s k := hu.only.groupOf (by decide) k

theorem FrameIn.genOf (l : Launch) : genOf u l = genOf s l := by
  rw [Machine.genOf, newGen, hu.groupOf, Machine.genOf, newGen]

theorem FrameIn.linkUp (p : Nat) : linkUp u p = linkUp s p := by
  rw [Machine.linkUp, hu.field (.inr (.inr (by simp only [rPort]; omega))), Machine.linkUp]

theorem FrameIn.jobField (p lo len : Nat) : fieldOf u (rPart p 0x10) lo len = fieldOf s (rPart p 0x10) lo len :=
  hu.field (.inr (.inl (by simp only [rPart]; omega))) lo len

theorem FrameIn.jobGen (p : Nat) : jobGen u p = jobGen s p := by rw [Machine.jobGen, hu.jobField, Machine.jobGen]

theorem FrameIn.jobCurrent (p gen : Nat) (ack : Bool) : jobCurrent u p gen ack = jobCurrent s p gen ack := by
  rw [Machine.jobCurrent, hu.jobGen, jobState, hu.jobField, hu.only.partOf (by decide), Machine.jobCurrent, jobState]

theorem FrameIn.memAt (a : Nat) : memAt u a = memAt s a := hu.only .mem (by decide) a

/-- The launch that a frame names does not depend on the port it came by. -/
theorem FrameIn.launchNamed {h r : Nat} {l : Launch} {colls : List Coll} (hf : ForLaunch { s with colls := colls } f 4 h r l) :
    LaunchNamed u f h r l := by
  obtain ⟨⟨-, -, -, hgroup, hon, hver, hpart, hjob, -⟩, hrank, hwins, hnames, hl, hlh, hphase, hpast, hstream, -, -⟩ := hf
  refine ⟨hgroup, ?_, ?_, ?_, ?_, ?_, ?_, hnames, (hu.only .launches (by decide)).trans hl, hlh, hphase, hpast, hstream⟩
  · rw [groupOn, hu.groupOf]
    exact hon
  · rw [hu.groupOf]
    exact hver
  · rw [hu.groupOf]
    exact hpart
  · rw [hu.groupOf, hu.jobCurrent]
    exact hjob
  · rw [hu.genOf]
    exact hrank
  · rw [hu.groupOf]
    exact hwins

end

/-- A frame of one of the priorities is a frame of one of more priorities. -/
theorem udpKnown_mono {w : Wire} {udp : Nat} {a b : List Nat} (hsub : ∀ p, a.contains p = true → b.contains p = true)
    (h : udpKnown s w udp a = true) : udpKnown s w udp b = true := by
  rw [udpKnown, Bool.and_eq_true] at h ⊢
  exact ⟨h.1, hsub _ h.2⟩

theorem netNode_of_udpKnown {w : Wire} {udp : Nat} {a : List Nat} (h : udpKnown s w udp a = true) : netNode s ≠ 0xFFFF := by
  simp only [udpKnown, Bool.and_eq_true, bne_iff_ne] at h
  obtain ⟨⟨⟨-, hnode⟩, -⟩, -⟩ := h
  exact hnode

/-! ## The acknowledgement of a share -/

theorem hasPath_of_links {t : State} {h : Nat} {g : XgGen} (hgroup : groupOf t h = groupOf s h) (hlinks : ∀ p, p < 64 → linkUp t p = linkUp s p)
    (dst : Nat) : hasPath t h g dst = hasPath s h g dst := by
  have husable : ∀ ps, usable t h g dst ps = usable s h g dst ps := fun ps => by
    refine List.filter_congr fun p _ => ?_
    by_cases hp : p < 64
    · rw [hlinks p hp, upThere, hgroup, upThere]
    · simp [hp]
  rw [hasPath, husable, hasPath]

theorem upMask_of_links {t : State} (hlinks : ∀ p, p < 64 → linkUp t p = linkUp s p) : upMask t = upMask s :=
  List.foldl_ext _ _ _ fun _ p hp => by rw [hlinks p (List.mem_range.1 hp)]

theorem ackFrame_of_links {t : State} {l : Launch} (hgen : genOf t l = genOf s l) (hjob : jobGen t l.part = jobGen s l.part)
    (hlinks : ∀ p, p < 64 → linkUp t p = linkUp s p) (x : RxShare) (typ n round : Nat) :
    ackFrame t l x typ n round = ackFrame s l x typ n round := by
  simp only [ackFrame, hgen, hjob, ackBytes, upMask_of_links hlinks]

/-! ## Bytes of a frame in its buffer -/

/-- Some of the bytes just written. -/
theorem memNat_putMem_drop (hm : Rising s.mem) (a : Nat) {bs : List Byte} {j n : Nat} (h : j + n ≤ bs.length) :
    memNat (s.putMem a bs) (a + j) n = leNat ((bs.drop j).take n) := by
  have hbytes : memBytes (s.putMem a bs) (a + j) n = (bs.drop j).take n := by
    refine List.ext_getElem (by simp [memBytes]; omega) fun i hi hi' => ?_
    have hlt : i < n := by simpa [memBytes] using hi
    simp only [memBytes, List.getElem_map, List.getElem_range, List.getElem_take, List.getElem_drop]
    rw [add_assoc, memAt_putMem a hm (by omega)]
  rw [memNat, hbytes]

/-! ## OXT_REDUCE_RX (R105, R109–R112, R115) -/

/-- A share of one frame once it is delivered. -/
def deliveredShare (x : RxShare) (n : Nat) : RxShare := { placedShare x n with delivered := true }

/-- The acknowledgement of a share as it waits in a port's transmit queue. -/
def ackTx (s : State) (l : Launch) (x : RxShare) (n round : Nat) : TxFrame :=
  { vc := 6, len := oxtLen (ackFrame s l x 1 n round), msg := .oxt (ackFrame s l x 1 n round) }

/-- The state once the one frame of a share is in its buffer, and counted and delivered. -/
def State.shareIn (u : State) (f : Sys2Proof.Frame) (l : Launch) (x : RxShare) : State :=
  ((u.putMem x.buf f.payload).setReg (rXg l.h 8) (((regOf u (rXg l.h 8)).toNat + 1) % 2 ^ 64)).launched (l.share (deliveredShare x f.port))

/-- And acknowledged. -/
def State.shareTaken (u : State) (f : Sys2Proof.Frame) (l : Launch) (x : RxShare) : State :=
  (u.shareIn f l x).setPort f.port { portOf u f.port with
    txq := (portOf u f.port).txq ++ [ackTx u l (deliveredShare x f.port) f.port f.round.toNat] }

/-- What the steps of a share of one frame rest on. -/
structure OneFrame (u : State) (f : Sys2Proof.Frame) (l : Launch) (x : RxShare) (h r : Nat) : Prop where
  named : LaunchNamed u f h r l
  rx : l.rx = [x]
  src : x.src = r
  form : x.form = 4
  whole : x.pieces = []
  kept : x.discarded = false
  fresh : x.delivered = false
  none : x.placed = []
  need : x.need = [0]
  psn : f.psn = 0
  off : f.offset = 0
  len : f.payload.length = x.bytes
  inTime : ftNs u ≤ slotEnd (genOf u l).1 l (roundOfSrc (genOf u l).1 x.src)
  kind : l.kind = .coll
  path : hasPath u l.h (genOf u l) x.src = true
  up : linkUp u f.port = true
  node : netNode u ≠ 0xFFFF
  dir : u.fab.dir = []
  clean : CleanMem u

theorem regOf_shareIn {u : State} {f : Sys2Proof.Frame} {l : Launch} {x : RxShare} {off : Nat} (hoff : off ≠ rXg l.h 8) :
    regOf (u.shareIn f l x) off = regOf u off := (regOf_setReg_ne (u.putMem x.buf f.payload) _ _ _ hoff).trans rfl

theorem onlyChanges_shareTaken (u : State) (f : Sys2Proof.Frame) (l : Launch) (x : RxShare) :
    OnlyChanges u (u.shareTaken f l x) [.launches, .mem, .regs, .ports] :=
  ((((onlyChanges_putMem u _ _).mono (by decide)).trans ((onlyChanges_setReg _ _ _).mono (by decide))).trans (onlyChanges_of_take rfl)).trans
    ((onlyChanges_setPort _ _ _).mono (by decide))

theorem fieldOf_shareIn {u : State} {f : Sys2Proof.Frame} {l : Launch} {x : RxShare} {off : Nat} (hoff : off ≠ rXg l.h 8) (lo len : Nat) :
    fieldOf (u.shareIn f l x) off lo len = fieldOf u off lo len := by rw [fieldOf, regOf_shareIn hoff, fieldOf]

theorem linkUp_shareIn {u : State} {f : Sys2Proof.Frame} {l : Launch} {x : RxShare} {p : Nat} (hp : p < 64) :
    linkUp (u.shareIn f l x) p = linkUp u p := by
  rw [linkUp, fieldOf_shareIn (by simp only [rPort, rXg]; omega), linkUp]

theorem lt_of_groupOn {h : Nat} (hon : groupOn s h = true) : h < 256 := by
  rw [groupOn, Bool.and_eq_true, decide_eq_true_eq] at hon
  exact hon.1

/-- The one frame of a reduction's share comes in, and is placed, counted and acknowledged; then what is ready is reduced. -/
theorem ends_shareFrameRx_one {f : Sys2Proof.Frame} {l : Launch} {x : RxShare} {h r : Nat} {k : Unit → Prog}
    (hheard : Passes s f.port (frameLen f) f.wire true false) (hknown : udpKnown s f.wire (oxtPort s) [5, 6] = true)
    (hroom : roomFor s f.port f.pcp (frameLen f) f.wire = true) (hc : Canon s) (hpcp : f.pcp.val = 6)
    (ho : ∀ u, FrameIn s u f → OneFrame u f l x h r)
    (hQ : ∀ u, FrameIn s u f → Ends (reduceReady l.h [] k) (u.shareTaken f l x) Q) : Ends (shareFrameRx f true [] k) s Q := by
  simp only [shareFrameRx, bind_apply]
  refine ends_netRx hheard hknown hroom hc fun u hu => ?_
  have hrest := hQ u hu
  obtain ⟨hnamed, hrx, hsrc, hform, hwhole, hkept, hfresh, hnone, hneed, hpsn, hoff, hlen, htime, hkind, hpath, hup, hnode, hdir, hclean⟩ := ho u hu
  have hfits : l.rx.find? (fun x => x.src == r && (if x.form = 4 then true || f.ver2 else !true)) = some x := by simp [hrx, hsrc, hform]
  have hpcp5 : (f.pcp.val == 5) = false := by rw [hpcp]; rfl
  simp only [if_true, hpcp5, ends_acceptFrame hnamed, bind_apply, hfits]
  rw [ends_placeFrame_first hnamed.launches hrx hkept hnone hwhole (by omega) hoff hpsn hlen htime hdir hclean]
  simp only [if_true, bind_apply]
  rw [← hsrc]
  set v := (u.putMem x.buf f.payload).setReg (rXg l.h 8) (((regOf u (rXg l.h 8)).toNat + 1) % 2 ^ 64) with hv
  have hmiss : missing (placedShare x f.port) = [] := by simp [missing, placedShare, hneed]
  have hcheck := fun m => ends_checkDelivered_whole (s := v.launched (l.share (placedShare x f.port))) (Q := Q) (l := l) (x := placedShare x f.port)
    (k := m) rfl (sameL_share _ _) (sameL_share' _ _) rfl hfresh hkept (by show x.form ≠ 0; omega) hmiss hkind
  rw [show x.src = (placedShare x f.port).src from rfl, hcheck]
  have hlt : l.h < 256 := hnamed.lh ▸ lt_of_groupOn hnamed.on
  have hlinks : ∀ p, p < 64 → linkUp (u.shareIn f l x) p = linkUp u p := fun p hp => linkUp_shareIn hp
  have hjob : jobGen (u.shareIn f l x) l.part = jobGen u l.part := by
    rw [jobGen, fieldOf_shareIn (by simp only [rPart, rXg]; omega), jobGen]
  have hack : ackFrame (u.shareIn f l x) l (deliveredShare x f.port) 1 f.port f.round.toNat =
      ackFrame u l (deliveredShare x f.port) 1 f.port f.round.toNat :=
    ackFrame_of_links (s := u) (t := u.shareIn f l x) rfl hjob hlinks _ _ _ _
  have hsends : (f.last || f.retx || (((l.share (deliveredShare x f.port)).rx.find? (fun y => y.src == (placedShare x f.port).src)).elim false
      (·.delivered) && !x.delivered)) = true := by
    simp [Launch.share, deliveredShare, placedShare, hfresh]
  change Ends _ (u.shareIn f l x) Q
  rw [ends_nowL_only (l' := l.share (deliveredShare x f.port)) rfl (sameL_share' _ _), if_pos hsends, bind_apply]
  rw [show (placedShare x f.port).src = (deliveredShare x f.port).src from rfl,
    ends_sendAck_last (l' := l.share (deliveredShare x f.port)) (n := f.port) rfl (sameL_share' _ _) rfl ?_ rfl ?_ ?_ hnamed.windowed, hack]
  · exact hrest
  · exact (hasPath_of_links (s := u) (t := u.shareIn f l x) rfl hlinks _).trans hpath
  · exact (hlinks _ f.port.isLt).trans hup
  · rwa [netNode, fieldOf_shareIn (by simp only [rXg]; omega)]

/-- What is counted of a frame does not change with registers elsewhere. -/
theorem rxCounted_of_same {u t : State} {f : Sys2Proof.Frame} (h : RxCounted s u f)
    (hsame : ∀ off ∈ rxRegs f.port f.pcp, regOf t off = regOf u off) : RxCounted s t f := by
  obtain ⟨⟨hframes, hbytes, hcorr, huncorr, hhigh⟩, hvc⟩ := h
  simp only [rxRegs, portRxRegs, List.forall_mem_cons, List.not_mem_nil, false_imp_iff, forall_const, and_true] at hsame
  obtain ⟨svc, s110, s118, s120, s128⟩ := hsame
  refine ⟨⟨s110.trans hframes, s118.trans hbytes, s120.trans hcorr, ?_, ?_⟩, svc.trans hvc⟩
  · rw [← huncorr, fieldOf, s128, fieldOf]
  · rw [← hhigh, fieldOf, s128, fieldOf]

theorem finishIf_of_true {ok : Bool} {p : Act Unit} (h : ok = true) : finishIf ok p s = finish p s := by rw [h, finishIf_true]

section
variable {u : State} {f : Sys2Proof.Frame} {l : Launch} {x : RxShare}

theorem regOf_shareTaken {off : Nat} (hoff : off ≠ rXg l.h 8) : regOf (u.shareTaken f l x) off = regOf u off :=
  (regOf_setPort _ _ _ _).trans (regOf_shareIn hoff)

/-- The acknowledgement of a share is what is new in the ports. -/
theorem queued_shareTaken {t : State} (hu : FrameIn s u f) (hp : Rising s.ports) (ht : ∀ k, portOf t k = portOf (u.shareTaken f l x) k) :
    Queued (heard s f) t f.port 6 (ackFrame s l (deliveredShare x f.port) 1 f.port f.round.toNat) := by
  have hports : ∀ k, portOf u k = portOf (heard s f) k := fun k => by rw [portOf, hu.ports, portOf]
  have hrp : Rising (u.shareIn f l x).ports := by
    show Rising u.ports
    rw [hu.ports]
    exact rising_setPort _ _ hp
  refine ⟨?_, fun k hk => ?_⟩
  · rw [ht, State.shareTaken, portOf_setPort_same _ _ hrp, hports, ackTx,
      ackFrame_of_links (hu.genOf l) (hu.jobGen _) fun p _ => hu.linkUp p]
  · rw [ht, State.shareTaken, portOf_setPort_ne _ hk]
    exact hports k

/-- A value apart from a share's buffer is as it was before its frame came. -/
theorem memNat_shareTaken_apart (hu : FrameIn s u f) {a k : Nat} (ha : a + k ≤ x.buf ∨ x.buf + f.payload.length ≤ a) :
    memNat (u.shareTaken f l x) a k = memNat s a k := by
  have hput : memNat (u.shareTaken f l x) a k = memNat (u.putMem x.buf f.payload) a k := memNat_congr fun _ _ => rfl
  rw [hput, memNat_putMem_apart u ha]
  exact memNat_congr fun i _ => hu.memAt _

/-- A value in a share's buffer is the frame's. -/
theorem memNat_shareTaken_in (hm : Rising u.mem) {j k : Nat} (hj : j + k ≤ f.payload.length) :
    memNat (u.shareTaken f l x) (x.buf + j) k = leNat ((f.payload.drop j).take k) := by
  have hput : memNat (u.shareTaken f l x) (x.buf + j) k = memNat (u.putMem x.buf f.payload) (x.buf + j) k := memNat_congr fun _ _ => rfl
  rw [hput, memNat_putMem_drop hm _ hj]

/-- The counts of the frame and the flags of a partition lie apart. -/
theorem rxRegs_apart {h p off : Nat} (hoff : off ∈ rxRegs f.port f.pcp) : off ≠ rXg h 8 ∧ off ∉ [rPart p 0x108] := by
  have hbelow := rxRegs_below f.port.isLt f.pcp.isLt hoff
  simp only [rXg, rPart, List.mem_cons, List.not_mem_nil, or_false]
  omega

end

theorem oneFrame_of_reduceRx {f : Sys2Proof.Frame} {h r : Nat} {l : Launch} {x : RxShare} {c : Coll} (hpre : (oxtReduceRx s f h r l x c).pre)
    {u : State} (hu : FrameIn s u f) : OneFrame u f l x h r := by
  obtain ⟨hfor, -, -, hup, hpath, -, -, -, -, -, -, -, -, -, -, -, -, -, -, hkind, -, -, hrx, hsrc, hform, hpieces, hdisc, hdel, hplaced, hneed,
    hbytes, hpsn, hoff, hlen, htime, -, -, -, hdir, hclean⟩ := hpre
  have hnamed := hu.launchNamed hfor
  obtain ⟨⟨-, -, ⟨-, hknown, -⟩, -⟩, -⟩ := hfor
  have hnode : netNode s ≠ 0xFFFF := netNode_of_udpKnown hknown
  refine ⟨hnamed, hrx, hsrc, hform, hpieces, hdisc, hdel, hplaced, hneed, hpsn, hoff, hlen.trans hbytes.symm, ?_, hkind, ?_,
    (hu.linkUp _).trans hup, ?_, ?_, hu.only.cleanMem (by decide) hclean⟩
  · rw [hu.genOf, ftNs_of_time (hu.only .time (by decide)), hsrc]
    exact htime
  · rw [hu.genOf, hasPath_of_links (hu.groupOf _) fun p _ => hu.linkUp p, hsrc, hnamed.lh]
    exact hpath
  · rwa [netNode, hu.field (.inr (.inl (by decide)))]
  · rw [hu.only .fab (by decide), hdir]

theorem intScatter_of_reduceRx {f : Sys2Proof.Frame} {h r : Nat} {l : Launch} {x : RxShare} {c : Coll}
    (hpre : (oxtReduceRx s f h r l x c).pre) {u : State} (hu : FrameIn s u f) :
    IntScatter { u.shareTaken f l x with colls := [{ c with reduced := [0] }] } c (l.share (deliveredShare x f.port)) (genOf s l)
      (deliveredShare x f.port) (coCount c.desc) (coSrc c.desc + dRank (genOf s l).1 * coCount c.desc * 4) := by
  obtain ⟨-, -, -, -, -, -, -, -, -, -, hop, hred, hin, hout, -, -, -, -, -, -, -, -, -, -, -, -, -, -, -, -, -, -, -, -, -, -, hdst, hover, hdir,
    hclean⟩ := hpre
  exact ⟨hop, hred, hin, hout, rfl, rfl, rfl, hover, hdst, (hu.only .fab (by decide)).symm ▸ hdir, hu.only.cleanMem (by decide) hclean⟩

theorem oxtReduceRx_holds (s : State) (f : Sys2Proof.Frame) (h r : Nat) (l : Launch) (x : RxShare) (c : Coll) :
    (oxtReduceRx s f h r l x c).Holds := by
  intro hpre
  have hone := fun u (hu : FrameIn s u f) => oneFrame_of_reduceRx hpre hu
  have hscatter := fun u (hu : FrameIn s u f) => intScatter_of_reduceRx hpre hu
  obtain ⟨⟨⟨hoxt, hpcp, ⟨hheard, hknown, hroom⟩, -, -, -, -, -, hc⟩, -⟩, -, hdver, -, -, hcolls, hch, hstatus, hpass, hreduced, -, -, -, -, hpos,
    hfit, hwhole, hn, hr, hkind, hwin, htag, -, -, -, -, -, -, -, -, -, -, -, hlen, -, hown, -⟩ := hpre
  refine answers_of_ends (shareFrameRx f true []) (finishIf_of_true hoxt) ?_
  refine ends_shareFrameRx_one hheard (udpKnown_mono (by simp) hknown) hroom hc hpcp hone fun u hu => ?_
  have hlh : l.h = h := (hone u hu).named.lh
  have hm : Rising u.mem := by rw [hu.mem]; exact hc.risingMem
  have hgen : genOf (u.shareTaken f l x) (l.share (deliveredShare x f.port)) = genOf s l := hu.genOf l
  refine ends_reduceReady_int (s := u.shareTaken f l x) (l := l.share (deliveredShare x f.port)) (y := deliveredShare x f.port)
    ((hu.only .colls (by decide)).trans hcolls) (hch.trans hlh.symm) hstatus hpass hreduced rfl rfl hkind hwin htag rfl
    (by rw [hgen]; exact hscatter u hu) (by rwa [hgen]) (by rwa [hgen]) (by rwa [hgen]) hpos hwhole hfit (rising_putMem _ _ hm) fun v hv => ?_
  obtain ⟨hsums, hmem, hregs, honly, -⟩ := hv
  have htaken := onlyChanges_shareTaken u f l x
  rw [ends_done]
  refine ⟨(honly .launches (by decide)).trans rfl, (honly .colls (by decide)).trans rfl, fun i hi => ?_, fun a ha ha' => ?_,
    queued_shareTaken hu hc.risingPorts (honly.portOf (by decide)), rxCounted_of_same hu.counted fun off hoff => ?_, fun off hoff => ?_, ?_⟩
  · rw [hsums i hi]
    exact congrArg₂ satSum (memNat_shareTaken_apart (l := l) hu (by rw [hlen]; omega)) (memNat_shareTaken_in (l := l) hm (by omega))
  · exact (hmem a ha').trans ((memBut_putMem u x.buf f.payload a (by rwa [hlen])).trans (hu.memAt a))
  · obtain ⟨hne, hpart⟩ := rxRegs_apart (h := l.h) (p := c.part) hoff
    exact (hregs off hpart).trans (regOf_shareTaken hne)
  · simp only [List.mem_cons, not_or] at hoff
    obtain ⟨hne, hpart, hrx⟩ := hoff
    exact (hregs off (by simpa using hpart)).trans ((regOf_shareTaken (by rwa [hlh])).trans (hu.regs off (by rwa [hpcp])))
  · refine (hu.only.mono (by decide)).trans ((htaken.mono (by decide)).trans ?_)
    exact (onlyChanges_of_take rfl).trans (honly.mono (by decide))

/-- Settles O37: the reduction by the one frame that it waits for, its fault by the running sum beside its residue, the rest by what ends a
collective. -/
theorem collectives : Obligations.Collectives := by
  unfold Obligations.Collectives
  intro s h q rest us c l x f g qs u status r
  exact ⟨collectiveStart_holds s h q rest us, collectiveBad_holds s h q rest us, collectiveComplete_holds s h c l status,
    collTimeout_holds s h c l r, collTimeoutNone_holds s h c l, collLateGather_holds g c l, oxtReduceRx_holds s f h r l x c,
    residueMends_holds qs u, residueFails_holds qs u⟩

end Sys2Proof.Machine
end

section
/-!
SUPPORT. The step controller's set-up, requests and cancels.
-/

namespace Sys2Proof.Machine

open Sys2Proof.Claims

variable {s : State} {Q : State → Prop}

/-! ## SRE_STEP_WRITE (R84) -/

theorem sreStepWrite_holds (s : State) (p : Fin 64) (word : Fin 8) (w : Wr) : (sreStepWrite s p word w).Holds := by
  rintro ⟨howner, -⟩
  refine answers_of_ends (sreStepWriteAct p word w) (finish_ownerWrite_owner (sreStepWriteAct p word w) howner) ?_
  simp only [sreStepWriteAct, bind_apply, look_apply, ends_look, ends_ite_act, ends_wrReg, ends_done]
  split
  next hbad => exact ends_raise (by decide) fun u hu => ⟨hu.reported, hu.regs, hu.onlyChanges⟩
  next => trivial

/-! ## The head of REQ_Q (R81, R189, R190) -/

theorem scWaits_holds (s : State) (p : Fin 64) (e : Fin 4096) (c : Instr) : (scWaits s p e c).Holds := by
  rintro ⟨hc, hne, hready, hahead⟩
  have hmay := mayTake_false hne hready hahead
  rcases hc with rfl | rfl
  · refine exec_of_ends (requestTake p) rfl ?_
    simp only [requestTake, bind_apply, look_apply, ends_look, hmay, Bool.not_false, Bool.or_true, if_true]
    cases reqHead s p <;> rfl
  · refine exec_of_ends (cancelTake p) rfl ?_
    simp only [cancelTake, bind_apply, look_apply, ends_look, hmay, Bool.not_false, Bool.or_true, if_true]
    cases reqHead s p <;> rfl

/-- An item has been taken from the head of a partition's REQ_Q. -/
structure ReqTaken (s : State) (p : Nat) (rest : List QItem) (t : State) : Prop where
  popped : Popped s t (stReqQ (stepCfg s p)) rest
  regs : RegsBut s t (popRegs (stReqQ (stepCfg s p)))
  only : OnlyChanges s t [.queues, .regs]
  canon : Canon t

theorem canon_popped {q : Nat} (rest : List QItem) (hc : Canon s) : Canon (s.popped q rest) :=
  effect_canon _ _ (effect_canon _ _ (effect_canon _ _ hc))

theorem reqTaken_popped {p : Nat} (rest : List QItem) (hc : Canon s) : ReqTaken s p rest (s.popped (stReqQ (stepCfg s p)) rest) :=
  ⟨queueOf_popped rest hc.risingQueues, regsBut_popped s _ rest, onlyChanges_popped s _ rest, canon_popped rest hc⟩

theorem stReqQ_lt (x : Item) : stReqQ x < 4096 := bitsOf_lt _ _ _
theorem stOutQ_lt (x : Item) : stOutQ x < 4096 := bitsOf_lt _ _ _

section
variable {p : Nat} {rest : List QItem} {t : State} (ht : ReqTaken s p rest t)
include ht

theorem ReqTaken.field {off : Nat} (h : off < 0x2A0000 ∨ 0x2E0000 ≤ off) (lo len : Nat) : fieldOf t off lo len = fieldOf s off lo len := by
  have hne : off ∉ popRegs (stReqQ (stepCfg s p)) := fun hm => by
    have hbetween := popRegs_between (stReqQ_lt _) hm
    omega
  rw [fieldOf, ht.regs off hne, fieldOf]

theorem ReqTaken.partOf (k : Nat) : partOf t k = partOf s k := ht.only.partOf (by decide) k
theorem ReqTaken.stepCfg (k : Nat) : stepCfg t k = stepCfg s k := by rw [Machine.stepCfg, ht.partOf, Machine.stepCfg]
theorem ReqTaken.btBase : btBase t = btBase s := by rw [Machine.btBase, ht.field (.inr (by simp only [rSre]; omega)), Machine.btBase]
theorem ReqTaken.btEntry (i : Nat) : btEntry t i = btEntry s i := by
  rw [Machine.btEntry, ht.btBase, ht.only.memItem (by decide), Machine.btEntry]
theorem ReqTaken.btRange (k : Nat) : btRange t k = btRange s k := by rw [Machine.btRange, ht.btBase, ht.stepCfg, Machine.btRange]
theorem ReqTaken.pageTokens (k : Nat) : pageTokens t k = pageTokens s k := by
  rw [Machine.pageTokens, ht.field (.inr (by simp only [rPart]; omega)), Machine.pageTokens]
theorem ReqTaken.qEn {q : Nat} (hq : q < 4096) : qEn t q = qEn s q := by
  rw [Machine.qEn, ht.field (.inl (by simp only [rQueue]; omega)), Machine.qEn]

end

/-- A join counter's word (R84). -/
theorem rJoin_word (p : Nat) :
    rJoin p 4 / 8 * 8 = rJoin p 0 ∧ rJoin p 4 % 8 * 8 = 32 ∧ rJoin p 8 / 8 * 8 = rJoin p 8 ∧ rJoin p 8 % 8 * 8 = 0 := by
  simp only [rJoin, rSre]
  omega

theorem rQueue_ne_rJoin {q : Nat} (hq : q < 4096) (p off : Nat) : rQueue q 0 ≠ rJoin p off := by
  simp only [rQueue, rJoin, rSre]
  omega

theorem rJoin_above (p off : Nat) : 0x2E0000 ≤ rJoin p off := by
  simp only [rJoin, rSre]
  omega

/-- A saturating counter of 32 bits reads what has been counted. -/
theorem fieldOf_setField_saturated {off lo : Nat} (n : Nat) (hr : Rising s.regs) (hw : lo + 32 ≤ 64) :
    fieldOf (s.setField off lo 32 (min 0xFFFFFFFF n)) off lo 32 = min 0xFFFFFFFF n := by
  rw [fieldOf_setField_same _ _ _ _ _ hr hw]
  exact Nat.mod_eq_of_lt (Nat.lt_of_le_of_lt (Nat.min_le_left _ _) (by decide))

/-! ## SC_REQUEST_TAKE (R81, R306) -/

/-- What REQ_Q's head asks for, once it has been taken. -/
def serveRequest (p : Nat) (x : Item) : Act Unit := do
  let refuse : Act Unit := do
    if ibits x 288 52 ≠ 0 then
      let _ ← poolFreeAct p (ibits x 288 52)
    replyFault p (ibits x 0 32) (ibits x 352 16) (ibits x 208 16)
  let s ← look
  match (btRange s p).find? (fun i => beState (btEntry s i) == 0) with
  | none =>
    ctr32 (rJoin p 4)
    refuse
  | some i =>
    let maxPos := if ibits x 64 24 = 0 then 16777215 else ibits x 64 24
    let n := 64 + 8 * ((maxPos + pageTokens s p - 1) / pageTokens s p)
    let r ← poolAllocAct p n
    if r.1 ≠ 0 then
      ctr32 (rPart p 0x914)
      refuse
    else
      zeroMem r.2 n
      putNat r.2 16 (ibits x 288 52 ||| ibits x 40 24 <<< 64)
      let arr := (partOf (← look) p).arrival
      modPart p (fun d => { d with arrival := d.arrival + 1 })
      putEntry i (BitVec.ofNat 512 (ibits x 0 32 ||| 1 <<< 32 ||| ibits x 36 4 <<< 35 ||| ibits x 34 1 <<< 39 ||| ibits x 40 24 <<< 64 |||
        maxPos <<< 88 ||| ibits x 96 32 <<< 128 ||| ibits x 128 32 <<< 160 ||| ibits x 192 16 <<< 192 ||| ibits x 160 32 <<< 224 |||
        ibits x 224 64 <<< 256 ||| r.2 <<< 320 ||| ibits x 352 16 <<< 384 ||| ibits x 208 16 <<< 400 ||| arr.toNat <<< 416))
      modSeq p i (fun _ => {})

theorem requestTake_eq (p : Nat) : requestTake p = (do
  let s ← look
  match reqHead s p with
  | none => return
  | some hd =>
    if (!hd.gap && ibits hd.data 32 2 ≠ 0) || !mayTake s (p % 4) (stReqQ (stepCfg s p)) then return
    match (← qPopItem (stReqQ (stepCfg s p)) (dieSE (p % 4))) with
    | none => return
    | some it =>
      packetEnd (p % 4) (stReqQ (stepCfg s p))
      if it.gap then return
      serveRequest p it.data) := rfl

theorem ends_requestTake {p : Nat} {x : QItem} {rest : List QItem} {k : Unit → Prog} (hhead : reqHead s p = some x)
    (hgo : (!x.gap && decide (ibits x.data 32 2 ≠ 0) || !mayTake s (p % 4) (stReqQ (stepCfg s p))) = false) (hgap : x.gap = false)
    (hitems : (queueOf s (stReqQ (stepCfg s p))).items = x :: rest)
    (hw : (queueOf s (stReqQ (stepCfg s p))).waiters = []) (hkick : NoKick s) (hclean : CleanMem s) (hc : Canon s)
    (hQ : ∀ t, ReqTaken s p rest t → Ends (serveRequest p x.data k) t Q) : Ends (requestTake p k) s Q := by
  rw [requestTake_eq, bind_apply, look_apply, ends_look, hhead]
  simp only [hgo, Bool.false_eq_true, if_false, bind_apply]
  rw [ends_qPopItem_clean hitems hw hclean hc.risingQueues]
  simp only [bind_apply]
  rw [ends_packetEnd_noKick (NoKick.popped hkick _ rest), hgap]
  simp only [Bool.false_eq_true, if_false]
  exact hQ _ (reqTaken_popped rest hc)

/-- A disabled OUT_Q takes no reply. -/
theorem ends_replyFault_none {p a b c : Nat} {k : Unit → Prog} (h : qEn s (stOutQ (stepCfg s p)) = false) :
    Ends (replyFault p a b c k) s Q = Ends (k ()) s Q := by
  rw [replyFault, bind_apply, look_apply, ends_look, h, if_neg Bool.false_ne_true, pure_apply]

theorem scRequestFull_holds (s : State) (p : Fin 64) (x : QItem) (rest : List QItem) : (scRequestFull s p x rest).Holds := by
  rintro ⟨hhead, hitems, hgap, ⟨hmay, hkick⟩, hnew, hw, hfull, hprompt, hout, hclean, hc⟩
  refine answers_of_ends (requestTake p) rfl (ends_requestTake hhead (by simp [hnew, hmay]) hgap hitems hw hkick hclean hc fun t ht => ?_)
  have hnone : (btRange t p).find? (fun i => beState (btEntry t i) == 0) = none := by
    simpa [ht.btRange, ht.btEntry] using hfull
  obtain ⟨hword, hlo, -⟩ := rJoin_word p
  have hcfg : ∀ v, stepCfg (t.setField (rJoin p 0) 32 32 v) p = stepCfg s p := fun _ => ht.stepCfg p
  have hquiet : ∀ v, qEn (t.setField (rJoin p 0) 32 32 v) (stOutQ (stepCfg s p)) = false := fun v => by
    rw [← hout, ← ht.qEn (stOutQ_lt _), qEn, fieldOf_setField_ne _ _ _ _ _ _ _ _ (rQueue_ne_rJoin (stOutQ_lt _) p 0), qEn]
  rw [serveRequest, bind_apply, look_apply, ends_look, hnone]
  simp only [bind_apply, hprompt, ne_eq, not_true_eq_false, if_false]
  rw [ends_ctr32, hword, hlo, ends_replyFault_none (by rw [hcfg]; exact hquiet _), ends_done]
  refine ⟨ht.popped, ?_, fun off hoff => ?_, ht.only.trans ((onlyChanges_setReg _ _ _).mono (by decide))⟩
  · rw [fieldOf_setField_saturated _ ht.canon.rising (by decide), ht.field (.inr (rJoin_above _ _))]
  · rw [List.mem_cons, not_or] at hoff
    exact (regOf_setReg_ne _ _ _ _ hoff.1).trans (ht.regs off hoff.2)

/-! ## SC_CANCEL (R81) -/

/-- What the cancel at REQ_Q's head asks for, once it has been taken. -/
def serveCancel (p : Nat) (x : Item) : Act Unit := do
  let s ← look
  match (btRange s p).find? (fun i => beState (btEntry s i) != 0 && beSeq (btEntry s i) == ibits x 0 32) with
  | none => ctr32 (rJoin p 8)
  | some i => cancelEntry p i

theorem cancelTake_eq (p : Nat) : cancelTake p = (do
  let s ← look
  match reqHead s p with
  | none => return
  | some hd =>
    if hd.gap || ibits hd.data 32 2 = 0 || !mayTake s (p % 4) (stReqQ (stepCfg s p)) then return
    match (← qPopItem (stReqQ (stepCfg s p)) (dieSE (p % 4))) with
    | none => return
    | some it =>
      packetEnd (p % 4) (stReqQ (stepCfg s p))
      if it.gap then return
      serveCancel p it.data) := rfl

theorem ends_cancelTake {p : Nat} {x : QItem} {rest : List QItem} {k : Unit → Prog} (hhead : reqHead s p = some x)
    (hgo : (x.gap || decide (ibits x.data 32 2 = 0) || !mayTake s (p % 4) (stReqQ (stepCfg s p))) = false) (hgap : x.gap = false)
    (hitems : (queueOf s (stReqQ (stepCfg s p))).items = x :: rest)
    (hw : (queueOf s (stReqQ (stepCfg s p))).waiters = []) (hkick : NoKick s) (hclean : CleanMem s) (hc : Canon s)
    (hQ : ∀ t, ReqTaken s p rest t → Ends (serveCancel p x.data k) t Q) : Ends (cancelTake p k) s Q := by
  rw [cancelTake_eq, bind_apply, look_apply, ends_look, hhead]
  simp only [hgo, Bool.false_eq_true, if_false, bind_apply]
  rw [ends_qPopItem_clean hitems hw hclean hc.risingQueues]
  simp only [bind_apply]
  rw [ends_packetEnd_noKick (NoKick.popped hkick _ rest), hgap]
  simp only [Bool.false_eq_true, if_false]
  exact hQ _ (reqTaken_popped rest hc)

theorem scCancelUnknown_holds (s : State) (p : Fin 64) (x : QItem) (rest : List QItem) : (scCancelUnknown s p x rest).Holds := by
  rintro ⟨hhead, hitems, hgap, ⟨hmay, hkick⟩, hcancel, hw, hunknown, hclean, hc⟩
  refine answers_of_ends (cancelTake p) rfl (ends_cancelTake hhead (by simp [hgap, hcancel, hmay]) hgap hitems hw hkick hclean hc fun t ht => ?_)
  have hnone : (btRange t p).find? (fun i => beState (btEntry t i) != 0 && beSeq (btEntry t i) == ibits x.data 0 32) = none := by
    simp only [ht.btRange, ht.btEntry, List.find?_eq_none]
    intro i hi
    rcases hunknown i hi with h | h <;> simp [h]
  obtain ⟨-, -, hword, hlo⟩ := rJoin_word p
  rw [serveCancel, bind_apply, look_apply, ends_look, hnone]
  simp only
  rw [ends_ctr32, hword, hlo, ends_done]
  refine ⟨ht.popped, ?_, fun off hoff => ?_, ht.only.trans ((onlyChanges_setReg _ _ _).mono (by decide))⟩
  · rw [fieldOf_setField_saturated _ ht.canon.rising (by decide), ht.field (.inr (rJoin_above _ _))]
  · rw [List.mem_cons, not_or] at hoff
    exact (regOf_setReg_ne _ _ _ _ hoff.1).trans (ht.regs off hoff.2)

/-- A read of the key just written, in any table, where what was written is not the default. -/
theorem tget_tput_of_ne_default {α : Type} [DecidableEq α] {d v : α} (t : Tbl α) (k : Nat) (hv : v ≠ d) : tget d (tput d t k v) k = v := by
  induction t with
  | nil => simp [tput, tget, hv]
  | cons e t ih =>
    obtain ⟨j, w⟩ := e
    by_cases hlt : k < j
    · simp [tput, tget, hv, hlt]
    · by_cases heq : k = j
      · simp [tput, tget, hv, heq]
      · simp [tput, tget, hlt, heq, Ne.symm heq, ih]

/-- A partition whose record of an entry has been replaced. -/
def State.setSeq (s : State) (p i : Nat) (a : SeqAux) : State := s.setPart p { partOf s p with seqs := tput {} (partOf s p).seqs i a }

theorem ends_modSeq {p i : Nat} {f : SeqAux → SeqAux} {k : Unit → Prog} :
    Ends (modSeq p i f k) s Q = Ends (k ()) (s.setSeq p i (f (seqOf s p i))) Q := rfl

theorem partOf_setSeq {p i : Nat} {a : SeqAux} (hr : Rising s.parts) :
    partOf (s.setSeq p i a) p = { partOf s p with seqs := tput {} (partOf s p).seqs i a } := partOf_setPart_same _ _ hr

theorem seqOf_setSeq {p i : Nat} {a : SeqAux} (hr : Rising s.parts) (ha : a ≠ {}) : seqOf (s.setSeq p i a) p i = a := by
  rw [seqOf, partOf_setSeq hr]
  exact tget_tput_of_ne_default _ _ ha

theorem onlyChanges_setSeq (s : State) (p i : Nat) (a : SeqAux) : OnlyChanges s (s.setSeq p i a) [.parts] := onlyChanges_setPart _ _ _

theorem ReqTaken.seqOf {p : Nat} {rest : List QItem} {t : State} (ht : ReqTaken s p rest t) (k i : Nat) : seqOf t k i = seqOf s k i := by
  rw [Machine.seqOf, ht.partOf, Machine.seqOf]

/-- A cancel marks an ACTIVE sequence. -/
theorem ends_cancelEntry_active {p i : Nat} {k : Unit → Prog} (h : beState (btEntry s i) = 2) :
    Ends (cancelEntry p i k) s Q = Ends (k ()) (s.setSeq p i { seqOf s p i with cancel := true }) Q := by
  rw [cancelEntry, bind_apply, look_apply, ends_look, h, if_neg (by decide), if_pos rfl, ends_modSeq]

theorem scCancel_holds (s : State) (p : Fin 64) (x : QItem) (rest : List QItem) (i : Nat) : (scCancel s p x rest i).Holds := by
  rintro ⟨hhead, hitems, hgap, ⟨hmay, hkick⟩, hcancel, hw, hfound, hactive, hclean, hc⟩
  refine answers_of_ends (cancelTake p) rfl (ends_cancelTake hhead (by simp [hgap, hcancel, hmay]) hgap hitems hw hkick hclean hc fun t ht => ?_)
  have hfind : (btRange t p).find? (fun i => beState (btEntry t i) != 0 && beSeq (btEntry t i) == ibits x.data 0 32) = some i := by
    rw [ht.btRange, ← hfound]
    exact congrArg (List.find? · _) (funext fun j => by rw [ht.btEntry])
  have hstate : beState (btEntry t i) = 2 := by rw [ht.btEntry, hactive]
  rw [serveCancel, bind_apply, look_apply, ends_look, hfind]
  simp only
  rw [ends_cancelEntry_active hstate, ends_done, ht.seqOf]
  have hmarked : { seqOf s p i with cancel := true } ≠ ({} : SeqAux) := fun h => Bool.noConfusion (congrArg SeqAux.cancel h)
  have hpart := partOf_setSeq (i := i) (a := { seqOf s p i with cancel := true }) (p := p) ht.canon.risingParts
  rw [ht.partOf] at hpart
  exact ⟨ht.popped, seqOf_setSeq ht.canon.risingParts hmarked, hpart, ht.regs,
    (ht.only.mono (by decide)).trans ((onlyChanges_setSeq _ _ _ _).mono (by decide))⟩

end Sys2Proof.Machine
end

section
/-!
SUPPORT. The step controller takes a request.
-/

namespace Sys2Proof.Machine

open Sys2Proof.Claims

variable {s t u : State} {Q : State → Prop}

/-! ## A buffer for one request (R261–R263) -/

/-- A request of a buffer that lies on the stack of its class. -/
theorem ends_poolAllocAct_stack {p c n a : Nat} {more : List Nat} {k : Nat × Nat → Prog} (hclass : classFor n = some c)
    (hst : (poolOf s (poolKey p c)).stack = a :: more) (hclean : CleanMem s) (hdir : s.fab.dir = []) (hp : Rising s.pools) (hm : Rising s.mem)
    (hQ : ∀ u, TakenFromStack s u p c a more → Rising u.mem → Ends (k (0, a)) u Q) : Ends (poolAllocAct p n k) s Q := by
  obtain ⟨rest, hcl⟩ := classesFor_cons (s := s) (p := p) hclass
  simp only [poolAllocAct, poolRequest, bind_apply, hclass, look_apply, ends_look, hcl, List.forIn_cons, Option.isNone_none, if_true, poolTake,
    hst, ends_modPool, pure_apply, ne_eq, not_true_eq_false, if_false, ends_forIn_found, ends_handOut hclean hdir, ends_ctr64]
  exact hQ _ (takenFromStack_handedOut _ hp) (rising_putMem _ _ hm)

theorem btBase_takenFromStack {p c a : Nat} {more : List Nat} (h : TakenFromStack s u p c a more) : btBase u = btBase s := by
  rw [btBase, fieldOf, h.regs _ (by simp only [rSre, rPool, rPoolCnt, rPart, List.mem_cons, List.not_mem_nil, or_false]; omega), btBase, fieldOf]

/-! ## The entry of a request (R80, R306) -/

/-- The batch-table entry that a request takes. -/
def requestEntry (x : Item) (maxPos a : Nat) (arr : BitVec 32) : Nat :=
  ibits x 0 32 ||| 1 <<< 32 ||| ibits x 36 4 <<< 35 ||| ibits x 34 1 <<< 39 ||| ibits x 40 24 <<< 64 |||
    maxPos <<< 88 ||| ibits x 96 32 <<< 128 ||| ibits x 128 32 <<< 160 ||| ibits x 192 16 <<< 192 ||| ibits x 160 32 <<< 224 |||
    ibits x 224 64 <<< 256 ||| a <<< 320 ||| ibits x 352 16 <<< 384 ||| ibits x 208 16 <<< 400 ||| arr.toNat <<< 416

theorem ibits_ofNat (v : Nat) {lo len : Nat} (h : lo + len ≤ 512) : ibits (BitVec.ofNat 512 v) lo len = bitsOf v lo len := by
  rw [ibits, BitVec.toNat_ofNat]
  exact bitsOf_mod_two_pow v lo len 512 h

theorem ibits_lt (x : Item) (lo len : Nat) : ibits x lo len < 2 ^ len := bitsOf_lt _ _ _

theorem ibits_shiftLeft_above (x : Item) {a w n lo len : Nat} (h : n + w ≤ lo) : bitsOf (ibits x a w <<< n) lo len = 0 :=
  bitsOf_shiftLeft_above len (ibits_lt x a w) h

theorem bitsOf_ibits_above (x : Item) {a w lo len : Nat} (h : w ≤ lo) : bitsOf (ibits x a w) lo len = 0 := bitsOf_of_lt (ibits_lt x a w) len h

theorem bitsOf_ibits (x : Item) {a w : Nat} : bitsOf (ibits x a w) 0 w = ibits x a w := Nat.mod_eq_of_lt (ibits_lt x a w)

theorem ibits_mod (x : Item) (a w : Nat) : ibits x a w % 2 ^ w = ibits x a w := Nat.mod_eq_of_lt (ibits_lt x a w)

/-- Each field of the entry holds its part: of the other parts, those below end below it, and those above start above it. -/
theorem requestEntry_fields (x : Item) {maxPos a : Nat} (arr : BitVec 32) (hmax : maxPos < 2 ^ 24) (ha : a < 2 ^ 52) :
    let v := requestEntry x maxPos a arr
    bitsOf v 0 32 = ibits x 0 32 ∧ bitsOf v 32 3 = 1 ∧ bitsOf v 35 4 = ibits x 36 4 ∧ bitsOf v 40 24 = 0 ∧ bitsOf v 64 24 = ibits x 40 24 ∧
      bitsOf v 88 24 = maxPos ∧ bitsOf v 416 32 = arr.toNat ∧ bitsOf v 320 52 = a ∧ bitsOf v 384 16 = ibits x 352 16 ∧
      bitsOf v 400 16 = ibits x 208 16 := by
  intro v
  have hone : (1 : Nat) < 2 ^ 1 := by decide
  have hmaxAbove : ∀ {n lo len : Nat}, n + 24 ≤ lo → bitsOf (maxPos <<< n) lo len = 0 := fun h => bitsOf_shiftLeft_above _ hmax h
  have haAbove : ∀ {n lo len : Nat}, n + 52 ≤ lo → bitsOf (a <<< n) lo len = 0 := fun h => bitsOf_shiftLeft_above _ ha h
  have honeAbove : ∀ {n lo len : Nat}, n + 1 ≤ lo → bitsOf (1 <<< n) lo len = 0 := fun h => bitsOf_shiftLeft_above _ hone h
  have hparts : ∀ lo len, bitsOf v lo len = bitsOf (requestEntry x maxPos a arr) lo len := fun _ _ => rfl
  refine ⟨?_, ?_, ?_, ?_, ?_, ?_, ?_, ?_, ?_, ?_⟩ <;>
    simp (disch := omega) only [hparts, requestEntry, bitsOf_or, bitsOf_shiftLeft_below, ibits_shiftLeft_above, bitsOf_ibits_above, hmaxAbove,
      haAbove, honeAbove, bitsOf_shiftLeft_same, bitsOf_ibits, ibits_mod, Nat.mod_eq_of_lt, Nat.or_zero, Nat.zero_or, -Nat.reduceShiftLeft]

/-- What the batch table holds of a request. -/
theorem requestEntry_reads (x : Item) {maxPos a : Nat} (arr : BitVec 32) (hpos : 0 < maxPos) (hmax : maxPos < 2 ^ 24) (ha : a < 2 ^ 52) :
    let e : Item := BitVec.ofNat 512 (requestEntry x maxPos a arr)
    beState e = 1 ∧ beSeq e = ibits x 0 32 ∧ bePrio e = ibits x 36 4 ∧ bePos e = 0 ∧ beLeft e = ibits x 40 24 ∧ beMaxPos e = maxPos ∧
      beArrival e = arr ∧ beKv e = a ∧ beNode e = ibits x 352 16 ∧ beStream e = ibits x 208 16 := by
  intro e
  obtain ⟨hseq, hstate, hprio, hposn, hleft, hlast, harr, hkv, hnode, hstream⟩ := requestEntry_fields x arr hmax ha
  have hread : ∀ {lo len : Nat}, lo + len ≤ 512 → ibits e lo len = bitsOf (requestEntry x maxPos a arr) lo len := ibits_ofNat _
  have hmaxPos : ibits e 88 24 = maxPos := (hread (by decide)).trans hlast
  refine ⟨(hread (by decide)).trans hstate, (hread (by decide)).trans hseq, (hread (by decide)).trans hprio, (hread (by decide)).trans hposn,
    (hread (by decide)).trans hleft, ?_, ?_, (hread (by decide)).trans hkv, (hread (by decide)).trans hnode, (hread (by decide)).trans hstream⟩
  · rw [beMaxPos, hmaxPos, if_neg (by omega)]
  · rw [beArrival, hread (by decide), harr, BitVec.ofNat_toNat, BitVec.setWidth_eq]

/-! ## The request in its entry (R81, R306, R308) -/

/-- The last position of a request. -/
def requestMax (x : Item) : Nat := if ibits x 64 24 = 0 then 16777215 else ibits x 64 24

/-- The bytes of a request's KV page table. -/
def requestBytes (s : State) (p : Nat) (x : Item) : Nat := 64 + 8 * ((requestMax x + pageTokens s p - 1) / pageTokens s p)

/-- The head of a request's KV page table. -/
def requestHead (x : Item) : Nat := ibits x 288 52 ||| ibits x 40 24 <<< 64

theorem requestMax_bounds (x : Item) : 0 < requestMax x ∧ requestMax x < 2 ^ 24 := by
  have hlt := ibits_lt x 64 24
  unfold requestMax
  split <;> omega

theorem requestBytes_pos (s : State) (p : Nat) (x : Item) : 16 ≤ requestBytes s p x := by
  unfold requestBytes
  omega

theorem requestHead_fields (x : Item) : bitsOf (requestHead x) 0 64 = ibits x 288 52 ∧ bitsOf (requestHead x) 64 64 = ibits x 40 24 := by
  have hlt : ∀ a w : Nat, w ≤ 64 → ibits x a w % 2 ^ 64 = ibits x a w := fun a w hw =>
    Nat.mod_eq_of_lt (Nat.lt_of_lt_of_le (ibits_lt x a w) (Nat.pow_le_pow_right (by decide) hw))
  refine ⟨?_, ?_⟩
  · rw [requestHead, bitsOf_or, bitsOf_shiftLeft_below _ (by decide), Nat.or_zero]
    exact hlt 288 52 (by decide)
  · rw [requestHead, bitsOf_or, bitsOf_ibits_above _ (by decide), Nat.zero_or, bitsOf_shiftLeft_same]
    exact hlt 40 24 (by decide)

/-- A partition with one request more. -/
def Part.nextArrival (d : Part) : Part := { d with arrival := d.arrival + 1 }

/-- The state once a request's page table and entry are written. -/
def State.requestMem (u : State) (p a n e head : Nat) (entry : Item) : State :=
  (((u.zeroed a n).putMem a (natBytes 16 head)).setPart p (partOf u p).nextArrival).putMem e
    (natBytes 64 entry.toNat)

/-- A request's page table and entry have been written. -/
structure RequestMem (u v : State) (p a n e head : Nat) (entry : Item) : Prop where
  entry : memItem v e = entry
  prompt : memNat v a 8 = bitsOf head 0 64
  tokens : memNat v (a + 8) 8 = bitsOf head 64 64
  zero : ∀ k, k < n → 16 ≤ k → memAt v (a + k) = 0
  rest : ∀ y, (y < a ∨ a + n ≤ y) → (y < e ∨ e + 64 ≤ y) → memAt v y = memAt u y
  part : partOf v p = (partOf u p).nextArrival
  parts : Rising v.parts
  only : OnlyChanges u v [.mem, .parts]

theorem onlyChanges_zeroed (s : State) (a n : Nat) : OnlyChanges s (s.zeroed a n) [.mem] := onlyChanges_of_take rfl

/-- An item just written reads back. -/
theorem memItem_putMem_same (hm : Rising s.mem) (a : Nat) (x : Item) : memItem (s.putMem a (natBytes 64 x.toNat)) a = x := by
  have hread := memNat_putMem_part hm a x.toNat (j := 0) (n := 64) (N := 64) (by decide)
  rw [memItem]
  refine (congrArg (BitVec.ofNat 512) hread).trans (BitVec.eq_of_toNat_eq ?_)
  simp [bitsOf]

theorem requestMem_made {p a n e head : Nat} {entry : Item} (hm : Rising u.mem) (hp : Rising u.parts) (hn : 16 ≤ n)
    (happart : a + n ≤ e ∨ e + 64 ≤ a) : RequestMem u (u.requestMem p a n e head entry) p a n e head entry := by
  have hm1 : Rising (u.zeroed a n).mem := rising_zeroed _ _ hm
  have hm2 : Rising ((u.zeroed a n).putMem a (natBytes 16 head)).mem := rising_putMem _ _ hm1
  have hhead := memBut_putMem (u.zeroed a n) a (natBytes 16 head)
  have hfirst : ∀ j k, j + k ≤ 16 → memNat ((u.zeroed a n).putMem a (natBytes 16 head)) (a + j) k = bitsOf head (8 * j) (8 * k) := fun j k hk =>
    memNat_putMem_part hm1 a head hk
  have hwritten : OnlyChanges u ((u.zeroed a n).putMem a (natBytes 16 head)) [.mem] := (onlyChanges_zeroed u a n).trans (onlyChanges_putMem _ _ _)
  have hparts : Rising ((u.zeroed a n).putMem a (natBytes 16 head)).parts := by
    rwa [show ((u.zeroed a n).putMem a (natBytes 16 head)).parts = u.parts from hwritten .parts (by decide)]
  rw [State.requestMem]
  rw [length_natBytes] at hhead
  generalize (u.zeroed a n).putMem a (natBytes 16 head) = b at hm2 hhead hfirst hwritten hparts ⊢
  have hpart := partOf_setPart_same (partOf u p).nextArrival p hparts
  have hset := onlyChanges_setPart b p (partOf u p).nextArrival
  have hmset : Rising (b.setPart p (partOf u p).nextArrival).mem := hm2
  have hpset : Rising (b.setPart p (partOf u p).nextArrival).parts := tput_rising _ _ _ _ hparts
  generalize b.setPart p (partOf u p).nextArrival = d at hpart hset hmset hpset ⊢
  have hdb : ∀ y, memAt d y = memAt b y := hset .mem (by decide)
  have hbut := memBut_putMem d e (natBytes 64 entry.toNat)
  have hlast := onlyChanges_putMem d e (natBytes 64 entry.toNat)
  rw [length_natBytes] at hbut
  have hword : ∀ j k, j + k ≤ 16 → memNat (d.putMem e (natBytes 64 entry.toNat)) (a + j) k = bitsOf head (8 * j) (8 * k) := fun j k hk =>
    (memNat_congr fun i hi => (hbut _ (by omega)).trans (hdb _)).trans (hfirst j k hk)
  refine ⟨memItem_putMem_same hmset e entry, hword 0 8 (by decide), hword 8 8 (by decide), fun k hk hk16 => ?_, fun y hya hye => ?_,
    (hlast.partOf (by decide) p).trans hpart, by rwa [show (d.putMem e (natBytes 64 entry.toNat)).parts = d.parts from hlast .parts (by decide)],
    ((hwritten.mono (by decide)).trans (hset.mono (by decide))).trans (hlast.mono (by decide))⟩
  · rw [hbut _ (by omega), hdb, hhead _ (by omega), memAt, mem_zeroed, tget_tkeep_not _ _ _ _ (by simp; omega)]
  · rw [hbut _ hye, hdb, hhead _ (by omega), memBut_zeroed _ _ _ _ hya]

/-- A request that finds a FREE entry, and whose page table lies on the stack of its class, takes both. -/
theorem ends_serveRequest {p i c a : Nat} {x : Item} {more : List Nat} {k : Unit → Prog}
    (hfind : (btRange s p).find? (fun i => beState (btEntry s i) == 0) = some i) (hclass : classFor (requestBytes s p x) = some c)
    (hst : (poolOf s (poolKey p c)).stack = a :: more)
    (happart : a + requestBytes s p x ≤ btBase s + 64 * i ∨ btBase s + 64 * i + 64 ≤ a) (hclean : CleanMem s) (hdir : s.fab.dir = [])
    (hc : Canon s)
    (hQ : ∀ u v, TakenFromStack s u p c a more → RequestMem u v p a (requestBytes s p x) (btBase s + 64 * i) (requestHead x)
      (BitVec.ofNat 512 (requestEntry x (requestMax x) a (partOf s p).arrival)) → Ends (k ()) (v.setSeq p i {}) Q) :
    Ends (serveRequest p x k) s Q := by
  rw [serveRequest, bind_apply, look_apply, ends_look, hfind]
  simp only [bind_apply]
  refine ends_poolAllocAct_stack hclass hst hclean hdir hc.risingPools hc.risingMem fun u hu hum => ?_
  have huclean : CleanMem u := hu.only.cleanMem (by decide) hclean
  have hudir : u.fab.dir = [] := by rw [show u.fab = s.fab from hu.only .fab (by decide)]; exact hdir
  have hparts : Rising u.parts := by rw [show u.parts = s.parts from hu.only .parts (by decide)]; exact hc.risingParts
  have hpart : partOf u p = partOf s p := hu.only.partOf (by decide) _
  have hbase := btBase_takenFromStack hu
  have hmade := hQ u _ hu (requestMem_made (p := p) hum hparts (requestBytes_pos s p x) happart)
  rw [if_neg (by simp)]
  simp only [bind_apply]
  rw [ends_zeroMem_clean huclean hudir, ends_putNat_clean (s := u.zeroed a _) huclean hudir, look_apply, ends_look, ends_modPart]
  rw [putEntry, bind_apply, look_apply, ends_look, ends_putNat_clean (by exact huclean) (by exact hudir), ends_modSeq]
  rw [← hbase, ← hpart] at hmade
  exact hmade

theorem scRequestTake_holds (s : State) (p : Fin 64) (x : QItem) (rest : List QItem) (i c a : Nat) (more : List Nat) :
    (scRequestTake s p x rest i c a more).Holds := by
  rintro ⟨hhead, hitems, hgap, ⟨hmay, hkick⟩, hnew, hw, hfree, hclass, hst, ha, happart, hdir, hclean, hc⟩
  refine answers_of_ends (requestTake p) rfl (ends_requestTake hhead (by simp [hnew, hmay]) hgap hitems hw hkick hclean hc fun t ht => ?_)
  have hfind : (btRange t p).find? (fun i => beState (btEntry t i) == 0) = some i := by
    rw [ht.btRange, ← hfree]
    exact congrArg (List.find? · _) (funext fun j => by rw [ht.btEntry])
  have hbytes : requestBytes t p x.data = requestBytes s p x.data := by rw [requestBytes, requestBytes, ht.pageTokens]
  have hpool : poolOf t (poolKey p c) = poolOf s (poolKey p c) := ht.only.poolOf (by decide) _
  have htdir : t.fab.dir = [] := by rw [show t.fab = s.fab from ht.only .fab (by decide)]; exact hdir
  refine ends_serveRequest hfind (by rw [hbytes]; exact hclass) (by rw [hpool, hst]) (by rw [hbytes, ht.btBase]; exact happart)
    (ht.only.cleanMem (by decide) hclean) htdir ht.canon fun u v hu hv => ?_
  rw [hbytes, ht.btBase, ht.partOf] at hv
  have hregs : ∀ off, regOf (v.setSeq p i {}) off = regOf u off := hv.only .regs (by decide)
  have hend : OnlyChanges t (v.setSeq p i {}) [.pools, .mem, .regs, .parts] :=
    ((hu.only.mono (by decide)).trans (hv.only.mono (by decide))).trans ((onlyChanges_setSeq _ _ _ _).mono (by decide))
  have hbase : btBase (v.setSeq p i {}) = btBase s := by
    rw [← ht.btBase, ← btBase_takenFromStack hu, btBase, fieldOf, hregs, btBase, fieldOf]
  have hitem : btEntry (v.setSeq p i {}) i = _ := (congrArg (fun b => memItem v (b + 64 * i)) hbase).trans hv.entry
  obtain ⟨hstate, hseq, hprio, hpos, hleft, hmax, harr, hkv, hnode, hstream⟩ :=
    requestEntry_reads x.data (partOf s p).arrival (requestMax_bounds x.data).1 (requestMax_bounds x.data).2 ha
  obtain ⟨hhead0, hhead64⟩ := requestHead_fields x.data
  rw [← hitem] at hstate hseq hprio hpos hleft hmax harr hkv hnode hstream
  rw [ends_done]
  refine ⟨(hend.queueOf (by decide) _).trans ht.popped, hstate, hseq, hprio, hpos, hleft, hmax, harr, hkv, hnode, hstream,
    hv.prompt.trans hhead0, hv.tokens.trans hhead64, hv.zero, ?_, ?_, ?_, ?_, (ht.only.mono (by decide)).trans (hend.mono (by decide))⟩
  · intro y hya hye
    have hlong := requestBytes_pos s p x.data
    replace hya : y < a ∨ a + requestBytes s p x.data ≤ y := hya
    exact (hv.rest y hya hye).trans ((hu.mem y (by omega)).trans (ht.only .mem (by decide) y))
  · rw [partOf_setSeq hv.parts, hv.part, hu.only.partOf (by decide), ht.partOf]
    rfl
  · rw [← hpool]
    exact (hv.only.poolOf (by decide) _).trans hu.pool
  · intro off hoff
    rw [List.mem_append, not_or] at hoff
    have htaken : off ∉ [rPool p c 0x10, rPool p c 0x18, rPoolCnt p c 0] := hoff.2
    exact (hregs off).trans ((hu.regs off htaken).trans (ht.regs off hoff.1))

end Sys2Proof.Machine
end

section
/-!
SUPPORT. Token sampling: its start, one sampled row, and O29.
-/

namespace Sys2Proof.Machine

open Sys2Proof.Claims

variable {s t : State} {Q : State → Prop}

/-! ## SAMPLE_SUBMIT (R78, R85, R86) -/

/-- The sampling that a SAMPLE_SUBMIT asks for. -/
def samplingOf (s : State) (i : Iss) (slot : Nat) : Sample :=
  { thread := i.key, slot, se := i.p % 4, part := i.p, logits := memItem s (cAddr i.w 12) }

/-- One sampling more. -/
def State.withSample (s : State) (x : Sample) : State := { s with samples := s.samples ++ [x] }

theorem ends_sampleBody {i : Iss} {slot : Nat} {m : Mdesc} {k : AsyncEnd → Prog} (hse : cf i.w 4 0 16 = i.p % 4) (hsome : 1 ≤ cf i.w 8 0 32)
    (hfit : cf i.w 8 0 32 ≤ 65536) (hm : PlainOpd s i (cAddr i.w 12) m) (hin : m.inPart s i.p = true) (hfmt : m.fmt ≤ 1)
    (hrows : cf i.w 8 0 32 ≤ m.rows) (hcols : m.cols ≤ 1048576) (hmine : belongs s i.p (cAddr i.w 20) (2 * cf i.w 8 0 32) = true)
    (hheld : i.held = none) (hclean : CleanMem s) :
    Ends (sampleBody i slot k) s Q = Ends (k .later) (s.withSample (samplingOf s i slot)) Q := by
  have hargs : (cf i.w 4 0 16 ≠ i.p % 4 || cf i.w 8 0 32 = 0 || 65536 < cf i.w 8 0 32) = false := by
    simp only [Bool.or_eq_false_iff, decide_eq_false_iff_not]
    omega
  have hshape : (decide (1 < m.fmt) || m.blocked || decide (m.rows < cf i.w 8 0 32) || decide (1048576 < m.cols)) = false := by
    have hblocked : m.blocked = false := hm.2.2.2.2.1
    simp only [hblocked, Bool.or_eq_false_iff, decide_eq_false_iff_not, and_true]
    omega
  have hitem : i.item s (cAddr i.w 12) = memItem s (cAddr i.w 12) := by rw [Iss.item, hheld]
  simp only [sampleBody, bind_apply, hargs, Bool.false_eq_true, if_false, ends_readMdesc_plain hm hheld hclean, look_apply, ends_look, hshape,
    hin, hmine, Bool.not_true, Bool.or_self, hitem, eff_apply, ends_eff, pure_apply]
  rw [hse]
  rfl

theorem sampleSubmit_holds (s : State) (th : Thr) (w : Cmd) (i : Iss) (slot : Nat) (m : Mdesc) : (sampleSubmit s th w i slot m).Holds := by
  rintro ⟨hissues, hop, hse, hsome, hfit, hm, hin, hfmt, hrows, hcols, hmine, hclean⟩
  obtain rfl : i.w = w := canIssue_word hissues.1.1
  have hexec : exec (.sampleSubmit th i.w) s = finish (asyncCmd th i.w 0 (fun _ => return false) sampleBody) s := by
    show finishIf (opIs 0x62 i.w) _ s = _
    rw [hop, finishIf_true]
  have hr : Rising s.threads := Canon.risingThreads hissues.2.2.2
  have hm' : PlainOpd (s.started i slot) i (cAddr i.w 12) m := hm
  have hin' : m.inPart (s.started i slot) i.p = true := hin
  have hmine' : belongs (s.started i slot) i.p (cAddr i.w 20) (2 * cf i.w 8 0 32) = true := hmine
  have hclean' : CleanMem (s.started i slot) := hclean
  refine exec_of_ends _ hexec ?_
  rw [ends_asyncCmd_plain hissues, ends_sampleBody hse hsome hfit hm' hin' hfmt hrows hcols hmine' (canIssue_held hissues.1.1) hclean',
    ends_later (s := s) (t := (s.started i slot).withSample _) rfl hr, ends_done]
  exact setThread_setThread (s := (s.withSample (samplingOf s i slot)).issued i) i.key
    (asyncPut slot { w := i.w, phase := .running } (threadOf s i.key)) _ hr

/-! ## An entry of the batch table moves on (R80, log entry 27) -/

/-- One entry of the batch table has been written. -/
structure EntrySet (s t : State) (i : Nat) (x : Item) : Prop where
  base : btBase t = btBase s
  entry : btEntry t i = x
  mem : MemBut s t (btBase s + 64 * i) 64
  only : OnlyChanges s t [.mem]
  rising : Rising t.mem

theorem EntrySet.trans {i : Nat} {x y : Item} {u : State} (h : EntrySet s t i x) (h' : EntrySet t u i y) : EntrySet s u i y :=
  ⟨h'.base.trans h.base, h'.entry, h.mem.trans (h.base ▸ h'.mem), h.only.trans h'.only, h'.rising⟩

theorem entrySet_putMem (hm : Rising s.mem) (i : Nat) (x : Item) :
    EntrySet s (s.putMem (btBase s + 64 * i) (natBytes 64 x.toNat)) i x := by
  have hbut := memBut_putMem s (btBase s + 64 * i) (natBytes 64 x.toNat)
  have honly := onlyChanges_putMem s (btBase s + 64 * i) (natBytes 64 x.toNat)
  have hread := memItem_putMem_same hm (btBase s + 64 * i) x
  have hrise := rising_putMem (btBase s + 64 * i) (natBytes 64 x.toNat) hm
  rw [length_natBytes] at hbut
  generalize s.putMem (btBase s + 64 * i) (natBytes 64 x.toNat) = t at hbut honly hread hrise ⊢
  have hbase : btBase t = btBase s := congrArg (· * 2 ^ 22) (honly.field (by decide) _ _ _)
  exact ⟨hbase, by rw [btEntry, hbase, hread], hbut, honly, hrise⟩

/-- An entry with one field replaced. -/
def setEntry (x : Item) (lo len v : Nat) : Item := BitVec.ofNat 512 (setBits x.toNat lo len v)

theorem ends_putBt_clean {i lo len v : Nat} {k : Unit → Prog} (hclean : CleanMem s) (hdir : s.fab.dir = []) (hm : Rising s.mem)
    (hQ : ∀ t, EntrySet s t i (setEntry (btEntry s i) lo len v) → Ends (k ()) t Q) : Ends (putBt i lo len v k) s Q := by
  rw [putBt, bind_apply, look_apply, ends_look, putEntry, bind_apply, look_apply, ends_look, ends_putNat_clean hclean hdir]
  exact hQ _ (entrySet_putMem hm i _)

theorem ibits_setEntry_same (x : Item) {lo len v : Nat} (h : lo + len ≤ 512) (hv : v < 2 ^ len) : ibits (setEntry x lo len v) lo len = v := by
  rw [setEntry, ibits_ofNat _ h, bitsOf_setBits_same, Nat.mod_eq_of_lt hv]

theorem ibits_setEntry_apart (x : Item) {lo len lo' len' : Nat} (v : Nat) (h : lo' + len' ≤ 512) (hne : lo + len ≤ lo' ∨ lo' + len' ≤ lo) :
    ibits (setEntry x lo len v) lo' len' = ibits x lo' len' := by
  rw [setEntry, ibits_ofNat _ h]
  rcases hne with hne | hne
  · exact bitsOf_setBits_above _ _ _ _ _ _ hne
  · exact bitsOf_setBits_below _ _ _ _ _ _ hne

/-- An entry past the tokens of a step. -/
def advanced (x : Item) (take : Nat) : Item := setEntry (setEntry x 40 24 (min 16777215 (bePos x + take))) 64 24 (beLeft x - take)

theorem ibits_advanced (x : Item) (take : Nat) {lo len : Nat} (h : lo + len ≤ 512) (hne : lo + len ≤ 40 ∨ 88 ≤ lo) :
    ibits (advanced x take) lo len = ibits x lo len := by
  rw [advanced, ibits_setEntry_apart _ _ h (by omega), ibits_setEntry_apart _ _ h (by omega)]

theorem bePos_advanced (x : Item) (take : Nat) : bePos (advanced x take) = min 16777215 (bePos x + take) := by
  rw [bePos, advanced, ibits_setEntry_apart _ _ (by decide) (by decide), ibits_setEntry_same _ (by decide) (by omega)]

theorem beLeft_advanced (x : Item) (take : Nat) : beLeft (advanced x take) = beLeft x - take := by
  have hlt : beLeft x < 2 ^ 24 := ibits_lt x 64 24
  rw [beLeft, advanced, ibits_setEntry_same _ (by decide) (by omega)]

theorem ends_advanceEntry_clean {p i : Nat} {k : Unit → Prog} (hclean : CleanMem s) (hdir : s.fab.dir = []) (hm : Rising s.mem)
    (hQ : ∀ t, EntrySet s t i (advanced (btEntry s i) (seqOf s p i).take) → Ends (k ()) t Q) : Ends (advanceEntry p i k) s Q := by
  rw [advanceEntry, bind_apply, look_apply, ends_look]
  simp only [bind_apply]
  refine ends_putBt_clean hclean hdir hm fun t ht => ?_
  have htdir : t.fab.dir = [] := by rw [show t.fab = s.fab from ht.only .fab (by decide)]; exact hdir
  refine ends_putBt_clean (ht.only.cleanMem (by decide) hclean) htdir ht.rising fun u hu => ?_
  rw [ht.entry] at hu
  exact hQ u (ht.trans hu)

/-! ## A row of logits in core scratch -/

/-- No byte that an offset from a base in core scratch names lies outside it. -/
theorem wrapAddr_scratch {base : Nat} (h : tierOf base = .scratch) (off : Nat) : tierOf (wrapAddr base off) = .scratch := by
  have hbase := tierOf_scratch.1 h
  rw [tierOf_scratch, wrapAddr, if_pos h]
  simp only
  omega

/-- A code of a matrix in core scratch does not depend on the rest of memory. -/
theorem readCode_congr {m : Mdesc} (h : tierOf m.base = .scratch) (hmem : ∀ y, tierOf y = .scratch → memAt t y = memAt s y) (i j : Nat) :
    readCode t m i j = readCode s m i j := by
  have helem : tierOf (m.elemAddr i j) = .scratch := wrapAddr_scratch h _
  have hbyte : ∀ k, memAt t (wrapAddr (m.elemAddr i j) k) = memAt s (wrapAddr (m.elemAddr i j) k) := fun k => hmem _ (wrapAddr_scratch helem k)
  simp only [readCode, hbyte]

/-- An entry of the batch table in shared SRAM lies in no core's scratch. -/
theorem entry_not_scratch {i y : Nat} (hsram : inSram (btBase s) = true) (hi : i < 2 ^ 16) (hy : tierOf y = .scratch) :
    y < btBase s + 64 * i ∨ btBase s + 64 * i + 64 ≤ y := by
  have hscratch := tierOf_scratch.1 hy
  have hbase : btBase s / 2 ^ 32 = 0x0C00 := by simpa [inSram] using hsram
  omega

/-- Without a temperature a row gives its best token, and draws nothing (R78). -/
theorem sampleRow_greedy (ls : List (BitVec 32)) (topp : BitVec 32) (topk : Nat) (u : BitVec 32) :
    sampleRow ls (BitVec.ofNat 32 0) topp topk u = ((sampleRow ls 0 topp topk 0).1, none, 0) := by
  have hzero : (ofF32 0).isZero = true := by decide
  rw [show BitVec.ofNat 32 0 = 0 from rfl]
  simp only [sampleRow, hzero, if_true]

/-! ## An item into OUT_Q (R79, R179) -/

/-- A queue accepts an item that does not end a packet. -/
theorem ends_qAccept_inner {q : Nat} {x : Item} {k : Unit → Prog} (hclean : CleanMem s) (hdir : s.fab.dir = []) (hq : Rising s.queues) :
    Ends (qAccept q x false k) s Q = Ends (k ()) (s.accepted q x false) Q := by
  set d := (queueOf s q).accept x false s.time.now with hd
  have hread : queueOf (s.setQueue q d) q = d := queueOf_setQueue_same d q hq
  have hclean' : CleanMem (s.setQueue q d) := hclean
  have hdir' : (s.setQueue q d).fab.dir = [] := hdir
  have hstore : ∀ m : Unit → Prog, Ends (qStore q (queueOf s q).items.length (x ||| ((1 : Item) <<< 511)) m) (s.setQueue q d) Q =
      Ends (m ()) ((s.setQueue q d).putMem (qBase s q + 64 * (((queueOf s q).head + (queueOf s q).items.length) % qDepth s q))
        (natBytes 64 (x ||| ((1 : Item) <<< 511)).toNat)) Q := by
    intro m
    simp only [qStore, bind_apply, look_apply, ends_look, hread, ends_putNat_clean hclean' hdir']
    rfl
  set b := (s.setQueue q d).putMem (qBase s q + 64 * (((queueOf s q).head + (queueOf s q).items.length) % qDepth s q))
    (natBytes 64 (x ||| ((1 : Item) <<< 511)).toNat) with hb
  have hread' : ∀ v, queueOf (b.setReg (rQcnt q 0) v) q = d := fun _ => hread
  have hcnt : regOf b (rQcnt q 0) = regOf s (rQcnt q 0) := rfl
  have hlen : d.items.length = (queueOf s q).items.length + 1 := by simp [hd, Queue.accept]
  have hmod : ∀ m : Unit → Prog, Ends (modQueue q (fun d => { d with
      items := d.items ++ [{ data := x ||| ((1 : Item) <<< 511), last := false, gap := false, at_ := s.time.now }]
      since := if d.items.isEmpty then s.time.now else d.since }) m) s Q = Ends (m ()) (s.setQueue q d) Q := fun _ => rfl
  simp only [qAccept, bind_apply, look_apply, ends_look]
  rw [hmod, hstore, ends_ctr64, hcnt]
  simp only [Bool.false_eq_true, if_false, qShow, bind_apply, look_apply, ends_look, ends_wrReg, hread', hlen]
  rfl

theorem ends_qPushItem_room {q die : Nat} {x : Item} {k : Bool → Prog} (hdrop : (queueOf s q).dropping = false) (hfree : 1 ≤ qFree s q)
    (hclean : CleanMem s) (hdir : s.fab.dir = []) (hq : Rising s.queues) :
    Ends (qPushItem q x false false die k) s Q = Ends (k true) (s.accepted q x false) Q := by
  simp only [qPushItem, bind_apply, look_apply, ends_look, Bool.false_and, Bool.false_eq_true, if_false, hdrop, if_pos hfree,
    ends_qAccept_inner hclean hdir hq, pure_apply]

/-- The item of a token that does not end its sequence. -/
def tokenItemOf (s : State) (p i pos token prob : Nat) : Item :=
  outItem (beSeq (btEntry s i)) pos token prob 0 (partOf s p).stepNo.toNat (beNode (btEntry s i)) (beStream (btEntry s i)) i

theorem ends_pushOut_room {p i q pos token prob : Nat} {k : Unit → Prog} (hq : stOutQ (stepCfg s p) = q) (hen : qEn s q = true)
    (hdrop : (queueOf s q).dropping = false) (hfree : 1 ≤ qFree s q) (hclean : CleanMem s) (hdir : s.fab.dir = []) (hr : Rising s.queues) :
    Ends (pushOut p i pos token prob 0 k) s Q = Ends (k ()) (s.accepted q (tokenItemOf s p i pos token prob) false) Q := by
  subst hq
  rw [pushOut, bind_apply, look_apply, ends_look, if_pos hen, bind_apply, show ((0 : Nat) != 0) = false from rfl,
    ends_qPushItem_room hdrop hfree hclean hdir hr]
  simp only [ne_eq, not_true_eq_false, decide_false, Bool.and_false, Bool.false_eq_true, if_false, pure_apply]
  rfl

/-! ## One row (R78, R83) -/

/-- The greedy token of a row (R78). -/
def greedyToken (s : State) (m : Mdesc) (row : Nat) (x : Item) : Nat :=
  (sampleRow ((List.range m.cols).map (fun j => (widen m.fmt (readCode s m row j) 0x7F).1)) 0 (BitVec.ofNat 32 (ibits x 224 32))
    (ibits x 192 16) 0).1

/-- A sequence whose token of this step is not its last (R83). -/
def SeqAux.goesOn (a : SeqAux) : SeqAux := { a with sampled := true, reason := 0 }

/-- A row's entry has moved on, its flags have joined those of the partition, and its probability has been drawn. -/
structure RowDrawn (s u : State) (p i : Nat) (x : Item) : Prop where
  base : btBase u = btBase s
  entry : btEntry u i = x
  mem : MemBut s u (btBase s + 64 * i) 64
  regs : RegsBut s u [rPart p 0x108]
  free : u.freeIdx = s.freeIdx + 1
  only : OnlyChanges s u [.mem, .regs, .freeIdx]

theorem rowDrawn_of {u : State} {p i : Nat} {x : Item} (ht : EntrySet s t i x) (hu : RegsChange (· = rPart p 0x108) t u) :
    RowDrawn s { u with freeIdx := s.freeIdx + 1 } p i x := by
  have hbase : btBase u = btBase s := by
    rw [← ht.base, btBase, hu.field (by simp only [rSre, rPart]; omega), btBase]
  have hmem : ∀ a, memItem u a = memItem t a := fun a => by simp only [memItem, memNat, memBytes, memAt, hu.mem]
  refine ⟨hbase, ?_, fun y hy => ?_, fun off hoff => ?_, rfl, ?_⟩
  · show memItem u (btBase u + 64 * i) = x
    rw [hbase, hmem, ← ht.entry, btEntry, ht.base]
  · exact (hu.onlyChanges .mem (by decide) y).trans (ht.mem y hy)
  · exact (hu.same off (by simpa using hoff)).trans (ht.only .regs (by decide) off)
  · exact ((ht.only.mono (by decide)).trans (hu.onlyChanges.mono (by decide))).trans (onlyChanges_of_take rfl)

/-- A sequence goes on after a token that is not its last (R83). -/
theorem reasonOf_none {p i token pos : Nat} (htoken : token ≠ ibits (btEntry s i) 128 32 ∨ token = 0xFFFFFFFF)
    (hlast : pos < beMaxPos (btEntry s i)) (hpos : pos < 16777215) (hcancel : (seqOf s p i).cancel = false) (hfault : serveFaulted s p = false) :
    reasonOf s p i token pos = 0 := by
  have hstop : ¬ (token = ibits (btEntry s i) 128 32 && ibits (btEntry s i) 128 32 ≠ 0xFFFFFFFF) = true := by
    simp only [Bool.and_eq_true, decide_eq_true_eq, not_and]
    rintro rfl hne
    exact htoken.elim (fun h => h rfl) hne
  rw [reasonOf]
  simp only [if_neg hstop, if_neg (Nat.not_le.2 hlast), if_neg (Nat.not_le.2 hpos), hcancel, hfault, Bool.false_eq_true, if_false]

theorem EntrySet.serveFaulted {i : Nat} {x : Item} (h : EntrySet s t i x) (p : Nat) : serveFaulted t p = serveFaulted s p := by
  rw [Machine.serveFaulted, h.only.field (by decide), h.only.field (by decide), Machine.serveFaulted]

theorem EntrySet.seqOf {i : Nat} {x : Item} (h : EntrySet s t i x) (p j : Nat) : seqOf t p j = seqOf s p j := by
  rw [Machine.seqOf, h.only.partOf (by decide), Machine.seqOf]

theorem ends_sampleEntry {p row i : Nat} {m : Mdesc} {k : Unit → Prog} (hin : (btRange s p).contains i = true)
    (hactive : beState (btEntry s i) = 2) (hsram : inSram (btBase s) = true) (hi : i < 2 ^ 16) (htemp : ibits (btEntry s i) 160 32 = 0)
    (htier : tierOf m.base = .scratch) 
    (hwhy : ∀ t, EntrySet s t i (advanced (btEntry s i) (seqOf s p i).take) →
      reasonOf t p i (greedyToken s m row (btEntry s i)) (min 16777215 (bePos (btEntry s i) + (seqOf s p i).take)) = 0)
    (hclean : CleanMem s) (hdir : s.fab.dir = []) (hm : Rising s.mem)
    (hQ : ∀ u, RowDrawn s u p i (advanced (btEntry s i) (seqOf s p i).take) →
      Ends (pushOut p i (min 16777215 (bePos (btEntry s i) + (seqOf s p i).take)) (greedyToken s m row (btEntry s i))
        ((Config.freeWord s.freeIdx).toNat % 2 ^ 32) 0 k) (u.setSeq p i (seqOf s p i).goesOn) Q) :
    Ends (sampleEntry p row i m k) s Q := by
  have hcond : ((btRange s p).contains i && beState (btEntry s i) = 2) = true := by simp only [hin, hactive, decide_true, Bool.and_self]
  rw [sampleEntry, bind_apply, look_apply, ends_look, if_pos hcond, bind_apply, ends_consume_clean hclean, bind_apply]
  refine ends_advanceEntry_clean hclean hdir hm fun t ht => ?_
  have hcode : ∀ j, readCode t m row j = readCode s m row j := fun j =>
    readCode_congr htier (fun y hy => ht.mem y (entry_not_scratch hsram hi hy)) row j
  have hentry : ∀ lo len, lo + len ≤ 512 → 88 ≤ lo → ibits (btEntry t i) lo len = ibits (btEntry s i) lo len := fun lo len h h' => by
    rw [ht.entry, ibits_advanced _ _ h (.inr h')]
  have hpos : bePos (btEntry t i) = min 16777215 (bePos (btEntry s i) + (seqOf s p i).take) := by rw [ht.entry, bePos_advanced]
  rw [bind_apply, look_apply, ends_look, if_pos rfl, hentry 160 32 (by decide) (by decide), htemp, hentry 224 32 (by decide) (by decide),
    hentry 192 16 (by decide) (by decide), hpos]
  simp only [hcode, List.map_map, Function.comp_def]
  rw [sampleRow_greedy, bind_apply]
  refine ends_partFlags_reg fun v hv => ?_
  have htoken : (sampleRow ((List.range m.cols).map (fun j => (widen m.fmt (readCode s m row j) 0x7F).1)) 0
      (BitVec.ofNat 32 (ibits (btEntry s i) 224 32)) (ibits (btEntry s i) 192 16) 0).1 = greedyToken s m row (btEntry s i) := rfl
  rw [htoken, hwhy t ht]
  simp only [bind_apply, pure_apply]
  rw [ends_drawFree, ends_modSeq]
  have hvfree : v.freeIdx = s.freeIdx := (hv.onlyChanges .freeIdx (by decide)).trans (ht.only .freeIdx (by decide))
  have hseq : seqOf v p i = seqOf s p i := by rw [seqOf, hv.onlyChanges.partOf (by decide), ← seqOf, ht.seqOf]
  rw [hvfree]
  change Ends _ (State.setSeq _ p i (seqOf v p i).goesOn) Q
  rw [hseq]
  exact hQ _ (rowDrawn_of ht hv)

/-- Where a queue's next item goes. -/
def tailSlot (s : State) (q : Nat) : Nat := qBase s q + 64 * (((queueOf s q).head + (queueOf s q).items.length) % qDepth s q)

theorem memBut_accepted (s : State) (q : Nat) (x : Item) (last : Bool) : MemBut s (s.accepted q x last) (tailSlot s q) 64 := by
  have hbut := memBut_putMem (s.setQueue q ((queueOf s q).accept x last s.time.now)) (tailSlot s q)
    (natBytes 64 (x ||| ((1 : Item) <<< 511)).toNat)
  rw [length_natBytes] at hbut
  exact memBut_of_mem_eq hbut rfl

/-- A row has been sampled, and its token has gone out. -/
structure RowSampled (s w : State) (p i q : Nat) (x item : Item) : Prop where
  entry : btEntry w i = x
  queue : (queueOf w q).items =
    (queueOf s q).items ++ [{ data := item ||| ((1 : Item) <<< 511), last := false, gap := false, at_ := s.time.now }]
  seq : seqOf w p i = (seqOf s p i).goesOn
  free : w.freeIdx = s.freeIdx + 1
  mem : ∀ y, (y < btBase s + 64 * i ∨ btBase s + 64 * i + 64 ≤ y) → (y < tailSlot s q ∨ tailSlot s q + 64 ≤ y) → memAt w y = memAt s y
  regs : RegsBut s w [rPart p 0x108, rQcnt q 0, 0x2A0000 + q * 0x10]
  only : OnlyChanges s w [.mem, .parts, .queues, .regs, .freeIdx]

theorem goesOn_ne_default (a : SeqAux) : a.goesOn ≠ {} := fun h => Bool.noConfusion (congrArg SeqAux.sampled h)

theorem RowDrawn.field {u : State} {p i : Nat} {x : Item} (h : RowDrawn s u p i x) {off : Nat} (hoff : off < 0xC00000) (lo len : Nat) :
    fieldOf u off lo len = fieldOf s off lo len := by
  rw [fieldOf, h.regs off (by simp only [rPart, List.mem_singleton]; omega), fieldOf]

theorem rowSampled_accepted {u : State} {p i q : Nat} {x item : Item} (hu : RowDrawn s u p i x) (hq : q < 4096) (hqs : Rising s.queues)
    (hp : Rising s.parts) (happart : btBase s + 64 * i + 64 ≤ tailSlot s q ∨ tailSlot s q + 64 ≤ btBase s + 64 * i) :
    RowSampled s ((u.setSeq p i (seqOf s p i).goesOn).accepted q item false) p i q x item := by
  have hset := onlyChanges_setSeq u p i (seqOf s p i).goesOn
  have hup : Rising u.parts := by rw [show u.parts = s.parts from hu.only .parts (by decide)]; exact hp
  have hseq := seqOf_setSeq (s := u) (p := p) (i := i) hup (goesOn_ne_default (seqOf s p i))
  generalize u.setSeq p i (seqOf s p i).goesOn = b at hset hseq ⊢
  have hsb : OnlyChanges s b [.mem, .regs, .freeIdx, .parts] := (hu.only.mono (by decide)).trans (hset.mono (by decide))
  have hqueue : queueOf b q = queueOf s q := hsb.queueOf (by decide) q
  have hfield : ∀ {off : Nat} (lo len : Nat), off < 0xC00000 → fieldOf b off lo len = fieldOf s off lo len := fun lo len hoff =>
    (hset.field (by decide) _ lo len).trans (hu.field hoff lo len)
  have hslot : tailSlot b q = tailSlot s q := by
    rw [tailSlot, qBase, qDepth, hfield _ _ (by simp only [rQueue]; omega), hfield _ _ (by simp only [rQueue]; omega), hqueue, tailSlot,
      qBase, qDepth]
  have hread := queueOf_accepted (s := b) (q := q) item false (by rw [show b.queues = s.queues from hsb .queues (by decide)]; exact hqs)
  have hmem := memBut_accepted b q item false
  have hregs := regsBut_accepted b q item false
  have honly := onlyChanges_accepted b q item false
  rw [hslot] at hmem
  rw [hqueue, show b.time = s.time from hsb .time (by decide)] at hread
  generalize b.accepted q item false = w at hread hmem hregs honly ⊢
  have hbase : btBase b = btBase s := (congrArg (· * 2 ^ 22) (hset.field (by decide) _ _ _)).trans hu.base
  have hwbase : btBase w = btBase s := by
    rw [← hbase, btBase, fieldOf, hregs _ (by simp only [rSre, rQcnt, List.mem_cons, List.not_mem_nil, or_false]; omega), btBase, fieldOf]
  refine ⟨?_, by rw [hread]; rfl, ?_, ?_, fun y hye hys => ?_, fun off hoff => ?_, (hsb.mono (by decide)).trans (honly.mono (by decide))⟩
  · have hentry : memNat w (btBase s + 64 * i) 64 = memNat u (btBase s + 64 * i) 64 :=
      (memNat_congr fun k hk => hmem _ (by omega)).trans (hset.memNat (by decide) _ _)
    rw [btEntry, hwbase, memItem, hentry, ← hu.entry, btEntry, hu.base, memItem]
  · rw [seqOf, honly.partOf (by decide), ← seqOf, hseq]
  · exact ((honly .freeIdx (by decide)).trans (hset .freeIdx (by decide))).trans hu.free
  · exact ((hmem y hys).trans (hset .mem (by decide) y)).trans (hu.mem y hye)
  · rw [List.mem_cons, not_or] at hoff
    exact ((hregs off hoff.2).trans (hset .regs (by decide) off)).trans (hu.regs off (by simpa using hoff.1))

theorem stepCfg_setSeq {p i : Nat} {a : SeqAux} (hp : Rising s.parts) : stepCfg (s.setSeq p i a) p = stepCfg s p := by
  rw [stepCfg, partOf_setSeq hp, stepCfg]

/-- The token of a row goes out, where OUT_Q has room. -/
theorem ends_pushOut_drawn {u : State} {p i q pos token prob : Nat} {x : Item} {k : Unit → Prog} (hu : RowDrawn s u p i x)
    (hq : stOutQ (stepCfg s p) = q) (hen : qEn s q = true) (hdrop : (queueOf s q).dropping = false) (hfree : 1 ≤ qFree s q)
    (hclean : CleanMem s) (hdir : s.fab.dir = []) (hqs : Rising s.queues) (hp : Rising s.parts) :
    Ends (pushOut p i pos token prob 0 k) (u.setSeq p i (seqOf s p i).goesOn) Q =
      Ends (k ()) ((u.setSeq p i (seqOf s p i).goesOn).accepted q
        (outItem (beSeq x) pos token prob 0 (partOf s p).stepNo.toNat (beNode x) (beStream x) i) false) Q := by
  have hlt : q < 4096 := hq ▸ stOutQ_lt _
  have hup : Rising u.parts := by rw [show u.parts = s.parts from hu.only .parts (by decide)]; exact hp
  have hpart : partOf u p = partOf s p := hu.only.partOf (by decide) p
  have hcfg := stepCfg_setSeq (s := u) (p := p) (i := i) (a := (seqOf s p i).goesOn) hup
  have hcfgu : stepCfg u p = stepCfg s p := by rw [stepCfg, hpart, stepCfg]
  have hentry : btEntry (u.setSeq p i (seqOf s p i).goesOn) i = x := hu.entry
  have hstep : (partOf (u.setSeq p i (seqOf s p i).goesOn) p).stepNo = (partOf s p).stepNo := by rw [partOf_setSeq hup, hpart]
  have hset := onlyChanges_setSeq u p i (seqOf s p i).goesOn
  generalize u.setSeq p i (seqOf s p i).goesOn = b at hcfg hentry hstep hset ⊢
  have hsb : OnlyChanges s b [.mem, .regs, .freeIdx, .parts] := (hu.only.mono (by decide)).trans (hset.mono (by decide))
  have hqueue : queueOf b q = queueOf s q := hsb.queueOf (by decide) q
  have hfield : ∀ lo len, fieldOf b (rQueue q 0) lo len = fieldOf s (rQueue q 0) lo len := fun lo len =>
    (hset.field (by decide) _ lo len).trans (hu.field (by simp only [rQueue]; omega) lo len)
  rw [ends_pushOut_room (q := q) (by rw [hcfg, hcfgu, hq]) (by rw [qEn, hfield, ← qEn, hen]) (by rw [hqueue, hdrop])
    (by rw [qFree, qDepth, hfield, hqueue, ← qDepth, ← qFree]; exact hfree) (hsb.cleanMem (by decide) hclean)
    (by rw [show b.fab = s.fab from hsb .fab (by decide), hdir]) (by rw [show b.queues = s.queues from hsb .queues (by decide)]; exact hqs),
    tokenItemOf, hentry, hstep]

theorem beMaxPos_advanced (x : Item) (take : Nat) : beMaxPos (advanced x take) = beMaxPos x := by
  rw [beMaxPos, ibits_advanced _ _ (by decide) (.inr (by decide)), beMaxPos]

theorem beItem_advanced (x : Item) (take : Nat) :
    beSeq (advanced x take) = beSeq x ∧ beNode (advanced x take) = beNode x ∧ beStream (advanced x take) = beStream x :=
  ⟨ibits_advanced _ _ (by decide) (.inl (by decide)), ibits_advanced _ _ (by decide) (.inr (by decide)),
    ibits_advanced _ _ (by decide) (.inr (by decide))⟩

/-- The position of a sequence past its take. -/
def nextPos (s : State) (p i : Nat) : Nat := min 16777215 (bePos (btEntry s i) + (seqOf s p i).take)

/-- The greedy row of an ACTIVE sequence that goes on, with room in its OUT_Q. -/
structure GreedyRow (s : State) (p i : Nat) (m : Mdesc) (row : Nat) : Prop where
  range : (btRange s p).contains i = true
  small : i < 2 ^ 16
  active : beState (btEntry s i) = 2
  temp : ibits (btEntry s i) 160 32 = 0
  tier : tierOf m.base = .scratch
  token : greedyToken s m row (btEntry s i) ≠ ibits (btEntry s i) 128 32 ∨ greedyToken s m row (btEntry s i) = 0xFFFFFFFF
  last : nextPos s p i < beMaxPos (btEntry s i)
  pos : nextPos s p i < 16777215
  cancel : (seqOf s p i).cancel = false
  fault : serveFaulted s p = false
  en : qEn s (stOutQ (stepCfg s p)) = true
  drop : (queueOf s (stOutQ (stepCfg s p))).dropping = false
  free : 1 ≤ qFree s (stOutQ (stepCfg s p))
  apart : btBase s + 64 * i + 64 ≤ tailSlot s (stOutQ (stepCfg s p)) ∨ tailSlot s (stOutQ (stepCfg s p)) + 64 ≤ btBase s + 64 * i
  dir : s.fab.dir = []
  clean : CleanMem s
  mem : Rising s.mem
  queues : Rising s.queues
  parts : Rising s.parts

/-- The item of a greedy row (R79). -/
def greedyItem (s : State) (p i : Nat) (m : Mdesc) (row : Nat) : Item :=
  outItem (beSeq (btEntry s i)) (nextPos s p i) (greedyToken s m row (btEntry s i)) ((Config.freeWord s.freeIdx).toNat % 2 ^ 32) 0
    (partOf s p).stepNo.toNat (beNode (btEntry s i)) (beStream (btEntry s i)) i

/-- A partition has entries only while the batch table lies in shared SRAM (log entry 26). -/
theorem inSram_of_btRange {p i : Nat} (h : (btRange s p).contains i = true) : inSram (btBase s) = true := by
  by_contra hout
  rw [btRange, if_neg hout] at h
  cases h

theorem ends_sampleEntry_greedy {p i row : Nat} {m : Mdesc} {k : Unit → Prog} (h : GreedyRow s p i m row)
    (hQ : ∀ w, RowSampled s w p i (stOutQ (stepCfg s p)) (advanced (btEntry s i) (seqOf s p i).take) (greedyItem s p i m row) →
      Ends (k ()) w Q) : Ends (sampleEntry p row i m k) s Q := by
  obtain ⟨hseq, hnode, hstream⟩ := beItem_advanced (btEntry s i) (seqOf s p i).take
  refine ends_sampleEntry h.range h.active (inSram_of_btRange h.range) h.small h.temp h.tier (fun t ht => ?_) h.clean h.dir h.mem fun u hu => ?_
  · refine reasonOf_none ?_ ?_ h.pos (by rw [ht.seqOf, h.cancel]) (by rw [ht.serveFaulted, h.fault])
    · rw [ht.entry, ibits_advanced _ _ (by decide) (.inr (by decide))]
      exact h.token
    · rw [ht.entry, beMaxPos_advanced]
      exact h.last
  · rw [ends_pushOut_drawn hu rfl h.en h.drop h.free h.clean h.dir h.queues h.parts, hseq, hnode, hstream]
    exact hQ _ (rowSampled_accepted hu (stOutQ_lt _) h.queues h.parts h.apart)

/-! ## SAMPLE_DONE (R78, R79, R83, R86) -/

theorem memNat_two_lt (s : State) (a : Nat) : memNat s a 2 < 2 ^ 16 := by
  have h0 := (memAt s (a + 0)).isLt
  have h1 := (memAt s (a + 1)).isLt
  simp only [memNat, memBytes, List.range_succ, List.range_zero, List.nil_append, List.cons_append, List.map_cons, List.map_nil, leNat]
  omega

/-- No sampling is under way. -/
def State.unsampled (s : State) : State := { s with samples := [] }

/-- The only sampling, of one row, is done. -/
theorem ends_sampleDoneAct_one {th : Thr} {x : Sample} {a : AsyncCmd} {k : Unit → Prog} (hsamples : s.samples = [x])
    (hmine : (x.part == th.part.val && x.thread / 16 % 2048 == th.core.val && x.thread % 16 == th.tc.val) = true)
    (hasync : (threadOf s x.thread).asyncs = [(x.slot, a)]) (hone : cf a.w 8 0 32 = 1) (hclean : CleanMem s) :
    Ends (sampleDoneAct th k) s Q =
      Ends (sampleEntry x.part 0 (memNat s (cAddr a.w 20) 2) (mdescOf x.logits) fun _ => slotDone x.thread x.slot 0 k) s.unsampled Q := by
  have hfind : s.samples.find? (fun x => x.part == th.part.val && x.thread / 16 % 2048 == th.core.val && x.thread % 16 == th.tc.val) = some x := by
    rw [hsamples, List.find?_cons, hmine]
  have hfound : [(x.slot, a)].find? (fun e => e.1 == x.slot) = some (x.slot, a) := by simp
  have hclean' : CleanMem s.unsampled := hclean
  rw [sampleDoneAct, bind_apply, look_apply, ends_look, hfind]
  simp only [bind_apply, eff_apply]
  rw [ends_eff, hsamples, List.erase_cons_head, hasync, hfound]
  simp only [bind_apply]
  rw [show (Effect.samples []).apply s = s.unsampled from rfl, ends_consume_clean hclean', if_pos rfl, hone,
    show List.range 1 = [0] from rfl, bind_apply, List.forIn_cons, bind_apply, bind_apply, look_apply, ends_look, bind_apply]
  rfl

/-- A thread's only asynchronous command is done. -/
theorem threads_slotDone {n slot : Nat} {a : AsyncCmd} (h : (threadOf s n).asyncs = [(slot, a)]) :
    (s.setThread n { threadOf s n with asyncs := (threadOf s n).asyncs.map fun e =>
      if e.1 = slot then (e.1, { e.2 with phase := .done, flags := 0 }) else e }).threads =
    (s.setThread n { threadOf s n with asyncs := [(slot, { a with phase := .done, flags := 0 })] }).threads := by
  rw [h, List.map_cons, List.map_nil, if_pos rfl]

theorem sampleDone_holds (s : State) (th : Thr) (x : Sample) (a : AsyncCmd) : (sampleDone s th x a).Holds := by
  rintro ⟨hsamples, hpart, hcore, htc, hasync, hone, -, -, -, htier, hin, hactive, htemp, htoken, hlast, hpos, hcancel, hfault, hen, hdrop, hfree,
    happart, hdir, hclean, hc⟩
  refine answers_of_ends (sampleDoneAct th) rfl ?_
  rw [ends_sampleDoneAct_one hsamples (by simp [hpart, hcore, htc]) hasync hone hclean]
  have hrow : GreedyRow s.unsampled x.part (memNat s (cAddr a.w 20) 2) (mdescOf x.logits) 0 :=
    ⟨hin, memNat_two_lt s _, hactive, htemp, htier, htoken, hlast, hpos, hcancel, hfault, hen, hdrop, hfree, happart, hdir, hclean, hc.risingMem,
      hc.risingQueues, hc.risingParts⟩
  refine ends_sampleEntry_greedy hrow fun w hw => ?_
  have hthread : threadOf w x.thread = threadOf s x.thread := hw.only.threadOf (by decide) _
  have hthreads : w.threads = s.threads := (hw.only .threads (by decide)).1
  have hsamplesW : w.samples = [] := hw.only .samples (by decide)
  have hdone := threads_slotDone (s := s) hasync
  rw [slotDone, ends_modThread, ends_done, hthread]
  refine ⟨(congrArg bePos hw.entry).trans (bePos_advanced _ _), (congrArg beLeft hw.entry).trans (beLeft_advanced _ _), hw.queue, hw.seq, ?_,
    hsamplesW, hw.free, hw.mem, hw.regs, ?_⟩
  · rw [← hdone, State.setThread, Effect.apply, hthreads]
    rfl
  · exact ((onlyChanges_of_take (t := s.unsampled) rfl).trans (hw.only.mono (by decide))).trans (onlyChanges_of_take rfl)

/-- Settles O29: each request, cancel and sampling as what it leaves of its queue, its entry and its sequence. -/
theorem stepController : Obligations.StepController := by
  unfold Obligations.StepController
  intro s p word w x rest i c a more th v k slot m y b e cmd
  exact ⟨sreStepWrite_holds s p word w, scRequestTake_holds s p x rest i c a more, scRequestFull_holds s p x rest, scCancel_holds s p x rest i,
    scCancelUnknown_holds s p x rest, scWaits_holds s p e cmd, sampleSubmit_holds s th v k slot m, sampleDone_holds s th y b⟩

end Sys2Proof.Machine
end
